-- ==== Sys2Proof/Word.lean ====
section
/-!
DEFINITION. The word types of the module: bytes, 64-bit registers and words, the wide Facet register types,
and the shape of the sparse tables that the state is built of.
-/

namespace Sys2Proof

/-- One byte of a frame, a register value or memory (00 R18, R19). -/
abbrev Byte := BitVec 8
/-- A 64-bit register or scalar (00 "Register maps"; 08 R219). -/
abbrev Word := BitVec 64
/-- A 128-byte vector register (08 R219). -/
abbrev VWord := BitVec 1024
/-- A 128-bit predicate register (08 R219). -/
abbrev PWord := BitVec 128
/-- A 32-byte descriptor (`t`) register (08 R219). -/
abbrev TWord := BitVec 256

/-- A sparse table from natural-number keys: keys strictly rising; a key that is absent holds the table's default. -/
abbrev FMap (α : Type) := List (Nat × α)

/-- A wire frame or a byte string, first byte first (00 R19). -/
abbrev Bytes := List Byte

end Sys2Proof
end

