-- ==== Sys2Proof/Machine/Base.lean ====
section
/-!
DEFINITION. The plainest operations of the model: sparse tables in one canonical form, bit fields of natural numbers,
byte strings in both byte orders (00 R18–R20), and saturating counters.
-/

namespace Sys2Proof.Machine

/-- The entry of key `k`, if the table lists one. DESIGN CHOICE: log 3. -/
def fget? {α : Type} (m : FMap α) (k : Nat) : Option α :=
  match m with
  | [] => none
  | (j, v) :: t => if k = j then some v else fget? t k

/-- The table with `k` listed as `v`, every other key unchanged. DESIGN CHOICE: log 3. -/
def finsert {α : Type} (m : FMap α) (k : Nat) (v : α) : FMap α :=
  match m with
  | [] => [(k, v)]
  | (j, w) :: t =>
    if k = j then (k, v) :: t else if k < j then (k, v) :: (j, w) :: t else (j, w) :: finsert t k v

/-- The table with `k` not listed, every other key unchanged. DESIGN CHOICE: log 3. -/
def ferase {α : Type} (m : FMap α) (k : Nat) : FMap α :=
  match m with
  | [] => []
  | (j, w) :: t => if k = j then ferase t k else (j, w) :: ferase t k

/-- The value of `k` in a table whose unlisted keys hold `d`. -/
def fgetD {α : Type} (d : α) (m : FMap α) (k : Nat) : α := (fget? m k).getD d

/-- Writes `v` at `k` in a table whose unlisted keys hold `d`: writing `d` removes the entry, so equal tables are equal data. -/
def fsetD {α : Type} [DecidableEq α] (d : α) (m : FMap α) (k : Nat) (v : α) : FMap α :=
  if v = d then ferase m k else finsert m k v

/-- Writes an optional entry. -/
def fput {α : Type} (m : FMap α) (k : Nat) (o : Option α) : FMap α :=
  match o with
  | some v => finsert m k v
  | none => ferase m k

/-- Changes the value at `k` in a table whose unlisted keys hold `d`. -/
def fmodD {α : Type} [DecidableEq α] (d : α) (m : FMap α) (k : Nat) (f : α → α) : FMap α :=
  fsetD d m k (f (fgetD d m k))

/-- Changes the listed entry of `k`, if there is one. -/
def fmod {α : Type} (m : FMap α) (k : Nat) (f : α → α) : FMap α :=
  match fget? m k with
  | some v => finsert m k (f v)
  | none => m

/-- The keys of `m` are strictly rising. -/
def fsorted {α : Type} (m : FMap α) : Bool :=
  match m with
  | [] => true
  | [_] => true
  | (j, _) :: (k, v) :: t => decide (j < k) && fsorted ((k, v) :: t)

/-- The canonical form of a table whose unlisted keys hold `d`: keys strictly rising and no entry equal to `d`. -/
def fcanon {α : Type} [DecidableEq α] (d : α) (m : FMap α) : Bool :=
  fsorted m && m.all (fun e => e.2 != d)

/-- The least number below `n` that is not a key, from 0 up. -/
def ffree {α : Type} (m : FMap α) (n : Nat) : Option Nat :=
  (List.range n).find? (fun i => (fget? m i).isNone)

/-- The field of `x` at bits `[lo + w - 1 : lo]` (00 R20, R28). -/
def bitsN (x lo w : Nat) : Nat := (x >>> lo) % 2 ^ w

/-- One bit of `x`. -/
def bitN (x i : Nat) : Bool := x.testBit i

/-- A Bool as the number 0 or 1. -/
def b2n (b : Bool) : Nat := if b then 1 else 0

/-- `x` with bits `[lo + w - 1 : lo]` replaced by the low `w` bits of `v`. -/
def setBitsN (x lo w v : Nat) : Nat :=
  x % 2 ^ lo + (v % 2 ^ w) * 2 ^ lo + (x >>> (lo + w)) * 2 ^ (lo + w)

/-- `x` with bit `i` set to `b`. -/
def setBitN (x i : Nat) (b : Bool) : Nat := setBitsN x i 1 (b2n b)

/-- A number of `w` bits read as two's complement. -/
def toInt (w x : Nat) : Int := if x % 2 ^ w < 2 ^ (w - 1) then ((x % 2 ^ w : Nat) : Int) else ((x % 2 ^ w : Nat) : Int) - 2 ^ w

/-- An integer as `w` bits of two's complement. -/
def ofInt (w : Nat) (x : Int) : Nat := (x % (2 ^ w : Int)).toNat

/-- A byte from a natural number. -/
def byteOf (n : Nat) : Byte := BitVec.ofNat 8 n

/-- `n` bytes of `x`, least significant byte first (00 R18). DEDUCED: log 25. -/
def leBytes (n x : Nat) : Bytes :=
  match n with
  | 0 => []
  | k + 1 => byteOf x :: leBytes k (x / 256)

/-- The number whose bytes are `bs`, least significant byte first (00 R18). -/
def leNat (bs : Bytes) : Nat :=
  match bs with
  | [] => 0
  | b :: t => b.toNat + 256 * leNat t

/-- `n` bytes of `x`, most significant byte first (00 R19). DEDUCED: log 25. -/
def beBytes (n x : Nat) : Bytes := (leBytes n x).reverse

/-- The number whose bytes are `bs`, most significant byte first (00 R19). -/
def beNat (bs : Bytes) : Nat := bs.foldl (fun a b => a * 256 + b.toNat) 0

/-- The byte at offset `i` of a byte string; 0 past its end. -/
def byteAt (bs : Bytes) (i : Nat) : Nat := (bs.getD i 0).toNat

/-- `n` bytes of `bs` from offset `off`. -/
def slice (bs : Bytes) (off n : Nat) : Bytes := (bs.drop off).take n

/-- The big-endian number in the `n` bytes at offset `off` (00 R19). DEDUCED: log 25. -/
def beAt (bs : Bytes) (off n : Nat) : Nat := beNat (slice bs off n)

/-- The little-endian number in the `n` bytes at offset `off` (00 R18). -/
def leAt (bs : Bytes) (off n : Nat) : Nat := leNat (slice bs off n)

/-- `bs` with the bytes from `off` on replaced by `w`, its length kept. -/
def splice (bs : Bytes) (off : Nat) (w : Bytes) : Bytes :=
  bs.take off ++ w.take (bs.length - off) ++ bs.drop (off + w.length)

/-- `n` zero bytes. -/
def zeros (n : Nat) : Bytes := List.replicate n 0

/-- `bs` cut or padded with zero bytes to `n` bytes. -/
def padTo (bs : Bytes) (n : Nat) : Bytes := bs.take n ++ zeros (n - bs.length)

/-- All bytes are zero. -/
def allZero (bs : Bytes) : Bool := bs.all (· == 0)

/-- `a` divided by `b`, rounded up. -/
def ceilDiv (a b : Nat) : Nat := (a + b - 1) / b

/-- A list with no repeats and a new member at its end. -/
def addOnce {α : Type} [DecidableEq α] (l : List α) (x : α) : List α := if x ∈ l then l else l ++ [x]

/-- A list of equally long pieces of `bs`, `n` bytes each, `k` of them. -/
def chunks (bs : Bytes) (n k : Nat) : List Bytes := (List.range k).map (fun i => slice bs (i * n) n)

/-- Every listed number `a`, `a+1`, … `a+n-1`. -/
def rangeFrom (a n : Nat) : List Nat := (List.range n).map (a + ·)

/-- Replaces the `i`-th element of a list, if there is one. -/
def listSet {α : Type} (l : List α) (i : Nat) (x : α) : List α := l.set i x

/-- A counter of `w` bits that saturates (for example 03 "PRT counters": 2⁴⁸ − 1). -/
def satAdd (w x n : Nat) : Nat := min (x + n) (2 ^ w - 1)

end Sys2Proof.Machine
end

