-- ==== Sys2Proof/Machine/Float.lean ====
section
/-!
DEFINITION. Number formats and rounding (11): exact values, the floating formats, conversion, FP32 arithmetic, the function
units, block scales and stochastic rounding.
-/

namespace Sys2Proof.Machine

/-- An exact value that a floating format can name: `fin neg m e` is (−1)^neg × m × 2^e, with the sign of a zero kept (R335). -/
inductive FVal where
  | nan
  | inf (neg : Bool)
  | fin (neg : Bool) (m : Nat) (e : Int)
deriving DecidableEq, Repr

/-- The floating formats (11 "Element formats"). -/
inductive FFmt where
  | fp32 | bf16 | e5m2 | e4m3 | e2m1
deriving DecidableEq, Repr

/-- Fraction bits. -/
def FFmt.frac (f : FFmt) : Nat := match f with | .fp32 => 23 | .bf16 => 7 | .e5m2 => 2 | .e4m3 => 3 | .e2m1 => 1

/-- Exponent bits. -/
def FFmt.expo (f : FFmt) : Nat := match f with | .fp32 => 8 | .bf16 => 8 | .e5m2 => 5 | .e4m3 => 4 | .e2m1 => 2

/-- Bias. -/
def FFmt.bias (f : FFmt) : Nat := match f with | .fp32 => 127 | .bf16 => 127 | .e5m2 => 15 | .e4m3 => 7 | .e2m1 => 1

/-- Width in bits. -/
def FFmt.width (f : FFmt) : Nat := match f with | .fp32 => 32 | .bf16 => 16 | .e5m2 => 8 | .e4m3 => 8 | .e2m1 => 4

/-- The code of the largest finite magnitude. -/
def FFmt.maxCode (f : FFmt) : Nat :=
  match f with | .fp32 => 0x7F7FFFFF | .bf16 => 0x7F7F | .e5m2 => 0x7B | .e4m3 => 0x7E | .e2m1 => 0x7

/-- The canonical NaN code (R337); E2M1 has none and takes 0 (R345). -/
def FFmt.nanCode (f : FFmt) : Nat :=
  match f with | .fp32 => 0x7FC00000 | .bf16 => 0x7FC0 | .e5m2 => 0x7E | .e4m3 => 0x7F | .e2m1 => 0x0

/-- The exponent of the smallest normal number. -/
def FFmt.emin (f : FFmt) : Int := 1 - (f.bias : Int)

/-- The magnitude code that ±inf converts to (R345). -/
def FFmt.infCode (f : FFmt) : Nat := match f with | .fp32 => 0x7F800000 | .bf16 => 0x7F80 | .e5m2 => 0x7C | g => g.maxCode

/-- The magnitude code that a finite value which rounds above the range converts to (R345). -/
def FFmt.overCode (f : FFmt) : Nat := match f with | .fp32 => 0x7F800000 | .bf16 => 0x7F80 | g => g.maxCode

/-- The value of a code (R335, R336). -/
def FFmt.decode (f : FFmt) (code : Nat) : FVal :=
  let neg := bitN code (f.width - 1)
  let ex := bitsN code f.frac f.expo
  let fr := code % 2 ^ f.frac
  let top := ex = 2 ^ f.expo - 1
  let normal := if ex = 0 then FVal.fin neg fr (f.emin - f.frac) else FVal.fin neg (2 ^ f.frac + fr) (f.emin - f.frac + (ex - 1 : Nat))
  match f with
  | .e2m1 => normal
  | .e4m3 => if top ∧ fr = 7 then .nan else normal
  | _ => if top then (if fr = 0 then .inf neg else .nan) else normal

/-- m × 2^e as a multiple of 2^q: the whole multiples, and whether the rest is below, at or above one half (0: exact, 1: below,
2: at, 3: above). -/
def splitAt (m : Nat) (e q : Int) : Nat × Nat :=
  if q ≤ e then (m <<< (e - q).toNat, 0)
  else
    let k := (q - e).toNat
    let n := m >>> k
    let r := m - (n <<< k)
    let half := 1 <<< (k - 1)
    (n, if r = 0 then 0 else if r < half then 1 else if r = half then 2 else 3)

/-- Rounds to nearest, ties to even, onto multiples of 2^q. -/
def roundNE (m : Nat) (e q : Int) : Nat :=
  match splitAt m e q with
  | (n, 0) => n
  | (n, 1) => n
  | (n, 2) => n + n % 2
  | (n, _) => n + 1

/-- The binary exponent of a nonzero m × 2^e. -/
def expOf (m : Nat) (e : Int) : Int := (Nat.log2 m : Int) + e

/-- The exponent of the grid of `f` at magnitude m × 2^e. -/
def FFmt.quantum (f : FFmt) (m : Nat) (e : Int) : Int := max (expOf m e) f.emin - f.frac

/-- The magnitude code of n multiples of the grid at m × 2^e. -/
def FFmt.codeAt (f : FFmt) (m : Nat) (e : Int) (n : Nat) : Nat := (max (expOf m e) f.emin - f.emin).toNat * 2 ^ f.frac + n

/-- Puts a sign on a magnitude code. -/
def FFmt.sign (f : FFmt) (neg : Bool) (code : Nat) : Nat := b2n neg * 2 ^ (f.width - 1) + code

/-- Conversion into a floating format: to nearest, ties to even, with the outcomes of R345. -/
def FFmt.encode (f : FFmt) (v : FVal) : Nat :=
  match v with
  | .nan => f.nanCode
  | .inf neg => f.sign neg f.infCode
  | .fin neg m e =>
    if m = 0 then f.sign neg 0
    else
      let c := f.codeAt m e (roundNE m e (f.quantum m e))
      f.sign neg (if f.maxCode < c then f.overCode else c)

/-- A value as an integer, to nearest, ties to even (R346). -/
def roundInt (v : FVal) : Int :=
  match v with
  | .fin neg m e => let n := roundNE m e 0; if neg then -(n : Int) else n
  | _ => 0

/-- Saturates to `[lo, hi]`. -/
def satInt (lo hi x : Int) : Int := max lo (min hi x)

/-- Conversion of a value into a plain two's-complement type of `w` bits (R345, R346), as a code. -/
def toIntCode (w : Nat) (v : FVal) : Nat :=
  match v with
  | .nan => 0
  | .inf neg => if neg then 2 ^ (w - 1) else 2 ^ (w - 1) - 1
  | x => ofInt w (satInt (-(2 ^ (w - 1) : Int)) (2 ^ (w - 1) - 1) (roundInt x))

/-- An integer as an exact value. -/
def intVal (x : Int) : FVal := .fin (decide (x < 0)) x.natAbs 0

/-- A signed numerator × 2^e as a value; an exact zero is +0. -/
def dyadic (x : Int) (e : Int) : FVal := .fin (decide (x < 0)) x.natAbs e

/-- Signed mantissa. -/
def signed (neg : Bool) (m : Nat) : Int := if neg then -(m : Int) else m

/-- Exact sum: of two zeros the sign is kept when both agree, and any other zero sum is +0. -/
def FVal.add (a b : FVal) : FVal :=
  match a, b with
  | .nan, _ => .nan
  | _, .nan => .nan
  | .inf x, .inf y => if x = y then .inf x else .nan
  | .inf x, _ => .inf x
  | _, .inf y => .inf y
  | .fin x m e, .fin y n g =>
    if m = 0 ∧ n = 0 then .fin (x && y) 0 0
    else
      let q := min e g
      dyadic (signed x (m <<< (e - q).toNat) + signed y (n <<< (g - q).toNat)) q

/-- Exact product. -/
def FVal.mul (a b : FVal) : FVal :=
  match a, b with
  | .nan, _ => .nan
  | _, .nan => .nan
  | .inf x, .inf y => .inf (x != y)
  | .inf x, .fin y n _ => if n = 0 then .nan else .inf (x != y)
  | .fin x m _, .inf y => if m = 0 then .nan else .inf (x != y)
  | .fin x m e, .fin y n g => .fin (x != y) (m * n) (e + g)

/-- Negation. -/
def FVal.neg (a : FVal) : FVal :=
  match a with
  | .nan => .nan
  | .inf x => .inf (!x)
  | .fin x m e => .fin (!x) m e

/-- Magnitude. -/
def FVal.abs (a : FVal) : FVal :=
  match a with
  | .nan => .nan
  | .inf _ => .inf false
  | .fin _ m e => .fin false m e

/-- Multiplies by 2^k. -/
def FVal.scale (a : FVal) (k : Int) : FVal :=
  match a with
  | .fin x m e => .fin x m (e + k)
  | y => y

/-- a < b, false for a NaN; ±0 are equal. -/
def FVal.lt (a b : FVal) : Bool :=
  match a, b with
  | .nan, _ => false
  | _, .nan => false
  | .inf x, .inf y => x && !y
  | .inf x, _ => x
  | _, .inf y => !y
  | .fin x m e, .fin y n g =>
    let q := min e g
    decide (signed x (m <<< (e - q).toNat) < signed y (n <<< (g - q).toNat))

/-- a = b, false for a NaN; ±0 are equal. -/
def FVal.eqv (a b : FVal) : Bool :=
  match a, b with
  | .nan, _ => false
  | _, .nan => false
  | x, y => !(x.lt y) && !(y.lt x)

/-- a ≤ b, false for a NaN. -/
def FVal.le (a b : FVal) : Bool := a.lt b || a.eqv b

/-- The value is a NaN. -/
def FVal.isNan (a : FVal) : Bool := a == .nan

/-- The value is infinite or a NaN. -/
def FVal.special (a : FVal) : Bool := match a with | .fin _ _ _ => false | _ => true

/-- The sign of a value that is no NaN. -/
def FVal.isNeg (a : FVal) : Bool := match a with | .nan => false | .inf x => x | .fin x _ _ => x

/-! ### FP32 arithmetic (R348) -/

/-- The value of an FP32 code. -/
def f32 (c : Nat) : FVal := FFmt.fp32.decode (c % 2 ^ 32)

/-- FP32 sum, rounded once. -/
def f32Add (a b : Nat) : Nat := FFmt.fp32.encode ((f32 a).add (f32 b))

/-- FP32 product, rounded once. -/
def f32Mul (a b : Nat) : Nat := FFmt.fp32.encode ((f32 a).mul (f32 b))

/-- Fused multiply-add of values in a format, rounded once. -/
def fmaIn (f : FFmt) (a b c : Nat) : Nat := f.encode (((f.decode a).mul (f.decode b)).add (f.decode c))

/-! ### Function units (R349, R350) -/

/-- The binary exponent of num / den. -/
def ratExp (num den : Nat) : Int :=
  let k : Int := (Nat.log2 num : Int) - Nat.log2 den
  if (if 0 ≤ k then decide (den <<< k.toNat ≤ num) else decide (den ≤ num <<< (-k).toNat)) then k else k - 1

/-- num / den rounded toward zero onto the grid of R349, as an FP32 code; +inf where it exceeds the largest finite value. -/
def truncGrid (neg : Bool) (num den : Nat) : Nat :=
  if num = 0 then FFmt.fp32.sign neg 0
  else
    let l := ratExp num den
    if 128 ≤ l then FFmt.fp32.sign neg FFmt.fp32.infCode
    else
      let q := max (l - 16) (-149)
      let n := if 0 ≤ q then num / (den <<< q.toNat) else (num <<< (-q).toNat) / den
      FFmt.fp32.encode (.fin neg n q)

/-- ln 2 in units of 2⁻²⁵⁶. -/
def ln2Fix : Nat := 80260960185991308862233904206310070533990667611589946606122867505419956976171

/-- One in units of 2⁻²⁵⁶. -/
def oneFix : Nat := 2 ^ 256

/-- Σ yᵏ/k! from the k-th term on, in units of 2⁻²⁵⁶. -/
def expSeries (y term k fuel : Nat) : Nat :=
  match fuel with
  | 0 => term
  | n + 1 => term + expSeries y (term * y / oneFix / (k + 1)) (k + 1) n

/-- e^y in units of 2⁻²⁵⁶, for y ≥ 0 in the same units. -/
def expFix (y : Nat) : Nat := (expSeries (y % ln2Fix) oneFix 0 70) <<< (y / ln2Fix)

/-- Σ z^(2k+1)/(2k+1), in units of 2⁻²⁵⁶. -/
def atanhSeries (z2 term k fuel : Nat) : Nat :=
  match fuel with
  | 0 => 0
  | n + 1 => term / (2 * k + 1) + atanhSeries z2 (term * z2 / oneFix) (k + 1) n

/-- log₂ of m / 2^(log2 m), in units of 2⁻²⁵⁶. -/
def log2Fix (m : Nat) : Nat :=
  let p := 2 ^ Nat.log2 m
  let z := (m - p) * oneFix / (m + p)
  2 * atanhSeries (z * z / oneFix) z 0 100 * oneFix / ln2Fix

/-- A positive m × 2^e in units of 2⁻²⁵⁶, cut. -/
def toFix (m : Nat) (e : Int) : Nat := if 0 ≤ e + 256 then m <<< (e + 256).toNat else m >>> (-(e + 256)).toNat

/-- 2^a (R349, R350). DEDUCED: log 97. -/
def fnExp2 (a : Nat) : Nat :=
  match f32 a with
  | .nan => FFmt.fp32.nanCode
  | .inf neg => if neg then 0 else FFmt.fp32.infCode
  | .fin neg m e =>
    if m = 0 then 0x3F800000
    else if expOf m e < -40 then (if neg then truncGrid false (2 ^ 17 - 1) (2 ^ 17) else 0x3F800000)
    else if 9 ≤ expOf m e then (if neg then 0 else FFmt.fp32.infCode)
    else
      let x := toFix m e
      let n := x / oneFix
      let f := x % oneFix
      if f = 0 then (if neg then truncGrid false 1 (2 ^ n) else truncGrid false (2 ^ n) 1)
      else
        let p := expSeries (f * ln2Fix / oneFix) oneFix 0 70
        if neg then truncGrid false oneFix (p <<< n) else truncGrid false (p <<< n) oneFix

/-- log₂ a (R349, R350). DEDUCED: log 97. -/
def fnLog2 (a : Nat) : Nat :=
  match f32 a with
  | .nan => FFmt.fp32.nanCode
  | .inf neg => if neg then FFmt.fp32.nanCode else FFmt.fp32.infCode
  | .fin neg m e =>
    if m = 0 then FFmt.fp32.sign true FFmt.fp32.infCode
    else if neg then FFmt.fp32.nanCode
    else
      let v : Int := expOf m e * (oneFix : Int) + log2Fix m
      truncGrid (decide (v < 0)) v.natAbs oneFix

/-- 1 / a (R349, R350). DEDUCED: log 97. -/
def fnRcp (a : Nat) : Nat :=
  match f32 a with
  | .nan => FFmt.fp32.nanCode
  | .inf neg => FFmt.fp32.sign neg 0
  | .fin neg m e =>
    if m = 0 then FFmt.fp32.sign neg FFmt.fp32.infCode
    else if 0 ≤ e then truncGrid neg 1 (m <<< e.toNat) else truncGrid neg (1 <<< (-e).toNat) m

/-- 1 / √a (R349, R350): ⌊√⌋ of an exact integer square keeps every grid decision exact. -/
def fnRsqrt (a : Nat) : Nat :=
  match f32 a with
  | .nan => FFmt.fp32.nanCode
  | .inf neg => if neg then FFmt.fp32.nanCode else 0
  | .fin neg m e =>
    if m = 0 then FFmt.fp32.sign neg FFmt.fp32.infCode
    else if neg then FFmt.fp32.nanCode
    else
      -- a = m' × 2^(2h) with an even exponent; 1/√a = √(2^200 / m') / 2^(100 + h)
      let odd := e % 2 = 1
      let m' := if odd then 2 * m else m
      let h : Int := if odd then (e - 1) / 2 else e / 2
      let r := Nat.sqrt (2 ^ 200 / m')
      let k : Int := 100 + h
      if 0 ≤ k then truncGrid false r (2 ^ k.toNat) else truncGrid false (r <<< (-k).toNat) 1

/-- The predecessor on the grid of R349 of a positive value that lies on it, and the cut of one that does not: the grid value
just below m × 2^e. -/
def belowGrid (neg : Bool) (m : Nat) (e : Int) : Nat :=
  if 0 ≤ e then truncGrid neg (m <<< (e.toNat + 400) - 1) (2 ^ 400) else truncGrid neg (m <<< 400 - 1) (2 ^ ((-e).toNat + 400))

/-- tanh a (R349, R350): |tanh a| < |a|, and below 2⁻²⁰ it is nearer to |a| than any grid value. -/
def fnTanh (a : Nat) : Nat :=
  match f32 a with
  | .nan => FFmt.fp32.nanCode
  | .inf neg => FFmt.fp32.sign neg 0x3F800000
  | .fin neg m e =>
    if m = 0 then FFmt.fp32.sign neg 0
    else if expOf m e < -20 then belowGrid neg m e
    else if 4 ≤ expOf m e then truncGrid neg (2 ^ 17 - 1) (2 ^ 17)
    else
      let x := expFix (2 * toFix m e)
      truncGrid neg (x - oneFix) (x + oneFix)

/-- 1 / (1 + e^(−a)) (R349, R350). -/
def fnSigm (a : Nat) : Nat :=
  match f32 a with
  | .nan => FFmt.fp32.nanCode
  | .inf neg => if neg then 0 else 0x3F800000
  | .fin neg m e =>
    if m = 0 then 0x3F000000
    else if expOf m e < -40 then (if neg then truncGrid false (2 ^ 18 - 1) (2 ^ 19) else 0x3F000000)
    else if 7 ≤ expOf m e then (if neg then 0 else truncGrid false (2 ^ 17 - 1) (2 ^ 17))
    else
      let x := expFix (toFix m e)
      if neg then truncGrid false oneFix (oneFix + x) else truncGrid false x (oneFix + x)

/-! ### Block scales and scaled lines (R338–R347) -/

/-- The element formats that scaled lines and plain tensors store. -/
inductive EFmt where
  | flt (f : FFmt)
  | int (w : Nat)
deriving DecidableEq, Repr

/-- Bits of an element. -/
def EFmt.bits (f : EFmt) : Nat := match f with | .flt g => g.width | .int w => w

/-- The exponent of the unit of a scaled-line integer: 2⁻⁶ for INT8, 2⁻² for INT4 (R339). -/
def scaleUnit (w : Nat) : Int := if w = 8 then -6 else -2

/-- The value of an element of a plain tensor (R339). -/
def EFmt.plain (f : EFmt) (code : Nat) : FVal := match f with | .flt g => g.decode code | .int w => intVal (toInt w code)

/-- The value of an element of a scaled line under scale byte `s` (R339, R341). -/
def EFmt.scaled (f : EFmt) (code s : Nat) : FVal :=
  if s = 0xFF then .nan
  else match f with
    | .flt g => (g.decode code).scale ((s : Int) - 127)
    | .int w => (intVal (toInt w code)).scale (scaleUnit w + ((s : Int) - 127))

/-- EMAX of a block scale (R347). -/
def EFmt.emax (f : EFmt) : Int :=
  match f with
  | .flt .e2m1 => 2
  | .flt .e4m3 => 8
  | .flt .e5m2 => 15
  | _ => 0

/-- The larger magnitude of two finite values. -/
def maxAbs (a b : FVal) : FVal := if a.abs.lt b.abs then b.abs else a.abs

/-- The scale byte of a block (R347). -/
def blockScale (f : EFmt) (vs : List FVal) : Nat :=
  if vs.any FVal.special then 0xFF
  else match vs.foldl maxAbs (.fin false 0 0) with
    | .fin _ m e => if m = 0 then 0 else (max (-127) (expOf m e - f.emax) + 127).toNat
    | _ => 0xFF

/-! ### Stochastic rounding (R351–R353) -/

/-- mix (R352). -/
def srMix (z : Nat) : Nat :=
  let m := 2 ^ 64
  let z1 := (z ^^^ (z >>> 30)) * 0xBF58476D1CE4E5B9 % m
  let z2 := (z1 ^^^ (z1 >>> 27)) * 0x94D049BB133111EB % m
  z2 ^^^ (z2 >>> 31)

/-- R, the 16 random bits of an element (R352). DEDUCED: log 98. -/
def srBits (tid ep idx : Nat) : Nat := srMix (srMix (tid % 2 ^ 32 * 2 ^ 32 + ep % 2 ^ 32) ^^^ idx % 2 ^ 48) % 2 ^ 16

/-- sr_round (R353), as a code; ±inf gives the largest finite value for BF16 and the outcomes of R345 otherwise. DEDUCED: log 98. -/
def srRound (f : FFmt) (v : FVal) (r : Nat) : Nat :=
  match v with
  | .nan => f.nanCode
  | .inf neg => f.sign neg (if f = .bf16 then f.maxCode else f.infCode)
  | .fin neg m e =>
    if m = 0 then f.sign neg 0
    else
      let q := f.quantum m e
      let t := (splitAt m e q).1
      let d := (splitAt m e (q - 16)).1 - t * 2 ^ 16
      let n := if 2 ^ 16 ≤ d + r then t + 1 else t
      f.sign neg (min f.maxCode (f.codeAt m e n))

/-- Conversion of a value into an element of a format (R345, R346); `sr` carries the random bits where the descriptor selects
stochastic rounding (R351). A scaled-line integer multiplies first and saturates at ±127 or ±7 (R340, R347). DEDUCED: log 98. -/
def EFmt.convert (f : EFmt) (scaledLine : Bool) (sr : Option Nat) (v : FVal) : Nat :=
  match f with
  | .flt g => match sr with
    | some r => srRound g v r
    | none => g.encode v
  | .int w =>
    if scaledLine then ofInt w (satInt (-(2 ^ (w - 1) - 1 : Int)) (2 ^ (w - 1) - 1) (roundInt (v.scale (-(scaleUnit w)))))
    else toIntCode w v

/-- The code of one element of a block under its scale byte (R347). -/
def blockCode (f : EFmt) (s : Nat) (sr : Option Nat) (v : FVal) : Nat :=
  if s = 0xFF then 0 else f.convert true sr (v.scale (-((s : Int) - 127)))

end Sys2Proof.Machine
end

