-- ==== Sys2Proof/Machine/FacetTypes.lean ====
section
/-!
DEFINITION. The state of the Facet cores (08, 09), their Lattice pairs (10), movers (12), translation units (13) and the HBM
controllers (14).
-/

namespace Sys2Proof.Machine

/-- The six slots of a bundle, in the order of R249. -/
inductive SlotId where
  | sa | sb | vx | mx | dx | cx
deriving DecidableEq, Repr

/-- A register that a load in flight will write. -/
inductive RegRef where
  | s (n : Nat)
  | v (n : Nat)
  | t (n : Nat)
deriving DecidableEq, Repr

/-- A load from outside the core's own Ring store whose data has still to arrive (08 R228): its register, the value it will hold
and its poison bit. -/
structure LoadWait where
  reg : RegRef
  val : Nat
  poison : Bool
deriving DecidableEq, Repr

/-- One dimension of a tensor as a descriptor and its tables give it (12 R357, R359, R383): extent, stride, pads, and the
sharding kind, axis, N and global extent. -/
structure Dim where
  ext : Nat
  stride : Int
  pb : Nat
  pa : Nat
  kind : Nat
  axis : Nat
  n : Nat
  g : Nat
deriving DecidableEq, Repr

/-- A descriptor in use (12 R357–R361): its head and its dimensions. -/
structure Tensor where
  base : Nat
  fmt : Nat
  dims : List Dim
  padw : Bool
  sr : Bool
  fill : Nat
  tid : Nat
  ep : Nat
deriving DecidableEq, Repr

/-- What a transfer in progress waits for (13 R401, R403): nothing, or a pending fault. -/
inductive XferSt where
  | running
  | fault (fseq : Nat)
deriving DecidableEq, Repr

/-- What a transfer keeps beside its resume record: the source bytes that it also writes, as they stood when it started, each with its poison
(12 R371); and for an MGET unit whose request is outstanding the virtual address of its destination with the physical one it was translated to, and
whether that translation has been discarded since (13 R398). -/
structure XferMem where
  old : FMap (Byte × Bool)
  dest : Option (Nat × Nat)
  stale : Bool
deriving DecidableEq, Repr

/-- Nothing kept. -/
def XferMem.none_ : XferMem := { old := [], dest := none, stale := false }

/-- A transfer in progress (12 R369, 13 R403): opcode, descriptors as issued with adjusted bases, the tensors read at issue, list
address and entry count, MST's array, bank and transposition, Span peer, epoch and mesh, units completed, and whether poison
has been read. -/
structure Xfer where
  op : Nat
  srcD : Nat
  dstD : Nat
  src : Tensor
  dst : Tensor
  list : Nat
  count : Nat
  peer : Nat
  epoch : Nat
  mesh : List Nat
  unit : Nat
  poison : Bool
  st : XferSt
  keep : XferMem
deriving DecidableEq, Repr

/-- The state of a transfer tag (09 R276). -/
inductive TagSt where
  | idle
  | busy (x : Xfer)
  | done
  | failed (status : Nat)
deriving DecidableEq, Repr

/-- What a resident context does (08 FCT_HC_h.STATE). A suspended bundle names its fault: FSEQ, access source and address. -/
inductive HcSt where
  | issuing
  | waiting
  | runAhead
  | suspended (fseq src va : Nat) (slot : SlotId)
  | debug
deriving DecidableEq, Repr

/-- An entry of the run-ahead buffer (08 R234, R235): virtual and physical address, bytes and poison. -/
structure AheadEntry where
  va : Nat
  pa : Nat
  data : Bytes
  poison : Bool
deriving DecidableEq, Repr

/-- The shadow of a context in run-ahead (08 R233, R234): its s, v, p and t registers, PC, the registers marked invalid (kind 0 s, 1 v,
2 p, 3 t, with their numbers), and whether it has stopped at a bundle. -/
structure Ahead where
  s : FMap Word
  v : FMap VWord
  p : FMap PWord
  t : FMap TWord
  pc : Nat
  bad : List (Nat × Nat)
  halted : Bool
deriving DecidableEq, Repr

/-- The state of a context in a hardware context (08 R219), with what its core keeps beside it: claim class, whether RUN started
it, the bundles issued since it was restored or started and its place in that order, the quantum in force, the loads in flight,
the disposition of a restored suspended bundle, the failure code of a refused matrix operand, the suppression of breakpoint
checks for one bundle, a single step in progress, the frame it still keeps while it waits on its claim, a
preemption in progress (STATE 5), an EXIT that still waits for what its bundle started (R245), the shadow of a run-ahead and the run-ahead
buffer. -/
structure Hc where
  ctx : Nat
  s : FMap Word
  v : FMap VWord
  p : FMap PWord
  t : FMap TWord
  sPoison : Nat
  vPoison : Nat
  tPoison : Nat
  pc : Nat
  layer : Nat
  oper : Nat
  runstat : Nat
  param : Nat
  rlen : Nat
  qstat : Nat
  qd : FMap Nat
  cls : Nat
  isRun : Bool
  st : HcSt
  tags : FMap TagSt
  loads : List LoadWait
  issued : Nat
  born : Nat
  quantum : Nat
  disp : Nat
  mxRef : Nat
  skipBrk : Bool
  stepOne : Bool
  heldFrame : Option Nat
  stop : Bool
  exiting : Bool
  ahead : Option Ahead
  buf : List AheadEntry
deriving DecidableEq, Repr

/-- A save frame (08 FCT_FRAME_f): STATE, context ID, and its place in the order of saves. -/
structure FrameSt where
  st : Nat
  ctx : Nat
  order : Nat
deriving DecidableEq, Repr

/-- A free frame. -/
def FrameSt.free : FrameSt := { st := 0, ctx := 0, order := 0 }

/-- Codes by position and one scale for each 32-element block of a vector of K elements. -/
structure KVec where
  codes : List Nat
  scales : List Nat
deriving DecidableEq, Repr

/-- A stationary operand of a slice (10 R302, R322): the fields of its reload record, its columns, what the checksum column loads with them,
the sums and the sums of magnitudes of the elements of each row (R324), and the failure that its loading met. -/
structure LatSlice where
  tb : Nat
  fmt : Nat
  kv : Nat
  nv : Nat
  arr0 : Bool
  cols : List KVec
  wc : List FVal
  wa : List FVal
  fail : Nat
deriving DecidableEq, Repr

/-- What the replay buffers hold of a pass (10 R326) and what its check needs (R324): format pair, valid K elements, activation vectors,
the stationary operand's columns, and its checksum sums. -/
structure Replay where
  fmt : Nat
  kv : Nat
  acts : List KVec
  cols : List KVec
  wc : List FVal
  wa : List FVal
deriving DecidableEq, Repr

/-- What a matrix instruction in flight will write (10 R307, R314, R382): a pass from its operands, an element-wise tile, a loaded tile, or
zeros. -/
inductive MxKind where
  | pass (acc : Bool) (r : Replay)
  | mew (add : Bool) (x : List (List Nat))
  | mla (x : List (List Nat))
  | mzero
deriving DecidableEq, Repr

/-- A matrix instruction in flight on one array (10 R318, R319): array, slice, bank, what it writes, the failed checks so far, the spare
array that computes it (core and array; R326 step 3), and the failure code it carries. -/
structure MxWork where
  array : Nat
  slice : Nat
  bank : Nat
  kind : MxKind
  failed : Nat
  spare : Option (Nat × Nat)
  fail : Nat
deriving DecidableEq, Repr

/-- A Lattice pair (10 R299–R302): shapes, stationary operands by 4a + s, accumulators by ((4a + b) × 32 + row) × 32 + column,
failure codes by 16a + 4b + g, and the instructions in flight in issue order. -/
structure Lattice where
  shape0 : Nat
  shape1 : Nat
  slices : FMap LatSlice
  acc : FMap (BitVec 32)
  codes : FMap Nat
  work : List MxWork
deriving DecidableEq, Repr

/-- A Lattice pair at a claim grant (10 R302, 08 R232). -/
def Lattice.reset : Lattice := { shape0 := 0, shape1 := 0, slices := [], acc := [], codes := [], work := [] }

/-- A claim that waits (10 R321): its hardware context, its class, and the consecutive grants of the other class it has waited
through. -/
structure ClaimWait where
  hc : Nat
  cls : Nat
  passed : Nat
deriving DecidableEq, Repr

/-- A line of the bundle cache (08 R230): context, virtual address, the bundle, and an uncorrectable error in it. -/
structure BundleLine where
  ctx : Nat
  va : Nat
  bits : Nat
  poison : Bool
deriving DecidableEq, Repr

/-- The self-test of one array (10 R332–R334): under test and since when, wanted at the next idle period, when last tested, overdue, and
the value of LAT_BIST with which its last test began (none: the register's reset value). -/
structure Bist where
  since : Option Nat
  wanted : Bool
  lastAt : Nat
  overdue : Bool
  setting : Option Word
deriving DecidableEq, Repr

/-- The self-test state after reset. -/
def Bist.reset : Bist := { since := none, wanted := false, lastAt := 0, overdue := false, setting := none }

/-- One Facet core: its resident contexts, save frames, Lattice claim and pair, bundle cache, fault records that wait for ring
room, the resolutions that are held (13 R405), oldest first, evacuation and reserve, self-test, and the last time its pair was in use. -/
structure CoreSt where
  hcs : FMap Hc
  frames : FMap FrameSt
  order : Nat
  claim : Option Nat
  claims : List ClaimWait
  lat : Lattice
  cache : List BundleLine
  faults : List Bytes
  held : List (Nat × Nat)
  evac : Bool
  reserve : Bool
  spareBusy : Nat
  bist0 : Bist
  bist1 : Bist
  idleFrom : Nat
  sched : Nat
deriving DecidableEq, Repr

/-- A core after reset. -/
def CoreSt.reset : CoreSt :=
  { hcs := [], frames := [], order := 0, claim := none, claims := [], lat := Lattice.reset, cache := [], faults := [],
    held := [], evac := false, reserve := false, spareBusy := 0, bist0 := Bist.reset, bist1 := Bist.reset, idleFrom := 0, sched := 0 }

/-- A cached leaf of a translation unit (13 R396): context, virtual page, level, leaf entry. -/
structure CachedLeaf where
  ctx : Nat
  page : Nat
  level : Nat
  entry : Nat
deriving DecidableEq, Repr

/-- A cached pointer of a translation unit (13 R396): context, the virtual address bits above the level it leads to, that level,
and the table's address. -/
structure CachedPtr where
  ctx : Nat
  bits : Nat
  level : Nat
  table : Nat
deriving DecidableEq, Repr

/-- The caches of a translation unit: the most recent first, at most 1,024 leaves and 64 pointers. -/
structure XltUnit where
  leaves : List CachedLeaf
  ptrs : List CachedPtr
deriving DecidableEq, Repr

/-- A translation unit after reset. -/
def XltUnit.reset : XltUnit := { leaves := [], ptrs := [] }

/-- The errors that the limits of 14 R418 count for a pseudo-channel: the clock ticks of the uncorrectable ones in the last second, and the
number of corrected ones by second. -/
structure PcErrors where
  ues : List Nat
  ces : FMap Nat
deriving DecidableEq, Repr

/-- No error. -/
def PcErrors.none_ : PcErrors := { ues := [], ces := [] }

/-- What a saved context keeps of a tag that its resume record does not hold (08 R219, R220; 09 R276–R278): that it is DONE or FAILED, or
that its transfer has read poison. -/
inductive TagMark where
  | done
  | failed (status : Nat)
  | poison
deriving DecidableEq, Repr

/-- The Facet cores, the translation units (cores 0–1279, 1280 the GCT memory port, 1281 Span inbound), the HBM rebuilds that wait, by
stack, the lines that reads and writes have rebuilt ahead of the walk (14 R419), by stack, the clock tick from which each stack's time in
throttling is still to be counted and the ticks that the count has left over (14 R421), the errors of pseudo-channels by 32 × stack +
pseudo-channel, and the marks of the tags of contexts in frames, by context ID and tag. -/
structure Facet where
  cores : FMap CoreSt
  units : FMap XltUnit
  rebuildWait : FMap (List Nat)
  rebuilt : FMap (List Nat)
  hotSince : FMap Nat
  hotRest : FMap Nat
  pcErrors : FMap PcErrors
  marks : FMap (FMap TagMark)
deriving DecidableEq, Repr

end Sys2Proof.Machine
end

