-- ==== Sys2Proof/Machine/FrameTypes.lean ====
section
/-!
DEFINITION. The frames of GCT (02 R60–R63) as commands carry them, and other operands of more than one field.
-/

namespace Sys2Proof

/-- The UDP form of a frame (02 R60): address family, addresses and source port, and the bytes of the frame that are neither in an IP header
without options nor in the datagram: IPv4 options, and what follows the datagram before the FCS. -/
structure UdpInfo where
  v6 : Bool
  src : Nat
  dst : Nat
  sport : Nat
  extra : Nat
deriving DecidableEq, Repr

/-- A port on which frames arrive and leave: a command port, or a packet logical port. -/
inductive PortId where
  | command (n : Fin 2)
  | logical (m : Fin 64)
deriving DecidableEq, Repr

/-- A GCT command frame (02 R60–R63): where it came from, its header fields, its LENGTH, the bytes that follow the header up to
the last one that may belong to the command (body, tag and padding; 02 R64). -/
structure CmdFrame where
  port : PortId
  smac : Nat
  vlan : Option Nat
  udp : Option UdpInfo
  version : Nat
  kind : Nat
  flags : Nat
  session : Nat
  seq : Nat
  opcode : Nat
  length : Nat
  status : Nat
  resv : Nat
  rest : Bytes
deriving DecidableEq, Repr

/-- An error in a pass of a Lattice array (10 R324): the column sum of block `blk` of vector `vec` and column `col` is off by
(−1)^neg × mant × 2^exp, in the units of the elements without their scales. -/
structure SumError where
  vec : Nat
  blk : Nat
  col : Nat
  neg : Bool
  mant : Nat
  exp : Int
deriving DecidableEq, Repr

/-- An error in a pass of a Lattice array (10 R324): the result element of vector `vec` and column `col` is written toward the bank with the
bits of `mask` inverted. -/
structure CellError where
  vec : Nat
  col : Nat
  mask : Nat
deriving DecidableEq, Repr

/-- What goes wrong in a pass (10 R324, R325, R328): errors in sums and elements, a parity error, and, when it is recomputed, an uncorrectable
word in the replay buffers. -/
structure PassErrors where
  sums : List SumError
  cells : List CellError
  parity : Bool
  replay : Bool
deriving DecidableEq, Repr

/-- A pass without an error. -/
def PassErrors.none_ : PassErrors := { sums := [], cells := [], parity := false, replay := false }

/-- What reading a descriptor table in a Span peer's memory gives (12 R379, 16 R469): a status, 0x50 when the peer is lost, and the bytes. -/
structure PeerTable where
  status : Nat
  bytes : Bytes
deriving DecidableEq, Repr

/-- An empty table, for a transfer without one. -/
def PeerTable.empty : PeerTable := { status := 0, bytes := [] }

/-- A context that the runtime creates (08 R244, 13 R406, 17 R488, R492): whether for the operator role, the application that creates it, and
the physical address of its exception log. -/
structure NewContext where
  operator : Bool
  app : Option (Fin 8)
  log : Option Nat
deriving DecidableEq, Repr

/-- The body of a command (02 R63). -/
def CmdFrame.body (f : CmdFrame) : Bytes := f.rest.take f.length

/-- The tag of a command (02 R63). -/
def CmdFrame.tag (f : CmdFrame) : Bytes := (f.rest.drop f.length).take 16

end Sys2Proof
end

