-- ==== Sys2Proof/Machine/GctTypes.lean ====
section
/-!
DEFINITION. The state of the command transport (02): sessions, commands held and in execution, completions, result slots,
subscriptions and modes.
-/

namespace Sys2Proof.Machine

/-- The three roles (00 "Readers and roles"). -/
inductive Role where
  | maker | installer | operator
deriving DecidableEq, Repr

/-- The device states (02 R77), in the order of their codes. -/
inductive DevState where
  | powered | secureBoot | ready | serving | draining | halted | faulted | maintenance
deriving DecidableEq, Repr

/-- A completion as it will be sent (02 R63, R66): status, flags and body. -/
structure Completion where
  status : Nat
  flags : Nat
  body : Bytes
deriving DecidableEq, Repr

/-- What a command in execution waits on: nothing but the room for its completion, or an event that a later command of this
model brings about. `audit` is a completion outside a session's execution that needs an audit record first (19 R532). -/
inductive ExecWait where
  | send (c : Completion)
  | rulePins (table : Nat)
  | ruleSwap (mask : Nat)
  | flowLock
  | flowNote (note : Bytes)
  | unload (slot : Nat)
  | cancel (slot : Nat)
  | cut
  | place
  | epoch
  | audit (c : Completion)
deriving DecidableEq, Repr

/-- A command in execution, with the key under which its completion is tagged (02 R66, R72), the role and key slot that its audit record
names (19 R531), its place in the order in which commands began, and whether its wait for the staging area has been counted. -/
structure ExecCmd where
  cmd : CmdFrame
  wait : ExecWait
  key : Bytes
  role : Nat
  slot : Nat
  order : Nat
  waited : Bool
deriving DecidableEq, Repr

/-- A frame in the outbound half of the control slice (02 R65, 06 R178) that waits for the link of its port, with its cells. -/
structure OutFrame where
  port : PortId
  frame : Bytes
  cells : List Nat
deriving DecidableEq, Repr

/-- An accepted number's tag and, once it has completed, its stored completion (02 R69). -/
structure StoredCompletion where
  seq : Nat
  tag : Bytes
  done : Option Completion
deriving DecidableEq, Repr

/-- An open session (02 R67–R73; 19 R517). `closing` says that it closes when its command in execution has completed; `idleFrom` is the number of
idle-clock ticks at which its idle time began to count; `muted` says that AUTH_FAIL completions are suppressed (R73). -/
structure Session where
  role : Role
  key : Bytes
  next : Nat
  held : List CmdFrame
  exec : Option ExecCmd
  stored : List StoredCompletion
  idleFrom : Nat
  authFails : List Nat
  keySlot : Nat
  closing : Bool
  muted : Bool
deriving DecidableEq, Repr

/-- A result slot in use (02 R85–R90). Its cells of Heartwood are 256 + 17n and the 16 that follow (06 "Heartwood partitions"). -/
structure ResultSlot where
  role : Role
  ctx : Nat
  resultLen : Nat
  ready : Option Nat
  data : Bytes
  read : Bool
  readyAt : Nat
deriving DecidableEq, Repr

/-- A subscription (02 R91, R92): class, session, destination, the number of records generated, and the records discarded since the
last one that entered its record queue (15 R448). -/
structure Subscription where
  cls : Nat
  session : Nat
  port : PortId
  smac : Nat
  vlan : Option Nat
  udp : Option UdpInfo
  count : Nat
  lost : Nat
deriving DecidableEq, Repr

/-- A record in a record queue (02 R602): its class, its body, the SEQUENCE number it has for each subscription, and for a verdict
record the number discarded since the one before it, by subscription (15 R448). -/
structure PushRecord where
  cls : Nat
  body : Bytes
  seqs : List (Nat × Nat)
  lost : List (Nat × Nat)
deriving DecidableEq, Repr

/-- The record without its numbers for a session. -/
def PushRecord.without (r : PushRecord) (i : Nat) : PushRecord :=
  { r with seqs := r.seqs.filter (fun e => e.1 != i), lost := r.lost.filter (fun e => e.1 != i) }

/-- The service mode of a logical port (15 R425, R432). -/
structure ServiceMode where
  value : Nat
  dl1 : Nat
  dl2 : Nat
deriving DecidableEq, Repr

/-- The reset service mode: Hold with 4 and 60 μs (01 R56, 15 "Mode codes"). -/
def ServiceMode.reset : ServiceMode := { value := 1, dl1 := 4000, dl2 := 60000 }

/-- The module modes (01 R56) and the pending change of each, as MODE codes 0x02–0x06 (01 R58). -/
structure Modes where
  service : List (Nat × ServiceMode)
  scheduling : Nat
  tier3 : Nat
  determinism : Nat
  cap : Nat
  share : Nat
  pending : List (Nat × Nat)
deriving DecidableEq, Repr

/-- The default modes (01 R56): Hold, stream-weighted, throughput, strict, 1,000 W, share 0. A port that `service` does not list has the
reset service mode. -/
def Modes.reset : Modes := { service := [], scheduling := 0, tier3 := 0, determinism := 0, cap := 1000, share := 0, pending := [] }

/-- What leaves the module at its pins. -/
inductive Sent where
  | data (port : Nat) (frame : Bytes) (fcsOk : Bool) (copy : Bool)
  | gct (port : PortId) (frame : Bytes)
  | chaif (frame : Bytes)
  | span (link : Nat) (msg : Bytes)
  | smbus (data : Nat)
  | tap (data : Nat)
deriving DecidableEq, Repr

end Sys2Proof.Machine
end

