-- ==== Sys2Proof/Machine/PlatformTypes.lean ====
section
/-!
DEFINITION. The state of the Compass table (22), the Crown cores (17), the flash store (18), the trust block (19) and power and pins
(23).
-/

namespace Sys2Proof.Machine

/-- A run-time retirement of a core (22 R577): core, array that failed, cause (1 check, 2 self-test), boot count and ms. -/
structure RetireEntry where
  core : Nat
  array : Nat
  cause : Nat
  boot : Nat
  ms : Nat
deriving DecidableEq, Repr

/-- The Compass table as far as it changes (22 R573, R578): GEN, every run-time retirement in force since manufacture, oldest first,
and how many of them the retirement record does not hold yet, with the clock tick of the first of those. -/
structure Compass where
  gen : Nat
  log : List RetireEntry
  unwritten : Nat
  since : Nat
deriving DecidableEq, Repr

/-- The Compass table of a module without run-time retirements. -/
def Compass.reset : Compass := { gen := 0, log := [], unwritten := 0, since := 0 }

/-- The Crown cores (17): event records that wait for the ring, the clock tick from which each core's watchdog period runs, the cores
held in reset since when, and by core × 4,096 + queue the staged half word, the status of the last operation, the word last
delivered and the wait flag of the queue port; by queue the core that opened the packet through the port; application memory by
slot, the status of each core's last flash append (true: DROPPED); the contexts that the runtime has created (R244, R488, R492). -/
structure Crown where
  evWait : List (Nat × Bytes)
  kick : FMap Nat
  held : FMap Nat
  staged : FMap Nat
  status : FMap Nat
  word : FMap (BitVec 128)
  waits : FMap Bool
  opener : FMap Nat
  appMem : FMap Nat
  dropped : FMap Bool
  contexts : FMap NewContext
deriving DecidableEq, Repr

/-- The Crown cores after reset. -/
def Crown.reset : Crown :=
  { evWait := [], kick := [], held := [], staged := [], status := [], word := [], waits := [], opener := [], appMem := [], dropped := [],
    contexts := [] }

/-- A stage of an image or of firmware (19 R524): the total announced at BEGIN, the bytes received, whether a complete image of the same
ID has been put in use since BEGIN, and, for a firmware slot, whether it is complete. -/
structure Stage where
  total : Nat
  data : Bytes
  used : Bool
  complete : Bool
deriving DecidableEq, Repr

/-- What the flash dies do while a command of the flash store runs (18 R497, R500): codewords corrected, read through the ladder and
rebuilt, the uncorrectable sectors met (bit i the i-th sector of the range that is read), and blocks that failed a program or erase. -/
structure Media where
  ce : Nat
  retry : Nat
  recon : Nat
  ue : Nat
  retired : Nat
deriving DecidableEq, Repr

/-- Dies without any error. -/
def Media.clean : Media := { ce := 0, retry := 0, recon := 0, ue := 0, retired := 0 }

/-- A configuration record in CONFIG (19 R528): VERSION, its bytes, the register values and the modes that it holds. -/
structure ConfigRecord where
  version : Nat
  bytes : Bytes
  pairs : List (Nat × Nat)
  modes : Modes
deriving DecidableEq, Repr

/-- An audit record with the chain value before it (19 R531, R532). -/
structure AuditRec where
  bytes : Bytes
  before : Bytes
deriving DecidableEq, Repr

/-- The flash store (18): firmware slots, complete images and stages of LIBRARY, SNAPSHOT and CAPTURE bytes, uncorrectable sectors (partition × 2⁴⁰ +
sector), HEAD and TAIL, the append buffer, the byte bucket in 1/1,250 bytes and the clock tick at which it was last filled, dies lost, the die under
rebuild, rebuilds completed, DEGRADED and the clock tick at which it was set, WORN, spare blocks exhausted, the wear record, bytes written by
partition, configuration records A and B, the retirement record of cores and of pseudo-channels by stack, audit records by sequence number, and what
the dies do under a command that has not run yet, by session × 2⁶⁴ + sequence number. -/
structure Flash where
  fw : FMap Stage
  images : FMap Bytes
  stages : FMap Stage
  snap : FMap Byte
  cap : FMap Byte
  badSectors : FMap Bool
  head : Nat
  tail : Nat
  buf : List Bytes
  bucket : Nat
  bucketAt : Nat
  lost : Nat
  rebuild : Option Nat
  rebuilt : Nat
  degraded : Bool
  degradedAt : Nat
  worn : Bool
  spent : Bool
  wear : Nat
  written : FMap Nat
  cfg : FMap ConfigRecord
  retired : List RetireEntry
  hbmRetired : FMap Nat
  audit : FMap AuditRec
  media : FMap Media
deriving DecidableEq, Repr

/-- A quote that a session holds (19 R530): its ID and its bytes. -/
structure Quote where
  id : Nat
  bytes : Bytes
deriving DecidableEq, Repr

/-- A summary that the next AUDIT_SUMMARY records (19 R531): session, role, slot, opcode, status, the port and first body bytes of the
latest command, and the count. -/
structure AuditSum where
  session : Nat
  role : Nat
  slot : Nat
  opcode : Nat
  status : Nat
  port : Nat
  body : Bytes
  count : Nat
deriving DecidableEq, Repr

/-- The trust block (19). The secure store: installer root, GEN by slot and EN as bits, open counters (0 maker, 1 installer, 2 + j
operator slot j), image signer hashes, SIGNER_EN, MIN_SVN, boot slot, boot count, the undrained audit records, the chain value
and the next sequence number. Beside it: what the last boot took (slot, fallback, record source, firmware version and SVN,
record version), a factory record wanted at the next boot, quotes by session and their count, the summaries of the present
second and since when they are kept. -/
structure Trust where
  root : Option Bytes
  gens : FMap Nat
  ens : Nat
  opens : FMap Nat
  signers : FMap Bytes
  signerEn : Nat
  minSvn : Nat
  bootSlot : Nat
  boots : Nat
  staging : List AuditRec
  chain : Bytes
  nextSeq : Nat
  runSlot : Nat
  fallback : Bool
  cfgSrc : Nat
  fwVersion : Nat
  runSvn : Nat
  cfgVersion : Nat
  factory : Bool
  quotes : FMap Quote
  quoteCount : Nat
  sums : List AuditSum
  sumsAt : Nat
deriving DecidableEq, Repr

/-- Power and the sideband pins (23): PGOOD_IN, rails in regulation, the clock tick from which RESET_N may be released, RESET_N high, input voltage in mV,
current in 10 mA, power in 0.1 W, temperatures (0 Bole, 1–4 Limbs), Limbs throttled, gating by the cap, dies and stacks too hot
since when, the ticks of throttling that PWR_THROTTLE_US has left over, the TAP boundary register, instruction and data, and the spread in
force. -/
structure Pwr where
  pgoodIn : Bool
  rails : Bool
  releaseAt : Nat
  resetN : Bool
  mv : Nat
  ca : Nat
  dw : Nat
  temps : FMap Nat
  throttled : Nat
  capGate : Bool
  hotSince : FMap Nat
  hotRest : Nat
  boundary : Nat
  tapIr : Nat
  ssc : Bool
deriving DecidableEq, Repr

/-- What lowers power-good (R584; 02 R78): the input voltage in mV, PGOOD_IN, or a rail out of regulation. -/
inductive PowerLoss where
  | input (mv : Nat)
  | pgoodIn
  | rail (r : Nat)
deriving DecidableEq, Repr

/-- What asks for a module reset (R588): RESET_N low for a number of ns, a RESET command, or loss of power-good. -/
inductive ResetCause where
  | pin (ns : Nat)
  | command
  | power
deriving DecidableEq, Repr

end Sys2Proof.Machine
end

