-- ==== Sys2Proof/Machine/RegTable.lean ====
section
/-!
DEFINITION. The register map as the register tables of the spec's chapters and 22 "Register window layout" give it: every
register family with its block, offset, stride and count, and every field with its access code, its Reset value (0 where the
column says HW or none: such values come from Config.regReset) and whether its Meaning says "Crown cores only" (00 R599).
-/

namespace Sys2Proof.Machine

/-- The access codes (00 R22); `resv` marks reserved bits (00 R24). -/
inductive Access where
  | ro | rw | rw1c | rc | wo | rwl | resv
deriving DecidableEq, Repr

/-- One field of a register. -/
structure Field where
  hi : Nat
  lo : Nat
  acc : Access
  crown : Bool
  reset : Nat
deriving DecidableEq, Repr

/-- The register blocks of the window (22 "Block types"); CMP is the Compass table itself. -/
inductive Block where
  | cmp
  | gct
  | prt
  | prs
  | cnp
  | flw
  | hwd
  | sq
  | grv
  | fct
  | lat
  | mov
  | xlt
  | xltBole
  | hbm
  | rng
  | spn
  | crn
  | fsh
  | trs
  | obs
  | pwr
deriving DecidableEq, Repr

/-- The register families, one name each, in the order of the chapters. -/
inductive RegName where
  | gctState | gctCtrl | gctIpv4 | gctIpv6 | gctSessionTtl | gctSlotTtl | gctUsage | gctFramingDrop
  | gctAuthFail | gctAuthSuppress | gctSliceFullDrop | gctCompletions | gctRecq | gctCpMacDrop | gctCpOther
  | prtCfg | prtStatus | prtPool | prtEgressDrop | prtRxFrames | prtRxBytes | prtRxFcsErr | prtRxDiscard
  | prtRxAdmitDrop | prtRxStateDrop | prtTxFrames | prtTxBytes | prsDepth | prsKey | prsUdpPorts
  | prsQuicPorts | prsQuicDcid | prsPkts | prsLimit | prsMalformed | prsFrag | prsPfIssued | prsPfSkip
  | cnpBank | cnpShim | cnpMirror | cnpEgressMap | cnpDrop | cnpWait | cnpEditRefused | cnpTtlDrop
  | cnpRecircIgnored | cnpOversizeDrop | cnpHit | cnpMiss | flwCtl | flwHash | flwAge | flwLock | flwScrub
  | flwNotify | flwBase | flwShadow | flwCount | flwHit | flwMiss | flwLearn | flwSuppress | flwLearnFull
  | flwLearnDrop | flwAged | flwLockExpired | flwMismatch | flwBucketErr | hwdPool | hwdScrub | hwdUsage
  | hwdEccCe | hwdEccUe | hwdCtlEccDrop | hwdTraceEccDrop | hwdPktStomp | sqRewound | sqPoison | sqFullDrop
  | sqT2Ctl | sqT2Ctxc | sqT2Rec | sqTendCtl | sqTendAt | sqT2Set | sqT2Wm | sqT2Tokens | sqT2Drop
  | sqHoldFull | sqDeferred | sqT1Late | sqLateRec | sqReplay | sqCtxReset | sqRecDrop | sqTendStall
  | sqTendMiss | sqT2Poison | sqCfg | sqBind | sqPtra | sqPtrb | sqMark | grvCtl | grvScrub | grvPhase
  | grvSlots | grvRoute | grvSlot | grvFree | grvOrdBase | grvEval | grvWait | grvNodeCe | grvNodeUe | grvNan
  | grvOrdUe | fctId | fctCtl | fctQuantum | fctStatus | fctScrub | fctBrk | fctEvac | fctHc | fctFrame
  | fctBundles | fctPreempt | fctRaEnter | fctExc | fctRingCe | fctRingUe | latCtl | latStatus | latBist
  | latBistLast | latPasses | latChkSame | latChkSpare | latChkFail | latParity | latBistRuns | latBistFail
  | latSpareServed | movCtl | movTags | movXfers | movBytes | movFill | movDrop | movAlias | movSuspend
  | movFailed | xltFring | xltResolve | xltWalks | xltFaults | xltRefused | xltWalkUe | xltRingWait | xltCtl
  | xltSpaceBase | xltInval | xltInvals | xltMemFault | xltSpanFault | hbmCtl | hbmStatus | hbmPcState
  | hbmRetire | hbmScrub | hbmMir | hbmCe | hbmUe | hbmMirFix | hbmPoisonWr | hbmRebuilt | hbmThrottleUs
  | rngUeLast | rngCe | rngUe | spnCtl | spnId | spnEpoch | spnMesh | spnStatus | spnCtxwin | spnTrace
  | spnMap | spnLink | spnRoute | spnRetry | spnSpare | spnTimeout | spnLost | spnInRefused | crnCtl | crnMem
  | crnEvqBase | crnEvq | crnWd | crnStatus | crnApp | crnKick | crnRestart | crnMchkCe | crnEvqWait
  | crnReplay | crnAppFault | crnQport | fshCtl | fshStatus | fshCapRate | fshCapHead | fshCapTail | fshScrub
  | fshWear | fshPart | fshCe | fshRetry | fshRecon | fshUe | fshGrownBad | fshReloc | fshCapDrop | fshPort
  | trsStatus | trsCtl | trsSvn | trsCfg | trsOpkey | trsSigner | trsMeas | trsInstallerId | trsOpenFail
  | trsSigBad | trsAuditWait | obsCtl | obsTrig | obsTrace | obsChaifDmac | obsCut | obsDbg | obsDbgAddr
  | obsCtxb | obsTraceDrop | obsTraceRecs | obsTrigIgnored | pwrCtl | pwrCap | pwrInput | pwrTemp | pwrRail
  | pwrAlert | pwrShed | pwrThrottleUs | pwrInputEvents
deriving DecidableEq, Repr

/-- A register: its family, the core or stack its block belongs to (0 for Bole blocks), and its index in the family. -/
structure Reg where
  name : RegName
  inst : Nat
  idx : Nat
deriving DecidableEq, Repr

/-- One register family. -/
structure RegRow where
  name : RegName
  block : Block
  off : Nat
  stride : Nat
  count : Nat
  fields : List Field
deriving DecidableEq, Repr

/-- A field read only by the host. -/
def fRo (hi lo reset : Nat) : Field := { hi := hi, lo := lo, acc := .ro, crown := false, reset := reset }
/-- A field read and written. -/
def fRw (hi lo reset : Nat) : Field := { hi := hi, lo := lo, acc := .rw, crown := false, reset := reset }
/-- A field read and written by the Crown cores only. -/
def fRwC (hi lo reset : Nat) : Field := { hi := hi, lo := lo, acc := .rw, crown := true, reset := reset }
/-- A lockable field. -/
def fRwl (hi lo reset : Nat) : Field := { hi := hi, lo := lo, acc := .rwl, crown := false, reset := reset }
/-- A field that takes effect when written. -/
def fWo (hi lo : Nat) : Field := { hi := hi, lo := lo, acc := .wo, crown := false, reset := 0 }
/-- A field that takes effect when the Crown cores write it. -/
def fWoC (hi lo : Nat) : Field := { hi := hi, lo := lo, acc := .wo, crown := true, reset := 0 }
/-- A bit cleared by writing 1. -/
def fW1c (hi lo : Nat) : Field := { hi := hi, lo := lo, acc := .rw1c, crown := false, reset := 0 }
/-- A bit cleared when the Crown cores write 1 to it. -/
def fW1cC (hi lo : Nat) : Field := { hi := hi, lo := lo, acc := .rw1c, crown := true, reset := 0 }
/-- Reserved bits. -/
def fRes (hi lo : Nat) : Field := { hi := hi, lo := lo, acc := .resv, crown := false, reset := 0 }
/-- The layout of every counter: 48 bits read and cleared (03 "PRT counters"). -/
def fCount : List Field := [{ hi := 47, lo := 0, acc := .rc, crown := false, reset := 0 }, fRes 63 48]

/-- The GCT block (02 register tables). -/
def rowsGct : List RegRow := [
  ⟨.gctState, .gct, 0x0, 0x8, 1, [fRo 3 0 1, fRo 7 4 0, fRo 15 8 0, fRes 63 16]⟩,
  ⟨.gctCtrl, .gct, 0x8, 0x8, 1, [fRwl 15 0 0, fRwl 16 16 0, fRwl 17 17 0, fRes 62 18, fRwl 63 63 0]⟩,
  ⟨.gctIpv4, .gct, 0x10, 0x8, 1, [fRwl 31 0 0, fRes 63 32]⟩,
  ⟨.gctIpv6, .gct, 0x18, 0x8, 2, [fRwl 63 0 0]⟩,
  ⟨.gctSessionTtl, .gct, 0x28, 0x8, 1, [fRw 31 0 0xea60, fRes 63 32]⟩,
  ⟨.gctSlotTtl, .gct, 0x30, 0x8, 1, [fRw 31 0 0x2710, fRes 63 32]⟩,
  ⟨.gctUsage, .gct, 0x38, 0x8, 1, [fRo 6 0 0, fRes 15 7, fRo 28 16 0, fRes 63 29]⟩,
  ⟨.gctFramingDrop, .gct, 0x40, 0x8, 1, fCount⟩,
  ⟨.gctAuthFail, .gct, 0x48, 0x8, 1, fCount⟩,
  ⟨.gctAuthSuppress, .gct, 0x50, 0x8, 1, fCount⟩,
  ⟨.gctSliceFullDrop, .gct, 0x58, 0x8, 1, fCount⟩,
  ⟨.gctCompletions, .gct, 0x60, 0x8, 1, fCount⟩,
  ⟨.gctRecq, .gct, 0x68, 0x8, 1, [fRwl 11 0 0, fRes 15 12, fRwl 27 16 0, fRes 63 28]⟩,
  ⟨.gctCpMacDrop, .gct, 0x70, 0x8, 2, fCount⟩,
  ⟨.gctCpOther, .gct, 0x80, 0x8, 2, fCount⟩]

/-- The PRT block (03 register tables). -/
def rowsPrt : List RegRow := [
  ⟨.prtCfg, .prt, 0x0, 0x8, 16, [fRw 1 0 0, fRw 2 2 0, fRes 15 3, fRw 29 16 0x2400, fRes 31 30, fRw 48 32 0x4000, fRes 63 49]⟩,
  ⟨.prtStatus, .prt, 0x80, 0x8, 16, [fRo 3 0 0, fRo 7 4 0, fRes 63 8]⟩,
  ⟨.prtPool, .prt, 0x100, 0x8, 1, [fRo 20 0 0, fRes 63 21]⟩,
  ⟨.prtEgressDrop, .prt, 0x108, 0x8, 1, fCount⟩,
  ⟨.prtRxFrames, .prt, 0x1000, 0x40, 64, fCount⟩,
  ⟨.prtRxBytes, .prt, 0x1008, 0x40, 64, fCount⟩,
  ⟨.prtRxFcsErr, .prt, 0x1010, 0x40, 64, fCount⟩,
  ⟨.prtRxDiscard, .prt, 0x1018, 0x40, 64, fCount⟩,
  ⟨.prtRxAdmitDrop, .prt, 0x1020, 0x40, 64, fCount⟩,
  ⟨.prtRxStateDrop, .prt, 0x1028, 0x40, 64, fCount⟩,
  ⟨.prtTxFrames, .prt, 0x1030, 0x40, 64, fCount⟩,
  ⟨.prtTxBytes, .prt, 0x1038, 0x40, 64, fCount⟩]

/-- The PRS block (03 register tables). -/
def rowsPrs : List RegRow := [
  ⟨.prsDepth, .prs, 0x0, 0x8, 1, [fRw 4 0 24, fRes 7 5, fRw 9 8 3, fRes 15 10, fRw 19 16 8, fRes 63 20]⟩,
  ⟨.prsKey, .prs, 0x8, 0x8, 1, [fRw 1 0 1, fRes 3 2, fRw 5 4 0, fRes 63 6]⟩,
  ⟨.prsUdpPorts, .prs, 0x10, 0x8, 1, [fRw 15 0 0x12b5, fRw 31 16 0x17c1, fRw 47 32 0x868, fRw 63 48 0x1194]⟩,
  ⟨.prsQuicPorts, .prs, 0x18, 0x8, 1, [fRw 15 0 443, fRw 31 16 0, fRw 47 32 0, fRw 63 48 0]⟩,
  ⟨.prsQuicDcid, .prs, 0x20, 0x8, 1, [fRw 4 0 8, fRes 63 5]⟩,
  ⟨.prsPkts, .prs, 0x100, 0x8, 8, fCount⟩,
  ⟨.prsLimit, .prs, 0x140, 0x8, 8, fCount⟩,
  ⟨.prsMalformed, .prs, 0x180, 0x8, 8, fCount⟩,
  ⟨.prsFrag, .prs, 0x1c0, 0x8, 8, fCount⟩,
  ⟨.prsPfIssued, .prs, 0x200, 0x8, 8, fCount⟩,
  ⟨.prsPfSkip, .prs, 0x240, 0x8, 8, fCount⟩]

/-- The CNP block (04 register tables). -/
def rowsCnp : List RegRow := [
  ⟨.cnpBank, .cnp, 0x0, 0x8, 1, [fRo 15 0 0, fRo 31 16 0, fRo 47 32 0, fRes 63 48]⟩,
  ⟨.cnpShim, .cnp, 0x8, 0x8, 1, [fRw 15 0 0x88b6, fRes 63 16]⟩,
  ⟨.cnpMirror, .cnp, 0x10, 0x8, 4, [fRw 5 0 0, fRw 6 6 0, fRes 15 7, fRw 29 16 0, fRes 63 30]⟩,
  ⟨.cnpEgressMap, .cnp, 0x100, 0x8, 64, [fRw 5 0 0, fRes 63 6]⟩,
  ⟨.cnpDrop, .cnp, 0x400, 0x8, 8, fCount⟩,
  ⟨.cnpWait, .cnp, 0x440, 0x8, 8, fCount⟩,
  ⟨.cnpEditRefused, .cnp, 0x480, 0x8, 1, fCount⟩,
  ⟨.cnpTtlDrop, .cnp, 0x488, 0x8, 1, fCount⟩,
  ⟨.cnpRecircIgnored, .cnp, 0x490, 0x8, 1, fCount⟩,
  ⟨.cnpOversizeDrop, .cnp, 0x498, 0x8, 1, fCount⟩,
  ⟨.cnpHit, .cnp, 0x800, 0x8, 16, fCount⟩,
  ⟨.cnpMiss, .cnp, 0x880, 0x8, 16, fCount⟩]

/-- The FLW block (05 register tables). -/
def rowsFlw : List RegRow := [
  ⟨.flwCtl, .flw, 0x0, 0x8, 1, [fRw 7 0 255, fRw 8 8 1, fRw 9 9 0, fRw 10 10 1, fRes 62 11, fRwl 63 63 0]⟩,
  ⟨.flwHash, .flw, 0x8, 0x8, 1, [fRw 31 0 0, fRw 63 32 0]⟩,
  ⟨.flwAge, .flw, 0x10, 0x8, 1, [fRw 31 0 0x1d4c0, fRw 47 32 1000, fRes 63 48]⟩,
  ⟨.flwLock, .flw, 0x18, 0x8, 1, [fRw 9 0 20, fRes 63 10]⟩,
  ⟨.flwScrub, .flw, 0x20, 0x8, 1, [fRw 11 0 10, fRes 63 12]⟩,
  ⟨.flwNotify, .flw, 0x28, 0x8, 1, [fRwl 11 0 0, fRes 63 12]⟩,
  ⟨.flwBase, .flw, 0x100, 0x8, 8, [fRes 28 0, fRwl 47 29 0, fRes 63 48]⟩,
  ⟨.flwShadow, .flw, 0x140, 0x8, 8, [fRes 22 0, fRwl 47 23 0, fRes 63 48]⟩,
  ⟨.flwCount, .flw, 0x180, 0x8, 8, [fRo 23 0 0, fRes 31 24, fRo 38 32 0, fRo 45 39 0, fRes 63 46]⟩,
  ⟨.flwHit, .flw, 0x200, 0x8, 8, fCount⟩,
  ⟨.flwMiss, .flw, 0x240, 0x8, 8, fCount⟩,
  ⟨.flwLearn, .flw, 0x280, 0x8, 8, fCount⟩,
  ⟨.flwSuppress, .flw, 0x2c0, 0x8, 8, fCount⟩,
  ⟨.flwLearnFull, .flw, 0x300, 0x8, 8, fCount⟩,
  ⟨.flwLearnDrop, .flw, 0x340, 0x8, 8, fCount⟩,
  ⟨.flwAged, .flw, 0x380, 0x8, 8, fCount⟩,
  ⟨.flwLockExpired, .flw, 0x3c0, 0x8, 8, fCount⟩,
  ⟨.flwMismatch, .flw, 0x400, 0x8, 8, fCount⟩,
  ⟨.flwBucketErr, .flw, 0x440, 0x8, 8, fCount⟩]

/-- The HWD block (06 register tables). -/
def rowsHwd : List RegRow := [
  ⟨.hwdPool, .hwd, 0x0, 0x8, 1, [fRw 11 0 512, fRes 15 12, fRw 27 16 512, fRes 31 28, fRw 41 32 64, fRes 63 42]⟩,
  ⟨.hwdScrub, .hwd, 0x8, 0x8, 1, [fRw 15 0 1000, fRw 16 16 1, fRes 63 17]⟩,
  ⟨.hwdUsage, .hwd, 0x10, 0x8, 1, [fRo 20 0 0, fRo 41 21 0, fRo 59 42 0, fRes 63 60]⟩,
  ⟨.hwdEccCe, .hwd, 0x100, 0x8, 1, fCount⟩,
  ⟨.hwdEccUe, .hwd, 0x108, 0x8, 1, fCount⟩,
  ⟨.hwdCtlEccDrop, .hwd, 0x110, 0x8, 1, fCount⟩,
  ⟨.hwdTraceEccDrop, .hwd, 0x118, 0x8, 1, fCount⟩,
  ⟨.hwdPktStomp, .hwd, 0x120, 0x8, 1, fCount⟩]

/-- The SQ block (06, 15 register tables). -/
def rowsSq : List RegRow := [
  ⟨.sqRewound, .sq, 0x0, 0x8, 1, fCount⟩,
  ⟨.sqPoison, .sq, 0x8, 0x8, 1, fCount⟩,
  ⟨.sqFullDrop, .sq, 0x10, 0x8, 1, fCount⟩,
  ⟨.sqT2Ctl, .sq, 0x100, 0x8, 1, [fRo 7 0 0, fRw 15 8 0, fRes 63 16]⟩,
  ⟨.sqT2Ctxc, .sq, 0x108, 0x8, 1, [fRw 13 0 0x1000, fRes 15 14, fRo 29 16 0, fRes 31 30, fRo 45 32 0, fRes 63 46]⟩,
  ⟨.sqT2Rec, .sq, 0x110, 0x8, 1, [fRw 0 0 0, fRw 1 1 1, fRw 2 2 1, fRes 63 3]⟩,
  ⟨.sqTendCtl, .sq, 0x120, 0x8, 1, [fWoC 0 0, fRwC 1 1 0, fRo 2 2 0, fRo 3 3 0, fRwC 4 4 0, fRwC 20 5 0, fRw 25 21 0, fRes 31 26, fRw 43 32 0, fRes 63 44]⟩,
  ⟨.sqTendAt, .sq, 0x128, 0x8, 1, [fRwC 63 0 0]⟩,
  ⟨.sqT2Set, .sq, 0x140, 0x8, 16, [fRw 11 0 0, fRes 15 12, fRw 26 16 0, fRes 31 27, fRw 43 32 0, fRes 47 44, fRo 48 48 0, fRes 63 49]⟩,
  ⟨.sqT2Wm, .sq, 0x200, 0x8, 8, [fRo 63 0 0]⟩,
  ⟨.sqT2Tokens, .sq, 0x300, 0x8, 8, fCount⟩,
  ⟨.sqT2Drop, .sq, 0x340, 0x8, 8, fCount⟩,
  ⟨.sqHoldFull, .sq, 0x380, 0x8, 8, fCount⟩,
  ⟨.sqDeferred, .sq, 0x3c0, 0x8, 8, fCount⟩,
  ⟨.sqT1Late, .sq, 0x400, 0x8, 8, fCount⟩,
  ⟨.sqLateRec, .sq, 0x440, 0x8, 8, fCount⟩,
  ⟨.sqReplay, .sq, 0x480, 0x8, 8, fCount⟩,
  ⟨.sqCtxReset, .sq, 0x4c0, 0x8, 8, fCount⟩,
  ⟨.sqRecDrop, .sq, 0x500, 0x8, 1, fCount⟩,
  ⟨.sqTendStall, .sq, 0x508, 0x8, 1, fCount⟩,
  ⟨.sqTendMiss, .sq, 0x510, 0x8, 1, fCount⟩,
  ⟨.sqT2Poison, .sq, 0x518, 0x8, 1, fCount⟩,
  ⟨.sqCfg, .sq, 0x10000, 0x40, 4096, [fRw 0 0 0, fRes 3 1, fRw 16 4 0, fRes 62 17, fWo 63 63]⟩,
  ⟨.sqBind, .sq, 0x10008, 0x40, 4096, [fRw 3 0 0, fRes 7 4, fRw 23 8 0, fRw 27 24 0, fRes 31 28, fRw 47 32 0, fRes 63 48]⟩,
  ⟨.sqPtra, .sq, 0x10010, 0x40, 4096, [fRo 31 0 0, fRo 63 32 0]⟩,
  ⟨.sqPtrb, .sq, 0x10018, 0x40, 4096, [fRo 31 0 0, fRo 63 32 0]⟩,
  ⟨.sqMark, .sq, 0x10020, 0x40, 4096, [fRo 31 0 0, fRes 63 32]⟩]

/-- The GRV block (07 register tables). -/
def rowsGrv : List RegRow := [
  ⟨.grvCtl, .grv, 0x0, 0x8, 1, [fRw 0 0 1, fRes 62 1, fRwl 63 63 0]⟩,
  ⟨.grvScrub, .grv, 0x8, 0x8, 1, [fRw 15 0 1000, fRes 63 16]⟩,
  ⟨.grvPhase, .grv, 0x10, 0x8, 1, [fRo 15 0 0, fRes 63 16]⟩,
  ⟨.grvSlots, .grv, 0x18, 0x8, 1, [fRo 15 0 0, fRo 31 16 0, fRes 63 32]⟩,
  ⟨.grvRoute, .grv, 0x100, 0x8, 16, [fRw 3 0 0, fRw 5 4 0, fRw 15 6 0, fRw 19 16 0, fRw 21 20 0, fRw 31 22 0, fRw 35 32 0, fRw 37 36 0, fRw 47 38 0, fRw 51 48 0, fRw 53 52 0, fRw 63 54 0]⟩,
  ⟨.grvSlot, .grv, 0x180, 0x8, 16, [fRo 15 0 0, fRo 29 16 0, fRo 38 30 0, fRo 43 39 0, fRo 44 44 0, fRes 63 45]⟩,
  ⟨.grvFree, .grv, 0x200, 0x8, 16, [fRo 17 0 0x30000, fRo 35 18 0x30000, fRo 49 36 0x2000, fRo 61 50 0x800, fRes 63 62]⟩,
  ⟨.grvOrdBase, .grv, 0x300, 0x8, 8, [fRes 24 0, fRwl 47 25 0, fRes 63 48]⟩,
  ⟨.grvEval, .grv, 0x400, 0x8, 8, fCount⟩,
  ⟨.grvWait, .grv, 0x440, 0x8, 8, fCount⟩,
  ⟨.grvNodeCe, .grv, 0x480, 0x8, 1, fCount⟩,
  ⟨.grvNodeUe, .grv, 0x488, 0x8, 1, fCount⟩,
  ⟨.grvNan, .grv, 0x490, 0x8, 1, fCount⟩,
  ⟨.grvOrdUe, .grv, 0x498, 0x8, 1, fCount⟩]

/-- The FCT block (08 register tables). -/
def rowsFct : List RegRow := [
  ⟨.fctId, .fct, 0x0, 0x8, 1, [fRo 10 0 0, fRes 15 11, fRo 17 16 0, fRo 22 18 0, fRes 23 23, fRo 27 24 0, fRes 31 28, fRo 32 32 0, fRo 34 33 0, fRes 63 35]⟩,
  ⟨.fctCtl, .fct, 0x8, 0x8, 1, [fRw 0 0 1, fRw 1 1 1, fRw 2 2 0, fRw 3 3 0, fRes 63 4]⟩,
  ⟨.fctQuantum, .fct, 0x10, 0x8, 1, [fRw 23 0 0x1adb0, fRes 63 24]⟩,
  ⟨.fctStatus, .fct, 0x18, 0x8, 1, [fRo 7 0 0, fRo 15 8 0, fRo 19 16 0, fRo 20 20 0, fRo 21 21 0, fRes 63 22]⟩,
  ⟨.fctScrub, .fct, 0x20, 0x8, 1, [fRw 15 0 1000, fRw 16 16 1, fRes 63 17]⟩,
  ⟨.fctBrk, .fct, 0x28, 0x8, 1, [fRes 5 0, fRw 47 6 0, fRes 63 48]⟩,
  ⟨.fctEvac, .fct, 0x30, 0x8, 1, [fRo 3 0 0, fRes 7 4, fWoC 8 8, fRes 15 9, fRwC 47 16 0, fRes 63 48]⟩,
  ⟨.fctHc, .fct, 0x100, 0x8, 8, [fRo 2 0 0, fRes 15 3, fRo 31 16 0, fRo 32 32 0, fRes 63 33]⟩,
  ⟨.fctFrame, .fct, 0x140, 0x8, 6, [fRo 2 0 0, fRes 15 3, fRo 31 16 0, fWoC 33 32, fRes 63 34]⟩,
  ⟨.fctBundles, .fct, 0x200, 0x8, 1, fCount⟩,
  ⟨.fctPreempt, .fct, 0x208, 0x8, 1, fCount⟩,
  ⟨.fctRaEnter, .fct, 0x210, 0x8, 1, fCount⟩,
  ⟨.fctExc, .fct, 0x218, 0x8, 1, fCount⟩,
  ⟨.fctRingCe, .fct, 0x220, 0x8, 1, fCount⟩,
  ⟨.fctRingUe, .fct, 0x228, 0x8, 1, fCount⟩]

/-- The LAT block (10 register tables). -/
def rowsLat : List RegRow := [
  ⟨.latCtl, .lat, 0x0, 0x8, 1, [fRw 0 0 1, fRw 1 1 1, fRes 63 2]⟩,
  ⟨.latStatus, .lat, 0x8, 0x8, 1, [fRo 1 0 0, fRo 3 2 0, fRo 5 4 0, fRo 7 6 0, fRo 9 8 0, fRo 17 10 0, fRo 18 18 0, fRes 63 19]⟩,
  ⟨.latBist, .lat, 0x10, 0x8, 1, [fRw 15 0 100, fWo 16 16, fRes 63 17]⟩,
  ⟨.latBistLast, .lat, 0x18, 0x8, 2, [fRo 31 0 0, fRes 63 32]⟩,
  ⟨.latPasses, .lat, 0x100, 0x8, 1, fCount⟩,
  ⟨.latChkSame, .lat, 0x108, 0x8, 1, fCount⟩,
  ⟨.latChkSpare, .lat, 0x110, 0x8, 1, fCount⟩,
  ⟨.latChkFail, .lat, 0x118, 0x8, 1, fCount⟩,
  ⟨.latParity, .lat, 0x120, 0x8, 1, fCount⟩,
  ⟨.latBistRuns, .lat, 0x128, 0x8, 1, fCount⟩,
  ⟨.latBistFail, .lat, 0x130, 0x8, 1, fCount⟩,
  ⟨.latSpareServed, .lat, 0x138, 0x8, 1, fCount⟩]

/-- The MOV block (12 register tables). -/
def rowsMov : List RegRow := [
  ⟨.movCtl, .mov, 0x0, 0x8, 1, [fRw 0 0 1, fRes 63 1]⟩,
  ⟨.movTags, .mov, 0x8, 0x8, 1, [fRo 63 0 0]⟩,
  ⟨.movXfers, .mov, 0x100, 0x8, 1, fCount⟩,
  ⟨.movBytes, .mov, 0x108, 0x8, 1, fCount⟩,
  ⟨.movFill, .mov, 0x110, 0x8, 1, fCount⟩,
  ⟨.movDrop, .mov, 0x118, 0x8, 1, fCount⟩,
  ⟨.movAlias, .mov, 0x120, 0x8, 1, fCount⟩,
  ⟨.movSuspend, .mov, 0x128, 0x8, 1, fCount⟩,
  ⟨.movFailed, .mov, 0x130, 0x8, 1, fCount⟩]

/-- The XLT block (13 register tables). -/
def rowsXlt : List RegRow := [
  ⟨.xltFring, .xlt, 0x0, 0x8, 1, [fRo 31 0 0, fRwC 63 32 0]⟩,
  ⟨.xltResolve, .xlt, 0x8, 0x8, 1, [fRwC 31 0 0, fWoC 33 32, fRo 35 34 0, fRes 63 36]⟩,
  ⟨.xltWalks, .xlt, 0x100, 0x8, 1, fCount⟩,
  ⟨.xltFaults, .xlt, 0x108, 0x8, 1, fCount⟩,
  ⟨.xltRefused, .xlt, 0x110, 0x8, 1, fCount⟩,
  ⟨.xltWalkUe, .xlt, 0x118, 0x8, 1, fCount⟩,
  ⟨.xltRingWait, .xlt, 0x120, 0x8, 1, fCount⟩]

/-- The XLTB block (13 register tables). -/
def rowsXltBole : List RegRow := [
  ⟨.xltCtl, .xltBole, 0x0, 0x8, 1, [fRes 62 0, fRwl 63 63 0]⟩,
  ⟨.xltSpaceBase, .xltBole, 0x8, 0x8, 1, [fRes 19 0, fRwl 47 20 0, fRes 63 48]⟩,
  ⟨.xltInval, .xltBole, 0x10, 0x8, 1, [fWoC 15 0, fWoC 47 16, fWoC 49 48, fRo 50 50 0, fW1cC 51 51, fRes 63 52]⟩,
  ⟨.xltInvals, .xltBole, 0x100, 0x8, 1, fCount⟩,
  ⟨.xltMemFault, .xltBole, 0x108, 0x8, 1, fCount⟩,
  ⟨.xltSpanFault, .xltBole, 0x110, 0x8, 1, fCount⟩]

/-- The HBM block (14 register tables). -/
def rowsHbm : List RegRow := [
  ⟨.hbmCtl, .hbm, 0x0, 0x8, 1, [fRw 0 0 1, fRes 7 1, fRw 15 8 4, fRw 31 16 0x1000, fRes 62 32, fRwl 63 63 0]⟩,
  ⟨.hbmStatus, .hbm, 0x8, 0x8, 1, [fRo 7 0 0, fRo 9 8 0, fRo 14 10 0, fRo 15 15 0, fRo 17 16 0, fRo 18 18 0, fRes 63 19]⟩,
  ⟨.hbmPcState, .hbm, 0x10, 0x8, 1, [fRo 63 0 0]⟩,
  ⟨.hbmRetire, .hbm, 0x18, 0x8, 1, [fWoC 4 0, fWoC 5 5, fRes 63 6]⟩,
  ⟨.hbmScrub, .hbm, 0x20, 0x8, 1, [fRw 10 0 60, fRw 11 11 1, fRes 63 12]⟩,
  ⟨.hbmMir, .hbm, 0x40, 0x8, 8, [fRw 0 0 0, fRo 1 1 0, fRes 5 2, fRw 20 6 0, fRw 35 21 0, fRes 63 36]⟩,
  ⟨.hbmCe, .hbm, 0x100, 0x8, 1, fCount⟩,
  ⟨.hbmUe, .hbm, 0x108, 0x8, 1, fCount⟩,
  ⟨.hbmMirFix, .hbm, 0x110, 0x8, 1, fCount⟩,
  ⟨.hbmPoisonWr, .hbm, 0x118, 0x8, 1, fCount⟩,
  ⟨.hbmRebuilt, .hbm, 0x120, 0x8, 1, fCount⟩,
  ⟨.hbmThrottleUs, .hbm, 0x128, 0x8, 1, fCount⟩]

/-- The RNG block (14 register tables). -/
def rowsRng : List RegRow := [
  ⟨.rngUeLast, .rng, 0x0, 0x8, 1, [fRo 10 0 0, fRes 15 11, fRo 31 16 0, fRo 32 32 0, fRes 63 33]⟩,
  ⟨.rngCe, .rng, 0x100, 0x8, 1, fCount⟩,
  ⟨.rngUe, .rng, 0x108, 0x8, 1, fCount⟩]

/-- The SPN block (16 register tables). -/
def rowsSpn : List RegRow := [
  ⟨.spnCtl, .spn, 0x0, 0x8, 1, [fRw 0 0 1, fRes 15 1, fRw 31 16 1000, fRw 39 32 10, fRw 55 40 1000, fRes 62 56, fRwl 63 63 0]⟩,
  ⟨.spnId, .spn, 0x8, 0x8, 1, [fRo 31 0 0, fRo 37 32 0, fRo 38 38 0, fRes 63 39]⟩,
  ⟨.spnEpoch, .spn, 0x10, 0x8, 1, [fRo 31 0 0, fRo 32 32 0, fRes 63 33]⟩,
  ⟨.spnMesh, .spn, 0x18, 0x8, 1, [fRo 20 0 0x4081, fRo 41 21 0, fRes 63 42]⟩,
  ⟨.spnStatus, .spn, 0x20, 0x8, 1, [fRo 0 0 0, fRo 1 1 0, fRo 2 2 0, fRes 63 3]⟩,
  ⟨.spnCtxwin, .spn, 0x28, 0x8, 1, [fRwl 15 0 0xffff, fRwl 31 16 0, fRes 63 32]⟩,
  ⟨.spnTrace, .spn, 0x30, 0x8, 1, [fRw 0 0 0, fRw 5 1 10, fRes 63 6]⟩,
  ⟨.spnMap, .spn, 0x40, 0x8, 8, [fRo 63 0 0]⟩,
  ⟨.spnLink, .spn, 0x80, 0x8, 8, [fRw 0 0 0, fRw 1 1 0, fWo 2 2, fRes 7 3, fRo 10 8 0, fRo 14 11 0, fRes 15 15, fRo 23 16 255, fRes 63 24]⟩,
  ⟨.spnRoute, .spn, 0x100, 0x8, 64, [fRwC 7 0 0, fRwC 15 8 0, fRes 63 16]⟩,
  ⟨.spnRetry, .spn, 0x400, 0x8, 8, fCount⟩,
  ⟨.spnSpare, .spn, 0x440, 0x8, 8, fCount⟩,
  ⟨.spnTimeout, .spn, 0x480, 0x8, 1, fCount⟩,
  ⟨.spnLost, .spn, 0x488, 0x8, 1, fCount⟩,
  ⟨.spnInRefused, .spn, 0x490, 0x8, 1, fCount⟩]

/-- The CRN block (17 register tables). -/
def rowsCrn : List RegRow := [
  ⟨.crnCtl, .crn, 0x0, 0x8, 1, [fRwl 15 0 15, fRwl 16 16 1, fRes 62 17, fRwl 63 63 0]⟩,
  ⟨.crnMem, .crn, 0x8, 0x8, 1, [fRes 29 0, fRwl 47 30 0, fRwl 55 48 0, fRes 63 56]⟩,
  ⟨.crnEvqBase, .crn, 0x10, 0x8, 1, [fRes 16 0, fRwl 47 17 0, fRes 63 48]⟩,
  ⟨.crnEvq, .crn, 0x18, 0x8, 1, [fRo 31 0 0, fRwC 63 32 0]⟩,
  ⟨.crnWd, .crn, 0x20, 0x8, 1, [fRw 15 0 10, fRes 63 16]⟩,
  ⟨.crnStatus, .crn, 0x28, 0x8, 1, [fRo 15 0 0xffff, fRo 31 16 0, fRo 47 32 0, fRes 63 48]⟩,
  ⟨.crnApp, .crn, 0x40, 0x8, 8, [fRo 15 0 0, fRo 16 16 0, fRo 17 17 0, fRes 31 18, fRo 63 32 0]⟩,
  ⟨.crnKick, .crn, 0x100, 0x8, 16, [fWoC 0 0, fRes 63 1]⟩,
  ⟨.crnRestart, .crn, 0x200, 0x8, 1, fCount⟩,
  ⟨.crnMchkCe, .crn, 0x208, 0x8, 1, fCount⟩,
  ⟨.crnEvqWait, .crn, 0x210, 0x8, 1, fCount⟩,
  ⟨.crnReplay, .crn, 0x218, 0x8, 1, fCount⟩,
  ⟨.crnAppFault, .crn, 0x220, 0x8, 1, fCount⟩,
  ⟨.crnQport, .crn, 0x100000, 0x8, 32768, [fWoC 63 0]⟩]

/-- The FSH block (18 register tables). -/
def rowsFsh : List RegRow := [
  ⟨.fshCtl, .fsh, 0x0, 0x8, 1, [fRw 0 0 1, fRw 1 1 1, fRes 62 2, fRwl 63 63 0]⟩,
  ⟨.fshStatus, .fsh, 0x8, 0x8, 1, [fRo 15 0 0, fRo 16 16 0, fRo 20 17 0, fRo 21 21 0, fRo 22 22 0, fRes 63 23]⟩,
  ⟨.fshCapRate, .fsh, 0x10, 0x8, 1, [fRw 10 0 50, fRes 15 11, fRw 23 16 16, fRes 63 24]⟩,
  ⟨.fshCapHead, .fsh, 0x18, 0x8, 1, [fRo 63 0 0]⟩,
  ⟨.fshCapTail, .fsh, 0x20, 0x8, 1, [fRo 63 0 0]⟩,
  ⟨.fshScrub, .fsh, 0x28, 0x8, 1, [fRw 7 0 7, fRes 15 8, fRw 24 16 180, fRes 63 25]⟩,
  ⟨.fshWear, .fsh, 0x30, 0x8, 1, [fRo 15 0 0, fRo 31 16 0, fRo 47 32 0, fRes 63 48]⟩,
  ⟨.fshPart, .fsh, 0x40, 0x8, 7, [fRo 47 0 0, fRes 63 48]⟩,
  ⟨.fshCe, .fsh, 0x100, 0x8, 1, fCount⟩,
  ⟨.fshRetry, .fsh, 0x108, 0x8, 1, fCount⟩,
  ⟨.fshRecon, .fsh, 0x110, 0x8, 1, fCount⟩,
  ⟨.fshUe, .fsh, 0x118, 0x8, 1, fCount⟩,
  ⟨.fshGrownBad, .fsh, 0x120, 0x8, 1, fCount⟩,
  ⟨.fshReloc, .fsh, 0x128, 0x8, 1, fCount⟩,
  ⟨.fshCapDrop, .fsh, 0x130, 0x8, 1, fCount⟩,
  ⟨.fshPort, .fsh, 0x1000, 0x8, 512, [fWoC 63 0]⟩]

/-- The TRS block (19 register tables). -/
def rowsTrs : List RegRow := [
  ⟨.trsStatus, .trs, 0x0, 0x8, 1, [fRo 0 0 0, fRo 1 1 0, fRo 2 2 0, fRo 3 3 0, fRo 5 4 0, fRes 31 6, fRo 63 32 0]⟩,
  ⟨.trsCtl, .trs, 0x8, 0x8, 1, [fRw 7 0 0, fWo 8 8, fRes 63 9]⟩,
  ⟨.trsSvn, .trs, 0x10, 0x8, 1, [fRo 31 0 0, fRo 63 32 0]⟩,
  ⟨.trsCfg, .trs, 0x18, 0x8, 1, [fWo 0 0, fWo 1 1, fRes 31 2, fRo 63 32 0]⟩,
  ⟨.trsOpkey, .trs, 0x40, 0x8, 16, [fRo 31 0 0, fRw 32 32 0, fWo 33 33, fRes 63 34]⟩,
  ⟨.trsSigner, .trs, 0x100, 0x8, 32, [fRw 63 0 0]⟩,
  ⟨.trsMeas, .trs, 0x200, 0x8, 32, [fRo 63 0 0]⟩,
  ⟨.trsInstallerId, .trs, 0x300, 0x8, 4, [fRo 63 0 0]⟩,
  ⟨.trsOpenFail, .trs, 0x400, 0x8, 1, fCount⟩,
  ⟨.trsSigBad, .trs, 0x408, 0x8, 1, fCount⟩,
  ⟨.trsAuditWait, .trs, 0x410, 0x8, 1, fCount⟩]

/-- The OBS block (21 register tables). -/
def rowsObs : List RegRow := [
  ⟨.obsCtl, .obs, 0x0, 0x8, 1, [fRwl 0 0 0, fRes 62 1, fRwl 63 63 0]⟩,
  ⟨.obsTrig, .obs, 0x8, 0x8, 1, [fRw 0 0 0, fRw 1 1 0, fRes 15 2, fRw 28 16 0, fRes 63 29]⟩,
  ⟨.obsTrace, .obs, 0x10, 0x8, 1, [fRo 0 0 0, fRo 1 1 0, fRo 4 2 0, fRo 9 5 0, fRo 20 10 0, fRo 31 21 0, fRo 32 32 0, fRes 63 33]⟩,
  ⟨.obsChaifDmac, .obs, 0x18, 0x8, 1, [fRw 47 0 0, fRes 63 48]⟩,
  ⟨.obsCut, .obs, 0x20, 0x8, 1, [fRo 55 0 0, fRo 59 56 0, fRes 63 60]⟩,
  ⟨.obsDbg, .obs, 0x28, 0x8, 1, [fRw 10 0 0, fRw 13 11 0, fWo 15 14, fRo 16 16 0, fW1c 17 17, fRes 23 18, fRo 31 24 0, fRes 63 32]⟩,
  ⟨.obsDbgAddr, .obs, 0x30, 0x8, 1, [fRes 11 0, fRw 47 12 0, fRes 63 48]⟩,
  ⟨.obsCtxb, .obs, 0x38, 0x8, 1, [fWoC 7 0, fWoC 8 8, fRes 63 9]⟩,
  ⟨.obsTraceDrop, .obs, 0x100, 0x8, 1, fCount⟩,
  ⟨.obsTraceRecs, .obs, 0x108, 0x8, 1, fCount⟩,
  ⟨.obsTrigIgnored, .obs, 0x110, 0x8, 1, fCount⟩]

/-- The PWR block (23 register tables). -/
def rowsPwr : List RegRow := [
  ⟨.pwrCtl, .pwr, 0x0, 0x8, 1, [fRwl 0 0 1, fRes 62 1, fRwl 63 63 0]⟩,
  ⟨.pwrCap, .pwr, 0x8, 0x8, 1, [fRo 1 0 0, fRo 3 2 0, fRo 4 4 0, fRes 63 5]⟩,
  ⟨.pwrInput, .pwr, 0x10, 0x8, 1, [fRo 15 0 0, fRo 31 16 0, fRo 47 32 0, fRes 63 48]⟩,
  ⟨.pwrTemp, .pwr, 0x18, 0x8, 1, [fRo 7 0 0, fRo 39 8 0, fRo 43 40 0, fRes 63 44]⟩,
  ⟨.pwrRail, .pwr, 0x20, 0x8, 1, [fRo 23 0 0, fRes 63 24]⟩,
  ⟨.pwrAlert, .pwr, 0x28, 0x8, 1, [fW1c 0 0, fW1c 1 1, fW1c 2 2, fW1c 3 3, fRes 63 4]⟩,
  ⟨.pwrShed, .pwr, 0x100, 0x8, 1, fCount⟩,
  ⟨.pwrThrottleUs, .pwr, 0x108, 0x8, 1, fCount⟩,
  ⟨.pwrInputEvents, .pwr, 0x110, 0x8, 1, fCount⟩]

/-- The families of one block. -/
def blockRows (b : Block) : List RegRow :=
  match b with
  | .cmp => []
  | .gct => rowsGct
  | .prt => rowsPrt
  | .prs => rowsPrs
  | .cnp => rowsCnp
  | .flw => rowsFlw
  | .hwd => rowsHwd
  | .sq => rowsSq
  | .grv => rowsGrv
  | .fct => rowsFct
  | .lat => rowsLat
  | .mov => rowsMov
  | .xlt => rowsXlt
  | .xltBole => rowsXltBole
  | .hbm => rowsHbm
  | .rng => rowsRng
  | .spn => rowsSpn
  | .crn => rowsCrn
  | .fsh => rowsFsh
  | .trs => rowsTrs
  | .obs => rowsObs
  | .pwr => rowsPwr

/-- The block in which a family lies. -/
def regBlock (n : RegName) : Block :=
  match n with
  | .gctState => .gct
  | .gctCtrl => .gct
  | .gctIpv4 => .gct
  | .gctIpv6 => .gct
  | .gctSessionTtl => .gct
  | .gctSlotTtl => .gct
  | .gctUsage => .gct
  | .gctFramingDrop => .gct
  | .gctAuthFail => .gct
  | .gctAuthSuppress => .gct
  | .gctSliceFullDrop => .gct
  | .gctCompletions => .gct
  | .gctRecq => .gct
  | .gctCpMacDrop => .gct
  | .gctCpOther => .gct
  | .prtCfg => .prt
  | .prtStatus => .prt
  | .prtPool => .prt
  | .prtEgressDrop => .prt
  | .prtRxFrames => .prt
  | .prtRxBytes => .prt
  | .prtRxFcsErr => .prt
  | .prtRxDiscard => .prt
  | .prtRxAdmitDrop => .prt
  | .prtRxStateDrop => .prt
  | .prtTxFrames => .prt
  | .prtTxBytes => .prt
  | .prsDepth => .prs
  | .prsKey => .prs
  | .prsUdpPorts => .prs
  | .prsQuicPorts => .prs
  | .prsQuicDcid => .prs
  | .prsPkts => .prs
  | .prsLimit => .prs
  | .prsMalformed => .prs
  | .prsFrag => .prs
  | .prsPfIssued => .prs
  | .prsPfSkip => .prs
  | .cnpBank => .cnp
  | .cnpShim => .cnp
  | .cnpMirror => .cnp
  | .cnpEgressMap => .cnp
  | .cnpDrop => .cnp
  | .cnpWait => .cnp
  | .cnpEditRefused => .cnp
  | .cnpTtlDrop => .cnp
  | .cnpRecircIgnored => .cnp
  | .cnpOversizeDrop => .cnp
  | .cnpHit => .cnp
  | .cnpMiss => .cnp
  | .flwCtl => .flw
  | .flwHash => .flw
  | .flwAge => .flw
  | .flwLock => .flw
  | .flwScrub => .flw
  | .flwNotify => .flw
  | .flwBase => .flw
  | .flwShadow => .flw
  | .flwCount => .flw
  | .flwHit => .flw
  | .flwMiss => .flw
  | .flwLearn => .flw
  | .flwSuppress => .flw
  | .flwLearnFull => .flw
  | .flwLearnDrop => .flw
  | .flwAged => .flw
  | .flwLockExpired => .flw
  | .flwMismatch => .flw
  | .flwBucketErr => .flw
  | .hwdPool => .hwd
  | .hwdScrub => .hwd
  | .hwdUsage => .hwd
  | .hwdEccCe => .hwd
  | .hwdEccUe => .hwd
  | .hwdCtlEccDrop => .hwd
  | .hwdTraceEccDrop => .hwd
  | .hwdPktStomp => .hwd
  | .sqRewound => .sq
  | .sqPoison => .sq
  | .sqFullDrop => .sq
  | .sqT2Ctl => .sq
  | .sqT2Ctxc => .sq
  | .sqT2Rec => .sq
  | .sqTendCtl => .sq
  | .sqTendAt => .sq
  | .sqT2Set => .sq
  | .sqT2Wm => .sq
  | .sqT2Tokens => .sq
  | .sqT2Drop => .sq
  | .sqHoldFull => .sq
  | .sqDeferred => .sq
  | .sqT1Late => .sq
  | .sqLateRec => .sq
  | .sqReplay => .sq
  | .sqCtxReset => .sq
  | .sqRecDrop => .sq
  | .sqTendStall => .sq
  | .sqTendMiss => .sq
  | .sqT2Poison => .sq
  | .sqCfg => .sq
  | .sqBind => .sq
  | .sqPtra => .sq
  | .sqPtrb => .sq
  | .sqMark => .sq
  | .grvCtl => .grv
  | .grvScrub => .grv
  | .grvPhase => .grv
  | .grvSlots => .grv
  | .grvRoute => .grv
  | .grvSlot => .grv
  | .grvFree => .grv
  | .grvOrdBase => .grv
  | .grvEval => .grv
  | .grvWait => .grv
  | .grvNodeCe => .grv
  | .grvNodeUe => .grv
  | .grvNan => .grv
  | .grvOrdUe => .grv
  | .fctId => .fct
  | .fctCtl => .fct
  | .fctQuantum => .fct
  | .fctStatus => .fct
  | .fctScrub => .fct
  | .fctBrk => .fct
  | .fctEvac => .fct
  | .fctHc => .fct
  | .fctFrame => .fct
  | .fctBundles => .fct
  | .fctPreempt => .fct
  | .fctRaEnter => .fct
  | .fctExc => .fct
  | .fctRingCe => .fct
  | .fctRingUe => .fct
  | .latCtl => .lat
  | .latStatus => .lat
  | .latBist => .lat
  | .latBistLast => .lat
  | .latPasses => .lat
  | .latChkSame => .lat
  | .latChkSpare => .lat
  | .latChkFail => .lat
  | .latParity => .lat
  | .latBistRuns => .lat
  | .latBistFail => .lat
  | .latSpareServed => .lat
  | .movCtl => .mov
  | .movTags => .mov
  | .movXfers => .mov
  | .movBytes => .mov
  | .movFill => .mov
  | .movDrop => .mov
  | .movAlias => .mov
  | .movSuspend => .mov
  | .movFailed => .mov
  | .xltFring => .xlt
  | .xltResolve => .xlt
  | .xltWalks => .xlt
  | .xltFaults => .xlt
  | .xltRefused => .xlt
  | .xltWalkUe => .xlt
  | .xltRingWait => .xlt
  | .xltCtl => .xltBole
  | .xltSpaceBase => .xltBole
  | .xltInval => .xltBole
  | .xltInvals => .xltBole
  | .xltMemFault => .xltBole
  | .xltSpanFault => .xltBole
  | .hbmCtl => .hbm
  | .hbmStatus => .hbm
  | .hbmPcState => .hbm
  | .hbmRetire => .hbm
  | .hbmScrub => .hbm
  | .hbmMir => .hbm
  | .hbmCe => .hbm
  | .hbmUe => .hbm
  | .hbmMirFix => .hbm
  | .hbmPoisonWr => .hbm
  | .hbmRebuilt => .hbm
  | .hbmThrottleUs => .hbm
  | .rngUeLast => .rng
  | .rngCe => .rng
  | .rngUe => .rng
  | .spnCtl => .spn
  | .spnId => .spn
  | .spnEpoch => .spn
  | .spnMesh => .spn
  | .spnStatus => .spn
  | .spnCtxwin => .spn
  | .spnTrace => .spn
  | .spnMap => .spn
  | .spnLink => .spn
  | .spnRoute => .spn
  | .spnRetry => .spn
  | .spnSpare => .spn
  | .spnTimeout => .spn
  | .spnLost => .spn
  | .spnInRefused => .spn
  | .crnCtl => .crn
  | .crnMem => .crn
  | .crnEvqBase => .crn
  | .crnEvq => .crn
  | .crnWd => .crn
  | .crnStatus => .crn
  | .crnApp => .crn
  | .crnKick => .crn
  | .crnRestart => .crn
  | .crnMchkCe => .crn
  | .crnEvqWait => .crn
  | .crnReplay => .crn
  | .crnAppFault => .crn
  | .crnQport => .crn
  | .fshCtl => .fsh
  | .fshStatus => .fsh
  | .fshCapRate => .fsh
  | .fshCapHead => .fsh
  | .fshCapTail => .fsh
  | .fshScrub => .fsh
  | .fshWear => .fsh
  | .fshPart => .fsh
  | .fshCe => .fsh
  | .fshRetry => .fsh
  | .fshRecon => .fsh
  | .fshUe => .fsh
  | .fshGrownBad => .fsh
  | .fshReloc => .fsh
  | .fshCapDrop => .fsh
  | .fshPort => .fsh
  | .trsStatus => .trs
  | .trsCtl => .trs
  | .trsSvn => .trs
  | .trsCfg => .trs
  | .trsOpkey => .trs
  | .trsSigner => .trs
  | .trsMeas => .trs
  | .trsInstallerId => .trs
  | .trsOpenFail => .trs
  | .trsSigBad => .trs
  | .trsAuditWait => .trs
  | .obsCtl => .obs
  | .obsTrig => .obs
  | .obsTrace => .obs
  | .obsChaifDmac => .obs
  | .obsCut => .obs
  | .obsDbg => .obs
  | .obsDbgAddr => .obs
  | .obsCtxb => .obs
  | .obsTraceDrop => .obs
  | .obsTraceRecs => .obs
  | .obsTrigIgnored => .obs
  | .pwrCtl => .pwr
  | .pwrCap => .pwr
  | .pwrInput => .pwr
  | .pwrTemp => .pwr
  | .pwrRail => .pwr
  | .pwrAlert => .pwr
  | .pwrShed => .pwr
  | .pwrThrottleUs => .pwr
  | .pwrInputEvents => .pwr

/-- The window offset at which a block instance begins (22 "Register window layout", R572). -/
def blockBase (b : Block) (inst : Nat) : Nat :=
  match b with
  | .cmp => 0
  | .gct => 0x1400000
  | .prt => 0x200000
  | .prs => 0x400000
  | .cnp => 0x600000
  | .flw => 0x800000
  | .hwd => 0xa00000
  | .sq => 0xc00000
  | .grv => 0xe00000
  | .fct => 0x10000000 + 0x4000 * inst
  | .lat => 0x10000000 + 0x4000 * inst + 0x1000
  | .mov => 0x10000000 + 0x4000 * inst + 0x2000
  | .xlt => 0x10000000 + 0x4000 * inst + 0x3000
  | .xltBole => 0x2000000
  | .hbm => 0x04000000 + 0x10000 * inst
  | .rng => 0x1000000
  | .spn => 0x1200000
  | .crn => 0x1600000
  | .fsh => 0x1800000
  | .trs => 0x1a00000
  | .obs => 0x1c00000
  | .pwr => 0x1e00000

/-- Offset and stride of a family in its block. -/
def regPlace (n : RegName) : Nat × Nat :=
  match n with
  | .gctState => (0x0, 0x8)
  | .gctCtrl => (0x8, 0x8)
  | .gctIpv4 => (0x10, 0x8)
  | .gctIpv6 => (0x18, 0x8)
  | .gctSessionTtl => (0x28, 0x8)
  | .gctSlotTtl => (0x30, 0x8)
  | .gctUsage => (0x38, 0x8)
  | .gctFramingDrop => (0x40, 0x8)
  | .gctAuthFail => (0x48, 0x8)
  | .gctAuthSuppress => (0x50, 0x8)
  | .gctSliceFullDrop => (0x58, 0x8)
  | .gctCompletions => (0x60, 0x8)
  | .gctRecq => (0x68, 0x8)
  | .gctCpMacDrop => (0x70, 0x8)
  | .gctCpOther => (0x80, 0x8)
  | .prtCfg => (0x0, 0x8)
  | .prtStatus => (0x80, 0x8)
  | .prtPool => (0x100, 0x8)
  | .prtEgressDrop => (0x108, 0x8)
  | .prtRxFrames => (0x1000, 0x40)
  | .prtRxBytes => (0x1008, 0x40)
  | .prtRxFcsErr => (0x1010, 0x40)
  | .prtRxDiscard => (0x1018, 0x40)
  | .prtRxAdmitDrop => (0x1020, 0x40)
  | .prtRxStateDrop => (0x1028, 0x40)
  | .prtTxFrames => (0x1030, 0x40)
  | .prtTxBytes => (0x1038, 0x40)
  | .prsDepth => (0x0, 0x8)
  | .prsKey => (0x8, 0x8)
  | .prsUdpPorts => (0x10, 0x8)
  | .prsQuicPorts => (0x18, 0x8)
  | .prsQuicDcid => (0x20, 0x8)
  | .prsPkts => (0x100, 0x8)
  | .prsLimit => (0x140, 0x8)
  | .prsMalformed => (0x180, 0x8)
  | .prsFrag => (0x1c0, 0x8)
  | .prsPfIssued => (0x200, 0x8)
  | .prsPfSkip => (0x240, 0x8)
  | .cnpBank => (0x0, 0x8)
  | .cnpShim => (0x8, 0x8)
  | .cnpMirror => (0x10, 0x8)
  | .cnpEgressMap => (0x100, 0x8)
  | .cnpDrop => (0x400, 0x8)
  | .cnpWait => (0x440, 0x8)
  | .cnpEditRefused => (0x480, 0x8)
  | .cnpTtlDrop => (0x488, 0x8)
  | .cnpRecircIgnored => (0x490, 0x8)
  | .cnpOversizeDrop => (0x498, 0x8)
  | .cnpHit => (0x800, 0x8)
  | .cnpMiss => (0x880, 0x8)
  | .flwCtl => (0x0, 0x8)
  | .flwHash => (0x8, 0x8)
  | .flwAge => (0x10, 0x8)
  | .flwLock => (0x18, 0x8)
  | .flwScrub => (0x20, 0x8)
  | .flwNotify => (0x28, 0x8)
  | .flwBase => (0x100, 0x8)
  | .flwShadow => (0x140, 0x8)
  | .flwCount => (0x180, 0x8)
  | .flwHit => (0x200, 0x8)
  | .flwMiss => (0x240, 0x8)
  | .flwLearn => (0x280, 0x8)
  | .flwSuppress => (0x2c0, 0x8)
  | .flwLearnFull => (0x300, 0x8)
  | .flwLearnDrop => (0x340, 0x8)
  | .flwAged => (0x380, 0x8)
  | .flwLockExpired => (0x3c0, 0x8)
  | .flwMismatch => (0x400, 0x8)
  | .flwBucketErr => (0x440, 0x8)
  | .hwdPool => (0x0, 0x8)
  | .hwdScrub => (0x8, 0x8)
  | .hwdUsage => (0x10, 0x8)
  | .hwdEccCe => (0x100, 0x8)
  | .hwdEccUe => (0x108, 0x8)
  | .hwdCtlEccDrop => (0x110, 0x8)
  | .hwdTraceEccDrop => (0x118, 0x8)
  | .hwdPktStomp => (0x120, 0x8)
  | .sqRewound => (0x0, 0x8)
  | .sqPoison => (0x8, 0x8)
  | .sqFullDrop => (0x10, 0x8)
  | .sqT2Ctl => (0x100, 0x8)
  | .sqT2Ctxc => (0x108, 0x8)
  | .sqT2Rec => (0x110, 0x8)
  | .sqTendCtl => (0x120, 0x8)
  | .sqTendAt => (0x128, 0x8)
  | .sqT2Set => (0x140, 0x8)
  | .sqT2Wm => (0x200, 0x8)
  | .sqT2Tokens => (0x300, 0x8)
  | .sqT2Drop => (0x340, 0x8)
  | .sqHoldFull => (0x380, 0x8)
  | .sqDeferred => (0x3c0, 0x8)
  | .sqT1Late => (0x400, 0x8)
  | .sqLateRec => (0x440, 0x8)
  | .sqReplay => (0x480, 0x8)
  | .sqCtxReset => (0x4c0, 0x8)
  | .sqRecDrop => (0x500, 0x8)
  | .sqTendStall => (0x508, 0x8)
  | .sqTendMiss => (0x510, 0x8)
  | .sqT2Poison => (0x518, 0x8)
  | .sqCfg => (0x10000, 0x40)
  | .sqBind => (0x10008, 0x40)
  | .sqPtra => (0x10010, 0x40)
  | .sqPtrb => (0x10018, 0x40)
  | .sqMark => (0x10020, 0x40)
  | .grvCtl => (0x0, 0x8)
  | .grvScrub => (0x8, 0x8)
  | .grvPhase => (0x10, 0x8)
  | .grvSlots => (0x18, 0x8)
  | .grvRoute => (0x100, 0x8)
  | .grvSlot => (0x180, 0x8)
  | .grvFree => (0x200, 0x8)
  | .grvOrdBase => (0x300, 0x8)
  | .grvEval => (0x400, 0x8)
  | .grvWait => (0x440, 0x8)
  | .grvNodeCe => (0x480, 0x8)
  | .grvNodeUe => (0x488, 0x8)
  | .grvNan => (0x490, 0x8)
  | .grvOrdUe => (0x498, 0x8)
  | .fctId => (0x0, 0x8)
  | .fctCtl => (0x8, 0x8)
  | .fctQuantum => (0x10, 0x8)
  | .fctStatus => (0x18, 0x8)
  | .fctScrub => (0x20, 0x8)
  | .fctBrk => (0x28, 0x8)
  | .fctEvac => (0x30, 0x8)
  | .fctHc => (0x100, 0x8)
  | .fctFrame => (0x140, 0x8)
  | .fctBundles => (0x200, 0x8)
  | .fctPreempt => (0x208, 0x8)
  | .fctRaEnter => (0x210, 0x8)
  | .fctExc => (0x218, 0x8)
  | .fctRingCe => (0x220, 0x8)
  | .fctRingUe => (0x228, 0x8)
  | .latCtl => (0x0, 0x8)
  | .latStatus => (0x8, 0x8)
  | .latBist => (0x10, 0x8)
  | .latBistLast => (0x18, 0x8)
  | .latPasses => (0x100, 0x8)
  | .latChkSame => (0x108, 0x8)
  | .latChkSpare => (0x110, 0x8)
  | .latChkFail => (0x118, 0x8)
  | .latParity => (0x120, 0x8)
  | .latBistRuns => (0x128, 0x8)
  | .latBistFail => (0x130, 0x8)
  | .latSpareServed => (0x138, 0x8)
  | .movCtl => (0x0, 0x8)
  | .movTags => (0x8, 0x8)
  | .movXfers => (0x100, 0x8)
  | .movBytes => (0x108, 0x8)
  | .movFill => (0x110, 0x8)
  | .movDrop => (0x118, 0x8)
  | .movAlias => (0x120, 0x8)
  | .movSuspend => (0x128, 0x8)
  | .movFailed => (0x130, 0x8)
  | .xltFring => (0x0, 0x8)
  | .xltResolve => (0x8, 0x8)
  | .xltWalks => (0x100, 0x8)
  | .xltFaults => (0x108, 0x8)
  | .xltRefused => (0x110, 0x8)
  | .xltWalkUe => (0x118, 0x8)
  | .xltRingWait => (0x120, 0x8)
  | .xltCtl => (0x0, 0x8)
  | .xltSpaceBase => (0x8, 0x8)
  | .xltInval => (0x10, 0x8)
  | .xltInvals => (0x100, 0x8)
  | .xltMemFault => (0x108, 0x8)
  | .xltSpanFault => (0x110, 0x8)
  | .hbmCtl => (0x0, 0x8)
  | .hbmStatus => (0x8, 0x8)
  | .hbmPcState => (0x10, 0x8)
  | .hbmRetire => (0x18, 0x8)
  | .hbmScrub => (0x20, 0x8)
  | .hbmMir => (0x40, 0x8)
  | .hbmCe => (0x100, 0x8)
  | .hbmUe => (0x108, 0x8)
  | .hbmMirFix => (0x110, 0x8)
  | .hbmPoisonWr => (0x118, 0x8)
  | .hbmRebuilt => (0x120, 0x8)
  | .hbmThrottleUs => (0x128, 0x8)
  | .rngUeLast => (0x0, 0x8)
  | .rngCe => (0x100, 0x8)
  | .rngUe => (0x108, 0x8)
  | .spnCtl => (0x0, 0x8)
  | .spnId => (0x8, 0x8)
  | .spnEpoch => (0x10, 0x8)
  | .spnMesh => (0x18, 0x8)
  | .spnStatus => (0x20, 0x8)
  | .spnCtxwin => (0x28, 0x8)
  | .spnTrace => (0x30, 0x8)
  | .spnMap => (0x40, 0x8)
  | .spnLink => (0x80, 0x8)
  | .spnRoute => (0x100, 0x8)
  | .spnRetry => (0x400, 0x8)
  | .spnSpare => (0x440, 0x8)
  | .spnTimeout => (0x480, 0x8)
  | .spnLost => (0x488, 0x8)
  | .spnInRefused => (0x490, 0x8)
  | .crnCtl => (0x0, 0x8)
  | .crnMem => (0x8, 0x8)
  | .crnEvqBase => (0x10, 0x8)
  | .crnEvq => (0x18, 0x8)
  | .crnWd => (0x20, 0x8)
  | .crnStatus => (0x28, 0x8)
  | .crnApp => (0x40, 0x8)
  | .crnKick => (0x100, 0x8)
  | .crnRestart => (0x200, 0x8)
  | .crnMchkCe => (0x208, 0x8)
  | .crnEvqWait => (0x210, 0x8)
  | .crnReplay => (0x218, 0x8)
  | .crnAppFault => (0x220, 0x8)
  | .crnQport => (0x100000, 0x8)
  | .fshCtl => (0x0, 0x8)
  | .fshStatus => (0x8, 0x8)
  | .fshCapRate => (0x10, 0x8)
  | .fshCapHead => (0x18, 0x8)
  | .fshCapTail => (0x20, 0x8)
  | .fshScrub => (0x28, 0x8)
  | .fshWear => (0x30, 0x8)
  | .fshPart => (0x40, 0x8)
  | .fshCe => (0x100, 0x8)
  | .fshRetry => (0x108, 0x8)
  | .fshRecon => (0x110, 0x8)
  | .fshUe => (0x118, 0x8)
  | .fshGrownBad => (0x120, 0x8)
  | .fshReloc => (0x128, 0x8)
  | .fshCapDrop => (0x130, 0x8)
  | .fshPort => (0x1000, 0x8)
  | .trsStatus => (0x0, 0x8)
  | .trsCtl => (0x8, 0x8)
  | .trsSvn => (0x10, 0x8)
  | .trsCfg => (0x18, 0x8)
  | .trsOpkey => (0x40, 0x8)
  | .trsSigner => (0x100, 0x8)
  | .trsMeas => (0x200, 0x8)
  | .trsInstallerId => (0x300, 0x8)
  | .trsOpenFail => (0x400, 0x8)
  | .trsSigBad => (0x408, 0x8)
  | .trsAuditWait => (0x410, 0x8)
  | .obsCtl => (0x0, 0x8)
  | .obsTrig => (0x8, 0x8)
  | .obsTrace => (0x10, 0x8)
  | .obsChaifDmac => (0x18, 0x8)
  | .obsCut => (0x20, 0x8)
  | .obsDbg => (0x28, 0x8)
  | .obsDbgAddr => (0x30, 0x8)
  | .obsCtxb => (0x38, 0x8)
  | .obsTraceDrop => (0x100, 0x8)
  | .obsTraceRecs => (0x108, 0x8)
  | .obsTrigIgnored => (0x110, 0x8)
  | .pwrCtl => (0x0, 0x8)
  | .pwrCap => (0x8, 0x8)
  | .pwrInput => (0x10, 0x8)
  | .pwrTemp => (0x18, 0x8)
  | .pwrRail => (0x20, 0x8)
  | .pwrAlert => (0x28, 0x8)
  | .pwrShed => (0x100, 0x8)
  | .pwrThrottleUs => (0x108, 0x8)
  | .pwrInputEvents => (0x110, 0x8)

/-- The value that the Reset columns give a family (00 R25); HW and absent values count 0 here. DESIGN CHOICE: log 148. -/
def tableReset (n : RegName) : Nat :=
  match n with
  | .gctState => 0x1
  | .gctSessionTtl => 0xea60
  | .gctSlotTtl => 0x2710
  | .prtCfg => 0x400024000000
  | .prsDepth => 0x80318
  | .prsKey => 0x1
  | .prsUdpPorts => 0x1194086817c112b5
  | .prsQuicPorts => 0x1bb
  | .prsQuicDcid => 0x8
  | .cnpShim => 0x88b6
  | .flwCtl => 0x5ff
  | .flwAge => 0x3e80001d4c0
  | .flwLock => 0x14
  | .flwScrub => 0xa
  | .hwdPool => 0x4002000200
  | .hwdScrub => 0x103e8
  | .sqT2Ctxc => 0x1000
  | .sqT2Rec => 0x6
  | .grvCtl => 0x1
  | .grvScrub => 0x3e8
  | .grvFree => 0x2002000c00030000
  | .fctCtl => 0x3
  | .fctQuantum => 0x1adb0
  | .fctScrub => 0x103e8
  | .latCtl => 0x3
  | .latBist => 0x64
  | .movCtl => 0x1
  | .hbmCtl => 0x10000401
  | .hbmScrub => 0x83c
  | .spnCtl => 0x3e80a03e80001
  | .spnMesh => 0x4081
  | .spnCtxwin => 0xffff
  | .spnTrace => 0x14
  | .spnLink => 0xff0000
  | .crnCtl => 0x1000f
  | .crnWd => 0xa
  | .crnStatus => 0xffff
  | .fshCtl => 0x3
  | .fshCapRate => 0x100032
  | .fshScrub => 0xb40007
  | .pwrCtl => 0x1
  | _ => 0

/-- The block instance that holds a window offset and the offset within it; none for a reserved offset (22 R572). -/
def decodeBlock (a : Nat) : Option (Block × Nat × Nat) :=
  if a < 0x00200000 then some (.cmp, 0, a)
  else if a < 0x02200000 then
    let o := a % 0x00200000
    match a / 0x00200000 with
    | 1 => some (.prt, 0, o)
    | 2 => some (.prs, 0, o)
    | 3 => some (.cnp, 0, o)
    | 4 => some (.flw, 0, o)
    | 5 => some (.hwd, 0, o)
    | 6 => some (.sq, 0, o)
    | 7 => some (.grv, 0, o)
    | 8 => some (.rng, 0, o)
    | 9 => some (.spn, 0, o)
    | 10 => some (.gct, 0, o)
    | 11 => some (.crn, 0, o)
    | 12 => some (.fsh, 0, o)
    | 13 => some (.trs, 0, o)
    | 14 => some (.obs, 0, o)
    | 15 => some (.pwr, 0, o)
    | 16 => some (.xltBole, 0, o)
    | _ => none
  else if 0x04000000 ≤ a && a < 0x04080000 then some (.hbm, (a - 0x04000000) / 0x10000, a % 0x10000)
  else if 0x10000000 ≤ a && a < 0x10000000 + 0x4000 * 1280 then
    let k := (a - 0x10000000) / 0x4000
    let o := a % 0x1000
    match a % 0x4000 / 0x1000 with
    | 0 => some (.fct, k, o)
    | 1 => some (.lat, k, o)
    | 2 => some (.mov, k, o)
    | _ => some (.xlt, k, o)
  else none

/-- The family of a block that occupies an offset, and the index in it. -/
def findRow (rows : List RegRow) (o : Nat) : Option (RegRow × Nat) :=
  match rows with
  | [] => none
  | r :: t =>
    if r.off ≤ o && (o - r.off) % r.stride == 0 && (o - r.off) / r.stride < r.count then some (r, (o - r.off) / r.stride)
    else findRow t o

/-- The register at a window offset, with its family's row (00 R24: none where no register occupies the offset). -/
def regAt (a : Nat) : Option (RegRow × Reg) :=
  match decodeBlock a with
  | none => none
  | some (b, inst, o) =>
    match findRow (blockRows b) o with
    | none => none
    | some (row, i) =>
      if row.name = .hbmMir ∧ inst % 2 = 1 then none else some (row, { name := row.name, inst := inst, idx := i })

/-- The window offset of a register. -/
def regAddr (r : Reg) : Nat := blockBase (regBlock r.name) r.inst + (regPlace r.name).1 + (regPlace r.name).2 * r.idx

end Sys2Proof.Machine
end

