-- ==== Sys2Proof/Machine/SpanTypes.lean ====
section
/-!
DEFINITION. The state of the Span fabric (16): links with their sequence numbers, credits and replay buffers, requests that wait for
a response, route moves and membership epochs.
-/

namespace Sys2Proof.Machine

/-- A flit that a link has sent and that no ACK covers yet, or that waits to be sent (R465, R466): FTYPE, VC, SOM, EOM, SEQ once it
has been sent, and its 240 data bytes. -/
structure Flit where
  ftype : Nat
  vc : Nat
  som : Bool
  eom : Bool
  seq : Nat
  data : Bytes
deriving DecidableEq, Repr

/-- A Span link beside its register (R463–R467): the next SEQ to send and the next expected, whether any has arrived, the replay buffer, flits that wait for
a credit or for replay room, credits by VC, retries without progress, the last clock tick at which a flit arrived, and whether a
retrain in progress will replay. -/
structure SpanLink where
  nextSeq : Nat
  rxSeq : Nat
  rxAny : Bool
  replay : List Flit
  waiting : List Flit
  credits : FMap Nat
  retries : Nat
  lastRx : Nat
  resume : Bool
deriving DecidableEq, Repr

/-- A link before it has trained. -/
def SpanLink.reset : SpanLink :=
  { nextSeq := 0, rxSeq := 0, rxAny := false, replay := [], waiting := [], credits := [], retries := 0, lastRx := 0, resume := false }

/-- A message (R468): MTYPE, SRC with EPAR, DST, STATUS, MSGID, CTX, XID and the data bytes. -/
structure SpanMsg where
  mtype : Nat
  src : Nat
  epar : Nat
  dst : Nat
  status : Nat
  msgid : Nat
  ctx : Nat
  xid : Nat
  data : Bytes
deriving DecidableEq, Repr

/-- A request of this module that has no response yet (R468, R471): the message, the epoch it was issued under, the core, hardware
context, context and tag of its transfer, the clock tick from which its timeout runs, and the link it was sent over, if it has
been sent. -/
structure SpanReq where
  msg : SpanMsg
  epoch : Nat
  core : Nat
  hc : Nat
  ctx : Nat
  tag : Nat
  since : Nat
  link : Option Nat
deriving DecidableEq, Repr

/-- The header of a control message (R468): its source, its destination, the epoch that it names, whose low bit is its EPAR, and its MSGID.
DESIGN CHOICE: log 115. -/
structure CtlHead where
  src : Nat
  dst : Nat
  epoch : Nat
  msgid : Nat
deriving DecidableEq, Repr

/-- A proposed epoch (R475): its number, its coordinator, the mesh sizes and the map. -/
structure EpochPlan where
  epoch : Nat
  coord : Nat
  mesh : List Nat
  map : List Nat
deriving DecidableEq, Repr

/-- An epoch that this module coordinates (R475): the plan, the modules that have answered READY, when it began, and whether a
SPAN_MEMBER command waits for it. -/
structure EpochRun where
  plan : EpochPlan
  ready : List Nat
  since : Nat
  command : Bool
deriving DecidableEq, Repr

/-- The previous epoch while it is open (R476): its number, mesh and map, and the clock tick of the switch point. -/
structure OldEpoch where
  epoch : Nat
  map : List Nat
  since : Nat
deriving DecidableEq, Repr

/-- The Span fabric: whether the module is a member of the current epoch, links, the neighbour IDs that ATTACH named, outstanding requests, the
message count, destinations in route moves (2m for the even half, 2m + 1 for the odd one; true once the alternate is in use), LINK_DOWN reports as
pairs of reporter and neighbour, modules in HALTED since when, a plan answered READY, a plan that this module coordinates, the old epoch, and requests
that ended in HALTED with their status, whose transfers learn of it on RESUME. -/
structure Span where
  member : Bool
  links : FMap SpanLink
  neigh : FMap Nat
  reqs : List SpanReq
  count : Nat
  xid : Nat
  moves : FMap Bool
  downs : List (Nat × Nat)
  halted : FMap Nat
  prep : Option EpochPlan
  run : Option EpochRun
  old : Option OldEpoch
  late : List (SpanReq × Nat)
deriving DecidableEq, Repr

/-- The Span fabric after reset. DESIGN CHOICE: log 12. -/
def Span.reset : Span :=
  { member := false, links := [], neigh := [], reqs := [], count := 0, xid := 0, moves := [], downs := [], halted := [], prep := none, run := none,
    old := none, late := [] }

end Sys2Proof.Machine
end

