-- ==== Sys2Proof/Syntax.lean ====
section
/-!
DEFINITION. The rows of spec/opcode_table.json, one constructor each, with the operands that the rules give them.
-/

namespace Sys2Proof

/-- A row of the table: a command frame, a bundle that a core issues, a store of a Crown core, a write of a register, or an event that the
rules describe. A number in an operand that the spec bounds is bounded by its type or by `Instr.wf`. -/
inductive Instr where
  /-- FRAME_START (R98): At the first byte of a received frame the port complex reserves 36 Heartwood cells against the logical-port share
  and the data pool, or discards the frame into RX_ADMIT_DROP. -/
  | frameStart (lport : Fin 64)
  /-- OVERSIZE_DISCARD (R601): The byte that takes a frame past PRT_CFG_n.MAX_FRAME discards the frame, frees its cells and counts it in
  RX_DISCARD. -/
  | oversizeDiscard (lport : Fin 64)
  /-- FRAME_END (R97): At a frame's end the MAC applies the FCS, truncation, size, MAC-control and state checks, counts any discard, and
  commits the frame to admission. The frame without its FCS, whether the FCS holds, whether the frame was truncated, and whether its cells
  of the control slice have an uncorrectable error (06 R180). -/
  | frameEnd (lport : Fin 64) (frame : Bytes) (fcsOk : Bool) (truncated : Bool) (ecc : Bool)
  /-- COMMAND_PORT_FRAME (R600): A frame received on C0 or C1 is discarded and counted when it is malformed or not GCT, and otherwise
  enters the control slice. The frame without its FCS; `ecc` is an uncorrectable error of its cells (06 R180). -/
  | commandPortFrame (port : Fin 2) (frame : Bytes) (fcsOk : Bool) (truncated : Bool) (ecc : Bool)
  /-- PORT_LINK_CHANGE (R94): A packet-port logical link goes up or down, updating PRT_STATUS_n.LINK and truncating any frame in progress.
  -/
  | portLinkChange (lport : Fin 64) (up : Bool)
  /-- PORT_ENABLE (R124): A change of PRT_CFG_n.ENABLE takes effect at the next frame boundary of each logical port of the physical port.
  -/
  | portEnable (lport : Fin 64)
  /-- PARSE_ACCEPT (R104): A parse pipeline accepts one committed frame per cycle, round-robin among its logical ports, and samples
  PRS_DEPTH and PRS_KEY. -/
  | parseAccept (pipe : Fin 8)
  /-- FLOW_KEY_COMPLETE (R105): Twenty-one cycles after acceptance the flow key is complete and its lookup is issued to the pipeline's
  flow cache. -/
  | flowKeyComplete (pipe : Fin 8)
  /-- PREFETCH_LAND (R119): Prefetched context-page data lands in the flow-context cache as a clean copy tagged with the entry generation,
  poisoned on an uncorrectable error. -/
  | prefetchLand (pipe : Fin 8)
  /-- FLOW_LOOKUP_ANSWER (R156): A flow lookup answers with a hit that refreshes LAST_HIT and delivers FLOW_STATE, CTX and GEN, or with a
  miss that sets FLOW_NEW. `bad1` and `bad2` are uncorrectable errors in the cached lines of the first and the second candidate. -/
  | flowLookupAnswer (packet : Nat) (bad1 : Bool) (bad2 : Bool)
  /-- FILTER_EXPIRY (R160): A key leaves the pipeline's learn suppression filter 80,000 cycles after it entered. -/
  | filterExpiry (pipe : Fin 8)
  /-- FLOW_RECORD_ENQUEUE (R161): A waiting AGED, DELETED, BUCKET_ERR or MISMATCH record is written to its pipeline's notification queue
  once room returns. -/
  | flowRecordEnqueue (pipe : Fin 8)
  /-- FIRST_PASS_ENTRY (R146): A packet enters first-pass T0, copies the ACTIVE bank vector, pins its banks and runs stages T0–T7. -/
  | firstPassEntry (pipe : Fin 8)
  /-- T2_ADMIT (R128): T2 admits one packet per cycle, the oldest parked packet with its answer first. -/
  | t2Admit (pipe : Fin 8)
  /-- PASS_END (R140): When a packet leaves T7 the module takes mirror copies, drops it if DROP is set, and routes it onward by TIER and
  RECIRC. `second` says which pass ends. -/
  | passEnd (pipe : Fin 8) (second : Bool)
  /-- PINNED_WRITE_APPLY (R146): A RULE_WRITE held by pins on its target bank applies its items once the bank's pin count reaches 0. -/
  | pinnedWriteApply (table : Fin 16)
  /-- GROVE_ENTRY (R201): A packet with TIER 1 or 2 enters its Grove input buffer, sampling its route and the leaf phase of each named
  slot. -/
  | groveEntry (pipe : Fin 8)
  /-- GROVE_VERDICT (R206): Grove combines the applied entries' outputs, writes the Tier 1 verdict into metadata and decides escalation.
  An error that the walk finds: slice, word, and whether it is uncorrectable (R214). -/
  | groveVerdict (packet : Nat) (error : Option (Nat × Nat × Bool))
  /-- TOKEN_DISPATCH (R435): The dispatcher commits an escalated packet's token to its token queue once its context copy is in the
  flow-context cache, or drops it. -/
  | tokenDispatch (pipe : Fin 8)
  /-- VERDICT_READ (R428): The return engine reads a Tier 2 verdict from a return queue and releases its held packet, or treats it as
  late. -/
  | verdictRead (queue : Fin 4096)
  /-- DEADLINE_TEST (R428): When the stamp clock reaches a hold entry's D without a read verdict, the packet is released with V_DEFERRED
  set. -/
  | deadlineTest (pipe : Fin 8) (entry : Fin 131072)
  /-- SECOND_PASS_ENTRY (R138): A released packet enters second-pass T0, with RECIRC and MIRROR cleared, PASS set and the verdict fields
  filled. -/
  | secondPassEntry (packet : Nat)
  /-- EGRESS (R123): The port complex transmits the packet on its egress port applying the edit list and FCS, or discards it to
  PRT_EGRESS_DROP or CNP_OVERSIDE limits. -/
  | egress (packet : Nat)
  /-- COMPLETION_SEND (R66): A completion frame is built in the outbound half of the control slice once room exists and leaves on the port
  of arrival. The session whose command in execution completes; 0 for a command that is no session's in execution. -/
  | completionSend (session : Nat)
  /-- RECORD_SEND (R602): The GCT record sender takes a record from its record queue and sends it as a RECORD frame to every subscription
  of its class. -/
  | recordSend (cls : Fin 2)
  /-- NOP (R75): The command completes DONE and keeps the session alive. -/
  | nop (f : CmdFrame)
  /-- SESSION_OPEN (R516): An open authenticates the role key and counter, derives the session key and assigns a session ID. -/
  | sessionOpen (f : CmdFrame)
  /-- SESSION_CLAIM (R518): A claim decapsulates the ML-KEM ciphertext, stores the installer root and opens an installer session. -/
  | sessionClaim (f : CmdFrame)
  /-- SESSION_CLOSE (R517): The command closes the session after its completion is sent, failing held commands with WRONG_STATE. -/
  | sessionClose (f : CmdFrame)
  /-- SESSION_TIMEOUT (R67): A session idle for GCT_SESSION_TTL with no held command closes. -/
  | sessionTimeout (session : Nat)
  /-- STATE_GET (R75): The command returns GCT_STATE. -/
  | stateGet (f : CmdFrame)
  /-- REG_READ (R76): The command reads 1–64 consecutive registers, each from one cycle of its island. -/
  | regRead (f : CmdFrame)
  /-- REG_WRITE (R76): The command writes 1–64 registers in ascending order, stopping at the first refused under R23, R24 or R599. -/
  | regWrite (f : CmdFrame)
  /-- LOCK (R23): Writing 1 to a block's LOCK bit makes every RWL field of the block read-only until module reset. The block and, where it
  has several, the instance. -/
  | lock (block : Machine.Block) (inst : Nat)
  /-- MEM_READ (R407): The command translates the whole range in a context's space and returns its bytes, or fails with a fault or poison
  status. -/
  | memRead (f : CmdFrame)
  /-- MEM_WRITE (R407): The command translates the whole range and writes the data into the context's memory. -/
  | memWrite (f : CmdFrame)
  /-- START (R78): The command moves the module from READY to SERVING. -/
  | start (f : CmdFrame)
  /-- DRAIN (R84): The command moves the module from SERVING to DRAINING. -/
  | drain (f : CmdFrame)
  /-- DRAIN_COMPLETE (R78): When the last admitted packet has left and every accepted RUN has its slot ready, the module enters READY. -/
  | drainComplete
  /-- STOP (R84): The command requests a global stop and completes when the cut is complete. -/
  | stop (f : CmdFrame)
  /-- RESUME (R568): The command applies pending releases, advances hold deadlines and restarts every stopped island from its cut. -/
  | resume (f : CmdFrame)
  /-- MAINT_ENTER (R78): The command moves the module from READY or FAULTED to MAINTENANCE. -/
  | maintEnter (f : CmdFrame)
  /-- MAINT_EXIT (R78): The command moves the module from MAINTENANCE to READY. -/
  | maintExit (f : CmdFrame)
  /-- RESET (R84): The command completes DONE and module reset begins 10 μs after its completion has left. -/
  | reset (f : CmdFrame)
  /-- MODULE_RESET (R588): On RESET_N low, a RESET command or loss of power-good every island is reset, sessions close and the boot
  sequence restarts. -/
  | moduleReset (cause : Machine.ResetCause)
  /-- MODE_SET (R432): The command validates all mode items and then applies each under R58 at its effect point. -/
  | modeSet (f : CmdFrame)
  /-- MODE_TAKES_EFFECT (R56): A pending mode change reaches its effect point and takes effect. The MODE code. -/
  | modeTakesEffect (mode : Nat)
  /-- MODE_GET (R75): The command returns the current modes and any pending change. -/
  | modeGet (f : CmdFrame)
  /-- SUBSCRIBE (R91): The command registers or replaces the session's subscription to a record class. -/
  | subscribe (f : CmdFrame)
  /-- RULE_WRITE_DEFINE (R147): The item defines a table in the standby bank, reserving SIZE entries from its kind's pool. -/
  | ruleDefine (f : CmdFrame)
  /-- RULE_WRITE_INSERT (R147): The items add or replace entries of a standby-bank table. -/
  | ruleInsert (f : CmdFrame)
  /-- RULE_WRITE_DELETE (R147): The items remove entries by match part from a standby-bank table. -/
  | ruleDelete (f : CmdFrame)
  /-- RULE_WRITE_SET_DEFAULT (R147): The item replaces a standby-bank table's default action. -/
  | ruleSetDefault (f : CmdFrame)
  /-- RULE_WRITE_UNDEFINE (R147): The operation removes a standby-bank table and returns its entries to the pool. -/
  | ruleUndefine (f : CmdFrame)
  /-- RULE_SWAP (R145): The command inverts the ACTIVE bits of the masked tables at one swap point, after any RULE_WRITE in execution on
  them. -/
  | ruleSwap (f : CmdFrame)
  /-- FLOW_READ (R167): The command returns a flow entry by key or a whole bucket, sampled in one bucket operation. -/
  | flowRead (f : CmdFrame)
  /-- FLOW_DELETE (R168): The command waits for unlocked buckets, removes the key, rewrites the digest and writes a DELETED record. -/
  | flowDelete (f : CmdFrame)
  /-- RUN (R86): The command allocates a result slot, places the named context and returns the slot handle. -/
  | run (f : CmdFrame)
  /-- SLOT_READ (R87): The command samples a result slot once and returns its status and inline data, NOT_READY or STALE. -/
  | slotRead (f : CmdFrame)
  /-- SLOT_RELEASE (R89): The command frees a ready slot, cancels an unfinished run, or in HALTED records a pending release. -/
  | slotRelease (f : CmdFrame)
  /-- CANCEL_COMPLETE (R246): A cancelled run's context has stopped, its state is discarded and the SLOT_RELEASE completes. -/
  | cancelComplete (slot : Fin 4096)
  /-- SLOT_TTL_EXPIRY (R90): A ready slot unreleased for GCT_SLOT_TTL is released by the module. -/
  | slotTtlExpiry (slot : Fin 4096)
  /-- UNKNOWN_OPCODE (R75): An opcode the table does not list consumes its number and completes with BAD_ARGS. -/
  | unknownOpcode (f : CmdFrame)
  /-- IMAGE_STAGE_BEGIN (R524): BEGIN reserves LIBRARY space for a new image stage, discarding an earlier incomplete stage of the ID. -/
  | imageBegin (f : CmdFrame)
  /-- IMAGE_STAGE_DATA (R524): DATA appends bytes at the expected offset to the image stage and completes when durable. What the flash
  dies do while the command runs. -/
  | imageData (f : CmdFrame) (media : Machine.Media)
  /-- IMAGE_STAGE_FINISH (R524): FINISH checks completeness and verifies the image, making it complete or erasing the stage. -/
  | imageFinish (f : CmdFrame)
  /-- IMAGE_STAGE_DELETE (R524): DELETE erases the complete image and any incomplete stage of an ID not in use. -/
  | imageDelete (f : CmdFrame)
  /-- MODEL_ACTIVATE_GROVE (R211): Target 1 verifies the image and loads an ensemble into a Grove slot or refuses with NODE_CAPACITY. -/
  | activateGrove (f : CmdFrame)
  /-- MODEL_ACTIVATE_TIER2 (R454): Target 2 verifies the image and switches the pipelines' Tier 2 set at one switch point. -/
  | activateTier2 (f : CmdFrame)
  /-- MODEL_ACTIVATE_TIER3 (R453): Target 3 verifies the image and places the Tier 3 model between escalations. -/
  | activateTier3 (f : CmdFrame)
  /-- MODEL_ACTIVATE_UNLOAD (R212): Target 4 unloads a Grove slot, marking it draining until no packet that sampled it remains. -/
  | activateUnload (f : CmdFrame)
  /-- UNLOAD_COMPLETE (R212): When no packet that sampled a draining slot remains in Grove, its space is freed and the unload completes.
  -/
  | unloadComplete (slot : Fin 16)
  /-- GATE_RELEASE (R454): A new-set token queue is ungated once its old-set queue has no unreleased committed words. The queue by its
  number in the active set. -/
  | gateRelease (pipe : Fin 8) (queue : Fin 1024)
  /-- FIRMWARE_STAGE_BEGIN (R524): BEGIN discards a non-running firmware slot and starts a stage of the announced size. -/
  | firmwareBegin (f : CmdFrame)
  /-- FIRMWARE_STAGE_DATA (R524): DATA appends bytes to the firmware stage at the expected offset. What the flash dies do while the
  command runs. -/
  | firmwareData (f : CmdFrame) (media : Machine.Media)
  /-- FIRMWARE_STAGE_FINISH (R524): FINISH checks and verifies the staged firmware slot. -/
  | firmwareFinish (f : CmdFrame)
  /-- FIRMWARE_ACTIVATE (R525): The command verifies a slot and writes the boot slot and optionally MIN_SVN as one secure-store item. -/
  | firmwareActivate (f : CmdFrame)
  /-- FLASH_READ (R510): The command returns 4 or 8 KiB from a readable partition, or POISONED on an uncorrectable sector. What the flash
  dies do while the command runs. -/
  | flashRead (f : CmdFrame) (media : Machine.Media)
  /-- FLASH_WRITE (R510): The command writes one SNAPSHOT sector out of place and completes when it is durable. What the flash dies do
  while the command runs. -/
  | flashWrite (f : CmdFrame) (media : Machine.Media)
  /-- FLASH_ERASE (R510): The command discards a SNAPSHOT range or resets the CAPTURE ring. -/
  | flashErase (f : CmdFrame)
  /-- ATTEST_QUOTE (R530): The command builds a signed quote for the session or returns one part of it. -/
  | attestQuote (f : CmdFrame)
  /-- AUDIT_READ (R533): The command returns a range of audit records with the chain value before the first. -/
  | auditRead (f : CmdFrame)
  /-- COUNTER_READ (R551): The command samples and returns always-on, global or per-context observation counters. -/
  | counterRead (f : CmdFrame)
  /-- TRACE_CTL_ENABLE (R563): ENABLE sets trace sources and destination and restarts RSEQ. -/
  | traceEnable (f : CmdFrame)
  /-- TRACE_CTL_DISABLE (R563): DISABLE stops trace generation and sends the records already held. -/
  | traceDisable (f : CmdFrame)
  /-- TRACE_CTL_MARKER (R563): MARKER generates a marker trace record carrying the host value when markers are enabled. -/
  | traceMarker (f : CmdFrame)
  /-- SCAN_OUT (R569): The command returns bytes of a scan space's image at the cut, in HALTED only. -/
  | scanOut (f : CmdFrame)
  /-- SPAN_MEMBER_ATTACH (R478): ATTACH sets the group and module IDs and link map and trains the enabled links. -/
  | spanAttach (f : CmdFrame)
  /-- SPAN_MEMBER_EPOCH (R478): EPOCH runs the membership protocol for a new mesh and map and completes at COMMIT or ABORT. -/
  | spanEpoch (f : CmdFrame)
  /-- SPAN_MEMBER_DETACH (R478): DETACH clears SPN_ID and stops training. -/
  | spanDetach (f : CmdFrame)
  /-- SPAN_MEMBER_QUERY (R478): QUERY returns the Span identity, epoch, mesh, status and map. -/
  | spanQuery (f : CmdFrame)
  /-- APP_LOAD (R491): The command verifies and loads an application into a slot on Crown cores. -/
  | appLoad (f : CmdFrame)
  /-- APP_UNLOAD (R491): The command unloads an application, freeing its memory and contexts. -/
  | appUnload (f : CmdFrame)
  /-- POWER_UP (R587): With input in range and PGOOD_IN asserted the rails ramp in order and PGOOD_OUT is asserted. The input voltage in
  mV. -/
  | powerUp (mv : Nat)
  /-- RESET_RELEASE (R587): RESET_N released at least 1 ms after PGOOD_OUT locks the PLLs and enters SECURE_BOOT. -/
  | resetRelease
  /-- SECURE_BOOT (R526): The trust block measures, verifies the boot slot or falls back, loads the configuration record, starts firmware
  and enters READY or FAULTED. -/
  | secureBoot
  /-- INPUT_RANGE (R584): Input at 44–46 V or 56–58 V for 20 μs sets PWR_ALERT.INPUT_RANGE. The input voltage in mV. -/
  | inputRange (mv : Nat)
  /-- POWER_GOOD_LOSS (R584): Input outside 44–58 V for 20 μs, or PGOOD_IN or a rail lost, drops power-good, enters POWERED and turns the
  rails off. -/
  | powerGoodLoss (cause : Machine.PowerLoss)
  /-- PHASE_SHED (R586): A failing regulator phase is shed within 10 μs, or a second failure on the rail enters FAULTED with cause 0x03.
  -/
  | phaseShed (rail : Nat)
  /-- CAP_CONTROL (R585): Every 10 μs the cap loop samples input power and sets Facet issue gating and Limb HBM limits. The sampled input
  voltage in mV, current in 10 mA and power in 0.1 W. -/
  | capControl (mv : Nat) (ca : Nat) (dw : Nat)
  /-- LIMB_THROTTLE (R595): A Limb at 100 °C gates Facet issue to half until below 95 °C, setting PWR_ALERT.THROTTLE. The Limb and its
  temperature in °C. -/
  | limbThrottle (limb : Nat) (temp : Nat)
  /-- THERMAL_SHUTDOWN (R595): A die at 110 °C, or an HBM stack at 105 °C, for 1 ms enters FAULTED with cause 0x05. The sensor, 0–4 for
  the dies and 5–12 for the stacks, and its temperature in °C. -/
  | thermalShutdown (sensor : Nat) (temp : Nat)
  /-- HBM_THERMAL (R421): A stack temperature crossing 85 °C or 95 °C doubles refresh or throttles class 5. The temperature in °C. -/
  | hbmThermal (stack : Fin 8) (temp : Nat)
  /-- READ_VIN (R592): The SMBus command returns the input voltage in LINEAR11. -/
  | readVin
  /-- READ_IIN (R592): The SMBus command returns the input current in LINEAR11. -/
  | readIin
  /-- READ_TEMPERATURE_1 (R592): The SMBus command returns the hottest die temperature in LINEAR11. -/
  | readTemperature1
  /-- READ_PIN (R592): The SMBus command returns the input power in LINEAR11. -/
  | readPin
  /-- EXTEST (R593): The TAP instruction drives the boundary register while RESET_N is low, and otherwise acts as BYPASS. The value
  shifted into the boundary register. -/
  | extest (data : Nat)
  /-- IDCODE (R593): The TAP instruction returns IDCODE 0x1941_64B3. -/
  | idcode
  /-- SAMPLE_PRELOAD (R593): The TAP instruction samples or preloads the boundary register. The value shifted into the boundary register.
  -/
  | samplePreload (data : Nat)
  /-- SCAN_READ (R570): The TAP instruction returns SCAN_OUT data in HALTED when TAP_EN is set, and records an audit event. The 20 bytes
  that a SCAN_OUT body would hold. -/
  | scanRead (body : Bytes)
  /-- BYPASS (R593): The TAP instruction selects the bypass register, as every reserved code does. The instruction code and the data
  shifted through. -/
  | bypass (code : Nat) (data : Nat)
  /-- OPEN_RETRY (R184): A producer OPEN waiting under WAIT opens its packet in the first cycle in which room exists. -/
  | openRetry (queue : Fin 4096)
  /-- PORT_OPEN (R485): A Crown store to the queue port opens a producer packet. The stored value. -/
  | portOpen (crown : Fin 16) (queue : Fin 4096) (v : Nat)
  /-- PORT_PUSH (R485): A Crown store stages or pushes a queue word through the port. Whether the store stages DATA[63:0], the stored
  value, and whether the word fails its parity check. -/
  | portPush (crown : Fin 16) (queue : Fin 4096) (stage : Bool) (v : Word) (flip : Bool)
  /-- PORT_COMMIT (R486): A Crown store commits the open packet, acting as a full barrier. -/
  | portCommit (crown : Fin 16) (queue : Fin 4096)
  /-- PORT_ABORT (R485): A Crown store aborts the open packet. -/
  | portAbort (crown : Fin 16) (queue : Fin 4096)
  /-- PORT_READ (R485): A Crown load reads the next queue word and returns its status, waiting if flagged. A store of the wait flag that
  comes before the load, if there is one, and whether the word fails its parity check. -/
  | portRead (crown : Fin 16) (queue : Fin 4096) (flag : Option Bool) (flip : Bool)
  /-- PORT_MARK (R485): A Crown store sets the consumer mark at a packet boundary. -/
  | portMark (crown : Fin 16) (queue : Fin 4096)
  /-- PORT_REWIND (R485): A Crown store rewinds the consumer to the mark. -/
  | portRewind (crown : Fin 16) (queue : Fin 4096)
  /-- PORT_RELEASE (R485): A Crown store releases read words up to a packet boundary. -/
  | portRelease (crown : Fin 16) (queue : Fin 4096)
  /-- FLUSH (R192): Writing SQ_CFG_q.FLUSH sets RD, MK and RL to CM and frees tail cells. -/
  | flush (queue : Fin 4096)
  /-- HEARTWOOD_SCRUB (R181): The scrub engine reads and corrects every Heartwood cell once per period. The granules (8 × cell + granule)
  upset since the last row, with an error that the code corrects or only detects. -/
  | heartwoodScrub (ce : List Nat) (ue : List Nat)
  /-- LOCK_READ (R162): The flow DMA operation locks two unlocked buckets under a new token and returns them, or returns BUSY. -/
  | lockRead (crown : Fin 16) (pipe : Fin 8) (bucket1 : Fin 2097152) (bucket2 : Fin 2097152)
  /-- FLOW_DMA_READ (R162): The flow DMA operation returns a bucket without locking. -/
  | flowDmaRead (crown : Fin 16) (pipe : Fin 8) (bucket : Fin 2097152)
  /-- WRITE_SLOT (R162): The flow DMA operation writes a slot's key, state and CTX under a valid token. Bytes 0–47 and 56–63 of the slot,
  and the CLASS and SCORE of a Tier 3 result that the write carries (15 R449). -/
  | writeSlot (crown : Fin 16) (pipe : Fin 8) (bucket : Fin 2097152) (slot : Fin 4) (token : Nat) (low : Bytes) (high : Bytes) (result : Option (Nat × Nat))
  /-- PUBLISH (R162): The flow DMA operation makes an invalid slot valid, incrementing GEN and setting LAST_HIT. -/
  | publish (crown : Fin 16) (pipe : Fin 8) (bucket : Fin 2097152) (slot : Fin 4) (token : Nat)
  /-- INVALIDATE (R162): The flow DMA operation invalidates a valid slot and increments GEN. -/
  | invalidate (crown : Fin 16) (pipe : Fin 8) (bucket : Fin 2097152) (slot : Fin 4) (token : Nat)
  /-- UNLOCK (R162): The flow DMA operation writes shadow digests, clears the locks and removes the buckets from the error list. -/
  | unlock (crown : Fin 16) (pipe : Fin 8) (bucket1 : Fin 2097152) (bucket2 : Fin 2097152) (token : Nat) (digest1 : Nat) (digest2 : Nat)
  /-- LEASE_EXPIRY (R163): A bucket lock not unlocked within LEASE_US is cleared, its token invalidated and FLW_LOCK_EXPIRED counted. -/
  | leaseExpiry (pipe : Fin 8)
  /-- AGING_VISIT (R165): The aging scan visits a bucket and removes each idle slot, rewriting the digest and writing AGED records. -/
  | agingVisit (pipe : Fin 8) (bucket : Fin 2097152)
  /-- SHADOW_COMPARE (R170): The scrub walk compares each unlocked bucket's digest with its shadow and raises MISMATCH on a difference. -/
  | shadowCompare (pipe : Fin 8) (bucket : Fin 2097152)
  /-- ROUTE_WRITE (R216): A write to GRV_ROUTE_r is validated against loaded slots and features and applies from the next packet. The
  value written. -/
  | routeWrite (route : Fin 16) (v : Nat)
  /-- GROVE_SCRUB (R215): The Grove scrub reads every node, directory entry and side-set word once per period in idle lane cycles. The
  words (slice × 2¹⁸ + word) in which the reads of this period meet a new error, corrected or uncorrectable. -/
  | groveScrub (ce : List Nat) (ue : List Nat)
  /-- WRITE_LEAF (R459): The leaf port writes the inactive value of a Grove leaf. The node by partition and offset, and the value. -/
  | writeLeaf (slot : Fin 16) (part : Fin 16) (off : Nat) (v : Nat)
  /-- WRITE_WORD (R459): The leaf port rewrites a node, directory or side-set word from the staged image. The word offset and the value.
  -/
  | writeWord (slice : Fin 16) (off : Nat) (v : Nat)
  /-- ARM (R458): Writing SQ_TEND_CTL.ARM schedules a Tending boundary at SQ_TEND_AT, or is refused and counted when the stamp has passed.
  AT, GRV_FLIP and T2_FLIP. -/
  | arm (stamp : Nat) (flips : Nat) (t2 : Bool)
  /-- TEND_READY (R458): Setting SQ_TEND_CTL.READY declares the inactive phase complete so that held packets may proceed. -/
  | tendReady
  /-- TENDING_BOUNDARY (R458): At the armed stamp the leaf and Tier 2 phases flip for newer packets and READY is cleared. -/
  | tendingBoundary
  /-- WATERMARK (R457): Every 1 μs each dispatcher pushes a watermark word into its Tending queue. -/
  | watermark (pipe : Fin 8)
  /-- ADD (R267): The scalar instruction adds two operands modulo 2^64. -/
  | wAdd (core : Fin 1280) (hc : Fin 8)
  /-- SUB (R267): The scalar instruction subtracts modulo 2^64. -/
  | wSub (core : Fin 1280) (hc : Fin 8)
  /-- AND (R267): The scalar instruction computes bitwise AND. -/
  | wAnd (core : Fin 1280) (hc : Fin 8)
  /-- OR (R267): The scalar instruction computes bitwise OR. -/
  | wOr (core : Fin 1280) (hc : Fin 8)
  /-- XOR (R267): The scalar instruction computes bitwise XOR. -/
  | wXor (core : Fin 1280) (hc : Fin 8)
  /-- SHL (R267): The scalar instruction shifts left. -/
  | wShl (core : Fin 1280) (hc : Fin 8)
  /-- SHR (R267): The scalar instruction shifts right logically. -/
  | wShr (core : Fin 1280) (hc : Fin 8)
  /-- SAR (R267): The scalar instruction shifts right arithmetically. -/
  | wSar (core : Fin 1280) (hc : Fin 8)
  /-- MIN (R267): The scalar instruction takes the signed minimum. -/
  | wMin (core : Fin 1280) (hc : Fin 8)
  /-- MAX (R267): The scalar instruction takes the signed maximum. -/
  | wMax (core : Fin 1280) (hc : Fin 8)
  /-- MINU (R267): The scalar instruction takes the unsigned minimum. -/
  | wMinu (core : Fin 1280) (hc : Fin 8)
  /-- MAXU (R267): The scalar instruction takes the unsigned maximum. -/
  | wMaxu (core : Fin 1280) (hc : Fin 8)
  /-- CLZ (R267): The scalar instruction counts leading zeros. -/
  | wClz (core : Fin 1280) (hc : Fin 8)
  /-- POPC (R267): The scalar instruction counts ones. -/
  | wPopc (core : Fin 1280) (hc : Fin 8)
  /-- SEL (R267): The scalar instruction selects one of two registers by a predicate. -/
  | wSel (core : Fin 1280) (hc : Fin 8)
  /-- MUL (R267): The scalar instruction returns the low 64 bits of the product. -/
  | wMul (core : Fin 1280) (hc : Fin 8)
  /-- MULH (R267): The scalar instruction returns the high 64 bits of the signed product. -/
  | wMulh (core : Fin 1280) (hc : Fin 8)
  /-- MULHU (R267): The scalar instruction returns the high 64 bits of the unsigned product. -/
  | wMulhu (core : Fin 1280) (hc : Fin 8)
  /-- DIV (R268): The scalar instruction divides signed, truncating, with defined results for zero and overflow. -/
  | wDiv (core : Fin 1280) (hc : Fin 8)
  /-- DIVU (R268): The scalar instruction divides unsigned. -/
  | wDivu (core : Fin 1280) (hc : Fin 8)
  /-- REM (R268): The scalar instruction takes the signed remainder. -/
  | wRem (core : Fin 1280) (hc : Fin 8)
  /-- REMU (R268): The scalar instruction takes the unsigned remainder. -/
  | wRemu (core : Fin 1280) (hc : Fin 8)
  /-- LI (R267): The scalar instruction loads a sign-extended immediate. -/
  | wLi (core : Fin 1280) (hc : Fin 8)
  /-- LUI (R267): The scalar instruction loads the upper 32 bits. -/
  | wLui (core : Fin 1280) (hc : Fin 8)
  /-- CEQ (R267): The compare writes a predicate for equality. -/
  | wCeq (core : Fin 1280) (hc : Fin 8)
  /-- CNE (R267): The compare writes a predicate for inequality. -/
  | wCne (core : Fin 1280) (hc : Fin 8)
  /-- CLT (R267): The compare writes a predicate for signed less than. -/
  | wClt (core : Fin 1280) (hc : Fin 8)
  /-- CLTU (R267): The compare writes a predicate for unsigned less than. -/
  | wCltu (core : Fin 1280) (hc : Fin 8)
  /-- CLE (R267): The compare writes a predicate for signed less or equal. -/
  | wCle (core : Fin 1280) (hc : Fin 8)
  /-- CLEU (R267): The compare writes a predicate for unsigned less or equal. -/
  | wCleu (core : Fin 1280) (hc : Fin 8)
  /-- PAND (R267): The predicate instruction computes AND. -/
  | wPand (core : Fin 1280) (hc : Fin 8)
  /-- POR (R267): The predicate instruction computes OR. -/
  | wPor (core : Fin 1280) (hc : Fin 8)
  /-- PXOR (R267): The predicate instruction computes XOR. -/
  | wPxor (core : Fin 1280) (hc : Fin 8)
  /-- PANDN (R267): The predicate instruction computes AND NOT. -/
  | wPandn (core : Fin 1280) (hc : Fin 8)
  /-- PFIRST (R267): The predicate instruction sets the first s[RA] bits. -/
  | wPfirst (core : Fin 1280) (hc : Fin 8)
  /-- LD8U (R269): The scalar load reads a zero-extended byte. -/
  | wLd8u (core : Fin 1280) (hc : Fin 8)
  /-- LD16U (R269): The scalar load reads 16 zero-extended bits. -/
  | wLd16u (core : Fin 1280) (hc : Fin 8)
  /-- LD32U (R269): The scalar load reads 32 zero-extended bits. -/
  | wLd32u (core : Fin 1280) (hc : Fin 8)
  /-- LD64 (R269): The scalar load reads 64 bits. -/
  | wLd64 (core : Fin 1280) (hc : Fin 8)
  /-- LD8S (R269): The scalar load reads a sign-extended byte. -/
  | wLd8s (core : Fin 1280) (hc : Fin 8)
  /-- LD16S (R269): The scalar load reads 16 sign-extended bits. -/
  | wLd16s (core : Fin 1280) (hc : Fin 8)
  /-- LD32S (R269): The scalar load reads 32 sign-extended bits. -/
  | wLd32s (core : Fin 1280) (hc : Fin 8)
  /-- ST8 (R269): The scalar store writes a byte. -/
  | wSt8 (core : Fin 1280) (hc : Fin 8)
  /-- ST16 (R269): The scalar store writes 16 bits. -/
  | wSt16 (core : Fin 1280) (hc : Fin 8)
  /-- ST32 (R269): The scalar store writes 32 bits. -/
  | wSt32 (core : Fin 1280) (hc : Fin 8)
  /-- ST64 (R269): The scalar store writes 64 bits. -/
  | wSt64 (core : Fin 1280) (hc : Fin 8)
  /-- LOAD_COMPLETE (R228): Data of a load from outside the core's own Ring store arrives into its register. -/
  | loadComplete (core : Fin 1280) (hc : Fin 8) (reg : Machine.RegRef)
  /-- VADD (R271): The vector instruction adds elements. -/
  | wVadd (core : Fin 1280) (hc : Fin 8)
  /-- VSUB (R271): The vector instruction subtracts elements. -/
  | wVsub (core : Fin 1280) (hc : Fin 8)
  /-- VMUL (R271): The vector instruction multiplies elements. -/
  | wVmul (core : Fin 1280) (hc : Fin 8)
  /-- VFMA (R271): The vector instruction performs fused multiply-add with one rounding. -/
  | wVfma (core : Fin 1280) (hc : Fin 8)
  /-- VMIN (R271): The vector instruction takes element minima. -/
  | wVmin (core : Fin 1280) (hc : Fin 8)
  /-- VMAX (R271): The vector instruction takes element maxima. -/
  | wVmax (core : Fin 1280) (hc : Fin 8)
  /-- VABS (R271): The vector instruction takes absolute values. -/
  | wVabs (core : Fin 1280) (hc : Fin 8)
  /-- VNEG (R271): The vector instruction negates elements. -/
  | wVneg (core : Fin 1280) (hc : Fin 8)
  /-- VAND (R271): The vector instruction computes element AND. -/
  | wVand (core : Fin 1280) (hc : Fin 8)
  /-- VOR (R271): The vector instruction computes element OR. -/
  | wVor (core : Fin 1280) (hc : Fin 8)
  /-- VXOR (R271): The vector instruction computes element XOR. -/
  | wVxor (core : Fin 1280) (hc : Fin 8)
  /-- VSHL (R271): The vector instruction shifts elements left. -/
  | wVshl (core : Fin 1280) (hc : Fin 8)
  /-- VSHR (R271): The vector instruction shifts elements right logically. -/
  | wVshr (core : Fin 1280) (hc : Fin 8)
  /-- VSAR (R271): The vector instruction shifts elements right arithmetically. -/
  | wVsar (core : Fin 1280) (hc : Fin 8)
  /-- VCEQ (R271): The vector compare writes predicate bits for equality. -/
  | wVceq (core : Fin 1280) (hc : Fin 8)
  /-- VCLT (R271): The vector compare writes predicate bits for less than. -/
  | wVclt (core : Fin 1280) (hc : Fin 8)
  /-- VCLE (R271): The vector compare writes predicate bits for less or equal. -/
  | wVcle (core : Fin 1280) (hc : Fin 8)
  /-- VSEL (R271): The vector instruction selects elements by predicate. -/
  | wVsel (core : Fin 1280) (hc : Fin 8)
  /-- VCVT (R273): The vector instruction converts a part of the elements to a target format. -/
  | wVcvt (core : Fin 1280) (hc : Fin 8)
  /-- VBCAST (R271): The vector instruction broadcasts a scalar to every element. -/
  | wVbcast (core : Fin 1280) (hc : Fin 8)
  /-- VEXT (R271): The vector instruction extracts an element to a scalar register. -/
  | wVext (core : Fin 1280) (hc : Fin 8)
  /-- VINS (R271): The vector instruction inserts a scalar into one element. -/
  | wVins (core : Fin 1280) (hc : Fin 8)
  /-- VPERM (R271): The vector instruction permutes bytes. -/
  | wVperm (core : Fin 1280) (hc : Fin 8)
  /-- VRSUM (R274): The vector instruction reduces elements by sum in a fixed tree. -/
  | wVrsum (core : Fin 1280) (hc : Fin 8)
  /-- VRMAX (R274): The vector instruction reduces elements by maximum. -/
  | wVrmax (core : Fin 1280) (hc : Fin 8)
  /-- VRMIN (R274): The vector instruction reduces elements by minimum. -/
  | wVrmin (core : Fin 1280) (hc : Fin 8)
  /-- VEXP2 (R349): The function unit computes 2^a. -/
  | wVexp2 (core : Fin 1280) (hc : Fin 8)
  /-- VLOG2 (R349): The function unit computes log2 a. -/
  | wVlog2 (core : Fin 1280) (hc : Fin 8)
  /-- VRCP (R349): The function unit computes a reciprocal. -/
  | wVrcp (core : Fin 1280) (hc : Fin 8)
  /-- VRSQRT (R349): The function unit computes a reciprocal square root. -/
  | wVrsqrt (core : Fin 1280) (hc : Fin 8)
  /-- VTANH (R349): The function unit computes tanh. -/
  | wVtanh (core : Fin 1280) (hc : Fin 8)
  /-- VSIGM (R349): The function unit computes the logistic sigmoid. -/
  | wVsigm (core : Fin 1280) (hc : Fin 8)
  /-- VLD (R271): The vector load reads 128 bytes into enabled lanes. -/
  | wVld (core : Fin 1280) (hc : Fin 8)
  /-- VST (R271): The vector store writes the bytes of enabled elements. -/
  | wVst (core : Fin 1280) (hc : Fin 8)
  /-- MSHAPE (R303): The matrix instruction waits for in-flight work and sets the array shape, invalidating stationary operands. -/
  | wMshape (core : Fin 1280) (hc : Fin 8)
  /-- MLW (R310): The matrix instruction loads the stationary operand of a slice row by row. -/
  | wMlw (core : Fin 1280) (hc : Fin 8)
  /-- MMB (R311): The matrix instruction runs a bulk-class pass into an accumulator bank. -/
  | wMmb (core : Fin 1280) (hc : Fin 8)
  /-- MMS (R311): The matrix instruction runs a stream-class pass into an accumulator bank. -/
  | wMms (core : Fin 1280) (hc : Fin 8)
  /-- MEW (R314): The matrix instruction multiplies or adds a tile element-wise into a bank. -/
  | wMew (core : Fin 1280) (hc : Fin 8)
  /-- MST (R381): The matrix instruction converts and stores a bank through a descriptor as a transfer. -/
  | wMst (core : Fin 1280) (hc : Fin 8)
  /-- MLA (R382): The matrix instruction loads a bank from an FP32 tile. -/
  | wMla (core : Fin 1280) (hc : Fin 8)
  /-- MZERO (R315): The matrix instruction clears a bank to +0.0. -/
  | wMzero (core : Fin 1280) (hc : Fin 8)
  /-- MXWAIT (R329): The matrix instruction waits for in-flight work on masked banks and raises for any failure code. -/
  | wMxwait (core : Fin 1280) (hc : Fin 8)
  /-- MXTEST (R329): The matrix instruction waits and writes the failure codes of an array to a scalar register. -/
  | wMxtest (core : Fin 1280) (hc : Fin 8)
  /-- MXCLR (R331): The matrix instruction clears nonzero failure codes and zeroes their regions. -/
  | wMxclr (core : Fin 1280) (hc : Fin 8)
  /-- PASS_CHECK (R324): At t+L+1 a pass is checked and its results commit to the bank, or are held back for recomputation. What the array
  makes wrong in the pass, and in its parity and replay buffers. -/
  | passCheck (core : Fin 1280) (array : Fin 2) (slice : Nat) (errors : PassErrors)
  /-- RECOMPUTATION (R326): A failed full-shape pass is recomputed once from the replay buffers and commits if the check passes. What the
  array makes wrong in the pass, and in its parity and replay buffers. -/
  | recomputation (core : Fin 1280) (array : Fin 2) (slice : Nat) (errors : PassErrors)
  /-- SPARE_RECOMPUTATION (R326): A twice-failed pass is computed on a spare array and commits, or its regions take code 0x41, and the
  array is retired. What the array makes wrong in the pass, and in its parity and replay buffers. -/
  | spareRecomputation (core : Fin 1280) (array : Fin 2) (slice : Nat) (errors : PassErrors)
  /-- RETIREMENT_RECORD_WRITE (R576): A run-time retirement is written to the retirement record in CONFIG within 100 ms. -/
  | retirementRecordWrite
  /-- BIST_START (R332): A self-test starts on an array whose pair has been idle for 1,100 cycles. -/
  | bistStart (core : Fin 1280) (array : Fin 2)
  /-- BIST_RESULT (R333): A completed self-test sets LAT_BIST_LAST_a or retires the array on a mismatch. Whether the test found no
  mismatch. -/
  | bistResult (core : Fin 1280) (array : Fin 2) (ok : Bool)
  /-- BIST_OVERDUE (R333): An array untested for 2 × PERIOD_MS has LAT_STATUS.BIST_OVERDUE set. -/
  | bistOverdue (core : Fin 1280) (array : Fin 2)
  /-- BIST_REQUEST (R334): Writing LAT_BIST.RUN requests a test of both arrays at their next idle period. -/
  | bistRequest (core : Fin 1280)
  /-- MCOPY (R373): The mover instruction starts a copy transfer between descriptors. -/
  | wMcopy (core : Fin 1280) (hc : Fin 8)
  /-- MTRANS (R374): The mover instruction starts a transposing copy transfer. -/
  | wMtrans (core : Fin 1280) (hc : Fin 8)
  /-- MGATHER (R376): The mover instruction starts a gather of listed blocks. -/
  | wMgather (core : Fin 1280) (hc : Fin 8)
  /-- MSCATTER (R377): The mover instruction starts a scatter to listed blocks. -/
  | wMscatter (core : Fin 1280) (hc : Fin 8)
  /-- MFILL (R378): The mover instruction starts a fill of the destination. -/
  | wMfill (core : Fin 1280) (hc : Fin 8)
  /-- MPUT (R379): The mover instruction starts a copy to a Span peer. What reading the peer's descriptor table gives. -/
  | wMput (core : Fin 1280) (hc : Fin 8) (table : PeerTable)
  /-- MGET (R379): The mover instruction starts a copy from a Span peer. What reading the peer's descriptor table gives. -/
  | wMget (core : Fin 1280) (hc : Fin 8) (table : PeerTable)
  /-- MWAIT (R279): The mover instruction waits for masked tags, raises XFER_FAIL on a failure, and sets them IDLE. -/
  | wMwait (core : Fin 1280) (hc : Fin 8)
  /-- MTEST (R280): The mover instruction writes the tag states to a scalar register. -/
  | wMtest (core : Fin 1280) (hc : Fin 8)
  /-- TLD (R276): The instruction loads a 32-byte descriptor into a t register. -/
  | wTld (core : Fin 1280) (hc : Fin 8)
  /-- TST (R276): The instruction stores a t register to memory. -/
  | wTst (core : Fin 1280) (hc : Fin 8)
  /-- TMOV (R276): The instruction copies one t register to another. -/
  | wTmov (core : Fin 1280) (hc : Fin 8)
  /-- TADDB (R276): The instruction adjusts a descriptor's base. -/
  | wTaddb (core : Fin 1280) (hc : Fin 8)
  /-- TRANSFER_END (R278): A transfer ends and its tag becomes DONE or FAILED with its status. -/
  | transferEnd (core : Fin 1280) (hc : Fin 8) (tag : Fin 16)
  /-- BR (R282): The control instruction branches relative to PC when its condition holds. -/
  | wBr (core : Fin 1280) (hc : Fin 8)
  /-- JR (R282): The control instruction jumps to a register target. -/
  | wJr (core : Fin 1280) (hc : Fin 8)
  /-- CALL (R282): The control instruction links and branches. -/
  | wCall (core : Fin 1280) (hc : Fin 8)
  /-- CALLR (R282): The control instruction links and jumps to a register target. -/
  | wCallr (core : Fin 1280) (hc : Fin 8)
  /-- LOOP (R283): The control instruction decrements a counter and branches while nonzero. -/
  | wLoop (core : Fin 1280) (hc : Fin 8)
  /-- EXIT (R245): The instruction ends the context, releases the claim, copies the inline result and makes the slot ready. -/
  | wExit (core : Fin 1280) (hc : Fin 8)
  /-- TRAP (R284): The instruction raises TRAP with its immediate in the record. -/
  | wTrap (core : Fin 1280) (hc : Fin 8)
  /-- BREAK (R251): The instruction raises BREAK, a debug stop when FCT_CTL.DEBUG is set. -/
  | wBreak (core : Fin 1280) (hc : Fin 8)
  /-- FENCE (R285): The instruction completes earlier loads and makes earlier stores visible. -/
  | wFence (core : Fin 1280) (hc : Fin 8)
  /-- IFENCE (R286): The instruction acts as FENCE and discards the context's bundle-cache lines. -/
  | wIfence (core : Fin 1280) (hc : Fin 8)
  /-- CRD (R287): The instruction reads a c register, clearing c9 when read. -/
  | wCrd (core : Fin 1280) (hc : Fin 8)
  /-- CWR (R287): The instruction writes c2 or c3. -/
  | wCwr (core : Fin 1280) (hc : Fin 8)
  /-- SETTAG (R289): The instruction sets the layer and operator tags. -/
  | wSettag (core : Fin 1280) (hc : Fin 8)
  /-- CLAIM (R288): The instruction requests the Lattice pair and waits until granted. -/
  | wClaim (core : Fin 1280) (hc : Fin 8)
  /-- RELEASE (R288): The instruction waits for matrix work and gives up the Lattice pair. -/
  | wRelease (core : Fin 1280) (hc : Fin 8)
  /-- CLAIM_GRANT (R321): At a scheduling boundary the core grants the free pair to the claim chosen by the compute scheduling mode. -/
  | claimGrant (core : Fin 1280)
  /-- QSEL (R290): The instruction sets a queue descriptor. -/
  | wQsel (core : Fin 1280) (hc : Fin 8)
  /-- QOPEN (R293): The instruction opens a producer packet under WAIT or DISCARD. -/
  | wQopen (core : Fin 1280) (hc : Fin 8)
  /-- QPUSH (R293): The instruction pushes one word. -/
  | wQpush (core : Fin 1280) (hc : Fin 8)
  /-- QPUSHV (R293): The instruction pushes up to eight words from a vector register. -/
  | wQpushv (core : Fin 1280) (hc : Fin 8)
  /-- QCOMMIT (R293): The instruction commits the open packet. -/
  | wQcommit (core : Fin 1280) (hc : Fin 8)
  /-- QABORT (R293): The instruction aborts the open packet. -/
  | wQabort (core : Fin 1280) (hc : Fin 8)
  /-- QREAD (R295): The instruction reads one queue word, optionally waiting while empty. -/
  | wQread (core : Fin 1280) (hc : Fin 8)
  /-- QREADV (R295): The instruction reads up to eight words into a vector register. -/
  | wQreadv (core : Fin 1280) (hc : Fin 8)
  /-- QMARK (R295): The instruction sets the consumer mark. -/
  | wQmark (core : Fin 1280) (hc : Fin 8)
  /-- QREWIND (R295): The instruction rewinds the consumer to the mark. -/
  | wQrewind (core : Fin 1280) (hc : Fin 8)
  /-- QRELEASE (R295): The instruction releases read words at a packet boundary. -/
  | wQrelease (core : Fin 1280) (hc : Fin 8)
  /-- RUN_AHEAD_ENTRY (R233): A context waiting 8 cycles on a remote load or transfer enters run-ahead in shadow registers. How many
  younger bundles run-ahead executes. -/
  | runAheadEntry (core : Fin 1280) (hc : Fin 8) (bundles : Nat)
  /-- RUN_AHEAD_EXIT (R234): Run-ahead ends when the awaited value arrives, discarding shadow registers. -/
  | runAheadExit (core : Fin 1280) (hc : Fin 8)
  /-- QUANTUM_EXPIRY (R237): A resident context reaching its quantum with a runnable frame and a free frame is chosen for preemption. A
  context that waits and is chosen in place of one that issued for its quantum. -/
  | quantumExpiry (core : Fin 1280) (waiter : Option (Fin 8))
  /-- PREEMPTION_COMPLETE (R238): The preempted context's state is written to a frame which becomes runnable. How many units each transfer
  still runs before it stops. -/
  | preemptionComplete (core : Fin 1280) (hc : Fin 8) (units : List Nat)
  /-- RESTORE (R404): A runnable frame is read into a free hardware context, reloading stationary operands and resuming or failing its
  targets. What reading descriptor tables of Span peers gives, for transfers that read them again. -/
  | restore (core : Fin 1280) (tables : List PeerTable)
  /-- RING_SCRUB (R226): The Ring store scrub reads every granule once per period. The granules upset since the last row, with an error
  that the code corrects or only detects. -/
  | ringScrub (core : Fin 1280) (ce : List Nat) (ue : List Nat)
  /-- PLACE (R241): The frame command starts a context from a frame in a free hardware context or leaves it runnable. The frame image and
  the stores of the runtime before it, the counter set it binds, the context when it creates it, and what reading descriptor tables of
  Span peers gives. -/
  | place (core : Fin 1280) (frame : Fin 6) (image : Bytes) (stores : List (Nat × Bytes)) (set : Option (Fin 32)) (born : Option NewContext) (tables : List PeerTable)
  /-- EXPORT (R241): The frame command keeps a saved frame from restore and reports EXPORTED. -/
  | exportFrame (core : Fin 1280) (frame : Fin 6)
  /-- FREE (R241): The frame command frees an EXPORTED frame. -/
  | freeFrame (core : Fin 1280) (frame : Fin 6)
  /-- EVAC_DONE (R242): Writing FCT_EVAC.DONE ends the evacuation and makes the core's Ring store unreachable. BASE, and whether DONE is
  written. -/
  | evacDone (core : Fin 1280) (base : Nat) (done : Bool)
  /-- FAULT_RING_RD (R400): Advancing XLT_FRING.RD frees ring positions so waiting faults write their records. -/
  | faultRingRd (core : Fin 1280) (rd : Nat)
  /-- RETRY (R402): The resolve action retranslates the suspended target holding the FSEQ. The stores of the runtime before it, and what
  reading the descriptor table of a Span peer gives. -/
  | retry (core : Fin 1280) (fseq : Nat) (stores : List (Nat × Bytes)) (table : PeerTable)
  /-- REFUSE_XLATE (R402): The resolve action ends the suspended target with status 0x30. -/
  | refuseXlate (core : Fin 1280) (fseq : Nat)
  /-- REFUSE_PROT (R402): The resolve action ends the suspended target with status 0x31. -/
  | refuseProt (core : Fin 1280) (fseq : Nat)
  /-- INVAL_ADDRESS (R398): An XLT_INVAL of scope 0 discards cached translations covering one address of a context. The stores of the
  runtime to its tables before it. -/
  | invalAddress (ctx : Nat) (va : Nat) (stores : List (Nat × Bytes))
  /-- INVAL_CONTEXT (R398): An XLT_INVAL of scope 1 discards every cached translation of a context. The stores of the runtime to its
  tables before it, and the context when it creates it. -/
  | invalContext (ctx : Nat) (stores : List (Nat × Bytes)) (born : Option NewContext)
  /-- INVAL_ALL (R398): An XLT_INVAL of scope 2 discards every cached translation. The stores of the runtime to its tables before it. -/
  | invalAll (stores : List (Nat × Bytes))
  /-- INVALIDATION_COMPLETE (R398): When all units have discarded, restarted walks and drained accesses, XLT_INVAL.BUSY clears. -/
  | invalidationComplete
  /-- REFRESH (R421): The HBM controller refreshes every bank of every pseudo-channel each 3.9 μs, or 1.95 μs when hot. -/
  | refresh (stack : Fin 8)
  /-- HBM_SCRUB (R422): The controller reads every populated line once per scrub period. The granules (offset div 32) upset since the last
  row, with an error that the code corrects or only detects. -/
  | hbmScrub (stack : Fin 8) (ce : List Nat) (ue : List Nat)
  /-- PC_RETIREMENT (R419): A pseudo-channel is retired on error thresholds or a link failure and its rebuild starts. The pseudo-channel
  and the cause code. -/
  | pcRetirement (stack : Fin 8) (pc : Fin 32) (cause : Nat)
  /-- HBM_RETIRE (R419): Writing HBM_RETIRE.GO starts retirement of a pseudo-channel. -/
  | hbmRetire (stack : Fin 8) (pc : Fin 32)
  /-- REBUILD_COMPLETE (R419): Every line of the retiring pseudo-channel is rebuilt, its state becomes retired and PC_RETIRED is sent. The
  lines that could not be rebuilt. -/
  | rebuildComplete (stack : Fin 8) (lost : List Nat)
  /-- MIRROR_ENABLE (R417): Enabling HBM_MIR_r starts copying the primary to its copy. BASE and SIZE of HBM_MIR_r. -/
  | mirrorEnable (stack : Fin 8) (range : Fin 8) (base : Nat) (size : Nat)
  /-- MIRROR_SYNC (R417): The mirror copy completes and SYNCED is set. -/
  | mirrorSync (stack : Fin 8) (range : Fin 8)
  /-- LINK_ENABLE (R462): Enabling SPN_LINK_k starts training of a Span link. -/
  | linkEnable (link : Fin 8)
  /-- LINK_TRAINED (R462): A Span link reaches UP4 or UP3 and sets its credits. The neighbour's module ID, and a lane that is faulty. -/
  | linkTrained (link : Fin 8) (peer : Nat) (badLane : Option (Fin 4))
  /-- LANE_FAULT (R463): A faulty lane makes the link retrain on three lanes or go DOWN. -/
  | laneFault (link : Fin 8) (lane : Fin 4)
  /-- RETRAIN_COMPLETE (R463): A link retrained on three lanes enters UP3 and replays from its last acknowledged flit. Whether the three
  lanes trained. -/
  | retrainComplete (link : Fin 8) (ok : Bool)
  /-- LINK_RETRAIN (R463): Writing SPN_LINK_k.RETRAIN retrains the link on four lanes. -/
  | linkRetrain (link : Fin 8)
  /-- LINK_SILENCE (R464): A link with no flit for SILENCE_US goes DOWN and broadcasts LINK_DOWN. -/
  | linkSilence (link : Fin 8)
  /-- RETRY_REQ (R466): A received RETRY_REQ makes the sender resend from the named SEQ, going DOWN after 16 retries without progress. -/
  | retryReq (link : Fin 8) (seq : Nat)
  /-- WRITE_REQ (R469): A received write request is forwarded, or translated in context CTX, written and answered with WRITE_RSP. The
  virtual channel and the message. -/
  | writeReq (link : Fin 8) (vc : Fin 5) (m : Machine.SpanMsg)
  /-- READ_REQ (R469): A received read request is translated, read and answered with READ_RSP. The virtual channel and the message. -/
  | readReq (link : Fin 8) (vc : Fin 5) (m : Machine.SpanMsg)
  /-- WRITE_RSP (R469): A write response completes a transfer unit, taking its nonzero status. The virtual channel and the message. -/
  | writeRsp (link : Fin 8) (vc : Fin 5) (m : Machine.SpanMsg)
  /-- READ_RSP (R469): A read response delivers a unit's data and status to its transfer. The virtual channel and the message. -/
  | readRsp (link : Fin 8) (vc : Fin 5) (m : Machine.SpanMsg)
  /-- REQUEST_TIMEOUT (R471): A Span request unanswered within TIMEOUT_US ends its transfer with FABRIC_LOST. -/
  | requestTimeout (xid : Nat)
  /-- ROUTE_MOVE (R471): After a link goes DOWN, destinations move to their alternate once old requests are answered or timed out. The
  destination and the parity of the route half. -/
  | routeMove (dst : Fin 64) (parity : Fin 2)
  /-- LINK_DOWN (R477): A LINK_DOWN control message is recorded and, at the coordinator, may find a module lost and start its eviction.
  The header of the message, and the neighbour that the link of its source led to. -/
  | linkDown (link : Fin 8) (head : Machine.CtlHead) (neighbour : Nat)
  /-- SPAN_HALT (R471): A HALT message pauses request timeouts to its sender and may request a global stop. The header of the message. -/
  | spanHalt (link : Fin 8) (head : Machine.CtlHead)
  /-- SPAN_RESUME (R471): A RESUME message restarts timeouts to its sender. The header of the message. -/
  | spanResume (link : Fin 8) (head : Machine.CtlHead)
  /-- PREPARE (R475): A received PREPARE writes the route half for the new epoch and answers READY or REFUSE. The header of the message,
  the plan, and a module that it evicts or 0xFF. -/
  | prepare (link : Fin 8) (head : Machine.CtlHead) (plan : Machine.EpochPlan) (lost : Nat)
  /-- EPOCH_READY (R475): The coordinator collects READY and sends COMMIT when every new member has answered. The header of the message,
  which names the epoch. -/
  | epochReady (link : Fin 8) (head : Machine.CtlHead)
  /-- EPOCH_REFUSE (R475): A REFUSE answer makes the coordinator abort the epoch. The header of the message, which names the epoch. -/
  | epochRefuse (link : Fin 8) (head : Machine.CtlHead)
  /-- EPOCH_READY_TIMEOUT (R475): Without every READY within 10 ms the coordinator sends ABORT. -/
  | epochReadyTimeout
  /-- EPOCH_COMMIT (R475): On COMMIT a module switches to the new epoch at one Bole service cycle. The header of the message, which names
  the epoch. -/
  | epochCommit (link : Fin 8) (head : Machine.CtlHead)
  /-- EPOCH_ABORT (R475): On ABORT the prepared epoch is discarded and nothing changes. The header of the message, which names the epoch.
  -/
  | epochAbort (link : Fin 8) (head : Machine.CtlHead)
  /-- EPOCH_CLOSE (R476): GRACE_US after the switch point the old epoch closes and its remaining transfers end with FABRIC_LOST. -/
  | epochClose
  /-- EVQ_RD (R487): Advancing CRN_EVQ.RD frees event-ring records so waiting producers write. -/
  | evqRd (rd : Nat)
  /-- KICK (R493): A write to CRN_KICK_c restarts that core's watchdog period. -/
  | kick (crown : Fin 16)
  /-- WATCHDOG (R493): An expired watchdog holds the Crown core in reset and writes a WATCHDOG event, entering FAULTED if all are held.
  The commands that another core continues. -/
  | watchdog (crown : Fin 16) (replays : Nat)
  /-- MACHINE_CHECK (R493): An uncorrectable Crown cache error or poisoned load restarts the core as the watchdog does. The commands that
  another core continues. -/
  | machineCheck (crown : Fin 16) (replays : Nat)
  /-- CORE_RELEASE (R493): Fifty milliseconds after being held the Crown core is released and the runtime restarts on it. -/
  | coreRelease (crown : Fin 16)
  /-- CAPTURE_APPEND (R506): A Crown append passes the byte bucket and buffer into CAPTURE, discarding the oldest segment when full, or is
  DROPPED. -/
  | captureAppend (crown : Fin 16) (data : Bytes)
  /-- DIE_LOSS (R501): A lost flash die is served by reconstruction and its stripes rebuild, or DEGRADED is set. -/
  | dieLoss (die : Fin 16)
  /-- STRIPE_REBUILD_COMPLETE (R501): Every stripe has been rebuilt on the 15 live dies. -/
  | stripeRebuildComplete
  /-- FLASH_SCRUB (R508): The retention scrub reads every programmed page once per period and relocates weak or old blocks. What the dies
  do, the sectors found uncorrectable, and the blocks relocated. -/
  | flashScrub (media : Machine.Media) (ue : List Nat) (reloc : Nat)
  /-- WEAR_LEVELLING (R502): When the TLC erase-count spread exceeds 300 the manager moves cold data. The erase counts after it, and
  whether the spare blocks are spent. -/
  | wearLevelling (avg : Nat) (max : Nat) (spread : Nat) (spent : Bool)
  /-- TRS_RELEASE (R519): Writing TRS_CTL.RELEASE erases the installer root, signers and operator keys and closes sessions. -/
  | trsRelease
  /-- ROTATE (R520): Writing TRS_OPKEY_j.ROTATE increments the slot's GEN, zeroes its counter and closes its sessions. -/
  | rotate (slot : Fin 16)
  /-- OPKEY_ENABLE (R520): Writing TRS_OPKEY_j.EN enables the slot, or disables it and closes its sessions. -/
  | opkeyEnable (slot : Fin 16) (on : Bool)
  /-- SAVE (R529): Writing TRS_CFG.SAVE writes the present values as the next configuration record. -/
  | save
  /-- FACTORY (R528): Writing TRS_CFG.FACTORY selects the factory record at the next boot. -/
  | factory
  /-- AUDIT_DRAIN (R532): Audit records in the secure staging area drain to the AUDIT partition. -/
  | auditDrain
  /-- AUDIT_SUMMARY (R531): Each second one summary record is appended per session, opcode and status with a nonzero count. -/
  | auditSummary
  /-- COUNT_SEND (R554): At least once per microsecond a core sends its per-context event counts to the observation block. -/
  | countSend (core : Fin 1280)
  /-- COMMAND_BOUNDARY (R555): A RUN start or OBS_CTXB write copies LIVE to FINAL, increments the boundary count and zeroes LIVE. SET and
  GO of OBS_CTXB. -/
  | commandBoundary (set : Fin 32) (go : Bool)
  /-- PC_SAMPLE (R558): In a matching cycle a selected core generates a PC sample trace record. Whether the context issues in the cycle.
  -/
  | pcSample (core : Fin 1280) (hc : Fin 8) (issued : Bool)
  /-- CHAIF_FRAME_SEND (R561): The Chaif port sends a frame of whole trace records from the trace partition. -/
  | chaifFrameSend (records : Nat)
  /-- TRACE_FALLBACK_SEND (R562): Trace records leave in RECORD frames to trace subscribers within the 3 % command-port limit. -/
  | traceFallbackSend
  /-- GLOBAL_STOP (R565): A stop request from a command, debug stop, exception or Span HALT starts the stop distribution to every stopping
  island. -/
  | globalStop
  /-- CUT_COMPLETE (R566): When every stopping island has reported, the cut is complete, OBS_CUT is written and HALTED entered. -/
  | cutComplete
  /-- CONTINUE (R564): The OBS_DBG operation releases a context's debug stop. -/
  | dbgContinue (core : Fin 1280) (hc : Fin 8)
  /-- STEP (R564): The OBS_DBG operation releases a debug-stopped context for one bundle. -/
  | dbgStep (core : Fin 1280) (hc : Fin 8)
  /-- DUMP (R564): The OBS_DBG operation writes the stopped context's state to its virtual address. The value of OBS_DBG_ADDR. -/
  | dbgDump (core : Fin 1280) (hc : Fin 8) (va : Nat)
  /-- COMMAND_PORT_LINK_CHANGE (R600): The link of command port C0 or C1 goes down or comes up, truncating any frame in progress on loss.
  -/
  | commandPortLinkChange (port : Fin 2) (up : Bool)
  /-- CHAIF_LINK_CHANGE (R561): The Chaif port link goes up or down, changing OBS_TRACE.LINK and whether trace frames can leave. -/
  | chaifLinkChange (up : Bool)
  /-- HIGH_SYMBOL_ERROR_RATE (R124): RS-FEC on a packet logical port enters or leaves high symbol error rate, changing
  PRT_STATUS_n.HI_SER. -/
  | highSymbolErrorRate (lport : Fin 64) (on : Bool)
  /-- FLIT_CRC_FAILURE (R466): A Span receiver finds a flit with a CRC failure, a reserved FTYPE or VC, or an out-of-order SEQ, discards
  it and later flits, and sends RETRY_REQ. -/
  | flitCrcFailure (link : Fin 8)
  /-- ACK_AND_CREDIT (R467): A received flit's ACK frees replay-buffer entries and its CREDIT returns flits of a VC, letting held senders
  send. The acknowledged SEQ, and the flits returned to a virtual channel. -/
  | ackAndCredit (link : Fin 8) (ack : Option Nat) (vc : Fin 5) (n : Nat)
  /-- BUNDLE_CACHE_FILL (R230): A bundle-cache fill through the context's translation completes and lets the bundle issue, or meets a
  translation fault that suspends the context at fetch. -/
  | bundleCacheFill (core : Fin 1280) (hc : Fin 8)
  /-- SUSPENDED_TRANSFER (R401): A mover transfer meets a serviceable translation fault at a unit, stops before that unit with its tag
  BUSY, and writes a fault record. -/
  | suspendedTransfer (core : Fin 1280) (hc : Fin 8) (tag : Fin 16)
deriving DecidableEq, Repr

end Sys2Proof
end

