-- ==== Sys2Proof/WellFormed.lean ====
section
/-!
DEFINITION. Which rows are well formed: every operand lies in the range that its field, its frame or its event has. The types of the
operands bound the rest. The meanings are total: a row that is not well formed has a meaning too, and nothing depends on it.
-/

namespace Sys2Proof

/-- A number fits in `w` bits. -/
def fits (w x : Nat) : Bool := decide (x < 2 ^ w)

/-- A frame without its FCS is at most as long as the port complex takes (03 R98): 9,216 bytes with the FCS. -/
def frameFits (b : Bytes) : Bool := decide (b.length ≤ 9212)

/-- Stores of the runtime stay inside physical memory addresses of 48 bits (14 R409). -/
def storesFit (l : List (Nat × Bytes)) : Bool := l.all (fun e => fits 48 e.1)

/-- A word of a Grove slice (07 R214). -/
def errorFits (e : Option (Nat × Nat × Bool)) : Bool := e.all (fun x => decide (x.1 < 16) && fits 18 x.2.1)

/-- CLASS and SCORE of a verdict record (15 R448). -/
def resultFits (e : Option (Nat × Nat)) : Bool := e.all (fun x => fits 8 x.1 && fits 32 x.2)

/-- The UDP form of a frame (02 R60). -/
def UdpInfo.wf (u : UdpInfo) : Bool :=
  fits (if u.v6 then 128 else 32) u.src && fits (if u.v6 then 128 else 32) u.dst && fits 16 u.sport && fits 14 u.extra

/-- A GCT command frame (02 R60–R63): every header field fits its width, and the bytes after the header fit in a frame. -/
def CmdFrame.wf (f : CmdFrame) : Bool :=
  fits 48 f.smac && f.vlan.all (fits 16) && f.udp.all UdpInfo.wf && fits 8 f.version && fits 8 f.kind && fits 16 f.flags &&
    fits 32 f.session && fits 64 f.seq && fits 16 f.opcode && fits 16 f.length && fits 8 f.status && fits 24 f.resv &&
    decide (f.rest.length ≤ 9212)

/-- What reading a peer's descriptor table gives: at most the 144 bytes of a dimension table and a sharding table (12 R359, R383, 16 R469). -/
def PeerTable.wf (t : PeerTable) : Bool :=
  (t.status == 0 || t.status == 0x30 || t.status == 0x31 || t.status == 0x50 || t.status == 0x60) && decide (t.bytes.length ≤ 144)

/-- What an array makes wrong in a pass: vectors, blocks and columns that a pass can have, and 32-bit elements (10 R324). -/
def PassErrors.wf (e : PassErrors) : Bool :=
  e.sums.all (fun x => decide (x.vec < 32) && decide (x.blk < 2) && decide (x.col < 128)) &&
    e.cells.all (fun x => decide (x.vec < 32) && decide (x.col < 128) && fits 32 x.mask)

/-- The exception log of a new context is a 64 KiB page of physical memory (17 R488). -/
def NewContext.wf (c : NewContext) : Bool := c.log.all (fun a => fits 48 a && a % 65536 == 0)

/-- A Span message (16 R468). -/
def Machine.SpanMsg.wf (m : Machine.SpanMsg) : Bool :=
  fits 8 m.mtype && decide (m.src < 64) && fits 1 m.epar && decide (m.dst < 64) && fits 8 m.status && fits 32 m.msgid && fits 16 m.ctx &&
    fits 32 m.xid && decide (m.data.length ≤ 8192)

/-- The header of a control message (16 R468). -/
def Machine.CtlHead.wf (h : Machine.CtlHead) : Bool := decide (h.src < 64) && decide (h.dst < 64) && fits 32 h.epoch && fits 32 h.msgid

/-- A plan of an epoch (16 R475): 32 bits of number, a coordinator, and mesh sizes and a map of 64 entries at most. -/
def Machine.EpochPlan.wf (p : Machine.EpochPlan) : Bool :=
  fits 32 p.epoch && decide (p.coord < 64) && decide (p.mesh.length ≤ 3) && decide (p.map.length ≤ 64)

/-- A register of a context (08 R221, R222). -/
def Machine.RegRef.wf (r : Machine.RegRef) : Bool :=
  match r with
  | .s n => decide (n < 64)
  | .v n => decide (n < 32)
  | .t n => decide (n < 16)

/-- A cause of a power loss (23 R584). -/
def Machine.PowerLoss.wf (c : Machine.PowerLoss) : Bool :=
  match c with
  | .input mv => fits 16 mv
  | .pgoodIn => true
  | .rail r => decide (r < 12)

/-- A row is well formed. -/
def Instr.wf (i : Instr) : Bool :=
  match i with
  | .frameStart _ => true
  | .oversizeDiscard _ => true
  | .frameEnd _ frame _ _ _ => frameFits frame
  | .commandPortFrame _ frame _ _ _ => frameFits frame
  | .portLinkChange _ _ => true
  | .portEnable _ => true
  | .parseAccept _ => true
  | .flowKeyComplete _ => true
  | .prefetchLand _ => true
  | .flowLookupAnswer packet _ _ => fits 64 packet
  | .filterExpiry _ => true
  | .flowRecordEnqueue _ => true
  | .firstPassEntry _ => true
  | .t2Admit _ => true
  | .passEnd _ _ => true
  | .pinnedWriteApply _ => true
  | .groveEntry _ => true
  | .groveVerdict packet error => fits 64 packet && errorFits error
  | .tokenDispatch _ => true
  | .verdictRead _ => true
  | .deadlineTest _ _ => true
  | .secondPassEntry packet => fits 64 packet
  | .egress packet => fits 64 packet
  | .completionSend session => fits 32 session
  | .recordSend _ => true
  | .nop f => f.wf
  | .sessionOpen f => f.wf
  | .sessionClaim f => f.wf
  | .sessionClose f => f.wf
  | .sessionTimeout session => fits 32 session
  | .stateGet f => f.wf
  | .regRead f => f.wf
  | .regWrite f => f.wf
  | .lock _ inst => decide (inst < 8)
  | .memRead f => f.wf
  | .memWrite f => f.wf
  | .start f => f.wf
  | .drain f => f.wf
  | .drainComplete => true
  | .stop f => f.wf
  | .resume f => f.wf
  | .maintEnter f => f.wf
  | .maintExit f => f.wf
  | .reset f => f.wf
  | .moduleReset _ => true
  | .modeSet f => f.wf
  | .modeTakesEffect mode => fits 8 mode
  | .modeGet f => f.wf
  | .subscribe f => f.wf
  | .ruleDefine f => f.wf
  | .ruleInsert f => f.wf
  | .ruleDelete f => f.wf
  | .ruleSetDefault f => f.wf
  | .ruleUndefine f => f.wf
  | .ruleSwap f => f.wf
  | .flowRead f => f.wf
  | .flowDelete f => f.wf
  | .run f => f.wf
  | .slotRead f => f.wf
  | .slotRelease f => f.wf
  | .cancelComplete _ => true
  | .slotTtlExpiry _ => true
  | .unknownOpcode f => f.wf
  | .imageBegin f => f.wf
  | .imageData f _ => f.wf
  | .imageFinish f => f.wf
  | .imageDelete f => f.wf
  | .activateGrove f => f.wf
  | .activateTier2 f => f.wf
  | .activateTier3 f => f.wf
  | .activateUnload f => f.wf
  | .unloadComplete _ => true
  | .gateRelease _ _ => true
  | .firmwareBegin f => f.wf
  | .firmwareData f _ => f.wf
  | .firmwareFinish f => f.wf
  | .firmwareActivate f => f.wf
  | .flashRead f _ => f.wf
  | .flashWrite f _ => f.wf
  | .flashErase f => f.wf
  | .attestQuote f => f.wf
  | .auditRead f => f.wf
  | .counterRead f => f.wf
  | .traceEnable f => f.wf
  | .traceDisable f => f.wf
  | .traceMarker f => f.wf
  | .scanOut f => f.wf
  | .spanAttach f => f.wf
  | .spanEpoch f => f.wf
  | .spanDetach f => f.wf
  | .spanQuery f => f.wf
  | .appLoad f => f.wf
  | .appUnload f => f.wf
  | .powerUp mv => fits 16 mv
  | .resetRelease => true
  | .secureBoot => true
  | .inputRange mv => fits 16 mv
  | .powerGoodLoss cause => cause.wf
  | .phaseShed rail => decide (rail < 12)
  | .capControl mv ca dw => fits 16 mv && fits 16 ca && fits 16 dw
  | .limbThrottle limb temp => decide (limb < 4) && fits 8 temp
  | .thermalShutdown sensor temp => decide (sensor < 13) && fits 8 temp
  | .hbmThermal _ temp => fits 8 temp
  | .readVin => true
  | .readIin => true
  | .readTemperature1 => true
  | .readPin => true
  | .extest data => fits 64 data
  | .idcode => true
  | .samplePreload data => fits 64 data
  | .scanRead body => body.length == 20
  | .bypass code data => fits 8 code && fits 64 data
  | .openRetry _ => true
  | .portOpen _ _ v => fits 64 v
  | .portPush _ _ _ _ _ => true
  | .portCommit _ _ => true
  | .portAbort _ _ => true
  | .portRead _ _ _ _ => true
  | .portMark _ _ => true
  | .portRewind _ _ => true
  | .portRelease _ _ => true
  | .flush _ => true
  | .heartwoodScrub ce ue => ce.all (fits 32) && ue.all (fits 32)
  | .lockRead _ _ _ _ => true
  | .flowDmaRead _ _ _ => true
  | .writeSlot _ _ _ _ token low high result => fits 12 token && low.length == 48 && high.length == 8 && resultFits result
  | .publish _ _ _ _ token => fits 12 token
  | .invalidate _ _ _ _ token => fits 12 token
  | .unlock _ _ _ _ token digest1 digest2 => fits 12 token && fits 32 digest1 && fits 32 digest2
  | .leaseExpiry _ => true
  | .agingVisit _ _ => true
  | .shadowCompare _ _ => true
  | .routeWrite _ v => fits 16 v
  | .groveScrub ce ue => ce.all (fits 22) && ue.all (fits 22)
  | .writeLeaf _ _ off v => fits 18 off && fits 32 v
  | .writeWord _ off v => fits 18 off && fits 128 v
  | .arm stamp flips _ => fits 64 stamp && fits 16 flips
  | .tendReady => true
  | .tendingBoundary => true
  | .watermark _ => true
  | .wAdd _ _ => true
  | .wSub _ _ => true
  | .wAnd _ _ => true
  | .wOr _ _ => true
  | .wXor _ _ => true
  | .wShl _ _ => true
  | .wShr _ _ => true
  | .wSar _ _ => true
  | .wMin _ _ => true
  | .wMax _ _ => true
  | .wMinu _ _ => true
  | .wMaxu _ _ => true
  | .wClz _ _ => true
  | .wPopc _ _ => true
  | .wSel _ _ => true
  | .wMul _ _ => true
  | .wMulh _ _ => true
  | .wMulhu _ _ => true
  | .wDiv _ _ => true
  | .wDivu _ _ => true
  | .wRem _ _ => true
  | .wRemu _ _ => true
  | .wLi _ _ => true
  | .wLui _ _ => true
  | .wCeq _ _ => true
  | .wCne _ _ => true
  | .wClt _ _ => true
  | .wCltu _ _ => true
  | .wCle _ _ => true
  | .wCleu _ _ => true
  | .wPand _ _ => true
  | .wPor _ _ => true
  | .wPxor _ _ => true
  | .wPandn _ _ => true
  | .wPfirst _ _ => true
  | .wLd8u _ _ => true
  | .wLd16u _ _ => true
  | .wLd32u _ _ => true
  | .wLd64 _ _ => true
  | .wLd8s _ _ => true
  | .wLd16s _ _ => true
  | .wLd32s _ _ => true
  | .wSt8 _ _ => true
  | .wSt16 _ _ => true
  | .wSt32 _ _ => true
  | .wSt64 _ _ => true
  | .loadComplete _ _ reg => reg.wf
  | .wVadd _ _ => true
  | .wVsub _ _ => true
  | .wVmul _ _ => true
  | .wVfma _ _ => true
  | .wVmin _ _ => true
  | .wVmax _ _ => true
  | .wVabs _ _ => true
  | .wVneg _ _ => true
  | .wVand _ _ => true
  | .wVor _ _ => true
  | .wVxor _ _ => true
  | .wVshl _ _ => true
  | .wVshr _ _ => true
  | .wVsar _ _ => true
  | .wVceq _ _ => true
  | .wVclt _ _ => true
  | .wVcle _ _ => true
  | .wVsel _ _ => true
  | .wVcvt _ _ => true
  | .wVbcast _ _ => true
  | .wVext _ _ => true
  | .wVins _ _ => true
  | .wVperm _ _ => true
  | .wVrsum _ _ => true
  | .wVrmax _ _ => true
  | .wVrmin _ _ => true
  | .wVexp2 _ _ => true
  | .wVlog2 _ _ => true
  | .wVrcp _ _ => true
  | .wVrsqrt _ _ => true
  | .wVtanh _ _ => true
  | .wVsigm _ _ => true
  | .wVld _ _ => true
  | .wVst _ _ => true
  | .wMshape _ _ => true
  | .wMlw _ _ => true
  | .wMmb _ _ => true
  | .wMms _ _ => true
  | .wMew _ _ => true
  | .wMst _ _ => true
  | .wMla _ _ => true
  | .wMzero _ _ => true
  | .wMxwait _ _ => true
  | .wMxtest _ _ => true
  | .wMxclr _ _ => true
  | .passCheck _ _ slice errors => decide (slice < 64) && errors.wf
  | .recomputation _ _ slice errors => decide (slice < 64) && errors.wf
  | .spareRecomputation _ _ slice errors => decide (slice < 64) && errors.wf
  | .retirementRecordWrite => true
  | .bistStart _ _ => true
  | .bistResult _ _ _ => true
  | .bistOverdue _ _ => true
  | .bistRequest _ => true
  | .wMcopy _ _ => true
  | .wMtrans _ _ => true
  | .wMgather _ _ => true
  | .wMscatter _ _ => true
  | .wMfill _ _ => true
  | .wMput _ _ table => table.wf
  | .wMget _ _ table => table.wf
  | .wMwait _ _ => true
  | .wMtest _ _ => true
  | .wTld _ _ => true
  | .wTst _ _ => true
  | .wTmov _ _ => true
  | .wTaddb _ _ => true
  | .transferEnd _ _ _ => true
  | .wBr _ _ => true
  | .wJr _ _ => true
  | .wCall _ _ => true
  | .wCallr _ _ => true
  | .wLoop _ _ => true
  | .wExit _ _ => true
  | .wTrap _ _ => true
  | .wBreak _ _ => true
  | .wFence _ _ => true
  | .wIfence _ _ => true
  | .wCrd _ _ => true
  | .wCwr _ _ => true
  | .wSettag _ _ => true
  | .wClaim _ _ => true
  | .wRelease _ _ => true
  | .claimGrant _ => true
  | .wQsel _ _ => true
  | .wQopen _ _ => true
  | .wQpush _ _ => true
  | .wQpushv _ _ => true
  | .wQcommit _ _ => true
  | .wQabort _ _ => true
  | .wQread _ _ => true
  | .wQreadv _ _ => true
  | .wQmark _ _ => true
  | .wQrewind _ _ => true
  | .wQrelease _ _ => true
  | .runAheadEntry _ _ _ => true
  | .runAheadExit _ _ => true
  | .quantumExpiry _ _ => true
  | .preemptionComplete _ _ _ => true
  | .restore _ tables => tables.all PeerTable.wf
  | .ringScrub _ ce ue => ce.all (fits 16) && ue.all (fits 16)
  | .place _ _ image stores _ born tables => decide (image.length ≤ 0xA000) && storesFit stores && born.all NewContext.wf && tables.all PeerTable.wf
  | .exportFrame _ _ => true
  | .freeFrame _ _ => true
  | .evacDone _ base _ => fits 32 base
  | .faultRingRd _ rd => fits 32 rd
  | .retry _ fseq stores table => fits 32 fseq && storesFit stores && table.wf
  | .refuseXlate _ fseq => fits 32 fseq
  | .refuseProt _ fseq => fits 32 fseq
  | .invalAddress ctx va stores => fits 16 ctx && fits 48 va && storesFit stores
  | .invalContext ctx stores born => fits 16 ctx && storesFit stores && born.all NewContext.wf
  | .invalAll stores => storesFit stores
  | .invalidationComplete => true
  | .refresh _ => true
  | .hbmScrub _ ce ue => ce.all (fits 31) && ue.all (fits 31)
  | .pcRetirement _ _ cause => decide (cause < 3)
  | .hbmRetire _ _ => true
  | .rebuildComplete _ lost => lost.all (fits 28)
  | .mirrorEnable _ _ base size => fits 15 base && fits 15 size
  | .mirrorSync _ _ => true
  | .linkEnable _ => true
  | .linkTrained _ peer _ => decide (peer < 64)
  | .laneFault _ _ => true
  | .retrainComplete _ _ => true
  | .linkRetrain _ => true
  | .linkSilence _ => true
  | .retryReq _ seq => fits 12 seq
  | .writeReq _ _ m => m.wf
  | .readReq _ _ m => m.wf
  | .writeRsp _ _ m => m.wf
  | .readRsp _ _ m => m.wf
  | .requestTimeout xid => fits 32 xid
  | .routeMove _ _ => true
  | .linkDown _ head neighbour => head.wf && decide (neighbour < 64)
  | .spanHalt _ head => head.wf
  | .spanResume _ head => head.wf
  | .prepare _ head plan lost => head.wf && plan.wf && plan.coord == head.src && plan.epoch == head.epoch && decide (lost < 256)
  | .epochReady _ head => head.wf
  | .epochRefuse _ head => head.wf
  | .epochReadyTimeout => true
  | .epochCommit _ head => head.wf
  | .epochAbort _ head => head.wf
  | .epochClose => true
  | .evqRd rd => fits 32 rd
  | .kick _ => true
  | .watchdog _ _ => true
  | .machineCheck _ _ => true
  | .coreRelease _ => true
  | .captureAppend _ data => decide (4096 ≤ data.length) && decide (data.length ≤ 1048576)
  | .dieLoss _ => true
  | .stripeRebuildComplete => true
  | .flashScrub _ ue _ => ue.all (fits 48)
  | .wearLevelling _ _ _ _ => true
  | .trsRelease => true
  | .rotate _ => true
  | .opkeyEnable _ _ => true
  | .save => true
  | .factory => true
  | .auditDrain => true
  | .auditSummary => true
  | .countSend _ => true
  | .commandBoundary _ _ => true
  | .pcSample _ _ _ => true
  | .chaifFrameSend _ => true
  | .traceFallbackSend => true
  | .globalStop => true
  | .cutComplete => true
  | .dbgContinue _ _ => true
  | .dbgStep _ _ => true
  | .dbgDump _ _ va => fits 64 va
  | .commandPortLinkChange _ _ => true
  | .chaifLinkChange _ => true
  | .highSymbolErrorRate _ _ => true
  | .flitCrcFailure _ => true
  | .ackAndCredit _ ack _ n => ack.all (fits 12) && fits 8 n
  | .bundleCacheFill _ _ => true
  | .suspendedTransfer _ _ _ => true

end Sys2Proof
end

