-- ==== Sys2Proof/Decode.lean ====
section
/-!
DEFINITION. The command that a word of the opcode table's bits spells. The table of this block gives no row any bits: its rows are
frames, bundles, register writes and events, whose operands stand in the constructors of `Instr`. The bundle encoding of Gramar-W
(09 R258–R263) is decoded from memory when a bundle issues, in Machine/Bundle.lean.
-/

namespace Sys2Proof

/-- No word of the table spells a command: no row has bits. DESIGN CHOICE: log 4. -/
def decodeTableWord (_nbits _w : Nat) : Option Instr := none

end Sys2Proof
end

