-- ==== Sys2Proof/Machine/Hash.lean ====
section
/-!
DEFINITION. The checks and keyed hashes that the spec names by standard: CRC-32C (05 R154, R169), SHA-256, HMAC-SHA-256 and
HKDF-SHA-256 (02 R63, 19). Their arithmetic is PRESUMED from those standards.
-/

namespace Sys2Proof.Machine

/-- One bit step of the reflected CRC-32C (Castagnoli) register. -/
def crcBit (c : Nat) : Nat := if c % 2 = 1 then (c / 2) ^^^ 0x82F63B78 else c / 2

/-- One byte step of CRC-32C. -/
def crcByte (c : Nat) (b : Byte) : Nat :=
  crcBit (crcBit (crcBit (crcBit (crcBit (crcBit (crcBit (crcBit (c ^^^ b.toNat))))))))

/-- CRC-32C of a byte string from an initial value, the final value not inverted (05 R154). -/
def crc32c (init : Nat) (bs : Bytes) : Nat := bs.foldl crcByte (init % 2 ^ 32)

/-! ### SHA-256

Its constants are those that its standard defines: the first 32 fractional bits of roots of the first primes. -/

/-- The primes below 312, which are the first 64. -/
def smallPrimes : List Nat := (rangeFrom 2 310).filter (fun n => (rangeFrom 2 16).all (fun d => decide (n ≤ d) || n % d != 0))

/-- The integer part of the `e`-th root of `n`, by its bits from bit `k - 1` down, above the part `r` found so far. -/
def rootBits (e n k r : Nat) : Nat :=
  match k with
  | 0 => r
  | j + 1 => rootBits e n j (if (r + 2 ^ j) ^ e ≤ n then r + 2 ^ j else r)

/-- The first 32 fractional bits of the `e`-th root of `p`, which is below 8. -/
def rootFraction (e p : Nat) : BitVec 32 := BitVec.ofNat 32 (rootBits e (p * 2 ^ (32 * e)) 35 0)

/-- The round constants: cube roots. -/
def shaK : List (BitVec 32) := smallPrimes.map (rootFraction 3)

/-- The eight working words of a digest, the first in the highest bits. -/
abbrev Digest := Vector (BitVec 32) 8

/-- The initial digest: square roots. -/
def shaInit : Digest := Vector.ofFn (fun i => rootFraction 2 (smallPrimes.getD i.val 0))

/-- The sum of three rotations of a word. -/
def spin (x : BitVec 32) (r : Nat × Nat × Nat) : BitVec 32 := x.rotateRight r.1 ^^^ x.rotateRight r.2.1 ^^^ x.rotateRight r.2.2

/-- The sum of two rotations and a shift of a word. -/
def spinShift (x : BitVec 32) (r : Nat × Nat) (n : Nat) : BitVec 32 := x.rotateRight r.1 ^^^ x.rotateRight r.2 ^^^ x >>> n

/-- `n` further words of the message schedule; the words so far stand newest first. -/
def shaSchedule (n : Nat) (w : List (BitVec 32)) : List (BitVec 32) :=
  match n with
  | 0 => w
  | k + 1 =>
    let back (i : Nat) : BitVec 32 := w.getD (i - 1) 0
    shaSchedule k ((back 16 + spinShift (back 15) (7, 18) 3 + back 7 + spinShift (back 2) (17, 19) 10) :: w)

/-- One round: each word moves one place down; the words of place 0 and 4 take the two sums. -/
def shaRound (v : Digest) (kw : BitVec 32) : Digest :=
  let choose := (v[4] &&& v[5]) ||| (~~~v[4] &&& v[6])
  let most := (v[0] &&& v[1]) ||| (v[2] &&& (v[0] ||| v[1]))
  let sum := v[7] + kw + choose + spin v[4] (6, 11, 25)
  Vector.ofFn (fun i =>
    if i.val = 0 then sum + most + spin v[0] (2, 13, 22)
    else if i.val = 4 then v[3] + sum
    else v[i.val - 1])

/-- The compression of one 64-byte block. -/
def shaBlock (h : Digest) (block : Bytes) : Digest :=
  let w0 := ((chunks block 4 16).map (fun c => BitVec.ofNat 32 (beNat c))).reverse
  let v := (List.zipWith (· + ·) shaK (shaSchedule 48 w0).reverse).foldl shaRound h
  Vector.ofFn (fun i => h[i.val] + v[i.val])

/-- SHA-256 of a byte string. PRESUMED: log 19. -/
def sha256 (m : Bytes) : Bytes :=
  let pad := m ++ [0x80] ++ zeros ((55 + 64 - m.length % 64) % 64) ++ beBytes 8 (8 * m.length)
  ((chunks pad 64 (pad.length / 64)).foldl shaBlock shaInit).toList.flatMap (fun w => beBytes 4 w.toNat)

/-- HMAC-SHA-256. PRESUMED: log 19. -/
def hmac (key msg : Bytes) : Bytes :=
  let k := padTo (if 64 < key.length then sha256 key else key) 64
  sha256 (k.map (· ^^^ 0x5c) ++ sha256 (k.map (· ^^^ 0x36) ++ msg))

/-- The first `n` blocks of the HKDF expansion. -/
def hkdfBlocks (prk info prev : Bytes) (i n : Nat) : Bytes :=
  match n with
  | 0 => []
  | k + 1 =>
    let t := hmac prk (prev ++ info ++ [byteOf i])
    t ++ hkdfBlocks prk info t (i + 1) k

/-- HKDF-SHA-256: extract under `salt`, expand with `info` to `len` bytes. PRESUMED: log 19. -/
def hkdf (salt ikm info : Bytes) (len : Nat) : Bytes :=
  (hkdfBlocks (hmac salt ikm) info [] 1 (ceilDiv len 32)).take len

end Sys2Proof.Machine
end

