-- ==== Sys2Proof/Config.lean ====
section
/-!
DEFINITION. What an implementation fixes and the spec leaves open: the values of the factory configuration record, the module's
identity and test records, the external cryptographic primitives, and the free values.
-/

namespace Sys2Proof.Config

open Sys2Proof.Machine

/-! ### Free values (no body: nothing can evaluate them) -/

/-- Free value number `n` of the run, as 2,048 bits: the value of a random draw or of a result the spec leaves open. DESIGN CHOICE: log 18. -/
opaque freeValue : Nat → BitVec 2048

/-- The shared secret that ML-KEM decapsulation yields from a ciphertext (19), free of any chosen value. DESIGN CHOICE: log 20. -/
opaque kemShared : Bytes → Bytes → Bytes

/-- Whether an SLH-DSA-SHA2-128s signature (third argument) over a message (second) verifies under a public key (first) (19 R522).
DESIGN CHOICE: log 20. -/
opaque slhVerify : Bytes → Bytes → Bytes → Bool

/-- The SLH-DSA-SHA2-128f signature of a message under the module's attestation key (19). DESIGN CHOICE: log 20. -/
opaque slhSign : Bytes → Bytes

/-- The device unique secret of the secure store (19 "Secure store contents"). -/
opaque deviceSecret : Bytes

/-- The serial number (19 "Secure store contents"). -/
opaque serialNumber : Bytes

/-- Section number `i` of kind `k` of the payload of a Lanvik image: 1 ensemble, 2 Tier 2, 3 Tier 3, 4 Tending, 5 application
(15 R453, 17 R491): the spec does not give how an image lists its sections. DESIGN CHOICE: log 21. -/
opaque imageSection : Bytes → Nat → Nat → Option Bytes

/-- What a Tier 2 section names (15 R433, R441): model ID, feature map of 8-byte selectors, MISS value, ERR_CLASS and the address that
the runtime gives the initial page. DESIGN CHOICE: log 21. -/
opaque tier2Section : Bytes → Nat × List Bytes × Nat × Nat × Nat

/-- What a Tier 3 section names (15 R450–R452): model ID, an Apex image, its per-token bound in ns. DESIGN CHOICE: log 21. -/
opaque tier3Section : Bytes → Nat × Bool × Nat

/-- What a sharded Lanvik image declares in its payload (16 R474): CHUNKS, and the mesh axes it uses as bits; none for an image that is
not sharded. DESIGN CHOICE: log 165. -/
opaque imageShard : Bytes → Option (Nat × Nat)

/-- The bytes of an Apex section's part on a core (15 R451). -/
opaque apexPart : Bytes → Nat → Nat

/-- The Ring space of the active Tier 2 steps, by image, on a core (15 R451). -/
opaque tier2Ring : List Nat → Nat → Nat

/-- The Grove slots that a Tending section names, as bits (15 R456). -/
opaque tendingSlots : Bytes → Nat

/-- The bytes of LIBRARY that FLASH_READ returns at an offset: where the manager places the images is not given (18 R495). DESIGN CHOICE: log 126. -/
opaque libraryByte : List (Nat × Bytes) → Nat → Byte

/-- A rebuild had not reached the stripe of a sector of a partition when the store became DEGRADED at a clock tick (18 R501): the spec does
not give the order of a rebuild. DESIGN CHOICE: log 166. -/
opaque stripeUnbuilt : Nat → Nat → Nat → Bool

/-- The depth in items of an asynchronous crossing, as the Compass table reports it (22 R580). -/
opaque crossingDepth : Nat → Nat

/-- The item width in bytes of an asynchronous crossing (22 R580). -/
opaque crossingWidth : Nat → Nat

/-- What an asynchronous crossing holds at a cut (21 R567, R569), by the value of OBS_CUT and the crossing: write pointer, item count
and the bytes of its items. -/
opaque crossingAtCut : Nat → Nat → Nat × Nat × Bytes

/-- The route half that the runtime writes for a destination: from the module's own ID, its neighbour IDs by link, the mesh sizes, the
map and the destination (16 R470: dimension order; the choice of links and alternates is the runtime's). DESIGN CHOICE: log 114. -/
opaque routeHalf : Nat → List Nat → List Nat → List Nat → Nat → Nat

/-- The device certificate of the module (19 "Device certificate"). -/
opaque deviceCert : Bytes

/-- The boot ROM (19 "Measurements"). -/
opaque bootRom : Bytes

/-- The signed firmware image in slot FW_A as manufactured (19 R521). DESIGN CHOICE: log 14. -/
opaque factoryFirmware : Bytes

/-- The firmware signer key hash of the secure store (19 "Secure store contents"). -/
opaque firmwareSigner : Bytes

/-! ### The module's identity and test records (log entries name every value) -/

/-- The grade: `false` AXM-9416-F, `true` AXM-9416-R (00 R9). DESIGN CHOICE: log 10. -/
def gradeR : Bool := false

/-- The production test state of a core: all cores of an AXM-9416-F are active; an AXM-9416-R has the cores from 1,152 up disabled by
grade (22 R575). DESIGN CHOICE: log 10. -/
def testState (k : Nat) : Nat := if gradeR && decide (1152 ≤ k) then 2 else 0

/-- The MAC address of a port: command ports C0 and C1, then the packet logical ports. DESIGN CHOICE: log 11. -/
def portMac (n : Nat) : Nat := 0x020000000000 + n

/-- The MAC address of the Chaif port (21 R561). DESIGN CHOICE: log 11. -/
def chaifMac : Nat := 0x020000000042

/-- The address of a default HBM structure of pipeline `i` of the factory record. DESIGN CHOICE: log 9. -/
def flowBase (i : Nat) : Nat := 0x100000000000 + 0x20000000 * i

/-- The factory record's shadow digest array of pipeline `i`. DESIGN CHOICE: log 9. -/
def shadowBase (i : Nat) : Nat := 0x100200000000 + 0x800000 * i

/-- The factory record's ordinal array of pipeline `i`. DESIGN CHOICE. -/
def ordinalBase (i : Nat) : Nat := 0x100300000000 + 0x2000000 * i

/-- The value at reset of the fields whose Reset column says HW (00 R25), as bits of the whole register: the factory
configuration record, the identity and test records, and the sensors. DESIGN CHOICE: log 9. -/
def hwReset (n : RegName) (inst idx : Nat) : Nat :=
  match n with
  | .prtCfg => 0x4
  | .cnpEgressMap => idx
  | .gctRecq => 8 + 9 * 2 ^ 16
  | .flwHash => 0xFFFFFFFF + 0x12345678 * 2 ^ 32
  | .flwNotify => 0
  | .flwBase => flowBase idx
  | .flwShadow => shadowBase idx
  | .sqTendCtl => 16 * 2 ^ 32
  | .sqT2Set => (32 + idx) + 1 * 2 ^ 16 + (64 + idx) * 2 ^ 32
  | .sqCfg => if idx < 10 then 1 + 64 * 16 else 1 * 16
  | .sqBind =>
    if idx < 8 then 1 + idx * 2 ^ 8 + 4 * 2 ^ 24 + 0xFFFF * 2 ^ 32
    else if idx < 10 then 5 * 2 ^ 24 + (idx - 8) * 2 ^ 32 else 0
  | .grvOrdBase => ordinalBase idx
  | .fctId => inst + (inst / 320) * 2 ^ 16 + (inst % 320 / 16) * 2 ^ 18 + (inst % 16) * 2 ^ 24 + (if testState inst = 0 then 2 ^ 32 else 0)
  | .xltSpaceBase => 0x100400000000
  | .crnMem => 0x100800000000 + 16 * 2 ^ 48
  | .crnEvqBase => 0x100800000000
  | .hbmStatus => 25
  | .spnLink => 0
  | .obsChaifDmac => 0
  | .pwrCap => 2
  | .pwrInput => 52000 + 100 * 2 ^ 16 + 520 * 2 ^ 32
  | .pwrTemp => 25 + 25 * 2 ^ 8 + 25 * 2 ^ 16 + 25 * 2 ^ 24 + 25 * 2 ^ 32
  | _ => 0

/-- The value of a register right after module reset (00 R25): the Reset columns and, for HW, `hwReset`. DESIGN CHOICE: log 148. -/
def regReset (n : RegName) (inst idx : Nat) : BitVec 64 := BitVec.ofNat 64 (tableReset n + hwReset n inst idx)

end Sys2Proof.Config
end

