-- ==== Sys2Proof/Machine/ObsTypes.lean ====
section
/-!
DEFINITION. The state of the observation block (21): free-running counters, per-context counter sets, trace records that wait in the
trace partition, a debug operation, and a cut in progress.
-/

namespace Sys2Proof.Machine

/-- A per-context counter set (R553): the context it is bound to, its LIVE and FINAL banks by index, and its boundary count. -/
structure CtrSet where
  ctx : Option Nat
  live : FMap Nat
  final : FMap Nat
  bounds : Nat
deriving DecidableEq, Repr

/-- A free set. -/
def CtrSet.free : CtrSet := { ctx := none, live := [], final := [], bounds := 0 }

/-- A trace record in the trace partition (R557, R560): its bytes, whether it goes to the fallback, its number for each
subscription of the trace class (02 R92), and whether a granule of it holds an uncorrectable error (06 R180). -/
structure TraceRec where
  bytes : Bytes
  fallback : Bool
  seqs : List (Nat × Nat)
  bad : Bool
deriving DecidableEq, Repr

/-- A cut in progress (R565, R566): its cause, and the stamp of its request cycle. -/
structure Cut where
  cause : Nat
  stamp : Nat
deriving DecidableEq, Repr

/-- The observation block: counters by class × 2¹⁶ + index, what each core has counted for contexts and not yet sent (by core, then
16 × context + index), counter sets, trace records that wait, RSEQ by source, records discarded since the last loss record, the
count of Chaif frames, the trace frames sent on each command port in the last 10 μs with their clock ticks and line bytes, and a cut
in progress. -/
structure Obs where
  ctr : FMap Nat
  local_ : FMap (FMap Nat)
  sets : FMap CtrSet
  recs : List TraceRec
  rseq : FMap Nat
  lost : Nat
  chaifSeq : Nat
  window : FMap (List (Nat × Nat))
  cut : Option Cut
deriving DecidableEq, Repr

/-- The observation block after reset. DESIGN CHOICE: log 12. -/
def Obs.reset : Obs :=
  { ctr := [], local_ := [], sets := [], recs := [], rseq := [], lost := 0, chaifSeq := 0, window := [], cut := none }

end Sys2Proof.Machine
end

