-- ==== Sys2Proof/Machine/ParserTypes.lean ====
section
/-!
DEFINITION. What the parser samples and what it delivers: the depth and port settings of one packet (03 R106) and the
parse record (03 R114).
-/

namespace Sys2Proof.Machine

/-- The settings that one packet samples in the cycle it is accepted (03 R106, "PRS registers"). -/
structure ParseCfg where
  hdrMax : Nat
  tunnelMax : Nat
  bytes : Nat
  keyLevel : Nat
  keyN : Nat
  vxlan : Nat
  geneve : Nat
  gtpu : Nat
  esp : Nat
  quic : List Nat
  dcidLen : Nat
deriving DecidableEq, Repr

/-- One header entry: its code, level and first byte (03 R114), and the length its own fields give (03 R111). -/
structure HdrEntry where
  code : Nat
  level : Nat
  off : Nat
  len : Nat
deriving DecidableEq, Repr

/-- The parse record of a packet (03 R114). The extracted fields are read from the packet's bytes, which no edit changes in
Heartwood (04 R135, R141). -/
structure ParseRec where
  entries : List HdrEntry
  stop : Nat
  deepest : Nat
  frag : Bool
  fragLevel : Nat
  dcidLen : Nat
  keyLevel : Nat
  key : Bytes
  nonIp : Bool
deriving DecidableEq, Repr

end Sys2Proof.Machine
end

