-- ==== Sys2Proof/Machine/PacketTypes.lean ====
section
/-!
DEFINITION. The state of the packet path: Heartwood cells and stream queues (06), frames and packets (03), Canopy tables (04),
flow lookups and notifications (05), Grove (07), hold tables, the flow-context cache and the Tier 2 sets (15).
-/

namespace Sys2Proof.Machine

/-- The link word of a Heartwood cell (06 R176) but for POISON, which the marks of its granules show. CLASS 0 is a free cell. -/
structure CellLink where
  next : Nat
  last : Bool
  fill : Nat
  cls : Nat
deriving DecidableEq, Repr

/-- A free cell. -/
def CellLink.free : CellLink := { next := 0, last := false, fill := 0, cls := 0 }

/-- A queue word with its sideband (06 R182 "Queue word"). -/
structure QWord where
  data : BitVec 128
  par : Bool
  sop : Bool
  eop : Bool
  poison : Bool
deriving DecidableEq, Repr

/-- A stream queue (06 R183, R184, R188): its five counters modulo 2³², the words from RL to WR − 1, the open packet
(its length and the words pushed), whether the producer has a rewind to learn of, the tail cells, and the head chain: copies of the
committed words from RD on, at most 16, stage 0 first, each with its sideband and the poison with which it was loaded. -/
structure SQueue where
  wr : BitVec 32
  cm : BitVec 32
  rd : BitVec 32
  mark : BitVec 32
  rl : BitVec 32
  words : List QWord
  openN : Option Nat
  pushed : Nat
  rewound : Bool
  tail : List Nat
  head : List QWord
deriving DecidableEq, Repr

/-- An empty queue. -/
def SQueue.empty : SQueue :=
  { wr := 0, cm := 0, rd := 0, mark := 0, rl := 0, words := [], openN := none, pushed := 0, rewound := false, tail := [], head := [] }

/-- A frame being received on a packet port (03 R97–R102): its arrival stamp, whether it holds a reservation of 36 cells,
whether it has been discarded already, and the MAX_FRAME in force at its first byte (R124). -/
structure RxFrame where
  stamp : Nat
  reserved : Bool
  discarded : Bool
  maxFrame : Nat
deriving DecidableEq, Repr

/-- One selector of a table key (04 R147): SRC, header code or bit offset, level or width, field index. -/
structure Selector where
  src : Nat
  a : Nat
  b : Nat
  c : Nat
deriving DecidableEq, Repr

/-- An entry of a Canopy table (04 R130, R131). -/
structure TableEntry where
  key : Nat
  mask : Nat
  prio : Nat
  plen : Nat
  acts : List Nat
deriving DecidableEq, Repr

/-- A defined Canopy table of one bank: kind, size, selectors, default action, and entries in insertion order (04 R130–R134). -/
structure CanopyTable where
  kind : Nat
  size : Nat
  sels : List Selector
  dflt : List Nat
  entries : List TableEntry
deriving DecidableEq, Repr

/-- The answer of a flow lookup (05 R156, 07 R202): hit, bucket, slot, GEN, CTX, rule-state word, LAST_HIT before the refresh,
and the flow ordinal. -/
structure FlowAns where
  hit : Bool
  bucket : Nat
  slot : Nat
  gen : Nat
  ctx : Nat
  state : Nat
  lastHit : Nat
  ordinal : Nat
deriving DecidableEq, Repr

/-- Where a packet stands on its path (01 R39). -/
inductive PktStage where
  | committed
  | accepted
  | keyed
  | parked
  | passOne
  | toGrove
  | inGrove
  | toDispatch
  | held
  | released
  | passTwo
  | toEgress
  | mirror (port : Nat) (trunc : Nat)
deriving DecidableEq, Repr

/-- The frame as left by the header edits so far (04 R141): its bytes, its present headers (code 0 is the shim), its net
growth, the number of edits, whether a shim of the module's own stands in it, and whether this pass has still to fill it. -/
structure EditView where
  work : Bytes
  spans : List HdrEntry
  growth : Int
  edits : Nat
  shimPushed : Bool
  shimFill : Bool
deriving DecidableEq, Repr

/-- What the packet sampled on entry to Grove (07 R201). -/
structure GroveSample where
  route : Nat
  phases : Nat
  ms : Nat
deriving DecidableEq, Repr

/-- A packet in the module, or a mirror copy of one (`grp` names the packet whose cells it shares, 04 R143). -/
structure Packet where
  grp : Nat
  turn : Nat
  lport : Nat
  bytes : Bytes
  stamp : Nat
  cells : List Nat
  stage : PktStage
  prs : Option ParseRec
  lookup : Option FlowAns
  keyCand : Nat × Nat
  prefetched : Bool
  metaw : BitVec 256
  view : Option EditView
  active : Nat
  pinned : Bool
  shimType : Nat
  mirrors : List Nat
  egressMap : Nat
  svcMode : Nat
  dl1 : Nat
  dl2 : Nat
  service : Nat
  passMode : Bool
  sample : Option GroveSample
  outputs : List (Option (List Nat))
  hold : Option Nat
  escalated : Bool
  waited : Bool
  badFcs : Bool
deriving DecidableEq, Repr

/-- A hold entry (15 R426): the packet, the deadline D, and whether it waits on Tier 2. -/
structure HoldEntry where
  pkt : Nat
  deadline : Nat
  tier2 : Bool
deriving DecidableEq, Repr

/-- The tag of a flow-context cache frame (15 R440). -/
inductive FrameTag where
  | flow (pipe bucket slot gen : Nat)
  | initial (model : Nat)
deriving DecidableEq, Repr

/-- A frame of the flow-context cache (15 R440): its tag, pin count, dirtiness, last use for eviction, and the HBM
address of its page. Its bytes, and their poison, stand in the staging partition. -/
structure CtxFrame where
  tag : FrameTag
  pins : Nat
  dirty : Bool
  lastUse : Nat
  ctx : Nat
deriving DecidableEq, Repr

/-- A prefetch in flight (03 R118–R122). -/
structure Prefetch where
  tag : FrameTag
  addr : Nat
deriving DecidableEq, Repr

/-- A notification record of the flow engine waiting for room (05 R161). -/
structure FlowNote where
  body : Bytes
deriving DecidableEq, Repr

/-- A bucket line of a flow cache (05 R152, R158): its 256 bytes, and whether a hit refresh in it has still to reach HBM. -/
structure FlowLine where
  bytes : Bytes
  dirty : Bool
deriving DecidableEq, Repr

/-- A bucket lock (05 R163): its token, when it was taken, and its lease. -/
structure BucketLock where
  token : Nat
  taken : Nat
  lease : Nat
deriving DecidableEq, Repr

/-- What a flow DMA operation answered (05 "Flow DMA operations"): 0 OK, 1 BUSY, 2 REFUSED; the token; the bucket bytes. -/
structure DmaResult where
  code : Nat
  token : Nat
  data : Bytes
deriving DecidableEq, Repr

/-- An ensemble slot's descriptor (07 R209). FP32 values are held as their 32 bits. -/
structure GroveDesc where
  modelId : Nat
  mode : Nat
  outputs : Nat
  nfeat : Nat
  ntrees : Nat
  errClass : Nat
  escMask : Nat
  scale : Nat
  cut : List Nat
  base : List Nat
  classVal : List Nat
  feats : List Bytes
deriving DecidableEq, Repr

/-- One partition of a loaded slot in its slice: where its nodes, its side-set words and its directory entries lie
(07 R195, R196, R211). -/
structure GrovePart where
  nodeAt : Nat
  nodes : Nat
  sideAt : Nat
  side : Nat
  dirAt : List Nat
deriving DecidableEq, Repr

/-- An ensemble slot (07 R194, R211–R213). -/
structure GroveSlot where
  desc : GroveDesc
  parts : List GrovePart
  image : Nat
  section_ : Nat
  draining : Bool
deriving DecidableEq, Repr

/-- A packet whose token the dispatcher has still to build (15 R433, R435): the packet as Grove left it, its hold entry, and the handle
that it was given (R426). -/
structure TokenReq where
  pkt : Nat
  snap : Packet
  hold : Option Nat
  handle : Nat
deriving DecidableEq, Repr

/-- An escalation of a flow to Tier 3 that waits or runs (15 R449); a held one waits until a change of the Tier 3 mode has taken effect
(01 R56). -/
structure Escalation where
  pipe : Nat
  bucket : Nat
  slot : Nat
  gen : Nat
  lport : Nat
  stamp : Nat
  held : Bool
deriving DecidableEq, Repr

/-- The active Tier 3 model (15 R450–R453): image, section, whether it is placed for Apex, and the chunk count and the mesh axes that a
sharded image declares (16 R474). -/
structure Tier3Model where
  image : Nat
  section_ : Nat
  modelId : Nat
  apex : Bool
  shard : Option (Nat × Nat)
deriving DecidableEq, Repr

/-- Tending (15 R456–R458): whether a Tending section is active, whether a boundary is armed, the Tier 2 phase, and the last
boundary that passed: its stamp and what it flipped. -/
structure Tending where
  active : Bool
  pending : Bool
  t2Phase : Bool
  lastAt : Nat
  lastGrv : Nat
  lastT2 : Bool
  slots : Nat
deriving DecidableEq, Repr

/-- A Tier 2 model as a set holds it (15 R433): its image, model ID, feature map, MISS value and ERR_CLASS, and the address of its
initial page. -/
structure Tier2Model where
  image : Nat
  modelId : Nat
  feats : List Bytes
  missVal : Nat
  errClass : Nat
  initPage : Nat
deriving DecidableEq, Repr

end Sys2Proof.Machine
end

