-- ==== Sys2Proof/Machine/State.lean ====
section
/-!
DEFINITION. The state of the module: every register, buffer, table, queue, counter, mode and pin that the spec gives it, as
plain data, and the queue of commands that are waiting.
-/

namespace Sys2Proof.Machine

/-- Why the machine stops: no meaning of this model answers with a fault. The type has one constructor so that it is not
empty; nothing raises it (safe). -/
inductive Fault where
  /-- Raised by nobody (safe). -/
  | none_
deriving DecidableEq, Repr

/-- Why a command has no meaning. -/
inductive Refusal where
  /-- Raised by `exec` for a row of the table that is not modelled yet (safe). -/
  | notModelled (mnemonic : String)
deriving DecidableEq, Repr

/-- The command transport engine and the device state (02). `faultDue` is a fatal fault that a block has raised in the step under
way; the step takes it before it ends (R78, R80); `resetDue` is the clock
tick at which the completion of a RESET left, and `resetOut` the port whose link it waits for; `openFails` are the clock ticks of the
AUTH_FAIL completions of opens (R73), `openMuted` says that they are suppressed; `begun` numbers the commands that have begun; `inCells`
lists the cells of the inbound half that each command frame holds until it completes (R65). -/
structure Gct where
  dev : DevState
  prior : Option DevState
  cause : Nat
  sessions : FMap Session
  anon : List ExecCmd
  openFails : List Nat
  openMuted : Bool
  begun : Nat
  slots : FMap ResultSlot
  slotGen : FMap Nat
  releases : List Nat
  subs : List Subscription
  recq : FMap (List PushRecord)
  stateWait : List PushRecord
  outbound : List OutFrame
  inCells : List (CmdFrame × List Nat)
  modes : Modes
  resetDue : Option Nat
  resetOut : Option PortId
  stopped : Bool
  faultDue : Option Nat
deriving DecidableEq, Repr

/-- The packet ports and command ports (03, 02 R600): link and error-rate bits, the enable in force per logical port,
and frames in reception. -/
structure Ports where
  link : Nat
  hiSer : Nat
  enabled : Nat
  cmdLink : Nat
  rx : FMap RxFrame
  nextPort : FMap Nat
  held : FMap Nat
deriving DecidableEq, Repr

/-- Heartwood and the stream queues (06). `waiting` lists the OPENs that Crown cores wait with under WAIT: queue, n, core. -/
structure Heart where
  links : FMap CellLink
  lastBank : FMap Nat
  queues : FMap SQueue
  waiting : List (Nat × Nat × Nat)
deriving DecidableEq, Repr

/-- The packets in the module and the Canopy pipeline (03, 04); `turns` numbers the comings of packets to their stages. -/
structure Canopy where
  pkts : FMap Packet
  nextPkt : Nat
  turns : Nat
  tables : FMap CanopyTable
  active : Nat
deriving DecidableEq, Repr

/-- The flow tables (05): entries and digests stand in HBM memory; the flow caches hold bucket lines by 2²¹ × table + bucket, and the ordinal
caches words by 2²³ × table + 4 × bucket + slot (07 R202). -/
structure Flow where
  cache : FMap FlowLine
  ords : FMap Nat
  results : FMap DmaResult
  locks : FMap BucketLock
  tokens : FMap Nat
  errors : FMap (List Nat)
  filter : FMap (List (Bytes × Nat))
  notes : FMap (List FlowNote)
  entries : FMap Nat
deriving DecidableEq, Repr

/-- Grove (07). -/
structure Grove where
  slots : FMap GroveSlot
  phases : Nat
  nodes : FMap (BitVec 128)
  side : FMap (BitVec 64)
  dirs : FMap (BitVec 64)
  bad : FMap Bool
deriving DecidableEq, Repr

/-- Hold tables, the flow-context cache, Tier 2 sets and Tending (15). -/
structure Tiers where
  holds : FMap HoldEntry
  holdGen : FMap Nat
  delivered : FMap (List Nat)
  frames : FMap CtxFrame
  prefetches : FMap (List Prefetch)
  useCount : Nat
  models : FMap Tier2Model
  drops : FMap Nat
  gated : FMap Bool
  tokenWait : FMap (List TokenReq)
  tier3 : Option Tier3Model
  tend : Tending
  escal : List Escalation
deriving DecidableEq, Repr

/-- A scrub engine (06 R181; 07 R215; 08 R226; 14 R422): the clock tick at which its present period began, the value of its register that
holds in this period, and whether its pass of the period has been made. -/
structure Scrub where
  since : Nat
  val : Nat
  done : Bool
deriving DecidableEq, Repr

/-- The state of the module. `upsets` lists the granules of 32 bytes of Heartwood, Ring stores and HBM whose stored bits have been upset and
that nothing has read since: 1 an error that the check code corrects, 2 one that it only detects. `scrubs` lists the scrub engines that have
begun a period since reset: 0 Heartwood, 1 Grove, 16 + stack, 2,048 + core. -/
structure State where
  clock : Nat
  idleClock : Nat
  freeCount : Nat
  regs : FMap Word
  mem : FMap Byte
  memPoison : FMap Bool
  upsets : FMap Nat
  scrubs : FMap Scrub
  gct : Gct
  ports : Ports
  heart : Heart
  canopy : Canopy
  flow : Flow
  grove : Grove
  tiers : Tiers
  facet : Facet
  span : Span
  obs : Obs
  compass : Compass
  crown : Crown
  flash : Flash
  trust : Trust
  pwr : Pwr
  sent : List Sent
  pending : List Instr
deriving DecidableEq, Repr

/-! ### The module right after reset -/

/-- The secure store of a module that nobody has claimed, and the trust block before its first boot (19 "Secure store contents"). -/
def Trust.reset : Trust :=
  { root := none, gens := [], ens := 0, opens := [], signers := [], signerEn := 0, minSvn := 0, bootSlot := 0, boots := 0, staging := [],
    chain := List.replicate 32 0, nextSeq := 0, runSlot := 0, fallback := false, cfgSrc := 0, fwVersion := 0, runSvn := 0,
    cfgVersion := 0, factory := false, quotes := [], quoteCount := 0, sums := [], sumsAt := 0 }

/-- The flash store as manufactured: firmware in slot FW_A, everything else empty, the byte bucket full (18). -/
def Flash.reset : Flash :=
  let fw : Stage := { total := Config.factoryFirmware.length, data := Config.factoryFirmware, used := false, complete := true }
  { fw := [(0, fw)], images := [], stages := [], snap := [], cap := [], badSectors := [], head := 0, tail := 0, buf := [],
    bucket := 20000000000000, bucketAt := 0, lost := 0, rebuild := none, rebuilt := 0, degraded := false, degradedAt := 0, worn := false, spent := false,
    wear := 0, written := [], cfg := [], retired := [], hbmRetired := [], audit := [], media := [] }

/-- Power and pins of a module that has just left POWERED (23). -/
def Pwr.reset : Pwr :=
  { pgoodIn := true, rails := true, releaseAt := 0, resetN := true, mv := 52000, ca := 100, dw := 520, temps := [], throttled := 0,
    capGate := false, hotSince := [], hotRest := 0, boundary := 0, tapIr := 0xFF, ssc := true }

/-- The command transport after reset (02 R73, R77): SECURE_BOOT, no session, no slot, generation 0 everywhere. -/
def Gct.reset : Gct :=
  { dev := .secureBoot, prior := none, cause := 0, sessions := [], anon := [], openFails := [], openMuted := false, begun := 0, slots := [],
    slotGen := [], releases := [], subs := [], recq := [], stateWait := [], outbound := [], inCells := [], modes := Modes.reset, resetDue := none,
    resetOut := none, stopped := false, faultDue := none }

/-- No link up, no frame in reception, no port enabled yet. -/
def Ports.reset : Ports :=
  { link := 0, hiSer := 0, enabled := 0, cmdLink := 0, rx := [], nextPort := [], held := [] }

/-- Every cell free and every queue empty (06). -/
def Heart.reset : Heart := { links := [], lastBank := [], queues := [], waiting := [] }

/-- No packet, no table, bank A active (04). -/
def Canopy.reset : Canopy := { pkts := [], nextPkt := 0, turns := 0, tables := [], active := 0 }

/-- No entry and no lock (05). -/
def Flow.reset : Flow := { cache := [], ords := [], results := [], locks := [], tokens := [], errors := [], filter := [], notes := [], entries := [] }

/-- No slot loaded (07). -/
def Grove.reset : Grove := { slots := [], phases := 0, nodes := [], side := [], dirs := [], bad := [] }

/-- No Tending section active (15). -/
def Tending.reset : Tending :=
  { active := false, pending := false, t2Phase := false, lastAt := 0, lastGrv := 0, lastT2 := false, slots := 0 }

/-- No hold entry, no frame, no model (15). -/
def Tiers.reset : Tiers :=
  { holds := [], holdGen := [], delivered := [], frames := [], prefetches := [], useCount := 0, models := [], drops := [], gated := [],
    tokenWait := [], tier3 := none, tend := Tending.reset, escal := [] }

/-- No core has a context (08). -/
def Facet.reset : Facet :=
  { cores := [], units := [], rebuildWait := [], rebuilt := [], hotSince := [], hotRest := [], pcErrors := [], marks := [] }

/-- The module right after reset: the state that the Reset columns and 02 R77 give, in SECURE_BOOT, with nothing waiting. -/
def State.reset : State :=
  { clock := 0, idleClock := 0, freeCount := 0, regs := [], mem := [], memPoison := [], upsets := [], scrubs := [], gct := Gct.reset, ports := Ports.reset,
    heart := Heart.reset, canopy := Canopy.reset, flow := Flow.reset, grove := Grove.reset, tiers := Tiers.reset, facet := Facet.reset,
    span := Span.reset, obs := Obs.reset, compass := Compass.reset, crown := Crown.reset, flash := Flash.reset, trust := Trust.reset,
    pwr := Pwr.reset, sent := [], pending := [] }

end Sys2Proof.Machine
end

