-- ==== Sys2Proof/Machine/Ops.lean ====
section
/-!
DEFINITION. The named operations over the state that every family shares: registers and counters, time, free values, physical
memory, Heartwood cells, stream queues, the event ring, state events and pushed records.
-/

namespace Sys2Proof.Machine

/-! ### Registers (00 R21–R25) -/

/-- The register of family `n`, index `i`, of block instance `k`. -/
def mkReg (n : RegName) (i k : Nat) : Reg := { name := n, inst := k, idx := i }

/-- The value a register holds right after module reset. DESIGN CHOICE: log 148. -/
def resetVal (r : Reg) : Word := Config.regReset r.name r.inst r.idx

/-- The stored value of a register. -/
def regGet (s : State) (r : Reg) : Word := (fget? s.regs (regAddr r)).getD (resetVal r)

/-- The state with a register's stored value replaced; a register at its reset value is not listed. -/
def regSet (s : State) (r : Reg) (v : Word) : State :=
  { s with regs := if v = resetVal r then ferase s.regs (regAddr r) else finsert s.regs (regAddr r) v }

/-- The stored value as a number. -/
def regN (s : State) (n : RegName) (i k : Nat) : Nat := (regGet s (mkReg n i k)).toNat

/-- The field of a stored value at bits `[lo + w - 1 : lo]`. -/
def regF (s : State) (n : RegName) (i k lo w : Nat) : Nat := bitsN (regN s n i k) lo w

/-- Stores a number in a register. -/
def regPut (s : State) (n : RegName) (i k v : Nat) : State := regSet s (mkReg n i k) (BitVec.ofNat 64 v)

/-- Replaces one field of a register's stored value. -/
def regPutF (s : State) (n : RegName) (i k lo w v : Nat) : State := regPut s n i k (setBitsN (regN s n i k) lo w v)

/-- Adds to a 48-bit counter that saturates (03 "PRT counters", 02 "GCT counters"). -/
def bumpBy (s : State) (n : RegName) (i k by_ : Nat) : State := regPut s n i k (satAdd 48 (regN s n i k) by_)

/-- Counts one event. -/
def bump (s : State) (n : RegName) (i k : Nat) : State := bumpBy s n i k 1

/-! ### Observation counters (21 R550) -/

/-- The key of a counter: class × 2¹⁶ + index. -/
def ctrKey (cls idx : Nat) : Nat := cls * 65536 + idx

/-- Adds to an observation counter, modulo 2⁶⁴ (R550). -/
def obsAdd (s : State) (cls idx n : Nat) : State :=
  { s with obs := { s.obs with ctr := fmodD 0 s.obs.ctr (ctrKey cls idx) (fun v => (v + n) % 2 ^ 64) } }

/-- Counts corrected errors of a block's own counter and in ERR_CORRECTED. -/
def bumpCe (s : State) (n : RegName) (i k by_ : Nat) : State := obsAdd (bumpBy s n i k by_) 0 0x30 by_

/-- Counts an uncorrectable error of a block's own counter and in ERR_UNCORRECTED. -/
def bumpUe (s : State) (n : RegName) (i k : Nat) : State := obsAdd (bump s n i k) 0 0x31 1

/-! ### Time and free values -/

/-- The arrival-stamp clock: after n ticks of 0.8 ns it holds (4 × n) div 5 (03 R102). DESIGN CHOICE: log 2. -/
def stampNow (s : State) : Nat := (4 * s.clock / 5) % 2 ^ 64

/-- What the arrival-stamp clock held one tick ago. -/
def stampBefore (s : State) : Nat := (4 * (s.clock - 1) / 5) % 2 ^ 64

/-- The module time in ms, 32 bits (05 "CTL word"). DESIGN CHOICE: log 2. -/
def msNow (s : State) : Nat := (stampNow s / 1000000) % 2 ^ 32

/-- The idle clock in ns: the arrival-stamp clock less the time spent in HALTED (02 R79). -/
def idleNs (s : State) : Nat := 4 * s.idleClock / 5

/-- The next free value, `w` bits of it, and the state in which it has been drawn. DESIGN CHOICE: log 18. -/
def freeBits (s : State) (w : Nat) : Nat × State :=
  ((Config.freeValue s.freeCount).toNat % 2 ^ w, { s with freeCount := s.freeCount + 1 })

/-! ### Physical memory (14 R409; 06 R179) -/

/-- The first address of the HBM windows (14 R409). -/
def hbmBase : Nat := 0x100000000000

/-- The populated bytes of a stack window (14 R409). -/
def hbmPopulated : Nat := 0x861C00000

/-- The stack in whose window an address lies (14 R411). -/
def hbmStack (a : Nat) : Nat := (a - hbmBase) / 2 ^ 36

/-- The address lies in a populated offset of a stack window (14 R409, R411). -/
def inHbm (a : Nat) : Bool := decide (hbmBase ≤ a) && decide (hbmStack a < 8) && decide ((a - hbmBase) % 2 ^ 36 < hbmPopulated)

/-- The core in whose Ring store window an address lies (08 R218). -/
def ringCore (a : Nat) : Nat := (a - 0x000200000000) / 0x200000

/-- The address lies in a Ring store window (08 R218). -/
def inRing (a : Nat) : Bool := decide (0x000200000000 ≤ a) && decide (a < 0x000200000000 + 0x200000 * 1280)

/-- The address lies in a Heartwood cell (06 R173, 14 R409). -/
def inHeart (a : Nat) : Bool := decide (0x000100000000 ≤ a) && decide (a < 0x000110000000)

/-- The pseudo-channel of an HBM address (14 R411). -/
def hbmPc (a : Nat) : Nat := bitsN a 8 5 ^^^ bitsN a 13 5

/-- An enabled mirror region of stack `st` holds the offset (14 R416): its SYNCED bit. -/
def mirrorAt (s : State) (st off : Nat) : Option Bool :=
  ((List.range 8).find? (fun r =>
    regF s .hbmMir r st 0 1 == 1 && decide (regF s .hbmMir r st 6 15 ≤ off / 2 ^ 21) &&
      decide (off / 2 ^ 21 < regF s .hbmMir r st 6 15 + regF s .hbmMir r st 21 15))).map (fun r => regF s .hbmMir r st 1 1 == 1)

/-- The mirror state of an address: none outside every enabled region, else SYNCED; the copy lies 2³⁶ bytes above (14 R416). DEDUCED: log 105. -/
def mirrorOf (s : State) (a : Nat) : Option Bool :=
  if inHbm a && hbmStack a % 2 == 0 then mirrorAt s (hbmStack a) ((a - hbmBase) % 2 ^ 36) else none

/-- The address lies in the copy range of an enabled mirror region (14 R410). -/
def inCopyRange (s : State) (a : Nat) : Bool :=
  inHbm a && hbmStack a % 2 == 1 && (mirrorAt s (hbmStack a - 1) ((a - hbmBase) % 2 ^ 36)).isSome

/-- STATE_p of HBM_PC_STATE (14 "HBM registers"). -/
def pcState (s : State) (st p : Nat) : Nat := regF s .hbmPcState 0 st (2 * p) 2

/-- The address lies in a pseudo-channel that is retired without a spare (14 R420). -/
def pcUnmapped (s : State) (a : Nat) : Bool := inHbm a && pcState s (hbmStack a) (hbmPc a) == 3

/-- A granule of 32 bytes is stored with a poison mark or an uncorrectable check code. -/
def granuleMarked (s : State) (g : Nat) : Bool := fgetD false s.memPoison g || fgetD 0 s.upsets g == 2

/-- A read of the granule where it stands fails: it is marked, or its pseudo-channel is unmapped (14 R415, R420). -/
def granuleFailed (s : State) (g : Nat) : Bool := granuleMarked s g || pcUnmapped s (32 * g)

/-- The copy of a mirrored granule can serve its reads (14 R416, R420): its region is in step with the copy, and the copy has not failed.
DEDUCED: log 105. -/
def copyServes (s : State) (g : Nat) : Bool := mirrorOf s (32 * g) == some true && !granuleFailed s (g + 2 ^ 31)

/-- A read of the granule delivers poison (14 R415, R416, R420). -/
def granuleBad (s : State) (g : Nat) : Bool := granuleFailed s g && !copyServes s g

/-- The physical address of Heartwood cell `c` (06 R173). -/
def cellAddr (c : Nat) : Nat := 0x000100000000 + 256 * c

/-- One byte of physical memory as a read delivers it; an unlisted byte reads 0. DESIGN CHOICE: log 8. -/
def memRd (s : State) (a : Nat) : Byte :=
  if granuleFailed s (a / 32) && copyServes s (a / 32) then fgetD 0 s.mem (a + 2 ^ 36) else fgetD 0 s.mem a

/-- `n` bytes of physical memory from `a`. DESIGN CHOICE: log 89. -/
def memBytes (s : State) (a n : Nat) : Bytes := (List.range n).map (fun i => memRd s (a + i))

/-- Writes a byte string into a memory. -/
def memPut (m : FMap Byte) (a : Nat) (bs : Bytes) : FMap Byte :=
  match bs with
  | [] => m
  | b :: t => memPut (fsetD 0 m a b) (a + 1) t

/-- Clears the poison of the granules in a list. DEDUCED: log 103. -/
def clearGranules (p : FMap Bool) (gs : List Nat) : FMap Bool := gs.foldl (fun p g => ferase p g) p

/-- The granules of 32 bytes that the range `[a, a + n)` covers whole (06 R179, 08 R226). -/
def wholeGranules (a n : Nat) : List Nat := rangeFrom (ceilDiv a 32) ((a + n) / 32 - ceilDiv a 32)

/-- The granules of 32 bytes that the range `[a, a + n)` touches. -/
def touchedGranules (a n : Nat) : List Nat := if n = 0 then [] else rangeFrom (a / 32) ((a + n - 1) / 32 - a / 32 + 1)

/-- Clears the upsets of the granules in a list. -/
def clearUpsets (u : FMap Nat) (gs : List Nat) : FMap Nat := gs.foldl (fun p g => ferase p g) u

/-- The granules that the range `[a, a + n)` covers in part. -/
def partGranules (a n : Nat) : List Nat :=
  if n = 0 then []
  else (if a % 32 = 0 then [] else [a / 32]) ++
    (if (a + n) % 32 = 0 ∨ (a % 32 ≠ 0 ∧ a / 32 = (a + n) / 32) then [] else [(a + n) / 32])

/-- Notes an error of an HBM pseudo-channel for the limits of 14 R418: the clock ticks of its uncorrectable errors in the last second, and
its corrected errors by second of 1.25 × 10⁹ ticks. -/
def notePc (s : State) (g : Nat) (ue : Bool) : State :=
  let k := 32 * hbmStack (32 * g) + hbmPc (32 * g)
  let e := fgetD PcErrors.none_ s.facet.pcErrors k
  let now := s.clock / 1250000000
  let e' : PcErrors :=
    if ue then { e with ues := e.ues.filter (fun t => decide (s.clock < t + 1250000000)) ++ [s.clock] }
    else { e with ces := fmodD 0 (e.ces.filter (fun x => decide (now < x.1 + 12))) now (· + 1) }
  { s with facet := { s.facet with pcErrors := fsetD PcErrors.none_ s.facet.pcErrors k e' } }

/-- Counts a corrected error of a granule: of Heartwood (06 R179), of a Ring store (08 R226, 14 R423) or of HBM (14 R415). -/
def countCe (s : State) (g : Nat) : State :=
  let a := 32 * g
  if inRing a then bumpCe (bumpBy s .rngCe 0 0 1) .fctRingCe 0 (ringCore a) 1
  else if inHbm a then notePc (bumpCe s .hbmCe 0 (hbmStack a) 1) g false
  else bumpCe s .hwdEccCe 0 0 1

/-- An access meets what has upset a granule (06 R179; 08 R226; 14 R415): an error that the code corrects is corrected, written back and
counted; one that it only detects leaves the granule marked. -/
def meetUpset (s : State) (g : Nat) : State :=
  match fgetD 0 s.upsets g with
  | 0 => s
  | 1 => countCe { s with upsets := ferase s.upsets g } g
  | _ => { s with upsets := ferase s.upsets g, memPoison := fsetD false s.memPoison g true }

/-- Writes a byte string into one place of the storage: a granule that is written whole loses its poison, one that is written in part
merges with what it holds (06 R179; 08 R226; 14 R415). -/
def storeAt (s : State) (a : Nat) (bs : Bytes) : State :=
  let s1 := (partGranules a bs.length).foldl meetUpset s
  let w := wholeGranules a bs.length
  { s1 with mem := memPut s1.mem a bs, memPoison := clearGranules s1.memPoison w, upsets := clearUpsets s1.upsets w }

/-- Heartwood is written in whole granules; the bytes that the writer does not supply are written as 0 (06 R174). -/
def heartStore (s : State) (a : Nat) (bs : Bytes) : State :=
  let e := a + bs.length
  storeAt s (a - a % 32) (zeros (a % 32) ++ bs ++ zeros ((32 - e % 32) % 32))

/-- A line of a pseudo-channel under rebuild is read or written before the walk has reached it: it counts as rebuilt (14 R419 and
"Coinciding memory events"). -/
def rebuildLine (s : State) (a : Nat) : State :=
  let st := hbmStack a
  let l := a / 256
  if inHbm a && pcState s st (hbmPc a) == 1 && !(fgetD [] s.facet.rebuilt st).contains l then
    bump { s with facet := { s.facet with rebuilt := fmodD [] s.facet.rebuilt st (fun x => x ++ [l]) } } .hbmRebuilt 0 st
  else s

/-- Writes a byte string that lies in one 256-byte line: both copies of a mirrored line, and nothing of a copy that is unmapped
(14 R416, R420). -/
def lineWr (s : State) (a : Nat) (bs : Bytes) : State :=
  if inHeart a then heartStore s a bs
  else
    let s1 := if pcUnmapped s a then s else rebuildLine (storeAt s a bs) a
    if (mirrorOf s a).isSome && !pcUnmapped s (a + 2 ^ 36) then rebuildLine (storeAt s1 (a + 2 ^ 36) bs) (a + 2 ^ 36) else s1

/-- Writes a byte string line by line. -/
def memWrLines (s : State) (a : Nat) (bs : Bytes) (fuel : Nat) : State :=
  match fuel with
  | 0 => s
  | k + 1 =>
    if bs.isEmpty then s
    else
      let n := 256 - a % 256
      memWrLines (lineWr s a (bs.take n)) (a + n) (bs.drop n) k

/-- Counts bytes read or written on an HBM stack (21 HBM_BYTES). -/
def countHbm (s : State) (a n : Nat) : State := if inHbm a then obsAdd s 0 (0x20 + hbmStack a) n else s

/-- Writes a byte string into physical memory. -/
def memWr (s : State) (a : Nat) (bs : Bytes) : State := memWrLines (countHbm s a bs.length) a bs (bs.length / 256 + 2)

/-- Some granule of the range is read as poison. DEDUCED: log 103. -/
def memPoisoned (s : State) (a n : Nat) : Bool := (touchedGranules a n).any (granuleBad s)

/-- Marks a granule as poison in one place. -/
def taintGranule (s : State) (g : Nat) : State := { s with memPoison := fsetD false s.memPoison g true, upsets := ferase s.upsets g }

/-- Poisons every granule that the range touches, in each copy that a write reaches (14 R415, R416, R420). DEDUCED: log 103. -/
def memTaint (s : State) (a n : Nat) : State :=
  (touchedGranules a n).foldl (fun t g =>
    let t1 := if pcUnmapped t (32 * g) then t else taintGranule t g
    if (mirrorOf t (32 * g)).isSome && !pcUnmapped t (32 * g + 2 ^ 36) then taintGranule t1 (g + 2 ^ 31) else t1) s

/-- Counts an uncorrectable error of a Ring store granule (08 R226, 14 R423). -/
def countRingUe (s : State) (g : Nat) : State :=
  let c := ringCore (32 * g)
  let s1 := bumpUe (bump s .fctRingUe 0 c) .rngUe 0 0
  regPut s1 .rngUeLast 0 0 (c + (g % 65536) * 2 ^ 16 + 2 ^ 32)

/-- Counts an uncorrectable error that a read of the granule meets (06 R179; 08 R226; 14 R415). -/
def countUe (s : State) (g : Nat) : State :=
  if inRing (32 * g) then countRingUe s g
  else if inHbm (32 * g) then notePc (bumpUe s .hbmUe 0 (hbmStack (32 * g))) g true
  else bumpUe s .hwdEccUe 0 0

/-- What reading a granule does beside delivering it: an upset is met; where the granule has failed, the copy of a mirrored line serves it
and the primary is rewritten (14 R416), unless it is unmapped (R420); else the error is counted. -/
def touchGranule (s : State) (g : Nat) : State :=
  let s1 := meetUpset s g
  if !granuleFailed s1 g then s1
  else
    let s2 := if mirrorOf s1 (32 * g) == some true then meetUpset s1 (g + 2 ^ 31) else s1
    let dead := pcUnmapped s2 (32 * g)
    if !copyServes s2 g then (if dead && mirrorOf s2 (32 * g) != some true then s2 else countUe s2 g)
    else if dead then s2
    else bump (storeAt (notePc s2 g true) (32 * g) (memBytes s2 (32 * g) 32)) .hbmMirFix 0 (hbmStack (32 * g))

/-- The side effects of reading a range. -/
def memTouch (s : State) (a n : Nat) : State :=
  let gs := touchedGranules a n
  let s1 := gs.foldl touchGranule (countHbm s a n)
  ((gs.map (fun g => g / 8)).dedup).foldl (fun t l => rebuildLine t (256 * l)) s1

/-- A read: the bytes, whether poison came with them, and the state after it. DESIGN CHOICE: log 89. -/
def busRead (s : State) (a n : Nat) : Bytes × Bool × State := (memBytes s a n, memPoisoned s a n, memTouch s a n)

/-- A write of clean or poisoned data (08 R222, 14 R415). DESIGN CHOICE: log 89. -/
def busWrite (s : State) (a : Nat) (bs : Bytes) (poison : Bool) : State :=
  let s1 := memWr s a bs
  if poison && !bs.isEmpty then
    let s2 := memTaint s1 a bs.length
    if inHbm a then bumpBy s2 .hbmPoisonWr 0 (hbmStack a) (touchedGranules a bs.length).length else s2
  else s1

/-- The ticks of a stack's time in throttling that HBM_THROTTLE_US has not counted (14 R421). -/
def heatTicks (s : State) (st : Nat) : Nat :=
  fgetD 0 s.facet.hotRest st + (match fget? s.facet.hotSince st with | some t => s.clock - t | none => 0)

/-- HBM_THROTTLE_US of a stack as it reads now: microseconds of 1,250 ticks (14 R421). -/
def heatUs (s : State) (st : Nat) : Nat := satAdd 48 (regN s .hbmThrottleUs 0 st) (heatTicks s st / 1250)

/-- A stack's time in throttling is counted up to now, and the ticks of an unfinished microsecond are kept. -/
def heatSettle (s : State) (st : Nat) : State :=
  let s1 := regPut s .hbmThrottleUs 0 st (heatUs s st)
  { s1 with facet := { s1.facet with
    hotRest := fsetD 0 s1.facet.hotRest st (heatTicks s st % 1250)
    hotSince := fmod s1.facet.hotSince st (fun _ => s.clock) } }

/-- The ticks that Limbs have been throttled and PWR_THROTTLE_US has not counted (23 R595). DEDUCED: log 140. -/
def throttleTicks (s : State) : Nat := s.pwr.hotSince.foldl (fun a e => a + (s.clock - e.2)) s.pwr.hotRest

/-- PWR_THROTTLE_US as it reads now: microseconds of 1,250 ticks. -/
def throttleUs (s : State) : Nat := satAdd 48 (regN s .pwrThrottleUs 0 0) (throttleTicks s / 1250)

/-- The Limbs' time in throttling is counted up to now, and the ticks of an unfinished microsecond are kept. -/
def throttleSettle (s : State) : State :=
  let s1 := regPut s .pwrThrottleUs 0 0 (throttleUs s)
  { s1 with pwr := { s1.pwr with
    hotRest := throttleTicks s % 1250
    hotSince := s1.pwr.hotSince.map (fun e => (e.1, s.clock)) } }

/-! ### Scrub engines (06 R181, 07 R215, 08 R226, 14 R422) -/

/-- Milliseconds as ticks of 0.8 ns. -/
def msTicks (n : Nat) : Nat := 1250000 * n

/-- A scrub engine makes its pass of the present period: the setting in force, where the pass is still due, and the state after it. The first
period has the setting of reset; a period that has passed gives way to the next, which takes the setting as it stands.
DESIGN CHOICE: log 156. -/
def scrubPassOf (s : State) (key first now : Nat) (ticks : Nat → Nat) : Option Nat × State :=
  let x := (fget? s.scrubs key).getD { since := 0, val := first, done := false }
  let y : Scrub := if x.since + ticks x.val ≤ s.idleClock then { since := s.idleClock, val := now, done := false } else x
  (if y.done then none else some y.val, { s with scrubs := finsert s.scrubs key { y with done := true } })

/-- The pass of a scrub engine whose setting is one register. -/
def scrubPass (s : State) (key : Nat) (r : Reg) (ticks : Nat → Nat) : Option Nat × State :=
  scrubPassOf s key (resetVal r).toNat (regGet s r).toNat ticks

/-- Upsets of granules: `ce` with an error that the check code corrects, `ue` with one that it only detects. -/
def upsetGranules (s : State) (ce ue : List Nat) : State :=
  let u1 := ce.foldl (fun u g => if fgetD 0 u g = 2 then u else finsert u g 1) s.upsets
  { s with upsets := ue.foldl (fun u g => finsert u g 2) u1 }

/-- The granules in which a read meets an error and that `p` holds of. -/
def faultyGranules (s : State) (p : Nat → Bool) : List Nat :=
  ((s.upsets.map Prod.fst ++ s.memPoison.map Prod.fst).filter p).dedup

/-! ### Heartwood partitions and cells (06 R173–R176) -/

/-- The first cell of the queue-tail partition. -/
def tailFirst : Nat := 69888

/-- The cells of the queue-tail partition (06 HWD_POOL). -/
def tailSize (s : State) : Nat := 256 * regF s .hwdPool 0 0 0 12

/-- The first cell of the tensor staging partition. -/
def stageFirst (s : State) : Nat := tailFirst + tailSize s

/-- The cells of the tensor staging partition. -/
def stageSize (s : State) : Nat := 256 * regF s .hwdPool 0 0 16 12

/-- The first cell of the trace partition. -/
def traceFirst (s : State) : Nat := stageFirst s + stageSize s

/-- The cells of the trace partition. -/
def traceSize (s : State) : Nat := 256 * regF s .hwdPool 0 0 32 10

/-- The first cell of the data pool. -/
def poolFirst (s : State) : Nat := traceFirst s + traceSize s

/-- The cells of the data pool (06 "Heartwood partitions"). -/
def poolSize (s : State) : Nat := 1048576 - poolFirst s

/-- The cells in use of a class (06 "Cell link word"). -/
def cellsOfClass (s : State) (cls : Nat) : Nat := (s.heart.links.filter (fun e => e.2.cls == cls)).length

/-- The lowest free cell of a bank from `c` up to `hi`, in steps of 64. DESIGN CHOICE: log 68. -/
def freeCellFrom (links : FMap CellLink) (hi c : Nat) (fuel : Nat) : Option Nat :=
  match fuel with
  | 0 => none
  | k + 1 =>
    if hi ≤ c then none
    else if (fgetD CellLink.free links c).cls = 0 then some c else freeCellFrom links hi (c + 64) k

/-- The lowest free cell of `[lo, hi)` in the first bank from `bank` on that has one (06 R175). DESIGN CHOICE: log 68. -/
def freeCell (links : FMap CellLink) (lo hi bank : Nat) (fuel : Nat) : Option Nat :=
  match fuel with
  | 0 => none
  | k + 1 =>
    match freeCellFrom links hi (lo + (bank + 64 - lo % 64) % 64) ((hi - lo) / 64 + 1) with
    | some c => some c
    | none => freeCell links lo hi ((bank + 1) % 64) k

/-- Takes `n` cells of a class in rising bank order (06 R175), as many as there are; the cells stand in allocation order. DESIGN CHOICE: log 68. -/
def takeCells (links : FMap CellLink) (lo hi bank cls : Nat) (n : Nat) : List Nat × FMap CellLink :=
  match n with
  | 0 => ([], links)
  | k + 1 =>
    match freeCell links lo hi bank 64 with
    | none => ([], links)
    | some c =>
      let l := finsert links c { next := 0, last := true, fill := 256, cls := cls }
      let r := takeCells l lo hi ((c + 1) % 64) cls k
      (c :: r.1, r.2)

/-- Links a chain of cells that holds `len` bytes (06 R176). -/
def chainCells (links : FMap CellLink) (cells : List Nat) (len : Nat) : FMap CellLink :=
  match cells with
  | [] => links
  | c :: t =>
    let old := fgetD CellLink.free links c
    let new := { old with next := t.headD 0, last := t.isEmpty, fill := if t.isEmpty then (len - 1) % 256 + 1 else 256 }
    chainCells (finsert links c new) t (len - 256)

/-- Returns cells to their free lists (06 R175). -/
def freeCells (s : State) (cells : List Nat) : State :=
  { s with heart := { s.heart with links := cells.foldl (fun l c => ferase l c) s.heart.links } }

/-- The granules of a cell. -/
def cellGranules (c : Nat) : List Nat := rangeFrom (cellAddr c / 32) 8

/-- Some granule of a cell in the list holds an uncorrectable error (06 R180). -/
def cellsFail (s : State) (cells : List Nat) : Bool := cells.any (fun c => (cellGranules c).any (granuleMarked s))

/-- The cells in the list are read: what their granules hold is met (06 R179). -/
def readCells (s : State) (cells : List Nat) : State :=
  if s.upsets.isEmpty && s.memPoison.isEmpty then s else cells.foldl (fun t c => (cellGranules c).foldl touchGranule t) s

/-- `len` bytes are written into a chain of cells: each granule that they reach is written whole (06 R174, R179). -/
def writeCells (s : State) (cells : List Nat) (len : Nat) : State :=
  let gs := (cells.flatMap cellGranules).take (ceilDiv len 32)
  { s with memPoison := clearGranules s.memPoison gs, upsets := clearUpsets s.upsets gs }

/-- Takes the cells of a frame of `len` bytes in `[lo, hi)` of the control slice for the requester whose last bank has key `who`, links them
and writes them (06 R174–R176). DESIGN CHOICE: log 68. -/
def takeSlice (s : State) (lo hi who len : Nat) : List Nat × State :=
  let bank := fgetD 0 s.heart.lastBank who
  let got := takeCells s.heart.links lo hi bank 1 (ceilDiv len 256)
  let bank' := match got.1.getLast? with
    | some c => (c + 1) % 64
    | none => bank
  let s1 := { s with heart := { s.heart with
    links := chainCells got.2 got.1 len, lastBank := fsetD 0 s.heart.lastBank who bank' } }
  (got.1, writeCells s1 got.1 len)

/-! ### Stream queues (06 R182–R192) -/

/-- The queue `q`. -/
def queueGet (s : State) (q : Nat) : SQueue := fgetD SQueue.empty s.heart.queues q

/-- The state with queue `q` replaced. -/
def queueSet (s : State) (q : Nat) (v : SQueue) : State :=
  { s with heart := { s.heart with queues := fsetD SQueue.empty s.heart.queues q v } }

/-- SQ_CFG_q.ENABLE. -/
def queueEnabled (s : State) (q : Nat) : Bool := regF s .sqCfg q 0 0 1 == 1

/-- The producer that SQ_BIND_q names, as kind and ID. -/
def queueProducer (s : State) (q : Nat) : Nat × Nat := (regF s .sqBind q 0 0 4, regF s .sqBind q 0 8 16)

/-- The consumer that SQ_BIND_q names, as kind and ID. -/
def queueConsumer (s : State) (q : Nat) : Nat × Nat := (regF s .sqBind q 0 24 4, regF s .sqBind q 0 32 16)

/-- Even parity over DATA (06 "Queue word"). -/
def parityOf (d : BitVec 128) : Bool := (List.range 128).foldl (fun p i => p != d.getLsbD i) false

/-- A queue word of good parity. -/
def mkWord (d : BitVec 128) (poison : Bool) : QWord := { data := d, par := parityOf d, sop := false, eop := false, poison := poison }

/-- The tail cells that a queue holds for the words from RL to WR − 1 (06 R183): a cell is held until all 16 of its word
positions have been written and released. -/
def tailCells (wr rl : Nat) : Nat := ceilDiv wr 16 - rl / 16

/-- WR − RL as a number. -/
def SQueue.occupied (q : SQueue) : Nat := (q.wr - q.rl).toNat

/-- The tail cells for `occ` words that begin at position `rl`. -/
def tailNeed (rl : BitVec 32) (occ : Nat) : Nat := tailCells (rl.toNat % 16 + occ) (rl.toNat % 16)

/-- Frees or takes tail cells so that the queue holds exactly those its words need (06 R175, R183). -/
def queueFit (s : State) (q : Nat) (v : SQueue) (drop : Nat) : State :=
  let need := tailNeed v.rl v.occupied
  let kept := v.tail.drop drop
  let s1 := freeCells s (v.tail.take drop)
  if kept.length < need then
    let bank := match kept.getLast? with
      | some c => (c + 1) % 64
      | none => fgetD 0 s1.heart.lastBank q
    let got := takeCells s1.heart.links tailFirst (tailFirst + tailSize s) bank 3 (need - kept.length)
    queueSet { s1 with heart := { s1.heart with links := got.2 } } q { v with tail := kept ++ got.1 }
  else
    let s2 := freeCells s1 (kept.drop need)
    let s3 := match v.tail.getLast? with
      | some c => { s2 with heart := { s2.heart with lastBank := fsetD 0 s2.heart.lastBank q ((c + 1) % 64) } }
      | none => s2
    queueSet s3 q { v with tail := kept.take need }

/-- The words of an open packet that are still to be pushed. -/
def SQueue.toPush (q : SQueue) : Nat := (q.openN.getD 0) - q.pushed

/-- The tail cells that the open packets of all queues have still to take (06 R184: an OPEN that finds room has its room). -/
def tailPromised (s : State) : Nat :=
  s.heart.queues.foldl (fun a e => a + (tailNeed e.2.rl (e.2.occupied + e.2.toPush) - e.2.tail.length)) 0

/-- Room for an OPEN of `n` words (06 "Producer operations"): the tail limit, and the cells of the queue-tail partition that no queue holds
and no open packet has been promised. DESIGN CHOICE: log 84. -/
def queueRoom (s : State) (q n : Nat) : Bool :=
  let v := queueGet s q
  decide (v.occupied + n ≤ 16 * regF s .sqCfg q 0 4 13) &&
    decide (tailNeed v.rl (v.occupied + n) - v.tail.length ≤ tailSize s - cellsOfClass s 3 - tailPromised s)

/-- What a queue operation answers (09 R292). -/
inductive QRes where
  | ok | empty | refused | full | rewound
deriving DecidableEq, Repr

/-- The status code of an answer (09 "Queue status word"). -/
def QRes.code (r : QRes) : Nat :=
  match r with
  | .ok => 0 | .empty => 1 | .refused => 2 | .full => 3 | .rewound => 4

/-- Rewinds the open packet (06 R186): WR := CM, the packet's words vanish, and the event is counted. `learn` marks a rewind
that the producer has still to learn of. -/
def queueRewindPacket (s : State) (q : Nat) (learn counted : Bool) : State :=
  let v := queueGet s q
  if v.openN.isSome then
    let keep := (v.cm - v.rl).toNat
    let v' := { v with wr := v.cm, words := v.words.take keep, openN := none, pushed := 0, rewound := learn }
    let s1 := queueFit s q v' 0
    if counted then bump s1 .sqRewound 0 0 else s1
  else s

/-- OPEN(n, policy) (06 R184). The answer `full` under WAIT means that the producer waits. DESIGN CHOICE: log 84. -/
def queueOpen (s : State) (q n : Nat) (discard : Bool) : QRes × State :=
  if !queueEnabled s q then (.rewound, s)
  else if queueRoom s q n then
    let v := queueGet s q
    (.ok, queueSet s q { v with openN := some n, pushed := 0, rewound := false })
  else if discard then (.full, bump s .sqFullDrop 0 0)
  else (.full, s)

/-- The granule of the tail that holds the word at position `p` of a queue: two words to a granule. -/
def tailGranule (v : SQueue) (p : BitVec 32) : Option Nat :=
  (v.tail[(v.rl.toNat % 16 + (p - v.rl).toNat) / 16]?).map (fun c => cellAddr c / 32 + p.toNat % 16 / 2)

/-- The word last pushed to a queue has been written: the first word of a granule writes it whole (06 R174, R179). DEDUCED: log 83. -/
def pushedGranule (s : State) (q : Nat) : State :=
  let v := queueGet s q
  let p := v.wr - 1
  if p.toNat % 2 = 1 then s
  else match tailGranule v p with
    | some g => { s with memPoison := ferase s.memPoison g, upsets := ferase s.upsets g }
    | none => s

/-- PUSH(word) (06 R184, R186): a word that fails its parity check, or a push beyond n words, rewinds the packet. DESIGN CHOICE: log 84. -/
def queuePush (s : State) (q : Nat) (w : QWord) : QRes × State :=
  let v := queueGet s q
  if !queueEnabled s q then (.rewound, s)
  else if v.rewound then (.rewound, queueSet s q { v with rewound := false })
  else match v.openN with
    | none => (.refused, s)
    | some n =>
      if v.pushed = n then (.rewound, queueRewindPacket s q false true)
      else if w.par != parityOf w.data then (.ok, queueRewindPacket s q true true)
      else
        let w' := { w with sop := v.pushed == 0, eop := v.pushed + 1 == n }
        (.ok, pushedGranule (queueFit s q { v with wr := v.wr + 1, words := v.words ++ [w'], pushed := v.pushed + 1 } 0) q)

/-- COMMIT (06 R184, R185, R188): legal after the n-th push; a COMMIT before it is refused. Words that directly follow the last word in the
head go into its free stages from the producer's path. DESIGN CHOICE: log 84. -/
def queueCommit (s : State) (q : Nat) : QRes × State :=
  let v := queueGet s q
  if !queueEnabled s q then (.rewound, s)
  else if v.rewound then (.rewound, queueSet s q { v with rewound := false })
  else match v.openN with
    | none => (.refused, s)
    | some n =>
      if v.pushed = n then
        let fresh := v.words.drop (v.cm - v.rl).toNat
        let room := if (v.cm - v.rd).toNat = v.head.length then 16 - v.head.length else 0
        (.ok, queueSet s q { v with cm := v.wr, openN := none, pushed := 0, head := v.head ++ fresh.take room })
      else (.refused, s)

/-- ABORT (06 R184). -/
def queueAbort (s : State) (q : Nat) : QRes × State :=
  let v := queueGet s q
  if !queueEnabled s q then (.rewound, s)
  else if v.rewound then (.rewound, queueSet s q { v with rewound := false })
  else (.ok, queueRewindPacket s q false true)

/-- Sends a whole packet of words, when there is room (06 R184): OPEN, the pushes and COMMIT. -/
def queueSend (s : State) (q : Nat) (ws : List QWord) (discard : Bool) : QRes × State :=
  match queueOpen s q ws.length discard with
  | (.ok, s1) => queueCommit (ws.foldl (fun t w => (queuePush t q w).2) s1) q
  | r => r

/-- The word at RD, if RD ≠ CM. -/
def queueNext (v : SQueue) : Option QWord := if v.rd = v.cm then none else v.words[(v.rd - v.rl).toNat]?

/-- RD is at a packet boundary (06 R187). -/
def queueAtBoundary (v : SQueue) : Bool :=
  match queueNext v with
  | none => true
  | some w => w.sop

/-- The head takes one more word from the tail, if a stage is free and a committed word follows the last one (06 R188): reading the tail
meets what its granule holds, and a word of a failed granule comes poisoned (06 R189). DEDUCED: log 83. -/
def loadHead (s : State) (q : Nat) : State :=
  let v := queueGet s q
  let p := v.rd + BitVec.ofNat 32 v.head.length
  if 16 ≤ v.head.length || p = v.cm then s
  else match v.words[(p - v.rl).toNat]? with
    | none => s
    | some w =>
      match tailGranule v p with
      | none => queueSet s q { v with head := v.head ++ [w] }
      | some g => queueSet (touchGranule s g) q { v with head := v.head ++ [{ w with poison := w.poison || granuleMarked s g }] }

/-- The head fills from the tail as far as it can (06 R188). -/
def fillHead (s : State) (q n : Nat) : State := (List.range n).foldl (fun t _ => loadHead t q) s

/-- READ (06 R187, R189): the word at head stage 0, with its poison tag, or EMPTY. A delivered poisoned word keeps its stored flag; a
gated queue returns EMPTY (15 R454). DEDUCED: log 83. -/
def queueRead (s : State) (q : Nat) : Option QWord × State :=
  if !queueEnabled s q || fgetD false s.tiers.gated q || (queueNext (queueGet s q)).isNone then (none, s)
  else
    let s0 := if (queueGet s q).head.isEmpty then loadHead s q else s
    let v := queueGet s0 q
    match v.head with
    | [] => (none, s)
    | w :: rest =>
      let w' := { w with poison := w.poison || (w.par != parityOf w.data) }
      let s1 := queueSet s0 q { v with rd := v.rd + 1, head := rest, words := v.words.set (v.rd - v.rl).toNat w' }
      let s2 := loadHead s1 q
      (some w', if w'.poison then bump s2 .sqPoison 0 0 else s2)

/-- MARK (06 R187). -/
def queueMark (s : State) (q : Nat) : QRes × State :=
  let v := queueGet s q
  if queueEnabled s q && queueAtBoundary v then (.ok, queueSet s q { v with mark := v.rd }) else (.refused, s)

/-- REWIND (06 R187, R188): the head is emptied and reloaded from MK. -/
def queueRewind (s : State) (q : Nat) : QRes × State :=
  let v := queueGet s q
  if queueEnabled s q then (.ok, fillHead (queueSet s q { v with rd := v.mark, head := [] }) q 16) else (.refused, s)

/-- The tail cells that leave a queue when its oldest words up to `rl'` are released (06 R183). -/
def tailDrop (v : SQueue) (rl' : BitVec 32) : Nat := (v.rl.toNat % 16 + (rl' - v.rl).toNat) / 16

/-- RELEASE (06 R187): frees words RL to RD − 1. -/
def queueRelease (s : State) (q : Nat) : QRes × State :=
  let v := queueGet s q
  if queueEnabled s q && queueAtBoundary v then
    (.ok, queueFit s q { v with rl := v.rd, mark := v.rd, words := v.words.drop (v.rd - v.rl).toNat } (tailDrop v v.rd))
  else (.refused, s)

/-- FLUSH (06 R192): RD, MK and RL go to CM. -/
def queueFlush (s : State) (q : Nat) : State :=
  let v := queueGet s q
  queueFit s q { v with rd := v.cm, mark := v.cm, rl := v.cm, words := v.words.drop (v.cm - v.rl).toNat, head := [] } (tailDrop v v.cm)

/-- A byte string as queue words of 16 bytes, least significant byte first (06 "Queue word", 00 R18). -/
def bytesToWords (bs : Bytes) : List QWord :=
  (chunks bs 16 (ceilDiv bs.length 16)).map (fun c => mkWord (BitVec.ofNat 128 (leNat c)) false)

/-- Queue words as a byte string. -/
def wordsToBytes (ws : List QWord) : Bytes := ws.flatMap (fun w => leBytes 16 w.data.toNat)

/-! ### The event ring of the Crown cores (17 R487) -/

/-- A Crown event record of 32 bytes: TYPE, then bytes 4–31. -/
def crownRecord (type : Nat) (body : Bytes) : Bytes := padTo (leBytes 2 type ++ zeros 2 ++ body) 32

/-- Writes waiting event records into the ring while it has room (17 R487). -/
def drainEvents (s : State) (fuel : Nat) : State :=
  match fuel, s.crown.evWait with
  | k + 1, (ty, body) :: rest =>
    let wr := regF s .crnEvq 0 0 0 32
    let rd := regF s .crnEvq 0 0 32 32
    if (wr + 2 ^ 32 - rd) % 2 ^ 32 < 4096 then
      let s1 := memWr s (regN s .crnEvqBase 0 0 + 32 * (wr % 4096)) (crownRecord ty body)
      drainEvents { regPutF s1 .crnEvq 0 0 0 32 ((wr + 1) % 2 ^ 32) with crown := { s1.crown with evWait := rest } } k
    else s
  | _, _ => s

/-- Delivers an event to the event ring; a full ring makes it wait, and the wait is counted (17 R487). -/
def crownEvent (s : State) (type : Nat) (body : Bytes) : State :=
  let s1 := drainEvents { s with crown := { s.crown with evWait := s.crown.evWait ++ [(type, body)] } } (s.crown.evWait.length + 1)
  if s1.crown.evWait.isEmpty then s1 else bump s1 .crnEvqWait 0 0

/-! ### Device state, state events and pushed records (02 R77–R80, R92, R602) -/

/-- The code of a device state (02 "Device states"). -/
def DevState.code (d : DevState) : Nat :=
  match d with
  | .powered => 0 | .secureBoot => 1 | .ready => 2 | .serving => 3 | .draining => 4 | .halted => 5 | .faulted => 6 | .maintenance => 7

/-- GCT_STATE (02 "GCT registers"). -/
def gctState (s : State) : Nat :=
  s.gct.dev.code + ((s.gct.prior.map DevState.code).getD 0) * 16 + s.gct.cause * 256

/-- The record queue of a class (02 R602). -/
def recordQueue (s : State) (cls : Nat) : Nat := if cls = 0 then regF s .gctRecq 0 0 0 12 else regF s .gctRecq 0 0 16 12

/-- The record queue of a class is enabled and bound as 02 R602 requires. -/
def recordQueueUsable (s : State) (cls : Nat) : Bool :=
  let q := recordQueue s cls
  queueEnabled s q && (queueConsumer s q == (5, cls))

/-- The subscriptions of a class each number one more record (02 R92); answers the numbers. DEDUCED: log 50. -/
def numberRecord (s : State) (cls : Nat) : List (Nat × Nat) × State :=
  let hit (u : Subscription) : Bool := u.cls == cls
  ((s.gct.subs.filter hit).map (fun u => (u.session, u.count + 1)),
   { s with gct := { s.gct with subs := s.gct.subs.map (fun u => if hit u then { u with count := u.count + 1 } else u) } })

/-- Counts a discarded record of a class (02 R602, 15 R448). DEDUCED: log 50. -/
def discardRecord (s : State) (cls : Nat) : State :=
  let s1 := bump s .sqRecDrop 0 0
  { s1 with gct := { s1.gct with subs := s1.gct.subs.map (fun u => if u.cls == cls then { u with lost := u.lost + 1 } else u) } }

/-- Enters a record into its record queue, if it has room now (02 R602); a verdict record takes the count of the records discarded
since the one before it (15 R448). -/
def enqueueRecord (s : State) (r : PushRecord) : Option State :=
  let q := recordQueue s r.cls
  match queueSend s q (bytesToWords r.body) false with
  | (.ok, s1) =>
    let mine (u : Subscription) : Bool := u.cls == r.cls && r.seqs.any (fun e => e.1 == u.session)
    let r1 := { r with lost := (s1.gct.subs.filter mine).map (fun u => (u.session, u.lost)) }
    some { s1 with gct := { s1.gct with
      recq := fmodD [] s1.gct.recq r.cls (fun l => l ++ [r1]),
      subs := s1.gct.subs.map (fun u => if mine u then { u with lost := 0 } else u) } }
  | _ => none

/-- Generates a record of class 0 or 1 (02 R92, R602): none without a subscription of the class; one that finds its queue
unusable is discarded; a verdict record that finds it full is discarded, and a state event waits. A state event raised while the islands
are stopped does not touch the stopped queue (R79, R598). -/
def pushRecord (s : State) (cls : Nat) (body : Bytes) : State :=
  if s.gct.subs.any (fun u => u.cls == cls) then
    let (seqs, s1) := numberRecord s cls
    let r : PushRecord := { cls := cls, body := body, seqs := seqs, lost := [] }
    if !recordQueueUsable s1 cls then discardRecord s1 cls
    else if cls = 1 && (s1.gct.stopped || !s1.gct.stateWait.isEmpty) then
      { s1 with gct := { s1.gct with stateWait := s1.gct.stateWait ++ [r] } }
    else match enqueueRecord s1 r with
      | some s2 => s2
      | none => if cls = 0 then discardRecord s1 0 else { s1 with gct := { s1.gct with stateWait := s1.gct.stateWait ++ [r] } }
  else s

/-- Enters the state events that wait for room (02 R602). DEDUCED: log 48. -/
def retryStateEvents (s : State) (fuel : Nat) : State :=
  match fuel, s.gct.stateWait with
  | k + 1, r :: rest =>
    let s0 := { s with gct := { s.gct with stateWait := rest } }
    if !recordQueueUsable s 1 then retryStateEvents (discardRecord s0 1) k
    else match enqueueRecord s0 r with
      | some s1 => retryStateEvents s1 k
      | none => s
  | _, _ => s

/-- The state event of a transition: GCT_STATE after it (02 R92). DEDUCED: log 48. -/
def stateEvent (s : State) : State := pushRecord s 1 (beBytes 8 (gctState s))

/-! ### Modes (01 R56, R58) -/

/-- The pending value of a mode. -/
def modePending (m : Modes) (code : Nat) : Option Nat := (m.pending.find? (fun e => e.1 == code)).map Prod.snd

/-- Changes the modes. -/
def modesMod (s : State) (f : Modes → Modes) : State := { s with gct := { s.gct with modes := f s.gct.modes } }

/-- A mode takes a value. -/
def Modes.put (m : Modes) (code v : Nat) : Modes :=
  match code with
  | 2 => { m with scheduling := v }
  | 3 => { m with tier3 := v }
  | 4 => { m with determinism := v }
  | 5 => { m with cap := v }
  | 6 => { m with share := v }
  | _ => m

/-- The pending change of a mode takes effect. -/
def Modes.take (m : Modes) (code : Nat) : Modes :=
  match modePending m code with
  | some v => { m.put code v with pending := m.pending.filter (fun e => e.1 != code) }
  | none => m

/-- Some Tier 3 work is in flight: an escalation waits or runs that no change of the Tier 3 mode holds. -/
def tier3Busy (s : State) : Bool := s.tiers.escal.any (fun e => !e.held)

/-! ### The audit log (19 R531, R532) -/

/-- The code of a role (19 "SESSION_OPEN body"). -/
def Role.code (r : Role) : Nat := match r with | .maker => 1 | .installer => 2 | .operator => 3

/-- An audit record of 64 bytes (19 "Audit record"). -/
def auditRecord (s : State) (rtype role slot status opcode port session count : Nat) (data : Bytes) : Bytes :=
  beBytes 8 s.trust.nextSeq ++ beBytes 8 s.trust.boots ++ beBytes 8 (stampNow s) ++
    [byteOf rtype, byteOf role, byteOf slot, byteOf status] ++ beBytes 2 opcode ++ beBytes 2 port ++ beBytes 4 session ++
    beBytes 4 count ++ padTo data 16 ++ zeros 8

/-- A record enters the staging area and extends the chain value (R532). -/
def auditAdd (s : State) (rec_ : Bytes) : State :=
  let c := sha256 (s.trust.chain ++ rec_)
  { s with trust := { s.trust with
      staging := s.trust.staging ++ [{ bytes := rec_, before := s.trust.chain }], chain := c, nextSeq := (s.trust.nextSeq + 1) % 2 ^ 64 } }

/-- An event of the table "Audit events" with its data. DEDUCED: log 31. -/
def auditEvent (s : State) (event session : Nat) (data : Bytes) : State :=
  auditAdd s (auditRecord s 3 0 0 event 0 0 session 1 data)

/-- The staging area has no room for a record (R532). -/
def auditFull (s : State) : Bool := decide (2048 ≤ s.trust.staging.length)

/-! ### Transitions (02 R78) -/

/-- CRN_APP_a.RUNNING of every loaded application: it starts on entry to READY and stops on entry to HALTED, FAULTED or MAINTENANCE
(17 R491). DEDUCED: log 45. -/
def appsFollow (s : State) (d : DevState) : State :=
  let set (t : State) (a v : Nat) : State := if regF t .crnApp a 0 16 1 = 1 then regPutF t .crnApp a 0 17 1 v else t
  match d with
  | .ready => (List.range 8).foldl (fun t a => set t a 1) s
  | .halted => (List.range 8).foldl (fun t a => set t a 0) s
  | .faulted => (List.range 8).foldl (fun t a => set t a 0) s
  | .maintenance => (List.range 8).foldl (fun t a => set t a 0) s
  | _ => s

/-- A transition of the device state with its state event and its audit record (R78, R92; 19 R531). DEDUCED: log 45. -/
def enterState (s : State) (d : DevState) : State :=
  let s1 := appsFollow { s with gct := { s.gct with dev := d, prior := none } } d
  auditEvent (stateEvent s1) 2 0 (beBytes 8 (gctState s1))

/-- The islands that stop at a cut are stopped (02 R79, R78). -/
def islandsStopped (s : State) : Bool := s.gct.stopped

/-- The logical ports of the present breakout of a physical port (03 "Packet port configurations"). -/
def portsOf (breakout p : Nat) : List Nat :=
  match breakout with
  | 0 => [4 * p]
  | 1 => [4 * p, 4 * p + 2]
  | 2 => [4 * p, 4 * p + 1, 4 * p + 2, 4 * p + 3]
  | _ => []

/-- The logical port is used by the present breakout (03 R94). -/
def portUsed (s : State) (m : Nat) : Bool := decide (m ∈ portsOf (regF s .prtCfg (m / 4) 0 0 2) (m / 4))

/-- The pipeline that a logical port feeds (01 R37). -/
def pipeOf (m : Nat) : Nat := m / 8

end Sys2Proof.Machine
end

