-- ==== Sys2Proof/Machine/Legal.lean ====
section
/-!
DEFINITION. Which commands a device state allows (02 R82), and completions of commands that are not in execution.
-/

namespace Sys2Proof.Machine

/-- The states in which an opcode is legal, as bits by state code (02 "Legality matrix"). -/
def legalStates (op : Nat) : Nat :=
  match op with
  | 0x0001 => 0xFE | 0x0002 => 0xFE | 0x0003 => 0xFE | 0x0004 => 0xFE | 0x0026 => 0xFE
  | 0x0010 => 0xFC | 0x0080 => 0xFC | 0x0071 => 0xFC | 0x0070 => 0xFC | 0x0031 => 0xFC
  | 0x0051 => 0xFC | 0x0052 => 0xFC | 0x0012 => 0xFC | 0x0032 => 0xFC
  | 0x0011 => 0x9C | 0x0030 => 0x9C | 0x0013 => 0x9C
  | 0x0040 => 0x9C | 0x0041 => 0x9C | 0x0042 => 0x9C | 0x0043 => 0x9C
  | 0x0050 => 0x0C
  | 0x0060 => 0x9C | 0x0062 => 0x9C | 0x0064 => 0x9C
  | 0x0065 => 0x8C | 0x0066 => 0x8C
  | 0x0061 => 0x0C
  | 0x0063 => 0x80 | 0x00A0 => 0x80
  | 0x0090 => 0x9C | 0x0081 => 0x9C
  | 0x0020 => 0x04 | 0x0021 => 0x08
  | 0x0022 => 0xDC
  | 0x0023 => 0x20 | 0x0082 => 0x20
  | 0x0024 => 0x44
  | 0x0025 => 0x80
  | _ => 0xFE

/-- The opcode is legal in the device state (R82). DEDUCED: log 26. -/
def legalIn (d : DevState) (op : Nat) : Bool := bitN (legalStates op) d.code

/-- A completion with a status, flags 0 and a body. -/
def complete (status : Nat) (body : Bytes) : Completion := { status := status, flags := 0, body := body }

/-- A completion of a command that is not in execution waits for room. -/
def answerNow (s : State) (f : CmdFrame) (key : Bytes) (role slot : Nat) (w : ExecWait) : State :=
  let e : ExecCmd := { cmd := f, wait := w, key := key, role := role, slot := slot, order := s.gct.begun, waited := false }
  { s with gct := { s.gct with anon := s.gct.anon ++ [e] } }

end Sys2Proof.Machine
end

