-- ==== Sys2Proof/Machine/Ports.lean ====
section
/-!
DEFINITION. The packet ports (03 R94–R103, R123, R124) and the recognition of GCT frames (02 R60–R62): reception, reservations,
links, and what the port complex puts on the wire.
-/

namespace Sys2Proof.Machine

/-! ### GCT frames on the wire (02 R60–R63) -/

/-- The number of a port in Config.portMac. -/
def portIndex (p : PortId) : Nat :=
  match p with
  | .command n => n.val
  | .logical m => 2 + m.val

/-- A GCT frame read from the bytes that follow its Ethernet, VLAN or UDP header (02 R63). -/
def readCmd (port : PortId) (smac : Nat) (vlan : Option Nat) (udp : Option UdpInfo) (b : Bytes) : CmdFrame :=
  { port := port, smac := smac, vlan := vlan, udp := udp, version := byteAt b 0, kind := byteAt b 1, flags := beAt b 2 2,
    session := beAt b 4 4, seq := beAt b 8 8, opcode := beAt b 16 2, length := beAt b 18 2, status := byteAt b 20,
    resv := beAt b 21 3, rest := b.drop 24 }

/-- The control address of GCT_IPV6_HI and GCT_IPV6_LO. -/
def controlV6 (s : State) : Nat := regN s .gctIpv6 0 0 * 2 ^ 64 + regN s .gctIpv6 1 0

/-- A UDP datagram to port 48200 behind an ethertype at `eo`, in the form of 02 R60: its address family, addresses, source
port, and payload. -/
def readUdp (b : Bytes) (eo : Nat) : Option (UdpInfo × Bytes) :=
  let ip := eo + 2
  match beAt b eo 2 with
  | 0x0800 =>
    let u := ip + 4 * (byteAt b ip % 16)
    if byteAt b ip / 16 = 4 && 5 ≤ byteAt b ip % 16 && beAt b (ip + 6) 2 % 0x4000 == 0 && byteAt b (ip + 9) == 17
        && u + 4 ≤ 64 && u + 8 ≤ b.length && beAt b (u + 2) 2 == 48200 then
      some ({ v6 := false, src := beAt b (ip + 12) 4, dst := beAt b (ip + 16) 4, sport := beAt b u 2
              extra := (u - ip - 20) + (b.length - (u + max 8 (beAt b (u + 4) 2))) },
        slice b (u + 8) (beAt b (u + 4) 2 - 8))
    else none
  | 0x86DD =>
    let u := ip + 40
    if byteAt b ip / 16 = 6 && byteAt b (ip + 6) == 17 && u + 4 ≤ 64 && u + 8 ≤ b.length && beAt b (u + 2) 2 == 48200 then
      some ({ v6 := true, src := beAt b (ip + 8) 16, dst := beAt b (ip + 24) 16, sport := beAt b u 2
              extra := b.length - (u + max 8 (beAt b (u + 4) 2)) },
        slice b (u + 8) (beAt b (u + 4) 2 - 8))
    else none
  | _ => none

/-- The datagram is addressed to the control address and its enable is set (02 R61, R62). -/
def udpAddressed (s : State) (u : UdpInfo) : Bool :=
  if u.v6 then regF s .gctCtrl 0 0 17 1 == 1 && u.dst == controlV6 s
  else regF s .gctCtrl 0 0 16 1 == 1 && u.dst == regF s .gctIpv4 0 0 0 32

/-- The GCT frame that a received frame (without its FCS) is, if it is one (02 R60–R62). -/
def recogniseGct (s : State) (port : PortId) (b : Bytes) : Option CmdFrame :=
  let tagged := beAt b 12 2 == 0x8100
  let eo := if tagged then 16 else 12
  let vlan := if tagged then some (beAt b 14 2) else none
  let smac := beAt b 6 6
  let inband := match port with
    | .command _ => true
    | .logical m => bitN (regF s .gctCtrl 0 0 0 16) (m.val / 4)
  if !inband then none
  else if beAt b eo 2 == 0x88B5 then
    let mine := match port with
      | .command _ => true
      | .logical _ => beAt b 0 6 == Config.portMac (portIndex port)
    if mine then some (readCmd port smac vlan none (b.drop (eo + 2))) else none
  else match readUdp b eo with
    | some (u, payload) => if udpAddressed s u then some (readCmd port smac vlan (some u) payload) else none
    | none => none

/-- The Internet checksum of an even number of bytes. -/
def inetChecksum (bs : Bytes) : Nat :=
  let total := (chunks bs 2 (ceilDiv bs.length 2)).foldl (fun a w => a + beNat (padTo w 2)) 0
  let once := total % 65536 + total / 65536
  65535 - (once % 65536 + once / 65536) % 65536

/-- A UDP datagram with its IP header, addresses and ports swapped from the command's (02 R66). The other fields of the headers are the
model's choice. DESIGN CHOICE: log 157. -/
def udpReply (u : UdpInfo) (payload : Bytes) : Bytes :=
  let ulen := 8 + payload.length
  if u.v6 then
    let ph := beBytes 16 u.dst ++ beBytes 16 u.src ++ beBytes 4 ulen ++ beBytes 4 17
    let h (ck : Nat) := beBytes 2 48200 ++ beBytes 2 u.sport ++ beBytes 2 ulen ++ beBytes 2 ck
    beBytes 4 0x60000000 ++ beBytes 2 ulen ++ [17, 64] ++ beBytes 16 u.dst ++ beBytes 16 u.src ++
      h (inetChecksum (ph ++ h 0 ++ payload)) ++ payload
  else
    let h (ck : Nat) := [0x45, 0] ++ beBytes 2 (20 + ulen) ++ zeros 4 ++ [64, 17] ++ beBytes 2 ck ++ beBytes 4 u.dst ++ beBytes 4 u.src
    h (inetChecksum (h 0)) ++ beBytes 2 48200 ++ beBytes 2 u.sport ++ beBytes 2 ulen ++ beBytes 2 0 ++ payload

/-- The Ethernet frame, without FCS, that carries a GCT frame back to a host (02 R66, R91). -/
def gctEthernet (port : PortId) (dmac : Nat) (vlan : Option Nat) (udp : Option UdpInfo) (gct : Bytes) : Bytes :=
  let macs := beBytes 6 dmac ++ beBytes 6 (Config.portMac (portIndex port))
  let tag := match vlan with
    | some v => beBytes 2 0x8100 ++ beBytes 2 v
    | none => []
  let body := match udp with
    | some u => beBytes 2 (if u.v6 then 0x86DD else 0x0800) ++ udpReply u gct
    | none => beBytes 2 0x88B5 ++ gct
  let f := macs ++ tag ++ body
  f ++ zeros (60 - f.length)

/-- The cells that a frame of `len` bytes occupies (06 R173). -/
def cellsFor (len : Nat) : Nat := ceilDiv len 256

/-- The bytes of a command frame, FCS included (02 R60, R63): with its IPv4 options and what follows its datagram. -/
def cmdFrameLen (f : CmdFrame) : Nat :=
  let l2 := 14 + (if f.vlan.isSome then 4 else 0)
  let l3 := match f.udp with
    | some u => (if u.v6 then 48 else 28) + u.extra
    | none => 0
  max 60 (l2 + l3 + 24 + f.rest.length) + 4

/-! ### Reservations (03 R98, R99) -/

/-- Cells held or reserved by a logical port. -/
def portHeld (s : State) (m : Nat) : Nat := fgetD 0 s.ports.held m

/-- Changes the cells that a logical port holds. -/
def setPortHeld (s : State) (m n : Nat) : State := { s with ports := { s.ports with held := fsetD 0 s.ports.held m n } }

/-- Data-pool cells held or reserved by all packet ports (03 PRT_POOL). -/
def poolHeld (s : State) : Nat := s.ports.held.foldl (fun a e => a + e.2) 0

/-- The share of a logical port: the quota of its physical port divided equally (03 R99). -/
def portShare (s : State) (m : Nat) : Nat :=
  regF s .prtCfg (m / 4) 0 32 17 / max 1 (portsOf (regF s .prtCfg (m / 4) 0 0 2) (m / 4)).length

/-- Both limits of 03 R98 have 36 cells free. -/
def reservationFits (s : State) (m : Nat) : Bool :=
  decide (portHeld s m + 36 ≤ portShare s m) && decide (poolHeld s + 36 ≤ poolSize s)

/-- The frame in reception on a logical port. -/
def rxGet (s : State) (m : Nat) : Option RxFrame := fget? s.ports.rx m

/-- Sets the frame in reception on a logical port. -/
def rxSet (s : State) (m : Nat) (r : Option RxFrame) : State := { s with ports := { s.ports with rx := fput s.ports.rx m r } }

/-- The link of a logical port is up. -/
def portLinkUp (s : State) (m : Nat) : Bool := bitN s.ports.link m

/-- The logical port is used, enabled and up. -/
def portLive (s : State) (m : Nat) : Bool := portUsed s m && bitN s.ports.enabled m && portLinkUp s m

/-- Returns the reservation of a frame in reception (03 R97, R98). -/
def dropReservation (s : State) (m : Nat) (r : RxFrame) : State :=
  if r.reserved then setPortHeld s m (portHeld s m - 36) else s

/-- FRAME_START (03 R98, R100, R102): the arrival stamp is taken and 36 cells are reserved, or the frame is discarded into
RX_ADMIT_DROP; in HALTED no reservation is taken. DESIGN CHOICE: log 64. -/
def frameStart (s : State) (m : Nat) : State :=
  if !portLive s m || (rxGet s m).isSome then s
  else
    let r : RxFrame := { stamp := stampNow s, reserved := false, discarded := false, maxFrame := regF s .prtCfg (m / 4) 0 16 14 }
    if s.gct.dev = .halted then rxSet s m (some r)
    else if reservationFits s m then rxSet (setPortHeld s m (portHeld s m + 36)) m (some { r with reserved := true })
    else rxSet (bump s .prtRxAdmitDrop m 0) m (some { r with discarded := true })

/-- Discards the frame in reception into a counter: its cells are freed (03 R97, R601). -/
def discardRx (s : State) (m : Nat) (r : RxFrame) (n : RegName) : State :=
  rxSet (bump (dropReservation s m r) n m 0) m (some { r with reserved := false, discarded := true })

/-- OVERSIZE_DISCARD (03 R601 step 2): the byte that takes the frame past MAX_FRAME discards it into RX_DISCARD. -/
def oversizeDiscard (s : State) (m : Nat) : State :=
  match rxGet s m with
  | some r => if r.discarded then s else discardRx s m r .prtRxDiscard
  | none => s

/-- A link loss truncates the frame in reception (03 R97, R601 step 3). -/
def truncateRx (s : State) (m : Nat) : State :=
  match rxGet s m with
  | some r =>
    let s1 := if r.discarded then s else bump (dropReservation s m r) .prtRxFcsErr m 0
    rxSet s1 m none
  | none => s

/-- The device states in which packet links are forced down (02 R77). -/
def linksForcedDown (d : DevState) : Bool := decide (d = .powered) || decide (d = .secureBoot) || decide (d = .faulted)

/-- PORT_LINK_CHANGE (03 PRT_STATUS): the link bit follows the link; a loss truncates a frame in reception. -/
def portLinkChange (s : State) (m : Nat) (up : Bool) : State :=
  if up then
    if linksForcedDown s.gct.dev || !portUsed s m then s else { s with ports := { s.ports with link := setBitN s.ports.link m true } }
  else
    let s1 := truncateRx s m
    { s1 with ports := { s1.ports with link := setBitN s1.ports.link m false, hiSer := setBitN s1.ports.hiSer m false } }

/-- Every packet link goes down (02 R77: POWERED, SECURE_BOOT, FAULTED). -/
def allLinksDown (s : State) : State := (List.range 64).foldl (fun t m => if portLinkUp t m then portLinkChange t m false else t) s

/-- PORT_ENABLE (03 R124): at a frame boundary the logical port takes the ENABLE of its physical port. -/
def portEnable (s : State) (m : Nat) : State :=
  if (rxGet s m).isSome then s
  else { s with ports := { s.ports with enabled := setBitN s.ports.enabled m (regF s .prtCfg (m / 4) 0 2 1 == 1) } }

/-- HIGH_SYMBOL_ERROR_RATE (03 PRT_STATUS.HI_SER). -/
def setHiSer (s : State) (m : Nat) (on : Bool) : State :=
  { s with ports := { s.ports with hiSer := setBitN s.ports.hiSer m on } }

/-- The service mode of a logical port (15 R425). -/
def serviceOf (s : State) (m : Nat) : ServiceMode :=
  match s.gct.modes.service.find? (fun e => e.1 == m) with
  | some e => e.2
  | none => ServiceMode.reset

/-- Admits a data frame: its cells are committed, unused reserved cells return, and the packet waits for its parse pipeline
(03 R98–R103). The port's service mode and the egress map are those of this admission (01 R56, 04 R150). -/
def admitData (s : State) (m : Nat) (b : Bytes) (r : RxFrame) : State :=
  let len := b.length + 4
  let n := cellsFor len
  let bank := fgetD 0 s.heart.lastBank (4096 + m)
  let got := takeCells s.heart.links (poolFirst s) 1048576 bank 6 n
  let links := chainCells got.2 got.1 len
  let bank' := match got.1.getLast? with
    | some c => (c + 1) % 64
    | none => bank
  let sv := serviceOf s m
  let p : Packet :=
    { grp := s.canopy.nextPkt, turn := s.canopy.turns, lport := m, bytes := b, stamp := r.stamp, cells := got.1, stage := .committed, prs := none,
      lookup := none, keyCand := (0, 0), prefetched := false, metaw := 0, view := none, active := 0, pinned := false, shimType := 0, mirrors := [],
      egressMap := regF s .cnpEgressMap m 0 0 6, svcMode := sv.value, dl1 := sv.dl1, dl2 := sv.dl2, service := 0,
      passMode := false, sample := none, outputs := [], hold := none, escalated := false, waited := false, badFcs := false }
  let s1 := { s with
    heart := { s.heart with links := links, lastBank := fsetD 0 s.heart.lastBank (4096 + m) bank' },
    canopy := { s.canopy with pkts := finsert s.canopy.pkts s.canopy.nextPkt p, nextPkt := s.canopy.nextPkt + 1, turns := s.canopy.turns + 1 } }
  setPortHeld (writeCells s1 got.1 len) m (portHeld s1 m + n - (if r.reserved then 36 else 0))

/-- The frame is a MAC control frame (03 R96). -/
def isMacControl (b : Bytes) : Bool := beAt b 12 2 == 0x8808

/-- What the MAC decides at a frame's end (03 R601 steps 2–5; 03 R100): a discard into a counter, a GCT frame, or data. -/
inductive RxVerdict where
  | discard (n : RegName)
  | gct (f : CmdFrame)
  | data
deriving DecidableEq, Repr

/-- The judgement of a frame at its end on a packet port (03 R97, R601). A data frame that began in HALTED has no reservation: it has been
discarded (03 R100). DESIGN CHOICE: log 64. -/
def judgeRx (s : State) (m : Fin 64) (r : RxFrame) (b : Bytes) (fcsOk truncated : Bool) : RxVerdict :=
  if r.maxFrame < b.length + 4 then .discard .prtRxDiscard
  else if truncated || !fcsOk then .discard .prtRxFcsErr
  else if b.length + 4 < 64 || isMacControl b then .discard .prtRxDiscard
  else match recogniseGct s (.logical m) b with
    | some f => .gct f
    | none => if s.gct.dev = .serving && r.reserved then .data else .discard .prtRxStateDrop

end Sys2Proof.Machine
end

