-- ==== Sys2Proof/Machine/Observe.lean ====
section
/-!
DEFINITION. The operations of the observation block that other blocks use (21 R550–R560, R565): counters, per-context counters, trace
records and stop requests.
-/

namespace Sys2Proof.Machine

/-! ### Counters (R550, R552) -/

/-- A recovery of the table "Single faults" begins (20; RECOVERIES). -/
def recovery (s : State) : State := obsAdd s 0 0x32 1

/-! ### Per-context counters (R553–R555) -/

/-- The number of the set that is bound to a context. -/
def setOf (s : State) (ctx : Nat) : Option Nat := (s.obs.sets.find? (fun e => e.2.ctx == some ctx)).map Prod.fst

/-- A core counts events of a context (R554). -/
def coreCount (s : State) (k ctx idx n : Nat) : State :=
  { s with obs := { s.obs with local_ := fmodD [] s.obs.local_ k (fun m => fmodD 0 m (16 * ctx + idx) (fun v => (v + n) % 2 ^ 64)) } }

/-- One count that a core sends enters the LIVE bank of the set that is bound to its context. -/
def takeCount (s : State) (key n : Nat) : State :=
  match setOf s (key / 16) with
  | some j =>
    { s with obs := { s.obs with sets := fmod s.obs.sets j (fun c =>
        { c with live := fmodD 0 c.live (key % 16) (fun v => (v + n) % 2 ^ 64) }) } }
  | none => s

/-- COUNT_SEND (R554): core `k` sends what it has counted. -/
def countSend (s : State) (k : Nat) : State :=
  let m := fgetD [] s.obs.local_ k
  m.foldl (fun t e => takeCount t e.1 e.2) { s with obs := { s.obs with local_ := ferase s.obs.local_ k } }

/-- A boundary of a set (R555): LIVE is copied into FINAL and set to 0, and the boundary count is incremented. -/
def setBoundary (s : State) (j : Nat) : State :=
  { s with obs := { s.obs with sets := fmod s.obs.sets j (fun c =>
      { c with final := c.live, live := [], bounds := (c.bounds + 1) % 2 ^ 32 }) } }

/-- The boundary of a context at the start of a RUN, after every increment of the previous run (R555). -/
def contextBoundary (s : State) (ctx : Nat) : State :=
  let s1 := s.obs.local_.foldl (fun t e => countSend t e.1) s
  match setOf s1 ctx with
  | some j => setBoundary s1 j
  | none => s1

/-! ### Trace records (R557, R560) -/

/-- OBS_TRACE.EN with the source `i` of SRC selected: 0 PC samples, 1 Span events, 2 markers. -/
def traceOn (s : State) (i : Nat) : Bool := regF s .obsTrace 0 0 0 1 == 1 && regF s .obsTrace 0 0 (2 + i) 1 == 1

/-- The bytes of the trace partition that records hold. -/
def traceHeld (s : State) : Nat := s.obs.recs.foldl (fun a r => a + r.bytes.length) 0

/-- A trace record (R557): header and body. -/
def traceBytes (s : State) (rtype source rseq : Nat) (body : Bytes) : Bytes :=
  leBytes 1 rtype ++ leBytes 1 (16 + body.length) ++ leBytes 2 source ++ leBytes 4 rseq ++ leBytes 8 (stampNow s) ++ body

/-- The next RSEQ of a source. -/
def nextRseq (s : State) (source : Nat) : Nat × State :=
  (fgetD 0 s.obs.rseq source, { s with obs := { s.obs with rseq := fmodD 0 s.obs.rseq source (fun n => (n + 1) % 2 ^ 32) } })

/-- A record is numbered for the subscriptions of the trace class, when it goes to the fallback (02 R92). -/
def traceNumber (s : State) : List (Nat × Nat) × State := if regF s .obsTrace 0 0 1 1 = 1 then numberRecord s 2 else ([], s)

/-- `n` bytes are written into the trace partition behind the `held` bytes there: the granules that they begin (06 R174, R179). -/
def traceGranules (s : State) (held n : Nat) : List Nat :=
  rangeFrom (cellAddr (traceFirst s) / 32 + ceilDiv held 32) (ceilDiv (held + n) 32 - ceilDiv held 32)

/-- A record enters the trace partition. DESIGN CHOICE: log 85. -/
def traceEnter (s : State) (bytes : Bytes) : State :=
  let (seqs, s1) := traceNumber s
  let gs := traceGranules s1 (traceHeld s1) bytes.length
  { s1 with
    memPoison := clearGranules s1.memPoison gs, upsets := clearUpsets s1.upsets gs,
    obs := { s1.obs with
      recs := s1.obs.recs ++ [{ bytes := bytes, fallback := regF s .obsTrace 0 0 1 1 == 1, seqs := seqs, bad := false }] } }

/-- A subscription of the trace class exists (R562). -/
def traceSubscribed (s : State) : Bool := s.gct.subs.any (fun u => u.cls == 2)

/-- Discards a record (R560, R562), which keeps its number (02 R92). -/
def traceDrop (s : State) : State :=
  let s1 := (traceNumber s).2
  bump { s1 with obs := { s1.obs with lost := s1.obs.lost + 1 } } .obsTraceDrop 0 0

/-- Generates a record (R557, R560, R562): the first after a loss is preceded by a loss record. DEDUCED: log 124. -/
def traceEmit (s : State) (rtype source : Nat) (body : Bytes) : State :=
  let (n, s1) := nextRseq s source
  let rec_ := traceBytes s rtype source n body
  let room := 256 * traceSize s - traceHeld s
  if regF s .obsTrace 0 0 1 1 = 1 ∧ !traceSubscribed s then traceDrop s1
  else if s.obs.lost = 0 then if rec_.length ≤ room then traceEnter s1 rec_ else traceDrop s1
  else if rec_.length + 24 ≤ room then
    let (m, s2) := nextRseq s1 0xFFFF
    let s3 := traceEnter s2 (traceBytes s 4 0xFFFF m (leBytes 8 s.obs.lost))
    traceEnter { s3 with obs := { s3.obs with lost := 0 } } rec_
  else traceDrop s1

/-! ### Stop requests (R565) -/

/-- HALTED is legal from the device state (02 R78). -/
def haltLegal (s : State) : Bool :=
  match s.gct.dev with
  | .ready => true | .serving => true | .draining => true | .faulted => true | .maintenance => true | _ => false

/-- A stop request with a cause (R565): it starts a cut, or is ignored and counted. DEDUCED: log 142. -/
def requestStop (s : State) (cause : Nat) : State :=
  if s.obs.cut.isSome || s.gct.dev == .halted || s.gct.dev == .secureBoot then bump s .obsTrigIgnored 0 0
  else if haltLegal s then { s with obs := { s.obs with cut := some { cause := cause, stamp := stampNow s } } }
  else s

/-- A context enters debug stop: OBS_TRIG.DEBUG_STOP requests a global stop. -/
def debugTrigger (s : State) : State := if regF s .obsTrig 0 0 0 1 = 1 then requestStop s 2 else s

/-- An exception of a code is raised: OBS_TRIG.EXC_MASK may request a global stop. -/
def excTrigger (s : State) (code : Nat) : State :=
  if 1 ≤ code ∧ code ≤ 13 ∧ regF s .obsTrig 0 0 (15 + code) 1 = 1 then requestStop s 3 else s

end Sys2Proof.Machine
end

