-- ==== Sys2Proof/Machine/Bundle.lean ====
section
/-!
DEFINITION. Gramar-W bundles (09 R258–R263): the opcodes of the six slots, the fields of each slot, the decoding of a 512-bit
bundle, and which fields each instruction admits.
-/

namespace Sys2Proof.Machine

/-! ### Opcodes -/

/-- The scalar opcodes (09 "Scalar opcodes"). -/
inductive SOp where
  | add | sub | and_ | or_ | xor_ | shl | shr | sar | min_ | max_ | minu | maxu | clz | popc | sel
  | mul | mulh | mulhu | div | divu | rem_ | remu | li | lui
  | ceq | cne | clt | cltu | cle | cleu | pand | por | pxor | pandn | pfirst
  | ld8u | ld16u | ld32u | ld64 | ld8s | ld16s | ld32s | st8 | st16 | st32 | st64
deriving DecidableEq, Repr

/-- The vector opcodes (09 "Vector opcodes"). -/
inductive VOp where
  | add | sub | mul | fma | min_ | max_ | abs | neg | and_ | or_ | xor_ | shl | shr | sar
  | ceq | clt | cle | sel | cvt | bcast | ext | ins | perm | rsum | rmax | rmin
  | exp2 | log2 | rcp | rsqrt | tanh | sigm | ld | st
deriving DecidableEq, Repr

/-- The matrix opcodes (10 "Matrix opcodes"). -/
inductive MOp where
  | shape | lw | mb | ms | ew | st | la | zero | wait_ | test | clr
deriving DecidableEq, Repr

/-- The mover opcodes (09 "Mover opcodes"). -/
inductive DOp where
  | copy | trans | gather | scatter | fill | put | get | wait_ | test | tld | tst | tmov | taddb
deriving DecidableEq, Repr

/-- The control opcodes (09 "Control opcodes"). -/
inductive COp where
  | br | jr | call | callr | loop | exit | trap | brk | fence | ifence | crd | cwr | settag | claim | release
  | qsel | qopen | qpush | qpushv | qcommit | qabort | qread | qreadv | qmark | qrewind | qrelease
deriving DecidableEq, Repr

/-- An instruction of any slot class. -/
inductive GOp where
  | s (o : SOp)
  | v (o : VOp)
  | m (o : MOp)
  | d (o : DOp)
  | c (o : COp)
deriving DecidableEq, Repr

/-- The scalar opcode of a code. -/
def SOp.ofCode (n : Nat) : Option SOp :=
  match n with
  | 0x01 => some .add | 0x02 => some .sub | 0x03 => some .and_ | 0x04 => some .or_ | 0x05 => some .xor_ | 0x06 => some .shl
  | 0x07 => some .shr | 0x08 => some .sar | 0x09 => some .min_ | 0x0A => some .max_ | 0x0B => some .minu | 0x0C => some .maxu
  | 0x0D => some .clz | 0x0E => some .popc | 0x0F => some .sel | 0x10 => some .mul | 0x11 => some .mulh | 0x12 => some .mulhu
  | 0x13 => some .div | 0x14 => some .divu | 0x15 => some .rem_ | 0x16 => some .remu | 0x18 => some .li | 0x19 => some .lui
  | 0x20 => some .ceq | 0x21 => some .cne | 0x22 => some .clt | 0x23 => some .cltu | 0x24 => some .cle | 0x25 => some .cleu
  | 0x28 => some .pand | 0x29 => some .por | 0x2A => some .pxor | 0x2B => some .pandn | 0x2C => some .pfirst
  | 0x30 => some .ld8u | 0x31 => some .ld16u | 0x32 => some .ld32u | 0x33 => some .ld64 | 0x34 => some .ld8s
  | 0x35 => some .ld16s | 0x36 => some .ld32s | 0x38 => some .st8 | 0x39 => some .st16 | 0x3A => some .st32 | 0x3B => some .st64
  | _ => none

/-- The vector opcode of a code. -/
def VOp.ofCode (n : Nat) : Option VOp :=
  match n with
  | 0x01 => some .add | 0x02 => some .sub | 0x03 => some .mul | 0x04 => some .fma | 0x05 => some .min_ | 0x06 => some .max_
  | 0x07 => some .abs | 0x08 => some .neg | 0x09 => some .and_ | 0x0A => some .or_ | 0x0B => some .xor_ | 0x0C => some .shl
  | 0x0D => some .shr | 0x0E => some .sar | 0x10 => some .ceq | 0x11 => some .clt | 0x12 => some .cle | 0x14 => some .sel
  | 0x18 => some .cvt | 0x19 => some .bcast | 0x1A => some .ext | 0x1B => some .ins | 0x1C => some .perm | 0x20 => some .rsum
  | 0x21 => some .rmax | 0x22 => some .rmin | 0x28 => some .exp2 | 0x29 => some .log2 | 0x2A => some .rcp | 0x2B => some .rsqrt
  | 0x2C => some .tanh | 0x2D => some .sigm | 0x30 => some .ld | 0x31 => some .st
  | _ => none

/-- The matrix opcode of a code. -/
def MOp.ofCode (n : Nat) : Option MOp :=
  match n with
  | 0x01 => some .shape | 0x02 => some .lw | 0x03 => some .mb | 0x04 => some .ms | 0x08 => some .ew | 0x10 => some .st
  | 0x11 => some .la | 0x12 => some .zero | 0x18 => some .wait_ | 0x19 => some .test | 0x1A => some .clr
  | _ => none

/-- The mover opcode of a code. -/
def DOp.ofCode (n : Nat) : Option DOp :=
  match n with
  | 0x01 => some .copy | 0x02 => some .trans | 0x03 => some .gather | 0x04 => some .scatter | 0x05 => some .fill
  | 0x06 => some .put | 0x07 => some .get | 0x10 => some .wait_ | 0x11 => some .test | 0x18 => some .tld | 0x19 => some .tst
  | 0x1A => some .tmov | 0x1B => some .taddb
  | _ => none

/-- The code of a mover opcode that is a transfer, as resume records hold it (13 "Resume record"). -/
def DOp.code (o : DOp) : Nat :=
  match o with
  | .copy => 0x01 | .trans => 0x02 | .gather => 0x03 | .scatter => 0x04 | .fill => 0x05 | .put => 0x06 | .get => 0x07
  | .wait_ => 0x10 | .test => 0x11 | .tld => 0x18 | .tst => 0x19 | .tmov => 0x1A | .taddb => 0x1B

/-- The control opcode of a code. -/
def COp.ofCode (n : Nat) : Option COp :=
  match n with
  | 0x01 => some .br | 0x02 => some .jr | 0x03 => some .call | 0x04 => some .callr | 0x05 => some .loop | 0x08 => some .exit
  | 0x09 => some .trap | 0x0A => some .brk | 0x10 => some .fence | 0x11 => some .ifence | 0x18 => some .crd | 0x19 => some .cwr
  | 0x1A => some .settag | 0x20 => some .claim | 0x21 => some .release | 0x40 => some .qsel | 0x41 => some .qopen
  | 0x42 => some .qpush | 0x43 => some .qpushv | 0x44 => some .qcommit | 0x45 => some .qabort | 0x48 => some .qread
  | 0x49 => some .qreadv | 0x4A => some .qmark | 0x4B => some .qrewind | 0x4C => some .qrelease
  | _ => none

/-! ### Slots -/

/-- A scalar slot (09 "Scalar slot fields"). -/
structure SSlot where
  op : SOp
  pred : Nat
  pneg : Bool
  rd : Nat
  ra : Nat
  rb : Nat
  immf : Bool
  imm : Nat
deriving DecidableEq, Repr

/-- A vector slot (09 "Vector slot fields"). -/
structure VSlot where
  op : VOp
  pred : Nat
  pneg : Bool
  elt : Nat
  vd : Nat
  va : Nat
  vb : Nat
  vc : Nat
  sr : Nat
  bs : Bool
  resv : Nat
  imm : Nat
deriving DecidableEq, Repr

/-- A matrix slot (10 "Matrix slot fields"). -/
structure MSlot where
  op : MOp
  pred : Nat
  pneg : Bool
  arr : Nat
  sl : Nat
  bank : Nat
  acc : Bool
  ta : Nat
  tb : Nat
  so : Nat
  ofs : Bool
  kv : Nat
  nv : Nat
  mc : Nat
  fmt : Nat
  xt : Nat
  resv : Nat
  imm : Nat
deriving DecidableEq, Repr

/-- A mover slot (09 "Mover slot fields"). -/
structure DSlot where
  op : DOp
  pred : Nat
  pneg : Bool
  resv : Nat
  ts : Nat
  td : Nat
  sa : Nat
  sb : Nat
  xt : Nat
  srcOfs : Bool
  dstOfs : Bool
  imm : Nat
deriving DecidableEq, Repr

/-- A control slot (09 "Control slot fields"). -/
structure CSlot where
  op : COp
  pred : Nat
  pneg : Bool
  hint : Bool
  ra : Nat
  rb : Nat
  cr : Nat
  qd : Nat
  resv : Nat
  imm : Nat
deriving DecidableEq, Repr

/-- The scalar slot of 64 bits. -/
def SSlot.decode (x : Nat) : Option SSlot :=
  (SOp.ofCode (x % 256)).map (fun o =>
    { op := o, pred := bitsN x 8 4, pneg := bitN x 12, rd := bitsN x 13 6, ra := bitsN x 19 6, rb := bitsN x 25 6,
      immf := bitN x 31, imm := bitsN x 32 32 })

/-- The vector slot of 96 bits. -/
def VSlot.decode (x : Nat) : Option VSlot :=
  (VOp.ofCode (x % 256)).map (fun o =>
    { op := o, pred := bitsN x 8 4, pneg := bitN x 12, elt := bitsN x 13 3, vd := bitsN x 16 5, va := bitsN x 21 5,
      vb := bitsN x 26 5, vc := bitsN x 31 5, sr := bitsN x 36 6, bs := bitN x 42, resv := bitsN x 43 21, imm := bitsN x 64 32 })

/-- The matrix slot of 96 bits. -/
def MSlot.decode (x : Nat) : Option MSlot :=
  (MOp.ofCode (x % 256)).map (fun o =>
    { op := o, pred := bitsN x 8 4, pneg := bitN x 12, arr := bitsN x 13 2, sl := bitsN x 15 2, bank := bitsN x 17 2,
      acc := bitN x 19, ta := bitsN x 20 4, tb := bitsN x 24 4, so := bitsN x 28 6, ofs := bitN x 34, kv := bitsN x 35 6,
      nv := bitsN x 41 7, mc := bitsN x 48 5, fmt := bitsN x 53 4, xt := bitsN x 57 2, resv := bitsN x 59 5, imm := bitsN x 64 32 })

/-- The mover slot of 96 bits; `resv` gathers its three reserved ranges. -/
def DSlot.decode (x : Nat) : Option DSlot :=
  (DOp.ofCode (x % 256)).map (fun o =>
    { op := o, pred := bitsN x 8 4, pneg := bitN x 12, resv := bitsN x 13 3 + bitsN x 38 10 + bitsN x 50 14, ts := bitsN x 16 4,
      td := bitsN x 20 4, sa := bitsN x 24 6, sb := bitsN x 30 6, xt := bitsN x 36 2, srcOfs := bitN x 48, dstOfs := bitN x 49,
      imm := bitsN x 64 32 })

/-- The control slot of 80 bits. -/
def CSlot.decode (x : Nat) : Option CSlot :=
  (COp.ofCode (x % 256)).map (fun o =>
    { op := o, pred := bitsN x 8 4, pneg := bitN x 12, hint := bitN x 13, ra := bitsN x 14 6, rb := bitsN x 20 6,
      cr := bitsN x 26 6, qd := bitsN x 32 2, resv := bitsN x 34 14, imm := bitsN x 48 32 })

/-- A bundle: its present slots, and the first slot whose bits are no instruction (R259); slot SA stands for the header. -/
structure Bundle where
  sa : Option SSlot
  sb : Option SSlot
  vx : Option VSlot
  mx : Option MSlot
  dx : Option DSlot
  cx : Option CSlot
  bad : Option SlotId
deriving DecidableEq, Repr

/-- The bits of a slot are illegal: an absent slot that is not 0, or a present one with an unlisted opcode (R259). -/
def slotBad (valid : Bool) (bits : Nat) (known : Bool) : Bool := if valid then !known else bits != 0

/-- The decoding of a bundle (R258, R259). -/
def Bundle.decode (x : Nat) : Bundle :=
  let sa := bitsN x 16 64
  let sb := bitsN x 80 64
  let vx := bitsN x 144 96
  let mx := bitsN x 240 96
  let dx := bitsN x 336 96
  let cx := bitsN x 432 80
  let v (i : Nat) := bitN x i
  { sa := if v 0 then SSlot.decode sa else none
    sb := if v 1 then SSlot.decode sb else none
    vx := if v 2 then VSlot.decode vx else none
    mx := if v 3 then MSlot.decode mx else none
    dx := if v 4 then DSlot.decode dx else none
    cx := if v 5 then CSlot.decode cx else none
    bad :=
      if bitsN x 6 10 != 0 || slotBad (v 0) sa (SSlot.decode sa).isSome then some .sa
      else if slotBad (v 1) sb (SSlot.decode sb).isSome then some .sb
      else if slotBad (v 2) vx (VSlot.decode vx).isSome then some .vx
      else if slotBad (v 3) mx (MSlot.decode mx).isSome then some .mx
      else if slotBad (v 4) dx (DSlot.decode dx).isSome then some .dx
      else if slotBad (v 5) cx (CSlot.decode cx).isSome then some .cx
      else none }

/-- The bundle holds the instruction in one of its slots. -/
def Bundle.holds (b : Bundle) (g : GOp) : Bool :=
  match g with
  | .s o => b.sa.any (fun x => x.op == o) || b.sb.any (fun x => x.op == o)
  | .v o => b.vx.any (fun x => x.op == o)
  | .m o => b.mx.any (fun x => x.op == o)
  | .d o => b.dx.any (fun x => x.op == o)
  | .c o => b.cx.any (fun x => x.op == o)

/-- No slot of the bundle holds an instruction. -/
def Bundle.blank (b : Bundle) : Bool :=
  b.sa.isNone && b.sb.isNone && b.vx.isNone && b.mx.isNone && b.dx.isNone && b.cx.isNone

/-! ### Fields that an instruction admits (R259, R262) -/

/-- How a scalar instruction takes its operands. -/
inductive SForm where
  | binary | unary | select | limm | compare | preds | first | load (size : Nat) (sign : Bool) | store (size : Nat)
deriving DecidableEq, Repr

/-- The form of a scalar instruction. -/
def SOp.form (o : SOp) : SForm :=
  match o with
  | .clz => .unary | .popc => .unary | .sel => .select | .li => .limm | .lui => .limm
  | .ceq => .compare | .cne => .compare | .clt => .compare | .cltu => .compare | .cle => .compare | .cleu => .compare
  | .pand => .preds | .por => .preds | .pxor => .preds | .pandn => .preds | .pfirst => .first
  | .ld8u => .load 1 false | .ld16u => .load 2 false | .ld32u => .load 4 false | .ld64 => .load 8 false
  | .ld8s => .load 1 true | .ld16s => .load 2 true | .ld32s => .load 4 true
  | .st8 => .store 1 | .st16 => .store 2 | .st32 => .store 4 | .st64 => .store 8
  | _ => .binary

/-- The scalar slot's fields are legal (09 "Scalar slot fields", "Scalar opcodes"). -/
def SSlot.legal (x : SSlot) : Bool :=
  let b := !x.immf || x.rb == 0
  match x.op.form with
  | .binary => b
  | .unary => x.rb == 0 && !x.immf
  | .select => !x.immf && x.imm / 16 == 0
  | .limm => x.ra == 0 && x.rb == 0 && x.immf
  | .compare => decide (x.rd < 16) && b
  | .preds => decide (x.rd < 16) && decide (x.ra < 16) && decide (x.rb < 16) && !x.immf
  | .first => decide (x.rd < 16) && x.rb == 0 && !x.immf
  | .load _ _ => b
  | .store _ => b

/-- How a vector instruction takes its operands. -/
inductive VForm where
  | binary | fused | unary | compare | select | cvt | bcast | ext | ins | perm | reduce | ld | st
deriving DecidableEq, Repr

/-- The form of a vector instruction. -/
def VOp.form (o : VOp) : VForm :=
  match o with
  | .fma => .fused
  | .abs => .unary | .neg => .unary | .exp2 => .unary | .log2 => .unary | .rcp => .unary | .rsqrt => .unary | .tanh => .unary
  | .sigm => .unary
  | .ceq => .compare | .clt => .compare | .cle => .compare
  | .sel => .select | .cvt => .cvt | .bcast => .bcast | .ext => .ext | .ins => .ins | .perm => .perm
  | .rsum => .reduce | .rmax => .reduce | .rmin => .reduce
  | .ld => .ld | .st => .st
  | _ => .binary

/-- Bytes of an element type (09 "Vector slot fields"). -/
def eltBytes (e : Nat) : Nat := match e with | 0 => 1 | 1 => 2 | 2 => 4 | 3 => 8 | 4 => 2 | _ => 4

/-- The element type is a floating type. -/
def eltFloat (e : Nat) : Bool := e == 4 || e == 5

/-- The vector instruction admits the element type (09 "Vector opcodes"). -/
def VOp.admits (o : VOp) (e : Nat) : Bool :=
  match o with
  | .and_ => !eltFloat e | .or_ => !eltFloat e | .xor_ => !eltFloat e | .shl => !eltFloat e | .shr => !eltFloat e
  | .sar => !eltFloat e
  | .fma => eltFloat e | .exp2 => eltFloat e | .log2 => eltFloat e | .rcp => eltFloat e | .rsqrt => eltFloat e
  | .tanh => eltFloat e | .sigm => eltFloat e
  | .perm => e == 0
  | _ => true

/-- Bits of a conversion target (09 "Conversion targets"); 0 for a reserved value. -/
def cvtBits (t : Nat) : Nat :=
  match t with
  | 0 => 8 | 1 => 16 | 2 => 32 | 3 => 64 | 4 => 16 | 5 => 32 | 6 => 8 | 7 => 8 | 8 => 4 | 9 => 4 | _ => 0

/-- The format of a conversion target, and of a plain tensor format code (09 "Conversion targets", 12 "Tensor formats"). -/
def cvtFmt (t : Nat) : EFmt :=
  match t with
  | 0 => .int 8 | 1 => .int 16 | 2 => .int 32 | 3 => .int 64 | 4 => .flt .bf16 | 5 => .flt .fp32 | 6 => .flt .e4m3
  | 7 => .flt .e5m2 | 8 => .flt .e2m1 | _ => .int 4

/-- The vector slot's fields are legal (09 "Vector slot fields", R271, R273). -/
def VSlot.legal (x : VSlot) : Bool :=
  let count := 128 / eltBytes x.elt
  let none3 := x.va == 0 && x.vb == 0 && x.vc == 0
  decide (x.elt < 6) && x.resv == 0 && x.op.admits x.elt && (!x.bs || x.op.form == .binary) &&
  match x.op.form with
  | .binary => x.vc == 0 && (if x.bs then x.vb == 0 else x.sr == 0)
  | .fused => x.sr == 0
  | .unary => x.vb == 0 && x.vc == 0 && x.sr == 0
  | .reduce => x.vb == 0 && x.vc == 0 && x.sr == 0
  | .compare => decide (x.vd < 16) && x.vc == 0 && x.sr == 0
  | .select => decide (x.vc < 16) && x.sr == 0
  | .cvt =>
    let bs := 8 * eltBytes x.elt
    let bd := cvtBits (x.imm % 16)
    x.vb == 0 && x.vc == 0 && x.sr == 0 && x.imm / 256 == 0 && bd != 0 &&
      decide (bitsN x.imm 4 4 * Nat.min (1024 / bs) (1024 / bd) < 1024 / Nat.min bs bd)
  | .bcast => none3
  | .ext => x.vd == 0 && x.vb == 0 && x.vc == 0 && x.pred == 0 && !x.pneg && decide (x.imm % 128 < count)
  | .ins => none3 && decide (x.imm % 128 < count)
  | .perm => x.vc == 0 && x.sr == 0
  | .ld => none3
  | .st => none3

/-- The matrix slot's fields are legal as an encoding (10 "Matrix slot fields", "Matrix opcodes", R306). -/
def MSlot.legal (x : MSlot) : Bool :=
  let noOfs := x.so == 0 && !x.ofs
  let ofsOk := x.ofs || x.so == 0
  let noPass := x.kv == 0 && x.nv == 0 && x.mc == 0 && x.fmt == 0
  let noT := x.ta == 0 && x.tb == 0
  decide (x.arr < 3) && x.resv == 0 &&
  match x.op with
  | .shape => x.sl == 0 && x.bank == 0 && !x.acc && noT && noOfs && noPass && x.xt == 0 && x.imm / 4 == 0
  | .lw => x.bank == 0 && !x.acc && x.ta == 0 && noOfs && x.mc == 0 && decide (x.fmt < 10) && x.xt == 0 && x.imm == 0
  | .mb => x.tb == 0 && ofsOk && decide (x.fmt < 10) && x.xt == 0 && x.imm == 0
  | .ms => x.tb == 0 && ofsOk && decide (x.fmt < 10) && x.xt == 0 && x.imm == 0
  | .ew => decide (x.arr != 0) && x.sl == 0 && !x.acc && x.tb == 0 && ofsOk && noPass && x.xt == 0 && x.imm / 2 == 0
  | .st => decide (x.arr != 0) && x.sl == 0 && !x.acc && x.tb == 0 && ofsOk && noPass && x.imm / 2 == 0
  | .la => decide (x.arr != 0) && x.sl == 0 && !x.acc && x.tb == 0 && ofsOk && noPass && x.xt == 0 && x.imm == 0
  | .zero => x.sl == 0 && !x.acc && noT && noOfs && noPass && x.xt == 0 && x.imm == 0
  | .wait_ => x.sl == 0 && x.bank == 0 && !x.acc && noT && noOfs && noPass && x.xt == 0 && x.imm / 16 == 0 && x.imm != 0
  | .test => decide (x.arr != 0) && x.sl == 0 && x.bank == 0 && !x.acc && noT && !x.ofs && noPass && x.xt == 0 && x.imm / 16 == 0
  | .clr => x.sl == 0 && x.bank == 0 && !x.acc && noT && noOfs && noPass && x.xt == 0 && x.imm / 16 == 0 && x.imm != 0

/-- The mover instruction is a transfer (09 "Mover opcodes"). -/
def DOp.isTransfer (o : DOp) : Bool :=
  match o with
  | .copy => true | .trans => true | .gather => true | .scatter => true | .fill => true | .put => true | .get => true
  | _ => false

/-- The mover slot's fields are legal (09 "Mover slot fields", R276, R279). -/
def DSlot.legal (x : DSlot) : Bool :=
  let noFlags := !x.srcOfs && !x.dstOfs
  x.resv == 0 && (x.op.isTransfer || x.xt == 0) &&
  match x.op with
  | .copy => (x.srcOfs || x.sa == 0) && (x.dstOfs || x.sb == 0)
  | .trans => (x.srcOfs || x.sa == 0) && (x.dstOfs || x.sb == 0)
  | .gather => noFlags
  | .scatter => noFlags
  | .fill => noFlags && x.ts == 0 && x.sa == 0 && x.sb == 0
  | .put => noFlags && x.sa == 0
  | .get => noFlags && x.sa == 0
  | .wait_ => noFlags && x.ts == 0 && x.td == 0 && x.sa == 0 && x.sb == 0 && x.imm % 16 != 0
  | .test => noFlags && x.ts == 0 && x.td == 0 && x.sb == 0
  | .tld => noFlags && x.ts == 0 && x.sb == 0
  | .tst => noFlags && x.td == 0 && x.sb == 0
  | .tmov => noFlags && x.sa == 0 && x.sb == 0
  | .taddb => noFlags && x.sb == 0

/-- The control instruction takes a static prediction (09 R282). -/
def COp.hinted (o : COp) : Bool :=
  match o with
  | .br => true | .jr => true | .call => true | .callr => true | .loop => true
  | _ => false

/-- The control instruction is a queue instruction (09 "Control opcodes"). -/
def COp.isQueue (o : COp) : Bool :=
  match o with
  | .qsel => true | .qopen => true | .qpush => true | .qpushv => true | .qcommit => true | .qabort => true | .qread => true
  | .qreadv => true | .qmark => true | .qrewind => true | .qrelease => true
  | _ => false

/-- The control slot's fields are legal (09 "Control slot fields", R262, R282–R288, R293, R295). -/
def CSlot.legal (x : CSlot) : Bool :=
  let a0 := x.ra == 0
  let b0 := x.rb == 0
  let n := x.imm % 16
  x.resv == 0 && (x.op.hinted || !x.hint) && (x.op == .crd || x.op == .cwr || x.cr == 0) && (x.op.isQueue || x.qd == 0) &&
  match x.op with
  | .br => a0 && b0
  | .jr => b0
  | .call => a0
  | .callr => true
  | .loop => b0
  | .exit => a0 && b0
  | .trap => a0 && b0
  | .brk => a0 && b0 && x.imm == 0
  | .fence => a0 && b0 && x.imm == 0
  | .ifence => a0 && b0 && x.imm == 0
  | .crd => a0 && decide (x.cr < 10)
  | .cwr => b0 && (x.cr == 2 || x.cr == 3)
  | .settag => a0 && b0
  | .claim => a0 && b0 && x.imm == 0
  | .release => a0 && b0 && x.imm == 0
  | .qsel => a0
  | .qopen => b0 && x.imm / 1024 == 0 && decide (1 ≤ x.imm % 512) && decide (x.imm % 512 ≤ 256)
  | .qpush => x.rb % 2 == 0
  | .qpushv => decide (x.rb < 32) && decide (1 ≤ n) && decide (n ≤ 8)
  | .qcommit => b0
  | .qabort => b0
  | .qread => x.rb % 2 == 0
  | .qreadv => decide (x.rb < 32) && decide (1 ≤ n) && decide (n ≤ 8)
  | .qmark => b0
  | .qrewind => b0
  | .qrelease => b0

/-- The first slot of a bundle whose fields are illegal as an encoding (R259, R262). -/
def Bundle.firstIllegal (b : Bundle) : Option SlotId :=
  let first (l : List (Bool × SlotId)) : Option SlotId := (l.find? (fun e => e.1)).map (fun e => e.2)
  first [(b.bad == some .sa || b.sa.any (fun x => !x.legal), .sa), (b.bad == some .sb || b.sb.any (fun x => !x.legal), .sb),
    (b.bad == some .vx || b.vx.any (fun x => !x.legal), .vx), (b.bad == some .mx || b.mx.any (fun x => !x.legal), .mx),
    (b.bad == some .dx || b.dx.any (fun x => !x.legal), .dx), (b.bad == some .cx || b.cx.any (fun x => !x.legal), .cx)]

end Sys2Proof.Machine
end

