-- ==== Sys2Proof/Machine/Translation.lean ====
section
/-!
DEFINITION. Translation and protection (13): the walk, the caches, fault records and the fault ring, and invalidation; and the
accessors of the Facet state that every Facet chapter shares.
-/

namespace Sys2Proof.Machine

/-! ### The cores -/

/-- Core `k`. -/
def coreGet (s : State) (k : Nat) : CoreSt := fgetD CoreSt.reset s.facet.cores k

/-- The state with core `k` replaced. -/
def coreSet (s : State) (k : Nat) (c : CoreSt) : State :=
  { s with facet := { s.facet with cores := fsetD CoreSt.reset s.facet.cores k c } }

/-- Changes core `k`. -/
def coreMod (s : State) (k : Nat) (f : CoreSt → CoreSt) : State := coreSet s k (f (coreGet s k))

/-- The context in hardware context `h` of core `k`. -/
def hcGet (s : State) (k h : Nat) : Option Hc := fget? (coreGet s k).hcs h

/-- The state with hardware context `h` of core `k` replaced; `none` frees it. -/
def hcSet (s : State) (k h : Nat) (x : Option Hc) : State := coreMod s k (fun c => { c with hcs := fput c.hcs h x })

/-- Changes the context in a hardware context, if there is one. -/
def hcMod (s : State) (k h : Nat) (f : Hc → Hc) : State :=
  match hcGet s k h with
  | some x => hcSet s k h (some (f x))
  | none => s

/-- FCT_ID.ACTIVE of core `k` (01 R35, 10 R327). -/
def coreActive (s : State) (k : Nat) : Bool := decide (k < 1280) && regF s .fctId 0 k 32 1 == 1

/-- The first address of core `k`'s Ring store (08 R217, R218). -/
def ringBase (k : Nat) : Nat := 0x000200000000 + 0x200000 * k

/-- The offset of the core area in a Ring store (08 "Ring store map"). -/
def coreArea : Nat := 0x1FC000

/-- The bytes of the context region of a Ring store (08 R223). -/
def contextRegion : Nat := 0x1C0000

/-! ### Permitted pages (13 R394, 14 R410) -/

/-- The copy ranges of enabled mirror regions that meet `[off, off + n)` of an odd stack. -/
def meetsCopy (s : State) (st off n : Nat) : Bool :=
  st % 2 == 1 && (List.range 8).any (fun r =>
    let b := regF s .hbmMir r (st - 1) 6 15 * 2 ^ 21
    let e := b + regF s .hbmMir r (st - 1) 21 15 * 2 ^ 21
    regF s .hbmMir r (st - 1) 0 1 == 1 && decide (b < off + n) && decide (off < e))

/-- The range `[a, a + n)` lies wholly within the populated HBM range (14 R410). -/
def inPopulated (s : State) (a n : Nat) : Bool :=
  inHbm a && (n == 0 || (inHbm (a + n - 1) && hbmStack a == hbmStack (a + n - 1))) &&
    !meetsCopy s (hbmStack a) ((a - hbmBase) % 2 ^ 36) n

/-- The range lies in the context region of the Ring store of an active core (13 R394). -/
def inContextRegion (s : State) (a n : Nat) : Bool :=
  inRing a && coreActive s (ringCore a) && decide ((a - 0x000200000000) % 0x200000 + n ≤ contextRegion)

/-- The range lies in the tensor staging partition of Heartwood (13 R394). -/
def inStaging (s : State) (a n : Nat) : Bool :=
  decide (cellAddr (stageFirst s) ≤ a) && decide (a + n ≤ cellAddr (stageFirst s + stageSize s))

/-- A page is permitted (13 R394). DEDUCED: log 102. -/
def permitted (s : State) (a n : Nat) : Bool := inPopulated s a n || inContextRegion s a n || inStaging s a n

/-! ### The walk (13 R390–R396) -/

/-- The permission an access needs. -/
inductive Need where
  | r | w | x
deriving DecidableEq, Repr

/-- The leaf bit of a permission (13 "Table entry"). -/
def Need.bit (n : Need) : Nat := match n with | .r => 2 | .w => 3 | .x => 4

/-- What a translation answers: an address, a serviceable fault (KIND, LEVEL), or a refusal (13 R399). -/
inductive Xlt where
  | ok (pa : Nat)
  | fault (kind level : Nat)
  | refused
deriving DecidableEq, Repr

/-- The lowest virtual address bit that a level indexes (13 "Translation levels"). -/
def levelShift (lv : Nat) : Nat := match lv with | 0 => 39 | 1 => 30 | 2 => 21 | _ => 16

/-- Entries per table of a level. -/
def levelEntries (lv : Nat) : Nat := if lv < 3 then 512 else 32

/-- The bytes and the alignment of a table of a level. -/
def tableBytes (lv : Nat) : Nat := if lv < 3 then 4096 else 256

/-- The index of a virtual address in a table of a level. -/
def levelIndex (va lv : Nat) : Nat := (va >>> levelShift lv) % levelEntries lv

/-- The address field of a table entry. -/
def entryAddr (d : Nat) : Nat := bitsN d 8 40 * 256

/-- An entry is malformed at a level (13 R393). -/
def malformed (s : State) (d lv : Nat) : Bool :=
  let leaf := bitN d 1
  bitsN d 5 3 != 0 || bitsN d 48 16 != 0 || (leaf && lv == 0) || (!leaf && lv == 3) ||
    (if leaf then entryAddr d % 2 ^ levelShift lv != 0
     else bitsN d 2 3 != 0 || entryAddr d % tableBytes (lv + 1) != 0 || !inPopulated s (entryAddr d) (tableBytes (lv + 1)))

/-- The caches of a translation unit. -/
def unitGet (s : State) (u : Nat) : XltUnit := fgetD XltUnit.reset s.facet.units u

/-- The state with the caches of a translation unit replaced. -/
def unitSet (s : State) (u : Nat) (x : XltUnit) : State :=
  { s with facet := { s.facet with units := fsetD XltUnit.reset s.facet.units u x } }

/-- The unit of the GCT memory port. -/
def unitGct : Nat := 1280

/-- The unit of Span inbound accesses. -/
def unitSpan : Nat := 1281

/-- Counts an event of a core's translation unit; the Bole units have no such counter. -/
def countXlt (s : State) (u : Nat) (n : RegName) : State := if u < 1280 then bump s n 0 u else s

/-- The answer of a valid leaf (13 R392, R394). DEDUCED: log 102. -/
def leafAnswer (s : State) (d lv va : Nat) (need : Need) : Xlt :=
  let size := 2 ^ levelShift lv
  if !permitted s (entryAddr d) size then .refused
  else if !bitN d need.bit then .fault 2 lv
  else .ok (entryAddr d + va % size)

/-- The walk from the table `t` of level `lv` (13 R392). -/
def walkFrom (s : State) (u ctx va : Nat) (need : Need) (t lv fuel : Nat) : Xlt × State :=
  match fuel with
  | 0 => (.refused, s)
  | k + 1 =>
    let a := t + 8 * levelIndex va lv
    let s1 := memTouch s a 8
    if memPoisoned s a 8 then (.fault 4 lv, countXlt s1 u .xltWalkUe)
    else
      let d := leNat (memBytes s a 8)
      if !bitN d 0 then (.fault 1 lv, s1)
      else if malformed s1 d lv then (.refused, s1)
      else if bitN d 1 then
        match leafAnswer s1 d lv va need with
        | .ok pa =>
          let x := unitGet s1 u
          let l : CachedLeaf := { ctx := ctx, page := va >>> levelShift lv, level := lv, entry := d }
          (.ok pa, unitSet s1 u { x with leaves := (l :: x.leaves).take 1024 })
        | r => (r, s1)
      else
        let x := unitGet s1 u
        let p : CachedPtr := { ctx := ctx, bits := va >>> levelShift lv, level := lv + 1, table := entryAddr d }
        walkFrom (unitSet s1 u { x with ptrs := (p :: x.ptrs).take 64 }) u ctx va need (entryAddr d) (lv + 1) k

/-- The walk from the space table (13 R390, R392, R393). -/
def walkSpace (s : State) (u ctx va : Nat) (need : Need) : Xlt × State :=
  let a := regF s .xltSpaceBase 0 0 20 28 * 2 ^ 20 + 16 * ctx
  let s1 := memTouch s a 16
  if memPoisoned s a 16 then (.fault 4 0xFF, countXlt s1 u .xltWalkUe)
  else
    let e := leNat (memBytes s a 16)
    if !bitN e 0 then (.fault 3 0xFF, s1)
    else if bitsN e 1 11 != 0 || bitsN e 48 80 != 0 || !inPopulated s1 (bitsN e 12 36 * 4096) 4096 then (.refused, s1)
    else walkFrom s1 u ctx va need (bitsN e 12 36 * 4096) 0 4

/-- The cached pointer at the deepest level for an address (13 R392). DEDUCED: log 101. -/
def deepestPtr (x : XltUnit) (ctx va : Nat) : Option CachedPtr :=
  let hit (lv : Nat) := x.ptrs.find? (fun p => p.ctx == ctx && p.level == lv && p.bits == va >>> levelShift (lv - 1))
  match hit 3 with
  | some p => some p
  | none => match hit 2 with
    | some p => some p
    | none => hit 1

/-- The cached leaf that covers an address. DEDUCED: log 101. -/
def cachedLeaf (x : XltUnit) (ctx va : Nat) : Option CachedLeaf :=
  x.leaves.find? (fun l => l.ctx == ctx && l.page == va >>> levelShift l.level)

/-- Translates a virtual address for unit `u` (13 R392–R396): a cached leaf is used when it covers the address, and one that
raises a permission fault is discarded. DEDUCED: log 101. -/
def translate (s : State) (u ctx va : Nat) (need : Need) : Xlt × State :=
  let x := unitGet s u
  match cachedLeaf x ctx va with
  | some l =>
    let r := leafAnswer s l.entry l.level va need
    (r, match r with
        | .fault _ _ => unitSet s u { x with leaves := x.leaves.erase l }
        | _ => s)
  | none =>
    let s1 := countXlt s u .xltWalks
    match deepestPtr x ctx va with
    | some p => walkFrom s1 u ctx va need p.table p.level 4
    | none => walkSpace s1 u ctx va need

/-- Whether a translation would need no walk: a cached leaf covers the address (08 R234). -/
def translatesAtOnce (s : State) (u ctx va : Nat) : Bool := (cachedLeaf (unitGet s u) ctx va).isSome

/-! ### Fault records (13 R400) -/

/-- The fields of a fault record beside FSEQ and TIME. -/
structure FaultInfo where
  va : Nat
  ctx : Nat
  hc : Nat
  src : Nat
  kind : Nat
  level : Nat
  tag : Nat
  pc : Nat
  unit : Nat
deriving DecidableEq, Repr

/-- A fault record (13 "Fault record"). -/
def faultRecord (s : State) (core fseq : Nat) (f : FaultInfo) : Bytes :=
  padTo (leBytes 8 f.va ++ leBytes 2 f.ctx ++ leBytes 2 core ++ leBytes 1 f.hc ++ leBytes 1 f.src ++ leBytes 1 f.kind ++
    leBytes 1 f.level ++ leBytes 4 fseq ++ leBytes 1 f.tag ++ zeros 3 ++ leBytes 8 f.pc ++ leBytes 8 f.unit ++
    leBytes 8 (stampNow s)) 128

/-- XLT_FRING.WR of a core. -/
def fringWr (s : State) (k : Nat) : Nat := regF s .xltFring 0 k 0 32

/-- XLT_FRING.RD of a core. -/
def fringRd (s : State) (k : Nat) : Nat := regF s .xltFring 0 k 32 32

/-- Writes waiting fault records into the ring while it has room, each with its FAULT event (13 R400). -/
def drainFaults (s : State) (k fuel : Nat) : State :=
  match fuel, (coreGet s k).faults with
  | n + 1, r :: rest =>
    let wr := fringWr s k
    if (wr + 2 ^ 32 - fringRd s k) % 2 ^ 32 < 64 then
      let s1 := memWr s (ringBase k + coreArea + 128 * (wr % 64)) r
      let s2 := bump (regPutF s1 .xltFring 0 k 0 32 (wr + 1)) .xltFaults 0 k
      let s3 := crownEvent s2 1 (leBytes 4 wr ++ leBytes 2 k)
      drainFaults (coreMod s3 k (fun c => { c with faults := rest })) k n
    else s
  | _, _ => s

/-- Raises a serviceable fault of a core (13 R400): answers its FSEQ; a full ring makes the record wait, and the wait is
counted. -/
def raiseFault (s : State) (k : Nat) (f : FaultInfo) : Nat × State :=
  let waiting := (coreGet s k).faults.length
  let fseq := (fringWr s k + waiting) % 2 ^ 32
  let s1 := coreMod s k (fun c => { c with faults := c.faults ++ [faultRecord s k fseq f] })
  let s2 := drainFaults s1 k (waiting + 1)
  (fseq, if (coreGet s2 k).faults.isEmpty then s2 else bump s2 .xltRingWait 0 k)

/-- FAULT_RING_RD (13 R400, XLT_FRING.RD): a value with WR − RD outside 0–64 is ignored. -/
def faultRingRd (s : State) (k rd : Nat) : State :=
  if 64 < (fringWr s k + 2 ^ 32 - rd % 2 ^ 32) % 2 ^ 32 then s
  else drainFaults (regPutF s .xltFring 0 k 32 32 rd) k (coreGet s k).faults.length

/-! ### Invalidation (13 R397, R398) -/

/-- What an invalidation covers. -/
inductive InvScope where
  | address (ctx va : Nat)
  | context (ctx : Nat)
  | all
deriving DecidableEq, Repr

/-- A cached leaf lies within a scope: for one address, leaves of every size that cover it. -/
def InvScope.leaf (i : InvScope) (l : CachedLeaf) : Bool :=
  match i with
  | .address c va => l.ctx == c && l.page == va >>> levelShift l.level
  | .context c => l.ctx == c
  | .all => true

/-- A cached pointer lies within a scope: for one address, the pointers above it. -/
def InvScope.ptr (i : InvScope) (p : CachedPtr) : Bool :=
  match i with
  | .address c va => p.ctx == c && p.bits == va >>> levelShift (p.level - 1)
  | .context c => p.ctx == c
  | .all => true

/-- A virtual address of a context lies within a scope, or in a page whose leaf the scope discards. -/
def InvScope.covers (i : InvScope) (gone : List CachedLeaf) (ctx v : Nat) : Bool :=
  match i with
  | .address c va => ctx == c && (v / 65536 == va / 65536 || gone.any (fun l => l.page == v >>> levelShift l.level))
  | .context c => ctx == c
  | .all => true

/-- A bundle-cache line lies within a scope. -/
def InvScope.line (i : InvScope) (gone : List CachedLeaf) (b : BundleLine) : Bool := i.covers gone b.ctx b.va

/-- A tag whose MGET unit has been translated, and waits for its data, through a translation that a scope discards (R398). -/
def InvScope.tag (i : InvScope) (gone : List CachedLeaf) (ctx : Nat) (t : TagSt) : TagSt :=
  match t with
  | .busy f => match f.keep.dest with
    | some (va, _) => if i.covers gone ctx va then .busy { f with keep := { f.keep with stale := true } } else t
    | none => t
  | _ => t

/-- What an invalidation does on a core: bundle-cache lines go, and accesses translated before are marked. -/
def InvScope.core (i : InvScope) (gone : List CachedLeaf) (c : CoreSt) : CoreSt :=
  { c with
    cache := c.cache.filter (fun b => !i.line gone b)
    hcs := c.hcs.map (fun e => (e.1, { e.2 with tags := e.2.tags.map (fun t => (t.1, i.tag gone e.2.ctx t.2)) })) }

/-- A write to XLT_INVAL (13 R398): ignored with ERR while BUSY; otherwise every unit discards what lies within the scope, and
BUSY is set. -/
def xltInvalidate (s : State) (i : InvScope) : State :=
  if regF s .xltInval 0 0 50 1 = 1 then regPutF s .xltInval 0 0 51 1 1
  else
    let cut (x : XltUnit) : XltUnit :=
      { leaves := x.leaves.filter (fun l => !i.leaf l), ptrs := x.ptrs.filter (fun p => !i.ptr p) }
    let cores := s.facet.cores.map (fun e =>
      let gone := (unitGet s e.1).leaves.filter i.leaf
      (e.1, i.core gone e.2))
    let units := s.facet.units.map (fun e => (e.1, cut e.2))
    let f := { s.facet with
      cores := cores.filter (fun e => e.2 != CoreSt.reset), units := units.filter (fun e => e.2 != XltUnit.reset) }
    regPutF { s with facet := f } .xltInval 0 0 50 1 1

/-- A write to XLT_INVAL that names scope 3 (13 XLT_INVAL). -/
def xltInvalidateBad (s : State) : State := regPutF s .xltInval 0 0 51 1 1

/-- Some access that was translated through a discarded translation has still to complete (R398). -/
def staleAccess (s : State) : Bool :=
  s.facet.cores.any (fun c => c.2.hcs.any (fun h => h.2.tags.any (fun t => match t.2 with
    | .busy f => f.keep.stale
    | _ => false)))

/-- INVALIDATION_COMPLETE (13 R398): BUSY clears once every access already translated through a discarded entry has completed. -/
def invalidationComplete (s : State) : State :=
  if regF s .xltInval 0 0 50 1 = 1 ∧ staleAccess s = false then bump (regPutF s .xltInval 0 0 50 1 0) .xltInvals 0 0 else s

/-- The Crown cores reach the range `[a, a + n)` (17 R481, 08 R218, 14 R409): populated HBM, Heartwood, or the Ring store of a core of the
active set or in evacuation. -/
def crownReaches (s : State) (a n : Nat) : Bool :=
  n == 0 || inPopulated s a n || (inHeart a && inHeart (a + n - 1)) ||
    (inRing a && inRing (a + n - 1) && ringCore a == ringCore (a + n - 1) &&
      (coreActive s (ringCore a) || (coreGet s (ringCore a)).evac))

/-- A store of a Crown core: outside what it reaches it performs nothing (17 R481). -/
def crownStore (s : State) (a : Nat) (bs : Bytes) : State := if crownReaches s a bs.length then memWr s a bs else s

/-- The runtime creates a context, unless it exists (08 R244; 13 R406; 17 R492). DESIGN CHOICE: log 40. -/
def createContext (s : State) (ctx : Nat) (o : Option NewContext) : State :=
  match o with
  | some c =>
    if (fget? s.crown.contexts ctx).isSome then s
    else { s with crown := { s.crown with contexts := finsert s.crown.contexts ctx c } }
  | none => s

/-- What the runtime's cores stored before they act (13 R397, R402; 08 R241). -/
def runtimeStores (s : State) (ws : List (Nat × Bytes)) : State := ws.foldl (fun t w => crownStore t w.1 w.2) s

end Sys2Proof.Machine
end

