-- ==== Sys2Proof/Machine/Operands.lean ====
section
/-!
DEFINITION. The operand forms of Gramar-W (08 R219, R221; 09 R261, R262, R267, R269): registers and their poison bits, governing
conditions, second operands and addresses, registers that a load in flight will write, and the writing of registers.
-/

namespace Sys2Proof.Machine

/-! ### Reading registers -/

/-- Scalar register n. -/
def Hc.sreg (x : Hc) (n : Nat) : Word := fgetD 0 x.s n

/-- Vector register n. -/
def Hc.vreg (x : Hc) (n : Nat) : VWord := fgetD 0 x.v n

/-- Predicate register n; p0 reads all ones (08 "Context state"). -/
def Hc.preg (x : Hc) (n : Nat) : PWord := if n = 0 then BitVec.allOnes 128 else fgetD 0 x.p n

/-- Descriptor register n. -/
def Hc.treg (x : Hc) (n : Nat) : TWord := fgetD 0 x.t n

/-- The poison bit of scalar register n. -/
def Hc.sBad (x : Hc) (n : Nat) : Bool := bitN x.sPoison n

/-- The poison bit of vector register n. -/
def Hc.vBad (x : Hc) (n : Nat) : Bool := bitN x.vPoison n

/-- The poison bit of descriptor register n. -/
def Hc.tBad (x : Hc) (n : Nat) : Bool := bitN x.tPoison n

/-- A load in flight will write the register (08 R228). -/
def Hc.pending (x : Hc) (r : RegRef) : Bool := x.loads.any (fun l => l.reg == r)

/-! ### Conditions (09 R261) -/

/-- The governing condition of a scalar, matrix, mover or control slot: bit 0 of p[PRED] XOR PNEG. -/
def Hc.cond (x : Hc) (pred : Nat) (pneg : Bool) : Bool := (x.preg pred).getLsbD 0 != pneg

/-- Byte lane `b` of a vector slot is enabled. -/
def Hc.lane (x : Hc) (pred : Nat) (pneg : Bool) (b : Nat) : Bool := (x.preg pred).getLsbD b != pneg

/-- Every byte lane is enabled. -/
def Hc.allLanes (x : Hc) (pred : Nat) (pneg : Bool) : Bool := x.preg pred == (if pneg then 0 else BitVec.allOnes 128)

/-! ### Second operands and addresses (09 R267, R269, R271) -/

/-- A 32-bit immediate sign-extended to 64 bits. -/
def sext32 (imm : Nat) : Word := BitVec.ofNat 64 (ofInt 64 (toInt 32 imm))

/-- B: s[RB], or the immediate when IMMF = 1. -/
def Hc.opB (x : Hc) (i : SSlot) : Word := if i.immf then sext32 i.imm else x.sreg i.rb

/-- The poison of the two operands of a scalar instruction that reads s[RA] and B. -/
def Hc.badAB (x : Hc) (i : SSlot) : Bool := x.sBad i.ra || (!i.immf && x.sBad i.rb)

/-- A load or store address modulo 2⁴⁸ (R269). -/
def addr48 (a b : Word) : Nat := (a + b).toNat % 2 ^ 48

/-- The address of a scalar load or store. -/
def Hc.scalarAddr (x : Hc) (i : SSlot) : Nat := addr48 (x.sreg i.ra) (x.opB i)

/-- The address of VLD or VST (R271). -/
def Hc.vectorAddr (x : Hc) (i : VSlot) : Nat := addr48 (x.sreg i.sr) (sext32 i.imm)

/-- The address of TLD or TST (09 "Mover opcodes"). -/
def Hc.descAddr (x : Hc) (i : DSlot) : Nat := addr48 (x.sreg i.sa) (sext32 i.imm)

/-- A control target relative to the bundle: PC + 64 × sext(IMM), modulo 2⁴⁸ (R260, R282). -/
def Hc.relTarget (x : Hc) (imm : Nat) : Nat := ofInt 48 ((x.pc : Int) + 64 * toInt 32 imm)

/-- A control target from a register: s[RA] + sext(IMM) (R282). -/
def Hc.regTarget (x : Hc) (i : CSlot) : Nat := addr48 (x.sreg i.ra) (sext32 i.imm)

/-- The next bundle's address (R260). -/
def Hc.nextPc (x : Hc) : Nat := (x.pc + 0x40) % 2 ^ 48

/-! ### Elements of vector registers (09 R271) -/

/-- Element `e` of `w` bits. -/
def velem (v : VWord) (w e : Nat) : Nat := bitsN v.toNat (w * e) w

/-- The vector whose elements of `w` bits are listed, from element 0. -/
def vpack (w : Nat) (es : List Nat) : VWord :=
  BitVec.ofNat 1024 (es.foldr (fun e acc => e % 2 ^ w + acc * 2 ^ w) 0)

/-- The byte lanes set in a predicate register from a list of Booleans. -/
def ppack (bs : List Bool) : PWord := BitVec.ofNat 128 (bs.foldr (fun b acc => b2n b + 2 * acc) 0)

/-- Byte `b` of a vector register. -/
def vbyte (v : VWord) (b : Nat) : Byte := byteOf (velem v 8 b)

/-- The bytes of a vector register, lane 0 first. -/
def vbytes (v : VWord) : Bytes := (List.range 128).map (vbyte v)

/-! ### Writing registers (08 R219, R221) -/

/-- One register write of a bundle. -/
inductive RegWrite where
  | s (n : Nat) (v : Word) (poison : Bool)
  | v (n : Nat) (v : VWord) (poison : Bool)
  | p (n : Nat) (v : PWord)
  | t (n : Nat) (v : TWord) (poison : Bool)
deriving DecidableEq, Repr

/-- A load in flight no longer writes the register: a younger write has replaced its value. -/
def Hc.dropLoad (x : Hc) (r : RegRef) : Hc := { x with loads := x.loads.filter (fun l => l.reg != r) }

/-- Applies one register write; a write to p0 is discarded. -/
def Hc.write (x : Hc) (w : RegWrite) : Hc :=
  match w with
  | .s n v b => { x.dropLoad (.s n) with s := fsetD 0 x.s n v, sPoison := setBitN x.sPoison n b }
  | .v n v b => { x.dropLoad (.v n) with v := fsetD 0 x.v n v, vPoison := setBitN x.vPoison n b }
  | .p n v => if n = 0 then x else { x with p := fsetD 0 x.p n v }
  | .t n v b => { x.dropLoad (.t n) with t := fsetD 0 x.t n v, tPoison := setBitN x.tPoison n b }

/-- Applies register writes in order. -/
def Hc.writes (x : Hc) (ws : List RegWrite) : Hc := ws.foldl Hc.write x

/-- The register that a write names, as R263 compares them: a kind and a number; p0 is none. -/
def RegWrite.key (w : RegWrite) : Option (Nat × Nat) :=
  match w with
  | .s n _ _ => some (0, n)
  | .v n _ _ => some (1, n)
  | .p n _ => if n = 0 then none else some (2, n)
  | .t n _ _ => some (3, n)

end Sys2Proof.Machine
end

