-- ==== Sys2Proof/Machine/Flags.lean ====
section
/-!
DEFINITION. The status computations of Gramar-W: exceptions and their priorities (08 R249), the queue status word (09 R292), the
tag states of MTEST and MOV_TAGS (09 R280, 12 R388), and the failure codes of the Lattice (10 R328).
-/

namespace Sys2Proof.Machine

/-- The number of a slot in exception records. -/
def SlotId.index (x : SlotId) : Nat := match x with | .sa => 0 | .sb => 1 | .vx => 2 | .mx => 3 | .dx => 4 | .cx => 5

/-- An exception of a bundle (08 "Exceptions", R250): its code, which is its priority too, slot, faulting address or TRAP's
immediate, tag, and the run status that it gives. -/
structure Exc where
  code : Nat
  slot : SlotId
  va : Nat
  tag : Nat
  status : Nat
deriving DecidableEq, Repr

/-- The run status of an exception code that has one of its own (08 "Exceptions"). -/
def excStatus (code : Nat) : Nat :=
  match code with
  | 1 => 0x30 | 2 => 0x31 | 3 => 0x60 | 4 => 0x31 | 5 => 0x60 | 6 => 0x31 | 7 => 0x30 | 8 => 0x31 | 11 => 0x50 | _ => 0x31

/-- An exception with the status of its code. -/
def mkExc (code : Nat) (slot : SlotId) (va : Nat) : Exc := { code := code, slot := slot, va := va, tag := 0, status := excStatus code }

/-- ILLEGAL. -/
def excIllegal (slot : SlotId) : Exc := mkExc 4 slot 0

/-- POISON_USE. -/
def excPoison (slot : SlotId) : Exc := mkExc 5 slot 0

/-- ALIGN at an address. -/
def excAlign (slot : SlotId) (va : Nat) : Exc := mkExc 6 slot va

/-- DATA_XLATE or DATA_PROT for a refused status. -/
def excData (status : Nat) (slot : SlotId) (va : Nat) : Exc := mkExc (if status = 0x30 then 7 else 8) slot va

/-- XFER_FAIL of a tag with its status. -/
def excXfer (slot : SlotId) (tag status : Nat) : Exc := { code := 9, slot := slot, va := 0, tag := tag, status := status }

/-- The exception that collects a Lattice failure code of a bank (10 "Failure codes", R329): the tag is 4a + b. -/
def excLattice (tag code : Nat) : Exc :=
  match code with
  | 1 => { code := 10, slot := .mx, va := 0, tag := tag, status := 0x41 }
  | 2 => { code := 10, slot := .mx, va := 0, tag := tag, status := 0x60 }
  | 3 => { code := 7, slot := .mx, va := 0, tag := tag, status := 0x30 }
  | _ => { code := 8, slot := .mx, va := 0, tag := tag, status := 0x31 }

/-- The run status of a Lattice failure code (10 "Failure codes"). -/
def latStatus (code : Nat) : Nat := match code with | 1 => 0x41 | 2 => 0x60 | 3 => 0x30 | _ => 0x31

/-- The exception comes before the other (08 R249). DEDUCED: log 90. -/
def Exc.before (a b : Exc) : Bool :=
  decide (a.code < b.code) || (a.code == b.code && decide (a.slot.index < b.slot.index))

/-- The exception that a bundle raises among those that arise in it (08 R249). DEDUCED: log 90. -/
def chooseExc (l : List Exc) : Option Exc :=
  l.foldl (fun o e => match o with
    | none => some e
    | some m => if e.before m then some e else some m) none

/-- The queue status word (09 "Queue status word"). -/
def queueStatusWord (code : Nat) (sop eop poison : Bool) (count : Nat) : Word :=
  BitVec.ofNat 64 (code + b2n sop * 2 ^ 8 + b2n eop * 2 ^ 9 + b2n poison * 2 ^ 10 + count * 2 ^ 12)

/-- The state of tag `x` of a context. -/
def Hc.tag (x : Hc) (n : Nat) : TagSt := fgetD .idle x.tags n

/-- The two bits of a tag state (09 R280). -/
def TagSt.bits (t : TagSt) : Nat := match t with | .idle => 0 | .busy _ => 1 | .done => 2 | .failed _ => 3

/-- The tag is BUSY. -/
def TagSt.isBusy (t : TagSt) : Bool := match t with | .busy _ => true | _ => false

/-- The failure status of a FAILED tag. -/
def TagSt.failure (t : TagSt) : Option Nat := match t with | .failed st => some st | _ => none

/-- The states of the four tags, two bits each (09 R280). -/
def Hc.tagBits (x : Hc) : Nat := (List.range 4).foldl (fun a n => a + (x.tag n).bits * 4 ^ n) 0

/-- The lowest FAILED tag in a mask, with its status. -/
def Hc.lowestFailed (x : Hc) (mask : Nat) : Option (Nat × Nat) :=
  ((List.range 4).filterMap (fun n => if bitN mask n then (x.tag n).failure.map (fun st => (n, st)) else none)).head?

/-- What MTEST writes (09 R280). -/
def Hc.tagWord (x : Hc) : Word :=
  BitVec.ofNat 64 (x.tagBits + ((x.lowestFailed 15).map Prod.snd).getD 0 % 256 * 2 ^ 8)

/-- Some tag of a mask is BUSY. -/
def Hc.anyBusy (x : Hc) (mask : Nat) : Bool := (List.range 4).any (fun n => bitN mask n && (x.tag n).isBusy)

/-- The failure code of array a, bank b, region g (10 R328). -/
def Lattice.code (l : Lattice) (a b g : Nat) : Nat := fgetD 0 l.codes (16 * a + 4 * b + g)

/-- The 48 code bits of an array that MXTEST writes (10 R329). -/
def Lattice.codeWord (l : Lattice) (a : Nat) : Word :=
  BitVec.ofNat 64 ((List.range 16).foldl (fun w i => w + l.code a (i / 4) (i % 4) * 2 ^ (3 * i)) 0)

end Sys2Proof.Machine
end

