-- ==== Sys2Proof/Machine/Scalar.lean ====
section
/-!
DEFINITION. The scalar slots (09 R267–R270), and what every slot of a bundle answers before the bundle commits (08 R247): its
exceptions, its serviceable fault, and the effects that it will have.
-/

namespace Sys2Proof.Machine

/-- A serviceable fault of a slot (13 R399): access source, address, KIND and LEVEL. -/
structure Flt where
  slot : SlotId
  src : Nat
  va : Nat
  kind : Nat
  level : Nat
deriving DecidableEq, Repr

/-- What a slot answers: exceptions, a serviceable fault, whether the bundle must wait, and its effects at commit: register
writes, loads whose data arrives later, stores, and ranges read. -/
structure SlotOut where
  exc : List Exc
  flt : Option Flt
  wait : Bool
  wr : List RegWrite
  loads : List LoadWait
  st : List (Nat × Bytes × Bool)
  touch : List (Nat × Nat)
deriving DecidableEq, Repr

/-- A slot without any effect. -/
def SlotOut.none_ : SlotOut := { exc := [], flt := none, wait := false, wr := [], loads := [], st := [], touch := [] }

/-- A slot that raises. -/
def SlotOut.raise (e : Exc) : SlotOut := { SlotOut.none_ with exc := [e] }

/-- A slot that writes registers. -/
def SlotOut.write (ws : List RegWrite) : SlotOut := { SlotOut.none_ with wr := ws }

/-- Translates an access of a core's context (13 R399): the address, or the answer of a slot that faults or is refused. The
disposition of a restored bundle turns a serviceable fault into its exception (13 R404). -/
def access (s : State) (k : Nat) (x : Hc) (va : Nat) (need : Need) (slot : SlotId) (src : Nat) : Except SlotOut Nat × State :=
  match translate s k x.ctx va need with
  | (.ok pa, s1) => (.ok pa, s1)
  | (.fault kind level, s1) =>
    if x.disp = 2 then (.error (.raise (excData 0x30 slot va)), s1)
    else if x.disp = 3 then (.error (.raise (excData 0x31 slot va)), s1)
    else (.error { SlotOut.none_ with flt := some { slot := slot, src := src, va := va, kind := kind, level := level } }, s1)
  | (.refused, s1) => (.error (.raise (excData 0x31 slot va)), bump s1 .xltRefused 0 k)

/-- The address lies in the core's own Ring store (08 R224, R228). DEDUCED: log 88. -/
def ownRing (k pa : Nat) : Bool := inRing pa && ringCore pa == k

/-- The bytes that a run-ahead buffer entry gives a load, where one covers every byte of it (08 R235). -/
def Hc.aheadHit (x : Hc) (va n : Nat) : Option (Bytes × Bool) :=
  x.buf.findSome? (fun e =>
    if e.va ≤ va ∧ va + n ≤ e.va + e.data.length then some (slice e.data (va - e.va) n, e.poison) else none)

/-- The write of a load's register. -/
def loadWrite (reg : RegRef) (val : Nat) (poison : Bool) : RegWrite :=
  match reg with
  | .s r => RegWrite.s r (BitVec.ofNat 64 val) poison
  | .v r => RegWrite.v r (BitVec.ofNat 1024 val) poison
  | .t r => RegWrite.t r (BitVec.ofNat 256 val) poison

/-- A load's answer: from a run-ahead buffer entry or the core's own Ring store the register is written with the bundle; from
elsewhere when the data arrives (08 R228, R235). `f` gives the register's value from the bytes. DEDUCED: log 88. -/
def loadOut (s : State) (k : Nat) (x : Hc) (va pa n : Nat) (reg : RegRef) (f : Bytes → Nat) (bad : Bool) : SlotOut :=
  match x.aheadHit va n with
  | some (bs, p) => .write [loadWrite reg (f bs) (p || bad)]
  | none =>
    let val := f (memBytes s pa n)
    let poison := memPoisoned s pa n || bad
    if ownRing k pa then { SlotOut.none_ with wr := [loadWrite reg val poison], touch := [(pa, n)] }
    else { SlotOut.none_ with loads := [{ reg := reg, val := val, poison := poison }], touch := [(pa, n)] }

/-! ### Scalar arithmetic (R267, R268) -/

/-- Leading zeros of a 64-bit value. -/
def clz64 (a : Word) : Nat := if a = 0 then 64 else 63 - Nat.log2 a.toNat

/-- Ones of a 64-bit value. -/
def popc64 (a : Word) : Nat := (List.range 64).foldl (fun n i => n + b2n (a.getLsbD i)) 0

/-- DIV: signed quotient toward zero; by zero −1 (R268). -/
def divS (a b : Word) : Word := if b = 0 then BitVec.allOnes 64 else a.sdiv b

/-- DIVU: unsigned quotient; by zero 2⁶⁴ − 1 (R268). -/
def divU (a b : Word) : Word := if b = 0 then BitVec.allOnes 64 else a / b

/-- REM: the sign of the dividend; by zero the dividend (R268). -/
def remS (a b : Word) : Word := if b = 0 then a else a.srem b

/-- REMU: by zero the dividend (R268). -/
def remU (a b : Word) : Word := if b = 0 then a else a % b

/-- The result of a scalar instruction that writes an s register without memory: `a` is s[RA], `b` is B, `old` is s[RD] and
`sel` is bit 0 of the predicate that SEL names (09 "Scalar opcodes"). -/
def scalarResult (o : SOp) (a b old : Word) (imm : Nat) (sel : Bool) : Word :=
  match o with
  | .add => a + b
  | .sub => a - b
  | .and_ => a &&& b
  | .or_ => a ||| b
  | .xor_ => a ^^^ b
  | .shl => a <<< (b.toNat % 64)
  | .shr => a >>> (b.toNat % 64)
  | .sar => a.sshiftRight (b.toNat % 64)
  | .min_ => if a.sle b then a else b
  | .max_ => if a.sle b then b else a
  | .minu => if a.ule b then a else b
  | .maxu => if a.ule b then b else a
  | .clz => BitVec.ofNat 64 (clz64 a)
  | .popc => BitVec.ofNat 64 (popc64 a)
  | .sel => if sel then a else b
  | .mul => a * b
  | .mulh => BitVec.ofInt 64 (a.toInt * b.toInt / 2 ^ 64)
  | .mulhu => BitVec.ofNat 64 (a.toNat * b.toNat / 2 ^ 64)
  | .div => divS a b
  | .divu => divU a b
  | .rem_ => remS a b
  | .remu => remU a b
  | .li => sext32 imm
  | .lui => BitVec.ofNat 64 (imm % 2 ^ 32 * 2 ^ 32 + old.toNat % 2 ^ 32)
  | _ => 0

/-- The truth of a compare (09 "Scalar opcodes"). -/
def scalarCompare (o : SOp) (a b : Word) : Bool :=
  match o with
  | .ceq => a == b
  | .cne => a != b
  | .clt => a.slt b
  | .cltu => a.ult b
  | .cle => a.sle b
  | .cleu => a.ule b
  | _ => false

/-- All ones or all zeros. -/
def predAll (b : Bool) : PWord := if b then BitVec.allOnes 128 else 0

/-- The result of a predicate instruction (09 "Scalar opcodes"). -/
def predResult (o : SOp) (a b : PWord) : PWord :=
  match o with
  | .pand => a &&& b
  | .por => a ||| b
  | .pxor => a ^^^ b
  | .pandn => a &&& ~~~b
  | _ => 0

/-- PFIRST: bit b is 1 when b < n. -/
def pfirst (n : Nat) : PWord := BitVec.ofNat 128 (2 ^ Nat.min n 128 - 1)

/-- The value that a scalar load leaves from its bytes (09 "Scalar opcodes"). -/
def loadValue (size : Nat) (sign : Bool) (bs : Bytes) : Word :=
  if sign then BitVec.ofInt 64 (toInt (8 * size) (leNat bs)) else BitVec.ofNat 64 (leNat bs)

/-! ### The scalar slots -/

/-- The registers that a scalar slot reads. -/
def SSlot.reads (i : SSlot) : List RegRef :=
  let b := if i.immf then [] else [RegRef.s i.rb]
  match i.op.form with
  | .binary => RegRef.s i.ra :: b
  | .unary => [.s i.ra]
  | .select => [.s i.ra, .s i.rb]
  | .limm => if i.op = .lui then [.s i.rd] else []
  | .compare => RegRef.s i.ra :: b
  | .preds => []
  | .first => [.s i.ra]
  | .load _ _ => RegRef.s i.ra :: b
  | .store _ => .s i.rd :: .s i.ra :: b

/-- A scalar slot before the bundle commits (R261, R267–R270). -/
def scalarOut (s : State) (k : Nat) (x : Hc) (slot : SlotId) (i : SSlot) : SlotOut × State :=
  if !x.cond i.pred i.pneg then (.none_, s)
  else
    let a := x.sreg i.ra
    let b := x.opB i
    match i.op.form with
    | .binary => (.write [.s i.rd (scalarResult i.op a b 0 i.imm false) (x.badAB i)], s)
    | .unary => (.write [.s i.rd (scalarResult i.op a 0 0 i.imm false) (x.sBad i.ra)], s)
    | .select =>
      (.write [.s i.rd (scalarResult .sel a b 0 i.imm ((x.preg (i.imm % 16)).getLsbD 0)) (x.badAB i)], s)
    | .limm =>
      (.write [.s i.rd (scalarResult i.op a b (x.sreg i.rd) i.imm false) (i.op == .lui && x.sBad i.rd)], s)
    | .compare =>
      if x.badAB i then (.raise (excPoison slot), s)
      else (.write [.p (i.rd % 16) (predAll (scalarCompare i.op a b))], s)
    | .preds => (.write [.p (i.rd % 16) (predResult i.op (x.preg (i.ra % 16)) (x.preg (i.rb % 16)))], s)
    | .first =>
      if x.sBad i.ra then (.raise (excPoison slot), s) else (.write [.p (i.rd % 16) (pfirst a.toNat)], s)
    | .load size sign =>
      let va := x.scalarAddr i
      if x.badAB i then (.raise (excPoison slot), s)
      else if va % size != 0 then (.raise (excAlign slot va), s)
      else match access s k x va .r slot 1 with
        | (.error o, s1) => (o, s1)
        | (.ok pa, s1) =>
          (loadOut s1 k x va pa size (.s i.rd) (fun bs => (loadValue size sign bs).toNat) false, s1)
    | .store size =>
      let va := x.scalarAddr i
      if x.badAB i then (.raise (excPoison slot), s)
      else if va % size != 0 then (.raise (excAlign slot va), s)
      else match access s k x va .w slot 2 with
        | (.error o, s1) => (o, s1)
        | (.ok pa, s1) => ({ SlotOut.none_ with st := [(pa, leBytes size (x.sreg i.rd).toNat, x.sBad i.rd)] }, s1)

end Sys2Proof.Machine
end

