-- ==== Sys2Proof/Machine/Vector.lean ====
section
/-!
DEFINITION. The vector slot (09 R271–R274): element arithmetic, compares, conversion, permutation, fixed-tree reductions, and the
vector load and store.
-/

namespace Sys2Proof.Machine

/-! ### Elements -/

/-- The floating format of an element type. -/
def eltFmt (e : Nat) : FFmt := if e = 4 then .bf16 else .fp32

/-- A format-level operation on the codes of two elements, rounded once (R271). -/
def fpBin (f : FFmt) (op : FVal → FVal → FVal) (a b : Nat) : Nat := f.encode (op (f.decode a) (f.decode b))

/-- The code is a NaN. -/
def fpNan (f : FFmt) (a : Nat) : Bool := f.decode a == .nan

/-- FP minimum (R271 VMIN): a NaN operand yields the other, and −0 < +0. -/
def fpMin (f : FFmt) (a b : Nat) : Nat :=
  if fpNan f a then (if fpNan f b then f.nanCode else b)
  else if fpNan f b then a
  else if (f.decode a).lt (f.decode b) then a
  else if (f.decode b).lt (f.decode a) then b
  else if bitN a (f.width - 1) then a else b

/-- FP maximum (R271 VMAX). -/
def fpMax (f : FFmt) (a b : Nat) : Nat :=
  if fpNan f a then (if fpNan f b then f.nanCode else b)
  else if fpNan f b then a
  else if (f.decode a).lt (f.decode b) then b
  else if (f.decode b).lt (f.decode a) then a
  else if bitN a (f.width - 1) then b else a

/-- A function unit on an element (R272): BF16 computes in FP32 and rounds once to BF16. -/
def fpUnit (f : FFmt) (u : Nat → Nat) (a : Nat) : Nat := if f = .bf16 then f.encode (f32 (u (a * 65536))) else u a

/-- One element of a binary or unary vector instruction of `w` bits (09 "Vector opcodes"). -/
def vElem (o : VOp) (elt a b c : Nat) : Nat :=
  let w := 8 * eltBytes elt
  let f := eltFmt elt
  if eltFloat elt then
    match o with
    | .add => fpBin f FVal.add a b
    | .sub => fpBin f (fun p q => p.add q.neg) a b
    | .mul => fpBin f FVal.mul a b
    | .fma => fmaIn f a b c
    | .min_ => fpMin f a b
    | .max_ => fpMax f a b
    | .abs => if fpNan f a then f.nanCode else setBitN a (w - 1) false
    | .neg => if fpNan f a then f.nanCode else setBitN a (w - 1) (!bitN a (w - 1))
    | .exp2 => fpUnit f fnExp2 a
    | .log2 => fpUnit f fnLog2 a
    | .rcp => fpUnit f fnRcp a
    | .rsqrt => fpUnit f fnRsqrt a
    | .tanh => fpUnit f fnTanh a
    | .sigm => fpUnit f fnSigm a
    | _ => a
  else
    match o with
    | .add => (a + b) % 2 ^ w
    | .sub => (a + 2 ^ w - b % 2 ^ w) % 2 ^ w
    | .mul => a * b % 2 ^ w
    | .min_ => if toInt w a ≤ toInt w b then a else b
    | .max_ => if toInt w a ≤ toInt w b then b else a
    | .abs => ofInt w (Int.ofNat (toInt w a).natAbs)
    | .neg => ofInt w (-(toInt w a))
    | .and_ => a &&& b
    | .or_ => a ||| b
    | .xor_ => a ^^^ b
    | .shl => (a <<< (b % w)) % 2 ^ w
    | .shr => a >>> (b % w)
    | .sar => ofInt w (toInt w a / 2 ^ (b % w))
    | _ => a

/-- A vector compare of two elements: NaN compares false (09 "Vector opcodes"). -/
def vCompare (o : VOp) (elt a b : Nat) : Bool :=
  let w := 8 * eltBytes elt
  let f := eltFmt elt
  if eltFloat elt then
    match o with
    | .ceq => (f.decode a).eqv (f.decode b)
    | .clt => (f.decode a).lt (f.decode b)
    | _ => (f.decode a).le (f.decode b)
  else
    match o with
    | .ceq => a == b
    | .clt => decide (toInt w a < toInt w b)
    | _ => decide (toInt w a ≤ toInt w b)

/-! ### Whole registers -/

/-- The elements of a register. -/
def velems (v : VWord) (elt : Nat) : List Nat := (List.range (128 / eltBytes elt)).map (velem v (8 * eltBytes elt))

/-- A register whose enabled elements take new values and whose others keep the old ones (R261). -/
def vmerge (x : Hc) (i : VSlot) (old : VWord) (f : Nat → Nat) : VWord :=
  let w := 8 * eltBytes i.elt
  vpack w ((List.range (128 / eltBytes i.elt)).map (fun e => if x.lane i.pred i.pneg (eltBytes i.elt * e) then f e else velem old w e))

/-- The second operand of a binary vector instruction: a register, or a scalar broadcast (BS). -/
def Hc.vopB (x : Hc) (i : VSlot) (e : Nat) : Nat :=
  let w := 8 * eltBytes i.elt
  if i.bs then (x.sreg i.sr).toNat % 2 ^ w else velem (x.vreg i.vb) w e

/-- The fixed tree of a reduction (R274), over a list whose length is a power of two. -/
def reduceTree (op : Nat → Nat → Nat) (l : List Nat) (fuel : Nat) : Nat :=
  match fuel with
  | 0 => l.headD 0
  | k + 1 => if l.length ≤ 1 then l.headD 0 else reduceTree op (List.zipWith op (l.take (l.length / 2)) (l.drop (l.length / 2))) k

/-- The identity of a reduction for a disabled element (R274). -/
def reduceUnit (o : VOp) (elt : Nat) : Nat :=
  let w := 8 * eltBytes elt
  let f := eltFmt elt
  if eltFloat elt then
    match o with
    | .rsum => f.sign true 0
    | .rmax => f.sign true f.infCode
    | _ => f.infCode
  else
    match o with
    | .rsum => 0
    | .rmax => 2 ^ (w - 1)
    | _ => 2 ^ (w - 1) - 1

/-- The combining operation of a reduction. -/
def reduceOp (o : VOp) (elt : Nat) : Nat → Nat → Nat :=
  match o with
  | .rsum => fun a b => vElem .add elt a b 0
  | .rmax => fun a b => vElem .max_ elt a b 0
  | _ => fun a b => vElem .min_ elt a b 0

/-- The result of a reduction: element 0, every other element 0 (R274). -/
def vReduce (x : Hc) (i : VSlot) : VWord :=
  let w := 8 * eltBytes i.elt
  let l := (List.range (128 / eltBytes i.elt)).map (fun e =>
    if x.lane i.pred i.pneg (eltBytes i.elt * e) then velem (x.vreg i.va) w e else reduceUnit i.op i.elt)
  vpack w [reduceTree (reduceOp i.op i.elt) l 8]

/-- The result of VCVT (R273). -/
def vConvert (x : Hc) (i : VSlot) : VWord :=
  let bs := 8 * eltBytes i.elt
  let bd := cvtBits (i.imm % 16)
  let n := Nat.min (1024 / bs) (1024 / bd)
  let part := bitsN i.imm 4 4
  let sf := if bs < bd then part * n else 0
  let df := if bs < bd then 0 else part * n
  let f := cvtFmt (i.imm % 16)
  let old := x.vreg i.vd
  vpack bd ((List.range (1024 / bd)).map (fun d =>
    if decide (df ≤ d) && decide (d < df + n) && x.lane i.pred i.pneg (d * bd / 8) then
      f.convert false none ((cvtFmt i.elt).plain (velem (x.vreg i.va) bs (sf + (d - df))))
    else velem old bd d))

/-- The result of VPERM: byte b is byte (VB byte b mod 128) of VA. -/
def vPermute (x : Hc) (i : VSlot) : VWord :=
  vmerge x i (x.vreg i.vd) (fun b => velem (x.vreg i.va) 8 (velem (x.vreg i.vb) 8 b % 128))

/-- The predicate that a vector compare leaves: all w bits of each enabled element. -/
def vComparePred (x : Hc) (i : VSlot) : PWord :=
  let w := eltBytes i.elt
  let old := x.preg (i.vd % 16)
  ppack ((List.range 128).map (fun b =>
    let e := b / w
    if x.lane i.pred i.pneg (w * e) then vCompare i.op i.elt (velem (x.vreg i.va) (8 * w) e) (velem (x.vreg i.vb) (8 * w) e)
    else old.getLsbD b))

/-- Every element of the slot is enabled. -/
def Hc.allEnabled (x : Hc) (i : VSlot) : Bool :=
  (List.range (128 / eltBytes i.elt)).all (fun e => x.lane i.pred i.pneg (eltBytes i.elt * e))

/-- No element of the slot is enabled. DEDUCED: log 151. -/
def Hc.noneEnabled (x : Hc) (i : VSlot) : Bool :=
  (List.range (128 / eltBytes i.elt)).all (fun e => !x.lane i.pred i.pneg (eltBytes i.elt * e))

/-- The runs of enabled bytes of a vector store: offset and bytes. -/
def enabledRuns (lanes : List (Nat × Bool × Byte)) (cur : Option (Nat × Bytes)) : List (Nat × Bytes) :=
  match lanes with
  | [] => cur.toList
  | (b, on, v) :: t =>
    match on, cur with
    | true, some (o, bs) => enabledRuns t (some (o, bs ++ [v]))
    | true, none => enabledRuns t (some (b, [v]))
    | false, some r => r :: enabledRuns t none
    | false, none => enabledRuns t none

/-- The lanes of a vector store with their bytes. -/
def storeLanes (x : Hc) (i : VSlot) : List (Nat × Bool × Byte) :=
  let w := eltBytes i.elt
  (List.range 128).map (fun b => (b, x.lane i.pred i.pneg (w * (b / w)), vbyte (x.vreg i.vd) b))

/-- The registers that a vector slot reads; a destination with a disabled element keeps its old value there. -/
def VSlot.reads (i : VSlot) (x : Hc) : List RegRef :=
  let old := if x.allEnabled i then [] else [RegRef.v i.vd]
  match i.op.form with
  | .binary => RegRef.v i.va :: (if i.bs then [RegRef.s i.sr] else [RegRef.v i.vb]) ++ old
  | .fused => [RegRef.v i.va, RegRef.v i.vb, RegRef.v i.vc] ++ old
  | .unary => RegRef.v i.va :: old
  | .compare => [.v i.va, .v i.vb]
  | .select => [RegRef.v i.va, RegRef.v i.vb] ++ old
  | .cvt => [.v i.va, .v i.vd]
  | .bcast => RegRef.s i.sr :: old
  | .ext => [.v i.va]
  | .ins => [.s i.sr, .v i.vd]
  | .perm => [RegRef.v i.va, RegRef.v i.vb] ++ old
  | .reduce => [.v i.va]
  | .ld => RegRef.s i.sr :: old
  | .st => [.s i.sr, .v i.vd]

/-- The poison of a register that a slot reads. -/
def Hc.refBad (x : Hc) (r : RegRef) : Bool := match r with | .s n => x.sBad n | .v n => x.vBad n | .t n => x.tBad n

/-- Some register that a vector slot reads carries poison. -/
def VSlot.bad (i : VSlot) (x : Hc) : Bool := (i.reads x).any x.refBad

/-- The vector slot before the bundle commits (R271–R274). -/
def vectorOut (s : State) (k : Nat) (x : Hc) (i : VSlot) : SlotOut × State :=
  let w := 8 * eltBytes i.elt
  let wr (v : VWord) : SlotOut := .write [.v i.vd v (i.bad x)]
  let a (e : Nat) := velem (x.vreg i.va) w e
  match i.op.form with
  | .binary => (wr (vmerge x i (x.vreg i.vd) (fun e => vElem i.op i.elt (a e) (x.vopB i e) 0)), s)
  | .fused => (wr (vmerge x i (x.vreg i.vd) (fun e => vElem i.op i.elt (a e) (velem (x.vreg i.vb) w e) (velem (x.vreg i.vc) w e))), s)
  | .unary => (wr (vmerge x i (x.vreg i.vd) (fun e => vElem i.op i.elt (a e) 0 0)), s)
  | .compare => if i.bad x then (.raise (excPoison .vx), s) else (.write [.p (i.vd % 16) (vComparePred x i)], s)
  | .select =>
    (wr (vmerge x i (x.vreg i.vd) (fun e =>
      if (x.preg (i.vc % 16)).getLsbD (eltBytes i.elt * e) then a e else velem (x.vreg i.vb) w e)), s)
  | .cvt => (wr (vConvert x i), s)
  | .bcast => (wr (vmerge x i (x.vreg i.vd) (fun _ => (x.sreg i.sr).toNat % 2 ^ w)), s)
  | .ext => (.write [.s i.sr (BitVec.ofNat 64 (a (i.imm % 128))) (i.bad x)], s)
  | .ins =>
    (wr (vmerge x i (x.vreg i.vd) (fun e =>
      if e = i.imm % 128 then (x.sreg i.sr).toNat % 2 ^ w else velem (x.vreg i.vd) w e)), s)
  | .perm => (wr (vPermute x i), s)
  | .reduce => (wr (vReduce x i), s)
  | .ld =>
    let va := x.vectorAddr i
    if x.sBad i.sr then (.raise (excPoison .vx), s)
    else if va % 128 != 0 then (.raise (excAlign .vx va), s)
    else if x.noneEnabled i then (.none_, s)
    else match access s k x va .r .vx 1 with
      | (.error o, s1) => (o, s1)
      | (.ok pa, s1) =>
        let f (bs : Bytes) : Nat := (vmerge x i (x.vreg i.vd) (fun e => velem (BitVec.ofNat 1024 (leNat bs)) w e)).toNat
        (loadOut s1 k x va pa 128 (.v i.vd) f (!x.allEnabled i && x.vBad i.vd), s1)
  | .st =>
    let va := x.vectorAddr i
    if x.sBad i.sr then (.raise (excPoison .vx), s)
    else if va % 128 != 0 then (.raise (excAlign .vx va), s)
    else if x.noneEnabled i then (.none_, s)
    else match access s k x va .w .vx 2 with
      | (.error o, s1) => (o, s1)
      | (.ok pa, s1) =>
        ({ SlotOut.none_ with st := (enabledRuns (storeLanes x i) none).map (fun r => (pa + r.1, r.2, x.vBad i.vd)) }, s1)

end Sys2Proof.Machine
end

