-- ==== Sys2Proof/Machine/Tensor.lean ====
section
/-!
DEFINITION. Tensor layout (12 R354–R367, R383–R385): formats, descriptors and their tables, block and element addresses, boxes, fill,
sharding, and the reading and writing of one block.
-/

namespace Sys2Proof.Machine

/-! ### Formats (R355) -/

/-- The format code is listed. -/
def fmtOk (f : Nat) : Bool := decide (f < 10) || f == 0x10 || (decide (0x16 ≤ f) && decide (f < 0x1A))

/-- The format is a scaled-line form. -/
def fmtScaled (f : Nat) : Bool := decide (16 ≤ f)

/-- The element format. -/
def fmtElem (f : Nat) : EFmt := cvtFmt (f % 16)

/-- Bits of an element. -/
def fmtBits (f : Nat) : Nat := cvtBits (f % 16)

/-- Bytes of a vector of 32 elements. -/
def fmtVec (f : Nat) : Nat := 4 * fmtBits f

/-- The alignment unit. -/
def fmtAlign (f : Nat) : Nat := if fmtScaled f then 256 else fmtVec f

/-- Blocks of a scaled line. -/
def linePer (f : Nat) : Nat := if fmtBits f = 4 then 15 else 7

/-- The bytes before the first block of a scaled line. -/
def lineHead (f : Nat) : Nat := if fmtBits f = 4 then 16 else 32

/-! ### The mesh (R383, 16 R472) -/

/-- Q0, Q1, Q2, q0, q1, q2 of the current epoch. -/
def meshNow (s : State) : List Nat :=
  let m := regN s .spnMesh 0 0
  (List.range 6).map (fun i => bitsN m (7 * i) 7)

/-- The size of a mesh axis; 1 outside a group. -/
def meshSize (mesh : List Nat) (a : Nat) : Nat := Nat.max 1 (mesh.getD a 1)

/-- The module's position on a mesh axis. -/
def meshPos (mesh : List Nat) (a : Nat) : Nat := mesh.getD (3 + a) 0

/-! ### Descriptors (R357–R361) -/

/-- The dimension of an inline descriptor or of a table entry without sharding. -/
def plainDim (ext : Nat) (stride : Int) (pb pa : Nat) : Dim :=
  { ext := ext, stride := stride, pb := pb, pa := pa, kind := 0, axis := 0, n := 0, g := ext }

/-- The rank of a descriptor. -/
def descRank (d : Nat) : Nat := bitsN d 54 3

/-- The descriptor names a dimension table. -/
def descHasTable (d : Nat) : Bool := !bitN d 57

/-- The address and length of the tables that a descriptor names (R359, R383). -/
def descTable (d : Nat) : Nat × Nat := (bitsN d 160 48, 16 * descRank d + (if bitN d 60 then 8 * descRank d else 0))

/-- The head of a descriptor is valid (R361). -/
def descHeadOk (d : Nat) (dest : Bool) : Bool :=
  let fmt := bitsN d 48 6
  let a := fmtAlign fmt
  let r := descRank d
  let srOk := fmt % 16 == 4 || fmt % 16 == 6 || fmt % 16 == 7
  fmtOk fmt && decide (1 ≤ r) && decide (r ≤ 6) && bitsN d 61 3 == 0 && bitsN d 0 48 % a == 0 && (!dest || !bitN d 59 || srOk) &&
  if bitN d 57 then
    decide (r ≤ 2) && !bitN d 60 && bitsN d 160 32 != 0 &&
      (if r = 1 then decide (bitsN d 192 16 ≤ 1) && bitsN d 208 48 == 0
       else bitsN d 192 16 != 0 && toInt 48 (bitsN d 208 48) % (a : Int) == 0)
  else bitsN d 160 48 % 32 == 0 && bitsN d 208 48 == 0

/-- One dimension-table entry with its sharding entry, when it is valid (R359, R361, R383). -/
def parseDim (fmt d : Nat) (e : Bytes) (sh : Option Bytes) : Option Dim :=
  let ext := leAt e 0 4
  let stride := toInt 48 (leAt e 4 6)
  let pb := leAt e 10 2
  let ok := decide (0 < ext) && stride % (fmtAlign fmt : Int) == 0 && (decide (d ≠ 0) || stride == 0) &&
    (decide (d ≠ 0) || !fmtScaled fmt || pb == 0) && leAt e 14 2 == 0
  match sh with
  | none => if ok then some (plainDim ext stride pb (leAt e 12 2)) else none
  | some w =>
    let x := leNat w
    let kind := x % 4
    let axis := bitsN x 2 2
    let n := bitsN x 8 24
    let g := bitsN x 32 32
    let shOk := decide (kind < 3) && decide (axis < 3) && bitsN x 4 4 == 0 && decide (1 ≤ g) &&
      (if kind = 0 then axis == 0 && n == 0 else decide (1 ≤ n) && (decide (d ≠ 0) || n % 32 == 0)) &&
      (decide (kind ≠ 1) || decide (ext ≤ n))
    if ok && shOk then
      some { ext := ext, stride := stride, pb := pb, pa := leAt e 12 2, kind := kind, axis := axis, n := n, g := g }
    else none

/-- No two dimensions that are not replicated use one axis (R383). -/
def axesDistinct (ds : List Dim) : Bool := ((ds.filter (fun d => d.kind != 0)).map (fun d => d.axis)).Nodup

/-- The tensor of a descriptor and of the bytes of its tables; none where the descriptor is invalid (R357–R361, R383). -/
def parseTensor (d : Nat) (table : Bytes) (dest : Bool) : Option Tensor :=
  let fmt := bitsN d 48 6
  let r := descRank d
  let t (ds : List Dim) : Tensor :=
    { base := bitsN d 0 48, fmt := fmt, dims := ds, padw := bitN d 58, sr := bitN d 59, fill := bitsN d 64 32,
      tid := bitsN d 96 32, ep := bitsN d 128 32 }
  if !descHeadOk d dest then none
  else if bitN d 57 then
    let d0 := plainDim (bitsN d 160 32) 0 0 0
    some (t (if r = 1 then [d0] else [d0, plainDim (bitsN d 192 16) (toInt 48 (bitsN d 208 48)) 0 0]))
  else
    let entry (i : Nat) := slice table (16 * i) 16
    let shard (i : Nat) := if bitN d 60 then some (slice table (16 * r + 8 * i) 8) else none
    match (List.range r).mapM (fun i => parseDim fmt i (entry i) (shard i)) with
    | some ds => if axesDistinct ds then some (t ds) else none
    | none => none

/-! ### Coordinates (R363, R383–R385) -/

/-- The global coordinate of a local one (R384). -/
def globalCoord (mesh : List Nat) (d : Dim) (l : Int) : Int :=
  let q : Int := meshPos mesh d.axis
  let size : Int := meshSize mesh d.axis
  match d.kind with
  | 0 => l
  | 1 => q * d.n + l
  | _ => ((l / d.n) * size + q) * d.n + l % d.n

/-- A local coordinate lies in the valid box of its dimension (R363, R384). DEDUCED: log 154. -/
def coordValid (mesh : List Nat) (d : Dim) (i : Int) : Bool :=
  decide (0 ≤ i) && decide (i < d.ext) && decide (globalCoord mesh d i < d.g)

/-- A block coordinate: b0 and i1 … i5 (R354). -/
structure BlockAt where
  b0 : Int
  rest : List Int
deriving DecidableEq, Repr

/-- The coordinates of dimensions 1 and above are valid; one of a dimension that the tensor does not have must be 0. -/
def restValid (mesh : List Nat) (t : Tensor) (rest : List Int) : Bool :=
  (List.range 5).all (fun j => match t.dims[j + 1]? with
    | some d => coordValid mesh d (rest.getD j 0)
    | none => rest.getD j 0 == 0)

/-- Element `x` of a block lies in the valid box (R363). -/
def elemValid (mesh : List Nat) (t : Tensor) (b : BlockAt) (x : Nat) : Bool :=
  match t.dims[0]? with
  | some d => restValid mesh t b.rest && coordValid mesh d (32 * b.b0 + x)
  | none => false

/-- Element `x` of a block is a tail position (R363). -/
def elemTail (mesh : List Nat) (t : Tensor) (b : BlockAt) (x : Nat) : Bool :=
  match t.dims[0]? with
  | some d => restValid mesh t b.rest && decide (d.ext ≤ 32 * b.b0 + x) && decide (32 * b.b0 + x < 32 * ((d.ext + 31) / 32 : Nat))
  | none => false

/-- Element `x` of a block lies in the padded box (R363). DEDUCED: log 154. -/
def elemPadded (t : Tensor) (b : BlockAt) (x : Nat) : Bool :=
  (List.range 6).all (fun j => match t.dims[j]? with
    | some d =>
      if j = 0 then
        let i := 32 * b.b0 + x
        decide (-(32 * d.pb : Int) ≤ i) && decide (i < 32 * (((d.ext + 31) / 32 : Nat) + d.pa : Int))
      else
        let i := b.rest.getD (j - 1) 0
        decide (-(d.pb : Int) ≤ i) && decide (i < d.ext + d.pa)
    | none => b.rest.getD (j - 1) 0 == 0)

/-- Some element of the block lies in the valid box. -/
def blockValid (mesh : List Nat) (t : Tensor) (b : BlockAt) : Bool := (List.range 32).any (elemValid mesh t b)

/-- The linear index of R385 for element `x` of a block, modulo 2⁴⁸. -/
def linearIdx (mesh : List Nat) (t : Tensor) (b : BlockAt) (x : Nat) : Nat :=
  let coords := (32 * b.b0 + x) :: b.rest
  let r := (List.range t.dims.length).foldl (fun (a : Int × Int) j => match t.dims[j]? with
    | some d => (a.1 + globalCoord mesh d (coords.getD j 0) * a.2, a.2 * d.g)
    | none => a) (0, 1)
  ofInt 48 r.1

/-! ### Addresses (R356) -/

/-- The start of the row that holds a block. -/
def rowStart (t : Tensor) (rest : List Int) : Int :=
  (List.range 5).foldl (fun a j => match t.dims[j + 1]? with
    | some d => a + rest.getD j 0 * d.stride
    | none => a) (t.base : Int)

/-- The address of a block's element data, modulo 2⁴⁸. -/
def blockData (t : Tensor) (b : BlockAt) : Nat :=
  let row := rowStart t b.rest
  if fmtScaled t.fmt then
    let p : Int := linePer t.fmt
    let h : Int := lineHead t.fmt
    ofInt 48 (row + 256 * (b.b0 / p) + h + h * (b.b0 % p))
  else ofInt 48 (row + b.b0 * fmtVec t.fmt)

/-- The address of a block's scale byte, modulo 2⁴⁸. -/
def blockScaleAt (t : Tensor) (b : BlockAt) : Nat :=
  let p : Int := linePer t.fmt
  ofInt 48 (rowStart t b.rest + 256 * (b.b0 / p) + b.b0 % p)

/-- The blocks of a row's valid box. -/
def rowBlocks (t : Tensor) : Nat := match t.dims[0]? with | some d => (d.ext + 31) / 32 | none => 0

/-- The virtual ranges of a scaled line that a write of block `b` writes as 0 (R344): the unused header bytes, and with the last block that
is written of the row the trailing positions that hold no block of the tensor, their scales among them. DEDUCED: log 154. -/
def lineZeros (t : Tensor) (b : BlockAt) : List (Nat × Nat) :=
  if !fmtScaled t.fmt then []
  else
    let p : Int := linePer t.fmt
    let line := ofInt 48 (rowStart t b.rest + 256 * (b.b0 / p))
    let pa := (t.dims[0]?.map (fun d => d.pa)).getD 0
    let first : Int := (rowBlocks t + pa : Nat) - p * (b.b0 / p)
    let n := (p - first).toNat
    let o := first.toNat
    let tail : List (Nat × Nat) :=
      if b.b0 + 1 = (rowBlocks t + (if t.padw then pa else 0) : Nat) ∧ first < p then
        [(line + o, n), (line + lineHead t.fmt * (1 + o), lineHead t.fmt * n)] else []
    (line + linePer t.fmt, lineHead t.fmt - linePer t.fmt) :: tail

/-! ### Fill (R365) -/

/-- The fill element code. -/
def fillCode (t : Tensor) : Nat :=
  let w := fmtBits t.fmt
  if w = 64 then ofInt 64 (toInt 32 t.fill) else t.fill % 2 ^ w

/-- The fill scale of a scaled-line form. -/
def fillScale (t : Tensor) : Nat := bitsN t.fill 8 8

/-! ### Reading a block (R364, R370) -/

/-- Why an access of a transfer or of a matrix instruction stops: a serviceable fault, or a refusal. -/
inductive BlkErr where
  | fault (va kind level : Nat)
  | refused (va : Nat)
deriving DecidableEq, Repr

/-- A block as read: element codes, which of them are valid, the scale byte, poison, and whether it is wholly fill. -/
structure BlockData where
  codes : List Nat
  valid : List Bool
  scale : Nat
  poison : Bool
  filled : Bool
deriving DecidableEq, Repr

/-- The element codes in the bytes of a vector; the even element of a 4-bit pair lies in bits [3:0] (R342). -/
def unpackCodes (f : Nat) (bs : Bytes) : List Nat :=
  let w := fmtBits f
  let n := leNat bs
  (List.range 32).map (fun x => bitsN n (w * x) w)

/-- A block wholly outside the valid box: 32 fill codes under the fill scale (R365). -/
def fillBlock (t : Tensor) : BlockData :=
  { codes := List.replicate 32 (fillCode t), valid := List.replicate 32 false, scale := fillScale t, poison := false, filled := true }

/-- A block from the bytes of its data and its scale: elements outside the valid box take the fill code (R364, R365). -/
def blockOf (mesh : List Nat) (t : Tensor) (b : BlockAt) (data : Bytes) (scale : Nat) (poison : Bool) : BlockData :=
  let valid := (List.range 32).map (elemValid mesh t b)
  let codes := List.zipWith (fun v c => if v then c else fillCode t) valid (unpackCodes t.fmt data)
  { codes := codes, valid := valid, scale := scale, poison := poison, filled := false }

/-- Translates one address of a transfer or of a matrix instruction (13 R399): refusals are counted. -/
def blkXlate (s : State) (k ctx va : Nat) (need : Need) : Except BlkErr Nat × State :=
  match translate s k ctx va need with
  | (.ok pa, s1) => (.ok pa, s1)
  | (.fault kind level, s1) => (.error (.fault va kind level), s1)
  | (.refused, s1) => (.error (.refused va), bump s1 .xltRefused 0 k)

/-- Reads a block through core `k`'s translation unit; `own` demands the core's own Ring store (10 R317, 13 R395). -/
def readBlock (s : State) (k ctx : Nat) (mesh : List Nat) (t : Tensor) (b : BlockAt) (own : Bool) : Except BlkErr BlockData × State :=
  if !blockValid mesh t b then (.ok (fillBlock t), s)
  else
    let va := blockData t b
    match blkXlate s k ctx va .r with
    | (.error e, s1) => (.error e, s1)
    | (.ok pa, s1) =>
      if own && !ownRing k pa then (.error (.refused va), bump s1 .xltRefused 0 k)
      else
        let n := fmtVec t.fmt
        let spa := pa / 256 * 256 + blockScaleAt t b % 256
        let scaled := fmtScaled t.fmt
        let scale := if scaled then (memRd s1 spa).toNat else 0x7F
        let poison := memPoisoned s1 pa n || (scaled && memPoisoned s1 spa 1)
        let s2 := memTouch s1 pa n
        (.ok (blockOf mesh t b (memBytes s1 pa n) scale poison), if scaled then memTouch s2 spa 1 else s2)

/-- The value of an element of a block that was read (R372). -/
def elemValue (t : Tensor) (d : BlockData) (x : Nat) : FVal :=
  if fmtScaled t.fmt then (fmtElem t.fmt).scaled (d.codes.getD x 0) d.scale else (fmtElem t.fmt).plain (d.codes.getD x 0)

/-! ### Writing a block (R366, R372) -/

/-- A block to be written: for each element the code it takes, if any; the scale byte; and poison. -/
structure BlockWrite where
  codes : List (Option Nat)
  scale : Nat
  poison : Bool
deriving DecidableEq, Repr

/-- Byte `i` of the element data of a block write over the byte stored there: none where no element of the byte is written. -/
def writeByte (f : Nat) (codes : List (Option Nat)) (i : Nat) (old : Byte) : Option Byte :=
  let w := fmtBits f
  if w = 4 then
    match codes.getD (2 * i) none, codes.getD (2 * i + 1) none with
    | none, none => none
    | lo, hi => some (byteOf (lo.getD (old.toNat % 16) % 16 + hi.getD (old.toNat / 16) % 16 * 16))
  else (codes.getD (i / (w / 8)) none).map (fun c => byteOf (c >>> (8 * (i % (w / 8)))))

/-- Writes a block at the physical address of its data, and what its write of a scaled line writes as 0; answers the bytes written. -/
def putBlock (s : State) (t : Tensor) (b : BlockAt) (pa : Nat) (w : BlockWrite) : Nat × State :=
  if w.codes.all Option.isNone then (0, s)
  else
    let n := fmtVec t.fmt
    let lanes := (List.range n).map (fun i =>
      let v := writeByte t.fmt w.codes i (memRd s (pa + i))
      (i, v.isSome, v.getD 0))
    let runs := enabledRuns lanes none
    let s1 := runs.foldl (fun st r => busWrite st (pa + r.1) r.2 w.poison) s
    let bytes := runs.foldl (fun a r => a + r.2.length) 0
    if fmtScaled t.fmt then
      let s2 := busWrite s1 (pa / 256 * 256 + blockScaleAt t b % 256) [byteOf w.scale] w.poison
      ((lineZeros t b).foldl (fun a z => a + z.2) (bytes + 1),
       (lineZeros t b).foldl (fun st z => busWrite st (pa / 256 * 256 + z.1 % 256) (zeros z.2) false) s2)
    else (bytes, s1)

/-- What a destination's own fill writes at a pad block, whose tail positions take code 0 (R366). -/
def padWrite (mesh : List Nat) (t : Tensor) (b : BlockAt) : BlockWrite :=
  { codes := (List.range 32).map (fun x => some (if elemTail mesh t b x then 0 else fillCode t)), scale := fillScale t, poison := false }

/-- The codes of a destination block from one source block at the same positions in the same format (R372, first case): tails are
code 0; elements outside the valid box, tails apart, are written with the fill under PADW and dropped otherwise. -/
def copyWrite (mesh : List Nat) (t : Tensor) (b : BlockAt) (d : BlockData) : BlockWrite :=
  let code (x : Nat) : Option Nat :=
    if elemValid mesh t b x then some (d.codes.getD x 0)
    else if elemTail mesh t b x then some 0
    else if t.padw && elemPadded t b x then some (fillCode t) else none
  { codes := (List.range 32).map code, scale := d.scale, poison := d.poison }

/-- The codes of a destination block from 32 values (R372, second case; R347; R351–R353). -/
def convertWrite (mesh : List Nat) (t : Tensor) (b : BlockAt) (vals : List FVal) (poison : Bool) : BlockWrite :=
  let f := fmtElem t.fmt
  let scaled := fmtScaled t.fmt
  let vs := (List.range 32).filterMap (fun x => if elemValid mesh t b x then vals[x]? else none)
  let s := if scaled then blockScale f vs else 0
  let sr (x : Nat) : Option Nat := if t.sr then some (srBits t.tid t.ep (linearIdx mesh t b x)) else none
  let code (x : Nat) : Option Nat :=
    if elemValid mesh t b x then
      let v := vals.getD x (.fin false 0 0)
      some (if scaled then blockCode f s (sr x) v else f.convert false (sr x) v)
    else if elemTail mesh t b x then some 0
    else if t.padw && elemPadded t b x then some (fillCode t) else none
  { codes := (List.range 32).map code, scale := s, poison := poison }

/-! ### Iteration (R369) -/

/-- The first coordinate and the count of each dimension of the valid box, or of the padded box; dimension 0 in blocks. DEDUCED: log 154. -/
def boxRange (t : Tensor) (padded : Bool) : List (Int × Nat) :=
  (List.range t.dims.length).filterMap (fun j => t.dims[j]?.map (fun d =>
    let n := if j = 0 then (d.ext + 31) / 32 else d.ext
    if padded then (-(d.pb : Int), n + d.pb + d.pa) else (0, n)))

/-- The number of blocks of a box. -/
def boxCount (r : List (Int × Nat)) : Nat := r.foldl (fun a e => a * e.2) 1

/-- The coordinates of position `n` of a box, dimension 0 fastest. -/
def boxCoords (r : List (Int × Nat)) (n : Nat) : List Int :=
  match r with
  | [] => []
  | (lo, c) :: t => (lo + (n % Nat.max 1 c : Nat)) :: boxCoords t (n / Nat.max 1 c)

/-- The block at position `n` of a box. -/
def boxBlock (r : List (Int × Nat)) (n : Nat) : BlockAt :=
  match boxCoords r n with
  | [] => { b0 := 0, rest := [] }
  | b :: t => { b0 := b, rest := t }

/-- The pad blocks of a destination in MCOPY order: the blocks of the padded box that hold no valid element (R376). -/
def padBlocks (mesh : List Nat) (t : Tensor) : List BlockAt :=
  let r := boxRange t true
  ((List.range (boxCount r)).map (boxBlock r)).filter (fun b => !blockValid mesh t b)

/-- How many coordinates of a dimension lie in the valid box (R363, R384): the global coordinate rises with the local one. -/
def validCount (mesh : List Nat) (d : Dim) : Nat :=
  let q := meshPos mesh d.axis
  let size := meshSize mesh d.axis
  match d.kind with
  | 0 => Nat.min d.ext d.g
  | 1 => Nat.min d.ext (d.g - q * d.n)
  | _ => Nat.min d.ext (d.g / (d.n * size) * d.n + Nat.min d.n (d.g % (d.n * size) - q * d.n))

/-- The coordinates of dimension `j` that a destination's writes reach: of the padded box, or of the valid box; dimension 0 in blocks. -/
def writtenCount (mesh : List Nat) (t : Tensor) (padded : Bool) (j : Nat) : Nat :=
  match t.dims[j]? with
  | some d =>
    if padded then (if j = 0 then (d.ext + 31) / 32 else d.ext) + d.pb + d.pa
    else if j = 0 then ceilDiv (validCount mesh d) 32 else validCount mesh d
  | none => 0

/-- Whether a destination may alias (R367): the test over the dimensions above 0, in ascending order of |stride|. -/
def mayAlias (mesh : List Nat) (t : Tensor) (padded : Bool) : Bool :=
  let n0 := writtenCount mesh t padded 0
  let row := if fmtScaled t.fmt then 256 * ceilDiv n0 (linePer t.fmt) else n0 * fmtVec t.fmt
  let ds := ((List.range (t.dims.length - 1)).filterMap (fun j => t.dims[j + 1]?.map (fun d =>
    (d.stride.natAbs, writtenCount mesh t padded (j + 1))))).filter (fun e => decide (1 < e.2))
  let sorted := ds.mergeSort (fun a b => decide (a.1 ≤ b.1))
  (sorted.foldl (fun (a : Bool × Nat) e => (a.1 || decide (e.1 < a.2), a.2 + e.1 * (e.2 - 1))) (false, row)).1

end Sys2Proof.Machine
end

