-- ==== Sys2Proof/Machine/Matrix.lean ====
section
/-!
DEFINITION. The Lattice pair (10): shapes, stationary operands, passes and their arithmetic, element-wise work, the order in which
banks are written, failure codes, and the matrix slot.
-/

namespace Sys2Proof.Machine

/-! ### Shapes (R302) -/

/-- Slices per array of a shape. -/
def shapeSlices (sh : Nat) : Nat := match sh with | 1 => 2 | 2 => 4 | _ => 1

/-- Columns per slice. -/
def shapeCols (sh : Nat) : Nat := match sh with | 0 => 32 | 1 => 16 | 2 => 8 | _ => 128

/-- The format pair is a 4-bit pair. -/
def pair4 (fmt : Nat) : Bool := decide (fmt < 2)

/-- K elements per vector. -/
def shapeK (sh fmt : Nat) : Nat := (if sh = 3 then 8 else 32) * (if pair4 fmt then 2 else 1)

/-- Vectors per pass. -/
def shapeVectors (sh : Nat) : Nat := if sh = 3 then 8 else 32

/-- The weight of a multiply-accumulate of a format pair, in halves of an 8-bit pair (01 R50). -/
def pairWeight (fmt : Nat) : Nat := if pair4 fmt then 1 else if fmt = 9 then 4 else 2

/-- The tensor format of the activations of a format pair (R306, 12 R380). -/
def pairAct (fmt : Nat) : Nat :=
  match fmt with
  | 0 => 0x18 | 1 => 0x19 | 2 => 0x16 | 3 => 0x16 | 4 => 0x17 | 5 => 0x17 | 6 => 0x10 | 7 => 0x16 | 8 => 0x10 | _ => 0x04

/-- The tensor format of the stationary operand of a format pair. -/
def pairSta (fmt : Nat) : Nat :=
  match fmt with
  | 0 => 0x18 | 1 => 0x19 | 2 => 0x16 | 3 => 0x17 | 4 => 0x16 | 5 => 0x17 | 6 => 0x10 | 7 => 0x18 | 8 => 0x19 | _ => 0x04

/-- The arrays that ARR names (R300). -/
def arraysOf (arr : Nat) : List Nat := match arr with | 0 => [0, 1] | 1 => [0] | _ => [1]

/-- The shape of an array. -/
def Lattice.shape (l : Lattice) (a : Nat) : Nat := if a = 0 then l.shape0 else l.shape1

/-- Sets the shape of an array and marks its stationary operands invalid (R303). -/
def Lattice.setShape (l : Lattice) (a sh : Nat) : Lattice :=
  let l1 := if a = 0 then { l with shape0 := sh } else { l with shape1 := sh }
  { l1 with slices := l1.slices.filter (fun e => e.1 / 4 != a) }

/-- The stationary operand of slice `sl` of array `a`, if it is valid. -/
def Lattice.slice? (l : Lattice) (a sl : Nat) : Option LatSlice := fget? l.slices (4 * a + sl)

/-- The regions of a bank that a slice of a shape covers (R329). -/
def sliceRegions (sh sl : Nat) : List Nat :=
  match sh with
  | 1 => [2 * sl, 2 * sl + 1]
  | 2 => [sl]
  | _ => [0, 1, 2, 3]

/-- The place of accumulator element (row, column) of bank `b` of array `a`. -/
def accAt (a b row col : Nat) : Nat := ((4 * a + b) * 32 + row) * 32 + col

/-- One accumulator element. -/
def Lattice.get (l : Lattice) (a b row col : Nat) : Nat := (fgetD 0 l.acc (accAt a b row col)).toNat

/-- Writes one accumulator element. -/
def Lattice.put (l : Lattice) (a b row col v : Nat) : Lattice :=
  { l with acc := fsetD 0 l.acc (accAt a b row col) (BitVec.ofNat 32 v) }

/-- Writes the elements of a bank whose regions hold no failure code (R329). -/
def Lattice.putOpen (l : Lattice) (a b : Nat) (es : List (Nat × Nat × Nat)) : Lattice :=
  es.foldl (fun l e => if l.code a b (e.2.1 / 8) = 0 then l.put a b e.1 e.2.1 e.2.2 else l) l

/-- Gives a code to regions of a bank that hold none. -/
def Lattice.fail (l : Lattice) (a b : Nat) (gs : List Nat) (code : Nat) : Lattice :=
  gs.foldl (fun l g => if l.code a b g = 0 then { l with codes := fsetD 0 l.codes (16 * a + 4 * b + g) code } else l) l

/-- The bank element that column `c` of vector `m` of a slice writes (R305). -/
def bankPlace (sh sl m c : Nat) : Nat × Nat :=
  match sh with
  | 0 => (m, c)
  | 1 => (m, 16 * sl + c)
  | 2 => (m, 8 * sl + c)
  | _ => (4 * m + c / 32, c % 32)

/-! ### Arithmetic of a pass (R307–R309) -/

/-- Cuts a product toward zero to the grid 2^q (R308). DEDUCED: log 96. -/
def truncTo (q : Int) (v : FVal) : FVal :=
  match v with
  | .fin neg m e => if q ≤ e then v else .fin neg (m >>> (q - e).toNat) q
  | x => x

/-- The exponent of the largest-magnitude product (R308). -/
def topExp (ps : List FVal) : Option Int :=
  ps.foldl (fun o v => match v with
    | .fin _ m e => if m = 0 then o else match o with
      | none => some (expOf m e)
      | some t => some (max t (expOf m e))
    | _ => o) none

/-- The exact sum s of a vector and a column, from the products of their valid elements: for BF16 each product is cut to the grid
of the largest one (R307, R308). DEDUCED: log 96. -/
def passSum (fmt : Nat) (ps : List FVal) : FVal :=
  let ts := if fmt = 9 then match topExp ps with
      | some e => ps.map (truncTo (e - 62))
      | none => ps
    else ps
  ts.foldl FVal.add (.fin false 0 0)

/-- The value of a code of a pass operand under its block's scale (R306, R309). -/
def operandValue (tf code scale : Nat) : FVal :=
  if fmtScaled tf then (fmtElem tf).scaled code scale else (fmtElem tf).plain code

/-- Element k of a vector. -/
def KVec.value (v : KVec) (tf k : Nat) : FVal := operandValue tf (v.codes.getD k 0) (v.scales.getD (k / 32) 0)

/-- The sums of a pass: a row of column sums for each vector. DEDUCED: log 96. -/
def passSums (fmt kv : Nat) (acts cols : List KVec) : List (List FVal) :=
  acts.map (fun a => cols.map (fun w =>
    passSum fmt ((List.range kv).map (fun k => (a.value (pairAct fmt) k).mul (w.value (pairSta fmt) k)))))

/-- The sums of the pass in a replay buffer. -/
def Replay.sums (r : Replay) : List (List FVal) := passSums r.fmt r.kv r.acts r.cols

/-- The multiply-accumulates of a pass, in 8-bit pairs (21 MACS). -/
def Replay.macs (r : Replay) : Nat := r.acts.length * r.cols.length * r.kv * pairWeight r.fmt / 2

/-! ### The checksum (R324) -/

/-- Element k of a vector without its block's scale. -/
def KVec.plain (v : KVec) (tf k : Nat) : FVal := (fmtElem tf).plain (v.codes.getD k 0)

/-- A sum that the checksum column holds: for BF16 rounded to FP32. -/
def checkRound (fmt : Nat) (v : FVal) : FVal := if fmt = 9 then f32 (FFmt.fp32.encode v) else v

/-- wc and wa (R324): for each row the sum of its elements over the columns, or of their magnitudes. -/
def checkSums (fmt kv : Nat) (cols : List KVec) (f : FVal → FVal) : List FVal :=
  (List.range kv).map (fun k => checkRound fmt ((cols.map (fun w => f (w.plain (pairSta fmt) k))).foldl FVal.add (.fin false 0 0)))

/-- The positions of block `j` of a vector of a pass. -/
def Replay.places (r : Replay) (j : Nat) : List Nat := (List.range r.kv).filter (fun k => k / 32 == j)

/-- P[m][j][c] (R307, R324): the products of vector `a` and column `w` in block `j`, for BF16 cut to the grid of R308, summed exactly. -/
def Replay.blockSum (r : Replay) (a w : KVec) (j : Nat) : FVal :=
  passSum r.fmt ((r.places j).map (fun k => (a.plain (pairAct r.fmt) k).mul (w.plain (pairSta r.fmt) k)))

/-- The scale byte of a block is the NaN of a scaled format. -/
def scaleNan (tf s : Nat) : Bool := fmtScaled tf && s == 0xFF

/-- Block `j` of a vector holds a NaN, an infinity or a NaN scale. -/
def Replay.blockSpecial (r : Replay) (a : KVec) (j : Nat) : Bool :=
  scaleNan (pairAct r.fmt) (a.scales.getD j 0) || (r.places j).any (fun k => (a.plain (pairAct r.fmt) k).special)

/-- What multiplies the block sums of two operands' blocks: the exponent of their scales and integer units (R307, R339). -/
def blockUnit (tf scale : Nat) : Int :=
  if fmtScaled tf then (scale : Int) - 127 + (match fmtElem tf with
    | .int w => scaleUnit w
    | .flt _ => 0) else 0

/-- An error of a column sum, as the sum takes it. -/
def sumValue (e : SumError) : FVal := .fin e.neg e.mant e.exp

/-- The errors that an array makes in the sum of block `j` of vector `m`, over all columns. -/
def sumErrors (es : List SumError) (m j : Nat) : List SumError := es.filter (fun e => e.vec == m && e.blk == j)

/-- The column check of block `j` of vector `m` (R324). A sum that is NaN fails nothing. DESIGN CHOICE: log 107. -/
def Replay.colBad (r : Replay) (es : List SumError) (m j : Nat) : Bool :=
  let a := r.acts.getD m { codes := [], scales := [] }
  if r.blockSpecial a j then false
  else
    let add (l : List FVal) : FVal := l.foldl FVal.add (.fin false 0 0)
    let sy := add (r.cols.map (fun w => r.blockSum a w j) ++
      ((sumErrors es m j).filter (fun e => decide (e.col < r.cols.length))).map sumValue)
    let dot (f : FVal → FVal) (ws : List FVal) : FVal :=
      add ((r.places j).map (fun k => (f (a.plain (pairAct r.fmt) k)).mul (ws.getD k (.fin false 0 0))))
    let sc := dot id r.wc
    if sy.isNan || sc.isNan then false
    else if r.fmt = 9 then ((dot FVal.abs r.wa).scale (-20)).lt ((sy.add sc.neg).abs)
    else !(sy.eqv sc)

/-- A pass fails its check (R324, R325): a parity error, a column check, or an element that differs from what the duplicate adder forms. -/
def Replay.fails (r : Replay) (e : PassErrors) : Bool :=
  e.parity || (List.range r.acts.length).any (fun m => (List.range (ceilDiv r.kv 32)).any (r.colBad e.sums m)) ||
    e.cells.any (fun c => decide (c.vec < r.acts.length) && decide (c.col < r.cols.length) && c.mask % 2 ^ 32 != 0)

/-- The sum s of vector `m` and column `c` as the array forms it, its errors among it. -/
def Replay.sumWith (r : Replay) (es : List SumError) (m c : Nat) (s : FVal) : FVal :=
  (es.filter (fun e => e.vec == m && e.col == c && decide (e.blk < ceilDiv r.kv 32))).foldl (fun a e =>
    let unit := blockUnit (pairAct r.fmt) (((r.acts[m]?.map KVec.scales).getD []).getD e.blk 127) +
      blockUnit (pairSta r.fmt) (((r.cols[c]?.map KVec.scales).getD []).getD e.blk 127)
    a.add ((sumValue e).scale unit)) s

/-- The bits of an element that the array writes wrongly. -/
def cellMask (cs : List CellError) (m c : Nat) : Nat :=
  (cs.filter (fun e => e.vec == m && e.col == c)).foldl (fun a e => a ^^^ e.mask % 2 ^ 32) 0

/-! ### Reading operand tiles (12 R380, R382; R317) -/

/-- Reads the K blocks of one row (or column) of an operand tile: its coordinates are k and `r`. -/
def readKVec (s : State) (k ctx : Nat) (mesh : List Nat) (t : Tensor) (r kv : Nat) (j : Nat) : Except BlkErr (KVec × Bool) × State :=
  match j with
  | 0 => (.ok ({ codes := [], scales := [] }, false), s)
  | n + 1 =>
    match readKVec s k ctx mesh t r kv n with
    | (.error e, s1) => (.error e, s1)
    | (.ok (v, bad), s1) =>
      match readBlock s1 k ctx mesh t { b0 := (n : Int), rest := [(r : Int)] } true with
      | (.error e, s2) => (.error e, s2)
      | (.ok d, s2) => (.ok ({ codes := v.codes ++ d.codes, scales := v.scales ++ [d.scale] }, bad || d.poison), s2)

/-- Reads `n` rows of an operand tile from row `r` on. -/
def readKVecs (s : State) (k ctx : Nat) (mesh : List Nat) (t : Tensor) (r kv n : Nat) : Except BlkErr (List KVec × Bool) × State :=
  match n with
  | 0 => (.ok ([], false), s)
  | m + 1 =>
    match readKVecs s k ctx mesh t r kv m with
    | (.error e, s1) => (.error e, s1)
    | (.ok (l, bad), s1) =>
      match readKVec s1 k ctx mesh t (r + m) kv (ceilDiv kv 32) with
      | (.error e, s2) => (.error e, s2)
      | (.ok (v, b), s2) => (.ok (l ++ [v], bad || b), s2)

/-- Reads the first `n` blocks of a tile of rows, in the order of the dimensions above 0, as lists of 32 codes (R314, 12 R382);
`rows` gives the coordinates of each. -/
def readTile (s : State) (k ctx : Nat) (mesh : List Nat) (t : Tensor) (rows : List (List Int)) :
    Except BlkErr (List (List Nat) × Bool) × State :=
  match rows with
  | [] => (.ok ([], false), s)
  | r :: rest =>
    match readBlock s k ctx mesh t { b0 := 0, rest := r } true with
    | (.error e, s1) => (.error e, s1)
    | (.ok d, s1) =>
      match readTile s1 k ctx mesh t rest with
      | (.error e, s2) => (.error e, s2)
      | (.ok (l, bad), s2) => (.ok (d.codes :: l, bad || d.poison), s2)

/-- The coordinates above 0 of block `j` of a tensor, in MCOPY order; one past the valid box lies outside it. -/
def tileRow (t : Tensor) (j : Nat) : List Int :=
  let r := (boxRange t false).drop 1
  if j < boxCount r then boxCoords r j else [(-1 : Int)]

/-- An FP32 code of an element of an FP32 or BF16 tile. -/
def asFp32 (fmt code : Nat) : Nat := if fmt % 16 = 4 then code * 65536 else code

/-! ### Instructions in flight (R318, R319) -/

/-- The regions that an instruction in flight writes. -/
def MxWork.regions (l : Lattice) (w : MxWork) : List Nat :=
  match w.kind with
  | .pass _ _ => sliceRegions (l.shape w.array) w.slice
  | _ => [0, 1, 2, 3]

/-- Two lists of regions meet. -/
def regionsMeet (a b : List Nat) : Bool := a.any (fun g => decide (g ∈ b))

/-- An earlier instruction of the list still writes the bank of `w` in a region of `w` (R319). -/
def earlierWriter (l : Lattice) (before : List MxWork) (w : MxWork) : Bool :=
  before.any (fun e => e.array == w.array && e.bank == w.bank && regionsMeet (e.regions l) (w.regions l))

/-- The elements that an instruction writes into its bank; `e` is what the array makes wrong in a pass. -/
def MxWork.elements (l : Lattice) (w : MxWork) (e : PassErrors) : List (Nat × Nat × Nat) :=
  let cell (m c : Nat) := l.get w.array w.bank m c
  match w.kind with
  | .pass acc r =>
    let sums := r.sums
    (List.range sums.length).flatMap (fun m =>
      let row := sums.getD m []
      (List.range row.length).map (fun c =>
        let p := bankPlace (l.shape w.array) w.slice m c
        let v := if acc then f32 (cell p.1 p.2) else .fin false 0 0
        (p.1, p.2, FFmt.fp32.encode (v.add (r.sumWith e.sums m c (row.getD c (.fin false 0 0)))) ^^^ cellMask e.cells m c)))
  | .mew add x =>
    (List.range 32).flatMap (fun m => (List.range 32).map (fun c =>
      let e := (x.getD m []).getD c 0
      (m, c, if add then f32Add (cell m c) e else f32Mul (cell m c) e)))
  | .mla x => (List.range 32).flatMap (fun m => (List.range 32).map (fun c => (m, c, (x.getD m []).getD c 0)))
  | .mzero => (List.range 32).flatMap (fun m => (List.range 32).map (fun c => (m, c, 0)))

/-- Commits an instruction with the errors that its array made: its bank takes its elements, or its regions its failure code (R312, R329). -/
def Lattice.commitWith (l : Lattice) (w : MxWork) (e : PassErrors) : Lattice :=
  if w.fail = 0 then l.putOpen w.array w.bank (w.elements l e) else l.fail w.array w.bank (w.regions l) w.fail

/-- Commits an instruction (R312, R329). -/
def Lattice.commit (l : Lattice) (w : MxWork) : Lattice := l.commitWith w PassErrors.none_

/-- A transfer of the context is an MST that still reads bank `b` of array `a` (R319). -/
def Hc.mstReads (x : Hc) (a b : Nat) : Bool :=
  (List.range 4).any (fun n => match x.tag n with
    | .busy f => f.op == 0x10 && f.list % 2 == a && f.list / 2 % 4 == b
    | _ => false)

/-- A transfer of the context is an MST on array `a`. -/
def Hc.mstOn (x : Hc) (a : Nat) : Bool := (List.range 4).any (fun b => x.mstReads a b)

/-- An instruction in flight needs no check to commit: it is no pass, or it has failed already. -/
def MxWork.ready (w : MxWork) : Bool :=
  match w.kind with
  | .pass _ _ => w.fail != 0
  | _ => true

/-- An instruction in flight is a pass. -/
def MxWork.isPass (w : MxWork) : Bool :=
  match w.kind with
  | .pass _ _ => true
  | _ => false

/-- Splits off the first instruction in flight that can commit now without a check. DEDUCED: log 95. -/
def nextReady (l : Lattice) (x : Hc) (before rest : List MxWork) : Option (MxWork × List MxWork) :=
  match rest with
  | [] => none
  | w :: t =>
    if w.ready && !earlierWriter l before w && !x.mstReads w.array w.bank then some (w, before ++ t)
    else nextReady l x (before ++ [w]) t

/-- Commits every instruction in flight that needs no check and waits for nothing (R319). DEDUCED: log 95. -/
def drainMx (l : Lattice) (x : Hc) (fuel : Nat) : Lattice :=
  match fuel with
  | 0 => l
  | n + 1 =>
    match nextReady l x [] l.work with
    | some (w, rest) => drainMx ({ l with work := rest }.commit w) x n
    | none => l

/-- Drains the pair of core `k` for its claimant. DEDUCED: log 95. -/
def latDrain (s : State) (k : Nat) : State :=
  let c := coreGet s k
  match c.claim with
  | some h => match fget? c.hcs h with
    | some x => coreSet s k { c with lat := drainMx c.lat x c.lat.work.length }
    | none => s
  | none => s

/-! ### The matrix slot before commit (R316–R318, R329) -/

/-- A virtual range as its bytes, translated page by page as a load (12 R360). -/
def virtRead (s : State) (k ctx va n fuel : Nat) : Except BlkErr (Bytes × Bool) × State :=
  match fuel with
  | 0 => (.ok ([], false), s)
  | f + 1 =>
    if n = 0 then (.ok ([], false), s)
    else
      let m := Nat.min n (65536 - va % 65536)
      match blkXlate s k ctx va .r with
      | (.error e, s1) => (.error e, s1)
      | (.ok pa, s1) =>
        match virtRead (memTouch s1 pa m) k ctx ((va + m) % 2 ^ 48) (n - m) f with
        | (.error e, s2) => (.error e, s2)
        | (.ok (bs, bad), s2) => (.ok (memBytes s1 pa m ++ bs, bad || memPoisoned s1 pa m), s2)

/-- The answer of a slot whose access met an error: a fault suspends unless the bundle carries a disposition (13 R399, R404). -/
def slotErr (x : Hc) (slot : SlotId) (src : Nat) (e : BlkErr) : SlotOut :=
  match e with
  | .fault va kind level =>
    if x.disp = 2 then .raise (excData 0x30 slot va)
    else if x.disp = 3 then .raise (excData 0x31 slot va)
    else { SlotOut.none_ with flt := some { slot := slot, src := src, va := va, kind := kind, level := level } }
  | .refused va => .raise (excData 0x31 slot va)

/-- A descriptor register as a tensor, its tables read as loads of the context (12 R360, R361). -/
def useDesc (s : State) (k : Nat) (x : Hc) (slot : SlotId) (d : Nat) (dest : Bool) : Except SlotOut Tensor × State :=
  let parse (bs : Bytes) : Except SlotOut Tensor := match parseTensor d bs dest with
    | some t => .ok t
    | none => .error (.raise (excIllegal slot))
  if !descHeadOk d dest then (.error (.raise (excIllegal slot)), s)
  else if !descHasTable d then (parse [], s)
  else match virtRead s k x.ctx (descTable d).1 (descTable d).2 3 with
    | (.error e, s1) => (.error (slotErr x slot 3 e), s1)
    | (.ok (bs, bad), s1) => (if bad then .error (.raise (excPoison slot)) else parse bs, s1)

/-- The matrix operand of t[TA], with s[SO] added to its base when OFS = 1 (R315, 12 R362). -/
def MSlot.taDesc (i : MSlot) (x : Hc) : Nat :=
  let d := (x.treg i.ta).toNat
  if i.ofs then setBitsN d 0 48 (bitsN d 0 48 + (x.sreg i.so).toNat % 2 ^ 32) else d

/-- The offset keeps the base aligned (12 R362). -/
def MSlot.taAligned (i : MSlot) (x : Hc) : Bool := !i.ofs || (x.sreg i.so).toNat % 2 ^ 32 % fmtAlign (bitsN (x.treg i.ta).toNat 48 6) == 0

/-- The instruction uses t[TA]. -/
def MOp.usesTa (o : MOp) : Bool := match o with | .mb => true | .ms => true | .ew => true | .st => true | .la => true | _ => false

/-- The instruction is a pass. -/
def MOp.isPass (o : MOp) : Bool := match o with | .mb => true | .ms => true | _ => false

/-- The registers that a matrix slot reads. -/
def MSlot.reads (i : MSlot) : List RegRef :=
  (if i.op.usesTa then [RegRef.t i.ta] else []) ++ (if i.op = .lw then [RegRef.t i.tb] else []) ++
    (if i.ofs then [RegRef.s i.so] else [])

/-- The banks that an instruction names (R329): its own, or those of a mask. -/
def MSlot.banks (i : MSlot) : List Nat :=
  match i.op with
  | .wait_ => (List.range 4).filter (fun b => bitN i.imm b)
  | .test => (List.range 4).filter (fun b => bitN i.imm b)
  | .clr => (List.range 4).filter (fun b => bitN i.imm b)
  | .shape => []
  | .lw => []
  | _ => [i.bank]

/-- The regions of its bank that an instruction names (R329). -/
def MSlot.regions (i : MSlot) (sh : Nat) : List Nat := if i.op.isPass then sliceRegions sh i.sl else [0, 1, 2, 3]

/-- Some instruction in flight names the bank of the array in one of the regions (R318, R329). -/
def bankBusy (l : Lattice) (a b : Nat) (gs : List Nat) : Bool :=
  l.work.any (fun w => w.array == a && w.bank == b && regionsMeet (w.regions l) gs)

/-- The lowest (array, bank, region) with a nonzero code among those named, as tag 4a + b and code (R329). -/
def firstCode (l : Lattice) (as bs gs : List Nat) : Option (Nat × Nat) :=
  (as.flatMap (fun a => bs.flatMap (fun b => gs.filterMap (fun g =>
    if l.code a b g = 0 then none else some (4 * a + b, l.code a b g))))).head?

/-- The illegal cases of R316 and R303 that depend on the pair's state. -/
def MSlot.stateIllegal (i : MSlot) (l : Lattice) : Bool :=
  let as := arraysOf i.arr
  let pairOp := i.op.isPass || i.op == .lw || i.op == .ew || i.op == .st || i.op == .la
  let sh := l.shape (as.headD 0)
  (pairOp && i.arr == 0 && l.shape0 != l.shape1) ||
  (i.op == .ew && sh != 0) ||
  ((i.op.isPass || i.op == .lw) &&
    (decide (shapeSlices sh ≤ i.sl) || decide (shapeK sh i.fmt < i.kv + 1) || decide (shapeCols sh < i.nv + 1))) ||
  (i.op.isPass && (decide (shapeVectors sh < i.mc + 1) || as.any (fun a => match l.slice? a i.sl with
    | some w => w.fmt != i.fmt || decide (w.kv < i.kv + 1) || decide (w.nv < i.nv + 1)
    | none => true)))

/-- The tensor that an instruction uses has a format and extents that R380 and R381 admit. -/
def MSlot.tensorOk (i : MSlot) (t : Tensor) : Bool :=
  match i.op with
  | .lw => t.fmt == pairSta i.fmt
  | .mb => t.fmt == pairAct i.fmt
  | .ms => t.fmt == pairAct i.fmt
  | .ew => t.fmt == 0x05 || t.fmt == 0x04
  | .la => t.fmt == 0x05
  | .st => decide ((t.dims.headD (plainDim 0 0 0 0)).ext ≤ 32) && decide (boxCount ((boxRange t false).drop 1) ≤ 32)
  | _ => true

/-- What a matrix instruction reads at issue: for each of its arrays the vectors, columns or rows, and poison. -/
structure MxRead where
  kvecs : List (List KVec)
  tile : List (List Nat)
  poison : Bool
deriving DecidableEq, Repr

/-- Reads the operand tile of a matrix instruction (R317, 12 R380, R382). -/
def matrixRead (s : State) (k : Nat) (x : Hc) (i : MSlot) (t : Tensor) : Except BlkErr MxRead × State :=
  let mesh := meshNow s
  let l := (coreGet s k).lat
  let strip := l.shape ((arraysOf i.arr).headD 0) = 3
  let rowsFrom (n a : Nat) : Nat :=
    match i.op with
    | .lw => if strip && i.arr == 0 then 128 * a else 0
    | _ => if i.arr = 0 ∧ ¬strip ∧ a = 1 then n else 0
  let vecs (n : Nat) : Except BlkErr MxRead × State :=
    (arraysOf i.arr).foldl (fun (r : Except BlkErr MxRead × State) a => match r with
      | (.error e, s1) => (.error e, s1)
      | (.ok m, s1) => match readKVecs s1 k x.ctx mesh t (rowsFrom n a) (i.kv + 1) n with
        | (.error e, s2) => (.error e, s2)
        | (.ok (l, bad), s2) => (.ok { m with kvecs := m.kvecs ++ [l], poison := m.poison || bad }, s2))
      (.ok { kvecs := [], tile := [], poison := false }, s)
  let rows (cs : List (List Int)) : Except BlkErr MxRead × State := match readTile s k x.ctx mesh t cs with
    | (.error e, s1) => (.error e, s1)
    | (.ok (l, bad), s1) => (.ok { kvecs := [], tile := l.map (fun r => r.map (asFp32 t.fmt)), poison := bad }, s1)
  match i.op with
  | .lw => vecs (i.nv + 1)
  | .mb => vecs (i.mc + 1)
  | .ms => vecs (i.mc + 1)
  | .ew => rows ((List.range 32).map (fun m : Nat => [(m : Int)]))
  | .la => rows ((List.range 32).map (tileRow t))
  | _ => (.ok { kvecs := [], tile := [], poison := false }, s)

/-- The descriptor that a matrix instruction uses: t[TB] for MLW, t[TA] with its offset otherwise. -/
def MSlot.desc (i : MSlot) (x : Hc) : Nat := if i.op = .lw then (x.treg i.tb).toNat else i.taDesc x

/-- Some register that the matrix slot uses carries poison (08 R222). -/
def MSlot.bad (i : MSlot) (x : Hc) : Bool := i.reads.any x.refBad

/-- The instruction waits (R303, R318, R319, R329): for a place in the queue, for earlier work, or for a tag. MST, and an instruction that names
a region with a failure code, wait for every earlier writer of the bank; MXCLR takes its turn among the bank's writers. -/
def MSlot.waits (i : MSlot) (l : Lattice) (x : Hc) : Bool :=
  let as := arraysOf i.arr
  let sh := l.shape (as.headD 0)
  let full := as.any (fun a => decide (4 ≤ (l.work.filter (fun w => w.array == a)).length))
  let named := as.any (fun a => i.banks.any (fun b => bankBusy l a b [0, 1, 2, 3]))
  let coded := (firstCode l as i.banks (i.regions sh)).isSome
  match i.op with
  | .shape => as.any (fun a => l.work.any (fun w => w.array == a) || x.mstOn a)
  | .lw => full
  | .st => named || (x.tag i.xt).isBusy || full
  | .wait_ => as.any (fun a => i.banks.any (fun b => bankBusy l a b [0, 1, 2, 3] || x.mstReads a b))
  | .test => as.any (fun a => i.banks.any (fun b => bankBusy l a b [0, 1, 2, 3] || x.mstReads a b))
  | .clr => as.any (fun a => i.banks.any (fun b => bankBusy l a b [0, 1, 2, 3] || x.mstReads a b))
  | _ => full || (coded && as.any (fun a => i.banks.any (fun b => bankBusy l a b [0, 1, 2, 3])))

/-- What the waits and the failures of a matrix slot let it do (R318, R329; 08 R249): it waits, it raises XFER_FAIL or for a failure code, or
nothing stands in its way. -/
def matrixHeld (x : Hc) (l : Lattice) (i : MSlot) : Option SlotOut :=
  let as := arraysOf i.arr
  if i.waits l x then some { SlotOut.none_ with wait := true }
  else match (if i.op = .st then (x.tag i.xt).failure else none) with
  | some st => some (.raise (excXfer .mx i.xt st))
  | none =>
    match (if i.op = .test ∨ i.op = .clr then none else firstCode l as i.banks (i.regions (l.shape (as.headD 0)))) with
    | some (tag, code) => some (.raise (excLattice tag code))
    | none => none

/-- A matrix slot that uses a descriptor, before the bundle commits (R316–R318; 12 R360, R361): what makes it illegal, poisoned or not
readable comes before its waits and the failure codes. Its operand is translated here, and read at commit. -/
def matrixUse (s : State) (k : Nat) (x : Hc) (l : Lattice) (i : MSlot) : SlotOut × State :=
  match useDesc s k x .mx (if i.op = .lw then (x.treg i.tb).toNat else (x.treg i.ta).toNat) (i.op == .st) with
  | (.error o, s1) => (o, s1)
  | (.ok t, s1) =>
    if !i.tensorOk t then (.raise (excIllegal .mx), s1)
    else match matrixHeld x l i with
      | some o => (o, s1)
      | none =>
        if i.op = .st ∨ x.mxRef ≠ 0 ∨ !i.taAligned x ∨ x.disp ≠ 0 then (.none_, s1)
        else match matrixRead s1 k x i { t with base := bitsN (i.desc x) 0 48 } with
          | (.error (.fault va kind level), s2) =>
            ({ SlotOut.none_ with flt := some { slot := .mx, src := 4, va := va, kind := kind, level := level } }, s2)
          | _ => (.none_, s1)

/-- The matrix slot before the bundle commits (R316–R318, R329). -/
def matrixOut (s : State) (k h : Nat) (x : Hc) (i : MSlot) : SlotOut × State :=
  let c := coreGet s k
  let l := c.lat
  if c.claim != some h then (.raise (excIllegal .mx), s)
  else if !x.cond i.pred i.pneg then (.none_, s)
  else if i.stateIllegal l then (.raise (excIllegal .mx), s)
  else if i.bad x then (.raise (excPoison .mx), s)
  else if i.op.usesTa || i.op == .lw then matrixUse s k x l i
  else match matrixHeld x l i with
    | some o => (o, s)
    | none => if i.op = .test then (.write [.s i.so (l.codeWord ((arraysOf i.arr).headD 0)) false], s) else (.none_, s)

/-! ### The matrix slot at commit -/

/-- The failure code of an operand that was not read: refused by the service, by protection, or misaligned (R317, 13 R402). -/
def operandCode (x : Hc) (e : BlkErr) : Nat :=
  match e with
  | .fault _ _ _ => if x.mxRef ≠ 0 then x.mxRef else if x.disp = 2 then 3 else 4
  | .refused _ => 4

/-- The blocks that a matrix instruction reads (R305, R314; 12 R380, R382), over all its arrays. -/
def operandBlocks (l : Lattice) (i : MSlot) (t : Tensor) : List BlockAt :=
  let strip := l.shape ((arraysOf i.arr).headD 0) = 3
  let vecs (n : Nat) (first : Nat → Nat) : List BlockAt :=
    (arraysOf i.arr).flatMap (fun a => (List.range n).flatMap (fun m => (List.range (ceilDiv (i.kv + 1) 32)).map (fun j : Nat =>
      { b0 := (j : Int), rest := [((first a + m : Nat) : Int)] })))
  match i.op with
  | .lw => vecs (i.nv + 1) (fun a => if strip && i.arr == 0 then 128 * a else 0)
  | .mb => vecs (i.mc + 1) (fun a => if i.arr = 0 ∧ ¬strip ∧ a = 1 then i.mc + 1 else 0)
  | .ms => vecs (i.mc + 1) (fun a => if i.arr = 0 ∧ ¬strip ∧ a = 1 then i.mc + 1 else 0)
  | .ew => (List.range 32).map (fun m : Nat => { b0 := 0, rest := [(m : Int)] })
  | .la => (List.range 32).map (fun m : Nat => { b0 := 0, rest := tileRow t m })
  | _ => []

/-- Counts the blocks of a list that are read wholly as fill (12 R364). -/
def countFills (s : State) (k : Nat) (t : Tensor) (bs : List BlockAt) : State :=
  bumpBy s .movFill 0 k (bs.filter (fun b => !blockValid (meshNow s) t b)).length

/-- Reads the operand of a matrix instruction at commit: what it read, or the failure code it takes. -/
def matrixOperand (s : State) (k : Nat) (x : Hc) (i : MSlot) : Except Nat MxRead × State :=
  if i.op != .lw && !i.taAligned x then (.error 4, s)
  else if x.mxRef ≠ 0 then (.error x.mxRef, s)
  else match useDesc s k x .mx (if i.op = .lw then (x.treg i.tb).toNat else (x.treg i.ta).toNat) false with
    | (.error _, s1) => (.error 4, s1)
    | (.ok t, s1) => match matrixRead s1 k x i { t with base := bitsN (i.desc x) 0 48 } with
      | (.error e, s2) => (.error (operandCode x e), s2)
      | (.ok m, s2) => (.ok m, countFills s2 k t (operandBlocks (coreGet s k).lat i t))

/-- Changes the Lattice pair of a core. -/
def latMod (s : State) (k : Nat) (f : Lattice → Lattice) : State := coreMod s k (fun c => { c with lat := f c.lat })

/-- The slice that MLW loads into array `n`-th of its arrays (R310, R322). -/
def loadedSlice (i : MSlot) (r : Except Nat MxRead) (n : Nat) : LatSlice :=
  let cols := match r with
    | .ok m => m.kvecs.getD n []
    | .error _ => []
  { tb := i.tb, fmt := i.fmt, kv := i.kv + 1, nv := i.nv + 1, arr0 := i.arr == 0, cols := cols,
    wc := checkSums i.fmt (i.kv + 1) cols id, wa := if i.fmt = 9 then checkSums i.fmt (i.kv + 1) cols FVal.abs else [],
    fail := match r with
      | .ok m => if m.poison then 2 else 0
      | .error c => c }

/-- MLW (R310): the slice of each named array takes the stationary operand. -/
def matrixLoad (s : State) (k : Nat) (x : Hc) (i : MSlot) : State :=
  let r := matrixOperand s k x i
  latMod r.2 k (fun l => { l with slices :=
    (List.range (arraysOf i.arr).length).foldl (fun m n =>
      finsert m (4 * (arraysOf i.arr).getD n 0 + i.sl) (loadedSlice i r.1 n)) l.slices })

/-- What the replay buffers take of a pass over the first `nv` columns of a slice (R326). The checksum sums of fewer columns than the last MLW
loaded are formed over those columns alone (R313). DESIGN CHOICE: log 107. -/
def replayOf (w : Option LatSlice) (fmt kv nv : Nat) (acts : List KVec) : Replay :=
  let cols := ((w.map (fun y => y.cols)).getD []).take nv
  let whole := w.any (fun y => y.cols.length == cols.length)
  { fmt := fmt, kv := kv, acts := acts, cols := cols,
    wc := if whole then (w.map (fun y => y.wc)).getD [] else checkSums fmt kv cols id,
    wa := if whole then (w.map (fun y => y.wa)).getD [] else if fmt = 9 then checkSums fmt kv cols FVal.abs else [] }

/-- MMB and MMS (R307, R311): each named array takes the pass in flight, with its operands as they stand. -/
def matrixPass (s : State) (k : Nat) (x : Hc) (i : MSlot) : State :=
  let r := matrixOperand s k x i
  let l := (coreGet r.2 k).lat
  let entry (n : Nat) : MxWork :=
    let a := (arraysOf i.arr).getD n 0
    let w := l.slice? a i.sl
    let opFail := match r.1 with
      | .error c => c
      | .ok m => if m.poison then 2 else 0
    let fail := if opFail ≠ 0 then opFail else (w.map (fun y => y.fail)).getD 0
    let acts := match r.1 with
      | .ok m => m.kvecs.getD n []
      | .error _ => []
    { array := a, slice := i.sl, bank := i.bank, kind := .pass i.acc (replayOf w i.fmt (i.kv + 1) (i.nv + 1) acts), failed := 0,
      spare := none, fail := fail }
  latMod r.2 k (fun l => { l with work := l.work ++ (List.range (arraysOf i.arr).length).map entry })

/-- An instruction in flight that writes a whole bank. -/
def bankWork (a bank : Nat) (kind : MxKind) (fail : Nat) : MxWork :=
  { array := a, slice := 0, bank := bank, kind := kind, failed := 0, spare := none, fail := fail }

/-- MEW and MLA (R314, 12 R382): the bank takes the tile in its turn. -/
def matrixTile (s : State) (k : Nat) (x : Hc) (i : MSlot) : State :=
  let r := matrixOperand s k x i
  let tile := match r.1 with
    | .ok m => m.tile
    | .error _ => []
  let fail := match r.1 with
    | .ok m => if m.poison then 2 else 0
    | .error c => c
  let kind := if i.op = .la then MxKind.mla tile else .mew (bitN i.imm 0) tile
  latMod r.2 k (fun l => { l with work := l.work ++ [bankWork ((arraysOf i.arr).headD 0) i.bank kind fail] })

/-- MXCLR (R331): nonzero codes of the masked banks become 0 and every element of their regions +0.0. -/
def Lattice.clear (l : Lattice) (as bs : List Nat) : Lattice :=
  as.foldl (fun l a => bs.foldl (fun l b => (List.range 4).foldl (fun l g =>
    if l.code a b g = 0 then l
    else
      let l1 := { l with codes := ferase l.codes (16 * a + 4 * b + g) }
      (List.range 32).foldl (fun l m => (List.range 8).foldl (fun l c => l.put a b m (8 * g + c) 0) l) l1) l) l) l

/-- The effect of a matrix instruction other than MST at commit (10 "Matrix opcodes"). -/
def matrixCommit (s : State) (k h : Nat) (x : Hc) (i : MSlot) : State :=
  if (coreGet s k).claim != some h || !x.cond i.pred i.pneg then s
  else
    let as := arraysOf i.arr
    let s1 := match i.op with
      | .shape => latMod s k (fun l => as.foldl (fun l a => l.setShape a (i.imm % 4)) l)
      | .lw => matrixLoad s k x i
      | .mb => matrixPass s k x i
      | .ms => matrixPass s k x i
      | .ew => matrixTile s k x i
      | .la => matrixTile s k x i
      | .zero => latMod s k (fun l => { l with work := l.work ++ as.map (fun a => bankWork a i.bank .mzero 0) })
      | .clr => latMod s k (fun l => l.clear as i.banks)
      | .st => s
      | .wait_ => s
      | .test => s
    latDrain s1 k

/-! ### Checks and recomputation (R324–R326) -/

/-- The oldest pass of a slice that has failed `n` checks and can be judged now: no earlier writer of its bank is in flight and
no MST reads it. -/
def judgedPass (l : Lattice) (x : Hc) (a sl n : Nat) (before rest : List MxWork) : Option (List MxWork × MxWork × List MxWork) :=
  match rest with
  | [] => none
  | w :: t =>
    if w.isPass && w.array == a && w.slice == sl && w.failed == n && w.fail == 0 && !earlierWriter l before w &&
        !x.mstReads w.array w.bank then some (before, w, t)
    else judgedPass l x a sl n (before ++ [w]) t

/-- The multiply-accumulates of an instruction, in 8-bit pairs (21 MACS). -/
def MxWork.macs (w : MxWork) : Nat :=
  match w.kind with
  | .pass _ r => r.macs
  | _ => 0

/-- The check of a pass fails (R324, R325). -/
def MxWork.fails (w : MxWork) (e : PassErrors) : Bool :=
  match w.kind with
  | .pass _ r => r.fails e
  | _ => false

/-- Commits a pass with the errors that no check caught: counted in LAT_PASSES and for its context, and what waited for it commits in turn
(R312). -/
def commitPass (s : State) (k : Nat) (x : Hc) (before : List MxWork) (w : MxWork) (after : List MxWork) (e : PassErrors) : State :=
  let s1 := bump (latMod s k (fun l => { l with work := before ++ after }.commitWith w e)) .latPasses 0 k
  latDrain (coreCount s1 k x.ctx 7 w.macs) k

/-- Every matrix instruction that is left completes, in order: those of a bank that a suspended MST has still to read (08 R238 step 3).
DESIGN CHOICE: log 155. -/
def finishMatrix (s : State) (k : Nat) (x : Hc) (fuel : Nat) : State :=
  match fuel with
  | 0 => s
  | n + 1 =>
    match (coreGet s k).lat.work with
    | [] => s
    | w :: t =>
      if w.isPass && w.fail == 0 then finishMatrix (commitPass s k x [] w t PassErrors.none_) k x n
      else finishMatrix (latMod s k (fun l => { l with work := t }.commit w)) k x n

/-- An MST of the context on bank `b` of array `a` is suspended for fault service. -/
def Hc.mstStuck (x : Hc) (a b : Nat) : Bool :=
  (List.range 4).any (fun n => match x.tag n with
    | .busy f => f.op == 0x10 && f.list % 2 == a && f.list / 2 % 4 == b && f.st != .running
    | _ => false)

/-- A matrix instruction of the claimant has still to complete, behind a check, a recomputation or an MST that goes on (R319, R322; 08 R238
step 3). -/
def matrixPending (s : State) (k h : Nat) (x : Hc) : Bool :=
  (coreGet s k).claim == some h && (coreGet s k).lat.work.any (fun w => !x.mstStuck w.array w.bank)

/-- A pass fails for good: its regions take a code (R325, R326 step 4, R328). -/
def failPass (s : State) (k : Nat) (before : List MxWork) (w : MxWork) (after : List MxWork) (code : Nat) : State :=
  latDrain (latMod s k (fun l => { l with work := before ++ after }.commit { w with fail := code })) k

/-- The claimant of core `k` and its context. -/
def claimant (s : State) (k : Nat) : Option (Nat × Hc) :=
  match (coreGet s k).claim with
  | some h => (hcGet s k h).map (fun x => (h, x))
  | none => none

/-- PASS_CHECK (R312, R324, R325): the oldest unchecked pass of a slice is checked with the errors that its array made. In full shape it commits
when the check passes, and is held back otherwise; in another shape a parity error fails it with code 0x41, and any other error passes.
DESIGN CHOICE: log 107. -/
def passCheck (s : State) (k a sl : Nat) (e : PassErrors) : State :=
  match claimant s k with
  | none => s
  | some (_, x) =>
    let l := (coreGet s k).lat
    match judgedPass l x a sl 0 [] l.work with
    | none => s
    | some (b, w, t) =>
      if l.shape a = 0 then
        if w.fails e then latMod s k (fun l => { l with work := b ++ { w with failed := 1 } :: t }) else commitPass s k x b w t e
      else if e.parity then bump (failPass s k b w t 1) .latParity 0 k
      else commitPass s k x b w t e

/-- c6 bit 0 of the claimant: a matrix instruction of this run was recomputed (08 "Context state registers"). -/
def markRecomputed (s : State) (k h : Nat) : State := hcMod s k h (fun x => { x with runstat := setBitN x.runstat 0 true })

/-- Marks an array for self-test at its next idle period (R326). -/
def wantBist (s : State) (k a : Nat) : State :=
  coreMod s k (fun c => if a = 0 then { c with bist0 := { c.bist0 with wanted := true } }
    else { c with bist1 := { c.bist1 with wanted := true } })

/-- The array of a core is free for spare work: the core has no claimant and the array is neither under test nor at other spare
work (R326). -/
def arrayFree (c : CoreSt) (a : Nat) : Bool :=
  c.claim.isNone && !bitN c.spareBusy a && (if a = 0 then c.bist0 else c.bist1).since.isNone

/-- The spare array for a core (R326 step 3): on the same Limb, an active core in the reserve with SPARE_EN, lowest number
first. -/
def spareArray (s : State) (k : Nat) : Option (Nat × Nat) :=
  ((rangeFrom (k / 320 * 320) 320).filterMap (fun j =>
    let c := coreGet s j
    if coreActive s j && c.reserve && regF s .latCtl 0 j 0 1 == 1 then
      if arrayFree c 0 then some (j, 0) else if arrayFree c 1 then some (j, 1) else none
    else none)).head?

/-- LAT_STATUS.SPARE_BUSY of an array (R334). -/
def spareSet (s : State) (j y : Nat) (busy : Bool) : State := coreMod s j (fun c => { c with spareBusy := setBitN c.spareBusy y busy })

/-- The pass that failed for the second time is sent to a spare array, when one is free (R326 step 3). -/
def sendSpare (s : State) (k : Nat) (before : List MxWork) (w : MxWork) (after : List MxWork) : State :=
  let o := spareArray s k
  let s1 := match o with
    | some (j, y) => spareSet s j y true
    | none => s
  latMod s1 k (fun l => { l with work := before ++ { w with failed := 2, spare := o } :: after })

/-- RECOMPUTATION (R326 step 2): with an uncorrectable word in the replay buffers the pass takes code 2 (R328). DESIGN CHOICE: log 107. -/
def recomputePass (s : State) (k a sl : Nat) (e : PassErrors) : State :=
  match claimant s k with
  | none => s
  | some (h, x) =>
    let l := (coreGet s k).lat
    match judgedPass l x a sl 1 [] l.work with
    | none => s
    | some (b, w, t) =>
      if e.replay then failPass s k b w t 2
      else if w.fails e then sendSpare s k b w t
      else wantBist (bump (markRecomputed (commitPass s k x b w t e) k h) .latChkSame 0 k) k a

/-- The spare array has finished: it is free, and its pair idle from now on (R332, R334). -/
def spareDone (s : State) (o : Option (Nat × Nat)) : State :=
  match o with
  | some (j, y) => coreMod (spareSet s j y false) j (fun c => { c with idleFrom := s.idleClock })
  | none => s

/-- R326 steps 3 and 4 for a pass that has failed twice: on a spare array it commits or, like a pass without a spare, takes code
0x41. Answers whether such a pass was there. DESIGN CHOICE: log 107. -/
def sparePass (s : State) (k a sl : Nat) (e : PassErrors) : Bool × State :=
  match claimant s k with
  | none => (false, s)
  | some (h, x) =>
    let l := (coreGet s k).lat
    match judgedPass l x a sl 2 [] l.work with
    | none => (false, s)
    | some (b, w, t) =>
      let s0 := spareDone s w.spare
      match w.spare with
      | none => (true, bump (failPass s0 k b w t 1) .latChkFail 0 k)
      | some (j, y) =>
        if e.replay then (true, failPass s0 k b w t 2)
        else if w.fails e then (true, wantBist (bump (failPass s0 k b w t 1) .latChkFail 0 k) j y)
        else (true, bump (bump (markRecomputed (commitPass s0 k x b w t e) k h) .latChkSpare 0 k) .latSpareServed 0 j)

end Sys2Proof.Machine
end

