-- ==== Sys2Proof/Machine/Span.lean ====
section
/-!
DEFINITION. The Span fabric (16): links and flits (R462–R467), messages and routes (R468–R471), and the mesh (R472).
-/

namespace Sys2Proof.Machine

/-! ### Links -/

/-- Link `k`. -/
def linkGet (s : State) (k : Nat) : SpanLink := fgetD SpanLink.reset s.span.links k

/-- The state with link `k` replaced. -/
def linkSet (s : State) (k : Nat) (l : SpanLink) : State :=
  { s with span := { s.span with links := fsetD SpanLink.reset s.span.links k l } }

/-- Changes link `k`. -/
def linkMod (s : State) (k : Nat) (f : SpanLink → SpanLink) : State := linkSet s k (f (linkGet s k))

/-- SPN_LINK_k.STATE: 0 DOWN, 1 TRAINING, 2 UP4, 3 UP3. -/
def linkState (s : State) (k : Nat) : Nat := regF s .spnLink k 0 8 3

/-- Sets SPN_LINK_k.STATE. -/
def setLinkState (s : State) (k st : Nat) : State := regPutF s .spnLink k 0 8 3 st

/-- The link carries flits. -/
def linkUp (s : State) (k : Nat) : Bool := decide (k < 8) && decide (2 ≤ linkState s k)

/-- A link that is up, or that retrains after it was: its senders hold data until it has retrained (R463). -/
def linkUsable (s : State) (k : Nat) : Bool := linkUp s k || (decide (k < 8) && linkState s k == 1 && (linkGet s k).resume)

/-- The buffer share of a virtual channel (16 "Virtual channels"). -/
def vcShare (vc : Nat) : Nat := match vc with | 0 => 192 | 1 => 192 | 2 => 256 | 3 => 256 | 4 => 128 | _ => 0

/-- The credits of a link at training (R467). DEDUCED: log 119. -/
def trainedCredits : FMap Nat := [(0, 192), (1, 192), (2, 256), (3, 256), (4, 128)]

/-- The 256 bytes of a flit (16 "Flit"): it carries the link's acknowledgement, and returns `credit` flits of `cvc`. -/
def flitBytes (l : SpanLink) (f : Flit) (cvc credit : Nat) : Bytes :=
  let head := [byteOf f.ftype, byteOf (f.vc + b2n f.som * 8 + b2n f.eom * 16)] ++ beBytes 2 (f.seq % 4096) ++
    beBytes 2 ((l.rxSeq + 4095) % 4096 + b2n l.rxAny * 32768) ++ beBytes 2 (cvc + credit % 1024 * 8) ++ zeros 4
  let body := padTo (head ++ f.data) 252
  body ++ beBytes 4 (crc32c 0xFFFFFFFF body ^^^ 0xFFFFFFFF)

/-- What leaves on a link. -/
def emitFlit (s : State) (k : Nat) (f : Flit) (cvc credit : Nat) : State :=
  { s with sent := s.sent ++ [.span k (flitBytes (linkGet s k) f cvc credit)] }

/-- A flit without data: IDLE (2) or RETRY_REQ (3). -/
def bareFlit (ftype seq : Nat) : Flit := { ftype := ftype, vc := 0, som := false, eom := false, seq := seq, data := [] }

/-- Sends the first flit of a list that may go: its channel has a credit, no earlier flit of the channel waits, and in HALTED it
is a control flit (R464, R467). Answers the flit and what still waits. -/
def nextFlit (s : State) (credits : FMap Nat) (blocked : List Nat) (before rest : List Flit) : Option (Flit × List Flit) :=
  match rest with
  | [] => none
  | f :: t =>
    if f.vc ∉ blocked ∧ fgetD 0 credits f.vc ≠ 0 ∧ (!s.gct.stopped || f.ftype == 4) then some (f, before ++ t)
    else nextFlit s credits (f.vc :: blocked) (before ++ [f]) t

/-- Sends what may be sent on a link (R466, R467). -/
def linkPump (s : State) (k fuel : Nat) : State :=
  match fuel with
  | 0 => s
  | n + 1 =>
    let l := linkGet s k
    if !linkUp s k || decide (512 ≤ l.replay.length) then s
    else match nextFlit s l.credits [] [] l.waiting with
      | none => s
      | some (f, rest) =>
        let g := { f with seq := l.nextSeq }
        let s1 := linkSet s k { l with
          nextSeq := (l.nextSeq + 1) % 4096, replay := l.replay ++ [g], waiting := rest,
          credits := fmodD 0 l.credits f.vc (fun c => c - 1) }
        let s2 := obsAdd (emitFlit s1 k g 0 0) 0 (0x28 + k) (if f.ftype = 1 then f.data.length else 0)
        linkPump s2 k n

/-- The flits of a message of bytes on a channel (R468). -/
def messageFlits (ftype vc : Nat) (bs : Bytes) : List Flit :=
  let n := Nat.max 1 (ceilDiv bs.length 240)
  (List.range n).map (fun i =>
    { ftype := ftype, vc := vc, som := i == 0, eom := i + 1 == n, seq := 0, data := slice bs (240 * i) 240 })

/-- Hands a message to a link. -/
def linkSend (s : State) (k ftype vc : Nat) (bs : Bytes) : State :=
  let s1 := linkMod s k (fun l => { l with waiting := l.waiting ++ messageFlits ftype vc bs })
  linkPump s1 k (linkGet s1 k).waiting.length

/-- A flit or message of `n` sequenced flits of a channel has arrived in order: the link answers with an IDLE flit that carries the
acknowledgement and the credits (R465–R467). -/
def linkReceive (s : State) (k vc n : Nat) : State :=
  let s1 := linkMod s k (fun l => { l with rxSeq := (l.rxSeq + n) % 4096, rxAny := true, lastRx := s.clock })
  emitFlit s1 k (bareFlit 2 0) vc n

/-! ### Messages (R468, R479) -/

/-- SPN_ID.MODULE. -/
def ownId (s : State) : Nat := regF s .spnId 0 0 32 6

/-- SPN_EPOCH.EPOCH. -/
def epochNow (s : State) : Nat := regF s .spnEpoch 0 0 0 32

/-- SPN_STATUS.ISOLATED. -/
def isolated (s : State) : Bool := regF s .spnStatus 0 0 0 1 == 1

/-- The bytes of a message: header and data (R468). -/
def SpanMsg.bytes (m : SpanMsg) : Bytes :=
  [byteOf m.mtype, byteOf (m.src % 64 + m.epar % 2 * 64), byteOf (m.dst % 64), byteOf m.status] ++ beBytes 4 m.msgid ++
    beBytes 2 m.ctx ++ beBytes 2 m.data.length ++ beBytes 4 m.xid ++ m.data

/-- The channel class of a message before a dateline (16 "Virtual channels"). -/
def SpanMsg.lowVc (m : SpanMsg) : Nat := match m.mtype with | 0x01 => 0 | 0x02 => 0 | 0x03 => 2 | 0x04 => 2 | _ => 4

/-- A Span event record (R479): none unless SPN_TRACE and trace itself are on and the MSGID has SHIFT low-order zero bits. -/
def spanEvent (s : State) (receive : Bool) (k : Nat) (m : SpanMsg) : State :=
  if regF s .spnTrace 0 0 0 1 = 1 ∧ traceOn s 1 ∧ m.msgid % 2 ^ 26 % 2 ^ regF s .spnTrace 0 0 1 5 = 0 then
    let peer := if receive then m.src else m.dst
    traceEmit s 2 0xFFFF (leBytes 4 m.msgid ++ [byteOf (b2n receive + 2 * k), byteOf m.mtype, byteOf peer, byteOf (ownId s)] ++
      leBytes 8 (stampNow s) ++ leBytes 4 (epochNow s) ++ leBytes 4 (regF s .spnId 0 0 0 32))
  else s

/-- The channel on which a message leaves over a link: a DATELINE link moves it from the low channel to the high one (R467). -/
def sendVc (s : State) (k vc : Nat) : Nat := if regF s .spnLink k 0 1 1 = 1 ∧ (vc = 0 ∨ vc = 2) then vc + 1 else vc

/-! ### Routes (R470, R471) -/

/-- The half of SPN_ROUTE_m that a parity chooses, as eight bits. -/
def routeHalf (s : State) (m par : Nat) : Nat := regF s .spnRoute m 0 (8 * (par % 2)) 8

/-- The primary link of a half, if valid. -/
def primaryOf (h : Nat) : Option Nat := if bitN h 3 then some (h % 8) else none

/-- The alternate link of a half, if valid. -/
def alternateOf (h : Nat) : Option Nat := if bitN h 7 then some (bitsN h 4 3) else none

/-- The key of a route half in the table of moves. -/
def moveKey (m par : Nat) : Nat := 2 * m + par % 2

/-- The link for a request of this module now: none while the move of its destination waits, or where no usable link exists (R471). -/
def routeLink (s : State) (m par : Nat) : Option Nat :=
  let h := routeHalf s m par
  match fget? s.span.moves (moveKey m par) with
  | none => (primaryOf h).filter (linkUsable s)
  | some false => none
  | some true => (alternateOf h).filter (linkUsable s)

/-- The link for every other message: the primary of its half or, where that is not usable, the alternate at once; only requests wait for
a move (R471). DESIGN CHOICE: log 114. -/
def messageLink (s : State) (m par : Nat) : Option Nat :=
  let h := routeHalf s m par
  ((primaryOf h).filter (linkUsable s)).orElse (fun _ => (alternateOf h).filter (linkUsable s))

/-- A module can be reached: one of its halves names a usable link. DESIGN CHOICE: log 114. -/
def reachable (s : State) (m : Nat) : Bool := (messageLink s m 0).isSome || (messageLink s m 1).isSome

/-- Sends a message of this module, or forwards one, over a link: it arrived on channel `vc`. -/
def sendOver (s : State) (k vc : Nat) (m : SpanMsg) : State :=
  linkSend s k (if m.mtype = 0x10 then 4 else 1) (sendVc s k vc) m.bytes

/-- The next MSGID of this module (R468). -/
def nextMsgId (s : State) : Nat × State :=
  (ownId s * 2 ^ 26 + s.span.count, { s with span := { s.span with count := (s.span.count + 1) % 2 ^ 26 } })

/-- Sends a response or a control message of this module where its route leads; it is lost without a usable link. -/
def sendMsg (s : State) (m : SpanMsg) : State :=
  match messageLink s m.dst m.epar with
  | some k => spanEvent (sendOver s k m.lowVc m) false k m
  | none => s

/-- A control message: kind, epoch and the bytes from 8 on. DESIGN CHOICE: log 115. -/
def controlData (kind b1 epoch : Nat) (rest : Bytes) : Bytes := [byteOf kind, byteOf b1] ++ zeros 2 ++ beBytes 4 epoch ++ rest

/-- Sends a control message to a module. DESIGN CHOICE: log 115. -/
def sendControl (s : State) (dst : Nat) (data : Bytes) : State :=
  let (id, s1) := nextMsgId s
  sendMsg s1 { mtype := 0x10, src := ownId s, epar := epochNow s, dst := dst, status := 0, msgid := id, ctx := 0, xid := 0, data := data }

/-! ### The mesh and its members (R472) -/

/-- SPN_MAP of position `p`. -/
def mapAt (s : State) (p : Nat) : Nat := regF s .spnMap (p / 8) 0 (8 * (p % 8)) 8

/-- Q0 × Q1 × Q2. -/
def meshPositions (s : State) : Nat :=
  let m := regN s .spnMesh 0 0
  bitsN m 0 7 * bitsN m 7 7 * bitsN m 14 7

/-- The map of the current epoch, by position. -/
def epochMap (s : State) : List Nat := if s.span.member then (List.range (meshPositions s)).map (mapAt s) else []

/-- The members of a map. -/
def membersOf (m : List Nat) : List Nat := m.filter (fun x => x != 0xFF)

/-- The positions that a sharded image uses (R474): those of the mesh that agree with this module's own on every axis that `axes` leaves
out. Each is given by its place along the used axes and its place in the mesh. DESIGN CHOICE: log 165. -/
def shardPositions (s : State) (axes : Nat) : List Nat :=
  let m := regN s .spnMesh 0 0
  let own (i : Nat) := bitsN m (21 + 7 * i) 7
  let along (i : Nat) := if bitN axes i then List.range (bitsN m (7 * i) 7) else [own i]
  (along 2).flatMap (fun c => (along 1).flatMap (fun b => (along 0).map (fun a => a + bitsN m 0 7 * (b + bitsN m 7 7 * c))))

/-- A position that a sharded image uses is VACANT (R474). -/
def shardVacant (s : State) (axes : Nat) : Bool := s.span.member && (shardPositions s axes).any (fun p => mapAt s p == 0xFF)

/-- A sharded image of `c` chunks cannot run in the current epoch (R474): the number of used positions does not divide `c`, or one of them is
VACANT. -/
def shardUnfit (s : State) (c axes : Nat) : Bool := c % (shardPositions s axes).length != 0 || shardVacant s axes

/-- The chunks of a sharded image that this module holds (R474): q × C/Q to (q + 1) × C/Q − 1, for its place q among the Q used positions. -/
def shardChunks (s : State) (c axes : Nat) : List Nat :=
  let ps := shardPositions s axes
  let m := regN s .spnMesh 0 0
  let own := bitsN m 21 7 + bitsN m 0 7 * (bitsN m 28 7 + bitsN m 7 7 * bitsN m 35 7)
  List.range' (ps.findIdx (· == own) * (c / ps.length)) (c / ps.length)

/-- The members of the current epoch. -/
def members (s : State) : List Nat := membersOf (epochMap s)

/-- A peer may be named by MPUT and MGET (R473). -/
def peerOk (s : State) (m : Nat) : Bool := decide (m ∈ members s) && m != ownId s

/-- Broadcasts a control message to every reachable member (R471). -/
def broadcast (s : State) (data : Bytes) : State :=
  ((members s).filter (fun m => m != ownId s)).foldl (fun t m => sendControl t m data) s

/-- The positions next to a position along an axis of size `n` with stride `d`. -/
def axisNeighbours (p n d : Nat) : List Nat :=
  if n ≤ 1 then []
  else
    let q := p / d % n
    let at_ (j : Nat) := p - q * d + j * d
    ([at_ ((q + 1) % n), at_ ((q + n - 1) % n)]).dedup

/-- The modules whose links join a position of a mesh to the group. -/
def meshNeighbours (mesh map : List Nat) (p : Nat) : List Nat :=
  let q0 := mesh.getD 0 1
  let q1 := mesh.getD 1 1
  let q2 := mesh.getD 2 1
  ((axisNeighbours p q0 1 ++ axisNeighbours p q1 q0 ++ axisNeighbours p q2 (q0 * q1)).map (fun j => map.getD j 0xFF)).filter
    (fun m => m != 0xFF)

/-! ### Requests of this module (R468, R471) -/

/-- Sends a request that has not been sent yet, when its destination has a link (R471). -/
def trySend (s : State) (r : SpanReq) : SpanReq × State :=
  match r.link with
  | some _ => (r, s)
  | none =>
    match routeLink s r.msg.dst r.msg.epar with
    | some k => ({ r with link := some k }, spanEvent (sendOver s k r.msg.lowVc r.msg) false k r.msg)
    | none => (r, s)

/-- Sends every request that waits and can go. -/
def sendHeld (s : State) : State :=
  let r := s.span.reqs.foldl (fun (a : List SpanReq × State) q =>
    let (q', t) := trySend a.2 q
    (a.1 ++ [q'], t)) ([], s)
  { r.2 with span := { r.2.span with reqs := r.1 } }

/-- Issues a request for a unit of a transfer (R469). -/
def spanRequest (s : State) (write : Bool) (dst epoch core hc ctx tag : Nat) (data : Bytes) : State :=
  let (id, s1) := nextMsgId s
  let x := s1.span.xid
  let m : SpanMsg :=
    { mtype := if write then 0x01 else 0x02, src := ownId s, epar := epoch, dst := dst, status := 0, msgid := id, ctx := ctx,
      xid := x, data := data }
  let q : SpanReq := { msg := m, epoch := epoch, core := core, hc := hc, ctx := ctx, tag := tag, since := s.clock, link := none }
  let (q', s2) := trySend { s1 with span := { s1.span with xid := (x + 1) % 2 ^ 32 } } q
  { s2 with span := { s2.span with reqs := s2.span.reqs ++ [q'] } }

/-- The requests of a transfer leave the list. -/
def dropReqs (s : State) (core hc tag : Nat) : State :=
  { s with span := { s.span with reqs := s.span.reqs.filter (fun r => !(r.core == core && r.hc == hc && r.tag == tag)) } }

/-- A request of a hardware context is outstanding. -/
def spanBusy (s : State) (core hc : Nat) : Bool := s.span.reqs.any (fun r => r.core == core && r.hc == hc)

end Sys2Proof.Machine
end

