-- ==== Sys2Proof/Machine/Mover.lean ====
section
/-!
DEFINITION. The mover (12 R369–R379; 09 R276–R281; 10 MST): the units of a transfer, its suspension and its end, and the mover slot.
-/

namespace Sys2Proof.Machine

/-! ### Units (R369) -/

/-- What a unit answers: complete, with the bytes written, the blocks read wholly as fill, the blocks dropped, and poison; a
serviceable fault with its access source; or a refusal. -/
inductive UnitRes where
  | ok (bytes fill drop : Nat) (poison : Bool)
  | fault (src va kind level : Nat)
  | refused
deriving DecidableEq, Repr

/-- A unit's answer for an access that stops. -/
def UnitRes.ofErr (src : Nat) (e : BlkErr) : UnitRes :=
  match e with
  | .fault va kind level => .fault src va kind level
  | .refused _ => .refused

/-- The unit of opcode 0x10 is MST's; the others have the code of their mover opcode. -/
def opMst : Nat := 0x10

/-- The tile counts of MTRANS (R369): blocks of dimension 0, tiles of dimension 1, then the dimensions above. -/
def tileBox (t : Tensor) : List (Int × Nat) :=
  match boxRange t t.padw with
  | a :: b :: r => a :: (0, ceilDiv b.2 32) :: r
  | l => l

/-- The units of a transfer (R369). -/
def Xfer.units (f : Xfer) : Nat :=
  match f.op with
  | 0x02 => boxCount (tileBox f.dst)
  | 0x03 => f.count + (if f.dst.padw then (padBlocks f.mesh f.dst).length else 0)
  | 0x04 => f.count
  | 0x10 => 32 + (if f.dst.padw then (padBlocks f.mesh f.dst).length else 0)
  | _ => boxCount (boxRange f.dst f.dst.padw)

/-- How many blocks of the destination's valid box the transfer writes: MGATHER one for each entry (R376). -/
def Xfer.validBlocks (f : Xfer) : Nat :=
  let n := boxCount (boxRange f.dst false)
  if f.op = 0x03 then Nat.min f.count n else n

/-- A block of the destination's valid box that the transfer writes lies at the address of block `b`, and holds a valid element there (R367). -/
def padCovered (f : Xfer) (b : BlockAt) (x : Nat) : Bool :=
  (List.range f.validBlocks).any (fun n =>
    let c := boxBlock (boxRange f.dst false) n
    blockData f.dst c == blockData f.dst b && (if fmtScaled f.dst.fmt then blockValid f.mesh f.dst c else elemValid f.mesh f.dst c x))

/-- Position `x` of a destination block is a pad: any of a block without a valid element, and in plain form one that is neither valid nor a
tail position (R363, R367: scaled lines alias in whole blocks). -/
def padAt (f : Xfer) (b : BlockAt) (x : Nat) : Bool :=
  !blockValid f.mesh f.dst b || (!fmtScaled f.dst.fmt && !elemValid f.mesh f.dst b x && !elemTail f.mesh f.dst b x)

/-- A block write with the pads left out whose place a valid element holds (R367). -/
def padClear (f : Xfer) (b : BlockAt) (w : BlockWrite) : BlockWrite :=
  { w with codes := (List.range 32).map (fun x => if padAt f b x && padCovered f b x then none else w.codes.getD x none) }

/-- The write of a destination block from one source block at the same positions (R372). -/
def xferWrite (f : Xfer) (b : BlockAt) (d : BlockData) : BlockWrite :=
  if f.src.fmt = f.dst.fmt then copyWrite f.mesh f.dst b d
  else convertWrite f.mesh f.dst b ((List.range 32).map (elemValue f.src d)) d.poison

/-- Translates the destination of a block write and makes it (R366, R370). -/
def writeUnit (s : State) (k ctx : Nat) (f : Xfer) (b : BlockAt) (w0 : BlockWrite) (fill : Nat) (bad : Bool) : UnitRes × State :=
  let w := padClear f b w0
  if w.codes.all Option.isNone then (.ok 0 fill (if w0.codes.all Option.isNone then 1 else 0) bad, s)
  else match blkXlate s k ctx (blockData f.dst b) .w with
    | (.error e, s1) => (.ofErr 6 e, s1)
    | (.ok pa, s1) =>
      let (n, s2) := putBlock s1 f.dst b pa w
      (.ok n fill 0 bad, s2)

/-- List entry `n` as read: the block it names, or poison. -/
def listEntry (s : State) (k ctx : Nat) (f : Xfer) (n : Nat) : Except BlkErr (BlockAt × Bool) × State :=
  match blkXlate s k ctx ((f.list + 32 * n) % 2 ^ 48) .r with
  | (.error e, s1) => (.error e, s1)
  | (.ok pa, s1) =>
    let bs := memBytes s1 pa 32
    let c (i : Nat) : Int := toInt 32 (leAt bs (4 * i) 4)
    (.ok ({ b0 := c 0, rest := (List.range 5).map (fun j => c (j + 1)) }, memPoisoned s1 pa 32), memTouch s1 pa 32)

/-! ### A source that overlaps its own destination (R371) -/

/-- The blocks that a transfer of local memory writes (R369): MSCATTER's and MGATHER's by their lists, else the iterated box.
DESIGN CHOICE: log 99. -/
def destBlocks (s : State) (k ctx : Nat) (f : Xfer) : List BlockAt :=
  let r := boxRange f.dst (f.dst.padw && f.op != 0x03)
  let box (n : Nat) : List BlockAt := (List.range n).map (boxBlock r)
  match f.op with
  | 0x03 => box (min f.count (boxCount r)) ++ (if f.dst.padw then padBlocks f.mesh f.dst else [])
  | 0x04 => (List.range f.count).filterMap (fun n => match (listEntry s k ctx f n).1 with
    | .ok (b, false) => if blockValid f.mesh f.dst b then some b else none
    | _ => none)
  | _ => box (boxCount r)

/-- The bytes of element `x` of a block whose data starts at `pa`: the first and how many. -/
def elemBytes (t : Tensor) (pa x : Nat) : Nat × Nat := (pa + fmtBits t.fmt * x / 8, (fmtBits t.fmt + 7) / 8)

/-- The scale byte of a block whose data starts at `pa`. -/
def scaleByteAt (t : Tensor) (b : BlockAt) (pa : Nat) : Nat := pa / 256 * 256 + blockScaleAt t b % 256

/-- Two ranges of bytes share a byte. -/
def bytesMeet (a b : Nat × Nat) : Bool := decide (a.1 < b.1 + b.2) && decide (b.1 < a.1 + a.2)

/-- The ranges that a transfer writes in one of its destination blocks: its elements' bytes, its scale byte, and what it writes as 0. -/
def blockSpans (s : State) (k ctx : Nat) (f : Xfer) (b : BlockAt) : List (Nat × Nat) :=
  match (blkXlate s k ctx (blockData f.dst b) .w).1 with
  | .error _ => []
  | .ok pa =>
    let xs := (List.range 32).filter (fun x =>
      elemValid f.mesh f.dst b x || elemTail f.mesh f.dst b x || (f.dst.padw && elemPadded f.dst b x))
    if xs.isEmpty then []
    else xs.map (elemBytes f.dst pa) ++ (if fmtScaled f.dst.fmt then [(scaleByteAt f.dst b pa, 1)] else []) ++
      (lineZeros f.dst b).map (fun z => (pa / 256 * 256 + z.1 % 256, z.2))

/-- The blocks that a transfer of local memory reads: those of its list, or of the source's valid box. -/
def sourceBlocks (s : State) (k ctx : Nat) (f : Xfer) : List BlockAt :=
  match f.op with
  | 0x03 => (List.range f.count).filterMap (fun n => match (listEntry s k ctx f n).1 with
    | .ok (b, false) => if blockValid f.mesh f.src b then some b else none
    | _ => none)
  | 0x01 => (List.range (boxCount (boxRange f.src false))).map (boxBlock (boxRange f.src false))
  | 0x02 => (List.range (boxCount (boxRange f.src false))).map (boxBlock (boxRange f.src false))
  | 0x04 => (List.range (boxCount (boxRange f.src false))).map (boxBlock (boxRange f.src false))
  | _ => []

/-- The bytes of a source block that a transfer reads: those of its valid elements and its scale. -/
def sourceSpans (f : Xfer) (c : BlockAt) (pa : Nat) : List (Nat × Nat) :=
  ((List.range 32).filter (elemValid f.mesh f.src c)).map (elemBytes f.src pa) ++
    (if fmtScaled f.src.fmt then [(scaleByteAt f.src c pa, 1)] else [])

/-- The source bytes that the transfer also writes, as they stand, each with its poison (R371). -/
def overlapBytes (s : State) (k ctx : Nat) (f : Xfer) : FMap (Byte × Bool) :=
  let dst := (destBlocks s k ctx f).flatMap (blockSpans s k ctx f)
  (sourceBlocks s k ctx f).foldl (fun m c => match (blkXlate s k ctx (blockData f.src c) .r).1 with
    | .error _ => m
    | .ok pa => ((sourceSpans f c pa).flatMap (fun e => rangeFrom e.1 e.2)).foldl (fun m a =>
      if dst.any (bytesMeet (a, 1)) then finsert m a (memRd s a, granuleBad s (a / 32)) else m) m) []

/-- A byte as it stood when the transfer started, and its poison; where nothing is kept, as it stands. -/
def oldByte (s : State) (f : Xfer) (a : Nat) : Byte × Bool := (fget? f.keep.old a).getD (memRd s a, false)

/-- The code of element `x` of a source block as it stood when the transfer started, and its poison. -/
def oldCode (s : State) (f : Xfer) (pa x : Nat) : Nat × Bool :=
  let e := elemBytes f.src pa x
  let bs := (rangeFrom e.1 e.2).map (oldByte s f)
  (bitsN (leNat (bs.map Prod.fst)) (fmtBits f.src.fmt * x % 8) (fmtBits f.src.fmt), bs.any Prod.snd)

/-- R371: a source element whose bytes the transfer also writes, and so a scale, reads the old bytes or the bytes as they stand, which an
earlier unit may have written: which of the two is a free value. DESIGN CHOICE: log 99. -/
def overlapRead (s : State) (k ctx : Nat) (f : Xfer) (c : BlockAt) (d : BlockData) : BlockData × State :=
  if f.keep.old.isEmpty then (d, s)
  else match (blkXlate s k ctx (blockData f.src c) .r).1 with
    | .error _ => (d, s)
    | .ok pa =>
      let kept (e : Nat × Nat) : Bool := (rangeFrom e.1 e.2).any (fun a => (fget? f.keep.old a).isSome)
      let r := freeBits s 33
      let old (x : Nat) : Bool := d.valid.getD x false && bitN r.1 x && kept (elemBytes f.src pa x)
      let sOld := fmtScaled f.src.fmt && bitN r.1 32 && kept (scaleByteAt f.src c pa, 1)
      let codes := (List.range 32).map (fun x => if old x then (oldCode s f pa x).1 else d.codes.getD x 0)
      let bad := (List.range 32).any (fun x => old x && (oldCode s f pa x).2) || (sOld && (oldByte s f (scaleByteAt f.src c pa)).2)
      ({ d with codes := codes, scale := if sOld then (oldByte s f (scaleByteAt f.src c pa)).1.toNat else d.scale, poison := d.poison || bad },
       r.2)

/-- Reads a source block of a transfer of local memory. -/
def readSource (s : State) (k ctx : Nat) (f : Xfer) (c : BlockAt) : Except BlkErr BlockData × State :=
  match readBlock s k ctx f.mesh f.src c false with
  | (.error e, s1) => (.error e, s1)
  | (.ok d, s1) =>
    if d.filled then (.ok d, s1)
    else
      let r := overlapRead s1 k ctx f c d
      (.ok r.1, r.2)

/-- A destination block from the source block at the coordinates `c`. -/
def copyUnit (s : State) (k ctx : Nat) (f : Xfer) (c b : BlockAt) : UnitRes × State :=
  if !blockValid f.mesh f.dst b then writeUnit s k ctx f b (if f.dst.padw then padWrite f.mesh f.dst b else
    { codes := List.replicate 32 none, scale := 0, poison := false }) 0 false
  else match readSource s k ctx f c with
    | (.error e, s1) => (.ofErr 5 e, s1)
    | (.ok d, s1) => writeUnit s1 k ctx f b (xferWrite f b d) (b2n d.filled) d.poison

/-- MFILL at a block (R378). -/
def fillUnit (s : State) (k ctx : Nat) (f : Xfer) (b : BlockAt) : UnitRes × State :=
  let code (x : Nat) : Option Nat :=
    if elemValid f.mesh f.dst b x then some (fillCode f.dst)
    else if elemTail f.mesh f.dst b x then some 0
    else if f.dst.padw && elemPadded f.dst b x then some (fillCode f.dst) else none
  writeUnit s k ctx f b { codes := (List.range 32).map code, scale := fillScale f.dst, poison := false } 0 false

/-! ### MTRANS (R374) -/

/-- The 32 destination blocks of a tile. -/
def tileBlocks (t : Tensor) (n : Nat) : List BlockAt :=
  match boxCoords (tileBox t) n, boxRange t t.padw with
  | b0 :: t1 :: rest, _ :: (lo, m) :: _ =>
    (List.range 32).filterMap (fun y : Nat =>
      let i : Int := lo + 32 * t1 + (y : Int)
      if i < lo + (m : Int) then some { b0 := b0, rest := i :: rest } else none)
  | _, _ => []

/-- Reads the source blocks that the valid elements of destination block `b` draw on, one for each of its 32 positions. -/
def tileSources (s : State) (k ctx : Nat) (f : Xfer) (b : BlockAt) (x : Nat) : Except BlkErr (List (Option BlockData)) × State :=
  match x with
  | 0 => (.ok [], s)
  | m + 1 =>
    match tileSources s k ctx f b m with
    | (.error e, s1) => (.error e, s1)
    | (.ok l, s1) =>
      if !elemValid f.mesh f.dst b m then (.ok (l ++ [none]), s1)
      else
        let i1 := b.rest.getD 0 0
        let c : BlockAt := { b0 := i1 / 32, rest := (32 * b.b0 + (m : Int)) :: b.rest.drop 1 }
        match readSource s1 k ctx f c with
        | (.error e, s2) => (.error e, s2)
        | (.ok d, s2) => (.ok (l ++ [some d]), s2)

/-- A destination block of a unit of several blocks, with its physical address and its write: how many of its source blocks are wholly fill,
and whether it is dropped. -/
structure TileWrite where
  b : BlockAt
  pa : Nat
  w : BlockWrite
  fill : Nat
  drop : Bool
deriving DecidableEq, Repr

/-- The 32 source blocks of a block of a tile. It is irreducible so that the equations of its callers do not run the reads. -/
@[irreducible] def tileBlock (s : State) (k ctx : Nat) (f : Xfer) (b : BlockAt) : Except BlkErr (List (Option BlockData)) × State :=
  tileSources s k ctx f b 32

/-- What one block of a tile becomes from its 32 source blocks (R369, R370); it is not yet translated. -/
def tileWrite (f : Xfer) (b : BlockAt) (ds : List (Option BlockData)) : TileWrite :=
  let e := ((b.rest.getD 0 0) % 32).toNat
  let vals := ds.map (fun o => match o with
    | some d => elemValue f.src d e
    | none => .fin false 0 0)
  let bad := ds.any (fun o => o.any (fun d => d.poison))
  let w := if blockValid f.mesh f.dst b then convertWrite f.mesh f.dst b vals bad
    else if f.dst.padw then padWrite f.mesh f.dst b else { codes := List.replicate 32 none, scale := 0, poison := false }
  { b := b, pa := 0, w := padClear f b w, fill := (ds.filter (fun o => o.any (fun d => d.filled))).length, drop := w.codes.all Option.isNone }

/-- A block of a tile's plan in front of the rest of the plan. -/
def tileCons (w : TileWrite) (r : Except UnitRes (List TileWrite) × State) : Except UnitRes (List TileWrite) × State :=
  match r with
  | (.error e, s) => (.error e, s)
  | (.ok l, s) => (.ok (w :: l), s)

/-- The translation of the destination of a block of a unit; a block without a write makes no access (R366, R370). -/
def tileXlate (s : State) (k ctx : Nat) (f : Xfer) (w : TileWrite) : Except UnitRes TileWrite × State :=
  if w.w.codes.all Option.isNone then (.ok w, s)
  else match blkXlate s k ctx (blockData f.dst w.b) .w with
    | (.error e, s1) => (.error (.ofErr 6 e), s1)
    | (.ok pa, s1) => (.ok { w with pa := pa }, s1)

/-- Reads and translates every block of a tile before any is written (R370). -/
def tilePlan (s : State) (k ctx : Nat) (f : Xfer) (bs : List BlockAt) : Except UnitRes (List TileWrite) × State :=
  match bs with
  | [] => (.ok [], s)
  | b :: rest =>
    match tileBlock s k ctx f b with
    | (.error e, s1) => (.error (.ofErr 5 e), s1)
    | (.ok ds, s1) =>
      match tileXlate s1 k ctx f (tileWrite f b ds) with
      | (.error e, s2) => (.error e, s2)
      | (.ok w, s2) => tileCons w (tilePlan s2 k ctx f rest)

/-- Makes the writes of a unit of several blocks. -/
def tileRun (s : State) (f : Xfer) (l : List TileWrite) : UnitRes × State :=
  let r := l.foldl (fun (a : Nat × State) t =>
    let (n, st) := putBlock a.2 f.dst t.b t.pa t.w
    (a.1 + n, st)) (0, s)
  (.ok r.1 (l.foldl (fun a t => a + t.fill) 0) (l.filter (fun t => t.drop)).length (l.any (fun t => t.w.poison)), r.2)

/-- One tile of MTRANS. -/
def transUnit (s : State) (k ctx : Nat) (f : Xfer) (n : Nat) : UnitRes × State :=
  match tilePlan s k ctx f (tileBlocks f.dst n) with
  | (.error r, s1) => (r, s1)
  | (.ok l, s1) => tileRun s1 f l

/-! ### Lists (R375–R377) -/

/-- A unit of MGATHER (R376). -/
def gatherUnit (s : State) (k ctx : Nat) (f : Xfer) (n : Nat) : UnitRes × State :=
  let r := boxRange f.dst false
  if f.count ≤ n then match (padBlocks f.mesh f.dst)[n - f.count]? with
    | some b => writeUnit s k ctx f b (padWrite f.mesh f.dst b) 0 false
    | none => (.ok 0 0 0 false, s)
  else if boxCount r ≤ n then (.ok 0 0 1 false, s)
  else
    let b := boxBlock r n
    match listEntry s k ctx f n with
    | (.error e, s1) => (.ofErr 7 e, s1)
    | (.ok (c, bad), s1) =>
      if bad then writeUnit s1 k ctx f b (xferWrite f b { fillBlock f.src with poison := true }) 0 true
      else copyUnit s1 k ctx f c b

/-- A unit of MSCATTER (R377). -/
def scatterUnit (s : State) (k ctx : Nat) (f : Xfer) (n : Nat) : UnitRes × State :=
  let r := boxRange f.src false
  match listEntry s k ctx f n with
  | (.error e, s1) => (.ofErr 7 e, s1)
  | (.ok (b, bad), s1) =>
    if bad then (.ok 0 0 0 true, s1)
    else if !blockValid f.mesh f.dst b then (.ok 0 0 1 false, s1)
    else if boxCount r ≤ n then writeUnit s1 k ctx f b (xferWrite f b (fillBlock f.src)) 1 false
    else copyUnit s1 k ctx f (boxBlock r n) b

/-! ### MST (R381) -/

/-- The write of destination block `j` of MST, from bank row `j`, or from bank column `j` when it transposes (R381). -/
def storeBlock (l : Lattice) (f : Xfer) (j : Nat) : TileWrite :=
  let a := f.list % 2
  let b := f.list / 2 % 4
  let c : BlockAt := { b0 := 0, rest := boxCoords ((boxRange f.dst false).drop 1) j }
  let vals := (List.range 32).map (fun x => f32 (if bitN f.list 3 then l.get a b x j else l.get a b j x))
  { b := c, pa := 0, w := padClear f c (convertWrite f.mesh f.dst c vals false), fill := 0, drop := false }

/-- What bank row `n` gives (R369): block `n`, or position `n` of every block when MST transposes. -/
def storeRow (l : Lattice) (f : Xfer) (n : Nat) : List TileWrite :=
  let count := boxCount ((boxRange f.dst false).drop 1)
  if bitN f.list 3 then (List.range count).map (fun j =>
    let t := storeBlock l f j
    { t with w := { t.w with codes := (List.range 32).map (fun x => if x = n then t.w.codes.getD x none else none) } })
  else if n < count then [storeBlock l f n] else []

/-- Translates the destinations of a unit's blocks before any is written (R370). -/
def storePlan (s : State) (k ctx : Nat) (f : Xfer) (ws : List TileWrite) : Except UnitRes (List TileWrite) × State :=
  match ws with
  | [] => (.ok [], s)
  | w :: rest =>
    match tileXlate s k ctx f w with
    | (.error e, s1) => (.error e, s1)
    | (.ok v, s1) => tileCons v (storePlan s1 k ctx f rest)

/-- A unit of MST: one bank row, 0 to 31, then the pad blocks (R369, R381). -/
def storeUnit (s : State) (k ctx : Nat) (f : Xfer) (n : Nat) : UnitRes × State :=
  if 32 ≤ n then match (padBlocks f.mesh f.dst)[n - 32]? with
    | some c => writeUnit s k ctx f c (padWrite f.mesh f.dst c) 0 false
    | none => (.ok 0 0 0 false, s)
  else match storePlan s k ctx f (storeRow (coreGet s k).lat f n) with
    | (.error r, s1) => (r, s1)
    | (.ok l, s1) => tileRun s1 f l

/-! ### MPUT and MGET (R379, 16 R468, R469) -/

/-- The virtual ranges of a block's data and scale. -/
def blockRanges (t : Tensor) (b : BlockAt) : List (Nat × Nat) :=
  (blockData t b, fmtVec t.fmt) :: (if fmtScaled t.fmt then [(blockScaleAt t b, 1)] else [])

/-- A range of a request's data: its virtual address, a poison mark, which bits of its bytes it writes (0 all, 1 bits [3:0], 2 bits [7:4]), and
its length. The layout of a unit's data is the model's. DESIGN CHOICE: log 100. -/
def rangeHead (va n : Nat) (bad : Bool) (part : Nat) : Bytes := beBytes 6 va ++ [byteOf (b2n bad), byteOf part] ++ beBytes 8 n

/-- Which bits of byte `i` of the element data a block write writes (R342, R366): 0 all, 1 the even element of a 4-bit pair, 2 the odd one. -/
def bytePart (f : Nat) (codes : List (Option Nat)) (i : Nat) : Nat :=
  if fmtBits f = 4 then
    match codes.getD (2 * i) none, codes.getD (2 * i + 1) none with
    | some _, none => 1
    | none, some _ => 2
    | _, _ => 0
  else 0

/-- The ranges of a write request in which a block write writes the named part of each byte. -/
def putRuns (t : Tensor) (b : BlockAt) (w : BlockWrite) (part : Nat) : Bytes :=
  let lanes := (List.range (fmtVec t.fmt)).map (fun i =>
    let v := writeByte t.fmt w.codes i 0
    (i, v.isSome && bytePart t.fmt w.codes i == part, v.getD 0))
  (enabledRuns lanes none).flatMap (fun r => rangeHead ((blockData t b + r.1) % 2 ^ 48) r.2.length w.poison part ++ r.2)

/-- The data of a write request for a block write. -/
def putData (t : Tensor) (b : BlockAt) (w : BlockWrite) : Bytes :=
  putRuns t b w 0 ++ putRuns t b w 1 ++ putRuns t b w 2 ++
    (if fmtScaled t.fmt then rangeHead (blockScaleAt t b) 1 w.poison 0 ++ [byteOf w.scale] else []) ++
    (lineZeros t b).flatMap (fun z => rangeHead z.1 z.2 false 0 ++ zeros z.2)

/-- The data of a read request for a block. -/
def getData (t : Tensor) (b : BlockAt) : Bytes := (blockRanges t b).flatMap (fun r => rangeHead r.1 r.2 false 0)

/-- What a unit of MPUT or MGET needs: nothing remote, or a request with its data, and for MGET the addresses of its destination. -/
inductive RemoteUnit where
  | local_ (r : UnitRes)
  | request (write : Bool) (data : Bytes) (fill : Nat) (bad : Bool) (dest : Option (Nat × Nat))
deriving DecidableEq, Repr

/-- A unit of MPUT: the local source block becomes a write request. -/
def putUnit (s : State) (k ctx : Nat) (f : Xfer) (n : Nat) : RemoteUnit × State :=
  let b := boxBlock (boxRange f.dst f.dst.padw) n
  let req (w0 : BlockWrite) (fill : Nat) : RemoteUnit :=
    let w := padClear f b w0
    if w.codes.all Option.isNone then .local_ (.ok 0 fill (if w0.codes.all Option.isNone then 1 else 0) w0.poison)
    else .request true (putData f.dst b w) fill w0.poison none
  if !blockValid f.mesh f.dst b then (if f.dst.padw then req (padWrite f.mesh f.dst b) 0 else .local_ (.ok 0 0 1 false), s)
  else match readBlock s k ctx f.mesh f.src b false with
    | (.error e, s1) => (.local_ (.ofErr 5 e), s1)
    | (.ok d, s1) => (req (xferWrite f b d) (b2n d.filled), s1)

/-- A unit of MGET: a source block that is wholly fill needs no request. -/
def getUnit (s : State) (k ctx : Nat) (f : Xfer) (n : Nat) : RemoteUnit × State :=
  let b := boxBlock (boxRange f.dst f.dst.padw) n
  if !blockValid f.mesh f.dst b ∨ !blockValid f.mesh f.src b then
    let r := copyUnit s k ctx f b b
    (.local_ r.1, r.2)
  else match blkXlate s k ctx (blockData f.dst b) .w with
    | (.error e, s1) => (.local_ (.ofErr 6 e), s1)
    | (.ok pa, s1) => (.request false (getData f.src b) 0 false (some (blockData f.dst b, pa)), s1)

/-- A read response delivers a unit of MGET (16 READ_RSP); its destination stays as it was translated for the request (13 R398). -/
def getArrive (s : State) (k ctx : Nat) (f : Xfer) (data : Bytes) (bad : Bool) : UnitRes × State :=
  let b := boxBlock (boxRange f.dst f.dst.padw) f.unit
  let n := fmtVec f.src.fmt
  let d := blockOf f.mesh f.src b (data.take n) (if fmtScaled f.src.fmt then byteAt data n else 0x7F) bad
  match f.keep.dest with
  | none => writeUnit s k ctx f b (xferWrite f b d) 0 bad
  | some (_, pa) =>
    let w := padClear f b (xferWrite f b d)
    let r := putBlock s f.dst b pa w
    (.ok r.1 0 (if (xferWrite f b d).codes.all Option.isNone then 1 else 0) bad, r.2)

/-! ### A transfer's progress (R370, R278) -/

/-- The transfer of a tag, if it is BUSY. -/
def xferOf (s : State) (k h n : Nat) : Option Xfer :=
  match hcGet s k h with
  | some x => match x.tag n with
    | .busy f => some f
    | _ => none
  | none => none

/-- Sets a tag. -/
def setTag (s : State) (k h n : Nat) (t : TagSt) : State := hcMod s k h (fun x => { x with tags := fsetD .idle x.tags n t })

/-- A transfer ends (R278): status 0 is DONE. MOV_XFERS and MOV_FAILED count it; what waited for an MST may go on. -/
def xferEnd (s : State) (k h n status : Nat) : State :=
  let s1 := dropReqs (setTag s k h n (if status = 0 then .done else .failed status)) k h n
  let s2 := bump s1 .movXfers 0 k
  latDrain (if status = 0 then s2 else bump s2 .movFailed 0 k) k

/-- A unit has completed: its counts, and the transfer's place (R364, R366; 21 MOVER_BYTES). -/
def unitDone (s : State) (k h n ctx : Nat) (f : Xfer) (bytes fill drop : Nat) (bad : Bool) : State :=
  let s1 := bumpBy (bumpBy (bumpBy s .movBytes 0 k bytes) .movFill 0 k fill) .movDrop 0 k drop
  setTag (coreCount s1 k ctx 8 bytes) k h n (.busy
    { f with unit := f.unit + 1, poison := f.poison || bad, keep := { f.keep with dest := none, stale := false } })

/-- One unit of a transfer of local memory. -/
def localUnit (s : State) (k ctx : Nat) (f : Xfer) : UnitRes × State :=
  let box := boxBlock (boxRange f.dst f.dst.padw) f.unit
  match f.op with
  | 0x01 => copyUnit s k ctx f box box
  | 0x02 => transUnit s k ctx f f.unit
  | 0x03 => gatherUnit s k ctx f f.unit
  | 0x04 => scatterUnit s k ctx f f.unit
  | 0x05 => fillUnit s k ctx f box
  | _ => storeUnit s k ctx f f.unit

/-- Where a run of units stopped: all units are complete, a request is outstanding, a fault, a refusal, or the limit. -/
inductive RunStop where
  | finished
  | remote
  | fault (src va kind level : Nat)
  | refused
  | limit
deriving DecidableEq, Repr

/-- The transfer is one over Span. -/
def Xfer.remote (f : Xfer) : Bool := f.op == 0x06 || f.op == 0x07

/-- A request of the transfer has no response yet. -/
def xferWaits (s : State) (k h n : Nat) : Bool := s.span.reqs.any (fun r => r.core == k && r.hc == h && r.tag == n)

/-- An MST cannot read its bank: its context waits on its claim, and the accumulators are in its frame (08 R238). -/
def bankAway (s : State) (k h : Nat) (f : Xfer) : Bool := f.op == opMst && (coreGet s k).claim != some h

/-- Runs units of a transfer, at most `fuel` of them. A unit that does not complete leaves memory as it was. DESIGN CHOICE: log 100. -/
def runUnits (s : State) (k h n fuel : Nat) : RunStop × State :=
  match fuel with
  | 0 => (.limit, s)
  | m + 1 =>
    match xferOf s k h n with
    | none => (.limit, s)
    | some f =>
      let ctx := ((hcGet s k h).map (fun x => x.ctx)).getD 0
      if f.units ≤ f.unit then (.finished, s)
      else if bankAway s k h f then (.limit, s)
      else if f.remote then
        match (if f.op = 0x06 then putUnit s k ctx f f.unit else getUnit s k ctx f f.unit) with
        | (.request w data fill bad dest, s1) =>
          let s2 := spanRequest s1 w f.peer f.epoch k h ctx n data
          (.remote, setTag (bumpBy s2 .movFill 0 k fill) k h n (.busy
            { f with poison := f.poison || bad, keep := { f.keep with dest := dest, stale := false } }))
        | (.local_ (.ok bytes fill drop bad), s1) => runUnits (unitDone s1 k h n ctx f bytes fill drop bad) k h n m
        | (.local_ (.fault src va kind level), s1) => (.fault src va kind level, s1)
        | (.local_ .refused, s1) => (.refused, s1)
      else
        match localUnit s k ctx f with
        | (.ok bytes fill drop bad, s1) => runUnits (unitDone s1 k h n ctx f bytes fill drop bad) k h n m
        | (.fault src va kind level, s1) => (.fault src va kind level, s1)
        | (.refused, s1) => (.refused, s1)

/-- The units that a transfer has still to run, and one more. -/
def Xfer.left (f : Xfer) : Nat := f.units - f.unit + 1

/-- The status with which a transfer ends once all its units are complete (R278). DEDUCED: log 153. -/
def Xfer.final (f : Xfer) : Nat := if f.poison then 0x60 else 0

/-- Starts or continues a Span transfer: it sends the request of its next unit (R379). DESIGN CHOICE: log 100. -/
def xferKick (s : State) (k h n : Nat) : State :=
  match xferOf s k h n with
  | some f =>
    if !f.remote || f.st != .running || xferWaits s k h n then s
    else if isolated s then bump (xferEnd s k h n 0x50) .spnLost 0 0
    else match runUnits s k h n f.left with
      | (.remote, s1) => s1
      | (.finished, s1) => s1
      | (.refused, s1) => xferEnd s1 k h n 0x31
      | _ => s
  | none => s

/-- TRANSFER_END (R278): the transfer completes every unit that is left, and its tag becomes DONE or FAILED. One that meets a
serviceable fault does not end. DESIGN CHOICE: log 5. -/
def transferEnd (s : State) (k h n : Nat) : State :=
  match xferOf s k h n with
  | none => s
  | some f =>
    match f.st with
    | .running =>
      if xferWaits s k h n then s
      else match runUnits s k h n f.left with
        | (.finished, s1) => xferEnd s1 k h n (((xferOf s1 k h n).map Xfer.final).getD 0)
        | (.refused, s1) => xferEnd s1 k h n 0x31
        | (.remote, s1) => s1
        | _ => s
    | .fault _ => s

/-- SUSPENDED_TRANSFER (R401, R400): the transfer stops before the unit that meets a serviceable fault; the fault is raised. -/
def suspendTransfer (s : State) (k h n : Nat) : State :=
  match xferOf s k h n, hcGet s k h with
  | some f, some x =>
    if f.st != .running || xferWaits s k h n then s
    else match runUnits s k h n f.left with
      | (.fault src va kind level, s1) =>
        match xferOf s1 k h n with
        | some g =>
          let (q, s2) := raiseFault s1 k
            { va := va, ctx := x.ctx, hc := h, src := src, kind := kind, level := level, tag := n, pc := x.pc, unit := g.unit }
          coreCount (bump (setTag s2 k h n (.busy { g with st := .fault q })) .movSuspend 0 k) k x.ctx 10 1
        | none => s
      | _ => s
  | _, _ => s

/-! ### The mover slot before the bundle commits (R276, R277) -/

/-- What a failed read of a table in a peer's memory raises (R360, R379, 16 R469): poison, the peer's loss, or the refusal or the fault that
the peer answers. DEDUCED: log 87. -/
def peerExc (status va : Nat) : Exc :=
  if status = 0x60 then excPoison .dx else if status = 0x50 then mkExc 11 .dx 0
  else excData (if status = 0x30 then 0x30 else 0x31) .dx va

/-- The tensor that a transfer reads or writes: from the local tables, or from the table read in the peer's memory (R379). -/
def xferDesc (s : State) (k : Nat) (x : Hc) (d : Nat) (dest : Bool) (peerTable : Option PeerTable) : Except SlotOut Tensor × State :=
  match peerTable with
  | some p =>
    if descHeadOk d dest && descHasTable d && p.status != 0 then (.error (.raise (peerExc p.status (descTable d).1)), s)
    else (match parseTensor d p.bytes dest with
      | some t => .ok t
      | none => .error (.raise (excIllegal .dx)), s)
  | none => useDesc s k x .dx d dest

/-- The peer's table of MPUT's destination or MGET's source. -/
def DSlot.peerOf (i : DSlot) (dest : Bool) (table : PeerTable) : Option PeerTable :=
  if (i.op = .put ∧ dest) ∨ (i.op = .get ∧ !dest) then some table else none

/-- The registers that a mover slot reads. DEDUCED: log 152. -/
def DSlot.reads (i : DSlot) : List RegRef :=
  match i.op with
  | .copy => [.t i.ts, .t i.td] ++ (if i.srcOfs then [.s i.sa] else []) ++ (if i.dstOfs then [.s i.sb] else [])
  | .trans => [.t i.ts, .t i.td] ++ (if i.srcOfs then [.s i.sa] else []) ++ (if i.dstOfs then [.s i.sb] else [])
  | .gather => [.t i.ts, .t i.td, .s i.sa, .s i.sb]
  | .scatter => [.t i.ts, .t i.td, .s i.sa, .s i.sb]
  | .fill => [.t i.td]
  | .put => [.t i.ts, .t i.td, .s i.sb]
  | .get => [.t i.ts, .t i.td, .s i.sb]
  | .wait_ => []
  | .test => []
  | .tld => [.s i.sa]
  | .tst => [.t i.ts, .s i.sa]
  | .tmov => [.t i.ts]
  | .taddb => [.t i.ts, .s i.sa]

/-- The Span peer, the list address and the entry count that a transfer takes from s registers. -/
def DSlot.peer (i : DSlot) (x : Hc) : Nat := (x.sreg i.sb).toNat % 64

/-- A transfer's own illegal operands: MTRANS of rank 1, a list that is not aligned, a count outside its range (R374, R375). -/
def DSlot.illegalUse (i : DSlot) (x : Hc) (src dst : Tensor) : Bool :=
  match i.op with
  | .trans => decide (src.dims.length < 2) || decide (dst.dims.length < 2)
  | .gather => (x.sreg i.sa).toNat % 32 != 0 || x.sreg i.sb == 0 || decide (65536 < (x.sreg i.sb).toNat)
  | .scatter => (x.sreg i.sa).toNat % 32 != 0 || x.sreg i.sb == 0 || decide (65536 < (x.sreg i.sb).toNat)
  | _ => false

/-- The two tensors of a transfer as its descriptor registers hold them. DEDUCED: log 87. -/
def xferTensors (s : State) (k : Nat) (x : Hc) (i : DSlot) (table : PeerTable) : Except SlotOut (Tensor × Tensor) × State :=
  match xferDesc s k x (x.treg i.td).toNat true (i.peerOf true table) with
  | (.error o, s1) => (.error o, s1)
  | (.ok dst, s1) =>
    if i.op = .fill then (.ok (dst, dst), s1)
    else match xferDesc s1 k x (x.treg i.ts).toNat false (i.peerOf false table) with
      | (.error o, s2) => (.error o, s2)
      | (.ok src, s2) => (.ok (src, dst), s2)

/-- The mover slot before the bundle commits. DEDUCED: log 87. -/
def moverOut (s : State) (k : Nat) (x : Hc) (i : DSlot) (table : PeerTable) : SlotOut × State :=
  if !x.cond i.pred i.pneg then (.none_, s)
  else if i.op.isTransfer then
    if i.reads.any x.refBad then (.raise (excPoison .dx), s)
    else match xferTensors s k x i table with
      | (.error o, s1) =>
        match (x.tag i.xt).failure with
        | some st => (if o.exc.any (fun e => e.code == 11) then .raise (excXfer .dx i.xt st) else o, s1)
        | none => (o, s1)
      | (.ok (src, dst), s1) =>
        if i.illegalUse x src dst then (.raise (excIllegal .dx), s1)
        else match (x.tag i.xt).failure with
          | some st => (.raise (excXfer .dx i.xt st), s1)
          | none =>
            if (i.op = .put ∨ i.op = .get) ∧ !peerOk s1 (i.peer x) then (.raise (mkExc 11 .dx 0), s1)
            else ({ SlotOut.none_ with wait := (x.tag i.xt).isBusy }, s1)
  else match i.op with
    | .wait_ =>
      if x.anyBusy (i.imm % 16) then ({ SlotOut.none_ with wait := true }, s)
      else match x.lowestFailed (i.imm % 16) with
        | some (n, st) => (.raise (excXfer .dx n st), s)
        | none => (.none_, s)
    | .test => (.write [.s i.sa x.tagWord false], s)
    | .tld =>
      let va := x.descAddr i
      if x.sBad i.sa then (.raise (excPoison .dx), s)
      else if va % 32 != 0 then (.raise (excAlign .dx va), s)
      else match access s k x va .r .dx 1 with
        | (.error o, s1) => (o, s1)
        | (.ok pa, s1) => (loadOut s1 k x va pa 32 (.t i.td) leNat false, s1)
    | .tst =>
      let va := x.descAddr i
      if x.sBad i.sa then (.raise (excPoison .dx), s)
      else if va % 32 != 0 then (.raise (excAlign .dx va), s)
      else match access s k x va .w .dx 2 with
        | (.error o, s1) => (o, s1)
        | (.ok pa, s1) => ({ SlotOut.none_ with st := [(pa, leBytes 32 (x.treg i.ts).toNat, x.tBad i.ts)] }, s1)
    | .tmov => (.write [.t i.td (x.treg i.ts) (x.tBad i.ts)], s)
    | _ =>
      let d := (x.treg i.ts).toNat
      (.write [.t i.td (BitVec.ofNat 256 (setBitsN d 0 48 (bitsN d 0 48 + (x.sreg i.sa).toNat))) (x.tBad i.ts || x.sBad i.sa)], s)

/-! ### The mover slot at commit -/

/-- A descriptor with its base increased by an offset, modulo 2⁴⁸ (R277). -/
def addBase (d off : Nat) : Nat := setBitsN d 0 48 (bitsN d 0 48 + off)

/-- A tensor with the base of an adjusted descriptor. -/
def Tensor.rebase (t : Tensor) (d : Nat) : Tensor := { t with base := bitsN d 0 48 }

/-- Starts a transfer (R277, R362): its tag becomes BUSY; a base that is not aligned ends it at once with 0x31. DESIGN CHOICE: log 100. -/
def startXfer (s : State) (k h n : Nat) (f : Xfer) : State :=
  let ctx := ((hcGet s k h).map (fun x => x.ctx)).getD 0
  let s1 := setTag s k h n (.busy { f with keep := { XferMem.none_ with old := overlapBytes s k ctx f } })
  let s2 := if mayAlias f.mesh f.dst (f.dst.padw && f.op != 0x04) then bump s1 .movAlias 0 k else s1
  if f.src.base % fmtAlign f.src.fmt ≠ 0 ∨ f.dst.base % fmtAlign f.dst.fmt ≠ 0 then xferEnd s2 k h n 0x31 else xferKick s2 k h n

/-- A transfer that an earlier slot of the same bundle started on the tag runs before the later one starts. -/
def settleTag (s : State) (k h n : Nat) : State :=
  match xferOf s k h n with
  | some f => (runUnits s k h n f.left).2
  | none => s

/-- The effect of the mover slot at commit: a transfer starts; MWAIT collects its tags (R277, R279). -/
def moverCommit (s : State) (k h : Nat) (x : Hc) (i : DSlot) (table : PeerTable) : State :=
  if !x.cond i.pred i.pneg then s
  else if i.op.isTransfer then
    match xferTensors s k x i table with
    | (.error _, s1) => s1
    | (.ok (src, dst), s1) =>
      let off (b : Bool) (r : Nat) := if b then (x.sreg r).toNat else 0
      let sd := addBase (x.treg (if i.op = .fill then i.td else i.ts)).toNat (off i.srcOfs i.sa)
      let dd := addBase (x.treg i.td).toNat (off i.dstOfs i.sb)
      let list := i.op == .gather || i.op == .scatter
      let f : Xfer :=
        { op := i.op.code, srcD := sd, dstD := dd, src := src.rebase sd, dst := dst.rebase dd,
          list := if list then (x.sreg i.sa).toNat % 2 ^ 48 else 0, count := if list then (x.sreg i.sb).toNat else 0,
          peer := if i.op = .put ∨ i.op = .get then i.peer x else 0, epoch := epochNow s, mesh := meshNow s, unit := 0, poison := false,
          st := .running, keep := XferMem.none_ }
      startXfer (settleTag s1 k h i.xt) k h i.xt f
  else if i.op = .wait_ then
    (List.range 4).foldl (fun t n => if bitN i.imm n && !((x.tag n) == .idle) then setTag t k h n .idle else t) s
  else s

/-- The effect of MST at commit (10 "Matrix opcodes", R381): a transfer of a bank on tag XT. -/
def mstCommit (s : State) (k h : Nat) (x : Hc) (i : MSlot) : State :=
  if i.op != .st || (coreGet s k).claim != some h || !x.cond i.pred i.pneg then s
  else match useDesc s k x .mx (x.treg i.ta).toNat true with
    | (.error _, s1) => s1
    | (.ok t, s1) =>
      let d := i.taDesc x
      let f : Xfer :=
        { op := opMst, srcD := d, dstD := d, src := t.rebase d, dst := t.rebase d,
          list := (arraysOf i.arr).headD 0 + 2 * i.bank + (if bitN i.imm 0 then 8 else 0), count := 0, peer := 0, epoch := epochNow s,
          mesh := meshNow s, unit := 0, poison := false, st := .running, keep := XferMem.none_ }
      if i.taAligned x then startXfer s1 k h i.xt f
      else setTag s1 k h i.xt (.busy f) |> fun s2 => xferEnd s2 k h i.xt 0x31

end Sys2Proof.Machine
end

