-- ==== Sys2Proof/Machine/Control.lean ====
section
/-!
DEFINITION. The control slot (09 R282–R296): branches, fences, c registers, the claim, queue instructions; and how a context ends
(08 R245–R251): result slots, exceptions and debug stops.
-/

namespace Sys2Proof.Machine

/-! ### Result slots (02 R87; 08 R244–R246) -/

/-- The result slot of the run of a context that has not finished. -/
def slotOf (s : State) (ctx : Nat) : Option Nat :=
  (s.gct.slots.find? (fun e => e.2.ctx == ctx && e.2.ready == none)).map Prod.fst

/-- The cells of result slot `n` (06 "Heartwood partitions"): one of status, generation and length, and 16 of inline result. -/
def slotCells (n : Nat) : List Nat := rangeFrom (256 + 17 * n) 17

/-- A slot becomes ready with its run status; inline data stays only with 0x00 and 0x40 (02 R87, R88). -/
def slotReady (s : State) (n status : Nat) (data : Bytes) : State :=
  let d := if status = 0 ∨ status = 0x40 then data else []
  writeCells { s with gct := { s.gct with slots := fmod s.gct.slots n (fun r =>
      { r with ready := some status, data := d, readyAt := s.idleClock }) } } (slotCells n) (256 + d.length)

/-- The slot of a run of a context becomes ready. -/
def runReady (s : State) (ctx status : Nat) (data : Bytes) : State :=
  match slotOf s ctx with
  | some n => slotReady s n status data
  | none => s

/-! ### How a context leaves a core -/

/-- The queues that a context produces for and that hold its open packet. -/
def openQueues (s : State) (ctx : Nat) : List Nat :=
  (s.heart.queues.filter (fun e => e.2.openN.isSome && queueProducer s e.1 == (3, ctx))).map Prod.fst

/-- The open packets of a context are rewound (06 R186, 08 R238 step 5). -/
def rewindOpen (s : State) (ctx : Nat) : State := (openQueues s ctx).foldl (fun t q => queueRewindPacket t q true true) s

/-- The pair of core `k` is given up (08 R231, R232). -/
def releasePair (s : State) (k : Nat) : State :=
  coreMod s k (fun c => { c with claim := none, lat := Lattice.reset, idleFrom := s.idleClock })

/-- The claim of a hardware context, held or waiting, is given up. -/
def dropClaim (s : State) (k h : Nat) : State :=
  let s1 := if (coreGet s k).claim = some h then releasePair s k else s
  coreMod s1 k (fun c => { c with claims := c.claims.filter (fun w => w.hc != h) })

/-- A single step of a context is over: OBS_DBG shows no operation in progress (21 R564). -/
def stepOver (s : State) (x : Hc) : State :=
  if x.stepOne then regPutF (regPutF s .obsDbg 0 0 16 1 0) .obsDbg 0 0 24 8 0 else s

/-- A context leaves its hardware context for good: its claim, requests and open packets go, its core's counts are sent, and the
frame that it still keeps is freed (08 R245, R246, R250; 21 R554). -/
def freeContext (s : State) (k h : Nat) : State :=
  match hcGet s k h with
  | none => s
  | some x =>
    let s1 := rewindOpen (dropClaim (countSend s k) k h) x.ctx
    let s2 := { s1 with span := { s1.span with reqs := s1.span.reqs.filter (fun r => !(r.core == k && r.hc == h)) } }
    let s3 := match x.heldFrame with
      | some f => coreMod s2 k (fun c => { c with frames := ferase c.frames f })
      | none => s2
    hcSet (stepOver s3 x) k h none

/-! ### EXIT (R245) -/

/-- Copies `n` bytes of a context's memory: the bytes, or the status that the copy gives (R245 step 3). -/
def exitCopy (s : State) (k ctx va n : Nat) : Except Nat Bytes × State :=
  match virtRead s k ctx va n 3 with
  | (.ok (bs, bad), s1) => (if bad then .error 0x60 else .ok bs, s1)
  | (.error (.fault _ kind _), s1) => (.error (if kind = 2 then 0x31 else 0x30), s1)
  | (.error (.refused _), s1) => (.error 0x31, s1)

/-- The status of the lowest failure code that a claimant leaves uncollected (10 R329). -/
def uncollected (s : State) (k h : Nat) : Option Nat :=
  let c := coreGet s k
  if c.claim = some h then (firstCode c.lat [0, 1] [0, 1, 2, 3] [0, 1, 2, 3]).map (fun e => latStatus e.2) else none

/-- The context of a hardware context ends by EXIT (R245): a run's slot becomes ready, with the status of a failure code that nobody has
collected in place of 0x00 and 0x40 (10 R329). -/
def exitContext (s : State) (k h : Nat) : State :=
  match hcGet s k h with
  | none => s
  | some x =>
    if x.isRun then
      let code := uncollected s k h
      let r := exitCopy s k x.ctx x.param x.rlen
      let s1 := freeContext r.2 k h
      match r.1 with
      | .ok bs =>
        match code with
        | some st => runReady s1 x.ctx st []
        | none => runReady s1 x.ctx (if bitN x.runstat 0 then 0x40 else 0) bs
      | .error st => runReady s1 x.ctx st []
    else freeContext s k h

/-! ### Exceptions (R250, R251) -/

/-- The address of the exception record of hardware context `h` in the core area. -/
def excRecordAt (k h : Nat) : Nat := ringBase k + 0x1FE000 + 64 * h

/-- An exception record: seven 8-byte fields (R240, R250). -/
def excRecord (e : Exc) (pc layer oper : Nat) : Bytes :=
  leBytes 8 e.code ++ leBytes 8 e.slot.index ++ leBytes 8 pc ++ leBytes 8 e.va ++ leBytes 8 layer ++ leBytes 8 oper ++ leBytes 8 e.tag

/-- The EXCEPTION event of a record (17 R487). -/
def excEvent (s : State) (k ctx addr : Nat) : State :=
  crownEvent s 5 (zeros 4 ++ leBytes 2 k ++ leBytes 2 ctx ++ zeros 4 ++ leBytes 8 addr)

/-- An exception ends the context of a hardware context (R250); BREAK is a debug stop when FCT_CTL.DEBUG is set (R251). -/
def raiseExc (s : State) (k h : Nat) (e : Exc) : State :=
  match hcGet s k h with
  | none => s
  | some x =>
    if e.code = 12 ∧ regF s .fctCtl 0 k 2 1 = 1 then debugTrigger (hcSet (stepOver s x) k h (some { x with st := .debug, stepOne := false }))
    else
      let s1 := bump (memWr s (excRecordAt k h) (excRecord e x.pc x.layer x.oper)) .fctExc 0 k
      let s2 := excEvent s1 k x.ctx (excRecordAt k h)
      let s3 := freeContext s2 k h
      let s4 := if x.isRun then runReady s3 x.ctx e.status [] else s3
      excTrigger s4 e.code

/-! ### Queue descriptors (R290) -/

/-- Queue descriptor `d` of a context, as 16 bits. -/
def Hc.qdesc (x : Hc) (d : Nat) : Nat := fgetD 0 x.qd d

/-- The queue that descriptor `d` names, when it is valid. -/
def Hc.queue (x : Hc) (d : Nat) : Option Nat := if bitN (x.qdesc d) 15 then some (x.qdesc d % 4096) else none

/-- What a queue instruction does: the queue operations in effect, its status word's fields, register writes, and whether it waits. -/
structure QDone where
  s : State
  code : Nat
  sop : Bool
  eop : Bool
  poison : Bool
  count : Nat
  wr : List RegWrite
  wait : Bool

/-- A queue instruction without words. -/
def qSimple (r : QRes × State) : QDone :=
  { s := r.2, code := r.1.code, sop := false, eop := false, poison := false, count := 0, wr := [], wait := false }

/-- QOPEN (R293, R294): an open packet is rewound first; a rewind that the producer has still to learn of comes first of all. -/
def qOpen (s : State) (q n : Nat) (discard : Bool) : QDone × Bool :=
  let v := queueGet s q
  if queueEnabled s q && v.rewound then (qSimple (.rewound, queueSet s q { v with rewound := false }), true)
  else
    let had := v.openN.isSome
    let r := queueOpen (queueRewindPacket s q false true) q n discard
    match r.1 with
    | .full => if discard then (qSimple r, had) else ({ qSimple (.full, s) with wait := true }, false)
    | .rewound => (qSimple r, true)
    | _ => (qSimple r, had)

/-- Pushes words in order until one is refused (R293); the count of those pushed. -/
def qPush (s : State) (q : Nat) (ws : List QWord) (n : Nat) : QDone :=
  match ws with
  | [] => { qSimple (.ok, s) with count := n }
  | w :: t =>
    match queuePush s q w with
    | (.ok, s1) => qPush s1 q t (n + 1)
    | r => { qSimple r with count := n }

/-- The words that a read delivers, at most `n`: it stops after a word with EOP or at CM (R295). -/
def qTake (s : State) (q n : Nat) : List QWord × State :=
  match n with
  | 0 => ([], s)
  | m + 1 =>
    match queueRead s q with
    | (none, s1) => ([], s1)
    | (some w, s1) =>
      if w.eop then ([w], s1)
      else
        let r := qTake s1 q m
        (w :: r.1, r.2)

/-- A read of at most `n` words into registers (R295). -/
def qRead (s : State) (q n : Nat) (waits : Bool) (dest : List QWord → Bool → List RegWrite) : QDone :=
  if !queueEnabled s q then qSimple (.refused, s)
  else
    let r := qTake s q n
    if r.1.isEmpty then { qSimple (.empty, r.2) with wait := waits }
    else
      let bad := r.1.any (fun w => w.poison)
      { s := r.2, code := 0, sop := (r.1.head?.map (fun w => w.sop)).getD false, eop := (r.1.getLast?.map (fun w => w.eop)).getD false,
        poison := bad, count := r.1.length, wr := dest r.1 bad, wait := false }

/-- The 128-bit value of a register pair. -/
def Hc.pair (x : Hc) (n : Nat) : BitVec 128 := BitVec.ofNat 128 ((x.sreg (n + 1)).toNat * 2 ^ 64 + (x.sreg n).toNat)

/-- Word `j` of a vector register. -/
def vword (v : VWord) (j : Nat) : BitVec 128 := BitVec.ofNat 128 (bitsN v.toNat (128 * j) 128)

/-- The writes of QREAD. -/
def qreadWrites (rb : Nat) (ws : List QWord) (bad : Bool) : List RegWrite :=
  match ws with
  | [] => []
  | w :: _ => [.s rb (BitVec.ofNat 64 w.data.toNat) bad, .s (rb + 1) (BitVec.ofNat 64 (w.data.toNat / 2 ^ 64)) bad]

/-- The write of QREADV: unwritten words stay. -/
def qreadvWrites (x : Hc) (rb : Nat) (ws : List QWord) (bad : Bool) : List RegWrite :=
  let old := x.vreg rb
  let words := (List.range 8).map (fun j => ((ws[j]?.map (fun w => w.data)).getD (vword old j)).toNat)
  [.v rb (BitVec.ofNat 1024 (words.foldr (fun w a => w + a * 2 ^ 128) 0)) (bad || (decide (ws.length < 8) && x.vBad rb))]

/-- The consumer instruction binds as consumer; the others as producer (R291). -/
def COp.consumes (o : COp) : Bool :=
  match o with
  | .qread => true | .qreadv => true | .qmark => true | .qrewind => true | .qrelease => true
  | _ => false

/-- A queue instruction on queue `q` (R293–R295), and whether the c9 bit of its descriptor is set. -/
def queueOp (s : State) (x : Hc) (i : CSlot) (q : Nat) : QDone × Bool :=
  let learn (d : QDone) : QDone × Bool := (d, d.code == 4)
  match i.op with
  | .qopen => qOpen s q (i.imm % 512) (bitN i.imm 9)
  | .qpush => learn (qPush s q [mkWord (x.pair i.rb) (x.sBad i.rb || x.sBad (i.rb + 1))] 0)
  | .qpushv => learn (qPush s q ((List.range (i.imm % 16)).map (fun j => mkWord (vword (x.vreg i.rb) j) (x.vBad i.rb))) 0)
  | .qcommit => learn (qSimple (queueCommit s q))
  | .qabort => learn (qSimple (queueAbort s q))
  | .qread => (qRead s q 1 (bitN i.imm 0) (qreadWrites i.rb), false)
  | .qreadv => (qRead s q (i.imm % 16) (bitN i.imm 4) (qreadvWrites x i.rb), false)
  | .qmark => (qSimple (queueMark s q), false)
  | .qrewind => (qSimple (queueRewind s q), false)
  | _ => (qSimple (queueRelease s q), false)

/-- The register writes of a queue instruction: its words, then its status word (R292). -/
def QDone.writes (d : QDone) (ra : Nat) : List RegWrite :=
  d.wr ++ [.s ra (queueStatusWord d.code d.sop d.eop d.poison d.count) false]

/-! ### The control slot before the bundle commits -/

/-- The registers that a control slot reads. -/
def CSlot.reads (i : CSlot) : List RegRef :=
  match i.op with
  | .jr => [.s i.ra]
  | .callr => [.s i.ra]
  | .loop => [.s i.ra]
  | .cwr => [.s i.ra]
  | .qsel => [.s i.rb]
  | .qpush => [.s i.rb, .s (i.rb + 1)]
  | .qpushv => [.v i.rb]
  | .qreadv => [.v i.rb]
  | _ => []

/-- The value of c register `n` (08 "Context state registers"). -/
def cregGet (s : State) (k : Nat) (x : Hc) (n : Nat) : Word :=
  match n with
  | 0 => BitVec.ofNat 64 x.pc
  | 1 => BitVec.ofNat 64 x.ctx
  | 2 => BitVec.ofNat 64 x.layer
  | 3 => BitVec.ofNat 64 x.oper
  | 4 => regGet s (mkReg .fctId 0 k)
  | 5 => BitVec.ofNat 64 (stampNow s)
  | 6 => BitVec.ofNat 64 x.runstat
  | 7 => BitVec.ofNat 64 x.param
  | 8 => BitVec.ofNat 64 x.rlen
  | _ => BitVec.ofNat 64 x.qstat

/-- A jump target from a register: poison or a target off the bundle grid raises (R282). -/
def jumpOut (x : Hc) (i : CSlot) (o : SlotOut) : SlotOut :=
  if x.sBad i.ra then .raise (excPoison .cx)
  else if x.regTarget i % 64 != 0 then .raise (excAlign .cx (x.regTarget i)) else o

/-- A queue instruction before the bundle commits (R290, R291). -/
def queueOut (s : State) (x : Hc) (i : CSlot) : SlotOut :=
  match x.queue i.qd with
  | none => .raise (excIllegal .cx)
  | some q =>
    if (if i.op.consumes then queueConsumer s q else queueProducer s q) != (3, x.ctx) then .raise (mkExc 8 .cx 0)
    else
      let d := (queueOp s x i q).1
      if d.wait then { SlotOut.none_ with wait := true } else .write (d.writes i.ra)

/-- Some matrix instruction of the pair is in flight. -/
def matrixBusy (s : State) (k h : Nat) : Bool := (coreGet s k).claim == some h && !(coreGet s k).lat.work.isEmpty

/-- Some transfer or matrix instruction of a context has still to complete. -/
def workBusy (s : State) (k h : Nat) (x : Hc) : Bool := x.anyBusy 15 || matrixBusy s k h

/-- Some matrix instruction of the claimant is in flight, MST among them (R288). -/
def claimBusy (s : State) (k h : Nat) (x : Hc) : Bool :=
  (coreGet s k).claim == some h && (!(coreGet s k).lat.work.isEmpty || x.mstOn 0 || x.mstOn 1)

/-- The control slot before the bundle commits (R282–R298). DEDUCED: log 149. -/
def controlOut (s : State) (k h : Nat) (x : Hc) (i : CSlot) : SlotOut :=
  let link : List RegWrite := [.s i.rb (BitVec.ofNat 64 x.nextPc) false]
  if !x.cond i.pred i.pneg then .none_
  else match i.op with
    | .br => .none_
    | .jr => jumpOut x i .none_
    | .call => .write link
    | .callr => jumpOut x i (.write link)
    | .loop => if x.sBad i.ra then .raise (excPoison .cx) else .write [.s i.ra (x.sreg i.ra - 1) false]
    | .exit => { SlotOut.none_ with wait := workBusy s k h x }
    | .trap => .raise (mkExc 13 .cx i.imm)
    | .brk => .raise (mkExc 12 .cx 0)
    | .fence => { SlotOut.none_ with wait := !x.loads.isEmpty }
    | .ifence => { SlotOut.none_ with wait := !x.loads.isEmpty }
    | .crd => .write [.s i.rb (cregGet s k x i.cr) false]
    | .cwr => if x.sBad i.ra then .raise (excPoison .cx) else .none_
    | .settag => .none_
    | .claim => { SlotOut.none_ with wait := (coreGet s k).claim != some h }
    | .release => { SlotOut.none_ with wait := claimBusy s k h x }
    | .qsel => if x.sBad i.rb then .raise (excPoison .cx) else .none_
    | _ => queueOut s x i

/-! ### The control slot at commit -/

/-- Changes the PC. -/
def setPc (s : State) (k h pc : Nat) : State := hcMod s k h (fun x => { x with pc := pc })

/-- The lines of a context leave the bundle cache (R286). -/
def dropBundles (s : State) (k ctx : Nat) : State :=
  coreMod s k (fun c => { c with cache := c.cache.filter (fun b => b.ctx != ctx) })

/-- A queue instruction at commit: the queue changes, and c9 learns of a rewind (R294). -/
def queueCommitOp (s : State) (k h : Nat) (x : Hc) (i : CSlot) : State :=
  match x.queue i.qd with
  | none => s
  | some q =>
    let (d, learn) := queueOp s x i q
    if learn then hcMod d.s k h (fun y => { y with qstat := setBitN y.qstat i.qd true }) else d.s

/-- A context that has executed EXIT ends once its transfers and matrix instructions have completed (R245 step 1). -/
def exitDone (s : State) (k h : Nat) : State :=
  match hcGet s k h with
  | some x => if x.exiting && !s.gct.stopped && !workBusy s k h x then exitContext s k h else s
  | none => s

/-- EXIT at commit (R245): the context stays at the bundle until what it has started, this bundle's own among it, has completed. DESIGN CHOICE:
log 155. -/
def exitCommit (s : State) (k h : Nat) (x : Hc) : State :=
  exitDone (hcMod s k h (fun y => { y with exiting := true, st := .waiting, pc := x.pc })) k h

/-- The effect of the control slot at commit; `x` is the context before the bundle, the PC already stands at the next bundle. DEDUCED: log 149. -/
def controlCommit (s : State) (k h : Nat) (x : Hc) (i : CSlot) : State :=
  if !x.cond i.pred i.pneg then s
  else match i.op with
    | .br => setPc s k h (x.relTarget i.imm)
    | .jr => setPc s k h (x.regTarget i)
    | .call => setPc s k h (x.relTarget i.imm)
    | .callr => setPc s k h (x.regTarget i)
    | .loop => if x.sreg i.ra - 1 = 0 then s else setPc s k h (x.relTarget i.imm)
    | .exit => exitCommit s k h x
    | .ifence => dropBundles s k x.ctx
    | .crd => if i.cr = 9 then hcMod s k h (fun y => { y with qstat := 0 }) else s
    | .cwr =>
      let v := (x.sreg i.ra).toNat % 65536
      hcMod s k h (fun y => if i.cr = 2 then { y with layer := v } else { y with oper := v })
    | .settag => hcMod s k h (fun y => { y with layer := i.imm % 65536, oper := i.imm / 65536 % 65536 })
    | .release => if (coreGet s k).claim = some h then releasePair s k else s
    | .qsel => hcMod s k h (fun y => { y with qd := fsetD 0 y.qd i.qd ((x.sreg i.rb).toNat % 4096 + 32768) })
    | .trap => s
    | .brk => s
    | .fence => s
    | .claim => s
    | _ => queueCommitOp s k h x i

end Sys2Proof.Machine
end

