-- ==== Sys2Proof/Machine/Issue.lean ====
section
/-!
DEFINITION. The issue of a bundle (08 R228–R230, R247–R251; 09 R259–R264): its checks, its suspension, its waiting and its commit;
the bundle cache; loads that arrive.
-/

namespace Sys2Proof.Machine

/-! ### Registers that the slots of a bundle write (R263) -/

/-- The register that a scalar slot names as its destination: kind 0 s, 2 p (p0 is none). -/
def SSlot.dest (i : SSlot) : List (Nat × Nat) :=
  let p (n : Nat) := if n % 16 = 0 then [] else [(2, n % 16)]
  match i.op.form with
  | .compare => p i.rd
  | .preds => p i.rd
  | .first => p i.rd
  | .store _ => []
  | _ => [(0, i.rd)]

/-- The register that a vector slot names as its destination: kind 0 s, 1 v, 2 p. -/
def VSlot.dest (i : VSlot) : List (Nat × Nat) :=
  match i.op.form with
  | .compare => if i.vd % 16 = 0 then [] else [(2, i.vd % 16)]
  | .ext => [(0, i.sr)]
  | .st => []
  | _ => [(1, i.vd)]

/-- The register that a mover slot names as its destination: kind 0 s, 3 t. -/
def DSlot.dest (i : DSlot) : List (Nat × Nat) :=
  match i.op with
  | .test => [(0, i.sa)]
  | .tld => [(3, i.td)]
  | .tmov => [(3, i.td)]
  | .taddb => [(3, i.td)]
  | _ => []

/-- The registers that a control slot names as its destinations. -/
def CSlot.dest (i : CSlot) : List (Nat × Nat) :=
  match i.op with
  | .call => [(0, i.rb)]
  | .callr => [(0, i.rb)]
  | .loop => [(0, i.ra)]
  | .crd => [(0, i.rb)]
  | .qsel => []
  | .qread => [(0, i.rb), (0, i.rb + 1), (0, i.ra)]
  | .qreadv => [(1, i.rb), (0, i.ra)]
  | o => if o.isQueue then [(0, i.ra)] else []

/-- The destinations of the slots, slot by slot: of a scalar, matrix, mover or control slot only when its condition is 1 (R261). DEDUCED: log
151. -/
def Bundle.dests (b : Bundle) (x : Hc) : List (SlotId × List (Nat × Nat)) :=
  let s (id : SlotId) (o : Option SSlot) := match o with
    | some i => if x.cond i.pred i.pneg then [(id, i.dest)] else []
    | none => []
  s .sa b.sa ++ s .sb b.sb ++
    (match b.vx with
     | some i => [(SlotId.vx, i.dest)]
     | none => []) ++
    (match b.mx with
     | some i => if i.op == .test && x.cond i.pred i.pneg then [(SlotId.mx, [(0, i.so)])] else []
     | none => []) ++
    (match b.dx with
     | some i => if x.cond i.pred i.pneg then [(SlotId.dx, i.dest)] else []
     | none => []) ++
    (match b.cx with
     | some i => if x.cond i.pred i.pneg then [(SlotId.cx, i.dest)] else []
     | none => [])

/-- The later slot of the first two that write one register (R263). -/
def destClash (l : List (SlotId × List (Nat × Nat))) (seen : List (Nat × Nat)) : Option SlotId :=
  match l with
  | [] => none
  | (id, ds) :: t => if ds.any (fun d => decide (d ∈ seen)) then some id else destClash t (seen ++ ds)

/-- The pairing rules of R263: a register written twice, an MX slot without the claim, CLAIM or RELEASE beside an MX slot. DEDUCED: log 151. -/
def Bundle.pairing (b : Bundle) (x : Hc) (claims : Bool) : List Exc :=
  (match destClash (b.dests x) [] with
   | some id => [excIllegal id]
   | none => []) ++
  (if b.mx.isSome && !claims then [excIllegal .mx] else []) ++
  (if b.mx.isSome && b.cx.any (fun i => i.op == .claim || i.op == .release) then [excIllegal .cx] else [])

/-- The registers that the slots of a bundle read (R228). -/
def Bundle.reads (b : Bundle) (x : Hc) : List RegRef :=
  let s (o : Option SSlot) := (o.map SSlot.reads).getD []
  s b.sa ++ s b.sb ++ (b.vx.map (fun i => i.reads x)).getD [] ++ (b.mx.map MSlot.reads).getD [] ++
    (b.dx.map DSlot.reads).getD [] ++ (b.cx.map CSlot.reads).getD []

/-! ### The checks of a bundle (R247–R249) -/

/-- A store's effect on memory alone. -/
def storeOnly (s : State) (w : Nat × Bytes × Bool) : State :=
  let t := busWrite s w.1 w.2.1 w.2.2
  { s with mem := t.mem, memPoison := t.memPoison, upsets := t.upsets }

/-- A slot that may be absent. -/
def slotOut {α : Type} (o : Option α) (f : α → State → SlotOut × State) (s : State) : SlotOut × State :=
  match o with
  | some i => f i s
  | none => (.none_, s)

/-- The answers of the six slots, in their order, and the state that the checks leave: caches and counters changed, memory as it
was (R264). DEDUCED: log 152. -/
def bundleOuts (s : State) (k h : Nat) (x : Hc) (b : Bundle) (table : PeerTable) : List SlotOut × State :=
  let a := slotOut b.sa (fun i t => scalarOut t k x .sa i) s
  let c := slotOut b.sb (fun i t => scalarOut t k x .sb i) a.2
  let v := slotOut b.vx (fun i t => vectorOut t k x i) c.2
  let spec := (a.1.st ++ c.1.st ++ v.1.st).foldl storeOnly v.2
  let m := slotOut b.mx (fun i t => matrixOut t k h x i) spec
  let d := slotOut b.dx (fun i t => moverOut t k x i table) m.2
  let e := slotOut b.cx (fun i t => (controlOut t k h x i, t)) d.2
  ([a.1, c.1, v.1, m.1, d.1, e.1], { e.2 with mem := v.2.mem, memPoison := v.2.memPoison, upsets := v.2.upsets })

/-- The breakpoint of R251 matches the context's PC. DEDUCED: log 150. -/
def breakHit (s : State) (k : Nat) (x : Hc) : Bool :=
  regF s .fctCtl 0 k 3 1 == 1 && regF s .fctBrk 0 k 6 42 * 64 == x.pc && !x.skipBrk

/-- What a bundle's checks decide. -/
inductive Verdict where
  | raise (e : Exc)
  | suspend (f : Flt)
  | wait
  | commit
deriving DecidableEq, Repr

/-- The decision of R247–R249: an exception of code below 7 precedes fault service, and fault service the other exceptions; TRAP comes after
every check of the other slots (R284), those that wait among them. An exception of `extra` gives way to one of its code that a slot raises.
DEDUCED: log 90, log 149. -/
def decideBundle (outs : List SlotOut) (extra : List Exc) : Verdict :=
  let own := outs.flatMap (fun o => o.exc)
  let all := extra.filter (fun e => !own.any (fun o => o.code == e.code)) ++ own
  match chooseExc (all.filter (fun e => decide (e.code < 7))) with
  | some e => .raise e
  | none =>
    match outs.findSome? (fun o => o.flt) with
    | some f => .suspend f
    | none =>
      match chooseExc all with
      | some e => if e.code = 13 ∧ outs.any (fun o => o.wait) then .wait else .raise e
      | none => if outs.any (fun o => o.wait) then .wait else .commit

/-- The bundle's restored disposition with no fault left to apply it to: it raises all the same (13 R404). -/
def dispositionExc (x : Hc) : List Exc :=
  if x.disp = 2 then [excData 0x30 .sa 0] else if x.disp = 3 then [excData 0x31 .sa 0] else []

/-- The operand of the bundle's matrix instruction meets a fault: it takes its failure code and the bundle raises nothing for it
(13 R402, R404). -/
def operandFaults (s : State) (k : Nat) (x : Hc) (b : Bundle) : Bool :=
  match b.mx with
  | none => false
  | some i =>
    (i.op.usesTa || i.op == .lw) && i.op != .st && x.cond i.pred i.pneg &&
      match useDesc s k x .mx (if i.op = .lw then (x.treg i.tb).toNat else (x.treg i.ta).toNat) false with
      | (.error _, _) => false
      | (.ok t, s1) => match (matrixRead s1 k x i { t with base := bitsN (i.desc x) 0 48 }).1 with
        | .error (.fault _ _ _) => true
        | _ => false

/-- The exceptions of a bundle that no slot's operands give: a breakpoint match, and a restored disposition. -/
def bundleExtra (s : State) (k : Nat) (x : Hc) (b : Bundle) : List Exc :=
  (if breakHit s k x then [mkExc 12 .cx 0] else []) ++ (if operandFaults s k x b then [] else dispositionExc x)

/-! ### Commit (R264) -/

/-- The context after a bundle's register writes: loads in flight take the place of older ones, the PC moves on. -/
def Hc.advance (x : Hc) (outs : List SlotOut) : Hc :=
  let y := x.writes (outs.flatMap (fun o => o.wr))
  let z := (outs.flatMap (fun o => o.loads)).foldl (fun (y : Hc) l =>
    { y.dropLoad l.reg with loads := (y.dropLoad l.reg).loads ++ [l] }) y
  { z with pc := x.nextPc, issued := x.issued + 1, st := .issuing, skipBrk := false, disp := 0, mxRef := 0 }

/-- Counts a committed bundle (08 FCT_BUNDLES; 21 FACET_BUNDLES, CORE_BUNDLES, BUNDLES). -/
def countBundle (s : State) (k ctx : Nat) : State :=
  coreCount (obsAdd (obsAdd (bump s .fctBundles 0 k) 0 0x1A 1) 1 k 1) k ctx 0 1

/-- A single step ends (21 R564): the context stops in DEBUG before its next bundle. -/
def stepStop (s : State) (k h : Nat) : State :=
  match hcGet s k h with
  | some x =>
    if x.stepOne && !x.exiting then
      let s1 := hcSet s k h (some { x with st := .debug, stepOne := false })
      debugTrigger (regPutF (regPutF s1 .obsDbg 0 0 16 1 0) .obsDbg 0 0 24 8 0)
    else s
  | none => s

/-- The run-ahead buffer entries that a committed bundle leaves (08 R235): its stores discard those they overlap; a fence, a queue
READ, a mover wait and a claim discard all. -/
def aheadKept (x : Hc) (b : Bundle) (outs : List SlotOut) : List AheadEntry :=
  let syncs (o : COp) : Bool := o == .fence || o == .ifence || o == .qread || o == .qreadv || o == .claim
  if b.cx.any (fun i => syncs i.op && x.cond i.pred i.pneg) || b.dx.any (fun i => i.op == .wait_ && x.cond i.pred i.pneg) then []
  else
    let sts := outs.flatMap (fun o => o.st)
    x.buf.filter (fun e => !sts.any (fun w => decide (w.1 < e.pa + e.data.length) && decide (e.pa < w.1 + w.2.1.length)))

/-- A bundle commits (R264): stores, the matrix instruction, the transfer, the control instruction. -/
def commitBundle (s : State) (k h : Nat) (x : Hc) (b : Bundle) (outs : List SlotOut) (table : PeerTable) : State :=
  let s0 := (outs.flatMap (fun o => o.touch)).foldl (fun t r => memTouch t r.1 r.2) s
  let s1 := ((outs.take 3).flatMap (fun o => o.st)).foldl (fun t w => busWrite t w.1 w.2.1 w.2.2) s0
  let s2 := countBundle (hcSet s1 k h (some { x.advance outs with buf := aheadKept x b outs })) k x.ctx
  let s3 := match b.mx with
    | some i => mstCommit (matrixCommit s2 k h x i) k h x i
    | none => s2
  let s4 := ((outs.drop 3).flatMap (fun o => o.st)).foldl (fun t w => busWrite t w.1 w.2.1 w.2.2) s3
  let s5 := match b.dx with
    | some i => moverCommit s4 k h x i table
    | none => s4
  let s6 := match b.cx with
    | some i => controlCommit s5 k h x i
    | none => s5
  stepStop s6 k h

/-- A bundle suspends for fault service (R248, 13 R401). -/
def suspendBundle (s : State) (k h : Nat) (x : Hc) (f : Flt) : State :=
  let (q, s1) := raiseFault s k
    { va := f.va, ctx := x.ctx, hc := h, src := f.src, kind := f.kind, level := f.level, tag := 0xFF, pc := x.pc, unit := 0 }
  coreCount (hcMod s1 k h (fun y => { y with st := .suspended q f.src f.va f.slot })) k x.ctx 10 1

/-- A bundle waits: its context is waiting, and CLAIM has entered its claim (R288, R298; 10 R320). -/
def waitBundle (s : State) (k h : Nat) (x : Hc) (b : Bundle) : State :=
  let s1 := hcMod s k h (fun y => { y with st := .waiting })
  if b.cx.any (fun i => i.op == .claim && x.cond i.pred i.pneg) && (coreGet s k).claim != some h &&
      !(coreGet s k).claims.any (fun w => w.hc == h) then
    coreMod s1 k (fun c => { c with claims := c.claims ++ [{ hc := h, cls := x.cls, passed := 0 }] })
  else s1

/-- Issues a bundle of a context: it commits, waits, suspends or raises. DESIGN CHOICE: log 86. -/
def issueBundle (s : State) (k h : Nat) (x : Hc) (b : Bundle) (table : PeerTable) : State :=
  match chooseExc ((b.firstIllegal.map excIllegal).toList ++ b.pairing x ((coreGet s k).claim == some h)) with
  | some e => raiseExc s k h e
  | none =>
    if (b.reads x).any x.pending then hcMod s k h (fun y => { y with st := .waiting })
    else
      let r := bundleOuts s k h x b table
      match decideBundle r.1 (bundleExtra s k x b) with
      | .raise e => raiseExc r.2 k h e
      | .suspend f => suspendBundle r.2 k h x f
      | .wait => waitBundle r.2 k h x b
      | .commit => commitBundle r.2 k h x b r.1 table

/-! ### The bundle cache (R230) -/

/-- The cached bundle at a context's PC. -/
def cachedLine (s : State) (k : Nat) (x : Hc) : Option BundleLine :=
  (coreGet s k).cache.find? (fun l => l.ctx == x.ctx && l.va == x.pc)

/-- The context in a hardware context can issue: its core is active and runs, and the context is neither suspended, stopped nor at its end. -/
def canIssue (s : State) (k h : Nat) : Option Hc :=
  match hcGet s k h with
  | some x =>
    let free := !x.stop && !x.exiting && x.heldFrame.isNone && (x.st == .issuing || x.st == .waiting)
    if coreActive s k && !s.gct.stopped && !(coreGet s k).evac && free then some x else none
  | none => none

/-- A context that stands at a cached bundle without any instruction passes it, or raises for it (R259). DESIGN CHOICE: log 86. -/
def passBlanks (s : State) (k h fuel : Nat) : State :=
  match fuel with
  | 0 => s
  | n + 1 =>
    match canIssue s k h with
    | none => s
    | some x =>
      match cachedLine s k x with
      | none => s
      | some l =>
        if l.poison then raiseExc s k h (mkExc 3 .sa x.pc)
        else
          let b := Bundle.decode l.bits
          if b.blank then passBlanks (issueBundle s k h x b PeerTable.empty) k h n else s

/-- The row of an instruction: the context in hardware context `h` of core `k` issues the bundle at its PC, when the bundle is in the
cache and holds the instruction. On a context that has executed EXIT the row EXIT ends it, once that can be. DESIGN CHOICE: log 86. -/
def issueRow (s : State) (k h : Nat) (g : GOp) (table : PeerTable) : State :=
  match canIssue s k h with
  | none => if g = .c .exit then exitDone s k h else s
  | some x =>
    match cachedLine s k x with
    | none => s
    | some l =>
      let b := Bundle.decode l.bits
      if !l.poison && b.holds g then passBlanks (issueBundle s k h x b table) k h 1024 else s

/-- BUNDLE_CACHE_FILL (R230, R248): the bundle at the context's PC is fetched through its translation, and a full cache gives up its
oldest line; or the fetch faults and suspends the context, or is refused. -/
def cacheFill (s : State) (k h : Nat) : State :=
  match canIssue s k h with
  | none => s
  | some x =>
    if (cachedLine s k x).isSome then s
    else match translate s k x.ctx x.pc .x with
      | (.ok pa, s1) =>
        let l : BundleLine := { ctx := x.ctx, va := x.pc, bits := leNat (memBytes s1 pa 64), poison := memPoisoned s1 pa 64 }
        let s2 := coreMod (memTouch s1 pa 64) k (fun c => { c with cache := (l :: c.cache).take 1024 })
        passBlanks s2 k h 1024
      | (.fault kind level, s1) =>
        if x.disp = 2 then raiseExc s1 k h (mkExc 1 .sa x.pc)
        else if x.disp = 3 then raiseExc s1 k h (mkExc 2 .sa x.pc)
        else suspendBundle s1 k h x { slot := .sa, src := 0, va := x.pc, kind := kind, level := level }
      | (.refused, s1) => raiseExc (bump s1 .xltRefused 0 k) k h (mkExc 2 .sa x.pc)

/-- LOAD_COMPLETE (R228): the data of a load in flight arrives and its register is written. DEDUCED: log 88. -/
def loadComplete (s : State) (k h : Nat) (r : RegRef) : State :=
  match hcGet s k h with
  | none => s
  | some x =>
    match x.loads.find? (fun l => l.reg == r) with
    | none => s
    | some l =>
      let w := match r with
        | .s n => RegWrite.s n (BitVec.ofNat 64 l.val) l.poison
        | .v n => RegWrite.v n (BitVec.ofNat 1024 l.val) l.poison
        | .t n => RegWrite.t n (BitVec.ofNat 256 l.val) l.poison
      hcSet s k h (some (x.write w))

end Sys2Proof.Machine
end

