-- ==== Sys2Proof/Machine/Frames.lean ====
section
/-!
DEFINITION. Save frames (08 R237–R246), the Lattice claim (10 R320–R323), and the resolution of faults (13 R402–R404).
-/

namespace Sys2Proof.Machine

/-! ### The image of a frame (08 "Save frame layout", R239, R240; 10 R322; 13 R403) -/

/-- The address of save frame `f` of core `k`. -/
def frameAt (k f : Nat) : Nat := ringBase k + 0x1C0000 + 0xA000 * f

/-- The failure codes of a pair as 12 bytes (10 R322). -/
def latCodes (l : Lattice) : Bytes :=
  leBytes 12 ((List.range 32).foldl (fun a i => a + (l.code (i / 16) (i / 4 % 4) (i % 4)) * 2 ^ (3 * i)) 0)

/-- The reload record of a slice (10 R322). -/
def reloadRecord (o : Option LatSlice) : Bytes :=
  match o with
  | some w => leBytes 4 (w.tb + 16 + w.fmt * 32 + (w.kv - 1) * 512 + (w.nv - 1) * 32768 + b2n w.arr0 * 2 ^ 22)
  | none => zeros 4

/-- Control block bytes 0x98–0xC7. -/
def latBlock (l : Lattice) (cls : Nat) : Bytes :=
  latCodes l ++ [byteOf (l.shape0 + 4 * l.shape1), byteOf cls] ++ zeros 2 ++
    (List.range 8).flatMap (fun i => reloadRecord (fget? l.slices i))

/-- The FSEQ of a suspended bundle. -/
def Hc.fseq (x : Hc) : Nat := match x.st with | .suspended q _ _ _ => q | _ => 0

/-- The disposition of a bundle in a frame (13 R403): a matrix operand that the service refused is refused again. -/
def Hc.disposition (x : Hc) : Nat := match x.mxRef with | 3 => 2 | 4 => 3 | _ => x.disp

/-- The control block of a saved context; `st` is its STATE, `claim` FLAGS.CLAIM. -/
def controlBlock (x : Hc) (st : Nat) (claim : Bool) (l : Lattice) : Bytes :=
  let a := leBytes 2 x.ctx ++ [byteOf st, byteOf (b2n claim + 2 * b2n x.isRun)] ++ zeros 4 ++ leBytes 8 x.pc ++ leBytes 2 x.layer ++
    leBytes 2 x.oper ++ zeros 4 ++ leBytes 8 x.runstat ++ leBytes 8 x.param ++ leBytes 8 x.rlen ++ leBytes 8 x.qstat ++ zeros 8 ++
    zeros 56 ++ zeros 8 ++ leBytes 8 x.sPoison ++ leBytes 4 x.vPoison ++ leBytes 2 x.tPoison ++ zeros 2
  let qd := (List.range 4).flatMap (fun d => leBytes 2 (x.qdesc d))
  padTo (a ++ qd ++ latBlock l x.cls ++ leBytes 4 x.fseq ++ [byteOf x.disposition]) 256

/-- The resume record of a tag (13 "Resume record"). -/
def resumeRecord (n : Nat) (t : TagSt) : Bytes :=
  match t with
  | .busy f =>
    let (st, q) := match f.st with
      | .running => (1, 0)
      | .fault q => (2, q)
    padTo ([byteOf (n + 128), byteOf f.op, byteOf st, 0] ++ leBytes 4 q ++ leBytes 8 f.unit ++ leBytes 32 f.srcD ++ leBytes 32 f.dstD ++
      leBytes 8 f.list ++ leBytes 4 f.count ++ [byteOf f.peer] ++ zeros 3 ++ leBytes 4 f.epoch ++ f.mesh.map byteOf) 128
  | _ => zeros 128

/-- Offsets 0x0000–0x1FFF of a frame. -/
def frameImage (x : Hc) (st : Nat) (claim : Bool) (l : Lattice) : Bytes :=
  controlBlock x st claim l ++ (List.range 64).flatMap (fun n => leBytes 8 (x.sreg n).toNat) ++ zeros 16 ++
    (List.range 15).flatMap (fun n => leBytes 16 (x.preg (n + 1)).toNat) ++
    (List.range 16).flatMap (fun n => leBytes 32 (x.treg n).toNat) ++ (List.range 4).flatMap (fun n => resumeRecord n (x.tag n)) ++
    (List.range 32).flatMap (fun n => leBytes 128 (x.vreg n).toNat) ++ zeros 2048

/-- Offsets 0x2000–0x9FFF of a frame: the accumulators. -/
def accImage (l : Lattice) : Bytes := (List.range 8192).flatMap (fun i => leBytes 4 (fgetD 0 l.acc i).toNat)

/-- Writes a context to 40 KiB at `a` (R239): the accumulators only when it held the claim. -/
def writeFrame (s : State) (a : Nat) (x : Hc) (st : Nat) (claim : Bool) (l : Lattice) : State :=
  let s1 := memWr s a (frameImage x st claim l)
  if claim then memWr s1 (a + 0x2000) (accImage l) else s1

/-! ### Reading a frame -/

/-- A table from a list of values by index; zeros are not listed. -/
def listMap {α : Type} [DecidableEq α] (d : α) (n : Nat) (f : Nat → α) : FMap α :=
  (List.range n).foldr (fun i m => if f i = d then m else (i, f i) :: m) []

/-- The resume record of tag `n` as a transfer, without its tensors; none where it is not in use. DEDUCED: log 153. -/
def parseResume (r : Bytes) : Option (Nat × Xfer) :=
  if byteAt r 0 / 128 = 0 then none
  else
    let t0 : Tensor := { base := 0, fmt := 0, dims := [], padw := false, sr := false, fill := 0, tid := 0, ep := 0 }
    some (byteAt r 2, { op := byteAt r 1, srcD := leAt r 16 32, dstD := leAt r 48 32, src := t0, dst := t0, list := leAt r 80 8,
                        count := leAt r 88 4, peer := byteAt r 92, epoch := leAt r 96 4, mesh := (List.range 6).map (fun i => byteAt r (100 + i)),
                        unit := leAt r 8 8, poison := false, st := .running, keep := XferMem.none_ })

/-- The control block holds a reserved value (R240). -/
def blockReserved (b : Bytes) : Bool :=
  let z (o n : Nat) := !allZero (slice b o n)
  decide (3 < byteAt b 2) || decide (3 < byteAt b 3) || z 4 4 || z 0x14 4 || z 0x38 8 || z 0x78 8 || z 0x8E 2 || z 0xA6 2 ||
    z 0xCD 3 || z 0xD0 48 || leAt b 8 8 % 64 != 0 || decide (2 ^ 48 ≤ leAt b 8 8) || decide (15 < byteAt b 0xA4) ||
    decide (1 < byteAt b 0xA5) || decide (3 < byteAt b 0xCC) ||
    (List.range 4).any (fun d => bitsN (leAt b (0x90 + 2 * d) 2) 12 3 != 0) ||
    (List.range 8).any (fun i => decide (2 ^ 23 ≤ leAt b (0xA8 + 4 * i) 4)) ||
    (List.range 32).any (fun i => decide (4 < bitsN (leAt b 0x98 12) (3 * i) 3))

/-- The context that a frame image holds; its transfers have still to be taken up. -/
def parseSaveFrame (s : State) (k : Nat) (b : Bytes) (order : Nat) : Hc :=
  { ctx := leAt b 0 2, s := listMap 0 64 (fun n => BitVec.ofNat 64 (leAt b (0x100 + 8 * n) 8)),
    v := listMap 0 32 (fun n => BitVec.ofNat 1024 (leAt b (0x800 + 128 * n) 128)),
    p := listMap 0 16 (fun n => if n = 0 then 0 else BitVec.ofNat 128 (leAt b (0x300 + 16 * n) 16)),
    t := listMap 0 16 (fun n => BitVec.ofNat 256 (leAt b (0x400 + 32 * n) 32)),
    sPoison := leAt b 0x80 8, vPoison := leAt b 0x88 4, tPoison := leAt b 0x8C 2, pc := leAt b 8 8, layer := leAt b 0x10 2,
    oper := leAt b 0x12 2, runstat := leAt b 0x18 8, param := leAt b 0x20 8, rlen := leAt b 0x28 8, qstat := leAt b 0x30 8,
    qd := listMap 0 4 (fun d => leAt b (0x90 + 2 * d) 2), cls := byteAt b 0xA5, isRun := bitN (byteAt b 3) 1, st := .issuing, tags := [],
    loads := [], issued := 0, born := order, quantum := regF s .fctQuantum 0 k 0 24,
    disp := if byteAt b 0xCC < 2 then 0 else byteAt b 0xCC, mxRef := 0, skipBrk := false,
    stepOne := false, heldFrame := none, stop := false, exiting := false, ahead := none, buf := [] }

/-- The pair as a frame holds it, its stationary operands still to be reloaded. -/
def parseLattice (b acc : Bytes) : Lattice :=
  { shape0 := byteAt b 0xA4 % 4, shape1 := byteAt b 0xA4 / 4 % 4, slices := [],
    acc := listMap 0 8192 (fun i => BitVec.ofNat 32 (leAt acc (4 * i) 4)),
    codes := listMap 0 32 (fun i => bitsN (leAt b 0x98 12) (3 * i) 3), work := [] }

/-! ### The claim (10 R320–R323) -/

/-- Reissues the MLW of one reload record (R323). -/
def reloadSlice (s : State) (k : Nat) (x : Hc) (i w : Nat) : State :=
  if !bitN w 4 then s
  else
    let a := i / 4
    let arr0 := bitN w 22
    let l := (coreGet s k).lat
    let row := if l.shape a = 3 ∧ arr0 then 128 * a else 0
    let kv := bitsN w 9 6 + 1
    let nv := bitsN w 15 7 + 1
    let slice_ (v : List KVec) (fail : Nat) : LatSlice :=
      let fmt := bitsN w 5 4
      { tb := w % 16, fmt := fmt, kv := kv, nv := nv, arr0 := arr0, cols := v, wc := checkSums fmt kv v id,
        wa := if fmt = 9 then checkSums fmt kv v FVal.abs else [], fail := fail }
    let put (t : State) (v : List KVec) (fail : Nat) : State :=
      latMod t k (fun l => { l with slices := finsert l.slices i (slice_ v fail) })
    match useDesc s k x .mx (x.treg (w % 16)).toNat false with
    | (.error _, s1) => put s1 [] 4
    | (.ok t, s1) => match readKVecs s1 k x.ctx (meshNow s) t row kv nv with
      | (.error (.fault _ _ _), s2) => put s2 [] 3
      | (.error (.refused _), s2) => put s2 [] 4
      | (.ok (v, bad), s2) =>
        let bs := (List.range nv).flatMap (fun m : Nat => (List.range (ceilDiv kv 32)).map (fun j : Nat =>
          ({ b0 := (j : Int), rest := [((row + m : Nat) : Int)] } : BlockAt)))
        put (countFills s2 k t bs) v (if bad then 2 else 0)

/-- A self-test in progress is abandoned, and runs again at the next idle period (10 R332). -/
def Bist.abandon (b : Bist) : Bist := if b.since.isSome then { b with since := none, wanted := true } else b

/-- The pair of a core goes to a hardware context, with the Lattice state that it is to find (10 R321, R323, R332). -/
def givePair (s : State) (k h : Nat) (l : Lattice) : State :=
  coreMod s k (fun c => { c with claim := some h, lat := l, bist0 := c.bist0.abandon, bist1 := c.bist1.abandon })

/-- A restored context takes the pair (R323): accumulators, codes and shapes from its frame, stationary operands by reload. -/
def takePair (s : State) (k h : Nat) (x : Hc) (b acc : Bytes) : State :=
  (List.range 8).foldl (fun t i => reloadSlice t k x i (leAt b (0xA8 + 4 * i) 4)) (givePair s k h (parseLattice b acc))

/-- The claim to grant (R321): the oldest of the favoured class, unless one of the other class has waited through three grants. -/
def nextClaim (favour : Nat) (l : List ClaimWait) : Option ClaimWait :=
  match l.find? (fun w => w.cls != favour && decide (3 ≤ w.passed)) with
  | some w => some w
  | none => match l.find? (fun w => w.cls == favour) with
    | some w => some w
    | none => l.head?

/-- The claims that stay, each that waited while the other class was granted counting it; a grant of its own class ends the count. -/
def passClaims (g : ClaimWait) (l : List ClaimWait) : List ClaimWait :=
  (l.filter (fun w => w.hc != g.hc)).map (fun w => if w.cls = g.cls then { w with passed := 0 } else { w with passed := w.passed + 1 })

/-! ### Saving (R238) -/

/-- The loads in flight complete into their registers (R238 step 2). -/
def Hc.landLoads (x : Hc) : Hc :=
  x.loads.foldl (fun y l => y.write (match l.reg with
    | .s n => .s n (BitVec.ofNat 64 l.val) l.poison
    | .v n => .v n (BitVec.ofNat 1024 l.val) l.poison
    | .t n => .t n (BitVec.ofNat 256 l.val) l.poison)) x

/-- The bundle at the context's PC waits on a claim, a queue or a mover transfer (08 "Save frame control block" STATE 2). -/
def waitsLong (s : State) (k : Nat) (x : Hc) : Bool :=
  (x.st == .waiting || x.st == .runAhead) &&
    match cachedLine s k x with
    | some l =>
      let b := Bundle.decode l.bits
      b.cx.any (fun i => i.op == .claim || i.op.isQueue) || b.dx.any (fun i => i.op == .wait_ || i.op.isTransfer) ||
        b.mx.any (fun i => i.op == .st)
    | none => false

/-- The STATE that a save gives a context. DESIGN CHOICE: log 92. -/
def saveState (s : State) (k : Nat) (x : Hc) : Nat :=
  match x.st with
  | .suspended _ _ _ _ => 3
  | _ => if waitsLong s k x || x.heldFrame.isSome then 2 else 1

/-- Steps 2–5 of R238: loads and matrix instructions complete, transfers run the listed units and stop, open packets are rewound and
recorded for c9. DESIGN CHOICE: log 155. -/
def quiesce (s : State) (k h : Nat) (units : List Nat) : State :=
  let s1 := hcMod s k h Hc.landLoads
  let s2 := match hcGet s1 k h with
    | some x =>
      if (coreGet s1 k).claim = some h then finishMatrix s1 k x (coreGet s1 k).lat.work.length else s1
    | none => s1
  let s3 := (List.range 4).foldl (fun t n => match xferOf t k h n with
    | some f => if f.st == .running && !f.remote then (runUnits t k h n (units.getD n 0)).2 else t
    | none => t) s2
  match hcGet s3 k h with
  | none => s3
  | some x =>
    let qs := openQueues s3 x.ctx
    let bits := (List.range 4).foldl (fun a d => match x.queue d with
      | some q => if q ∈ qs then setBitN a d true else a
      | none => a) x.qstat
    hcSet (rewindOpen s3 x.ctx) k h (some { x with qstat := bits })

/-- Copies saved accumulators from `a` to `b`, with the poison of their granules. -/
def copyAcc (s : State) (a b : Nat) : State :=
  if memPoisoned s a 0x8000 then
    (List.range 1024).foldl (fun t g => busWrite t (b + 32 * g) (memBytes s (a + 32 * g) 32) (granuleBad s (a / 32 + g))) s
  else memWr s b (memBytes s a 0x8000)

/-- Writes a context's state to `a`: a frame of the core, or an overflow frame. Of a context that still waits on its claim the Lattice state
and the accumulators are those of the frame it keeps. Answers the STATE. DESIGN CHOICE: log 92. -/
def storeContext (s : State) (k h a : Nat) : State × Nat :=
  match hcGet s k h with
  | none => (s, 1)
  | some x =>
    let c := coreGet s k
    let st := saveState s k x
    match x.heldFrame with
    | some f =>
      let old := memBytes s (frameAt k f) 256
      let img := frameImage x st true (parseLattice old [])
      (copyAcc (memWr s a (img.take 0xA8 ++ slice old 0xA8 32 ++ img.drop 0xC8)) (frameAt k f + 0x2000) (a + 0x2000), st)
    | none => (writeFrame s a x st (c.claim == some h) (if c.claim = some h then c.lat else Lattice.reset), st)

/-- What a tag's resume record does not hold of it (08 R219). -/
def TagSt.mark (t : TagSt) : Option TagMark :=
  match t with
  | .done => some .done
  | .failed st => some (.failed st)
  | .busy f => if f.poison then some .poison else none
  | .idle => none

/-- The marks of the tags of a context in a frame. -/
def marksOf (s : State) (ctx : Nat) : FMap TagMark := fgetD [] s.facet.marks ctx

/-- The state with the marks of a context replaced. -/
def marksSet (s : State) (ctx : Nat) (m : FMap TagMark) : State :=
  { s with facet := { s.facet with marks := fsetD [] s.facet.marks ctx m } }

/-- A context that goes into a frame leaves the marks of its tags (08 R219, R220; 09 R276–R278). DEDUCED: log 153. -/
def keepMarks (s : State) (x : Hc) : State :=
  marksSet s x.ctx ((List.range 4).foldl (fun m n => fput m n (x.tag n).mark) [])

/-- Counts a completed preemption. -/
def countPreempt (s : State) (k ctx : Nat) : State := coreCount (bump s .fctPreempt 0 k) k ctx 9 1

/-- Marks transfers that stopped at a boundary (12 MOV_SUSPEND). -/
def countStops (s : State) (k : Nat) (x : Hc) : State :=
  bumpBy s .movSuspend 0 k ((List.range 4).filter (fun n => match x.tag n with
    | .busy f => f.st == .running
    | _ => false)).length

/-- The least free save frame of a core. -/
def freeFrame (c : CoreSt) : Option Nat := (List.range 6).find? (fun f => (fgetD FrameSt.free c.frames f).st == 0)

/-- A context's state has been written to frame `f`: its hardware context and claim are free (R238 step 6). -/
def frameWritten (s : State) (k h f st : Nat) (x : Hc) : State :=
  let s1 := keepMarks (dropClaim (countSend (countPreempt (countStops s k x) k x.ctx) k) k h) x
  let s2 := coreMod s1 k (fun c => { c with
    frames := finsert (match x.heldFrame with
      | some g => ferase c.frames g
      | none => c.frames) f { st := st, ctx := x.ctx, order := c.order + 1 },
    order := c.order + 1 })
  hcSet s2 k h none

/-! ### Restoring (R238, R227, R404) -/

/-- A context whose state is in frame `f` ends by an exception at its restore (R240): the record stands in the frame. -/
def raiseInFrame (s : State) (k f : Nat) (x : Hc) (e : Exc) : State :=
  let a := frameAt k f + 0x40
  let s1 := excEvent (bump (memWr s a (excRecord e x.pc x.layer x.oper)) .fctExc 0 k) k x.ctx a
  let s2 := coreMod (marksSet s1 x.ctx []) k (fun c => { c with frames := ferase c.frames f })
  let s3 := if x.isRun then runReady s2 x.ctx e.status [] else s2
  excTrigger s3 e.code

/-- The claimant that waited with its frame takes the pair, or meets an uncorrectable error in its accumulators there and ends (R227, R238). -/
def grantHeld (s : State) (k h f : Nat) (x : Hc) : State :=
  let s1 := memTouch s (frameAt k f + 0x2000) 0x8000
  if memPoisoned s (frameAt k f + 0x2000) 0x8000 then freeContext (raiseInFrame s1 k f x (excPoison .sa)) k h
  else
    let s2 := takePair s1 k h x (memBytes s (frameAt k f) 0x2000) (memBytes s (frameAt k f + 0x2000) 0x8000)
    let s3 := coreMod s2 k (fun c => { c with frames := ferase c.frames f })
    hcSet s3 k h (some { x with st := .issuing, heldFrame := none })

/-- CLAIM_GRANT (R321, 08 R232): the free pair is granted to a waiting claim, once no spare work occupies it. The grant is a scheduling boundary:
a pending change of the compute scheduling mode takes effect here (01 R56). DESIGN CHOICE: log 107. -/
def claimGrant (s : State) (k : Nat) : State :=
  let c := coreGet s k
  if c.claim.isSome || c.spareBusy != 0 || c.evac || !coreActive s k || s.gct.stopped then s
  else
    let mode := (modePending s.gct.modes 2).getD s.gct.modes.scheduling
    match nextClaim (if mode = 1 then 0 else 1) c.claims with
    | none => s
    | some g =>
      let s1 := coreMod s k (fun c => { c with sched := mode, claims := passClaims g c.claims })
      match hcGet s1 k g.hc with
      | none => s
      | some x =>
        match x.heldFrame with
        | none => hcSet (givePair s1 k g.hc Lattice.reset) k g.hc (some { x with st := .issuing })
        | some f => grantHeld s1 k g.hc f x

/-- An epoch is open on this module: the current one, or the previous one until it closes (16 R476). -/
def epochOpen (s : State) (e : Nat) : Bool := e == epochNow s || s.span.old.any (fun o => o.epoch == e)

/-- A transfer whose tables could not be read stops again: for a serviceable fault, raised on this core, or for good, with the status of what
the read met (R404, 12 R360). -/
def stopXfer (s : State) (k h n : Nat) (x : Hc) (f : Xfer) (o : SlotOut) : State :=
  match o.flt with
  | some q =>
    let (fs, s1) := raiseFault s k
      { va := q.va, ctx := x.ctx, hc := h, src := 3, kind := q.kind, level := q.level, tag := n, pc := x.pc, unit := f.unit }
    setTag s1 k h n (.busy { f with st := .fault fs })
  | none => xferEnd (setTag s k h n (.busy f)) k h n ((o.exc.head?.map Exc.status).getD 0x31)

/-- A suspended transfer reads its tables again and goes on (R404, 12 R360). DEDUCED: log 153. -/
def resumeXfer (s : State) (k h n : Nat) (f : Xfer) (table : PeerTable) : State :=
  match hcGet s k h with
  | none => s
  | some x =>
    if f.remote && !epochOpen s f.epoch then bump (xferEnd (setTag s k h n (.busy f)) k h n 0x50) .spnLost 0 0
    else
      let desc (t : State) (d : Nat) (dest : Bool) : Except SlotOut Tensor × State :=
        xferDesc t k { x with disp := 0 } d dest (if (f.op = 0x06 ∧ dest) ∨ (f.op = 0x07 ∧ !dest) then some table else none)
      let go (t : State) (src dst : Tensor) : State :=
        let g := { f with src := src, dst := dst, st := .running }
        let old := if g.keep.old.isEmpty then overlapBytes t k x.ctx g else g.keep.old
        xferKick (setTag t k h n (.busy { g with keep := { g.keep with old := old } })) k h n
      match desc s f.dstD true with
      | (.error o, s1) => stopXfer s1 k h n x f o
      | (.ok dst, s1) =>
        if f.op = 0x05 ∨ f.op = opMst then go s1 dst dst
        else match desc s1 f.srcD false with
          | (.error o, s2) => stopXfer s2 k h n x f o
          | (.ok src, s2) => go s2 src dst

/-- A tag of a restored context (R404; 08 R219): its resume record is taken up, or its mark gives its state. -/
def resumeTag (s : State) (k h n : Nat) (img : Bytes) (mark : Option TagMark) (table : PeerTable) : State :=
  let r := slice img (0x600 + 128 * n) 128
  match parseResume r with
  | none => match mark with
    | some .done => setTag s k h n .done
    | some (.failed st) => setTag s k h n (.failed st)
    | _ => s
  | some (st, f0) =>
    let f := { f0 with poison := mark == some .poison }
    if st = 4 then xferEnd (setTag s k h n (.busy f)) k h n (byteAt r 3) else resumeXfer s k h n f table

/-- The tags of a frame are taken up (R404). -/
def resumeTags (s : State) (k h : Nat) (img : Bytes) (tables : List PeerTable) : State :=
  let ctx := leAt img 0 2
  (List.range 4).foldl (fun t n => resumeTag t k h n img (fget? (marksOf s ctx) n) (tables.getD n PeerTable.empty)) (marksSet s ctx [])

/-- The exception with which a restored bundle of disposition 2 or 3 raises (R404); none where only its matrix operand takes a code. -/
def restoreExc (s : State) (k h : Nat) (x : Hc) : Option Exc × State :=
  if x.disp = 0 then (none, s)
  else match translate s k x.ctx x.pc .x with
    | (.fault _ _, s1) => (some (mkExc (if x.disp = 2 then 1 else 2) .sa x.pc), s1)
    | (.refused, s1) => (some (mkExc 2 .sa x.pc), bump s1 .xltRefused 0 k)
    | (.ok pa, s1) =>
      let b := Bundle.decode (leNat (memBytes s1 pa 64))
      match b.firstIllegal with
      | some id => (some (excIllegal id), s1)
      | none =>
        let r := bundleOuts s1 k h x b PeerTable.empty
        match decideBundle r.1 (bundleExtra r.2 k x b) with
        | .raise e => (some e, r.2)
        | _ => (none, r.2)

/-- The lowest free hardware context. -/
def freeHc (c : CoreSt) : Option Nat := (List.range 8).find? (fun h => (fget? c.hcs h).isNone)

/-- The frame is read into hardware context `h` (R238, R227, R240, R404): its claim is taken when the pair is free, or awaited with
the frame kept. DESIGN CHOICE: log 92. -/
def restoreInto (s : State) (k f h : Nat) (tables : List PeerTable) : State :=
  let a := frameAt k f
  let b := memBytes s a 0x2000
  let claim := bitN (byteAt b 3) 0
  let c := coreGet s k
  let x := parseSaveFrame s k b (c.order + 1)
  let bad := memPoisoned s a 0x2000 || (claim && memPoisoned s (a + 0x2000) 0x8000)
  let s0 := coreMod (memTouch s a 0x2000) k (fun c => { c with order := c.order + 1 })
  if bad || blockReserved (b.take 256) then raiseInFrame s0 k f x (excPoison .sa)
  else
    match restoreExc s0 k h x with
    | (some e, s1) => raiseInFrame s1 k f x e
    | (none, s1) =>
      let take := claim && c.claim.isNone && c.spareBusy == 0
      let y := { x with heldFrame := if claim && !take then some f else none, st := if claim && !take then .waiting else .issuing }
      let s2 := hcSet s1 k h (some y)
      let s3 := if take then takePair (memTouch s2 (a + 0x2000) 0x8000) k h y b (memBytes s2 (a + 0x2000) 0x8000)
        else if claim then coreMod s2 k (fun c => { c with claims := c.claims ++ [{ hc := h, cls := y.cls, passed := 0 }] })
        else s2
      let s4 := if claim && !take then s3 else coreMod s3 k (fun c => { c with frames := ferase c.frames f })
      passBlanks (resumeTags s4 k h b tables) k h 1024

/-- A frame that a resident context keeps while it waits on its claim. -/
def frameKept (c : CoreSt) (f : Nat) : Bool := c.hcs.any (fun h => h.2.heldFrame == some f)

/-- The oldest runnable frame of a core (R237). -/
def runnableFrame (c : CoreSt) : Option Nat :=
  let l := c.frames.filter (fun e => (e.2.st == 1 || e.2.st == 2) && !frameKept c e.1)
  (l.foldl (fun (o : Option (Nat × FrameSt)) e => match o with
    | none => some e
    | some m => if e.2.order < m.2.order then some e else some m) none).map Prod.fst

/-- RESTORE (R237, R238): the oldest runnable frame goes into a free hardware context. -/
def restoreRow (s : State) (k : Nat) (tables : List PeerTable) : State :=
  let c := coreGet s k
  if !coreActive s k || s.gct.stopped || c.evac then s
  else match runnableFrame c, freeHc c with
    | some f, some h => restoreInto s k f h tables
    | _, _ => s

/-! ### Preemption (R237, R238) -/

/-- The claim of a context chosen for preemption no longer waits, and its preemption begins; one that has executed EXIT ends instead (R252). -/
def choosePreempt (s : State) (k h : Nat) : State :=
  coreMod s k (fun c => { c with
    claims := c.claims.filter (fun w => w.hc != h), hcs := fmod c.hcs h (fun x => { x with stop := !x.exiting }) })

/-- A context that has issued for its quantum, the one restored or started earliest (R237). A debug stop holds its context (R251). -/
def expired (c : CoreSt) : Option Nat :=
  let l := c.hcs.filter (fun e => !e.2.stop && !e.2.exiting && decide (e.2.quantum ≤ e.2.issued) && e.2.st != .debug)
  (l.foldl (fun (o : Option (Nat × Hc)) e => match o with
    | none => some e
    | some m => if e.2.born < m.2.born then some e else some m) none).map Prod.fst

/-- A context that waits on a claim, a queue, a mover transfer or fault service. -/
def waiter (s : State) (k h : Nat) : Bool :=
  match hcGet s k h with
  | some x => !x.stop && !x.exiting && (waitsLong s k x || (match x.st with
    | .suspended _ _ _ _ => true
    | _ => false))
  | none => false

/-- QUANTUM_EXPIRY (R237): with a runnable frame and a free one, a context that has reached its quantum, or the named one if it
waits, is chosen for preemption. -/
def quantumExpiry (s : State) (k : Nat) (waiting : Option Nat) : State :=
  let c := coreGet s k
  if !coreActive s k || s.gct.stopped || regF s .fctCtl 0 k 1 1 = 0 || (runnableFrame c).isNone || (freeFrame c).isNone then s
  else match waiting with
    | some h => if waiter s k h then choosePreempt s k h else s
    | none => match expired c with
      | some h => choosePreempt s k h
      | none => s

/-! ### Fault resolution (13 R402, R405) -/

/-- What a RESOLVE found: a resident context, a frame, or nothing. -/
inductive Resolved where
  | resident
  | frame
  | miss
  | held
deriving DecidableEq, Repr

/-- XLT_RESOLVE.RESULT. -/
def Resolved.code (r : Resolved) : Nat := match r with | .held => 0 | .resident => 1 | .frame => 2 | .miss => 3

/-- The status that an action gives: 2 refuses with 0x30, 3 with 0x31. -/
def refuseStatus (act : Nat) : Nat := if act = 2 then 0x30 else 0x31

/-- A resident bundle's resolution (13 "Resolution outcomes"). -/
def resolveBundle (s : State) (k h act src va : Nat) (slot : SlotId) : State :=
  if act = 1 then hcMod s k h (fun x => { x with st := .issuing })
  else if src = 4 then hcMod s k h (fun x => { x with st := .issuing, mxRef := if act = 2 then 3 else 4 })
  else
    let s1 := hcMod s k h (fun x => { x with st := .issuing })
    raiseExc s1 k h (if src = 0 then mkExc (act - 1) .sa va else excData (refuseStatus act) slot va)

/-- A resident transfer's resolution; a retry reads its tables again (12 R360). -/
def resolveXfer (s : State) (k h n act : Nat) (f : Xfer) (table : PeerTable) : State :=
  if act = 1 then resumeXfer s k h n f table else xferEnd s k h n (refuseStatus act)

/-- The resident transfer of hardware context `h` that holds an FSEQ. -/
def faultedTag (x : Hc) (q : Nat) : Option (Nat × Xfer) :=
  (List.range 4).findSome? (fun n => match x.tag n with
    | .busy f => if f.st = .fault q then some (n, f) else none
    | _ => none)

/-- Writes one byte of a frame. -/
def framePoke (s : State) (k f off v : Nat) : State := memWr s (frameAt k f + off) [byteOf v]

/-- A frame holds the suspended target of an FSEQ: its bundle (none) or a tag. -/
def frameTarget (s : State) (k f q : Nat) : Option (Option Nat) :=
  let b := memBytes s (frameAt k f) 0x800
  if byteAt b 2 = 3 ∧ byteAt b 0xCC = 0 ∧ leAt b 0xC8 4 = q then some none
  else ((List.range 4).find? (fun n =>
    let r := slice b (0x600 + 128 * n) 128
    decide (128 ≤ byteAt r 0) && byteAt r 2 == 2 && leAt r 4 4 == q)).map some

/-- A frame's resolution (13 "Resolution outcomes"). DEDUCED: log 94. -/
def resolveFrame (s : State) (k f act : Nat) (t : Option Nat) : State :=
  match t with
  | none => coreMod (framePoke s k f 0xCC act) k (fun c => { c with frames := fmod c.frames f (fun r => { r with st := 1 }) })
  | some n =>
    let o := 0x600 + 128 * n
    if act = 1 then framePoke s k f (o + 2) 3 else framePoke (framePoke s k f (o + 2) 4) k f (o + 3) (refuseStatus act)

/-- The suspended target of an FSEQ in a resident context. -/
inductive Target where
  | bundle (src va : Nat) (slot : SlotId)
  | xfer (n : Nat) (f : Xfer)
deriving DecidableEq, Repr

/-- The suspended target of a context that holds an FSEQ. -/
def Hc.target (x : Hc) (q : Nat) : Option Target :=
  let t := (faultedTag x q).map (fun t => Target.xfer t.1 t.2)
  match x.st with
  | .suspended p src va slot => if p = q then some (.bundle src va slot) else t
  | _ => t

/-- The frame of a core, not EXPORTED, that holds the suspended target of an FSEQ. The records of a frame that a resident context keeps are
those of a restored context. -/
def frameFor (s : State) (k q : Nat) : Option (Nat × Option Nat) :=
  (coreGet s k).frames.findSome? (fun e =>
    if (e.2.st = 1 ∨ e.2.st = 2 ∨ e.2.st = 3) ∧ frameKept (coreGet s k) e.1 = false then (frameTarget s k e.1 q).map (fun t => (e.1, t)) else none)

/-- The core applies an action to the suspended target of an FSEQ, first among its resident contexts and then in its frames that are
not EXPORTED (R402). -/
def applyResolve (s : State) (k q act : Nat) (table : PeerTable) : Resolved × State :=
  match (coreGet s k).hcs.findSome? (fun e => (e.2.target q).map (fun t => (e.1, e.2.stop, t))) with
  | some (h, stop, t) =>
    if stop then (.held, coreMod s k (fun c => { c with held := c.held ++ [(q, act)] }))
    else match t with
      | .bundle src va slot => (.resident, passBlanks (resolveBundle s k h act src va slot) k h 1024)
      | .xfer n f => (.resident, resolveXfer s k h n act f table)
  | none =>
    match frameFor s k q with
    | some (f, t) => (.frame, resolveFrame s k f act t)
    | none => (.miss, s)

/-- A write to XLT_RESOLVE (R402): FSEQ and RESULT are left in the register. DEDUCED: log 94. -/
def resolveFault (s : State) (k q act : Nat) (table : PeerTable) : State :=
  if s.gct.stopped then s
  else
    let (r, s1) := applyResolve s k (q % 2 ^ 32) act table
    regPut s1 .xltResolve 0 k (q % 2 ^ 32 + r.code * 2 ^ 34)

/-- RETRY: the runtime's stores come first (R402, R397). DEDUCED: log 94. -/
def resolveRetry (s : State) (k q : Nat) (ws : List (Nat × Bytes)) (table : PeerTable) : State :=
  if s.gct.stopped then s else resolveFault (runtimeStores s ws) k q 1 table

/-- The resolutions that were held are looked up again once a context has been written (R405). -/
def releaseHeld (s : State) (k : Nat) : State :=
  (coreGet s k).held.foldl (fun t r => resolveFault t k r.1 r.2 PeerTable.empty) (coreMod s k (fun c => { c with held := [] }))

/-! ### PREEMPTION_COMPLETE, overflow frames and frame commands (R238, R241–R243) -/

/-- A context that is stopped for good (R246, R243): its slot becomes ready with a status, if it has one. -/
def discardContext (s : State) (k h : Nat) (status : Option Nat) : State :=
  match hcGet s k h with
  | none => s
  | some x =>
    let s1 := freeContext s k h
    match status with
    | some st => if x.isRun then runReady s1 x.ctx st [] else s1
    | none => s1

/-- The overflow frame that the evacuation writes next, if FCT_EVAC.BASE names an area. -/
def overflowAt (s : State) (k : Nat) : Option Nat :=
  let b := regF s .fctEvac 0 k 16 32
  if b = 0 then none else some (b * 65536 + 0xA000 * regF s .fctEvac 0 k 0 4)

/-- A context in an evacuation that goes to an overflow frame has its turn: those of lower hardware contexts come first (R242). -/
def overflowTurn (c : CoreSt) (h : Nat) : Bool := c.hcs.all (fun e => !e.2.stop || decide (h ≤ e.1))

/-- The steps of a preemption that take time are over (R238): no Span request is outstanding and no matrix instruction pending. -/
def stepsOver (s : State) (k h : Nat) (x : Hc) : Bool := !spanBusy s k h && !matrixPending s k h x

/-- PREEMPTION_COMPLETE (R238, R242, R243): the context of a hardware context that is being preempted is written to a free frame, or
in an evacuation without one to an overflow frame; `units` lists how many more units each transfer completed. It waits while a
Span request or a matrix instruction of the context is outstanding. -/
def preemptionComplete (s : State) (k h : Nat) (units : List Nat) : State :=
  match hcGet s k h with
  | none => s
  | some x =>
    let c := coreGet s k
    if !x.stop || !stepsOver s k h x || s.gct.stopped then s
    else
      let q := quiesce s k h units
      match hcGet q k h with
      | none => s
      | some y =>
        match freeFrame (coreGet q k) with
        | some f =>
          let r := storeContext q k h (frameAt k f)
          releaseHeld (frameWritten r.1 k h f r.2 y) k
        | none =>
          if !c.evac || !overflowTurn c h then s
          else match overflowAt s k with
            | some a =>
              let r := storeContext q k h a
              let s2 := keepMarks (freeContext (countPreempt (countStops r.1 k y) k y.ctx) k h) y
              releaseHeld (regPutF s2 .fctEvac 0 k 0 4 (regF s .fctEvac 0 k 0 4 + 1)) k
            | none => releaseHeld (discardContext q k h (some 0x20)) k

/-- A frame of core `k` that holds a context takes a STATE. -/
def setFrameState (s : State) (k f st : Nat) : State :=
  coreMod s k (fun c => { c with frames := if st = 0 then ferase c.frames f else fmod c.frames f (fun r => { r with st := st }) })

/-- The STATE of a frame. -/
def frameState (s : State) (k f : Nat) : Nat := (fgetD FrameSt.free (coreGet s k).frames f).st

/-- A core holds a context of stream claim class, in a hardware context or in a frame (10 R320): a Tier 2 step or an Apex part. -/
def holdsStream (s : State) (k : Nat) : Bool :=
  (coreGet s k).hcs.any (fun h => h.2.cls % 2 == 1) || (coreGet s k).frames.any (fun f => (memRd s (frameAt k f.1 + 0xA5)).toNat % 2 == 1)

/-- The runtime draws the active core of highest number of a Limb that is not in the reserve and holds no Tier 2 step and no Apex part into the
reserve (20 R546); with no such core the reserve runs short. DEDUCED: log 134. -/
def refillReserve (s : State) (l : Nat) : State :=
  match ((rangeFrom (320 * l) 320).reverse).find? (fun k =>
      coreActive s k && !(coreGet s k).reserve && !(coreGet s k).evac && !holdsStream s k) with
  | some k => coreMod s k (fun c => { c with reserve := true })
  | none => s

/-- A core that is in the reserve leaves it, and another of its Limb takes its place (20 R546). -/
def leaveReserve (s : State) (k : Nat) : State :=
  if (coreGet s k).reserve then refillReserve (coreMod s k (fun c => { c with reserve := false })) (k / 320) else s

/-- PLACE on a frame whose image is in memory (R241): it starts in a free hardware context at once, or stays runnable. -/
def placeFrame (s : State) (k f : Nat) (tables : List PeerTable) : State :=
  let ctx := leNat (memBytes s (frameAt k f) 2)
  let s1 := coreMod s k (fun c => { c with frames := finsert c.frames f { st := 1, ctx := ctx, order := c.order + 1 }, order := c.order + 1 })
  match freeHc (coreGet s1 k) with
  | some h => if (coreGet s1 k).evac then s1 else restoreInto s1 k f h tables
  | none => s1

/-- Binds a free counter set to a context (21 R553). -/
def bindSet (s : State) (ctx : Nat) (set : Option Nat) : State :=
  match set with
  | some j =>
    if j < 256 ∧ (fgetD CtrSet.free s.obs.sets j).ctx = none ∧ setOf s ctx = none then
      { s with obs := { s.obs with sets := finsert s.obs.sets j { CtrSet.free with ctx := some ctx } } }
    else s
  | none => s

/-- PLACE (R241): the runtime has written the image into the frame, and may have created the context and bound a counter set to it. A frame that
is not free ignores the command; a reserve core taken into use is replaced (20 R546). DEDUCED: log 93. -/
def placeRow (s : State) (k f : Nat) (image : Bytes) (ws : List (Nat × Bytes)) (set : Option Nat) (born : Option NewContext)
    (tables : List PeerTable) : State :=
  if s.gct.stopped || !(coreActive s k || (coreGet s k).evac) || decide (6 ≤ f) then s
  else
    let ctx := leAt image 0 2
    let s1 := createContext (runtimeStores s ws) ctx born
    if frameState s k f ≠ 0 then s1
    else
      let s2 := memWr s1 (frameAt k f) (padTo image 0xA000)
      let s3 := if byteAt image 2 = 0 then marksSet s2 ctx [] else s2
      leaveReserve (placeFrame (bindSet s3 ctx set) k f tables) k

/-- EXPORT (R241): a saved frame becomes EXPORTED; any other ignores the command. A frame whose context waits on its claim is in
use. -/
def exportRow (s : State) (k f : Nat) : State :=
  let st := frameState s k f
  if s.gct.stopped || !(st == 1 || st == 2 || st == 3) || frameKept (coreGet s k) f then s
  else setFrameState s k f 4

/-- FREE (R241): an EXPORTED frame becomes free; any other ignores the command. -/
def freeRow (s : State) (k f : Nat) : State :=
  if s.gct.stopped || frameState s k f != 4 then s else setFrameState s k f 0

/-- EVAC_DONE (R242). DEDUCED: log 93. -/
def evacDone (s : State) (k : Nat) : State :=
  if s.gct.stopped || !(coreGet s k).evac then s else coreMod s k (fun c => { c with evac := false })

/-! ### RUN and its cancellation (R244, R246) -/

/-- A context is running: resident, in a frame, or with a run that has not finished. -/
def contextRuns (s : State) (ctx : Nat) : Bool :=
  (slotOf s ctx).isSome || s.facet.cores.any (fun e => e.2.hcs.any (fun h => h.2.ctx == ctx) || e.2.frames.any (fun f => f.2.ctx == ctx))

/-- The runtime has created a context (R244). -/
def contextExists (s : State) (ctx : Nat) : Bool := (fget? s.crown.contexts ctx).isSome

/-- The start frame of a run (R240, R244). DESIGN CHOICE: log 40. -/
def startFrame (ctx layer oper entry param rlen : Nat) : Bytes :=
  padTo (leBytes 2 ctx ++ [0, 2] ++ zeros 4 ++ leBytes 8 entry ++ leBytes 2 layer ++ leBytes 2 oper ++ zeros 12 ++ leBytes 8 param ++
    leBytes 8 rlen) 0xA000

/-- The core and frame that take a run: an active core outside the reserve, lowest number first, with a free frame. -/
def runPlace (s : State) : Option (Nat × Nat) :=
  (List.range 1280).findSome? (fun k =>
    let c := coreGet s k
    if coreActive s k && !c.reserve && !c.evac then (freeFrame c).map (fun f => (k, f)) else none)

/-- The runtime places the run of a slot (R244): a context that does not exist or already runs gives 0x0C, no free frame 0x20. -/
def placeRun (s : State) (slot ctx layer oper entry param rlen : Nat) (busy : Bool) : State :=
  if busy || !contextExists s ctx then slotReady s slot 0x0C []
  else match runPlace s with
    | none => slotReady s slot 0x20 []
    | some (k, f) =>
      placeFrame (memWr (marksSet (contextBoundary s ctx) ctx []) (frameAt k f) (startFrame ctx layer oper entry param rlen)) k f []

/-- The core and hardware context in which a context is resident. -/
def residentAt (s : State) (ctx : Nat) : Option (Nat × Nat) :=
  s.facet.cores.findSome? (fun e => (e.2.hcs.find? (fun h => h.2.ctx == ctx)).map (fun h => (e.1, h.1)))

/-- The frame of a context is discarded (R246). -/
def discardFrame (s : State) (ctx : Nat) : State :=
  match s.facet.cores.findSome? (fun e => (e.2.frames.find? (fun f => f.2.ctx == ctx)).map (fun f => (e.1, f.1))) with
  | some (k, f) => setFrameState (marksSet s ctx []) k f 0
  | none => marksSet s ctx []

/-- A run of a context is cancelled (R246): its context is stopped and discarded, in a hardware context or in a frame. When a preemption of it
is in progress its frame is written first, and discarded then (R252). -/
def cancelContext (s : State) (ctx : Nat) : State :=
  match residentAt s ctx with
  | some (k, h) =>
    let s1 := preemptionComplete s k h []
    match hcGet s1 k h with
    | some _ => freeContext (quiesce s1 k h []) k h
    | none => discardFrame s1 ctx
  | none => discardFrame s ctx

/-- The cancellation of a run still waits (R246, R252): for its matrix instructions, or for what its preemption waits for. -/
def cancelWaits (s : State) (ctx : Nat) : Bool :=
  match residentAt s ctx with
  | none => false
  | some (k, h) => match hcGet s k h with
    | none => false
    | some x => matrixPending s k h x || (x.stop && (spanBusy s k h ||
        ((freeFrame (coreGet s k)).isNone && (coreGet s k).evac && !overflowTurn (coreGet s k) h)))

end Sys2Proof.Machine
end

