-- ==== Sys2Proof/Machine/RunAhead.lean ====
section
/-!
DEFINITION. Run-ahead (08 R233–R235): a context whose next bundle waits executes younger bundles in a shadow copy of its registers
and fills the run-ahead buffer.
-/

namespace Sys2Proof.Machine

/-- The key of a register: kind and number. -/
def RegRef.key (r : RegRef) : Nat × Nat := match r with | .s n => (0, n) | .v n => (1, n) | .t n => (3, n)

/-- The context as its shadow sees it. -/
def Hc.shadow (x : Hc) (a : Ahead) : Hc := { x with s := a.s, v := a.v, p := a.p, t := a.t, pc := a.pc }

/-- The shadow that holds a context's registers. -/
def Hc.toAhead (y : Hc) (bad : List (Nat × Nat)) (halted : Bool) : Ahead :=
  { s := y.s, v := y.v, p := y.p, t := y.t, pc := y.pc, bad := bad, halted := halted }

/-- What one bundle has done so far in run-ahead: the shadow context and the registers marked invalid. -/
structure Shadow where
  y : Hc
  bad : List (Nat × Nat)
deriving DecidableEq, Repr

/-- One slot in run-ahead: a source that is invalid, an exception or a fault marks its destinations invalid; else they are written
in the shadow (R233, R234). `z` is the context before the bundle. -/
def Shadow.slot (w : Shadow) (bad0 srcs dest : List (Nat × Nat)) (o : SlotOut) : Shadow :=
  if srcs.any (fun k => decide (k ∈ bad0)) || !o.exc.isEmpty || o.flt.isSome then { w with bad := w.bad ++ dest }
  else
    let ws := o.wr ++ o.loads.map (fun l => loadWrite l.reg l.val l.poison)
    { y := w.y.writes ws, bad := w.bad.filter (fun k => decide (k ∉ dest)) }

/-- A load in run-ahead (R234): one that translates without a walk is read into the buffer of 16 entries, of which the oldest gives way
(08 "Resources of one Facet core"); any other makes no access. -/
def aheadLoad (s : State) (k : Nat) (w : Shadow) (va n : Nat) : Shadow × Bool :=
  if va % n != 0 || !translatesAtOnce s k w.y.ctx va then (w, false)
  else match (translate s k w.y.ctx va .r).1 with
    | .ok pa =>
      let e : AheadEntry := { va := va, pa := pa, data := memBytes s pa n, poison := memPoisoned s pa n }
      ({ w with y := { w.y with buf := (e :: w.y.buf).take 16 } }, true)
    | _ => (w, false)

/-- The keys that a scalar slot reads, its predicates among them. -/
def SSlot.keys (i : SSlot) : List (Nat × Nat) :=
  let p := match i.op.form with
    | .select => [(2, i.imm % 16)]
    | .preds => [(2, i.ra % 16), (2, i.rb % 16)]
    | _ => []
  (2, i.pred) :: p ++ i.reads.map RegRef.key

/-- A scalar slot in run-ahead. -/
def aheadScalar (s : State) (k : Nat) (z : Hc) (bad0 : List (Nat × Nat)) (slot : SlotId) (o : Option SSlot) (w : Shadow) : Shadow :=
  match o with
  | none => w
  | some i =>
    if i.keys.any (fun e => decide (e ∈ bad0)) then { w with bad := w.bad ++ i.dest }
    else match i.op.form with
      | .load n _ =>
        if !z.cond i.pred i.pneg then w
        else
          let (w1, ok) := aheadLoad s k w (z.scalarAddr i) n
          if ok then w1.slot bad0 [] i.dest (scalarOut s k z slot i).1 else { w with bad := w.bad ++ i.dest }
      | _ => w.slot bad0 [] i.dest (scalarOut s k z slot i).1

/-- The vector slot in run-ahead. -/
def aheadVector (s : State) (k : Nat) (z : Hc) (bad0 : List (Nat × Nat)) (o : Option VSlot) (w : Shadow) : Shadow :=
  match o with
  | none => w
  | some i =>
    let keys := (2, i.pred) :: (2, i.vc % 16) :: (i.reads z).map RegRef.key
    if keys.any (fun e => decide (e ∈ bad0)) then { w with bad := w.bad ++ i.dest }
    else match i.op.form with
      | .ld =>
        if z.noneEnabled i then w
        else
          let (w1, ok) := aheadLoad s k w (z.vectorAddr i) 128
          if ok then w1.slot bad0 [] i.dest (vectorOut s k z i).1 else { w with bad := w.bad ++ i.dest }
      | _ => w.slot bad0 [] i.dest (vectorOut s k z i).1

/-- The mover slot in run-ahead: TLD, TMOV and TADDB; every other mover instruction stops run-ahead. -/
def aheadMover (s : State) (k : Nat) (z : Hc) (bad0 : List (Nat × Nat)) (o : Option DSlot) (w : Shadow) : Shadow :=
  match o with
  | none => w
  | some i =>
    let keys := (2, i.pred) :: i.reads.map RegRef.key
    if keys.any (fun e => decide (e ∈ bad0)) then { w with bad := w.bad ++ i.dest }
    else match i.op with
      | .tld =>
        if !z.cond i.pred i.pneg then w
        else
          let (w1, ok) := aheadLoad s k w (z.descAddr i) 32
          if ok then w1.slot bad0 [] i.dest (moverOut s k z i PeerTable.empty).1 else { w with bad := w.bad ++ i.dest }
      | .tmov => w.slot bad0 [] i.dest (moverOut s k z i PeerTable.empty).1
      | .taddb => w.slot bad0 [] i.dest (moverOut s k z i PeerTable.empty).1
      | _ => w

/-- Run-ahead stops at the bundle (R234): a store, a queue, mover or matrix operation, a claim, a c-register write, a fence, EXIT, TRAP,
or a bundle that would raise. -/
def aheadStops (z : Hc) (b : Bundle) : Bool :=
  let st (o : Option SSlot) : Bool := o.any (fun i => match i.op.form with
    | .store _ => true
    | _ => false)
  b.firstIllegal.isSome || !(b.pairing z true).isEmpty || st b.sa || st b.sb || b.vx.any (fun i => i.op.form == .st) || b.mx.isSome ||
    b.dx.any (fun i => !(i.op == .tld || i.op == .tmov || i.op == .taddb)) || b.cx.any (fun i => !(i.op.hinted || i.op == .crd))

/-- Where a control slot leads in run-ahead: the next PC, or none where the target of a jump is invalid. An invalid condition follows
the static hint (R234). -/
def aheadNext (z : Hc) (bad0 : List (Nat × Nat)) (o : Option CSlot) : Option Nat :=
  match o with
  | none => some z.nextPc
  | some i =>
    let lost (r : Nat) : Bool := decide ((0, r) ∈ bad0)
    let predBad : Bool := decide ((2, i.pred) ∈ bad0)
    let taken := if predBad then i.hint else z.cond i.pred i.pneg
    let loopTaken := if predBad || lost i.ra then i.hint else z.cond i.pred i.pneg && z.sreg i.ra != 1
    match i.op with
    | .br => some (if taken then z.relTarget i.imm else z.nextPc)
    | .call => some (if taken then z.relTarget i.imm else z.nextPc)
    | .loop => some (if loopTaken then z.relTarget i.imm else z.nextPc)
    | .crd => some z.nextPc
    | _ => if !taken then some z.nextPc else if lost i.ra || z.regTarget i % 64 != 0 then none else some (z.regTarget i)

/-- The control slot's register writes in run-ahead: a link, a loop count, a c register. -/
def aheadControl (s : State) (k h : Nat) (z : Hc) (bad0 : List (Nat × Nat)) (o : Option CSlot) (w : Shadow) : Shadow :=
  match o with
  | none => w
  | some i => w.slot bad0 ((2, i.pred) :: i.reads.map RegRef.key) i.dest (controlOut s k h z i)

/-- The slots of the waiting bundle on whose instructions it may wait do not stop run-ahead at it (R233); past EXIT nothing
follows. DEDUCED: log 91. -/
def waitingBundle (b : Bundle) : Bundle :=
  { b with
    mx := none
    dx := if b.dx.any (fun i => i.op == .wait_ || i.op.isTransfer) then none else b.dx
    cx := if b.cx.any (fun i => i.op == .fence || i.op == .ifence || i.op == .release) then none else b.cx }

/-- One bundle in run-ahead. The waiting bundle (`first`) may hold the instruction on which it waits. DEDUCED: log 91. -/
def aheadBundle (s : State) (k h : Nat) (x : Hc) (a : Ahead) (first : Bool) : Hc × Ahead :=
  let z := x.shadow a
  match cachedLine s k z with
  | none => (x, { a with halted := true })
  | some l =>
    let b0 := Bundle.decode l.bits
    let b := if first then waitingBundle b0 else b0
    if l.poison || aheadStops z b then (x, { a with halted := true })
    else match aheadNext z a.bad b.cx with
      | none => (x, { a with halted := true })
      | some pc =>
        let w0 : Shadow := { y := z, bad := a.bad }
        let w1 := aheadScalar s k z a.bad .sb b.sb (aheadScalar s k z a.bad .sa b.sa w0)
        let w2 := aheadMover s k z a.bad b.dx (aheadVector s k z a.bad b.vx w1)
        let w3 := aheadControl s k h z a.bad b.cx w2
        ({ x with buf := w3.y.buf }, { w3.y.toAhead w3.bad false with pc := pc })

/-- Up to `n` bundles in run-ahead. DEDUCED: log 91. -/
def aheadRun (s : State) (k h n : Nat) (x : Hc) (a : Ahead) (first : Bool) : Hc × Ahead :=
  match n with
  | 0 => (x, a)
  | m + 1 =>
    let r := aheadBundle s k h x a first
    if r.2.halted then r else aheadRun s k h m r.1 r.2 false

/-- The bundle waits for a load from outside the core's own Ring store or for the completion of a mover transfer (R233): a register, a fence, or
a tag holds it, or MST, which reads a bank or an array that an instruction of it names. -/
def aheadWaits (x : Hc) (b : Bundle) : Bool :=
  (b.reads x).any x.pending ||
    b.dx.any (fun i => x.cond i.pred i.pneg &&
      ((i.op == .wait_ && x.anyBusy (i.imm % 16)) || (i.op.isTransfer && (x.tag i.xt).isBusy))) ||
    b.mx.any (fun i => x.cond i.pred i.pneg && match i.op with
      | .st => (x.tag i.xt).isBusy
      | .shape => (arraysOf i.arr).any x.mstOn
      | .wait_ => (arraysOf i.arr).any (fun a => i.banks.any (x.mstReads a))
      | .test => (arraysOf i.arr).any (fun a => i.banks.any (x.mstReads a))
      | .clr => (arraysOf i.arr).any (fun a => i.banks.any (x.mstReads a))
      | _ => false) ||
    b.cx.any (fun i => x.cond i.pred i.pneg && match i.op with
      | .fence => !x.loads.isEmpty
      | .ifence => !x.loads.isEmpty
      | .exit => x.anyBusy 15
      | .release => x.mstOn 0 || x.mstOn 1
      | _ => false)

/-- The bundle at a context's PC waits as R233 asks. -/
def waitsAhead (s : State) (k : Nat) (x : Hc) : Bool :=
  match cachedLine s k x with
  | some l => !l.poison && aheadWaits x (Bundle.decode l.bits)
  | none => false

/-- RUN_AHEAD_ENTRY (R233, R234): the waiting context enters run-ahead and executes up to `n` younger bundles, 64 at most. DEDUCED: log 91. -/
def runAheadEntry (s : State) (k h n : Nat) : State :=
  match canIssue s k h with
  | none => s
  | some x =>
    if regF s .fctCtl 0 k 0 1 = 1 ∧ waitsAhead s k x then
      let a0 : Ahead := x.toAhead (x.loads.map (fun l => l.reg.key)) false
      let r := aheadRun s k h (Nat.min n 64 + 1) x a0 true
      bump (hcSet s k h (some { r.1 with st := .runAhead, ahead := some r.2 })) .fctRaEnter 0 k
    else s

/-- RUN_AHEAD_EXIT (R234): once the bundle no longer waits, the shadow is discarded and normal issue goes on. -/
def runAheadExit (s : State) (k h : Nat) : State :=
  match hcGet s k h with
  | none => s
  | some x =>
    if x.st == .runAhead && !waitsAhead s k x then hcSet s k h (some { x with st := .waiting, ahead := none }) else s

end Sys2Proof.Machine
end

