-- ==== Sys2Proof/Machine/Fatal.lean ====
section
/-!
DEFINITION. Entry to FAULTED (02 R78, R80).
-/

namespace Sys2Proof.Machine

/-- A fatal fault takes the module from this device state to FAULTED (R78). -/
def faultLegal (d : DevState) : Bool :=
  match d with
  | .powered => false | .faulted => false | _ => true

/-- The run of a slot is abandoned (R80): its context ends, unless its island is stopped, and the slot becomes ready with 0x0C. DEDUCED: log 54. -/
def abandonRun (s : State) (n : Nat) : State :=
  match fget? s.gct.slots n with
  | none => s
  | some r =>
    let s1 := if s.gct.stopped then s else cancelContext s r.ctx
    slotReady s1 n 0x0C []

/-- The slots whose run has not finished. -/
def openRuns (s : State) : List Nat := (s.gct.slots.filter (fun e => e.2.ready == none)).map Prod.fst

/-- The commands of session `i` that have not begun and are not legal in FAULTED complete with WRONG_STATE (R80). -/
def endHeld (s : State) (i : Nat) : State :=
  match fget? s.gct.sessions i with
  | none => s
  | some x =>
    let s1 := { s with gct := { s.gct with
      sessions := finsert s.gct.sessions i { x with held := x.held.filter (fun f => legalIn .faulted f.opcode) } } }
    (x.held.filter (fun f => !legalIn .faulted f.opcode)).foldl (fun t f =>
      answerNow t f x.key x.role.code x.keySlot (.audit (complete 0x0C []))) s1

/-- A fatal fault with its cause (R78, R80): FAULTED, packet links down, every run in flight abandoned, the waiting commands that FAULTED
does not allow ended, PWR_ALERT.FAULTED set. DEDUCED: log 54. -/
def enterFaulted (s : State) (cause : Nat) : State :=
  if faultLegal s.gct.dev then
    let s1 := enterState { s with gct := { s.gct with cause := cause } } .faulted
    let s2 := regPutF (allLinksDown s1) .pwrAlert 0 0 3 1 1
    let s3 := (openRuns s2).foldl abandonRun s2
    (s3.gct.sessions.map Prod.fst).foldl endHeld s3
  else s

/-- Takes the fatal fault that a block has raised in the step under way. DEDUCED: log 54. -/
def takeFault (s : State) : State :=
  match s.gct.faultDue with
  | some c => enterFaulted { s with gct := { s.gct with faultDue := none } } c
  | none => s

end Sys2Proof.Machine
end

