-- ==== Sys2Proof/Machine/Compass.lean ====
section
/-!
DEFINITION. The Compass table (22) and the retirement of arrays (10 R326, R327, R332, R333).
-/

namespace Sys2Proof.Machine

/-! ### The words of the Compass table (R573–R580) -/

/-- The last retirement of core `k`, if it has been retired at run time. -/
def retiredAs (c : Compass) (k : Nat) : Option RetireEntry := c.log.find? (fun e => e.core == k)

/-- The core state entry of core `k` (R575): state and the retired array. DESIGN CHOICE: log 10. -/
def coreState (s : State) (k : Nat) : Nat :=
  match retiredAs s.compass k with
  | some e => e.cause + 2 + 8 * e.array
  | none => Config.testState k

/-- Cores in state 0 (R573). -/
def activeCores (s : State) : Nat := ((List.range 1280).filter (fun k => coreState s k == 0)).length

/-- NLOG (R577). -/
def compassNlog (s : State) : Nat := Nat.min s.compass.log.length 64

/-- The header words (R573). -/
def compassHeader (s : State) (w : Nat) : Nat :=
  match w with
  | 0 => 0x434D5053 + 1 * 2 ^ 32
  | 1 => s.compass.gen % 2 ^ 32
  | 2 => 5145 + 2807 * 2 ^ 16 + 127 * 2 ^ 32 + compassNlog s * 2 ^ 48
  | 3 => 0x00010000 + 0x00001000 * 2 ^ 32
  | 4 => 0x00000100 + 0x00000500 * 2 ^ 32
  | 5 => 0x00000800
  | 6 => b2n Config.gradeR + activeCores s * 2 ^ 16 + 1280 * 2 ^ 32
  | _ => s.compass.log.length % 2 ^ 32

/-- A block entry (R574): word 0 or word 1. -/
def blockEntry (type inst island die base size w : Nat) : Nat :=
  if w = 0 then type + 1 * 2 ^ 8 + inst * 2 ^ 16 + island * 2 ^ 32 + die * 2 ^ 48 else base + size * 2 ^ 32

/-- The tile of core `k`, which is its island (R579). -/
def coreTile (k : Nat) : Nat := k / 16

/-- The types of the Bole blocks at j = 1–15 (22 "Block types"), with their islands. -/
def boleBlocks : List (Nat × Nat) :=
  [(0x01, 80), (0x02, 80), (0x03, 80), (0x04, 80), (0x05, 81), (0x06, 81), (0x07, 80), (0x0D, 83), (0x0E, 83), (0x0F, 83), (0x10, 82),
   (0x11, 83), (0x12, 83), (0x13, 83), (0x15, 83)]

/-- The bases of the Bole blocks in the order of the block table: PRT to GRV, then RNG to OBS, then PWR. -/
def boleBase (j : Nat) : Nat := if j < 7 then 0x00200000 * (j + 1) else if j < 14 then 0x01000000 + 0x00200000 * (j - 7) else 0x01E00000

/-- Word `w` of entry `n` of the block table (R574). -/
def blockWord (n w : Nat) : Nat :=
  if n = 0 then blockEntry 0x14 0 83 0 0 0x200 w
  else if n < 16 then
    let b := boleBlocks.getD (n - 1) (0, 0)
    blockEntry b.1 0 b.2 0 (boleBase (n - 1)) 0x200 w
  else if n = 16 then blockEntry 0x0B 0xFFFF 83 0 0x02000000 0x200 w
  else if n < 25 then
    let st := n - 17
    blockEntry 0x0C st (84 + st) (st / 2 + 1) (0x04000000 + 0x10000 * st) 0x10 w
  else
    let k := (n - 25) / 4
    let i := (n - 25) % 4
    blockEntry (0x08 + i) k (coreTile k) (k / 320 + 1) (0x10000000 + 0x4000 * k + 0x1000 * i) 1 w

/-- The class, INDEX, MHZ and STOPS of island `n` (R579; 02 R79). -/
def islandEntry (n : Nat) : Nat :=
  let e (cls idx mhz stops : Nat) : Nat := cls + idx * 2 ^ 16 + mhz * 2 ^ 32 + stops * 2 ^ 48
  if n < 80 then e 0 n 1100 1
  else if n = 80 then e 1 0 1250 1
  else if n = 81 then e 2 0 1600 1
  else if n = 82 then e 3 0 3000 1
  else if n = 83 then e 4 0 1000 0
  else if n < 92 then e 5 (n - 84) 1200 1
  else e 6 (n - 92) 0 0

/-- The sending and the receiving island of a pair, in one direction or the other. -/
def swapIf (d : Nat) (p : Nat × Nat) : Nat × Nat := if d = 0 then p else (p.2, p.1)

/-- The islands of crossing `c` (R580): sending, receiving. -/
def crossingIslands (c : Nat) : Nat × Nat :=
  if c < 2432 then
    let l := c / 608
    let b := c % 608 / 32
    swapIf (c % 2) (20 * l + b, 20 * l + b + 1)
  else if c < 2560 then
    let x := c - 2432
    let l := x / 32
    let col := x % 32 / 2
    swapIf (x % 2) (20 * l + 19, 84 + 2 * l + (if col < 8 then 0 else 1))
  else if c < 2568 then
    let x := c - 2560
    let l := x / 2
    if x % 2 = 0 then (20 * l, 81) else (81, 20 * l)
  else if c < 2728 then
    let x := c - 2568
    let l := x / 40
    let w := x % 40 / 2
    swapIf (x % 2) (20 * l + w, 20 * ((l + 1) % 4) + w)
  else if c < 2738 then
    ([(81, 80), (80, 81), (81, 82), (82, 81), (81, 83), (83, 81), (80, 83), (83, 80), (82, 83), (83, 82)] : List (Nat × Nat)).getD (c - 2728) (0, 0)
  else if c < 2754 then swapIf ((c - 2738) % 2) (84 + (c - 2738) / 2, 119 + (c - 2738) / 2)
  else if c < 2786 then swapIf ((c - 2754) % 2) (92 + (c - 2754) / 2, 81)
  else if c < 2790 then swapIf ((c - 2786) % 2) (108 + (c - 2786) / 2, 81)
  else if c < 2806 then swapIf ((c - 2790) % 2) (110 + (c - 2790) / 2, 83)
  else (81, 118)

/-- Word `w` of entry `c` of the crossing table (R580). -/
def crossingWord (c w : Nat) : Nat :=
  if w = 0 then
    let p := crossingIslands c
    c + p.1 * 2 ^ 16 + p.2 * 2 ^ 32 + Config.crossingDepth c % 256 * 2 ^ 48
  else Config.crossingWidth c % 2 ^ 32

/-- Word `w` of a retirement log entry (R577). -/
def logWord (e : RetireEntry) (w : Nat) : Nat :=
  if w = 0 then e.core % 2048 + e.array % 2 * 2 ^ 13 + e.cause % 4 * 2 ^ 14 else e.boot % 2 ^ 32 + e.ms % 2 ^ 32 * 2 ^ 32

/-- Retirement log entry `i` of the ring of 64: the latest retirement n with n mod 64 = i. -/
def logEntry (s : State) (i : Nat) : Option RetireEntry :=
  let n := s.compass.log.length
  if n ≤ i then none else s.compass.log[i + (n - 1 - i) / 64 * 64]?

/-- The word of the Compass table at a window offset; none where there is none (R572, R573). -/
def compassWord (s : State) (off : Nat) : Option Nat :=
  if off % 8 ≠ 0 then none
  else if off < 0x40 then some (compassHeader s (off / 8))
  else if 0x100 ≤ off ∧ off < 0x100 + 8 * 127 then some (islandEntry ((off - 0x100) / 8))
  else if 0x500 ≤ off ∧ off < 0x500 + 8 * 80 then
    some ((List.range 16).foldl (fun a i => a + coreState s (16 * ((off - 0x500) / 8) + i) * 16 ^ i) 0)
  else if 0x800 ≤ off ∧ off < 0x800 + 16 * 64 then
    some (((logEntry s ((off - 0x800) / 16)).map (fun e => logWord e (off / 8 % 2))).getD 0)
  else if 0x1000 ≤ off ∧ off < 0x1000 + 16 * 2807 then some (crossingWord ((off - 0x1000) / 16) (off / 8 % 2))
  else if 0x10000 ≤ off ∧ off < 0x10000 + 16 * 5145 then some (blockWord ((off - 0x10000) / 16) (off / 8 % 2))
  else none

/-- The bits of a Compass word that ch 22 lists as reserved (R573), for a write. -/
def compassReserved (off : Nat) : Nat :=
  let hi (n : Nat) : Nat := 2 ^ 64 - 2 ^ n
  if off < 0x40 then
    match off / 8 with
    | 0 => hi 48 | 1 => hi 32 | 5 => hi 32 | 7 => hi 32
    | 6 => 0xFFFC + 0xF8000000 + hi 43
    | _ => 0
  else if off < 0x500 then 0xFF00 + hi 49
  else if off < 0x800 then 0
  else if off < 0x1000 then if off / 8 % 2 = 0 then 0x1800 + hi 16 else 0
  else if off < 0x10000 then if off / 8 % 2 = 0 then hi 56 else hi 32
  else if off / 8 % 2 = 0 then hi 51 else 0xFFF + hi 48

/-! ### Reserve cores (01 R51, R59; 20 R546) -/

/-- The reserve of a Limb at boot: its 8 active cores of highest number. DEDUCED: log 134. -/
def bootReserve (s : State) (l : Nat) : List Nat :=
  (((rangeFrom (320 * l) 320).filter (coreActive s)).reverse).take 8

/-! ### Retirement (10 R327) -/

/-- COMPASS_UPDATE (R578): the state and log entry of a retired core, between two steps of GEN. DEDUCED: log 133. -/
def compassUpdate (s : State) (k a cause : Nat) : State :=
  let e : RetireEntry := { core := k, array := a, cause := cause, boot := s.trust.boots % 2 ^ 32, ms := msNow s }
  let c := s.compass
  { s with compass := { c with gen := (c.gen + 2) % 2 ^ 32, log := c.log ++ [e], unwritten := c.unwritten + 1,
                               since := if c.unwritten = 0 then s.clock else c.since } }

/-- The evacuation of a core begins (08 R242): every resident context is preempted. -/
def startEvacuation (s : State) (k : Nat) : State :=
  (List.range 8).foldl (fun t h => if (hcGet t k h).isSome then choosePreempt t k h else t)
    (regPutF (coreMod s k (fun c => { c with evac := true })) .fctEvac 0 k 0 4 0)

/-- ARRAY_RETIREMENT (R327): FCT_ID, the Compass table, the evacuation of the core (08 R242) and the ARRAY_RETIRED event; a reserve core
is replaced. The other array of a core that has left the active set is retired beside it, without a second evacuation. -/
def retireArray (s : State) (k a cause : Nat) : State :=
  if regF s .fctId 0 k (33 + a) 1 = 1 then s
  else
    let active := coreActive s k
    let s1 := regPutF (regPutF s .fctId 0 k (33 + a) 1 1) .fctId 0 k 32 1 0
    let s2 := recovery (compassUpdate s1 k a cause)
    let s3 := if active then startEvacuation s2 k else s2
    let s4 := crownEvent s3 2 (zeros 4 ++ leBytes 2 k ++ [byteOf a, byteOf cause])
    leaveReserve s4 k

/-- SPARE_RECOMPUTATION (R326 steps 3–5): the pass commits from a spare array or takes code 0x41, and the array is retired. -/
def spareRecomputation (s : State) (k a sl : Nat) (e : PassErrors) : State :=
  let r := sparePass s k a sl e
  if r.1 then retireArray r.2 k a 1 else s

/-- RETIREMENT_RECORD_WRITE (R576): the retirement record in CONFIG takes the run-time retirements. DEDUCED: log 133. -/
def retirementRecordWrite (s : State) : State :=
  { s with flash := { s.flash with retired := s.compass.log }, compass := { s.compass with unwritten := 0 } }

/-! ### Background self-test (10 R332–R334) -/

/-- The self-test state of an array. -/
def bistGet (c : CoreSt) (a : Nat) : Bist := if a = 0 then c.bist0 else c.bist1

/-- Changes the self-test state of an array. -/
def bistMod (s : State) (k a : Nat) (f : Bist → Bist) : State :=
  coreMod s k (fun c => if a = 0 then { c with bist0 := f c.bist0 } else { c with bist1 := f c.bist1 })

/-- PERIOD_MS of an array in ticks of 0.8 ns: that of the LAT_BIST with which its last test began (R334). -/
def bistPeriod (b : Bist) : Nat := 1250000 * bitsN ((b.setting.getD (resetVal (mkReg .latBist 0 0))).toNat) 0 16

/-- The pair has had neither claimant nor spare work for 1,100 core cycles, 1,250 ticks. -/
def pairIdle (s : State) (c : CoreSt) : Bool :=
  c.claim.isNone && c.spareBusy == 0 && decide (c.idleFrom + 1250 ≤ s.idleClock)

/-- BIST_START (R332): a test starts on an idle pair's array, when background self-test is enabled or one has been asked for.
DESIGN CHOICE: log 107. -/
def bistStart (s : State) (k a : Nat) : State :=
  let c := coreGet s k
  let b := bistGet c a
  if coreActive s k && !s.gct.stopped && (regF s .latCtl 0 k 1 1 == 1 || b.wanted) && pairIdle s c && b.since.isNone then
    bistMod s k a (fun b => { b with since := some s.idleClock, wanted := false, setting := some (regGet s (mkReg .latBist 0 k)) })
  else s

/-- BIST_RESULT (R332, R333): a test of 12,288 cycles ends: it passes, or its array is retired. DESIGN CHOICE: log 107. -/
def bistResult (s : State) (k a : Nat) (ok : Bool) : State :=
  let b := bistGet (coreGet s k) a
  match b.since with
  | none => s
  | some t =>
    if s.gct.stopped || decide (s.idleClock < t + 13963) then s
    else
      let s1 := bump (bistMod s k a (fun b => { b with since := none, lastAt := s.idleClock, overdue := false })) .latBistRuns 0 k
      if ok then regPut s1 .latBistLast a k (msNow s)
      else retireArray (bump s1 .latBistFail 0 k) k a 2

/-- BIST_OVERDUE (R333): an array not tested within 2 × PERIOD_MS. DEDUCED: log 55. -/
def bistOverdue (s : State) (k a : Nat) : State :=
  let b := bistGet (coreGet s k) a
  if coreActive s k && !s.gct.stopped && decide (b.lastAt + 2 * bistPeriod b ≤ s.idleClock) then bistMod s k a (fun b => { b with overdue := true })
  else s

/-- BIST_REQUEST (R334): LAT_BIST.RUN asks for a test of both arrays. -/
def bistRequest (s : State) (k : Nat) : State := wantBist (wantBist s k 0) k 1

/-! ### Scrub of a Ring store (08 R226) -/

/-- The granules of core `k`'s Ring store that a row lists. -/
def ringGranules (k : Nat) (l : List Nat) : List Nat := l.map (fun g => ringBase k / 32 + g % 65536)

/-- RING_SCRUB (R226): since the last row the listed granules of core `k` have been upset, `ce` with an error of one bit, `ue` with one that
the code only detects; the core reads every granule, once in each period, when its scrub is enabled. DESIGN CHOICE: log 85, log 156. -/
def ringScrub (s : State) (k : Nat) (ce ue : List Nat) : State :=
  if decide (1280 ≤ k) || s.gct.stopped then s
  else
    let s1 := upsetGranules s (ringGranules k ce) (ringGranules k ue)
    match scrubPass s1 (2048 + k) (mkReg .fctScrub 0 k) (fun v => msTicks (bitsN v 0 16)) with
    | (some v, s2) =>
      if bitN v 16 then (faultyGranules s2 (fun g => inRing (32 * g) && ringCore (32 * g) == k)).foldl touchGranule s2 else s2
    | (none, s2) => s2

end Sys2Proof.Machine
end

