-- ==== Sys2Proof/Machine/Hbm.lean ====
section
/-!
DEFINITION. The HBM controllers (14): scrub, retirement of pseudo-channels and their rebuild, mirror regions, temperature.
-/

namespace Sys2Proof.Machine

/-- The state changes only while the islands that stop at a cut run (02 R79, R598). DEDUCED: log 6. -/
def whileRunning (s t : State) : State := if s.gct.stopped then s else t

/-! ### Scrub (R422) -/

/-- The granules of a stack's populated range that a row lists as offset div 32. -/
def stackGranules (st : Nat) (l : List Nat) : List Nat :=
  (l.map (fun g => (hbmBase + 2 ^ 36 * st) / 32 + g)).filter (fun n => inHbm (32 * n) && hbmStack (32 * n) == st)

/-- HBM_SCRUB (R422): since the last row the listed granules (offset div 32) have been upset, `ce` with an error that the code corrects,
`ue` with one that it only detects; the controller reads every populated line of the stack, once in each period, when its scrub is
enabled. DESIGN CHOICE: log 85, log 156. -/
def hbmScrub (s : State) (st : Nat) (ce ue : List Nat) : State :=
  let s1 := upsetGranules s (stackGranules st ce) (stackGranules st ue)
  match scrubPass s1 (16 + st) (mkReg .hbmScrub 0 st) (fun v => msTicks (60000 * bitsN v 0 11)) with
  | (some v, s2) =>
    if bitN v 11 then (faultyGranules s2 (fun g => inHbm (32 * g) && hbmStack (32 * g) == st)).foldl touchGranule s2 else s2
  | (none, s2) => s2

/-! ### Retirement (R418–R420) -/

/-- HBM_STATUS.REBUILDING. -/
def rebuilding (s : State) (st : Nat) : Bool := regF s .hbmStatus 0 st 15 1 == 1

/-- The pseudo-channel states that the retirement record keeps: retired ones. DEDUCED: log 104. -/
def recordPcs (s : State) (st : Nat) : State :=
  let v := (List.range 32).foldl (fun a p => if 2 ≤ pcState s st p then a + pcState s st p * 4 ^ p else a) 0
  { s with flash := { s.flash with hbmRetired := fsetD 0 s.flash.hbmRetired st v } }

/-- A retirement of a pseudo-channel in service (R419, R420): its rebuild starts, or waits for the one that runs, or no spare is left
and its lines are unmapped. DEDUCED: log 104. -/
def startRetire (s : State) (st p : Nat) : State :=
  if decide (8 ≤ st) || decide (32 ≤ p) || pcState s st p != 0 then s
  else if rebuilding s st then
    { s with facet := { s.facet with rebuildWait := fmodD [] s.facet.rebuildWait st (fun l => addOnce l p) } }
  else if regF s .hbmStatus 0 st 16 2 = 2 then
    recordPcs (regPutF (regPutF s .hbmPcState 0 st (2 * p) 2 3) .hbmStatus 0 st 18 1 1) st
  else
    let s1 := recovery (regPutF (regPutF s .hbmPcState 0 st (2 * p) 2 1) .hbmStatus 0 st 10 6 (p + 32))
    { s1 with facet := { s1.facet with rebuilt := ferase s1.facet.rebuilt st } }

/-- The corrected errors of a pseudo-channel have exceeded CE_LIMIT in each of 10 consecutive seconds (R418). -/
def ceExceeded (s : State) (st : Nat) (e : PcErrors) : Bool :=
  e.ces.any (fun x => (List.range 10).all (fun i => decide (regF s .hbmCtl 0 st 16 16 < fgetD 0 e.ces (x.1 + i))))

/-- PC_RETIREMENT (R418): cause 0, uncorrectable errors have reached UE_LIMIT within 1 s; 1, corrected errors have exceeded CE_LIMIT per
second for 10 consecutive seconds; both need AUTO_RETIRE. Cause 2: the channel's parity or link training fails. -/
def pcRetirement (s : State) (st p cause : Nat) : State :=
  let e := fgetD PcErrors.none_ s.facet.pcErrors (32 * st + p)
  let auto := regF s .hbmCtl 0 st 0 1 == 1
  let met :=
    match cause with
    | 0 => auto && decide (regF s .hbmCtl 0 st 8 8 ≤ e.ues.length)
    | 1 => auto && ceExceeded s st e
    | _ => true
  if met then startRetire s st p else s

/-- HBM_RETIRE (R419): a write of the Crown cores. -/
def hbmRetire (s : State) (st v : Nat) : State := if bitN v 5 then startRetire s st (v % 32) else s

/-- The granule lies in pseudo-channel `p` of stack `st`. -/
def inPc (st p g : Nat) : Bool := inHbm (32 * g) && hbmStack (32 * g) == st && hbmPc (32 * g) == p

/-- The lines of a pseudo-channel that hold a poisoned granule, as physical addresses. -/
def poisonedLines (s : State) (st p : Nat) : List Nat :=
  ((s.memPoison.filter (fun e => inPc st p e.1)).map (fun e => 32 * e.1 / 256 * 256)).dedup

/-- The lines of a pseudo-channel (14 "HBM organisation"). -/
def pcLines : Nat := 4394496

/-- The address of the other copy of a mirrored line whose region is in step with its copy (R416). -/
def lineTwin (s : State) (a : Nat) : Option Nat :=
  if mirrorOf s a == some true then some (a + 2 ^ 36)
  else if inHbm a && hbmStack a % 2 == 1 && mirrorOf s (a - 2 ^ 36) == some true then some (a - 2 ^ 36)
  else none

/-- The walk rebuilds a granule (R419 step 2): of a mirrored line from the other copy; of any other line from the old pseudo-channel,
corrected where its code allows and poisoned where it does not. DEDUCED: log 104. -/
def rebuildGranule (s : State) (g : Nat) : State :=
  match lineTwin s (32 * g) with
  | some b =>
    let s1 := touchGranule s (b / 32)
    if granuleFailed s1 (b / 32) then taintGranule s1 g else storeAt s1 (32 * g) (memBytes s1 b 32)
  | none => touchGranule s g

/-- The waiting retirements of a stack start, until one of them rebuilds (R419, R420). -/
def nextRetire (s : State) (st fuel : Nat) : State :=
  match fuel, fgetD [] s.facet.rebuildWait st with
  | k + 1, p :: t =>
    let s1 := startRetire { s with facet := { s.facet with rebuildWait := fsetD [] s.facet.rebuildWait st t } } st p
    if rebuilding s1 st then s1 else nextRetire s1 st k
  | _, _ => s

/-- REBUILD_COMPLETE (R419 step 4): every line has been rebuilt; the walk met errors that the code does not correct in the listed granules
(offset div 32) too. Lines that reads and writes have rebuilt before are left out. DEDUCED: log 104. -/
def rebuildComplete (s : State) (st : Nat) (lost : List Nat) : State :=
  if decide (8 ≤ st) || !rebuilding s st then s
  else
    let p := regF s .hbmStatus 0 st 10 5
    let early := fgetD [] s.facet.rebuilt st
    let due (g : Nat) : Bool := inPc st p g && !early.contains (g / 8)
    let s0 := upsetGranules s [] ((stackGranules st lost).filter due)
    let s1 := (faultyGranules s0 due).foldl rebuildGranule s0
    let s2 := regPutF s1 .hbmPcState 0 st (2 * p) 2 2
    let s3 := regPutF (regPutF s2 .hbmStatus 0 st 10 6 0) .hbmStatus 0 st 16 2 (regF s .hbmStatus 0 st 16 2 + 1)
    let s4 := bumpBy (recordPcs s3 st) .hbmRebuilt 0 st (pcLines - early.length)
    let s5 := { s4 with facet := { s4.facet with rebuilt := ferase s4.facet.rebuilt st } }
    let n := (poisonedLines s5 st p).length
    nextRetire (crownEvent s5 3 (zeros 4 ++ [byteOf st, byteOf p] ++ zeros 2 ++ leBytes 4 n)) st 32

/-! ### Mirror regions (R416, R417, R424) -/

/-- The fields of a HBM_MIR_r value: EN, BASE and SIZE. -/
def mirFields (v : Nat) : Bool × Nat × Nat := (bitN v 0, bitsN v 6 15, bitsN v 21 15)

/-- Two ranges of 2 MiB units overlap. -/
def unitsOverlap (b n b' n' : Nat) : Bool := decide (b < b' + n') && decide (b' < b + n)

/-- The physical ranges that the FLW, GRV and XLT base registers name: first address and length (R417; 05, 07, 13). -/
def baseRanges (s : State) : List (Nat × Nat) :=
  (List.range 8).flatMap (fun i =>
    [(regF s .flwBase i 0 29 19 * 2 ^ 29, 2 ^ 29), (regF s .flwShadow i 0 23 25 * 2 ^ 23, 2 ^ 23),
     (regF s .grvOrdBase i 0 25 23 * 2 ^ 25, 2 ^ 25)]) ++ [(regF s .xltSpaceBase 0 0 20 28 * 2 ^ 20, 2 ^ 20)]

/-- The status of a write of HBM_MIR_r (R417, R424): 0 where it is accepted. -/
def mirStatus (s : State) (st r v : Nat) : Nat :=
  let (en, b, n) := mirFields v
  let (en0, b0, n0) := mirFields (regN s .hbmMir r st)
  let copy := hbmBase + 2 ^ 36 * (st + 1) + b * 2 ^ 21
  if st % 2 = 1 then 0x0D
  else if en && (decide (n = 0) || decide (17166 < b + n)) then 0x0D
  else if !en && decide (17166 < b + n) then 0x0D
  else if en && (List.range 8).any (fun q =>
      q != r && (mirFields (regN s .hbmMir q st)).1 &&
        unitsOverlap b n (mirFields (regN s .hbmMir q st)).2.1 (mirFields (regN s .hbmMir q st)).2.2) then 0x0D
  else if en && !en0 && (baseRanges s).any (fun x => decide (x.1 < copy + n * 2 ^ 21) && decide (copy < x.1 + x.2)) then 0x0D
  else if en0 && (b != b0 || n != n0) then 0x0C
  else 0

/-- A write of HBM_MIR_r that is accepted: an enabled region is not in step with its copy until MIRROR_SYNC (R417). -/
def mirWrite (s : State) (st r v : Nat) : State :=
  let (en, b, n) := mirFields v
  let en0 := bitN (regN s .hbmMir r st) 0
  let synced := if en && en0 then regF s .hbmMir r st 1 1 else 0
  regPut s .hbmMir r st (b2n en + synced * 2 + b * 2 ^ 6 + n * 2 ^ 21)

/-- MIRROR_ENABLE (R417): the region is enabled over 2 MiB units, and the copy starts; a write that R417 or R424 refuses changes
nothing. -/
def mirrorEnable (s : State) (st r base size : Nat) : State :=
  let v := 1 + base % 2 ^ 15 * 2 ^ 6 + size % 2 ^ 15 * 2 ^ 21
  if decide (8 ≤ st) || decide (8 ≤ r) || mirStatus s st r v != 0 then s else mirWrite s st r v

/-- The part of a sparse memory in `[a, a + n)` copied to `d` bytes above it, in place of what stood there. -/
def copyRange {α : Type} (m : FMap α) (a n d : Nat) : FMap α :=
  let from_ := m.filter (fun e => decide (a ≤ e.1) && decide (e.1 < a + n))
  let rest := m.filter (fun e => !(decide (a + d ≤ e.1) && decide (e.1 < a + d + n)))
  from_.foldl (fun m e => finsert m (e.1 + d) e.2) rest

/-- MIRROR_SYNC (R417): the copy of the region is complete; it pauses while either stack rebuilds. DEDUCED: log 105. -/
def mirrorSync (s : State) (st r : Nat) : State :=
  let (en, b, n) := mirFields (regN s .hbmMir r st)
  if decide (8 ≤ st) || decide (8 ≤ r) || decide (st % 2 = 1) || !en || regF s .hbmMir r st 1 1 == 1 || rebuilding s st ||
      rebuilding s (st + 1) then s
  else
    let a := hbmBase + 2 ^ 36 * st + b * 2 ^ 21
    let here (g : Nat) : Bool := decide (a / 32 ≤ g) && decide (g < a / 32 + n * 2 ^ 16)
    let s0 := (faultyGranules s here).foldl touchGranule s
    let s1 := { s0 with
      mem := copyRange s0.mem a (n * 2 ^ 21) (2 ^ 36)
      memPoison := copyRange s0.memPoison (a / 32) (n * 2 ^ 16) (2 ^ 31)
      upsets := copyRange s0.upsets (a / 32) (n * 2 ^ 16) (2 ^ 31) }
    regPutF s1 .hbmMir r st 1 1 1

/-! ### Temperature (R421) -/

/-- HBM_STATUS.THERMAL at a temperature. -/
def thermalOf (temp : Nat) : Nat := if 95 < temp then 2 else if 85 < temp then 1 else 0

/-- HBM_THERMAL (R421): the stack's sensor reads a temperature; the time in throttling is counted. -/
def hbmThermal (s : State) (st temp : Nat) : State :=
  if 8 ≤ st then s
  else
    let t := Nat.min temp 255
    let s1 := heatSettle s st
    let s2 := { s1 with facet := { s1.facet with
      hotSince := if thermalOf t = 2 then finsert s1.facet.hotSince st s.clock else ferase s1.facet.hotSince st } }
    regPutF (regPutF s2 .hbmStatus 0 st 0 8 t) .hbmStatus 0 st 8 2 (thermalOf t)

/-- REFRESH (R421): every bank of every pseudo-channel is refreshed; no value changes. DESIGN CHOICE: log 106. -/
def refresh (s : State) (_st : Nat) : State := s

end Sys2Proof.Machine
end

