-- ==== Sys2Proof/Machine/GctCore.lean ====
section
/-!
DEFINITION. The command engine as far as other blocks use it (02 R66, R72): commands in execution and the answers that end their waits.
-/

namespace Sys2Proof.Machine

/-- A command in execution whose wait is over: its completion waits to be sent. -/
def ExecCmd.answer (e : ExecCmd) (c : Completion) : ExecCmd := { e with wait := .send c }

/-- Answers every command in execution whose wait satisfies `p`. -/
def answerWait (s : State) (p : ExecWait → Bool) (status : Nat) (body : Bytes) : State :=
  let f (e : ExecCmd) : ExecCmd := if p e.wait then e.answer (complete status body) else e
  { s with gct := { s.gct with
      sessions := s.gct.sessions.map (fun e => (e.1, { e.2 with exec := e.2.exec.map f })), anon := s.gct.anon.map f } }

/-- A session, if it is open. -/
def sessionGet (s : State) (i : Nat) : Option Session := fget? s.gct.sessions i

/-- Changes an open session. -/
def sessionMod (s : State) (i : Nat) (f : Session → Session) : State :=
  { s with gct := { s.gct with sessions := fmod s.gct.sessions i f } }

/-- Some command of any session waits as `p` says. -/
def anyWait (s : State) (p : ExecWait → Bool) : Bool := s.gct.sessions.any (fun e => e.2.exec.any (fun x => p x.wait))

end Sys2Proof.Machine
end

