-- ==== Sys2Proof/Machine/SpanRows.lean ====
section
/-!
DEFINITION. What comes about on the Span fabric (16): training and loss of links, retries, requests and responses, route moves, membership
epochs.
-/

namespace Sys2Proof.Machine

/-! ### Requests that end -/

/-- The transfer of a request takes its status (09 R278). -/
def endTransfer (s : State) (r : SpanReq) (status : Nat) : State :=
  let s1 := match hcGet s r.core r.hc with
    | some x => if x.ctx = r.ctx then xferEnd s r.core r.hc r.tag status else s
    | none => s
  if status = 0x50 then bump s1 .spnLost 0 0 else s1

/-- A request of this module ends with a status (R471, R476, R477); in HALTED its transfer, which is stopped, learns of it on RESUME
(21 R566). -/
def endRequest (s : State) (r : SpanReq) (status : Nat) : State :=
  let s1 := { s with span := { s.span with reqs := s.span.reqs.filter (fun q => q.msg.xid != r.msg.xid) } }
  if s.gct.stopped then { s1 with span := { s1.span with late := s1.span.late ++ [(r, status)] } } else endTransfer s1 r status

/-- The transfers of requests that ended in HALTED take their statuses. DEDUCED: log 120. -/
def settleLate (s : State) : State :=
  s.span.late.foldl (fun t e => endTransfer t e.1 e.2) { s with span := { s.span with late := [] } }

/-- Every outstanding request that satisfies `p` ends with 0x50. -/
def loseRequests (s : State) (p : SpanReq → Bool) : State := (s.span.reqs.filter p).foldl (fun t r => endRequest t r 0x50) s

/-! ### The coordinator and lost modules (R475, R477) -/

/-- Every link that joins module `x` to the group has been reported DOWN. DEDUCED: log 117. -/
def moduleLost (s : State) (x : Nat) : Bool :=
  let map := epochMap s
  let m := regN s .spnMesh 0 0
  let ns := (meshNeighbours [bitsN m 0 7, bitsN m 7 7, bitsN m 14 7] map (map.findIdx (· == x))).filter (fun n => n != x)
  !ns.isEmpty && ns.all (fun n => decide ((n, x) ∈ s.span.downs))

/-- The members that are not lost. DEDUCED: log 117. -/
def liveMembers (s : State) : List Nat := (members s).filter (fun x => x == ownId s || !moduleLost s x)

/-- The coordinator: the lowest-numbered member that is not lost (R475). DEDUCED: log 117. -/
def coordinator (s : State) : Option Nat := (liveMembers s).min?

/-- This module is the coordinator. -/
def isCoord (s : State) : Bool := s.span.member && coordinator s == some (ownId s)

/-- This module is isolated (R477): its outstanding requests end with 0x50, and it issues none until a COMMIT. -/
def isolate (s : State) : State := loseRequests (regPutF s .spnStatus 0 0 0 1 1) (fun _ => true)

/-! ### Making an epoch (R475) -/

/-- The neighbour ID that ATTACH named for a link. -/
def neighOf (s : State) (k : Nat) : Nat := fgetD 0xFF s.span.neigh k

/-- The route half that the runtime writes for destination `m` under a plan. DESIGN CHOICE: log 114. -/
def planHalf (s : State) (p : EpochPlan) (m : Nat) : Nat :=
  Config.routeHalf (ownId s) ((List.range 8).map (neighOf s)) p.mesh p.map m % 256

/-- The runtime writes the half of every destination for the plan's epoch (R470); no destination of it has moved yet.
DESIGN CHOICE: log 114. -/
def writeRoutes (s : State) (p : EpochPlan) : State :=
  (List.range 64).foldl (fun t m => regPutF t .spnRoute m 0 (8 * (p.epoch % 2)) 8 (planHalf s p m))
    { s with span := { s.span with moves := s.span.moves.filter (fun e => e.1 % 2 != p.epoch % 2) } }

/-- A plan's half for `m` names a link that is up. DEDUCED: log 118. -/
def planReaches (s : State) (p : EpochPlan) (m : Nat) : Bool :=
  let h := planHalf s p m
  m == ownId s || (primaryOf h).any (linkUsable s) || (alternateOf h).any (linkUsable s)

/-- The modules in either map, without this one. DEDUCED: log 118. -/
def planPeers (s : State) (p : EpochPlan) : List Nat :=
  ((members s ++ membersOf p.map).filter (fun m => m != ownId s)).dedup

/-- Sends a control message under the parity of a plan's epoch. DESIGN CHOICE: log 115. -/
def sendPlan (s : State) (dst : Nat) (p : EpochPlan) (data : Bytes) : State :=
  let (id, s1) := nextMsgId s
  sendMsg s1 { mtype := 0x10, src := ownId s, epar := p.epoch % 2, dst := dst, status := 0, msgid := id, ctx := 0, xid := 0, data := data }

/-- Sends a control message to every peer of a plan. -/
def sendPeers (s : State) (p : EpochPlan) (data : Bytes) : State := (planPeers s p).foldl (fun t m => sendPlan t m p data) s

/-- The packed mesh sizes and this module's place in them (16 SPN_MESH). -/
def meshWord (s : State) (p : EpochPlan) : Nat :=
  let q (i : Nat) := p.mesh.getD i 1
  let pos := p.map.findIdx (· == ownId s)
  let at_ := if ownId s ∈ p.map then pos else 0
  q 0 + q 1 * 2 ^ 7 + q 2 * 2 ^ 14 + at_ % q 0 * 2 ^ 21 + at_ / q 0 % q 1 * 2 ^ 28 + at_ / (q 0 * q 1) * 2 ^ 35

/-- The eight words of SPN_MAP for a map. -/
def putMap (s : State) (map : List Nat) : State :=
  (List.range 8).foldl (fun t j => regPut t .spnMap j 0 (leNat ((List.range 8).map (fun i => byteOf (map.getD (8 * j + i) 0xFF))))) s

/-- A SPN_MEMBER EPOCH command that waits is answered. DEDUCED: log 116. -/
def answerEpoch (s : State) (status : Nat) : State := answerWait s (fun w => w == .epoch) status []

/-- Extends measurement register `m` with a value of 32 bytes (19 R527). -/
def measure (s : State) (m : Nat) (x : Bytes) : State :=
  let old := (List.range 4).flatMap (fun w => leBytes 8 (regN s .trsMeas (4 * m + w) 0))
  let new := sha256 (old ++ x)
  (List.range 4).foldl (fun t w => regPut t .trsMeas (4 * m + w) 0 (leAt new (8 * w) 8)) s

/-- M6 (19 "Measurements"): group ID, module ID and epoch. -/
def measureSpan (s : State) : State :=
  measure s 6 (sha256 (beBytes 4 (regF s .spnId 0 0 0 32) ++ [byteOf (ownId s)] ++ beBytes 4 (epochNow s)))

/-- The switch point of an epoch (R475 step 4, R476): the old epoch stays open, and every later issue samples the new one. -/
def switchEpoch (s : State) (p : EpochPlan) : State :=
  let was : Option OldEpoch := if s.span.member then some { epoch := epochNow s, map := epochMap s, since := s.clock } else none
  let isMember := decide (ownId s ∈ p.map)
  let kept := s.span.downs.filter (fun d => decide (d.1 ∈ p.map) && decide (d.2 ∈ p.map))
  let s1 := { s with span := { s.span with old := was, prep := none, member := isMember, downs := kept } }
  let s2 := regPutF (regPut s1 .spnEpoch 0 0 (p.epoch % 2 ^ 32 + b2n was.isSome * 2 ^ 32)) .spnStatus 0 0 0 1 0
  let s3 := if isMember then putMap (regPut s2 .spnMesh 0 0 (meshWord s p)) p.map else putMap (regPut s2 .spnMesh 0 0 0x4081) []
  sendHeld (measureSpan (regPutF s3 .spnStatus 0 0 2 1 0))

/-- Every module of the new map has answered READY: the coordinator sends COMMIT and switches (R475 step 3). -/
def commitIfReady (s : State) : State :=
  match s.span.run with
  | none => s
  | some r =>
    if (membersOf r.plan.map).all (fun m => decide (m ∈ r.ready)) then
      let s1 := sendPeers s r.plan (controlData 7 0 r.plan.epoch [])
      let s2 := switchEpoch { s1 with span := { s1.span with run := none } } r.plan
      if r.command then answerEpoch s2 0 else s2
    else s

/-- A PREPARE that evicts ends the requests to the lost modules: the members that its map no longer names (R477). DEDUCED: log 117. -/
def loseEvicted (s : State) (p : EpochPlan) (lost : Nat) : State :=
  loseRequests s (fun r => decide (lost < 64) && decide (r.msg.dst ∈ members s) && decide (r.msg.dst ∉ p.map))

/-- The data bytes of a PREPARE. DESIGN CHOICE: log 115. -/
def prepareData (p : EpochPlan) (lost : Nat) : Bytes :=
  controlData 4 0 p.epoch ((p.mesh.map byteOf) ++ [byteOf lost] ++ zeros 4 ++ p.map.map byteOf)

/-- The coordinator begins an epoch (R475 step 1): its own half is written, and PREPARE goes to every other module of either map.
`lost` names an evicted module, 0xFF for none. -/
def startEpoch (s : State) (p : EpochPlan) (lost : Nat) (command : Bool) : State :=
  let s1 := writeRoutes (loseEvicted s p lost) p
  let run : EpochRun := { plan := p, ready := [ownId s], since := s.clock, command := command }
  commitIfReady (sendPeers { s1 with span := { s1.span with run := some run } } p (prepareData p lost))

/-- The members that the coordinator takes for lost (R477). -/
def lostMembers (s : State) : List Nat := (members s).filter (fun x => x != ownId s && moduleLost s x)

/-- The members that this module reaches, itself among them. -/
def reachCount (s : State) : Nat := ((members s).filter (fun m => m == ownId s || reachable s m)).length

/-- The plan that evicts the lost members (R477): the same mesh, their positions VACANT. DEDUCED: log 117. -/
def evictPlan (s : State) : EpochPlan :=
  let m := regN s .spnMesh 0 0
  { epoch := (epochNow s + 1) % 2 ^ 32, coord := ownId s, mesh := [bitsN m 0 7, bitsN m 7 7, bitsN m 14 7],
    map := (epochMap s).map (fun y => if y ∈ lostMembers s then 0xFF else y) }

/-- The module judges what it reaches (R477): a coordinator that reaches no more than half of the members is isolated, and so is a member that
cannot reach the coordinator; else the coordinator evicts lost members under AUTO_EVICT. -/
def judgeLoss (s : State) : State :=
  if !s.span.member || isolated s then s
  else if isCoord s then
    if 2 * reachCount s ≤ (members s).length then isolate s
    else match lostMembers s with
      | [] => s
      | x :: _ =>
        if regF s .spnCtl 0 0 0 1 = 1 ∧ s.span.run.isNone ∧ s.span.old.isNone then startEpoch s (evictPlan s) x false else s
  else if (coordinator s).any (fun c => !reachable s c) then isolate s else s

/-! ### Links (R462–R467, R471) -/

/-- The destinations whose half names a link as primary begin to move (R471). -/
def beginMoves (s : State) (k : Nat) : State :=
  let keys := (List.range 128).filter (fun i => primaryOf (routeHalf s (i / 2) (i % 2)) == some k && (fget? s.span.moves i).isNone)
  { s with span := { s.span with moves := keys.foldl (fun m i => finsert m i false) s.span.moves } }

/-- A link goes DOWN (R463, R464, R466, R471): its flits are lost, routes over it move, and LINK_DOWN goes to every reachable member. -/
def linkDown (s : State) (k : Nat) : State :=
  let peer := regF s .spnLink k 0 16 8
  let s1 := linkSet (regPutF (setLinkState s k 0) .spnLink k 0 16 8 0xFF) k SpanLink.reset
  let s2 := beginMoves s1 k
  let s3 := { s2 with span := { s2.span with downs := addOnce s2.span.downs (ownId s, peer) } }
  judgeLoss (if s.span.member then broadcast s3 (controlData 1 peer (epochNow s3) []) else s3)

/-- LINK_ENABLE (R462): a write of ENABLE = 1; a link that is DOWN begins to train. -/
def linkEnable (s : State) (k : Nat) : State :=
  if 8 ≤ k then s
  else
    let s1 := regPutF s .spnLink k 0 0 1 1
    if linkState s1 k = 0 then setLinkState s1 k 1 else s1

/-- Resends the replay buffer of a link (R463, R466). -/
def replayLink (s : State) (k : Nat) : State := (linkGet s k).replay.foldl (fun t f => emitFlit t k f 0 0) s

/-- The routes over a link that has trained anew are usable again, and its loss is no longer reported here (R464, R471).
DESIGN CHOICE: log 114. -/
def routesBack (s : State) (k : Nat) : State :=
  { s with span := { s.span with
      moves := s.span.moves.filter (fun e => primaryOf (routeHalf s (e.1 / 2) (e.1 % 2)) != some k),
      downs := s.span.downs.filter (fun d => d != (ownId s, regF s .spnLink k 0 16 8)) } }

/-- A training ends on three or four lanes (R462, R463, R467): a retrain replays from the last acknowledged flit; a first training sets
the credits and starts every number anew. DEDUCED: log 119. -/
def trained (s : State) (k peer : Nat) (three : Bool) : State :=
  let s1 := routesBack (regPutF (setLinkState s k (if three then 3 else 2)) .spnLink k 0 16 8 peer) k
  let l := linkGet s1 k
  let s2 :=
    if l.resume then replayLink (linkSet s1 k { l with resume := false, lastRx := s.clock }) k
    else linkSet s1 k { SpanLink.reset with credits := trainedCredits, lastRx := s.clock }
  sendHeld (linkPump s2 k (linkGet s2 k).waiting.length)

/-- An enabled link that is in training, or that is DOWN on an attached module: it trains again when its neighbour becomes ready (R462, R464). -/
def mayTrain (s : State) (k : Nat) : Bool :=
  decide (k < 8) && regF s .spnLink k 0 0 1 == 1 && (linkState s k == 1 || (linkState s k == 0 && regF s .spnId 0 0 38 1 == 1))

/-- LINK_TRAINED (R462, R464): the link reaches UP4, or UP3 with a faulty lane, and learns its neighbour's ID; a training anew judges
every lane again. DEDUCED: log 119. -/
def linkTrained (s : State) (k peer : Nat) (badLane : Option (Fin 4)) : State :=
  if !mayTrain s k then s
  else
    let s0 := if (linkGet s k).resume then s else regPutF s .spnLink k 0 11 4 0
    let s1 := match badLane with
      | some n => bump (regPutF s0 .spnLink k 0 (11 + n.val) 1 1) .spnSpare k 0
      | none => s0
    trained s1 k (peer % 256) (regF s1 .spnLink k 0 11 4 != 0)

/-- LANE_FAULT (R463): a link in UP4 retrains on three lanes; a second faulty lane takes the link DOWN. -/
def laneFault (s : State) (k : Nat) (lane : Fin 4) : State :=
  if decide (8 ≤ k) || linkState s k == 0 || regF s .spnLink k 0 (11 + lane.val) 1 == 1 then s
  else
    let had := regF s .spnLink k 0 11 4
    let s1 := regPutF s .spnLink k 0 (11 + lane.val) 1 1
    if had ≠ 0 then linkDown s1 k
    else if linkState s k = 2 then recovery (linkMod (setLinkState s1 k 1) k (fun l => { l with resume := true }))
    else s1

/-- RETRAIN_COMPLETE (R463): the retrain on three lanes reaches UP3 and replays, or fails and the link goes DOWN. -/
def retrainComplete (s : State) (k : Nat) (ok : Bool) : State :=
  if decide (8 ≤ k) || linkState s k != 1 || !(linkGet s k).resume then s
  else if ok then
    let three := regF s .spnLink k 0 11 4 != 0
    let s1 := trained s k (regF s .spnLink k 0 16 8) three
    if three then bump s1 .spnSpare k 0 else s1
  else linkDown s k

/-- LINK_RETRAIN (R463): a write of RETRAIN = 1; the link trains on four lanes, and one that was up will replay. -/
def linkRetrain (s : State) (k : Nat) : State :=
  if decide (8 ≤ k) || regF s .spnLink k 0 0 1 != 1 then s
  else
    let s1 := setLinkState (regPutF s .spnLink k 0 11 4 0) k 1
    if 2 ≤ linkState s k then linkMod s1 k (fun l => { l with resume := true }) else s1

/-- A write of ENABLE = 0: the link goes DOWN. -/
def linkDisable (s : State) (k : Nat) : State :=
  let s1 := regPutF s .spnLink k 0 0 1 0
  if linkState s k = 0 then s1 else linkDown s1 k

/-- LINK_SILENCE (R464): no flit for SILENCE_US. -/
def linkSilence (s : State) (k : Nat) : State :=
  if linkUp s k && decide ((linkGet s k).lastRx + 1250 * regF s .spnCtl 0 0 32 8 ≤ s.clock) then linkDown s k else s

/-- How many flits of a replay buffer an acknowledged SEQ covers. -/
def ackedFlits (l : SpanLink) (seq : Nat) : Nat :=
  match l.replay.findIdx? (fun f => f.seq == seq % 4096) with
  | some i => i + 1
  | none => 0

/-- RETRY_REQ (R466): the link resends from the named SEQ; sixteen retries without progress take it DOWN. -/
def retryReq (s : State) (k seq : Nat) : State :=
  if !linkUp s k then s
  else
    let l := linkGet s k
    let n := ackedFlits l (seq + 4095)
    let tries := (if n = 0 then l.retries else 0) + 1
    let s1 := bump (linkSet s k { l with replay := l.replay.drop n, retries := tries, lastRx := s.clock }) .spnRetry k 0
    if 16 ≤ tries then linkDown s1 k else replayLink s1 k

/-- FLIT_CRC_FAILURE (R465, R466): the receiver discards the flit and asks for the expected SEQ. -/
def flitFailure (s : State) (k : Nat) : State :=
  if !linkUp s k then s
  else
    let s1 := linkMod s k (fun l => { l with lastRx := s.clock })
    emitFlit s1 k (bareFlit 3 (linkGet s k).rxSeq) 0 0

/-- ACK_AND_CREDIT (R466, R467): an ACK frees replay-buffer entries and a CREDIT returns flits of a channel. -/
def ackAndCredit (s : State) (k : Nat) (ack : Option Nat) (vc n : Nat) : State :=
  if !linkUp s k then s
  else
    let l := linkGet s k
    let gone := (ack.map (ackedFlits l)).getD 0
    let credits := if vc < 5 then fmodD 0 l.credits vc (fun c => Nat.min (c + n) (vcShare vc)) else l.credits
    let s1 := linkSet s k { l with replay := l.replay.drop gone, credits := credits, lastRx := s.clock,
                                   retries := if gone = 0 then l.retries else 0 }
    sendHeld (linkPump s1 k l.waiting.length)

/-! ### Requests and responses (R468–R471) -/

/-- The flits that a message fills. -/
def SpanMsg.flits (m : SpanMsg) : Nat := Nat.max 1 (ceilDiv (16 + m.data.length) 240)

/-- A message has arrived on a link: the flits are acknowledged. Data arrives on a link that is up, and not in HALTED (R464, R79). -/
def arrives (s : State) (k : Nat) (m : SpanMsg) : Bool := linkUp s k && (!s.gct.stopped || m.mtype == 0x10) && decide (m.data.length ≤ 8192)

/-- MESSAGE_FORWARD (R470): a message for another module leaves on the link of its half. -/
def forward (s : State) (vc : Nat) (m : SpanMsg) : State :=
  match messageLink s m.dst m.epar with
  | some k => sendOver s k vc m
  | none => s

/-- A range of a request's data: virtual address, poison mark, which part of its bytes it writes (0 all, 1 bits [3:0], 2 bits [7:4]), length,
and for a write the bytes. -/
structure SpanRange where
  va : Nat
  bad : Bool
  part : Nat
  len : Nat
  data : Bytes
deriving DecidableEq, Repr

/-- The ranges of a request's data, at most 128 of them. -/
def parseRanges (write : Bool) (bs : Bytes) (fuel : Nat) : List SpanRange :=
  match fuel with
  | 0 => []
  | k + 1 =>
    if bs.length < 16 then []
    else
      let n := Nat.min (beAt bs 8 8) 8192
      let r : SpanRange := { va := beAt bs 0 6, bad := bitN (byteAt bs 6) 0, part := byteAt bs 7 % 4, len := n,
                              data := if write then slice bs 16 n else [] }
      r :: parseRanges write (bs.drop (if write then 16 + n else 16)) k

/-- The pieces of a range that lie in one 64 KiB page each: virtual address and length. -/
def pagePieces (va n fuel : Nat) : List (Nat × Nat) :=
  match fuel with
  | 0 => []
  | k + 1 =>
    if n = 0 then []
    else
      let m := Nat.min n (65536 - va % 65536)
      (va % 2 ^ 48, m) :: pagePieces (va + m) (n - m) k

/-- Translates the pieces of a range in a unit: their addresses, or the status of the failure (R469; 13 R407). DEDUCED: log 102. -/
def translatePieces (s : State) (u ctx : Nat) (need : Need) (ps : List (Nat × Nat)) : Except Nat (List (Nat × Nat)) × State :=
  match ps with
  | [] => (.ok [], s)
  | (va, n) :: t =>
    match translate s u ctx va need with
    | (.ok pa, s1) =>
      match translatePieces s1 u ctx need t with
      | (.ok l, s2) => (.ok ((pa, n) :: l), s2)
      | r => r
    | (.fault kind _, s1) => (.error (if kind = 2 then 0x31 else 0x30), s1)
    | (.refused, s1) => (.error 0x31, s1)

/-- Translates every range of a request. -/
def translateRanges (s : State) (ctx : Nat) (need : Need) (rs : List SpanRange) : Except Nat (List (SpanRange × List (Nat × Nat))) × State :=
  match rs with
  | [] => (.ok [], s)
  | r :: t =>
    match translatePieces s unitSpan ctx need (pagePieces r.va r.len 4) with
    | (.ok ps, s1) =>
      match translateRanges s1 ctx need t with
      | (.ok l, s2) => (.ok ((r, ps) :: l), s2)
      | (.error e, s2) => (.error e, s2)
    | (.error e, s1) => (.error e, s1)

/-- CTX lies in SPN_CTXWIN (R469). -/
def inWindow (s : State) (ctx : Nat) : Bool := decide (regF s .spnCtxwin 0 0 0 16 ≤ ctx) && decide (ctx ≤ regF s .spnCtxwin 0 0 16 16)

/-- Answers a request with a response (R468, R469); one of 0x30 or 0x31 is counted. -/
def respond (s : State) (m : SpanMsg) (mtype status : Nat) (data : Bytes) : State :=
  let s1 := if status = 0x30 ∨ status = 0x31 then bump (bump s .spnInRefused 0 0) .xltSpanFault 0 0 else s
  sendMsg s1 { mtype := mtype, src := ownId s, epar := m.epar, dst := m.src, status := status, msgid := m.msgid, ctx := m.ctx, xid := m.xid,
               data := data }

/-- Writes the bytes of a range into its pieces. -/
def writePieces (s : State) (bs : Bytes) (bad : Bool) (ps : List (Nat × Nat)) : State :=
  match ps with
  | [] => s
  | (pa, n) :: t => writePieces (busWrite s pa (bs.take n) bad) (bs.drop n) bad t

/-- Reads pieces: the bytes, whether poison came with them, and the state after it. -/
def readPieces (s : State) (ps : List (Nat × Nat)) : Bytes × Bool × State :=
  match ps with
  | [] => ([], false, s)
  | (pa, n) :: t =>
    let (bs, bad, s1) := busRead s pa n
    let (cs, bad', s2) := readPieces s1 t
    (bs ++ cs, bad || bad', s2)

/-- Bytes of which only a part is written, over those at `a` (12 R342, R366). -/
def mergePart (s : State) (part a : Nat) (bs : Bytes) : Bytes :=
  (List.range bs.length).map (fun i =>
    let v := byteAt bs i
    let o := (memRd s (a + i)).toNat
    byteOf (match part with
      | 1 => o / 16 * 16 + v % 16
      | 2 => v / 16 * 16 + o % 16
      | _ => v))

/-- Writes a range of a write request. -/
def writeRange (s : State) (r : SpanRange) (ps : List (Nat × Nat)) : State :=
  if r.part = 0 then writePieces s r.data r.bad ps
  else (ps.foldl (fun (a : Bytes × State) p => (a.1.drop p.2, busWrite a.2 p.1 (mergePart a.2 r.part p.1 (a.1.take p.2)) r.bad)) (r.data, s)).2

/-- A write request that is addressed to this module (R469). -/
def serveWrite (s : State) (m : SpanMsg) : State :=
  if !inWindow s m.ctx then respond s m 0x03 0x31 []
  else match translateRanges s m.ctx .w (parseRanges true m.data 128) with
    | (.error e, s1) => respond s1 m 0x03 e []
    | (.ok l, s1) => respond (l.foldl (fun t e => writeRange t e.1 e.2) s1) m 0x03 0 []

/-- A read request that is addressed to this module (R469). -/
def serveRead (s : State) (m : SpanMsg) : State :=
  if !inWindow s m.ctx then respond s m 0x04 0x31 []
  else match translateRanges s m.ctx .r (parseRanges false m.data 128) with
    | (.error e, s1) => respond s1 m 0x04 e []
    | (.ok l, s1) =>
      let (bs, bad, s2) := readPieces s1 (l.flatMap (fun e => e.2))
      respond s2 m 0x04 (if bad then 0x60 else 0) bs

/-- A request on a link (WRITE_REQ, READ_REQ): forwarded, or served. -/
def requestArrives (s : State) (k : Nat) (vc : Nat) (m : SpanMsg) : State :=
  if !arrives s k m then s
  else
    let s1 := linkReceive s k vc m.flits
    if m.dst ≠ ownId s then forward s1 vc m
    else
      let s2 := spanEvent s1 true k m
      if m.mtype = 0x01 then serveWrite s2 m else serveRead s2 m

/-- WRITE_REQ. -/
def writeReq (s : State) (k vc : Nat) (m : SpanMsg) : State := requestArrives s k vc { m with mtype := 0x01 }

/-- READ_REQ. -/
def readReq (s : State) (k vc : Nat) (m : SpanMsg) : State := requestArrives s k vc { m with mtype := 0x02 }

/-- The request that a response answers. -/
def requestOf (s : State) (m : SpanMsg) : Option SpanReq := s.span.reqs.find? (fun r => r.msg.xid == m.xid && r.msg.msgid == m.msgid)

/-- The unit of a transfer that a response completes (R469; 09 R278). -/
def takeResponse (s : State) (m : SpanMsg) : State :=
  match requestOf s m with
  | none => s
  | some r =>
    let s1 := { s with span := { s.span with reqs := s.span.reqs.filter (fun q => q.msg.xid != r.msg.xid) } }
    match xferOf s1 r.core r.hc r.tag with
    | none => s1
    | some f =>
      if m.mtype = 0x03 then
        if m.status ≠ 0 then endRequest s r m.status
        else
          let n := (parseRanges true r.msg.data 128).foldl (fun a e => a + e.len) 0
          xferKick (unitDone s1 r.core r.hc r.tag r.ctx f n 0 0 false) r.core r.hc r.tag
      else if m.status ≠ 0 ∧ m.status ≠ 0x60 then endRequest s r m.status
      else match getArrive s1 r.core r.ctx f m.data (m.status = 0x60) with
        | (.ok bytes fill drop bad, s2) => xferKick (unitDone s2 r.core r.hc r.tag r.ctx f bytes fill drop bad) r.core r.hc r.tag
        | (.refused, s2) => xferEnd s2 r.core r.hc r.tag 0x31
        | (.fault _ _ _ _, _) => s1

/-- A response on a link: forwarded, or taken by the transfer that waits for it. -/
def responseArrives (s : State) (k vc : Nat) (m : SpanMsg) : State :=
  if !arrives s k m then s
  else
    let s1 := linkReceive s k vc m.flits
    if m.dst ≠ ownId s then forward s1 vc m else takeResponse (spanEvent s1 true k m) m

/-- WRITE_RSP. -/
def writeRsp (s : State) (k vc : Nat) (m : SpanMsg) : State := responseArrives s k vc { m with mtype := 0x03 }

/-- READ_RSP. -/
def readRsp (s : State) (k vc : Nat) (m : SpanMsg) : State := responseArrives s k vc { m with mtype := 0x04 }

/-- SPN_CTL.TIMEOUT_US in clock ticks. -/
def timeoutTicks (s : State) : Nat := 1250 * regF s .spnCtl 0 0 16 16

/-- REQUEST_TIMEOUT (R471): a request without a response within TIMEOUT_US ends its transfer with 0x50; the time in which its
destination is in HALTED does not count. DESIGN CHOICE: log 5. -/
def requestTimeout (s : State) (xid : Nat) : State :=
  match s.span.reqs.find? (fun r => r.msg.xid == xid) with
  | none => s
  | some r =>
    if (fget? s.span.halted r.msg.dst).isSome || decide (s.clock < r.since + timeoutTicks s) then s
    else bump (endRequest s r 0x50) .spnTimeout 0 0

/-- A route half waits to move to its alternate (R471): its primary link has gone DOWN, or was not usable when the half was written. -/
def moveWaits (s : State) (m par : Nat) : Bool :=
  match fget? s.span.moves (moveKey m par) with
  | some used => !used
  | none => (primaryOf (routeHalf s m par)).any (fun k => !linkUsable s k)

/-- ROUTE_MOVE (R471): every request sent over the old link has been answered or has timed out; the alternate is in use. -/
def routeMove (s : State) (m par : Nat) : State :=
  let key := moveKey (m % 64) par
  if !moveWaits s (m % 64) par then s
  else
    let old := primaryOf (routeHalf s (m % 64) par)
    if s.span.reqs.any (fun r => r.msg.dst == m % 64 && r.msg.epar % 2 == par % 2 && r.link.isSome && r.link == old) then s
    else sendHeld { s with span := { s.span with moves := finsert s.span.moves key true } }

/-! ### Control messages (R471, R475–R477) -/

/-- A control message has arrived over a link (R468, R470, R479): one for another module goes on, one for this module acts. -/
def controlArrives (s : State) (k : Nat) (h : CtlHead) (data : Bytes) (act : State → State) : State :=
  if !linkUp s k then s
  else
    let s1 := linkReceive s k 4 1
    let m : SpanMsg := { mtype := 0x10, src := h.src % 64, epar := h.epoch % 2, dst := h.dst % 64, status := 0, msgid := h.msgid, ctx := 0,
                         xid := 0, data := data }
    if m.dst ≠ ownId s then forward s1 4 m else act (spanEvent s1 true k m)

/-- A member reports that its link to a neighbour is DOWN (R477). -/
def reportDown (s : State) (src neigh : Nat) : State :=
  judgeLoss { s with span := { s.span with downs := addOnce s.span.downs (src % 64, neigh % 256) } }

/-- LINK_DOWN (R477). -/
def linkDownMsg (s : State) (k : Nat) (h : CtlHead) (neigh : Nat) : State :=
  controlArrives s k h (controlData 1 neigh h.epoch []) (fun t => reportDown t h.src neigh)

/-- Request timeouts to a module in HALTED pause, and OBS_TRIG.SPAN may request a global stop (R471, 21 R565). DEDUCED: log 120. -/
def pauseTimeouts (s : State) (src : Nat) : State :=
  let s1 := if (fget? s.span.halted (src % 64)).isSome then s
    else { s with span := { s.span with halted := finsert s.span.halted (src % 64) s.clock } }
  if regF s .obsTrig 0 0 1 1 = 1 then requestStop s1 4 else s1

/-- SPAN_HALT (R471). -/
def spanHalt (s : State) (k : Nat) (h : CtlHead) : State :=
  controlArrives s k h (controlData 2 0 h.epoch []) (fun t => pauseTimeouts t h.src)

/-- Timeouts to a module run again (R471). DEDUCED: log 120. -/
def runTimeouts (s : State) (src : Nat) : State :=
  match fget? s.span.halted (src % 64) with
  | none => s
  | some t =>
    { s with span := { s.span with
        halted := ferase s.span.halted (src % 64),
        reqs := s.span.reqs.map (fun r => if r.msg.dst = src % 64 then { r with since := r.since + (s.clock - t) } else r) } }

/-- SPAN_RESUME (R471). -/
def spanResume (s : State) (k : Nat) (h : CtlHead) : State :=
  controlArrives s k h (controlData 3 0 h.epoch []) (fun t => runTimeouts t h.src)

/-- A PREPARE is answered (R475 steps 1 and 2, R476, R477): the module writes the half for the new epoch, ends its requests to evicted
modules, and answers READY; or REFUSE while the old epoch is open, or after READY to another coordinator. DEDUCED: log 116. -/
def takePrepare (s : State) (p : EpochPlan) (lost : Nat) : State :=
  let other := s.span.prep.any (fun q => q.epoch == p.epoch && q.coord != p.coord)
  let wrong := s.span.member && decide (p.epoch ≠ (epochNow s + 1) % 2 ^ 32)
  if other || s.span.old.isSome || wrong then sendPlan s p.coord p (controlData 6 0 p.epoch [])
  else
    let s1 := loseEvicted s p lost
    let s2 := writeRoutes { s1 with span := { s1.span with prep := some p } } p
    sendPlan (regPutF s2 .spnStatus 0 0 2 1 1) p.coord p (controlData 5 0 p.epoch [])

/-- PREPARE (R475). -/
def prepareMsg (s : State) (k : Nat) (h : CtlHead) (p : EpochPlan) (lost : Nat) : State :=
  controlArrives s k h (prepareData p lost) (fun t => takePrepare t p lost)

/-- A module of the plan is READY (R475 step 3). -/
def takeReady (s : State) (src epoch : Nat) : State :=
  match s.span.run with
  | some r =>
    if r.plan.epoch = epoch then commitIfReady { s with span := { s.span with run := some { r with ready := addOnce r.ready (src % 64) } } } else s
  | none => s

/-- EPOCH_READY (R475 step 3). -/
def epochReady (s : State) (k : Nat) (h : CtlHead) : State :=
  controlArrives s k h (controlData 5 0 h.epoch []) (fun t => takeReady t h.src h.epoch)

/-- The coordinator sends ABORT, and the SPAN_MEMBER command that waits completes with a status (R475, R478); a loss that waited for the
epoch is judged again. DEDUCED: log 117. -/
def abortRun (s : State) (status : Nat) : State :=
  match s.span.run with
  | some r =>
    let s1 := sendPeers s r.plan (controlData 8 0 r.plan.epoch [])
    let s2 := { s1 with span := { s1.span with run := none } }
    judgeLoss (if r.command then answerEpoch s2 status else s2)
  | none => s

/-- EPOCH_REFUSE (R475, R478). -/
def epochRefuse (s : State) (k : Nat) (h : CtlHead) : State :=
  controlArrives s k h (controlData 6 0 h.epoch []) (fun t => if t.span.run.any (fun r => r.plan.epoch == h.epoch) then abortRun t 0x0C else t)

/-- EPOCH_READY_TIMEOUT (R475): 10 ms without every READY, 12,500,000 ticks. -/
def epochReadyTimeout (s : State) : State :=
  match s.span.run with
  | some r => if r.since + 12500000 ≤ s.clock then abortRun s 0x50 else s
  | none => s

/-- A COMMIT switches the module to the plan that it prepared (R475 step 4). -/
def takeCommit (s : State) (epoch : Nat) : State :=
  match s.span.prep with
  | some p => if p.epoch = epoch then switchEpoch s p else s
  | none => s

/-- EPOCH_COMMIT (R475 step 4). -/
def epochCommit (s : State) (k : Nat) (h : CtlHead) : State :=
  controlArrives s k h (controlData 7 0 h.epoch []) (fun t => takeCommit t h.epoch)

/-- An ABORT discards the plan that the module prepared (R475). -/
def takeAbort (s : State) (epoch : Nat) : State :=
  if s.span.prep.any (fun p => p.epoch == epoch) then regPutF { s with span := { s.span with prep := none } } .spnStatus 0 0 2 1 0 else s

/-- EPOCH_ABORT (R475). -/
def epochAbort (s : State) (k : Nat) (h : CtlHead) : State :=
  controlArrives s k h (controlData 8 0 h.epoch []) (fun t => takeAbort t h.epoch)

/-- Ends the transfers over Span of one hardware context that were sampled at an epoch. -/
def endEpochXfers (s : State) (k h e : Nat) : State :=
  (List.range 4).foldl (fun t n => match xferOf t k h n with
    | some f => if f.remote && f.epoch == e then bump (xferEnd t k h n 0x50) .spnLost 0 0 else t
    | none => t) s

/-- EPOCH_CLOSE (R476): GRACE_US after the switch point the old epoch closes, and its transfers end with 0x50. -/
def epochClose (s : State) : State :=
  match s.span.old with
  | none => s
  | some o =>
    if s.clock < o.since + 1250 * regF s .spnCtl 0 0 40 16 then s
    else
      let s1 := regPutF { s with span := { s.span with old := none } } .spnEpoch 0 0 32 1 0
      let s2 := s1.facet.cores.foldl (fun t e => e.2.hcs.foldl (fun t h => endEpochXfers t e.1 h.1 o.epoch) t) s1
      judgeLoss s2

end Sys2Proof.Machine
end

