-- ==== Sys2Proof/Machine/Send.lean ====
section
/-!
DEFINITION. GCT frames that leave the module (02 R63–R66, R92, R178): the outbound half of the control slice and the ports.
-/

namespace Sys2Proof.Machine

/-! ### Frames (02 R63) -/

/-- The header of a GCT frame (02 "GCT frame layout"). -/
def gctHeader (kind flags session seq opcode length status : Nat) : Bytes :=
  [0x01, byteOf kind] ++ beBytes 2 flags ++ beBytes 4 session ++ beBytes 8 seq ++ beBytes 2 opcode ++ beBytes 2 length ++
    [byteOf status, 0, 0, 0]

/-- The tag of a header and body under a key (02 R63); a frame of no session key has a tag of zeros. -/
def gctTag (key hb : Bytes) : Bytes := if key.isEmpty then zeros 16 else (hmac key hb).take 16

/-- A GCT frame from the module. -/
def gctBytes (key : Bytes) (kind flags session seq opcode status : Nat) (body : Bytes) : Bytes :=
  let hb := gctHeader kind flags session seq opcode body.length status ++ body
  hb ++ gctTag key hb

/-! ### The outbound half (02 R65; 06 R178) -/

/-- The link of a port is up. DESIGN CHOICE: log 32. -/
def portOpens (s : State) (p : PortId) : Bool :=
  match p with
  | .command n => bitN s.ports.cmdLink n.val
  | .logical m => portLinkUp s m.val

/-- The cells of an outbound frame, FCS included. -/
def outCells (f : Bytes) : Nat := cellsFor (f.length + 4)

/-- The cells of the outbound half in use. -/
def outHeld (s : State) : Nat := s.gct.outbound.foldl (fun a e => a + e.cells.length) 0

/-- The outbound half has room for frames. -/
def outRoom (s : State) (fs : List Bytes) : Bool := decide (outHeld s + fs.foldl (fun a f => a + outCells f) 0 ≤ 128)

/-- A frame sent on a logical port is counted there (03 "Logical port counters"). -/
def countTx (s : State) (p : PortId) (f : Bytes) : State :=
  match p with
  | .command _ => s
  | .logical m => bumpBy (bump s .prtTxFrames m.val 0) .prtTxBytes m.val 0 (f.length + 4)

/-- A frame is built in cells of the outbound half, in rising bank order (02 R65; 06 R175). -/
def buildOut (s : State) (f : Bytes) : List Nat × State := takeSlice s 128 256 4290 (f.length + 4)

/-- An outbound frame leaves on its port, or waits in the outbound half while the port's link is down. DESIGN CHOICE: log 23. -/
def sendOut (s : State) (p : PortId) (f : Bytes) : State :=
  let (cells, s1) := buildOut s f
  if portOpens s p then
    let s2 := countTx (freeCells s1 cells) p f
    { s2 with sent := s2.sent ++ [.gct p f] }
  else { s1 with gct := { s1.gct with outbound := s1.gct.outbound ++ [{ port := p, frame := f, cells := cells }] } }

/-- A frame leaves the outbound half. One whose cells hold an uncorrectable error is rebuilt there from its source (06 R180): what is sent is
the same frame. -/
def leaveOut (s : State) (e : OutFrame) : State :=
  let s1 := readCells s e.cells
  let s2 := if cellsFail s1 e.cells then writeCells s1 e.cells (e.frame.length + 4) else s1
  let s3 := countTx (freeCells s2 e.cells) e.port e.frame
  { s3 with sent := s3.sent ++ [.gct e.port e.frame] }

/-- The outbound frames of a port leave, once its link is up. -/
def flushOut (s : State) (p : PortId) : State :=
  if portOpens s p then
    let mine (e : OutFrame) : Bool := e.port == p
    (s.gct.outbound.filter mine).foldl leaveOut
      { s with gct := { s.gct with outbound := s.gct.outbound.filter (fun e => !mine e) } }
  else s

/-! ### Pushed records (02 R91, R92, R602) -/

/-- The subscription of a session to a class. -/
def subOf (s : State) (cls session : Nat) : Option Subscription :=
  s.gct.subs.find? (fun u => u.cls == cls && u.session == session)

/-- The RECORD frame of a record for a subscription, with its number (R92). -/
def recordFrame (s : State) (u : Subscription) (n : Nat) (body : Bytes) : Bytes :=
  let key := ((sessionGet s u.session).map (fun x => x.key)).getD []
  gctEthernet u.port u.smac u.vlan u.udp (gctBytes key 0x03 0 u.session n 0 0 body)

/-- The frames of a record for the subscriptions that it was numbered for and that still stand. -/
def recordFrames (s : State) (cls : Nat) (seqs : List (Nat × Nat)) (body : Bytes) : List (PortId × Bytes) :=
  seqs.filterMap (fun e => (subOf s cls e.1).map (fun u => (u.port, recordFrame s u e.2 body)))

end Sys2Proof.Machine
end

