-- ==== Sys2Proof/Machine/Debug.lean ====
section
/-!
DEFINITION. Context debug (21 R564): the operations of OBS_DBG.
-/

namespace Sys2Proof.Machine

/-- The last debug operation has ended with a status. -/
def dbgStatus (s : State) (st : Nat) : State := regPutF s .obsDbg 0 0 24 8 st

/-- Writes bytes piece by piece through the translation unit of a core; a fault ends the write with its status (R564). DEDUCED: log 137. -/
def dumpPieces (s : State) (k ctx : Nat) (bs : Bytes) (ps : List (Nat × Nat)) : Nat × State :=
  match ps with
  | [] => (0, s)
  | (va, n) :: t =>
    match translate s k ctx va .w with
    | (.ok pa, s1) => dumpPieces (busWrite s1 pa (bs.take n) false) k ctx (bs.drop n) t
    | (.fault kind _, s1) => (if kind = 2 then 0x31 else 0x30, s1)
    | (.refused, s1) => (0x31, s1)

/-- DUMP (R564): offsets 0x0000–0x1FFF, and the accumulators when the context holds the claim. DEDUCED: log 137. -/
def dumpContext (s : State) (k h va : Nat) (x : Hc) : State :=
  let c := coreGet s k
  let claim := c.claim == some h
  let bs := frameImage x (saveState s k x) claim c.lat ++ (if claim then accImage c.lat else [])
  let (st, s1) := dumpPieces s k x.ctx bs (pagePieces va bs.length 3)
  dbgStatus s1 st

/-- A debug operation on hardware context `h` of core `k`: 1 CONTINUE, 2 STEP, 3 DUMP. DEDUCED: log 137. -/
def debugOp (s : State) (k h op : Nat) : State :=
  match hcGet s k h with
  | none => dbgStatus s 0x0C
  | some x =>
    if x.st != .debug || x.stop then dbgStatus s 0x0C
    else match op with
      | 1 => dbgStatus (hcSet s k h (some { x with st := .issuing, skipBrk := true })) 0
      | 2 => regPutF (hcSet s k h (some { x with st := .issuing, skipBrk := true, stepOne := true })) .obsDbg 0 0 16 1 1
      | _ => dumpContext s k h (regF s .obsDbgAddr 0 0 12 36 * 4096) x

/-- A write of OBS_DBG (R564): ignored with ERR set while BUSY; a nonzero OP starts an operation. -/
def obsDbgWrite (s : State) (v : Nat) : State :=
  if regF s .obsDbg 0 0 16 1 = 1 then regPutF s .obsDbg 0 0 17 1 1
  else
    let s1 := regPutF s .obsDbg 0 0 0 14 (bitsN v 0 14)
    let s2 := if bitN v 17 then regPutF s1 .obsDbg 0 0 17 1 0 else s1
    if bitsN v 14 2 = 0 then s2 else debugOp s2 (bitsN v 0 11) (bitsN v 11 3) (bitsN v 14 2)

/-- The rows CONTINUE, STEP and DUMP: a write of OBS_DBG with that operation; REG_WRITE is not legal in HALTED (02 R82). -/
def debugRow (s : State) (k h op : Nat) : State := whileRunning s (obsDbgWrite s (k % 2048 + h % 8 * 2 ^ 11 + op * 2 ^ 14))

end Sys2Proof.Machine
end

