-- ==== Sys2Proof/Machine/Flash.lean ====
section
/-!
DEFINITION. The flash store (18) and the staging of images and firmware (19 R521–R524).
-/

namespace Sys2Proof.Machine

/-- What a command answers, and the state after it. -/
abbrev Answer := Completion × State

/-- An answer without a body. -/
def refuse (s : State) (status : Nat) : Answer := (complete status [], s)

/-- Changes the flash store. -/
def flashMod (s : State) (f : Flash → Flash) : State := { s with flash := f s.flash }

/-! ### What the dies do (R497, R500, R501) -/

/-- Counts what the dies did. -/
def mediaCount (s : State) (m : Media) : State :=
  let s1 := bumpBy (bumpBy s .fshCe 0 0 m.ce) .fshRetry 0 0 m.retry
  bumpBy (bumpBy s1 .fshRecon 0 0 m.recon) .fshGrownBad 0 0 m.retired

/-- The key of what the dies do under a command. -/
def mediaKey (session seq : Nat) : Nat := session * 2 ^ 64 + seq

/-- Takes what the dies do under a command: nothing unusual unless a row has said so. DESIGN CHOICE: log 127. -/
def mediaTake (s : State) (f : CmdFrame) : Media × State :=
  (fgetD Media.clean s.flash.media (mediaKey f.session f.seq),
   flashMod s (fun x => { x with media := ferase x.media (mediaKey f.session f.seq) }))

/-- The key of a sector of a partition. -/
def sectorKey (part n : Nat) : Nat := part * 2 ^ 40 + n

/-- The sectors that a range touches. -/
def sectorsOf (off n : Nat) : List Nat := if n = 0 then [] else rangeFrom (off / 4096) ((off + n - 1) / 4096 - off / 4096 + 1)

/-- Writes a byte string into flash bytes. -/
def flashPut (m : FMap Byte) (a : Nat) (bs : Bytes) : FMap Byte := memPut m a bs

/-- Bytes of a partition. -/
def flashBytes (m : FMap Byte) (a n : Nat) : Bytes := (List.range n).map (fun i => fgetD 0 m (a + i))

/-! ### FLASH_READ, FLASH_WRITE, FLASH_ERASE (R495, R509, R510) -/

/-- The size of a partition in bytes (R495). -/
def partSize (p : Nat) : Nat :=
  match p with
  | 3 => 1000000000000
  | 4 => 1600000000000
  | 5 => 300000000000
  | 6 => 100000000000
  | _ => 2 ^ 30

/-- The fields of a flash command body: PART, OFFSET, LENGTH. -/
def flashFields (b : Bytes) : Nat × Nat × Nat := (byteAt b 0, beAt b 8 8, beAt b 16 4)

/-- The reserved bytes of a flash command body are 0. -/
def flashReservedOk (b : Bytes) : Bool := allZero (slice b 1 7) && allZero (slice b 20 4)

/-- Sectors of a partition that the dies find uncorrectable while they are read are listed and counted (R497): bit i of `ue` names the i-th of
`secs`. -/
def mediaLost (s : State) (part : Nat) (secs : List Nat) (ue : Nat) : State :=
  let gone := (secs.zipIdx.filter (fun e => bitN ue e.2)).map Prod.fst
  bumpBy (flashMod s (fun x => { x with badSectors := gone.foldl (fun t i => finsert t (sectorKey part i) true) x.badSectors })) .fshUe 0 0
    gone.length

/-- A sector cannot be read: it is uncorrectable, or a degraded store had not rebuilt its stripe (R497, R501). DESIGN CHOICE: log 166. -/
def sectorLost (s : State) (part i : Nat) : Bool :=
  fgetD false s.flash.badSectors (sectorKey part i) || (s.flash.degraded && Config.stripeUnbuilt s.flash.degradedAt part i)

/-- The bytes of a range of LIBRARY, CAPTURE or SNAPSHOT. DESIGN CHOICE: log 126. -/
def flashData (s : State) (part off n : Nat) : Bytes :=
  match part with
  | 3 => (List.range n).map (fun i => Config.libraryByte s.flash.images (off + i))
  | 4 => flashBytes s.flash.cap off n
  | _ => flashBytes s.flash.snap off n

/-- The dies read a range that FLASH_READ names (R497). -/
def flashReadAt (s : State) (f : CmdFrame) (part off n : Nat) : Answer :=
  let (m, s1) := mediaTake s f
  let s2 := mediaLost (mediaCount s1 m) part (sectorsOf off n) m.ue
  if (sectorsOf off n).any (sectorLost s2 part) then refuse s2 0x60
  else (complete 0 (flashData s2 part off n), s2)

/-- FLASH_READ (R497, R507, R510). DEDUCED: log 125. -/
def flashRead (s : State) (f : CmdFrame) : Answer :=
  let b := f.body
  let (part, off, n) := flashFields b
  if decide (6 < part) then refuse s 0x0D
  else if !(decide (3 ≤ part) && decide (part ≤ 5)) then refuse s 0x11
  else if f.length != 24 || !flashReservedOk b || (n != 4096 && n != 8192) then refuse s 0x0D
  else if part = 4 && (decide (off < s.flash.tail) || decide (s.flash.head < off + n)) then refuse s 0x0D
  else if part != 4 && (off % 4096 != 0 || decide (partSize part < off + n)) then refuse s 0x0D
  else flashReadAt s f part off n

/-- The sectors of a range are whole again. -/
def clearSectors (m : FMap Bool) (part off n : Nat) : FMap Bool := (sectorsOf off n).foldl (fun t i => ferase t (sectorKey part i)) m

/-- Counts host bytes written to a partition. -/
def countWritten (x : Flash) (part n : Nat) : Flash := { x with written := fmodD 0 x.written part (fun v => v + n) }

/-- FLASH_WRITE (R498, R499, R501, R504, R510): one SNAPSHOT sector. DEDUCED: log 125. -/
def flashWrite (s : State) (f : CmdFrame) : Answer :=
  let b := f.body
  let (part, off, n) := flashFields b
  if decide (6 < part) then refuse s 0x0D
  else if part != 5 then refuse s 0x11
  else if f.length != 4120 || !flashReservedOk b || n != 4096 || off % 4096 != 0 || decide (partSize 5 < off + n) then refuse s 0x0D
  else if s.flash.degraded || s.flash.spent then refuse s 0x20
  else
    let (m, s1) := mediaTake s f
    let s2 := mediaCount s1 m
    (complete 0 [], flashMod s2 (fun x => countWritten { x with
      snap := flashPut (x.snap.filter (fun e => !(decide (off ≤ e.1) && decide (e.1 < off + 4096)))) off (slice b 24 4096)
      badSectors := clearSectors x.badSectors 5 off 4096 } 5 4096))

/-- FLASH_ERASE (R505, R510). DEDUCED: log 125. -/
def flashErase (s : State) (f : CmdFrame) : Answer :=
  let b := f.body
  let (part, off, n) := flashFields b
  let unit := 67108864
  if decide (6 < part) then refuse s 0x0D
  else if part != 4 && part != 5 then refuse s 0x11
  else if f.length != 24 || !flashReservedOk b then refuse s 0x0D
  else if part = 4 then
    if off != 0 || n != 0 then refuse s 0x0D
    else if s.flash.degraded then refuse s 0x20
    else
      (complete 0 [], flashMod s (fun x => { x with
        cap := [], head := 0, tail := 0, badSectors := x.badSectors.filter (fun e => e.1 / 2 ^ 40 != 4) }))
  else if off % unit != 0 || n % unit != 0 || n = 0 || decide (partSize 5 < off + n) then refuse s 0x0D
  else if s.flash.degraded then refuse s 0x20
  else
    (complete 0 [], flashMod s (fun x => { x with
      snap := x.snap.filter (fun e => !(decide (off ≤ e.1) && decide (e.1 < off + n)))
      badSectors := x.badSectors.filter (fun e =>
        !(e.1 / 2 ^ 40 == 5 && decide (off ≤ e.1 % 2 ^ 40 * 4096) && decide (e.1 % 2 ^ 40 * 4096 < off + n))) }))

/-! ### The capture log (R504–R507) -/

/-- The bytes of a segment of CAPTURE (R505). -/
def segBytes : Nat := 64000000

/-- A FLASH_READ of CAPTURE in execution pins the segment that begins at TAIL (R507). -/
def tailPinned (s : State) : Bool :=
  s.gct.sessions.any (fun e => e.2.exec.any (fun x =>
    x.cmd.opcode == 0x64 && byteAt x.cmd.body 0 == 4 && decide (beAt x.cmd.body 8 8 < s.flash.tail + segBytes) &&
      decide (s.flash.tail ≤ beAt x.cmd.body 8 8)))

/-- The oldest segment is discarded. DEDUCED: log 128. -/
def dropSegment (s : State) : State :=
  flashMod s (fun x => { x with tail := x.tail + segBytes, cap := x.cap.filter (fun e => decide (x.tail + segBytes ≤ e.1)) })

/-- Appends in the buffer take effect in order; one that needs a pinned segment waits (R505–R507). DEDUCED: log 128. -/
def drainAppends (s : State) (fuel : Nat) : State :=
  match fuel, s.flash.buf with
  | k + 1, bs :: rest =>
    if partSize 4 < s.flash.head + bs.length - s.flash.tail then
      if tailPinned s then s else drainAppends (dropSegment s) k
    else
      drainAppends (flashMod s (fun x => countWritten { x with
        cap := flashPut x.cap x.head bs, head := x.head + bs.length, buf := rest } 4 bs.length)) k
  | _, _ => s

/-- Steps that draining may take: each append, and the segments that it may discard. -/
def drainAll (s : State) : State := drainAppends s (3 * s.flash.buf.length + 3)

/-- The byte bucket at the present clock, in 1/1,250 bytes: a tick of 0.8 ns brings RATE_MBS of them (R506). -/
def bucketNow (s : State) : Nat :=
  Nat.min (s.flash.bucket + (s.clock - s.flash.bucketAt) * regF s .fshCapRate 0 0 0 11) (regF s .fshCapRate 0 0 16 8 * 1000000000 * 1250)

/-- The status of the last append of a core: true is DROPPED. -/
def appendStatus (s : State) (c : Nat) (dropped : Bool) : State :=
  { s with crown := { s.crown with dropped := finsert s.crown.dropped c dropped } }

/-- CAPTURE_APPEND (R504–R506): an append of 4 KiB to 1 MiB of core `c`. DEDUCED: log 128. -/
def captureAppend (s : State) (c : Nat) (bs : Bytes) : State :=
  if decide (16 ≤ c) || (fget? s.crown.held c).isSome || s.gct.stopped || decide (bs.length < 4096) || decide (1048576 < bs.length) then s
  else
    let b := bucketNow s
    let s1 := flashMod s (fun x => { x with bucket := b, bucketAt := s.clock })
    let held := s1.flash.buf.foldl (fun a x => a + x.length) 0
    if s1.flash.worn || s1.flash.degraded || decide (b < 1250 * bs.length) || decide (268435456 < held + bs.length) then
      appendStatus (bump s1 .fshCapDrop 0 0) c true
    else
      appendStatus (drainAll (flashMod s1 (fun x => { x with bucket := b - 1250 * bs.length, buf := x.buf ++ [bs] }))) c false

/-! ### Dies, scrub and wear (R500–R504, R508) -/

/-- DIE_LOSS (R501). -/
def dieLoss (s : State) (d : Nat) : State :=
  if decide (16 ≤ d) || bitN s.flash.lost d then s
  else
    let s1 := recovery (flashMod s (fun x => { x with lost := setBitN x.lost d true }))
    if s.flash.rebuild.isSome || decide (2 ≤ s.flash.rebuilt) then
      flashMod s1 (fun x => if x.degraded then x else { x with degraded := true, degradedAt := s.clock })
    else flashMod s1 (fun x => { x with rebuild := some d })

/-- STRIPE_REBUILD_COMPLETE (R501): the rebuild pauses during a global stop. -/
def stripeRebuildComplete (s : State) : State :=
  if s.gct.stopped || s.flash.rebuild.isNone then s
  else flashMod s (fun x => { x with rebuild := none, rebuilt := x.rebuilt + 1 })

/-- The setting of the retention scrub: SCRUB_EN in bit 0, DAYS above it. -/
def scrubSetting (s : State) : Nat := regF s .fshCtl 0 0 0 1 + 2 * regF s .fshScrub 0 0 0 8

/-- FLASH_SCRUB (R508, R500): the pass over every programmed block, once in each period, when the scrub is enabled: what the dies did,
uncorrectable sectors (partition × 2⁴⁰ + sector) and blocks relocated. DESIGN CHOICE: log 156. -/
def flashScrub (s : State) (m : Media) (ue : List Nat) (reloc : Nat) : State :=
  if s.gct.stopped then s
  else match scrubPassOf s 2 (1 + 2 * 7) (scrubSetting s) (fun v => msTicks (86400000 * (v / 2))) with
    | (some v, s1) =>
      if bitN v 0 then
        let s2 := bumpBy (bumpBy (mediaCount s1 m) .fshReloc 0 0 reloc) .fshUe 0 0 ue.length
        flashMod s2 (fun x => { x with badSectors := ue.foldl (fun t n => finsert t n true) x.badSectors })
      else s1
    | (none, s1) => s1

/-- WEAR_LEVELLING (R502, R504): where WL_EN allows it the manager moves cold data; the wear record takes the average and highest
erase counts and their spread, and spare blocks may run out. -/
def wearLevelling (s : State) (avg max spread : Nat) (spent : Bool) : State :=
  if s.gct.stopped then s
  else
    let v := Nat.min avg 65535 + Nat.min max 65535 * 2 ^ 16 + Nat.min spread 65535 * 2 ^ 32
    flashMod s (fun x => { x with wear := v, worn := x.worn || decide (10000 ≤ avg), spent := x.spent || spent })

/-! ### FSH registers that show the store -/

/-- FSH_STATUS. -/
def fshStatus (s : State) : Nat :=
  let x := s.flash
  x.lost % 65536 + b2n x.rebuild.isSome * 2 ^ 16 + x.rebuild.getD 0 % 16 * 2 ^ 17 + b2n x.degraded * 2 ^ 21 + b2n x.worn * 2 ^ 22

/-- HOST_MB of a partition. -/
def hostMb (s : State) (p : Nat) : Nat := fgetD 0 s.flash.written p / 1000000 % 2 ^ 48

/-! ### Signed images (19 R521, R522) -/

/-- The format, version or image ID, SVN and LENGTH of a signed image. -/
def imageFields (b : Bytes) : Nat × Nat × Nat × Nat := (leAt b 0 4, leAt b 4 4, leAt b 8 4, leAt b 16 8)

/-- The payload of a signed image. -/
def imagePayload (b : Bytes) : Bytes := b.drop 8192

/-- Part of R522 that both kinds share: format, reserved bytes, signature, digest and size. -/
def imageWhole (b : Bytes) (format : Nat) : Bool :=
  let (fmt, _, _, len) := imageFields b
  fmt == format && allZero (slice b 12 4) && allZero (slice b 7944 248) &&
    Config.slhVerify (slice b 56 32) (b.take 88) (slice b 88 7856) &&
    slice b 24 32 == sha256 (imagePayload b) && b.length == 8192 + len

/-- A firmware image verifies (R522). -/
def firmwareVerifies (s : State) (b : Bytes) : Bool :=
  let (_, _, svn, len) := imageFields b
  imageWhole b 1 && decide (1 ≤ len) && decide (len ≤ 536870912) && sha256 (slice b 56 32) == Config.firmwareSigner &&
    decide (s.trust.minSvn ≤ svn)

/-- A Lanvik image staged under an ID verifies (R522). DEDUCED: log 43. -/
def lanvikVerifies (s : State) (b : Bytes) (id : Nat) : Bool :=
  let (_, iid, svn, len) := imageFields b
  let h := sha256 (slice b 56 32)
  imageWhole b 2 && decide (1 ≤ len) && decide (len ≤ 17179869184) && iid != 0 && iid == id && svn == 0 &&
    (List.range 8).any (fun k => bitN s.trust.signerEn k && fgetD (zeros 32) s.trust.signers k == h)

/-- Counts a verification that failed. -/
def sigBad (s : State) : State := bump s .trsSigBad 0 0

/-! ### Staging (19 R523, R524) -/

/-- The image ID is used by a Grove slot, a Tier 2 set or the Tier 3 model (R524). -/
def imageInUse (s : State) (id : Nat) : Bool :=
  s.grove.slots.any (fun e => e.2.image == id) || s.tiers.models.any (fun e => e.2.image == id) ||
    s.tiers.tier3.any (fun m => m.image == id)

/-- An image has been put in use: a stage of its ID that is in progress learns of it (R524). -/
def imageUsed (s : State) (id : Nat) : State :=
  flashMod s (fun x => { x with stages := fmod x.stages id (fun t => { t with used := true }) })

/-- The bytes of LIBRARY that images and stages hold. -/
def libraryHeld (s : State) : Nat :=
  s.flash.images.foldl (fun a e => a + e.2.length) 0 + s.flash.stages.foldl (fun a e => a + e.2.total) 0

/-- A new stage. DEDUCED: log 129. -/
def Stage.begin_ (total : Nat) : Stage := { total := total, data := [], used := false, complete := false }

/-- The fields of a stage body: OP, SLOT, IMAGE_ID, OFFSET, and the rules that hold of every OP of this opcode (R523). DEDUCED: log 129. -/
def stageOk (f : CmdFrame) (firmware : Bool) : Bool :=
  let b := f.body
  let op := byteAt b 0
  let data := op == 2
  decide (24 ≤ f.length) && decide (1 ≤ op) && decide (op ≤ if firmware then 3 else 4) &&
    (if firmware then decide (byteAt b 1 ≤ 1) && beAt b 4 4 == 0 else byteAt b 1 == 0 && beAt b 4 4 != 0) &&
    allZero (slice b 2 2) && allZero (slice b 16 8) &&
    (if data then decide (32 ≤ f.length) && decide (f.length ≤ 8192) && f.length % 8 == 0 else f.length == 24) &&
    (if op == 3 || op == 4 then beAt b 8 8 == 0 else true)

/-- DATA of a stage (R524): none where it must be refused with BAD_ARGS. DEDUCED: log 143. -/
def stageData (t : Stage) (off : Nat) (bs : Bytes) : Option Stage :=
  if t.complete || off != t.data.length || decide (t.total < t.data.length + bs.length) then none
  else some { t with data := t.data ++ bs }

/-- IMAGE_STAGE BEGIN, DATA, FINISH and DELETE (R524). DEDUCED: log 129. -/
def imageStage (s : State) (f : CmdFrame) : Answer :=
  let b := f.body
  let id := beAt b 4 4
  let off := beAt b 8 8
  if !stageOk f false then refuse s 0x0D
  else match byteAt b 0 with
    | 1 =>
      let s1 := flashMod s (fun x => { x with stages := ferase x.stages id })
      if imageInUse s id then refuse s 0x0C
      else if partSize 3 < libraryHeld s1 + off then refuse s1 0x20
      else (complete 0 [], flashMod s1 (fun x => { x with stages := finsert x.stages id (Stage.begin_ off) }))
    | 2 =>
      match (fget? s.flash.stages id).bind (fun t => stageData t off (b.drop 24)) with
      | none => refuse s 0x0D
      | some t =>
        if s.flash.spent then refuse s 0x20 else
        let (m, s1) := mediaTake s f
        (complete 0 [], flashMod (mediaCount s1 m) (fun x =>
          countWritten { x with stages := finsert x.stages id t } 3 (f.length - 24)))
    | 3 =>
      match fget? s.flash.stages id with
      | none => refuse s 0x0D
      | some t =>
        let erased := flashMod s (fun x => { x with stages := ferase x.stages id })
        if t.data.length != t.total then refuse s 0x0D
        else if t.used then refuse erased 0x0C
        else if lanvikVerifies s t.data id then
          (complete 0 [], flashMod erased (fun x => { x with images := finsert x.images id t.data }))
        else refuse (sigBad erased) 0x70
    | _ =>
      if (fget? s.flash.stages id).isNone && (fget? s.flash.images id).isNone then refuse s 0x0D
      else if imageInUse s id && (fget? s.flash.images id).isSome then refuse s 0x0C
      else (complete 0 [], flashMod s (fun x => { x with stages := ferase x.stages id, images := ferase x.images id }))

/-- FIRMWARE_STAGE BEGIN, DATA and FINISH (R524). -/
def firmwareStage (s : State) (f : CmdFrame) : Answer :=
  let b := f.body
  let slot := byteAt b 1
  let off := beAt b 8 8
  let put (s : State) (t : Option Stage) : State := flashMod s (fun x => { x with fw := fput x.fw slot t })
  if !stageOk f true then refuse s 0x0D
  else match byteAt b 0 with
    | 1 =>
      if slot = s.trust.runSlot then refuse s 0x0C
      else if partSize 0 < off then refuse s 0x20
      else (complete 0 [], put s (some (Stage.begin_ off)))
    | 2 =>
      match (fget? s.flash.fw slot).bind (fun t => stageData t off (b.drop 24)) with
      | none => refuse s 0x0D
      | some t =>
        if s.flash.spent then refuse s 0x20 else
        let (m, s1) := mediaTake s f
        (complete 0 [], flashMod (mediaCount (put s1 (some t)) m) (fun x => countWritten x slot (f.length - 24)))
    | _ =>
      match fget? s.flash.fw slot with
      | none => refuse s 0x0D
      | some t =>
        if t.complete || t.data.length != t.total then refuse s 0x0D
        else if firmwareVerifies s t.data then (complete 0 [], put s (some { t with complete := true }))
        else refuse (sigBad (put s none)) 0x70

end Sys2Proof.Machine
end

