-- ==== Sys2Proof/Machine/Modes.lean ====
section
/-!
DEFINITION. The module modes (01 R56–R59; 15 R432): MODE_SET, MODE_GET and the effect points.
-/

namespace Sys2Proof.Machine

/-- A MODE_SET item (R432): MODE, SCOPE, VALUE, DL1, DL2. -/
structure ModeItem where
  mode : Nat
  scope : Nat
  value : Nat
  dl1 : Nat
  dl2 : Nat
deriving DecidableEq, Repr

/-- What validating the items of one command has met so far: a status, Apex in force or set, and the Tending share. -/
structure ModeCheck where
  status : Nat
  apex : Bool
  share : Nat
deriving DecidableEq, Repr

/-- Item `i` of a body. -/
def modeItem (b : Bytes) (i : Nat) : ModeItem :=
  let o := 8 + 16 * i
  { mode := byteAt b o, scope := byteAt b (o + 1), value := beAt b (o + 4) 4, dl1 := beAt b (o + 8) 4, dl2 := beAt b (o + 12) 4 }

/-- Active cores outside the reserve (R59). DEDUCED: log 112. -/
def schedulableCores (s : State) : Nat := ((List.range 1280).filter (coreActive s)).length - 32

/-- A share leaves fewer than 64 cores for Tier 2 and Tier 3 (R59). DEDUCED: log 112. -/
def shareTooLarge (s : State) (share : Nat) : Bool :=
  let n := schedulableCores s
  decide (n - n * share / 100 < 64)

/-- The fields of an item lie within their rules (R432). -/
def modeFieldsOk (b : Bytes) (i : Nat) : Bool :=
  let x := modeItem b i
  let plain := x.scope == 0xFF && x.dl1 == 0 && x.dl2 == 0
  allZero (slice b (8 + 16 * i + 2) 2) &&
    (match x.mode with
      | 1 => (decide (x.scope < 64) || x.scope == 0xFF) && (x.value == 1 || x.value == 2) && decide (1000 ≤ x.dl1) &&
          decide (x.dl1 ≤ 100000) && decide (10000 ≤ x.dl2) && decide (x.dl2 ≤ 1000000) && decide (x.dl1 ≤ x.dl2)
      | 2 => plain && decide (x.value ≤ 1)
      | 3 => plain && decide (x.value ≤ 1)
      | 4 => plain && decide (x.value ≤ 1)
      | 5 => plain && (x.value == 500 || x.value == 750 || x.value == 1000)
      | 6 => plain && decide (x.value ≤ 50)
      | _ => false)

/-- One more item is validated, the earlier ones applied (R432). -/
def checkItem (s : State) (b : Bytes) (c : ModeCheck) (i : Nat) : ModeCheck :=
  let x := modeItem b i
  if c.status ≠ 0 then c
  else if !modeFieldsOk b i then { c with status := 0x0D }
  else if x.mode = 3 then
    if x.value = 1 ∧ !(s.tiers.tier3.any (fun m => m.apex) && c.share == 0) then { c with status := 0x20 }
    else { c with apex := x.value == 1 }
  else if x.mode = 6 then
    if (x.value ≠ 0 ∧ c.apex) ∨ shareTooLarge s x.value then { c with status := 0x20 } else { c with share := x.value }
  else c

/-- The status of a MODE_SET body (R432). -/
def modeStatus (s : State) (f : CmdFrame) : Nat :=
  let b := f.body
  let n := beAt b 0 2
  let m := s.gct.modes
  if decide (n < 1) || decide (8 < n) || !allZero (slice b 2 6) || f.length != 8 + 16 * n then 0x0D
  else
    let apex := m.tier3 == 1 || modePending m 3 == some 1
    let share := if m.share = 0 then (modePending m 6).getD 0 else m.share
    ((List.range n).foldl (checkItem s b) { status := 0, apex := apex, share := share }).status

/-- The service mode that an item names. -/
def ModeItem.service (x : ModeItem) : ServiceMode := { value := x.value, dl1 := x.dl1, dl2 := x.dl2 }

/-- An item applies (R58, R432): the service mode holds for packets admitted from now on; another mode waits for its effect point and
replaces an earlier change of that mode. -/
def applyItem (m : Modes) (x : ModeItem) : Modes :=
  if x.mode = 1 then
    let ports := if x.scope = 0xFF then List.range 64 else [x.scope]
    { m with service := ports.foldl (fun t p => fsetD ServiceMode.reset t p x.service) m.service }
  else { m with pending := m.pending.filter (fun e => e.1 != x.mode) ++ [(x.mode, x.value)] }

/-- MODE_SET (R432). DEDUCED: log 111. -/
def modeSet (s : State) (f : CmdFrame) : Answer :=
  let st := modeStatus s f
  if st ≠ 0 then refuse s st
  else (complete 0 [], modesMod s (fun m => ((List.range (beAt f.body 0 2)).map (modeItem f.body)).foldl applyItem m))

/-- The effect point of a mode has come (01 R56): compute scheduling changes at each core's own scheduling boundaries (10 R321), so the module
may follow at once; the Tier 3 mode when no Tier 3 work is in flight; determinism and the Tending share when no Tending section is active,
for the boundary of an epoch brings them itself; the power cap at once. DEDUCED: log 111. -/
def modeDue (s : State) (code : Nat) : Bool :=
  match code with
  | 3 => !tier3Busy s
  | 4 => !s.tiers.tend.active
  | 6 => !s.tiers.tend.active
  | _ => true

/-- MODE_TAKES_EFFECT (R56, R58): the pending change of a mode reaches its effect point. The power cap is a mode of the service island;
the other effect points lie in islands that stop at a cut. -/
def modeTakesEffect (s : State) (code : Nat) : State :=
  if (s.gct.stopped && code != 5) || !modeDue s code then s
  else
    let s1 := modesMod s (fun m => m.take code)
    if code = 3 then { s1 with tiers := { s1.tiers with escal := s1.tiers.escal.map (fun e => { e with held := false }) } } else s1

/-- An item of 16 bytes, big-endian; `flag` stands in byte 2. DEDUCED: log 113. -/
def ModeItem.bytes (x : ModeItem) (flag : Nat) : Bytes :=
  [byteOf x.mode, byteOf x.scope, byteOf flag, 0] ++ beBytes 4 x.value ++ beBytes 4 x.dl1 ++ beBytes 4 x.dl2

/-- The items of the modes in force: one for each logical port, then one for each other mode. DEDUCED: log 113. -/
def modeItems (s : State) : List ModeItem :=
  let m := s.gct.modes
  let plain (c v : Nat) : ModeItem := { mode := c, scope := 0xFF, value := v, dl1 := 0, dl2 := 0 }
  (List.range 64).map (fun p =>
    let x := fgetD ServiceMode.reset m.service p
    { mode := 1, scope := p, value := x.value, dl1 := x.dl1, dl2 := x.dl2 }) ++
    [plain 2 m.scheduling, plain 3 m.tier3, plain 4 m.determinism, plain 5 m.cap, plain 6 m.share]

/-- MODE_GET (02 R75): a header with COUNT, the items of the modes in force, and the pending changes with byte 2 set to 1. DEDUCED: log 113. -/
def modeGet (s : State) : Completion :=
  let now := modeItems s
  let later := s.gct.modes.pending.map (fun e => ({ mode := e.1, scope := 0xFF, value := e.2, dl1 := 0, dl2 := 0 } : ModeItem))
  complete 0 (beBytes 2 (now.length + later.length) ++ zeros 6 ++ now.flatMap (fun x => x.bytes 0) ++ later.flatMap (fun x => x.bytes 1))

end Sys2Proof.Machine
end

