-- ==== Sys2Proof/Machine/Parser.lean ====
section
/-!
DEFINITION. The parser of the packet ports (03 R107–R117): header recognition and lengths, depth limits and stop reasons,
extracted fields, fragments and the flow key (03 R117, 05 R153).
-/

namespace Sys2Proof.Machine

/-! Stop reasons (03 table "Stop reasons"). -/
def stopEnd : Nat := 0
def stopMalformed : Nat := 1
def stopFragment : Nat := 2
def stopEncrypted : Nat := 3
def stopByteLimit : Nat := 4
def stopHdrLimit : Nat := 5
def stopTunnelLimit : Nat := 6
def stopStackLimit : Nat := 7
def stopUnknown : Nat := 8

/-- What follows a header: nothing more, for a reason; a header to be judged at an offset and a level, where the stack rule of 03 R112
may already stand against it; or one at an offset and a level that the table "Header list" does not have. -/
inductive NextHdr where
  | stop (reason : Nat)
  | unknown (off level : Nat)
  | header (code off level : Nat) (stackFull : Bool)
deriving DecidableEq, Repr

/-- The available bytes of a frame: its first BYTES × 64 bytes and none past the last byte before its FCS (03 R111). -/
def parseLimit (c : ParseCfg) (b : Bytes) : Nat := min b.length (64 * c.bytes)

/-- The reason for a header that begins past the available bytes (03 R111). -/
def pastLimit (c : ParseCfg) (b : Bytes) : Nat :=
  if b.length ≤ 64 * c.bytes then stopMalformed else stopByteLimit

/-- Walks the GTP-U extension chain: at most four headers are skipped, each by its own length field in units of four bytes (03 R108); of several PDU
session containers the last one's QFI counts. DESIGN CHOICE: log 72. Answers the length so far, whether a length field places the end before the fixed
part, the QFI of a PDU session container, whether a fifth extension is announced, and whether the chain runs past the available bytes. -/
def gtpChain (b : Bytes) (limit p : Nat) (fuel ln nt qfi : Nat) : Nat × Bool × Nat × Bool × Bool :=
  if nt = 0 then (ln, false, qfi, false, false)
  else match fuel with
    | 0 => (ln, false, qfi, true, false)
    | k + 1 =>
      if limit ≤ p + ln then (ln, false, qfi, false, true)
      else
        let el := 4 * byteAt b (p + ln)
        if el = 0 then (ln, true, qfi, false, false)
        else if limit < p + ln + el then (ln + el, false, qfi, false, true)
        else
          let qfi' := if nt = 0x85 then byteAt b (p + ln + 2) % 64 else qfi
          gtpChain b limit p k (ln + el) (byteAt b (p + ln + el - 1)) qfi'

/-- The GTP-U header at `p` (03 R108): as `gtpChain`. -/
def gtpWalk (b : Bytes) (limit p : Nat) : Nat × Bool × Nat × Bool × Bool :=
  let b0 := byteAt b p
  let fixed := if b0 % 8 = 0 then 8 else 12
  if limit < p + fixed then (fixed, false, 0, false, true)
  else if bitN b0 2 then gtpChain b limit p 4 12 (byteAt b (p + 11)) 0
  else (fixed, false, 0, false, false)

/-- The length of the header `code` at `p` and whether a condition of 03 R110 whose bytes are available fails; no length
when a length field lies beyond the available bytes (03 R111). DESIGN CHOICE: log 72. -/
def hdrMeasure (c : ParseCfg) (b : Bytes) (code p : Nat) : Option Nat × Bool :=
  let limit := parseLimit c b
  let b0 := byteAt b p
  match code with
  | 0x01 => (some 14, false)
  | 0x02 => (some 4, false)
  | 0x03 => (some 4, false)
  | 0x04 => if limit < p + 3 then (none, false) else (some (if bitN (byteAt b (p + 2)) 5 then 16 else 8), false)
  | 0x05 => (some 4, false)
  | 0x06 => (some (max (b0 % 16) 5 * 4), b0 / 16 != 4 || decide (b0 % 16 < 5))
  | 0x07 => (some 40, b0 / 16 != 6)
  | 0x08 => if limit < p + 2 then (none, false) else (some ((byteAt b (p + 1) + 1) * 8), false)
  | 0x09 => if limit < p + 2 then (none, false) else (some ((byteAt b (p + 1) + 1) * 8), false)
  | 0x0A => (some 8, false)
  | 0x0B => if limit < p + 2 then (none, false) else (some ((byteAt b (p + 1) + 1) * 8), false)
  | 0x0C => (some 8, false)
  | 0x0D =>
    if limit < p + 13 then (none, false)
    else (some (max (byteAt b (p + 12) / 16) 5 * 4), decide (byteAt b (p + 12) / 16 < 5))
  | 0x0E => (some 4, false)
  | 0x0F => (some 4, false)
  | 0x10 => (some 8, false)
  | 0x11 => (some (8 + 4 * (b0 % 64)), false)
  | 0x12 => (some (4 + 4 * (b2n (bitN b0 7) + b2n (bitN b0 5) + b2n (bitN b0 4))), false)
  | 0x13 => match gtpWalk b limit p with
    | (ln, bad, _, _, past) => (if past then none else some ln, bad)
  | 0x14 => (some 8, false)
  | _ =>
    if bitN b0 7 then (if limit < p + 6 then none else some (7 + byteAt b (p + 5)), false)
    else (some (1 + c.dcidLen), false)

/-- The header that an ethertype at offset `t` announces (03 R107): tags and the SecTAG begin at the ethertype, the others
behind it; an ethertype that is not wholly available stops as a header there would. `tags` counts the consecutive VLAN tags parsed so
far (03 R112). DESIGN CHOICE: log 72. -/
def nextByEthertype (c : ParseCfg) (b : Bytes) (t level tags : Nat) : NextHdr :=
  if parseLimit c b < t + 2 then .stop (pastLimit c b)
  else match beAt b t 2 with
    | 0x8100 => .header 0x02 t level (decide (4 ≤ tags))
    | 0x88A8 => .header 0x03 t level (decide (4 ≤ tags))
    | 0x88E5 => .header 0x04 t level false
    | 0x8847 => .header 0x05 (t + 2) level false
    | 0x8848 => .header 0x05 (t + 2) level false
    | 0x0800 => .header 0x06 (t + 2) level false
    | 0x86DD => .header 0x07 (t + 2) level false
    | _ => .unknown (t + 2) level

/-- The header that the first nibble of an MPLS or GTP-U payload announces (03 "Header list"). -/
def nextByNibble (c : ParseCfg) (b : Bytes) (p level : Nat) : NextHdr :=
  if parseLimit c b ≤ p then .unknown p level
  else match byteAt b p / 16 with
    | 4 => .header 0x06 p level false
    | 6 => .header 0x07 p level false
    | _ => .unknown p level

/-- The header that an IP protocol or next-header value announces (03 R107); `v6` after IPv6 or one of its extensions. -/
def nextByProtocol (c : ParseCfg) (b : Bytes) (v6 : Bool) (proto p level : Nat) : NextHdr :=
  match v6, proto with
  | true, 0 => .header 0x08 p level false
  | true, 43 => .header 0x09 p level false
  | true, 44 => .header 0x0A p level false
  | true, 60 => .header 0x0B p level false
  | true, 58 => .header 0x0F p level false
  | false, 1 => .header 0x0E p level false
  | _, 17 => .header 0x0C p level false
  | _, 6 => .header 0x0D p level false
  | _, 50 => .header 0x14 p level false
  | _, 4 => .header 0x06 p (level + 1) false
  | _, 41 => .header 0x07 p (level + 1) false
  | _, 47 => if p + 2 ≤ parseLimit c b && byteAt b (p + 1) % 8 != 0 then .unknown p level else .header 0x12 p level false
  | _, _ => .unknown p level

/-- The header that GENEVE or GRE carries by its protocol type (03 R108). -/
def nextByTunnelType (t p level : Nat) (gre : Bool) : NextHdr :=
  match t with
  | 0x6558 => .header 0x01 p (level + 1) false
  | 0x0800 => .header 0x06 p (level + 1) false
  | 0x86DD => .header 0x07 p (level + 1) false
  | 0x8847 => if gre then .header 0x05 p (level + 1) false else .unknown p (level + 1)
  | _ => .unknown p (level + 1)

/-- What follows a UDP header: a tunnel by its destination port, else QUIC by either port, else nothing (03 R107–R109). -/
def nextByUdp (c : ParseCfg) (b : Bytes) (p level : Nat) : NextHdr :=
  let sp := beAt b p 2
  let dp := beAt b (p + 2) 2
  let q := p + 8
  if dp != 0 && dp == c.vxlan then .header 0x10 q level false
  else if dp != 0 && dp == c.geneve then .header 0x11 q level false
  else if dp != 0 && dp == c.gtpu then .header 0x13 q level false
  else if dp != 0 && dp == c.esp then
    if q + 4 ≤ parseLimit c b && beAt b q 4 == 0 then .stop stopEnd else .header 0x14 q level false
  else if c.quic.any (fun x => x != 0 && (x == sp || x == dp)) then .header 0x15 q level false
  else .stop stopEnd

/-- What follows a header that has been parsed (03 R107–R109, R112, R115). `tags` and `labels` count the consecutive VLAN
tags and MPLS labels up to and including it. DESIGN CHOICE: log 72. -/
def nextHdr (c : ParseCfg) (b : Bytes) (e : HdrEntry) (tags labels : Nat) : NextHdr :=
  let p := e.off
  let q := e.off + e.len
  match e.code with
  | 0x01 => nextByEthertype c b (p + 12) e.level 0
  | 0x02 => nextByEthertype c b (p + 4) e.level tags
  | 0x03 => nextByEthertype c b (p + 4) e.level tags
  | 0x04 => if bitN (byteAt b (p + 2)) 3 then .stop stopEncrypted else nextByEthertype c b q e.level 0
  | 0x05 => if bitN (byteAt b (p + 2)) 0 then nextByNibble c b q e.level else .header 0x05 q e.level (decide (8 ≤ labels))
  | 0x06 =>
    if beAt b (p + 6) 2 % 0x4000 != 0 then .stop stopFragment
    else nextByProtocol c b false (byteAt b (p + 9)) q e.level
  | 0x07 => nextByProtocol c b true (byteAt b (p + 6)) q e.level
  | 0x08 => nextByProtocol c b true (byteAt b p) q e.level
  | 0x09 => nextByProtocol c b true (byteAt b p) q e.level
  | 0x0A => .stop stopFragment
  | 0x0B => nextByProtocol c b true (byteAt b p) q e.level
  | 0x0C => nextByUdp c b p e.level
  | 0x10 => .header 0x01 q (e.level + 1) false
  | 0x11 => nextByTunnelType (beAt b (p + 2) 2) q e.level false
  | 0x12 => nextByTunnelType (beAt b (p + 2) 2) q e.level true
  | 0x13 =>
    match gtpWalk b (parseLimit c b) p with
    | (_, _, _, many, _) =>
      if byteAt b (p + 1) != 0xFF then .stop stopEnd
      else if many then .stop stopStackLimit
      else nextByNibble c b q (e.level + 1)
  | _ => .stop stopEnd

/-- The reasons that stand against parsing header `code` at `p` (03 R110–R113), the lowest code first. -/
def hdrReasons (c : ParseCfg) (b : Bytes) (count deepest code p level : Nat) (stackFull : Bool) : List Nat :=
  let limit := parseLimit c b
  let m := hdrMeasure c b code p
  let fits := match m.1 with
    | some ln => decide (p + ln ≤ limit)
    | none => false
  (if limit ≤ p then (if pastLimit c b = stopMalformed then [stopMalformed] else []) else if m.2 then [stopMalformed] else [])
  ++ (if limit ≤ p then (if pastLimit c b = stopByteLimit then [stopByteLimit] else []) else if fits then [] else [stopByteLimit])
  ++ (if c.hdrMax < count + 1 then [stopHdrLimit] else [])
  ++ (if deepest < level && c.tunnelMax < level then [stopTunnelLimit] else [])
  ++ (if stackFull then [stopStackLimit] else [])

/-- The reason at a next header that the table does not have (03 R111–R113): the lowest that applies. DESIGN CHOICE: log 72. -/
def unknownReason (c : ParseCfg) (b : Bytes) (deepest p level : Nat) : Nat :=
  if parseLimit c b ≤ p then pastLimit c b
  else if deepest < level && c.tunnelMax < level then stopTunnelLimit
  else stopUnknown

/-- The parser's walk (03 R111–R113): entries in parse order, and the stop reason. DESIGN CHOICE: log 72. -/
def parseWalk (c : ParseCfg) (b : Bytes) (fuel : Nat) (acc : List HdrEntry) (deepest tags labels : Nat) (n : NextHdr) :
    List HdrEntry × Nat :=
  match fuel, n with
  | 0, _ => (acc, stopHdrLimit)
  | _ + 1, .stop r => (acc, r)
  | _ + 1, .unknown p level => (acc, unknownReason c b deepest p level)
  | k + 1, .header code p level full =>
    match hdrReasons c b acc.length deepest code p level full with
    | r :: _ => (acc, r)
    | [] =>
      let e : HdrEntry := { code := code, level := level, off := p, len := (hdrMeasure c b code p).1.getD 0 }
      let tags' := if code = 0x02 || code = 0x03 then tags + 1 else 0
      let labels' := if code = 0x05 then labels + 1 else 0
      parseWalk c b k (acc ++ [e]) (max deepest level) tags' labels' (nextHdr c b e tags' labels')

/-- The first header of a code at a level, in parse order. -/
def findHdr (es : List HdrEntry) (code level : Nat) : Option HdrEntry :=
  es.find? (fun e => e.code == code && e.level == level)

/-- The offset of the ethertype that ends the tag stack behind an Ethernet header (03 R107). -/
def ethertypeOff (es : List HdrEntry) (e : HdrEntry) : Nat :=
  let later := es.dropWhile (fun x => x != e)
  let tags := (later.drop 1).takeWhile (fun x => (x.code == 0x02 || x.code == 0x03) && x.level == e.level)
  e.off + 12 + 4 * tags.length

/-- The ones'-complement sum of the 16-bit words of a header, folded (03 R110). -/
def onesSum (bs : Bytes) : Nat :=
  let total := (chunks bs 2 (ceilDiv bs.length 2)).foldl (fun a w => a + beNat (padTo w 2)) 0
  let once := total % 65536 + total / 65536
  once % 65536 + once / 65536

/-- checksum-good of an IPv4 header (03 R110). -/
def ipv4ChecksumGood (b : Bytes) (e : HdrEntry) : Bool := onesSum (slice b e.off e.len) == 0xFFFF

/-- The class, type and length of GENEVE option number `k` of the first four, absent ones 0 (03 "Header list"). -/
def geneveOptions (b : Bytes) (q stop : Nat) (k : Nat) : List (Nat × Nat) :=
  match k with
  | 0 => []
  | j + 1 =>
    if q + 4 ≤ stop then
      let ol := byteAt b (q + 3) % 32
      (beAt b q 2, 16) :: (byteAt b (q + 2), 8) :: (ol, 5) :: geneveOptions b (q + 4 + 4 * ol) stop j
    else (0, 16) :: (0, 8) :: (0, 5) :: geneveOptions b q stop j

/-- The widths of the extracted fields of a header, in the order of 03 "Header list". -/
def fieldWidths (code : Nat) : List Nat :=
  match code with
  | 0x01 => [48, 48, 16]
  | 0x02 => [3, 1, 12]
  | 0x03 => [3, 1, 12]
  | 0x04 => [6, 2, 6, 32, 64]
  | 0x05 => [20, 3, 1, 8]
  | 0x06 => [6, 2, 16, 16, 1, 1, 13, 8, 8, 32, 32, 6, 1]
  | 0x07 => [8, 20, 16, 8, 8, 128, 128]
  | 0x08 => [8, 8]
  | 0x09 => [8, 8, 8]
  | 0x0A => [8, 13, 1, 32]
  | 0x0B => [8, 8]
  | 0x0C => [16, 16, 16]
  | 0x0D => [16, 16, 32, 32, 4, 9, 16]
  | 0x0E => [8, 8]
  | 0x0F => [8, 8]
  | 0x10 => [8, 24]
  | 0x11 => [2, 6, 1, 1, 16, 24, 16, 8, 5, 16, 8, 5, 16, 8, 5, 16, 8, 5]
  | 0x12 => [1, 1, 1, 16, 32, 32, 24, 8]
  | 0x13 => [3, 5, 8, 32, 16, 6]
  | 0x14 => [32, 32]
  | 0x15 => [1, 1, 32, 8, 160, 8]
  | _ => []

/-- The values of the extracted fields of the header `e`, in the order of 03 "Header list". -/
def hdrFields (r : ParseRec) (limit : Nat) (b : Bytes) (e : HdrEntry) : List Nat :=
  let p := e.off
  let b0 := byteAt b p
  match e.code with
  | 0x01 => [beAt b p 6, beAt b (p + 6) 6, beAt b (ethertypeOff r.entries e) 2]
  | 0x02 => [beAt b (p + 2) 2 / 0x2000, beAt b (p + 2) 2 / 0x1000 % 2, beAt b (p + 2) 2 % 0x1000]
  | 0x03 => [beAt b (p + 2) 2 / 0x2000, beAt b (p + 2) 2 / 0x1000 % 2, beAt b (p + 2) 2 % 0x1000]
  | 0x04 => [byteAt b (p + 2) / 4, byteAt b (p + 2) % 4, byteAt b (p + 3) % 64, beAt b (p + 4) 4,
             if bitN (byteAt b (p + 2)) 5 then beAt b (p + 8) 8 else 0]
  | 0x05 => [beAt b p 4 / 0x1000, beAt b p 4 / 0x200 % 8, beAt b p 4 / 0x100 % 2, byteAt b (p + 3)]
  | 0x06 => [byteAt b (p + 1) / 4, byteAt b (p + 1) % 4, beAt b (p + 2) 2, beAt b (p + 4) 2,
             beAt b (p + 6) 2 / 0x4000 % 2, beAt b (p + 6) 2 / 0x2000 % 2, beAt b (p + 6) 2 % 0x2000, byteAt b (p + 8),
             byteAt b (p + 9), beAt b (p + 12) 4, beAt b (p + 16) 4, (b0 % 16 - 5) * 4, b2n (ipv4ChecksumGood b e)]
  | 0x07 => [beAt b p 4 / 0x100000 % 256, beAt b p 4 % 0x100000, beAt b (p + 4) 2, byteAt b (p + 6), byteAt b (p + 7),
             beAt b (p + 8) 16, beAt b (p + 24) 16]
  | 0x08 => [b0, byteAt b (p + 1)]
  | 0x09 => [b0, byteAt b (p + 2), byteAt b (p + 3)]
  | 0x0A => [b0, beAt b (p + 2) 2 / 8, byteAt b (p + 3) % 2, beAt b (p + 4) 4]
  | 0x0B => [b0, byteAt b (p + 1)]
  | 0x0C => [beAt b p 2, beAt b (p + 2) 2, beAt b (p + 4) 2]
  | 0x0D => [beAt b p 2, beAt b (p + 2) 2, beAt b (p + 4) 4, beAt b (p + 8) 4, byteAt b (p + 12) / 16,
             beAt b (p + 12) 2 % 512, beAt b (p + 14) 2]
  | 0x0E => [b0, byteAt b (p + 1)]
  | 0x0F => [b0, byteAt b (p + 1)]
  | 0x10 => [b0, beAt b (p + 4) 3]
  | 0x11 => [b0 / 64, b0 % 64, byteAt b (p + 1) / 128, byteAt b (p + 1) / 64 % 2, beAt b (p + 2) 2, beAt b (p + 4) 3]
            ++ (geneveOptions b (p + 8) (p + e.len) 4).map (·.1)
  | 0x12 =>
    let c := b2n (bitN b0 7)
    let k := b2n (bitN b0 5)
    let s := b2n (bitN b0 4)
    let key := if k = 1 then beAt b (p + 4 + 4 * c) 4 else 0
    let nv := k == 1 && beAt b (p + 2) 2 == 0x6558
    [c, k, s, beAt b (p + 2) 2, key, if s = 1 then beAt b (p + 4 + 4 * c + 4 * k) 4 else 0,
     if nv then key / 256 else 0, if nv then key % 256 else 0]
  | 0x13 =>
    [b0 / 32, b0 % 32, byteAt b (p + 1), beAt b (p + 4) 4, if bitN b0 1 then beAt b (p + 8) 2 else 0,
     (gtpWalk b limit p).2.2.1]
  | 0x14 => [beAt b p 4, beAt b (p + 4) 4]
  | 0x15 =>
    if bitN b0 7 then
      let dl := byteAt b (p + 5)
      [1, b0 / 64 % 2, beAt b (p + 1) 4, dl, beNat (padTo (slice b (p + 6) (min dl 20)) 20), byteAt b (p + 6 + dl)]
    else [0, b0 / 64 % 2, 0, 0, beNat (padTo (slice b (p + 1) r.dcidLen) 20), 0]
  | _ => []

/-- The first value of field `idx` of header `code` at `level`, if the header was parsed there (04 R134). -/
def parseField (r : ParseRec) (b : Bytes) (code level idx : Nat) : Option Nat :=
  (findHdr r.entries code level).map (fun e => (hdrFields r b.length b e).getD idx 0)

/-- The header that carries the first header of `level`, if `level` is an inner one (03 R112). -/
def encapsulator (es : List HdrEntry) (level : Nat) : Option HdrEntry :=
  (es.takeWhile (fun e => e.level != level)).getLast?

/-- TUNNEL_ID of a level: the VNI, the GRE key or the TEID of the header that carries it; not valid otherwise (05 R153,
03 R108). -/
def tunnelId (r : ParseRec) (b : Bytes) (level : Nat) : Option Nat :=
  if level = 0 then none
  else match encapsulator r.entries level with
    | some e =>
      let f := hdrFields r b.length b e
      match e.code with
      | 0x10 => some (f.getD 1 0)
      | 0x11 => some (f.getD 5 0)
      | 0x12 => if f.getD 1 0 = 1 then some (f.getD 4 0) else none
      | 0x13 => some (f.getD 3 0)
      | _ => none
    | none => none

/-- The last next-header value of an IP header chain at a level, or its protocol (05 R153, 03 R116). -/
def keyProto (r : ParseRec) (b : Bytes) (level : Nat) : Nat :=
  match (r.entries.filter (fun e => e.level == level && (0x06 ≤ e.code && e.code ≤ 0x0B))).getLast? with
  | some e => if e.code = 0x06 then byteAt b (e.off + 9) else if e.code = 0x07 then byteAt b (e.off + 6) else byteAt b e.off
  | none => 0

/-- SPORT and DPORT of an IP key (05 R153): TCP or UDP ports, or ICMP type and code with no destination port. -/
def keyPorts (r : ParseRec) (b : Bytes) (level : Nat) : Nat × Nat :=
  match r.entries.find? (fun e => e.level == level && (0x0C ≤ e.code && e.code ≤ 0x0F)) with
  | some e => if e.code ≤ 0x0D then (beAt b e.off 2, beAt b (e.off + 2) 2) else (beAt b e.off 2, 0)
  | none => (0, 0)

/-- VID of the innermost tag at a level, 0 without a tag (05 R153). -/
def keyVid (r : ParseRec) (b : Bytes) (level : Nat) : Nat :=
  match (r.entries.filter (fun e => e.level == level && (e.code == 0x02 || e.code == 0x03))).getLast? with
  | some e => beAt b (e.off + 2) 2 % 0x1000
  | none => 0

/-- The 44-byte flow key at a level, and whether it is a non-IP key (05 R153, 03 R116). -/
def flowKeyAt (r : ParseRec) (b : Bytes) (level : Nat) : Bytes × Bool :=
  let tid := tunnelId r b level
  let tail (proto flags : Nat) : Bytes :=
    beBytes 4 (tid.getD 0) ++ [byteOf proto, byteOf (flags + 4 * level + (if tid.isSome then 0x20 else 0))] ++
      beBytes 2 (keyVid r b level)
  match r.entries.find? (fun e => e.level == level && (e.code == 0x06 || e.code == 0x07)) with
  | some e =>
    let fragHere := r.frag && r.fragLevel == level
    let ports := if fragHere then (0, 0) else keyPorts r b level
    let v6 := e.code == 0x07
    let addrs := if v6 then slice b (e.off + 8) 32 else zeros 12 ++ slice b (e.off + 12) 4 ++ zeros 12 ++ slice b (e.off + 16) 4
    (addrs ++ beBytes 2 ports.1 ++ beBytes 2 ports.2 ++ tail (keyProto r b level) (b2n v6 + (if fragHere then 2 else 0)), false)
  | none =>
    let mac := findHdr r.entries 0x01 level
    let src := match mac with | some e => slice b (e.off + 6) 6 | none => zeros 6
    let dst := match mac with | some e => slice b e.off 6 | none => zeros 6
    let et := match mac with | some e => beAt b (ethertypeOff r.entries e) 2 | none => 0
    (zeros 10 ++ src ++ zeros 10 ++ dst ++ beBytes 2 et ++ zeros 2 ++ tail 0 0x10, true)

/-- The key level (03 R116, R117): the selected level, or the deepest one reached where that is shallower, and never deeper
than a fragment's level. -/
def keyLevelOf (c : ParseCfg) (deepest : Nat) (frag : Bool) (fragLevel : Nat) : Nat :=
  let sel := match c.keyLevel with
    | 0 => 0
    | 2 => min c.keyN deepest
    | _ => deepest
  if frag then min sel fragLevel else sel

/-- The parse record of a frame (without its FCS) under the settings sampled at its acceptance (03 R106–R117). -/
def parseFrame (c : ParseCfg) (b : Bytes) : ParseRec :=
  let w := parseWalk c b 26 [] 0 0 0 (.header 0x01 0 0 false)
  let deepest := w.1.foldl (fun a e => max a e.level) 0
  let frag := w.2 == stopFragment
  let fragLevel := (w.1.getLast?.map (·.level)).getD 0
  let kl := keyLevelOf c deepest frag fragLevel
  let r0 : ParseRec := { entries := w.1, stop := w.2, deepest := deepest, frag := frag, fragLevel := fragLevel,
                         dcidLen := c.dcidLen, keyLevel := kl, key := [], nonIp := false }
  let k := flowKeyAt r0 b kl
  { r0 with key := k.1, nonIp := k.2 }

end Sys2Proof.Machine
end

