-- ==== Sys2Proof/Machine/Canopy.lean ====
section
/-!
DEFINITION. The Canopy rule pipeline (04): table definitions and entries, keys, lookups, action primitives, header edits, the
end of a pass, RULE_WRITE items and RULE_SWAP.
-/

namespace Sys2Proof.Machine

/-! ### Status codes (00 R29) -/

def stDone : Nat := 0x00
def stNotReady : Nat := 0x01
def stStale : Nat := 0x02
def stWrongState : Nat := 0x0C
def stBadArgs : Nat := 0x0D
def stAuthFail : Nat := 0x10
def stRoleDenied : Nat := 0x11
def stCapacity : Nat := 0x20
def stNodeCapacity : Nat := 0x21
def stXlateFault : Nat := 0x30
def stProtFault : Nat := 0x31
def stRetried : Nat := 0x40
def stChecksumFail : Nat := 0x41
def stFabricLost : Nat := 0x50
def stPoisoned : Nat := 0x60
def stSignatureBad : Nat := 0x70

/-! ### Packets -/

/-- Packet `k`. -/
def pktGet (s : State) (k : Nat) : Option Packet := fget? s.canopy.pkts k

/-- A packet record as it is stored: one that enters another stage takes the next turn. -/
def pktTurned (s : State) (k : Nat) (p : Packet) : Packet :=
  if (pktGet s k).all (fun old => old.stage != p.stage) then { p with turn := s.canopy.turns } else p

/-- Replaces packet `k`; one that comes to another stage takes the next turn there (03 R104; 04 R127, R128): packets leave a stage in the
order in which they came to it. -/
def pktSet (s : State) (k : Nat) (p : Packet) : State :=
  let moves := (pktGet s k).all (fun old => old.stage != p.stage)
  { s with canopy := { s.canopy with pkts := finsert s.canopy.pkts k (pktTurned s k p), turns := s.canopy.turns + b2n moves } }

/-- Packet `k` leaves the module: its cells are freed, and its quota returns, when it is the last record that shares them
(03 R98, 04 R143). DESIGN CHOICE: log 81. -/
def pktLeave (s : State) (k : Nat) : State :=
  match pktGet s k with
  | none => s
  | some p =>
    let rest := ferase s.canopy.pkts k
    let s1 := { s with canopy := { s.canopy with pkts := rest } }
    if rest.any (fun e => e.2.grp == p.grp) then s1
    else
      let s2 := freeCells s1 p.cells
      setPortHeld s2 p.lport (portHeld s2 p.lport - p.cells.length)

/-- The first packet that satisfies `f`, in the order in which packets came to their stages. -/
def pktFirst (s : State) (f : Packet → Bool) : Option (Nat × Packet) :=
  (s.canopy.pkts.filter (fun e => f e.2)).foldl (fun best e => match best with
    | none => some e
    | some b => if e.2.turn < b.2.turn then some e else some b) none

/-! ### Metadata (04 R137) -/

/-- The metadata field at bits `[lo + w - 1 : lo]`. -/
def metaF (p : Packet) (lo w : Nat) : Nat := bitsN p.metaw.toNat lo w

/-- Replaces a metadata field. -/
def metaPut (p : Packet) (lo w v : Nat) : Packet := { p with metaw := BitVec.ofNat 256 (setBitsN p.metaw.toNat lo w v) }

/-- Bit `i` is written by the module alone (RO in 04 "Stage metadata"). -/
def metaReadOnly (i : Nat) : Bool := i == 22 || (decide (36 ≤ i) && decide (i < 128))

/-- Bit `i` is set-only: DROP, RECIRC or MIRROR. -/
def metaSetOnly (i : Nat) : Bool := decide (30 ≤ i) && decide (i ≤ 35)

/-- Writes `w` bits at `lo`, set-only bits as R139 says. -/
def metaWrite (p : Packet) (lo w v : Nat) (second : Bool) : Packet :=
  (List.range w).foldl (fun q j =>
    let i := lo + j
    let b := bitN v j
    if metaSetOnly i then (if b && !(second && i == 31) then metaPut q i 1 1 else q) else metaPut q i 1 (b2n b)) p

/-! ### Tables and keys (04 R130–R136) -/

/-- The widest key of a kind. -/
def kindKeyMax (kind : Nat) : Nat :=
  match kind with
  | 1 => 320 | 2 => 640 | 3 => 160 | 4 => 160 | _ => 0

/-- The entries of a kind's pool per bank. -/
def kindPool (kind : Nat) : Nat :=
  match kind with
  | 1 => 1048576 | 2 => 32768 | 3 => 524288 | 4 => 16384 | _ => 0

/-- The width of a selector's field bits. -/
def Selector.fieldWidth (x : Selector) : Nat := if x.src = 1 then (fieldWidths x.a).getD x.c 0 else x.b

/-- The width that a selector contributes to a key (R134): a parse field and its valid bit, or metadata bits. -/
def Selector.width (x : Selector) : Nat := if x.src = 1 then x.fieldWidth + 1 else x.b

/-- The width of a key. -/
def keyWidth (sels : List Selector) : Nat := sels.foldl (fun a x => a + x.width) 0

/-- The level that a selector names: 0–3 absolute, 4 the flow-key level, 5 the innermost (R147). -/
def levelOf (r : ParseRec) (l : Nat) : Nat :=
  match l with
  | 4 => r.keyLevel
  | 5 => r.deepest
  | n => n

/-- The bits that a selector contributes to a packet's key (R134, R135). -/
def selectorBits (p : Packet) (r : ParseRec) (x : Selector) : Nat :=
  if x.src = 1 then
    match parseField r p.bytes x.a (levelOf r x.b) x.c with
    | some v => (v % 2 ^ x.fieldWidth) * 2 + 1
    | none => 0
  else metaF p x.a x.b

/-- A packet's key in a table. -/
def keyOf (p : Packet) (r : ParseRec) (sels : List Selector) : Nat :=
  sels.foldl (fun a x => a * 2 ^ x.width + selectorBits p r x) 0

/-- An entry matches a key (04 "Table kinds"). -/
def entryMatches (t : CanopyTable) (key : Nat) (e : TableEntry) : Bool :=
  let w := keyWidth t.sels
  match t.kind with
  | 1 => key == e.key
  | 2 => key &&& e.mask == e.key &&& e.mask
  | 3 => key >>> (w - e.plen) == e.key >>> (w - e.plen)
  | _ =>
    let fw := (t.sels.headD { src := 2, a := 0, b := 0, c := 0 }).fieldWidth
    let lo := w - fw
    decide (e.key >>> lo ≤ key >>> lo) && decide (key >>> lo ≤ e.mask >>> lo) && key % 2 ^ lo == e.key % 2 ^ lo

/-- The rank by which the best of several matching entries is chosen (R130). DESIGN CHOICE: log 70. -/
def entryRank (t : CanopyTable) (e : TableEntry) : Nat := if t.kind = 3 then e.plen else e.prio

/-- The winner among matching entries in insertion order: the highest rank, the earlier one on a tie (R131), of two LPM entries of equal
PREFIX_LEN too. DESIGN CHOICE: log 70. -/
def bestEntry (t : CanopyTable) (es : List TableEntry) : Option TableEntry :=
  es.foldl (fun best e => match best with
    | none => some e
    | some b => if entryRank t b < entryRank t e then some e else some b) none

/-- Looks a key up. -/
def tableLookup (t : CanopyTable) (key : Nat) : Option TableEntry := bestEntry t (t.entries.filter (entryMatches t key))

/-- The key of table `t` in bank `b` among the defined tables. -/
def tableId (t b : Nat) : Nat := 2 * t + b

/-- The definition of table `t` in bank `b`. -/
def tableGet (s : State) (t b : Nat) : Option CanopyTable := fget? s.canopy.tables (tableId t b)

/-- Defines or undefines table `t` in bank `b`. -/
def tablePut (s : State) (t b : Nat) (v : Option CanopyTable) : State :=
  { s with canopy := { s.canopy with tables := fput s.canopy.tables (tableId t b) v } }

/-- The standby bank of table `t` (R145). -/
def standbyBank (s : State) (t : Nat) : Nat := 1 - b2n (bitN s.canopy.active t)

/-- The packets pinned to bank `b` of table `t` (R146). -/
def pinCount (s : State) (t b : Nat) : Nat :=
  (s.canopy.pkts.filter (fun e => e.2.pinned && b2n (bitN e.2.active t) == b)).length

/-! ### Action primitives (04 R139) -/

/-- OP of a primitive. -/
def actOp (a : Nat) : Nat := bitsN a 0 8
/-- P of a primitive. -/
def actP (a : Nat) : Nat := bitsN a 8 8
/-- IMM of a primitive. -/
def actImm (a : Nat) : Nat := bitsN a 16 48

/-- A SET_META primitive is acceptable: width 1–32, inside the word, no RO bit, no value bit above the width, no reserved value
of a TIER or SERVICE field that it writes whole (R139, 00 R26). DESIGN CHOICE: log 71. -/
def setMetaOk (p imm : Nat) : Bool :=
  let w := bitsN imm 40 8
  let v := bitsN imm 0 32
  let covers (lo : Nat) : Bool := decide (p ≤ lo) && decide (lo + 2 ≤ p + w) && bitsN v (lo - p) 2 == 3
  decide (1 ≤ w) && decide (w ≤ 32) && decide (p + w ≤ 256) && bitsN imm 32 8 == 0 && decide (v < 2 ^ w)
    && (List.range w).all (fun j => !metaReadOnly (p + j)) && !covers 26 && !covers 28

/-- A primitive that RULE_WRITE accepts (R139): a listed OP, listed operand values, reserved bits 0. -/
def actOk (a : Nat) : Bool :=
  let p := actP a
  let imm := actImm a
  match actOp a with
  | 0x00 => p == 0 && imm == 0
  | 0x01 => setMetaOk p imm
  | 0x02 => p == 0 && decide (imm < 2 ^ 16)
  | 0x03 => decide (p < 64) && imm == 0
  | 0x04 => decide (p < 8) && imm == 0
  | 0x05 => decide (p < 3) && imm == 0
  | 0x06 => decide (p < 3) && imm == 0
  | 0x07 => decide (p < 4) && imm == 0
  | 0x08 => p == 0 && imm == 0
  | 0x09 => p == 0 && imm == 0
  | 0x10 => decide (p < 4) && decide (imm < 2 ^ 6)
  | 0x11 => decide (p < 4) && decide (imm < 2 ^ 2)
  | 0x12 => decide (p < 4) && imm == 0
  | 0x13 => p == 0
  | 0x14 => p == 0
  | 0x16 =>
    let n := bitsN imm 32 8
    decide (1 ≤ p) && decide (p ≤ 0x15) && decide (1 ≤ n) && decide (n ≤ 4) && decide (bitsN imm 0 32 < 2 ^ (8 * n))
  | 0x20 => decide (p < 2) && decide (imm < 2 ^ 16)
  | 0x21 => p == 0 && imm == 0
  | 0x22 => p == 0 && decide (imm < 2 ^ 31)
  | 0x23 => p == 0 && decide (imm < 2 ^ 16)
  | 0x24 => p == 0 && imm == 0
  | 0x25 => p == 0 && imm == 0
  | _ => false

/-! ### Header edits (04 R141, R142) -/

/-- The view of a packet before any edit; a frame that arrived with a shim shows it as header code 0 at offset 12 (R137, R149). -/
def viewOf (p : Packet) (shimIn : Bool) : EditView :=
  let es := match p.prs with
    | some r => r.entries
    | none => []
  let shim : List HdrEntry := if shimIn then [{ code := 0, level := 0, off := 12, len := 12 }] else []
  { work := p.bytes, spans := es ++ shim, growth := 0, edits := 0, shimPushed := false, shimFill := false }

/-- A shim stands at offset 12. DEDUCED: log 69. -/
def EditView.hasShim (v : EditView) : Bool := v.spans.any (fun e => e.code == 0)

/-- Where tags begin: behind the addresses, and behind any shim (R149). -/
def EditView.tagStart (v : EditView) : Nat := if v.hasShim then 24 else 12

/-- The first present header among `codes` at `level`, in frame order (R142). -/
def EditView.find (v : EditView) (codes : List Nat) (level : Nat) : Option HdrEntry :=
  (v.spans.filter (fun e => decide (e.code ∈ codes) && e.level == level)).foldl (fun best e => match best with
    | none => some e
    | some b => if e.off < b.off then some e else some b) none

/-- The number of present headers among `codes` at level 0. -/
def EditView.count (v : EditView) (codes : List Nat) : Nat :=
  (v.spans.filter (fun e => decide (e.code ∈ codes) && e.level == 0)).length

/-- The number of consecutive tags from offset `t` on (03 R107, R112). -/
def EditView.tagRun (v : EditView) (t fuel : Nat) : Nat :=
  match fuel with
  | 0 => 0
  | n + 1 =>
    if v.spans.any (fun x => (x.code == 0x02 || x.code == 0x03) && x.off == t) then 1 + v.tagRun (t + 4) n else 0

/-- The offset of the ethertype that ends the tag stack of an Ethernet header (03 R107). -/
def EditView.ethertypeAt (v : EditView) (e : HdrEntry) : Nat :=
  let t := if e.level = 0 then v.tagStart else e.off + 12
  t + 4 * v.tagRun t v.spans.length

/-- Overwrites bytes of the working frame. -/
def EditView.put (v : EditView) (off : Nat) (bs : Bytes) : EditView := { v with work := splice v.work off bs }

/-- The IPv4 checksum update of RFC 1624 for one 16-bit word that changes from `m` to `m'` (R141). -/
def checksumStep (hc m m' : Nat) : Nat :=
  let t := (65535 - hc) + (65535 - m) + m'
  let t1 := t % 65536 + t / 65536
  65535 - (t1 % 65536 + t1 / 65536) % 65536

/-- Rewrites bytes `[off, off + bs.length)` of the IPv4 header `e`, with its checksum updated for every header word that changes,
unless the bytes written take in the checksum itself (R141). -/
def EditView.putV4 (v : EditView) (e : HdrEntry) (off : Nat) (bs : Bytes) : EditView :=
  let v1 := v.put (e.off + off) bs
  if off < 12 && 10 < off + bs.length then v1
  else
    let words := (List.range (e.len / 2)).filter (fun i => decide (off < 2 * i + 2) && decide (2 * i < off + bs.length))
    let hc := words.foldl (fun c i => checksumStep c (beAt v.work (e.off + 2 * i) 2) (beAt v1.work (e.off + 2 * i) 2))
      (beAt v.work (e.off + 10) 2)
    v1.put (e.off + 10) (beBytes 2 hc)

/-- Inserts bytes at `off`; headers from `off` on move. -/
def EditView.insert (v : EditView) (off shiftFrom : Nat) (bs : Bytes) (new : HdrEntry) : EditView :=
  { v with
    work := v.work.take off ++ bs ++ v.work.drop off
    spans := v.spans.map (fun e => if shiftFrom ≤ e.off then { e with off := e.off + bs.length } else e) ++ [new]
    growth := v.growth + bs.length }

/-- Removes the header `h` of `n` bytes. -/
def EditView.remove (v : EditView) (h : HdrEntry) (n : Nat) : EditView :=
  { v with
    work := v.work.take h.off ++ v.work.drop (h.off + n)
    spans := (v.spans.filter (fun e => e != h)).map (fun e => if h.off < e.off then { e with off := e.off - n } else e)
    growth := v.growth - n }

/-- An insertion of `n` bytes keeps the net growth within 64 (R142). -/
def EditView.canGrow (v : EditView) (n : Nat) : Bool := decide (v.growth + n ≤ 64)

/-- DSCP or ECN of an IP header: `w` bits at bit `lo` of the eight-bit field (R139). -/
def editTos (v : EditView) (level lo w val : Nat) : Option EditView :=
  match v.find [0x06, 0x07] level with
  | none => none
  | some e =>
    if e.code = 0x06 then some (v.putV4 e 1 [byteOf (setBitsN (byteAt v.work (e.off + 1)) lo w val)])
    else
      let x := beAt v.work e.off 2
      some (v.put e.off (beBytes 2 (setBitsN x 4 8 (setBitsN (bitsN x 4 8) lo w val))))

/-- WRITE_BYTES (R139): offsets 12 and up of an Ethernet header address the bytes from its final ethertype on (03 R107). DEDUCED: log 69. -/
def editWrite (v : EditView) (code level off : Nat) (bs : Bytes) : Option EditView :=
  match v.find [code] level with
  | none => none
  | some e =>
    let at_ (o : Nat) : Nat := if code = 0x01 && 12 ≤ o then v.ethertypeAt e + (o - 12) else e.off + o
    if v.work.length < at_ (off + bs.length - 1) + 1 then none
    else if code = 0x06 then some (v.putV4 e off bs)
    else some ((List.range bs.length).foldl (fun v j => v.put (at_ (off + j)) [bs.getD j 0]) v)

/-- PUSH_MPLS (R139): a new top label at level 0, or, with no stack, one behind the tags with S = 1 and ethertype 0x8847. -/
def editPushMpls (v : EditView) (label tc ttl : Nat) : Option EditView :=
  if 8 ≤ v.count [0x05] || !v.canGrow 4 then none
  else match v.find [0x05] 0 with
    | some e =>
      some (v.insert e.off e.off (beBytes 4 (label * 4096 + tc * 512 + ttl)) { code := 0x05, level := 0, off := e.off, len := 4 })
    | none =>
      match v.find [0x01] 0 with
      | none => none
      | some eth =>
        let t := v.ethertypeAt eth
        let v1 := v.put t (beBytes 2 0x8847)
        some (v1.insert (t + 2) t (beBytes 4 (label * 4096 + tc * 512 + 256 + ttl)) { code := 0x05, level := 0, off := t + 2, len := 4 })

/-- POP_MPLS (R139). DEDUCED: log 69. -/
def editPopMpls (v : EditView) (etype : Nat) : Option EditView :=
  match v.find [0x05] 0 with
  | none => none
  | some e =>
    let bottom := bitN (byteAt v.work (e.off + 2)) 0
    let v1 := v.remove e 4
    some (if bottom then v1.put (e.off - 2) (beBytes 2 etype) else v1)

/-- One header edit applied to the frame as left by the edits before it; `none` where it is refused for its header or its
growth (R142). DEC_TTL of a TTL of 0 or 1 does not come here. -/
def applyEdit (v : EditView) (shimType a : Nat) : Option EditView :=
  let p := actP a
  let imm := actImm a
  match actOp a with
  | 0x10 => editTos v p 2 6 imm
  | 0x11 => editTos v p 0 2 imm
  | 0x12 =>
    match v.find [0x06, 0x07] p with
    | none => none
    | some e =>
      if e.code = 0x06 then some (v.putV4 e 8 [byteOf (byteAt v.work (e.off + 8) - 1)])
      else some (v.put (e.off + 7) [byteOf (byteAt v.work (e.off + 7) - 1)])
  | 0x13 => some (v.put 0 (beBytes 6 imm))
  | 0x14 => some (v.put 6 (beBytes 6 imm))
  | 0x16 => editWrite v p (bitsN imm 46 2) (bitsN imm 40 6) (beBytes (bitsN imm 32 8) (bitsN imm 0 32))
  | 0x20 =>
    if 4 ≤ v.tagRun v.tagStart v.spans.length || !v.canGrow 4 then none
    else
      some (v.insert v.tagStart v.tagStart (beBytes 2 (if p = 0 then 0x8100 else 0x88A8) ++ beBytes 2 imm)
        { code := 2 + p, level := 0, off := v.tagStart, len := 4 })
  | 0x21 =>
    match v.find [0x02, 0x03] 0 with
    | none => none
    | some e => some (v.remove e 4)
  | 0x22 => editPushMpls v (bitsN imm 0 20) (bitsN imm 20 3) (bitsN imm 23 8)
  | 0x23 => editPopMpls v imm
  | 0x24 =>
    if v.hasShim then some { v.put 12 (beBytes 2 shimType) with shimPushed := true, shimFill := true }
    else if !v.canGrow 12 then none
    else
      let v1 := v.insert 12 12 (beBytes 2 shimType ++ zeros 10) { code := 0, level := 0, off := 12, len := 12 }
      some { v1 with shimPushed := true, shimFill := true }
  | 0x25 =>
    match v.find [0x00] 0 with
    | none => none
    | some e => if beAt v.work 12 2 = shimType then some { v.remove e 12 with shimPushed := false, shimFill := false } else none
  | _ => none

/-- The view of a packet as its edits have left it. -/
def Packet.viewNow (p : Packet) : EditView :=
  match p.view with
  | some v => v
  | none => viewOf p (bitN p.metaw.toNat 39)

/-- The TTL or hop limit that a DEC_TTL finds. -/
def ttlOf (v : EditView) (level : Nat) : Option Nat :=
  (v.find [0x06, 0x07] level).map (fun e => if e.code = 0x06 then byteAt v.work (e.off + 8) else byteAt v.work (e.off + 7))

/-- Appends an edit to the packet's list, or refuses it and counts it in CNP_EDIT_REFUSED (R141, R142). -/
def appendEdit (s : State) (p : Packet) (a : Nat) : State × Packet :=
  let v := p.viewNow
  if 16 ≤ v.edits then (bump s .cnpEditRefused 0 0, p)
  else match applyEdit v p.shimType a with
    | some v' => (s, { p with view := some { v' with edits := v.edits + 1 } })
    | none => (bump s .cnpEditRefused 0 0, p)

/-- Applies one action primitive (R139). -/
def applyAct (second : Bool) (sp : State × Packet) (a : Nat) : State × Packet :=
  let (s, p) := sp
  let ignoredRecirc := bump s .cnpRecircIgnored 0 0
  match actOp a with
  | 0x00 => (s, p)
  | 0x01 =>
    let w := bitsN (actImm a) 40 8
    let v := bitsN (actImm a) 0 32
    let hits := second && decide (actP a ≤ 31) && decide (31 < actP a + w) && bitN v (31 - actP a)
    (if hits then ignoredRecirc else s, metaWrite p (actP a) w v second)
  | 0x02 => (s, metaPut p 0 16 (actImm a))
  | 0x03 => (s, metaPut p 16 6 (actP a))
  | 0x04 => (s, metaPut p 23 3 (actP a))
  | 0x05 => (s, if second then p else metaPut p 26 2 (actP a))
  | 0x06 => (s, metaPut p 28 2 (actP a))
  | 0x07 => (s, metaPut p (32 + actP a % 4) 1 1)
  | 0x08 => (s, metaPut p 30 1 1)
  | 0x09 => if second then (ignoredRecirc, p) else (s, metaPut p 31 1 1)
  | 0x12 =>
    match ttlOf p.viewNow (actP a) with
    | some t => if t ≤ 1 then (bump s .cnpTtlDrop 0 0, metaPut p 30 1 1) else appendEdit s p a
    | none => appendEdit s p a
  | _ => appendEdit s p a

/-- The lookup of one table of a stage and its actions (R126, R131, R139); a table that the packet's bank does not define does
nothing. -/
def runTable (second : Bool) (key : Option Nat) (t : Nat) (sp : State × Packet) : State × Packet :=
  match tableGet sp.1 t (b2n (bitN sp.2.active t)), key with
  | some d, some k =>
    match tableLookup d k with
    | some e => e.acts.foldl (applyAct second) (bump sp.1 .cnpHit t 0, sp.2)
    | none => d.dflt.foldl (applyAct second) (bump sp.1 .cnpMiss t 0, sp.2)
  | _, _ => sp

/-- The key of a packet in table `t`, if its bank defines the table. -/
def stageKey (s : State) (p : Packet) (t : Nat) : Option Nat :=
  match tableGet s t (b2n (bitN p.active t)), p.prs with
  | some d, some r => some (keyOf p r d.sels)
  | _, _ => none

/-- One stage (R126): both lookups read the metadata at the stage's entry, then slot 0's actions apply before slot 1's. -/
def runStage (second : Bool) (sp : State × Packet) (n : Nat) : State × Packet :=
  let k0 := stageKey sp.1 sp.2 (2 * n)
  let k1 := stageKey sp.1 sp.2 (2 * n + 1)
  runTable second k1 (2 * n + 1) (runTable second k0 (2 * n) sp)

/-- Runs a list of stages. -/
def runStages (second : Bool) (sp : State × Packet) (ns : List Nat) : State × Packet := ns.foldl (runStage second) sp

/-! ### Entry into a pass (04 R127, R137, R138, R146) -/

/-- The metadata at first-pass T0 (04 "Stage metadata"). -/
def metaStart (p : Packet) (shimType : Nat) : BitVec 256 :=
  let shimIn := beAt p.bytes 12 2 == shimType
  BitVec.ofNat 256 (p.egressMap % 64 * 2 ^ 16 + 1 * 2 ^ 26 + b2n shimIn * 2 ^ 39)

/-- The packet enters first-pass T0: the ACTIVE vector and the shim's TPID are copied, its banks are pinned (R146, R150). -/
def enterFirst (s : State) (p : Packet) : Packet :=
  let shimType := regF s .cnpShim 0 0 0 16
  { p with active := s.canopy.active, pinned := true, shimType := shimType, metaw := metaStart p shimType,
           view := none,
           mirrors := (List.range 4).map (fun i => regN s .cnpMirror i 0) }

/-- The flow fields of the metadata, from the lookup's answer (R136, R137). -/
def metaFlow (p : Packet) : Packet :=
  match p.lookup with
  | some a => metaPut (metaPut (metaPut p 37 1 (b2n a.hit)) 38 1 (b2n (!a.hit))) 96 32 a.state
  | none => p

/-- The packet enters second-pass T0: RECIRC and MIRROR clear, PASS set, CLASS := V_CLASS (R138). -/
def enterSecond (p : Packet) : Packet :=
  let p1 := metaPut (metaPut p 31 5 0) 36 1 1
  metaPut p1 0 16 (metaF p1 48 16)

/-! ### The end of a pass (04 R140, R143, R149) -/

/-- The 12 bytes of the verdict shim, from the metadata at the end of the pass; PASS_MODE is set at transmission (R149). -/
def shimBytes (p : Packet) (passMode : Bool) : Bytes :=
  let flags := 16 + 4 * metaF p 43 1 + 2 * b2n passMode + metaF p 42 1
  beBytes 2 p.shimType ++ [byteOf flags, byteOf (metaF p 40 2)] ++ beBytes 2 (metaF p 0 16) ++ beBytes 2 (metaF p 64 16)
    ++ beBytes 2 (metaF p 80 16) ++ beBytes 2 (p.lport % 64 * 1024 + pipeOf p.lport * 128)

/-- Fills a shim that this pass pushed. -/
def fillShim (p : Packet) : Packet :=
  match p.view with
  | some v => if v.shimFill then { p with view := some { v.put 12 (shimBytes p false) with shimFill := false } } else p
  | none => p

/-- Sets PASS_MODE in a shim of the module's own (R149). -/
def markPassMode (v : EditView) (on : Bool) : EditView :=
  if v.shimPushed then v.put 14 [byteOf (setBitN (byteAt v.work 14) 1 on)] else v

/-- One mirror copy (R143): it shares the cells, carries the edits as they stand, and goes to the session's port. -/
def mirrorCopy (s : State) (p : Packet) (i : Nat) : State :=
  let m := p.mirrors.getD i 0
  if metaF p (32 + i) 1 = 1 && bitN m 6 then
    let v := p.viewNow
    let c := { p with stage := .mirror (bitsN m 0 6) (bitsN m 16 14), pinned := false, hold := none,
                      view := some (markPassMode v p.passMode) }
    { s with canopy := { s.canopy with pkts := finsert s.canopy.pkts s.canopy.nextPkt c, nextPkt := s.canopy.nextPkt + 1 } }
  else s

/-- The mirror copies of a pass. DESIGN CHOICE: log 81. -/
def mirrorCopies (s : State) (p : Packet) : State := (List.range 4).foldl (fun t i => mirrorCopy t p i) s

/-! ### RULE_WRITE and RULE_SWAP (04 R145–R148) -/

/-- A table selector as R147 encodes it. -/
def readSelector (b : Bytes) : Selector := { src := byteAt b 0, a := byteAt b 1, b := byteAt b 2, c := byteAt b 3 }

/-- A selector that DEFINE accepts for table `t` (R134, R136, R147). -/
def selectorOk (t : Nat) (x : Selector) : Bool :=
  match x.src with
  | 1 => decide (1 ≤ x.a) && decide (x.a ≤ 0x15) && decide (x.b ≤ 5) && decide (x.c < (fieldWidths x.a).length)
  | 2 =>
    let reads (lo hi : Nat) : Bool := decide (x.a ≤ hi) && decide (lo < x.a + x.b)
    decide (1 ≤ x.b) && decide (x.b ≤ 64) && decide (x.a + x.b ≤ 256) && x.c == 0
      && !(decide (t < 4) && (reads 37 38 || reads 96 127))
  | _ => false

/-- The four primitives at `off` of an item. -/
def readActs (b : Bytes) (off : Nat) : List Nat := (List.range 4).map (fun i => beAt b (off + 8 * i) 8)

/-- The entries that a bank's other tables of a kind reserve. -/
def poolUsed (s : State) (kind bank t : Nat) : Nat :=
  s.canopy.tables.foldl (fun a e => if e.2.kind = kind && e.1 % 2 = bank && e.1 / 2 ≠ t then a + e.2.size else a) 0

/-- The key of a range table is acceptable: a range field of 1–32 bits and at most 128 exact bits (R130). -/
def rangeOk (kind : Nat) (sels : List Selector) : Bool :=
  let fw := (sels.headD { src := 2, a := 0, b := 0, c := 0 }).fieldWidth
  kind != 4 || (decide (1 ≤ fw) && decide (fw ≤ 32) && decide (keyWidth sels - fw ≤ 128))

/-- DEFINE (R147). -/
def ruleDefine (s : State) (t : Nat) (item : Bytes) : Nat × State :=
  let bank := standbyBank s t
  let kind := byteAt item 0
  let nsel := byteAt item 1
  let size := beAt item 4 4
  let acts := readActs item 8
  let sels := (List.range nsel).map (fun i => readSelector (slice item (40 + 4 * i) 4))
  if kindPool kind = 0 || nsel = 0 || 16 < nsel || beAt item 2 2 ≠ 0 || size = 0 || kindPool kind < size || !acts.all actOk
      || !sels.all (selectorOk t) || !allZero (slice item (40 + 4 * nsel) (64 - 4 * nsel)) || kindKeyMax kind < keyWidth sels
      || !rangeOk kind sels then (stBadArgs, s)
  else if kindPool kind < poolUsed s kind bank t + size then (stCapacity, s)
  else (stDone, tablePut s t bank (some { kind := kind, size := size, sels := sels, dflt := acts, entries := [] }))

/-- An INSERT or DELETE item as an entry; PRIORITY and PREFIX_LEN are read only for the kinds that have them. DESIGN CHOICE: log 70. -/
def readEntry (kind : Nat) (item : Bytes) : TableEntry :=
  { key := beAt item 0 80, mask := beAt item 80 80, prio := if kind = 2 || kind = 4 then beAt item 160 2 else 0,
    plen := if kind = 3 then byteAt item 162 else 0, acts := readActs item 168 }

/-- The item's match part and reserved bits are acceptable for the table (R147). DESIGN CHOICE: log 70. -/
def entryOk (d : CanopyTable) (item : Bytes) (e : TableEntry) : Bool :=
  let w := keyWidth d.sels
  let lo := w - (d.sels.headD { src := 2, a := 0, b := 0, c := 0 }).fieldWidth
  decide (e.key < 2 ^ w) && allZero (slice item 163 5) &&
    match d.kind with
    | 1 => e.mask == 0
    | 2 => decide (e.mask < 2 ^ w)
    | 3 => e.mask == 0 && decide (e.plen ≤ w)
    | _ => decide (e.mask < 2 ^ w) && e.mask % 2 ^ lo == 0 && decide (e.key >>> lo ≤ e.mask >>> lo)

/-- Two entries of a table have the same match part (R131). -/
def sameMatch (a b : TableEntry) : Bool := a.key == b.key && a.mask == b.mask && a.plen == b.plen

/-- INSERT (R131, R147). -/
def ruleInsert (s : State) (t : Nat) (item : Bytes) : Nat × State :=
  let bank := standbyBank s t
  match tableGet s t bank with
  | none => (if allZero (slice item 163 5) && (readActs item 168).all actOk then stWrongState else stBadArgs, s)
  | some d =>
    let e := readEntry d.kind item
    if !entryOk d item e || !e.acts.all actOk then (stBadArgs, s)
    else if d.entries.any (sameMatch e) then
      (stDone, tablePut s t bank (some { d with entries := d.entries.map (fun x => if sameMatch e x then e else x) }))
    else if d.size ≤ d.entries.length then (stCapacity, s)
    else (stDone, tablePut s t bank (some { d with entries := d.entries ++ [e] }))

/-- DELETE (R147). -/
def ruleDelete (s : State) (t : Nat) (item : Bytes) : Nat × State :=
  let bank := standbyBank s t
  match tableGet s t bank with
  | none => (if allZero (slice item 163 5) then stWrongState else stBadArgs, s)
  | some d =>
    let e := readEntry d.kind item
    if !entryOk d item e || !d.entries.any (sameMatch e) then (stBadArgs, s)
    else (stDone, tablePut s t bank (some { d with entries := d.entries.filter (fun x => !sameMatch e x) }))

/-- SET_DEFAULT (R147). -/
def ruleSetDefault (s : State) (t : Nat) (item : Bytes) : Nat × State :=
  let bank := standbyBank s t
  match tableGet s t bank with
  | none => (if (readActs item 0).all actOk then stWrongState else stBadArgs, s)
  | some d =>
    let acts := readActs item 0
    if acts.all actOk then (stDone, tablePut s t bank (some { d with dflt := acts })) else (stBadArgs, s)

/-- UNDEFINE (R147). -/
def ruleUndefine (s : State) (t : Nat) : Nat × State := (stDone, tablePut s t (standbyBank s t) none)

/-- The item size of a RULE_WRITE operation. -/
def ruleItemSize (op : Nat) : Nat :=
  match op with
  | 1 => 104 | 2 => 200 | 3 => 200 | 4 => 32 | _ => 0

/-- The arguments of a RULE_WRITE are well formed (R147). -/
def ruleWriteOk (b : Bytes) : Bool :=
  let op := byteAt b 1
  let n := beAt b 2 2
  decide (8 ≤ b.length) && decide (byteAt b 0 < 16) && decide (1 ≤ op) && decide (op ≤ 5) && beAt b 4 4 == 0 &&
    (match op with
      | 1 => n == 1
      | 4 => n == 1
      | 5 => n == 0
      | _ => decide (1 ≤ n) && decide (n ≤ 40)) && b.length == 8 + n * ruleItemSize op

/-- One RULE_WRITE item. DEDUCED: log 39. -/
def ruleItem (s : State) (t op : Nat) (item : Bytes) : Nat × State :=
  match op with
  | 1 => ruleDefine s t item
  | 2 => ruleInsert s t item
  | 3 => ruleDelete s t item
  | _ => ruleSetDefault s t item

/-- The items in order; the first that fails ends the command, and the earlier ones stay applied (R147). DEDUCED: log 39. -/
def ruleItems (s : State) (t op : Nat) (items : List Bytes) : Nat × State :=
  match items with
  | [] => (stDone, s)
  | x :: rest =>
    match ruleItem s t op x with
    | (0, s1) => ruleItems s1 t op rest
    | r => r

/-- The items of a RULE_WRITE body applied (R147). DEDUCED: log 39. -/
def ruleWrite (s : State) (b : Bytes) : Nat × State :=
  let op := byteAt b 1
  if op = 5 then ruleUndefine s (byteAt b 0)
  else ruleItems s (byteAt b 0) op (chunks (b.drop 8) (ruleItemSize op) (beAt b 2 2))

/-- RULE_SWAP at its swap point (R145). -/
def ruleSwap (s : State) (mask : Nat) : State := { s with canopy := { s.canopy with active := s.canopy.active ^^^ (mask % 65536) } }

end Sys2Proof.Machine
end

