-- ==== Sys2Proof/Machine/FlowTable.lean ====
section
/-!
DEFINITION. The flow tables (05): buckets in HBM memory, lookup, learning, notification records, the flow DMA port, aging,
FLOW_READ, FLOW_DELETE and the shadow compare; and the prefetch of context pages (03 R118–R122).
-/

namespace Sys2Proof.Machine

/-! ### Buckets (R154, R155) -/

/-- The number of buckets of a table. -/
def bucketCount : Nat := 2097152

/-- The address of bucket `b` of table `i` (R154). DESIGN CHOICE: log 73. -/
def bucketAddr (s : State) (i b : Nat) : Nat := regN s .flwBase i 0 + 256 * b

/-- The key of a bucket: of its lock, and of its line in the flow cache. -/
def lockKey (i b : Nat) : Nat := i * bucketCount + b

/-- The line of a bucket in the flow cache of its pipeline (R152). -/
def lineOf (s : State) (i b : Nat) : Option FlowLine := fget? s.flow.cache (lockKey i b)

/-- The 256 bytes of a bucket as the flow engine sees them: in its cache line, where it has one (R152). -/
def bucketBytes (s : State) (i b : Nat) : Bytes :=
  match lineOf s i b with
  | some l => l.bytes
  | none => memBytes s (bucketAddr s i b) 256

/-- The 64 bytes of a slot (R155). -/
def slotBytes (s : State) (i b k : Nat) : Bytes := slice (bucketBytes s i b) (64 * k) 64

/-- The address of the digest of a bucket (R154). DESIGN CHOICE: log 73. -/
def digestAddr (s : State) (i b : Nat) : Nat := regN s .flwShadow i 0 + 4 * b

/-- The candidate buckets of a key (R154). -/
def candidates (s : State) (key : Bytes) : Nat × Nat :=
  let b1 := crc32c (regF s .flwHash 0 0 0 32) key % bucketCount
  let b2 := crc32c (regF s .flwHash 0 0 32 32) key % bucketCount
  (b1, if b2 = b1 then b1 ^^^ 1 else b2)

/-- The CTL word of a slot (05 "CTL word"). -/
def ctlOf (e : Bytes) : Nat := leAt e 48 8
/-- VALID. -/
def entryValid (e : Bytes) : Bool := bitN (ctlOf e) 0
/-- GEN. -/
def entryGen (e : Bytes) : Nat := bitsN (ctlOf e) 16 16
/-- LAST_HIT. -/
def entryLastHit (e : Bytes) : Nat := bitsN (ctlOf e) 32 32
/-- CTX. -/
def entryCtx (e : Bytes) : Nat := leAt e 56 8 % 2 ^ 48

/-- Writes bytes of a bucket through its cache line to every HBM copy (R152, R158). -/
def writeBucket (s : State) (i b off : Nat) (bs : Bytes) : State :=
  let s1 := memWr s (bucketAddr s i b + off) bs
  { s1 with flow := { s1.flow with cache := fmod s1.flow.cache (lockKey i b) (fun l => { l with bytes := splice l.bytes off bs }) } }

/-- Writes the CTL word of a slot. -/
def putCtl (s : State) (i b k ctl : Nat) : State := writeBucket s i b (64 * k + 48) (leBytes 8 ctl)

/-- Sets LAST_HIT of a slot to the present ms count in the cache line; it reaches HBM when the line is evicted (R156, R158). -/
def refreshHit (s : State) (i b k : Nat) : State :=
  let c := setBitsN (ctlOf (slotBytes s i b k)) 32 32 (msNow s)
  { s with flow := { s.flow with cache := fmod s.flow.cache (lockKey i b) (fun l =>
      { bytes := splice l.bytes (64 * k + 48) (leBytes 8 c), dirty := true }) } }

/-- The keys of the lines in the flow cache of pipeline `i`. -/
def cachedBuckets (s : State) (i : Nat) : List Nat := (s.flow.cache.map Prod.fst).filter (fun k => k / bucketCount == i)

/-- A line leaves the flow cache: one with a hit refresh is written to HBM (R158). -/
def evictLine (s : State) (i key : Nat) : State :=
  match fget? s.flow.cache key with
  | none => s
  | some l =>
    let s1 := if l.dirty then memWr s (bucketAddr s i (key % bucketCount)) l.bytes else s
    { s1 with flow := { s1.flow with cache := ferase s1.flow.cache key } }

/-- A bucket is read from HBM into the flow cache of 16,384 lines; the spec does not say which line a full cache gives up: it is a free
value. DESIGN CHOICE: log 73. -/
def fetchLine (s : State) (i b : Nat) : State :=
  let full := cachedBuckets s i
  let s1 :=
    if full.length < 16384 then s
    else
      let r := freeBits s 14
      evictLine r.2 i (full.getD (r.1 % full.length) 0)
  let l : FlowLine := { bytes := memBytes s1 (bucketAddr s1 i b) 256, dirty := false }
  let s2 := memTouch s1 (bucketAddr s1 i b) 256
  { s2 with flow := { s2.flow with cache := finsert s2.flow.cache (lockKey i b) l } }

/-- The lines of table `i` leave the flow cache. -/
def flushTable (s : State) (i : Nat) : State := (cachedBuckets s i).foldl (fun t k => evictLine t i k) s

/-- The digest of a bucket (R169): the CRC-32C, with its final inversion. DEDUCED: log 74. -/
def bucketDigest (s : State) (i b : Nat) : Nat :=
  let es := ((List.range 4).map (slotBytes s i b)).filter entryValid
  if es.isEmpty then 0 else crc32c 0xFFFFFFFF (es.flatMap (fun e => e.take 48 ++ e.drop 56)) ^^^ 0xFFFFFFFF

/-- Writes a digest into the shadow array. DEDUCED: log 74. -/
def putDigest (s : State) (i b d : Nat) : State := memWr s (digestAddr s i b) (leBytes 4 d)

/-- The slot of a bucket that holds a key validly. -/
def findInBucket (s : State) (i b : Nat) (key : Bytes) : Option Nat :=
  (List.range 4).find? (fun k => entryValid (slotBytes s i b k) && (slotBytes s i b k).take 44 == key)

/-- The bucket is locked. -/
def bucketLocked (s : State) (i b : Nat) : Bool := (fget? s.flow.locks (lockKey i b)).isSome

/-- The error list of a table (R158). -/
def errorList (s : State) (i : Nat) : List Nat := fgetD [] s.flow.errors i

/-- The bucket is in the error list. DESIGN CHOICE: log 75. -/
def bucketBad (s : State) (i b : Nat) : Bool := decide (b ∈ errorList s i)

/-- Changes the count of valid entries of a table. -/
def bumpEntries (s : State) (i : Nat) (up : Bool) : State :=
  { s with flow := { s.flow with entries := fmodD 0 s.flow.entries i (fun n => if up then n + 1 else n - 1) } }

/-! ### Notification records (R161) -/

/-- The queue of a pipeline's records is enabled and bound to the flow engine of that pipeline. DEDUCED: log 77. -/
def noteQueueUsable (s : State) (i : Nat) : Bool :=
  let q := regF s .flwNotify 0 0 0 12 + i
  queueEnabled s q && (queueProducer s q == (1, i))

/-- Sends a record now, if its queue has room and no record waits; a LEARN record opens with DISCARD, every other with WAIT
(06 R184). The Bool says whether the record entered the queue. DEDUCED: log 51. -/
def sendNote (s : State) (i : Nat) (body : Bytes) (discard : Bool) : Bool × State :=
  if noteQueueUsable s i && (fgetD [] s.flow.notes i).isEmpty then
    let r := queueSend s (regF s .flwNotify 0 0 0 12 + i) (bytesToWords body) discard
    (r.1 == .ok, r.2)
  else (false, s)

/-- Raises a record that is never discarded: it waits in order where it finds no room (R161). DEDUCED: log 51. -/
def raiseNote (s : State) (i : Nat) (body : Bytes) : State :=
  match sendNote s i body false with
  | (true, s1) => s1
  | (false, _) => { s with flow := { s.flow with notes := fmodD [] s.flow.notes i (fun l => l ++ [{ body := body }]) } }

/-- The records of a pipeline that wait enter their queue while it has room (FLOW_RECORD_ENQUEUE, R161). DEDUCED: log 51. -/
def drainNotes (s : State) (i fuel : Nat) : State :=
  match fuel, fgetD [] s.flow.notes i with
  | n + 1, x :: rest =>
    match sendNote { s with flow := { s.flow with notes := fsetD [] s.flow.notes i [] } } i x.body false with
    | (true, s1) => drainNotes { s1 with flow := { s1.flow with notes := fsetD [] s1.flow.notes i rest } } i n
    | (false, _) => s
  | _, _ => s

/-- A record that concerns a bucket alone: BUCKET_ERR (0x04) or MISMATCH (0x05). -/
def bucketNote (type i b computed stored : Nat) : Bytes :=
  zeros 44 ++ [byteOf type, byteOf i, 0, 0] ++ leBytes 4 computed ++ leBytes 4 b ++ leBytes 4 stored ++ zeros 4

/-- AGED (0x02) or DELETED (0x03) of an entry, with GEN after removal. -/
def removalNote (type i b k gen : Nat) (e : Bytes) : Bytes :=
  e.take 44 ++ [byteOf type, byteOf i] ++ leBytes 2 gen ++ slice e 44 4 ++ leBytes 4 (b + k * bucketCount) ++ slice e 56 8

/-- LEARN (0x01). -/
def learnNote (p : Packet) (i : Nat) (key : Bytes) : Bytes :=
  key ++ [0x01, byteOf i, byteOf p.lport, 0] ++ leBytes 8 p.stamp ++ leBytes 4 p.keyCand.1 ++ leBytes 4 p.keyCand.2

/-- Removes a valid entry: VALID := 0, GEN + 1, the digest rewritten, a record written (R165, R168). -/
def removeEntry (s : State) (i b k type : Nat) : State × Bytes :=
  let e := slotBytes s i b k
  let gen := (entryGen e + 1) % 65536
  let s1 := putCtl s i b k (setBitsN (setBitN (ctlOf e) 0 false) 16 16 gen)
  let s2 := bumpEntries (putDigest s1 i b (bucketDigest s1 i b)) i false
  let note := removalNote type i b k gen e
  (raiseNote s2 i note, note)

/-! ### Bucket errors (R158) -/

/-- Every HBM copy of the bucket holds an uncorrectable error. DESIGN CHOICE: log 75. -/
def bucketUnreadable (s : State) (i b : Nat) : Bool := memPoisoned s (bucketAddr s i b) 256

/-- A bucket operation reaches a bucket through its line of the flow cache (R152). A bucket that is not there is read from HBM; an unreadable
one enters the error list with a BUCKET_ERR record, or a full list raises the fault of cause 0x02. DESIGN CHOICE: log 75. -/
def reachBucket (s : State) (i b : Nat) : State :=
  if bucketBad s i b || (lineOf s i b).isSome then s
  else if !bucketUnreadable s i b then fetchLine s i b
  else if 64 ≤ (errorList s i).length then { s with gct := { s.gct with faultDue := some 2 } }
  else
    let s0 := memTouch s (bucketAddr s i b) 256
    let s1 := { s0 with flow := { s0.flow with errors := fmodD [] s0.flow.errors i (fun l => l ++ [b]) } }
    raiseNote (bump s1 .flwBucketErr i 0) i (bucketNote 0x04 i b 0 0)

/-- The line of a bucket holds an uncorrectable error: it is fetched again, its hit refreshes are lost, and LAST_HIT of each valid slot
becomes the present ms count (R158). -/
def refetchLine (s : State) (i b : Nat) : State :=
  match lineOf s i b with
  | none => s
  | some _ =>
    let s1 := reachBucket { s with flow := { s.flow with cache := ferase s.flow.cache (lockKey i b) } } i b
    (List.range 4).foldl (fun t k => if entryValid (slotBytes t i b k) then refreshHit t i b k else t) s1

/-! ### The flow ordinal (07 R202) -/

/-- The key of a slot's ordinal word. -/
def ordKey (i b k : Nat) : Nat := i * 2 ^ 23 + 4 * b + k

/-- The address of the ordinal word with a key. DESIGN CHOICE: log 73. -/
def ordAddr (s : State) (key : Nat) : Nat := regN s .grvOrdBase (key / 2 ^ 23) 0 + 4 * (key % 2 ^ 23)

/-- An ordinal word leaves the ordinal cache and is written to HBM (R158). -/
def evictOrd (s : State) (key : Nat) : State :=
  match fget? s.flow.ords key with
  | none => s
  | some w =>
    let s1 := memWr s (ordAddr s key) (leBytes 4 w)
    { s1 with flow := { s1.flow with ords := ferase s1.flow.ords key } }

/-- The keys of table `i` in the ordinal cache. -/
def cachedOrds (s : State) (i : Nat) : List Nat := (s.flow.ords.map Prod.fst).filter (fun k => k / 2 ^ 23 == i)

/-- The ordinal words of table `i` leave the ordinal cache. -/
def flushOrds (s : State) (i : Nat) : State := (cachedOrds s i).foldl evictOrd s

/-- Writes an ordinal word in the ordinal cache of 65,536 words; which word a full cache gives up is a free value. DESIGN CHOICE: log 73. -/
def putOrd (s : State) (key w : Nat) : State :=
  let full := cachedOrds s (key / 2 ^ 23)
  let s1 :=
    if full.length < 65536 || full.contains key then s
    else
      let r := freeBits s 16
      evictOrd r.2 (full.getD (r.1 % full.length) 0)
  { s1 with flow := { s1.flow with ords := finsert s1.flow.ords key w } }

/-- Reads and advances the ordinal word of a slot: the packet's ordinal. An uncorrectable error of the word in HBM makes it 0, and the word is
rewritten with COUNT 0 (R214); the rest of its granule stays as it is (14 R415). DESIGN CHOICE: log 73. -/
def ordinalUpdate (s : State) (i b k gen : Nat) : Nat × State :=
  let key := ordKey i b k
  let a := ordAddr s key
  let next (n : Nat) : Nat := gen + min (n + 1) 65535 * 65536
  let count (w : Nat) : Nat := if w % 65536 = gen then w / 65536 else 0
  match fget? s.flow.ords key with
  | some w => (count w, putOrd s key (next (count w)))
  | none =>
    let s1 := memTouch s a 4
    if memPoisoned s a 4 then (0, putOrd (memWr (bumpUe s1 .grvOrdUe 0 0) a (leBytes 4 gen)) key (next 0))
    else
      let n := count (leNat (memBytes s a 4))
      (n, putOrd s1 key (next n))

/-! ### Lookup and learning (R156–R160) -/

/-- Whether the suppression filter of a pipeline holds a key (R160). -/
def filterHas (s : State) (i : Nat) (key : Bytes) : Bool := (fgetD [] s.flow.filter i).any (fun e => e.1 == key)

/-- A qualifying miss raises a LEARN record, or is suppressed or counted (R159, R160); answers whether one was raised. -/
def learnMiss (s : State) (i : Nat) (p : Packet) (r : ParseRec) : Bool × State :=
  let (b1, b2) := p.keyCand
  if !bitN (regF s .flwCtl 0 0 0 8) i || r.stop == stopMalformed || (r.nonIp && regF s .flwCtl 0 0 9 1 == 0)
      || bucketBad s i b1 || bucketBad s i b2 then (false, s)
  else if filterHas s i r.key then (false, bump s .flwSuppress i 0)
  else if 16384 ≤ (fgetD [] s.flow.filter i).length then (false, bump s .flwLearnFull i 0)
  else match sendNote s i (learnNote p i r.key) true with
    | (true, s1) =>
      let s2 := { s1 with flow := { s1.flow with filter := fmodD [] s1.flow.filter i (fun l => l ++ [(r.key, s1.idleClock)]) } }
      (true, bump s2 .flwLearn i 0)
    | (false, s1) => (false, bump s1 .flwLearnDrop i 0)

/-- FILTER_EXPIRY (R160): keys leave the filter 80,000 cycles after their record. -/
def filterExpiry (s : State) (i : Nat) : State :=
  { s with flow := { s.flow with filter := fmodD [] s.flow.filter i (fun l => l.filter (fun e => decide (s.idleClock < e.2 + 80000))) } }

/-- A hit refreshes LAST_HIT and advances the ordinal in one bucket operation (R156, R157, 07 R202). -/
def lookupHit (s : State) (i b k : Nat) : FlowAns × State :=
  let e := slotBytes s i b k
  let s1 := refreshHit s i b k
  let o := ordinalUpdate s1 i b k (entryGen e)
  ({ hit := true, bucket := b, slot := k, gen := entryGen e, ctx := entryCtx e, state := leAt e 44 4, lastHit := entryLastHit e,
     ordinal := o.1 }, bump o.2 .flwHit i 0)

/-- The answer of a miss (R156). -/
def missAnswer : FlowAns := { hit := false, bucket := 0, slot := 0, gen := 0, ctx := 0, state := 0, lastHit := 0, ordinal := 0 }

/-- The bucket and slot at which a lookup finds a key, buckets in error aside (R156, R158). -/
def findKey (s : State) (i : Nat) (c : Nat × Nat) (key : Bytes) : Option (Nat × Nat) :=
  let try_ (b : Nat) : Option (Nat × Nat) := if bucketBad s i b then none else (findInBucket s i b key).map (fun k => (b, k))
  match try_ c.1 with
  | some x => some x
  | none => try_ c.2

/-! ### Prefetch (03 R118–R122) -/

/-- The prefetches of a pipeline in flight. -/
def prefetchList (s : State) (i : Nat) : List Prefetch := fgetD [] s.tiers.prefetches i

/-- Some frame of the flow-context cache holds the tag. -/
def frameOf (s : State) (t : FrameTag) : Option Nat := (s.tiers.frames.find? (fun e => e.2.tag == t)).map (·.1)

/-- Issues a prefetch, or skips it at the limit of 512 (R122). One that finds its page present reads nothing from HBM, and counts in
PRS_PF_ISSUED all the same. DESIGN CHOICE: log 164. -/
def issuePrefetch (s : State) (i : Nat) (x : Prefetch) : State :=
  if (frameOf s x.tag).isSome then bump s .prsPfIssued i 0
  else if 512 ≤ (prefetchList s i).length then bump s .prsPfSkip i 0
  else
    let s1 := bump s .prsPfIssued i 0
    { s1 with tiers := { s1.tiers with prefetches := fmodD [] s1.tiers.prefetches i (fun l => l ++ [x]) } }

/-- The active Tier 2 set of a pipeline. -/
def tier2Set (s : State) (i : Nat) : Nat := b2n (bitN (regN s .sqT2Ctl 0 0) i)

/-- The active Tier 2 model of a pipeline, if one is loaded. -/
def tier2Model (s : State) (i : Nat) : Option Tier2Model := fget? s.tiers.models (2 * i + tier2Set s i)

/-- The prefetch that a packet calls for: the page of its entry, or the initial page of the active Tier 2 model (R118). -/
def prefetchFor (s : State) (i : Nat) (a : FlowAns) (learned : Bool) : Option Prefetch :=
  if a.hit then
    if a.ctx = 0 then none else some { tag := .flow i a.bucket a.slot a.gen, addr := a.ctx }
  else if learned then (tier2Model s i).map (fun m => { tag := .initial m.modelId, addr := m.initPage })
  else none

/-- The prefetch of a packet: none outside SERVING or after MALFORMED (R118). -/
def packetPrefetch (s : State) (i : Nat) (r : ParseRec) (a : FlowAns) (learned : Bool) : State :=
  if s.gct.dev != .serving || r.stop == stopMalformed then s
  else match prefetchFor s i a learned with
    | some x => issuePrefetch s i x
    | none => s

/-- FLOW_LOOKUP_ANSWER (R156): the lookup of a packet whose flow key is complete answers; `bad1` and `bad2` name an uncorrectable error in
the cached line of its first and its second candidate (R158). -/
def flowLookupAnswer (s : State) (k : Nat) (bad1 bad2 : Bool) : State :=
  match pktGet s k with
  | none => s
  | some p =>
    match p.prs, p.lookup, p.stage == .keyed || p.stage == .parked with
    | some r, none, true =>
      let i := pipeOf p.lport
      let (b1, b2) := p.keyCand
      let s0 := if bad1 then refetchLine s i b1 else s
      let s1 := reachBucket (reachBucket (if bad2 then refetchLine s0 i b2 else s0) i b1) i b2
      match findKey s1 i p.keyCand r.key with
      | some (b, j) =>
        let (a, s2) := lookupHit s1 i b j
        let s3 := if p.prefetched then s2 else packetPrefetch s2 i r a false
        pktSet s3 k { p with lookup := some a, prefetched := true }
      | none =>
        let (learned, s2) := learnMiss (bump s1 .flwMiss i 0) i p r
        pktSet (packetPrefetch s2 i r missAnswer learned) k { p with lookup := some missAnswer, prefetched := true }
    | _, _, _ => s

/-- The tag hit of a key at its lookup (03 R118): the slot of a cached bucket line that holds the key, as its tag array shows it. -/
def tagHit (s : State) (i : Nat) (c : Nat × Nat) (key : Bytes) : Option (Nat × Nat) :=
  let try_ (b : Nat) : Option (Nat × Nat) := if (lineOf s i b).isSome then (findInBucket s i b key).map (fun k => (b, k)) else none
  match try_ c.1 with
  | some x => some x
  | none => try_ c.2

/-! ### The flow DMA port (R162, R163) -/

/-- Stores the answer of a DMA operation for the Crown core that issued it. -/
def dmaAnswer (s : State) (core code token : Nat) (data : Bytes) : State :=
  { s with flow := { s.flow with results := finsert s.flow.results core { code := code, token := token, data := data } } }

/-- The buckets of a table that are locked. -/
def lockedCount (s : State) (i : Nat) : Nat := (s.flow.locks.filter (fun e => e.1 / bucketCount == i)).length

/-- Sets or clears LOCK and TOKEN in slot 0 of a bucket (05 "CTL word"). -/
def putLockBits (s : State) (i b : Nat) (tok : Option Nat) : State :=
  let c := ctlOf (slotBytes s i b 0)
  match tok with
  | some t => putCtl s i b 0 (setBitsN (setBitN c 1 true) 2 12 t)
  | none => putCtl s i b 0 (setBitsN (setBitN c 1 false) 2 12 0)

/-- Takes or drops the lock of a bucket. -/
def setLock (s : State) (i b : Nat) (l : Option BucketLock) : State :=
  let s1 := putLockBits s i b (l.map (·.token))
  { s1 with flow := { s1.flow with locks := fput s1.flow.locks (lockKey i b) l } }

/-- LOCK_READ (R162, R163). -/
def lockRead (s0 : State) (core i b1 b2 : Nat) : State :=
  let s := reachBucket (reachBucket s0 i b1) i b2
  let new := if b1 = b2 then 1 else 2
  if bucketLocked s i b1 || bucketLocked s i b2 || 64 < lockedCount s i + new then dmaAnswer s core 1 0 []
  else
    let tok := (fgetD 0 s.flow.tokens i + 1) % 4096
    let l : BucketLock := { token := tok, taken := s.idleClock, lease := regF s .flwLock 0 0 0 10 }
    let s1 := setLock (setLock s i b1 (some l)) i b2 (some l)
    let s2 := { s1 with flow := { s1.flow with tokens := fsetD 0 s1.flow.tokens i tok } }
    dmaAnswer s2 core 0 tok (bucketBytes s2 i b1 ++ bucketBytes s2 i b2)

/-- READ (R162). -/
def dmaRead (s : State) (core i b : Nat) : State :=
  let s1 := reachBucket s i b
  dmaAnswer s1 core 0 0 (bucketBytes s1 i b)

/-- The bucket is locked under the token (R162). -/
def lockedUnder (s : State) (i b tok : Nat) : Bool :=
  match fget? s.flow.locks (lockKey i b) with
  | some l => l.token == tok
  | none => false

/-- WRITE_SLOT (R162): bytes 0–47 and 56–63. -/
def writeSlot (s0 : State) (core i b k tok : Nat) (lowBytes highBytes : Bytes) : State :=
  let s := reachBucket s0 i b
  let e := slotBytes s i b k
  let lo := padTo lowBytes 48
  let hi := padTo highBytes 8
  if !lockedUnder s i b tok || (entryValid e && e.take 44 != lo.take 44) then dmaAnswer s core 2 0 []
  else
    let a := 64 * k
    let s1 := if entryValid e then writeBucket s i b (a + 44) (lo.drop 44) else writeBucket s i b a lo
    dmaAnswer (writeBucket s1 i b (a + 56) hi) core 0 0 []

/-- PUBLISH (R162). -/
def publish (s0 : State) (core i b k tok : Nat) : State :=
  let s := reachBucket s0 i b
  let e := slotBytes s i b k
  if !lockedUnder s i b tok || entryValid e then dmaAnswer s core 2 0 []
  else
    let c := setBitsN (setBitsN (setBitN (ctlOf e) 0 true) 16 16 (entryGen e + 1)) 32 32 (msNow s)
    dmaAnswer (bumpEntries (putCtl s i b k c) i true) core 0 0 []

/-- INVALIDATE (R162). -/
def invalidate (s0 : State) (core i b k tok : Nat) : State :=
  let s := reachBucket s0 i b
  let e := slotBytes s i b k
  if !lockedUnder s i b tok || !entryValid e then dmaAnswer s core 2 0 []
  else dmaAnswer (bumpEntries (putCtl s i b k (setBitsN (setBitN (ctlOf e) 0 false) 16 16 (entryGen e + 1))) i false) core 0 0 []

/-- A bucket leaves the error list; the engine has written every copy of it (R152, R158). DEDUCED: log 76. -/
def mendBucket (s : State) (i b : Nat) : State :=
  let gs := touchedGranules (bucketAddr s i b) 256
  { s with
    flow := { s.flow with errors := fmodD [] s.flow.errors i (fun l => l.filter (· != b)) }
    memPoison := if bucketBad s i b then clearGranules s.memPoison gs else s.memPoison }

/-- UNLOCK (R162). DEDUCED: log 76. -/
def unlock (s : State) (core i b1 b2 tok d1 d2 : Nat) : State :=
  if !lockedUnder s i b1 tok || !lockedUnder s i b2 tok then dmaAnswer s core 2 0 []
  else
    let s1 := putDigest (putDigest s i b1 d1) i b2 d2
    let s2 := setLock (setLock s1 i b1 none) i b2 none
    dmaAnswer (mendBucket (mendBucket s2 i b1) i b2) core 0 0 []

/-- The locks of a table whose lease has run out (R163). -/
def expiredLocks (s : State) (i : Nat) : List (Nat × BucketLock) :=
  s.flow.locks.filter (fun e => e.1 / bucketCount == i && decide (e.2.taken * 4 + e.2.lease * 5000 ≤ s.idleClock * 4))

/-- LEASE_EXPIRY (R163): each lock that ran out is cleared and counted, and the token counter advances once more for it. DEDUCED: log 76. -/
def leaseExpiry (s : State) (i : Nat) : State :=
  let old := expiredLocks s i
  let toks := (old.map (·.2.token)).eraseDups
  let s1 := old.foldl (fun t e => setLock t i (e.1 % bucketCount) none) s
  let s2 := { s1 with flow := { s1.flow with tokens := fmodD 0 s1.flow.tokens i (fun n => (n + toks.length) % 4096) } }
  bumpBy s2 .flwLockExpired i 0 toks.length

/-! ### Aging, FLOW_READ, FLOW_DELETE, shadow compare (R165–R170) -/

/-- The record queue of a pipeline has room for one record. -/
def noteRoom (s : State) (i : Nat) : Bool :=
  noteQueueUsable s i && (fgetD [] s.flow.notes i).isEmpty && queueRoom s (regF s .flwNotify 0 0 0 12 + i) 4

/-- A slot is due for removal (R165). -/
def slotAged (s : State) (e : Bytes) : Bool :=
  entryValid e && decide (regF s .flwAge 0 0 0 32 ≤ (msNow s + 2 ^ 32 - entryLastHit e) % 2 ^ 32)

/-- AGING_VISIT (R165): one bucket, where aging is enabled and the bucket is not locked; the scan waits where the record queue lacks room. -/
def agingVisit (s : State) (i b : Nat) : State :=
  if regF s .flwCtl 0 0 8 1 == 0 || bucketLocked s i b then s
  else
    let s1 := reachBucket s i b
    if bucketBad s1 i b then s1
    else (List.range 4).foldl (fun t k =>
      if slotAged t (slotBytes t i b k) && noteRoom t i then bump (removeEntry t i b k 0x02).1 .flwAged i 0 else t) s1

/-- SHADOW_COMPARE (R170). DEDUCED: log 74. -/
def shadowCompare (s : State) (i b : Nat) : State :=
  if regF s .flwCtl 0 0 10 1 == 0 || bucketLocked s i b then s
  else
    let s1 := memTouch (reachBucket s i b) (digestAddr s i b) 4
    if bucketBad s1 i b then s1
    else
      let d := bucketDigest s1 i b
      let stored := leNat (memBytes s1 (digestAddr s1 i b) 4)
      if d = stored then s1 else raiseNote (bump s1 .flwMismatch i 0) i (bucketNote 0x05 i b d stored)

/-- The body of FLOW_READ and FLOW_DELETE is well formed (R167). -/
def flowBodyOk (b : Bytes) (deleting : Bool) : Bool :=
  b.length == 56 && decide (byteAt b 0 < 8) && beAt b 2 2 == 0 && allZero (slice b 52 4) &&
    match byteAt b 1 with
    | 0 => beAt b 4 4 == 0
    | 1 => !deleting && decide (beAt b 4 4 < bucketCount) && allZero (slice b 8 44)
    | _ => false

/-- A bucket operation reaches both candidate buckets of a key. -/
def reachKey (s : State) (i : Nat) (c : Nat × Nat) : State := reachBucket (reachBucket s i c.1) i c.2

/-- The data of a FLOW_READ (R167), and the state after it. -/
def flowRead (s : State) (b : Bytes) : Bytes × State :=
  let i := byteAt b 0
  if byteAt b 1 = 1 then
    let s1 := reachBucket s i (beAt b 4 4)
    (bucketBytes s1 i (beAt b 4 4), s1)
  else
    let key := slice b 8 44
    let c := candidates s key
    let s1 := reachKey s i c
    (((findKey s1 i c key).map (fun x => slotBytes s1 i x.1 x.2)).getD [], s1)

/-- The key of a FLOW_DELETE waits on a lock (R163, R168). -/
def deleteBlocked (s : State) (b : Bytes) : Bool :=
  let c := candidates s (slice b 8 44)
  bucketLocked s (byteAt b 0) c.1 || bucketLocked s (byteAt b 0) c.2

/-- FLOW_DELETE once no lock stands in its way: the record it raised, if the key was valid (R168). -/
def flowDelete (s : State) (b : Bytes) : Option Bytes × State :=
  let i := byteAt b 0
  let key := slice b 8 44
  let c := candidates s key
  let s1 := reachKey s i c
  match findKey s1 i c key with
  | some (x, k) => let r := removeEntry s1 i x k 0x03; (some r.2, r.1)
  | none => (none, s1)

end Sys2Proof.Machine
end

