-- ==== Sys2Proof/Machine/Grove.lean ====
section
/-!
DEFINITION. The Grove tree engine (07): features, traversal, outputs and verdicts, validation and loading of an ensemble,
unloading, the leaf port, errors, and the checks of a route write.
-/

namespace Sys2Proof.Machine

/-- Nodes of a slice. -/
def sliceNodes : Nat := 196608
/-- Directory entries of a slice. -/
def sliceDirs : Nat := 8192
/-- Side-set words of a slice. -/
def sliceSides : Nat := 2048

/-- A protected word of a slice (R214): node n is n, directory entry d is 196,608 + d, side-set word w is 204,800 + w. -/
def wordKey (u unit : Nat) : Nat := u * 2 ^ 18 + unit

/-- The word holds an uncorrectable error. -/
def wordBad (s : State) (u unit : Nat) : Bool := fgetD false s.grove.bad (wordKey u unit)

/-! ### Features (R199, R200) -/

/-- The source value of a selector and its width; `none` where the source is missing. The ms count of item 5 is the one sampled at the
packet's entry to Grove. DEDUCED: log 78. -/
def featureSource (s : State) (p : Packet) (outs : List (Option (List Nat))) (sel : Bytes) : Option (Nat × Nat) :=
  let b1 := byteAt sel 1
  match byteAt sel 0 with
  | 0x01 =>
    match p.prs with
    | some r => (parseField r p.bytes b1 (levelOf r (byteAt sel 2)) (byteAt sel 3)).map
        (fun v => (v, (fieldWidths b1).getD (byteAt sel 3) 0))
    | none => none
  | 0x02 => some (metaF p b1 32, 32)
  | 0x03 =>
    let hit := match p.lookup with
      | some a => if a.hit then some a else none
      | none => none
    let always (v : Nat) : Option (Nat × Nat) := some (v % 2 ^ 32, 32)
    match b1 with
    | 0 => always (p.bytes.length + 4)
    | 1 => always p.lport
    | 2 => always ((p.prs.map (·.stop)).getD 0)
    | 3 => always ((p.prs.map (·.deepest)).getD 0)
    | 4 => always p.stamp
    | 5 => hit.bind (fun a => always ((p.sample.map (fun x => x.ms)).getD (msNow s) + 2 ^ 32 - a.lastHit))
    | 6 => hit.bind (fun a => always a.ordinal)
    | _ => always (pipeOf p.lport)
  | _ =>
    match outs.getD b1 none with
    | some o => some (o.getD (byteAt sel 2) 0, 32)
    | none => none

/-- CONV (R200): the feature as 32 bits; an INT16 is kept as 16 bits. -/
def convFeature (conv w v : Nat) : Nat :=
  match conv with
  | 0 => FFmt.fp32.encode (intVal v)
  | 1 => FFmt.fp32.encode (intVal (toInt w v))
  | 2 => min v 32767
  | 3 => ofInt 16 (satInt (-32768) 32767 (toInt w v))
  | _ => v

/-- A feature of a packet: `none` is missing (R199). -/
def featureOf (s : State) (p : Packet) (outs : List (Option (List Nat))) (sel : Bytes) : Option Nat :=
  (featureSource s p outs sel).map (fun x => convFeature (byteAt sel 6) (byteAt sel 5) (bitsN x.1 (byteAt sel 4) (byteAt sel 5)))

/-- A selector that a load accepts (R199, R209); `conv` lists the conversions allowed. -/
def featureOk (sel : Bytes) (conv : List Nat) : Bool :=
  let b1 := byteAt sel 1
  let off := byteAt sel 4
  let w := byteAt sel 5
  let c := byteAt sel 6
  let base := decide (1 ≤ w) && decide (w ≤ 32) && decide (c ∈ conv) && byteAt sel 7 == 0 && (c != 4 || w == 32)
  base && match byteAt sel 0 with
    | 0x01 => decide (1 ≤ b1) && decide (b1 ≤ 0x15) && decide (byteAt sel 2 ≤ 5)
        && decide (byteAt sel 3 < (fieldWidths b1).length) && decide (off + w ≤ (fieldWidths b1).getD (byteAt sel 3) 0)
    | 0x02 => decide (b1 ≤ 224) && beAt sel 2 2 == 0 && decide (off + w ≤ 32)
    | 0x03 => decide (b1 ≤ 7) && beAt sel 2 2 == 0 && decide (off + w ≤ 32)
    | 0x04 => decide (b1 ≤ 2) && decide (byteAt sel 2 ≤ 15) && byteAt sel 3 == 0 && w == 32 && off == 0 && c == 4
    | _ => false

/-! ### Traversal (R195–R198) -/

/-- TYPE of a node. -/
def nodeType (n : Nat) : Nat := bitsN n 0 2
/-- CHILD of a node. -/
def nodeChild (n : Nat) : Nat := bitsN n 16 18

/-- What a walk of a tree ends in: a leaf value, or a word in error. -/
inductive WalkEnd where
  | leaf (v : Nat)
  | bad (u unit : Nat)
deriving DecidableEq, Repr

/-- Side-set membership of category `c` (R195): `none` where the word that holds it is in error. -/
def sideMember (s : State) (u : Nat) (gp : GrovePart) (base words c : Nat) : Sum Bool Nat :=
  if 64 * words ≤ c then .inl false
  else
    let w := gp.sideAt + base + c / 64
    if wordBad s u (204800 + w) then .inr (204800 + w)
    else .inl (bitN (fgetD 0 s.grove.side (u * sliceSides + w)).toNat (c % 64))

/-- eval_tree (R197) from node `n` of a partition. DESIGN CHOICE: log 147. -/
def walkTree (s : State) (u : Nat) (gp : GrovePart) (x : List (Option Nat)) (phase : Bool) (n : Nat) (fuel : Nat) : WalkEnd :=
  match fuel with
  | 0 => .bad u (gp.nodeAt + n)
  | k + 1 =>
    if wordBad s u (gp.nodeAt + n) then .bad u (gp.nodeAt + n)
    else
      let d := (fgetD 0 s.grove.nodes (u * sliceNodes + gp.nodeAt + n)).toNat
      let go (left : Bool) : WalkEnd := walkTree s u gp x phase (if left then nodeChild d else nodeChild d + 1) k
      let dflt := !bitN d 2
      let thr := bitsN d 64 32
      if nodeType d = 3 then .leaf (if phase then bitsN d 64 32 else bitsN d 32 32)
      else match x.getD (bitsN d 8 8) none with
        | none => go dflt
        | some v =>
          match nodeType d with
          | 0 =>
            if bitN d 3 then go (decide (toInt 16 v < toInt 16 (thr % 65536)))
            else if (f32 v).isNan then go dflt else go ((f32 v).lt (f32 thr))
          | 1 => go (decide (v < 64) && bitN (bitsN d 64 64) v)
          | _ =>
            match sideMember s u gp (bitsN d 64 11) (bitsN d 75 12) v with
            | .inl b => go b
            | .inr unit => .bad u unit

/-- Whether the walk goes left at node `d` (R196–R198), when the words that it needs are whole. -/
def walkLeft (s : State) (u : Nat) (gp : GrovePart) (x : List (Option Nat)) (d : Nat) : Bool :=
  match x.getD (bitsN d 8 8) none with
  | none => !bitN d 2
  | some v =>
    let thr := bitsN d 64 32
    match nodeType d with
    | 0 =>
      if bitN d 3 then decide (toInt 16 v < toInt 16 (thr % 65536))
      else if (f32 v).isNan then !bitN d 2 else (f32 v).lt (f32 thr)
    | 1 => decide (v < 64) && bitN (bitsN d 64 64) v
    | _ =>
      match sideMember s u gp (bitsN d 64 11) (bitsN d 75 12) v with
      | .inl b => b
      | .inr _ => false

/-- The visits of a walk (R207; 21 GROVE_BUSY): nodes read, the last one included; a side-set node counts as two. -/
def walkVisits (s : State) (u : Nat) (gp : GrovePart) (x : List (Option Nat)) (n : Nat) (fuel : Nat) : Nat :=
  match fuel with
  | 0 => 0
  | k + 1 =>
    let d := (fgetD 0 s.grove.nodes (u * sliceNodes + gp.nodeAt + n)).toNat
    if wordBad s u (gp.nodeAt + n) || nodeType d == 3 then 1
    else (if nodeType d = 2 then 2 else 1) + walkVisits s u gp x (if walkLeft s u gp x d then nodeChild d else nodeChild d + 1) k

/-- The visits of an entry in one partition. -/
def partVisits (s : State) (u : Nat) (gp : GrovePart) (x : List (Option Nat)) : Nat :=
  gp.dirAt.foldl (fun a dpos =>
    if wordBad s u (196608 + dpos) then a
    else a + walkVisits s u gp x (bitsN (fgetD 0 s.grove.dirs (u * sliceDirs + dpos)).toNat 0 18) (gp.nodes + 1)) 0

/-- The partial sums of one partition (R204): trees in directory order; the words in error that its walks met. DEDUCED: log 78. -/
def evalPartition (s : State) (u : Nat) (gp : GrovePart) (x : List (Option Nat)) (phase : Bool) (outs : Nat) :
    List Nat × List (Nat × Nat) :=
  gp.dirAt.foldl (fun acc dpos =>
    if wordBad s u (196608 + dpos) then (acc.1, acc.2 ++ [(u, 196608 + dpos)])
    else
      let e := (fgetD 0 s.grove.dirs (u * sliceDirs + dpos)).toNat
      let o := bitsN e 18 4
      match walkTree s u gp x phase (bitsN e 0 18) (gp.nodes + 1) with
      | .leaf v => (acc.1.set o (f32Add (acc.1.getD o 0) v), acc.2)
      | .bad a b => (acc.1, acc.2 ++ [(a, b)])) (List.replicate outs 0, [])

/-- What one applied entry gives (R204, R205), with its visits by unit. -/
structure EntryResult where
  outs : List Nat
  cls : Nat
  score : Nat
  model : Nat
  esc : Bool
  nan : Bool
  bad : List (Nat × Nat)
  visits : List Nat
deriving DecidableEq, Repr

/-- A score product rounded to nearest, ties to even, and saturated to 16 bits; a NaN product gives 0 (R205). DEDUCED: log 78. -/
def scoreOf (v : FVal) : Nat :=
  match v with
  | .nan => 0
  | .inf neg => if neg then 0x8000 else 0x7FFF
  | y => ofInt 16 (satInt (-32768) 32767 (roundInt y))

/-- The lowest index of the largest value. -/
def argMax (vs : List FVal) : Nat :=
  (List.range vs.length).foldl (fun best i => if (vs.getD best .nan).lt (vs.getD i .nan) then i else best) 0

/-- The decision of a slot (R205). DEDUCED: log 78. -/
def decideEntry (d : GroveDesc) (acc : List Nat) (bad : List (Nat × Nat)) : EntryResult :=
  let vs := acc.map f32
  if !bad.isEmpty || vs.any FVal.isNan then
    { outs := if bad.isEmpty then acc else acc.map (fun _ => 0x7FC00000), cls := d.errClass, score := 0, model := d.modelId,
      esc := false, nan := true, bad := bad, visits := [] }
  else
    let top := vs.getD 0 .nan
    let (k, prod) :=
      if d.mode = 0 then
        ((d.cut.filter (fun c => (f32 c).le top)).length, top.mul (f32 d.scale))
      else
        let i := argMax vs
        let rest := vs.eraseIdx i
        let second := rest.getD (argMax rest) .nan
        (i, ((vs.getD i .nan).add second.neg).mul (f32 d.scale))
    { outs := acc, cls := d.classVal.getD k 0, score := scoreOf prod, model := d.modelId, esc := bitN d.escMask k, nan := false,
      bad := [], visits := [] }

/-- Evaluates one applied entry on a packet (R197–R205). -/
def evalEntry (s : State) (p : Packet) (outs : List (Option (List Nat))) (g : GroveSlot) (phase : Bool) : EntryResult :=
  let x := g.desc.feats.map (featureOf s p outs)
  let part (u : Nat) : GrovePart := g.parts.getD u { nodeAt := 0, nodes := 0, sideAt := 0, side := 0, dirAt := [] }
  let parts := (List.range 16).map (fun u => evalPartition s u (part u) x phase g.desc.outputs)
  let acc := (List.range g.desc.outputs).map (fun o =>
    parts.foldl (fun a pr => f32Add a (pr.1.getD o 0)) (g.desc.base.getD o 0))
  { decideEntry g.desc acc (parts.flatMap (·.2)) with visits := (List.range 16).map (fun u => partVisits s u (part u) x) }

/-! ### Routes (R201, R203) -/

/-- SLOT_e of a route. -/
def routeSlot (r e : Nat) : Nat := bitsN r (16 * e) 4
/-- APPLY_e of a route. -/
def routeApply (r e : Nat) : Nat := bitsN r (16 * e + 4) 2
/-- PARAM_e of a route. -/
def routeParam (r e : Nat) : Nat := bitsN r (16 * e + 6) 10

/-- The flow ordinal of a packet (R202): 0 on a miss. -/
def ordinalOf (p : Packet) : Nat := match p.lookup with | some a => a.ordinal | none => 0

/-- Entry `e` of a route applies to a packet (R203). -/
def entryApplies (p : Packet) (r e : Nat) : Bool :=
  match routeApply r e with
  | 0 => false
  | 1 => true
  | 2 => decide (ordinalOf p < routeParam r e)
  | _ => ordinalOf p % routeParam r e == 0

/-- The slots that a route names with APPLY other than 0. -/
def routeNames (r : Nat) : List Nat := ((List.range 4).filter (fun e => routeApply r e != 0)).map (routeSlot r)

/-! ### Validation of a section (R209, R210) -/

/-- A slot descriptor read from a section. -/
def readDesc (b : Bytes) : GroveDesc :=
  { modelId := leAt b 0 2, mode := byteAt b 2, outputs := byteAt b 3, nfeat := leAt b 4 2, ntrees := leAt b 6 2,
    errClass := leAt b 8 2, escMask := leAt b 10 2, scale := leAt b 12 4,
    cut := (List.range 4).map (fun i => leAt b (16 + 4 * i) 4), base := (List.range 16).map (fun i => leAt b (32 + 4 * i) 4),
    classVal := (List.range 16).map (fun i => leAt b (96 + 2 * i) 2), feats := chunks (b.drop 256) 8 (leAt b 4 2) }

/-- The sizes NODES, TREES and SIDE of partition `p` of a descriptor. -/
def partSizes (b : Bytes) (p : Nat) : Nat × Nat × Nat := (leAt b (128 + 8 * p) 4, leAt b (132 + 8 * p) 2, leAt b (134 + 8 * p) 2)

/-- The bytes of partition `p` in a section. -/
def partLen (b : Bytes) (p : Nat) : Nat := let z := partSizes b p; 8 * z.2.1 + 16 * z.1 + 8 * z.2.2

/-- Where partition `p` begins in a section (R209). -/
def partOff (b : Bytes) (p : Nat) : Nat := (List.range p).foldl (fun a q => a + partLen b q) (256 + 8 * leAt b 4 2)

/-- The directory, nodes and side-set words of a partition. -/
def partWords (b : Bytes) (p : Nat) : List Nat × List Nat × List Nat :=
  let z := partSizes b p
  let o := partOff b p
  let o2 := o + 8 * z.2.1
  let o3 := o2 + 16 * z.1
  ((List.range z.2.1).map (fun i => leAt b (o + 8 * i) 8), (List.range z.1).map (fun i => leAt b (o2 + 16 * i) 16),
   (List.range z.2.2).map (fun i => leAt b (o3 + 8 * i) 8))

/-- An FP32 code is finite. -/
def f32Finite (c : Nat) : Bool := !(f32 c).special

/-- The descriptor's fields are within the table "Slot descriptor". -/
def descOk (b : Bytes) : Bool :=
  let d := readDesc b
  let cuts := d.cut.map f32
  let sizes := (List.range 16).map (partSizes b)
  decide (d.mode ≤ 1) && decide (1 ≤ d.outputs) && decide (d.outputs ≤ 16) && (d.mode == 0 || decide (2 ≤ d.outputs))
    && decide (1 ≤ d.nfeat) && decide (d.nfeat ≤ 256) && decide (1 ≤ d.ntrees) && decide (d.ntrees ≤ 8192)
    && d.ntrees == sizes.foldl (fun a z => a + z.2.1) 0 && f32Finite d.scale && d.base.all f32Finite
    && (d.mode == 1 || (cuts.all (fun c => !c.isNan) && (List.range 3).all (fun j => (cuts.getD j .nan).le (cuts.getD (j + 1) .nan))))
    && sizes.all (fun z => decide (z.1 ≤ sliceNodes) && decide (z.2.1 ≤ sliceDirs) && decide (z.2.2 ≤ sliceSides))

/-- One node of a partition is acceptable (R195, R200, R210). -/
def nodeOk (d : GroveDesc) (z : Nat × Nat × Nat) (pos n : Nat) : Bool :=
  let f := bitsN n 8 8
  let conv := byteAt (d.feats.getD f []) 6
  let ch := nodeChild n
  let inner := decide (f < d.nfeat) && decide (pos < ch) && decide (ch + 1 < z.1) && bitsN n 34 30 == 0
  bitsN n 4 4 == 0 && match nodeType n with
    | 0 =>
      inner && bitsN n 96 32 == 0 &&
        (if bitN n 3 then bitsN n 80 16 == 0 && (conv == 2 || conv == 3)
         else !(f32 (bitsN n 64 32)).isNan && (conv == 0 || conv == 1 || conv == 4))
    | 1 => inner && !bitN n 3 && conv == 5
    | 2 =>
      let words := bitsN n 75 12
      inner && !bitN n 3 && conv == 5 && bitsN n 87 9 == 0 && bitsN n 96 32 == 0 && decide (1 ≤ words) && decide (words ≤ 2048)
        && decide (bitsN n 64 11 + words ≤ z.2.2)
    | _ =>
      bitsN n 2 2 == 0 && bitsN n 8 24 == 0 && bitsN n 96 32 == 0 && !(f32 (bitsN n 32 32)).isNan && !(f32 (bitsN n 64 32)).isNan

/-- The longest path from each node to a leaf, for nodes from the last to the first: children lie above their parents. -/
def nodeDepths (ns : List Nat) : List Nat :=
  let n := ns.length
  (List.range n).foldl (fun acc i =>
    let pos := n - 1 - i
    let d := ns.getD pos 0
    let at_ (c : Nat) : Nat := acc.getD (c - pos - 1) 0
    (if nodeType d = 3 then 1 else 1 + max (at_ (nodeChild d)) (at_ (nodeChild d + 1))) :: acc) []

/-- One partition is acceptable (R210). -/
def partitionOk (d : GroveDesc) (b : Bytes) (p : Nat) : Bool :=
  let z := partSizes b p
  let (dirs, nodes, _) := partWords b p
  let depths := nodeDepths nodes
  (List.range nodes.length).all (fun i => nodeOk d z i (nodes.getD i 0)) &&
    dirs.all (fun e =>
      let depth := bitsN e 22 5
      bitsN e 27 37 == 0 && decide (bitsN e 18 4 < d.outputs) && decide (1 ≤ depth) && decide (depth ≤ 20)
        && decide (bitsN e 0 18 < z.1) && decide (depths.getD (bitsN e 0 18) 0 ≤ depth))

/-- The whole section validates (R210). -/
def sectionOk (b : Bytes) : Bool :=
  let d := readDesc b
  decide (256 ≤ b.length) && descOk b && b.length == partOff b 16 && d.feats.all (fun f => featureOk f [0, 1, 2, 3, 4, 5])
    && (List.range 16).all (partitionOk d b)

/-! ### Placement (R211, R212) -/

/-- The runs of a slice that loaded slots occupy: start and length, of nodes or of side-set words. -/
def usedRuns (s : State) (u : Nat) (side : Bool) : List (Nat × Nat) :=
  (s.grove.slots.map (fun e => match e.2.parts[u]? with
    | some gp => if side then (gp.sideAt, gp.side) else (gp.nodeAt, gp.nodes)
    | none => (0, 0))).filter (fun r => r.2 != 0)

/-- A run of `n` from `a` meets no used run and ends within `size`. -/
def runFree (runs : List (Nat × Nat)) (size a n : Nat) : Bool :=
  decide (a + n ≤ size) && runs.all (fun r => decide (a + n ≤ r.1) || decide (r.1 + r.2 ≤ a))

/-- The lowest free position that a run of `n` fits at (R211): the start of the slice or the end of a used run. -/
def placeNodes (runs : List (Nat × Nat)) (size n : Nat) : Option Nat :=
  let cand := (0 :: runs.map (fun r => r.1 + r.2)).filter (fun a => runFree runs size a n)
  cand.foldl (fun best a => match best with
    | none => some a
    | some x => some (min x a)) none

/-- The directory entries of a slice in use. DESIGN CHOICE: log 79. -/
def usedDirs (s : State) (u : Nat) : List Nat := s.grove.slots.flatMap (fun e => match e.2.parts[u]? with
  | some gp => gp.dirAt
  | none => [])

/-- Where partition `u` of a section goes, if it fits. DESIGN CHOICE: log 79. -/
def placePart (s : State) (b : Bytes) (u : Nat) : Option GrovePart :=
  let z := partSizes b u
  let taken := usedDirs s u
  match placeNodes (usedRuns s u false) sliceNodes z.1, placeNodes (usedRuns s u true) sliceSides z.2.2 with
  | some na, some sa =>
    if taken.length + z.2.1 ≤ sliceDirs then
      let dirs := ((List.range (taken.length + z.2.1)).filter (fun x => !decide (x ∈ taken))).take z.2.1
      some { nodeAt := na, nodes := z.1, sideAt := sa, side := z.2.2, dirAt := dirs }
    else none
  | _, _ => none

/-- Writes a list of words into a store from `at_`. DESIGN CHOICE: log 147. -/
def storeRun {w : Nat} (m : FMap (BitVec w)) (at_ : Nat) (ws : List Nat) : FMap (BitVec w) :=
  (List.range ws.length).foldl (fun m i => fsetD 0 m (at_ + i) (BitVec.ofNat w (ws.getD i 0))) m

/-- Writes the words of partition `u` of a section; a written word is no longer in error. -/
def storePart (b : Bytes) (gv : Grove) (u : Nat) (gp : GrovePart) : Grove :=
  let (dirs, nodes, sides) := partWords b u
  let units := rangeFrom gp.nodeAt nodes.length ++ gp.dirAt.map (196608 + ·) ++ rangeFrom (204800 + gp.sideAt) sides.length
  { gv with
    nodes := storeRun gv.nodes (u * sliceNodes + gp.nodeAt) nodes
    side := storeRun gv.side (u * sliceSides + gp.sideAt) sides
    dirs := (List.range dirs.length).foldl (fun m i =>
      fsetD 0 m (u * sliceDirs + gp.dirAt.getD i 0) (BitVec.ofNat 64 (dirs.getD i 0))) gv.dirs
    bad := units.foldl (fun m x => fsetD false m (wordKey u x) false) gv.bad }

/-- Loads a section into a slot (R210, R211): the status and the state. A slot that is in use is refused (R211). DEDUCED: log 43. -/
def groveLoad (s : State) (slot : Nat) (b : Bytes) (image sect : Nat) : Nat × State :=
  if !sectionOk b then (stBadArgs, s)
  else if (fget? s.grove.slots slot).isSome then (stWrongState, s)
  else
    let places := (List.range 16).map (placePart s b)
    if places.any Option.isNone then (stNodeCapacity, s)
    else
      let parts := places.filterMap id
      let gv := (List.range 16).foldl (fun g u => match parts[u]? with
        | some gp => storePart b g u gp
        | none => g) s.grove
      let new : GroveSlot := { desc := readDesc b, parts := parts, image := image, section_ := sect, draining := false }
      (stDone, { s with grove := { gv with slots := finsert gv.slots slot new, phases := setBitN gv.phases slot false } })

/-- Some route names the slot with APPLY other than 0. -/
def slotRouted (s : State) (slot : Nat) : Bool := (List.range 16).any (fun r => decide (slot ∈ routeNames (regN s .grvRoute r 0)))

/-- Some packet that sampled the slot remains in Grove (R212). DEDUCED: log 80. -/
def slotInUse (s : State) (slot : Nat) : Bool :=
  s.canopy.pkts.any (fun e => e.2.stage == .inGrove && (match e.2.sample with
    | some x => decide (slot ∈ routeNames x.route)
    | none => false))

/-- Frees the space of a slot (R212). -/
def groveFree (s : State) (slot : Nat) : State := { s with grove := { s.grove with slots := ferase s.grove.slots slot } }

/-! ### The leaf port (15 R459) -/

/-- WRITE_LEAF: refused when the node is no leaf, the value is a NaN, or no boundary is pending and the slot is not named for
flipping. -/
def writeLeaf (s : State) (slot part off val : Nat) : State :=
  match fget? s.grove.slots slot with
  | none => s
  | some g =>
    match g.parts[part]? with
    | none => s
    | some gp =>
      let k := part * sliceNodes + gp.nodeAt + off
      let n := (fgetD 0 s.grove.nodes k).toNat
      let named := bitN (regF s .sqTendCtl 0 0 5 16) slot
      if gp.nodes ≤ off || nodeType n != 3 || (f32 val).isNan || !(s.tiers.tend.pending || named) then s
      else
        let lo := if bitN s.grove.phases slot then 32 else 64
        { s with grove := { s.grove with nodes := fsetD 0 s.grove.nodes k (BitVec.ofNat 128 (setBitsN n lo 32 val)) } }

/-- The leaf node at a position of a slice belongs to a loaded slot: that slot. -/
def slotAt (s : State) (u pos : Nat) : Option Nat :=
  (s.grove.slots.find? (fun e => match e.2.parts[u]? with
    | some gp => decide (gp.nodeAt ≤ pos) && decide (pos < gp.nodeAt + gp.nodes)
    | none => false)).map (·.1)

/-- WRITE_WORD: rewrites a node, or two directory entries, or two side-set words; never the active value of a leaf. The word
offset counts 16-byte words of the slice: nodes, then directory entries, then side-set words. -/
def writeWord (s : State) (u off : Nat) (v : Nat) : State :=
  if off < sliceNodes then
    let k := u * sliceNodes + off
    let old := (fgetD 0 s.grove.nodes k).toNat
    let keepLo := match slotAt s u off with
      | some sl => if bitN s.grove.phases sl then 64 else 32
      | none => 32
    let new := if nodeType v = 3 && nodeType old = 3 && !wordBad s u off then setBitsN v keepLo 32 (bitsN old keepLo 32) else v
    { s with grove := { s.grove with nodes := fsetD 0 s.grove.nodes k (BitVec.ofNat 128 new),
                                     bad := fsetD false s.grove.bad (wordKey u off) false } }
  else if off < sliceNodes + 4096 then
    let d := 2 * (off - sliceNodes)
    { s with grove := { s.grove with
        dirs := fsetD 0 (fsetD 0 s.grove.dirs (u * sliceDirs + d) (BitVec.ofNat 64 v)) (u * sliceDirs + d + 1) (BitVec.ofNat 64 (v / 2 ^ 64))
        bad := fsetD false (fsetD false s.grove.bad (wordKey u (196608 + d)) false) (wordKey u (196608 + d + 1)) false } }
  else if off < sliceNodes + 5120 then
    let d := 2 * (off - sliceNodes - 4096)
    { s with grove := { s.grove with
        side := fsetD 0 (fsetD 0 s.grove.side (u * sliceSides + d) (BitVec.ofNat 64 v)) (u * sliceSides + d + 1) (BitVec.ofNat 64 (v / 2 ^ 64))
        bad := fsetD false (fsetD false s.grove.bad (wordKey u (204800 + d)) false) (wordKey u (204800 + d + 1)) false } }
  else s

/-- The word offset of a protected word, as WRITE_WORD counts it. -/
def wordOffset (unit : Nat) : Nat :=
  if unit < 196608 then unit else if unit < 204800 then sliceNodes + (unit - 196608) / 2 else sliceNodes + 4096 + (unit - 204800) / 2

/-- Reports an uncorrectable error that a walk or the scrub has read (R214): GRV_NODE_UE and a NODE_ERR event. -/
def nodeError (s : State) (u unit : Nat) : State :=
  crownEvent (bumpUe s .grvNodeUe 0 0) 0x04 (zeros 4 ++ leBytes 4 u ++ leBytes 4 (wordOffset unit))

/-- A word of a slice is found with an error: corrected and counted, or marked bad (R214). -/
def wordErrorArises (s : State) (u unit : Nat) (uncorrectable : Bool) : State :=
  if uncorrectable then { s with grove := { s.grove with bad := fsetD false s.grove.bad (wordKey u unit) true } }
  else bump s .grvNodeCe 0 0

/-- GROVE_SCRUB (R215): every word of every slice is read, once in each period, when GRV_CTL.SCRUB_EN is set. The reads meet new errors in
the listed words (slice × 2¹⁸ + word), `ce` of one bit and `ue` uncorrectable, beside the words that are bad already. DESIGN CHOICE: log 156. -/
def groveScrub (s : State) (ce ue : List Nat) : State :=
  match scrubPass s 1 (mkReg .grvScrub 0 0) (fun v => msTicks (bitsN v 0 16)) with
  | (some _, s1) =>
    if regF s .grvCtl 0 0 0 1 == 0 then s1
    else
      let s2 := ce.foldl (fun t w => wordErrorArises t (w / 2 ^ 18) (w % 2 ^ 18) false) s1
      let s3 := ue.foldl (fun t w => wordErrorArises t (w / 2 ^ 18) (w % 2 ^ 18) true) s2
      (s3.grove.bad.map Prod.fst).foldl (fun t w => nodeError t (w / 2 ^ 18) (w % 2 ^ 18)) s3
  | (none, s1) => s1

/-! ### Route writes (R216) -/

/-- The SRC 0x04 features of a slot agree with a route in which it stands at position `e`. -/
def routeFeaturesOk (s : State) (v e : Nat) (g : GroveSlot) : Bool :=
  g.desc.feats.all (fun f => byteAt f 0 != 4 ||
    (let pos := byteAt f 1
     decide (pos < e) && (routeApply v pos == 0 || (match fget? s.grove.slots (routeSlot v pos) with
       | some h => decide (byteAt f 2 < h.desc.outputs)
       | none => false))))

/-- A value that GRV_ROUTE_r accepts (R216). -/
def routeOk (s : State) (v : Nat) : Bool :=
  (List.range 4).all (fun e =>
    match routeApply v e with
    | 0 => routeParam v e == 0
    | a =>
      match fget? s.grove.slots (routeSlot v e) with
      | some g => !g.draining && (if a = 1 then routeParam v e == 0 else routeParam v e != 0) && routeFeaturesOk s v e g
      | none => false)

/-- GRV_SLOTS (R212). -/
def groveSlotsReg (s : State) : Nat :=
  s.grove.slots.foldl (fun a e => a + (if e.2.draining then 2 ^ (16 + e.1) else 2 ^ e.1)) 0

/-- GRV_SLOT_s. -/
def groveSlotReg (s : State) (k : Nat) : Nat :=
  match fget? s.grove.slots k with
  | some g =>
    if g.draining then 0
    else g.desc.modelId + g.desc.ntrees * 2 ^ 16 + g.desc.nfeat * 2 ^ 30 + g.desc.outputs * 2 ^ 39 + g.desc.mode * 2 ^ 44
  | none => 0

/-- The longest free run of a slice. -/
def longestRun (runs : List (Nat × Nat)) (size : Nat) : Nat :=
  let starts := 0 :: runs.map (fun r => r.1 + r.2)
  starts.foldl (fun best a =>
    if runs.any (fun r => decide (r.1 ≤ a) && decide (a < r.1 + r.2)) then best
    else
      let stop := runs.foldl (fun m r => if a ≤ r.1 then min m r.1 else m) size
      max best (stop - a)) 0

/-- GRV_FREE_u. -/
def groveFreeReg (s : State) (u : Nat) : Nat :=
  let used := (usedRuns s u false).foldl (fun a r => a + r.2) 0
  (sliceNodes - used) + longestRun (usedRuns s u false) sliceNodes * 2 ^ 18 + (sliceDirs - (usedDirs s u).length) * 2 ^ 36
    + longestRun (usedRuns s u true) sliceSides * 2 ^ 50

end Sys2Proof.Machine
end

