-- ==== Sys2Proof/Machine/Tiers.lean ====
section
/-!
DEFINITION. The tiers (15): hold entries and deadlines, the flow-context cache, tokens and the dispatcher, verdicts and their
records, escalations, the gated queues of a Tier 2 switch, and Tending.
-/

namespace Sys2Proof.Machine

/-! ### Hold entries (R426–R431) -/

/-- Hold entries of a pipeline. -/
def holdEntries : Nat := 131072

/-- The key of entry `e` of pipeline `i`. -/
def holdKey (i e : Nat) : Nat := i * holdEntries + e

/-- The generation of a hold entry. -/
def holdGeneration (s : State) (k : Nat) : Nat := fgetD 0 s.tiers.holdGen k

/-- The handle of a hold entry: bits [16:0] the index, [31:17] the generation (R426). -/
def holdHandle (s : State) (k : Nat) : Nat := k % holdEntries + holdGeneration s k * holdEntries

/-- The lowest free hold entry of a pipeline. DEDUCED: log 108. -/
def freeHold (s : State) (i : Nat) : Option Nat :=
  let used := (s.tiers.holds.filter (fun e => e.1 / holdEntries == i)).map (·.1 % holdEntries)
  (List.range (min holdEntries (used.length + 1))).find? (fun e => !decide (e ∈ used))

/-- Creates a hold entry. DEDUCED: log 108. -/
def holdCreate (s : State) (k : Nat) (h : HoldEntry) : State := { s with tiers := { s.tiers with holds := finsert s.tiers.holds k h } }

/-- Releases a hold entry: its generation advances (R426). DEDUCED: log 108. -/
def holdRelease (s : State) (k : Nat) : State :=
  { s with tiers := { s.tiers with holds := ferase s.tiers.holds k,
                                   holdGen := fmodD 0 s.tiers.holdGen k (fun g => (g + 1) % 32768) } }

/-- Advances D of every hold entry by a length of time (R426), and the deadlines of the packets that have none yet: time spent in
HALTED does not count toward Hold deadlines (02 R79). DEDUCED: log 49. -/
def holdAdvance (s : State) (ns : Nat) : State :=
  { s with tiers := { s.tiers with holds := s.tiers.holds.map (fun e => (e.1, { e.2 with deadline := e.2.deadline + ns })) },
           canopy := { s.canopy with pkts := s.canopy.pkts.map (fun e => (e.1, { e.2 with dl1 := e.2.dl1 + ns, dl2 := e.2.dl2 + ns })) } }

/-- A packet leaves hold for its second pass (R430). -/
def releasePacket (s : State) (k : Nat) (f : Packet → Packet) : State :=
  match pktGet s k with
  | some p => pktSet s k { f p with stage := .released, hold := none }
  | none => s

/-- V_DEFERRED := 1. -/
def defer (p : Packet) : Packet := metaPut p 42 1 1

/-- DEADLINE_TEST (R428): a Tier 2 hold entry whose deadline the clock has reached. -/
def deadlineTest (s : State) (k : Nat) : State :=
  match fget? s.tiers.holds k with
  | some h =>
    if h.tier2 && decide (h.deadline ≤ stampNow s) then
      releasePacket (bump (holdRelease s k) .sqDeferred (k / holdEntries) 0) h.pkt defer
    else s
  | none => s

/-! ### Tending phases (R201, R213, R458) -/

/-- The leaf phases of all slots for a packet of a given arrival stamp. -/
def phasesFor (s : State) (stamp : Nat) : Nat :=
  let t := s.tiers.tend
  if stamp < t.lastAt then s.grove.phases ^^^ t.lastGrv
  else if t.pending && decide (regN s .sqTendAt 0 0 ≤ stamp) then s.grove.phases ^^^ regF s .sqTendCtl 0 0 5 16
  else s.grove.phases

/-- The Tier 2 phase for a packet of a given arrival stamp. -/
def t2PhaseFor (s : State) (stamp : Nat) : Bool :=
  let t := s.tiers.tend
  if stamp < t.lastAt then t.t2Phase != t.lastT2
  else if t.pending && decide (regN s .sqTendAt 0 0 ≤ stamp) then t.t2Phase != (regF s .sqTendCtl 0 0 4 1 == 1)
  else t.t2Phase

/-- A packet of that stamp waits for a boundary that is armed and not ready (R458). -/
def boundaryStalls (s : State) (stamp : Nat) : Bool :=
  s.tiers.tend.pending && regF s .sqTendCtl 0 0 1 1 == 0 && decide (regN s .sqTendAt 0 0 ≤ stamp)

/-- ARM (R458): schedules the boundary at SQ_TEND_AT, or skips it when the clock has already reached it. -/
def tendArm (s : State) : State :=
  if regN s .sqTendAt 0 0 ≤ stampNow s then bump s .sqTendMiss 0 0
  else { s with tiers := { s.tiers with tend := { s.tiers.tend with pending := true } } }

/-- READY := 1 (R458). -/
def tendReady (s : State) : State := regPutF s .sqTendCtl 0 0 1 1 1

/-- TENDING_BOUNDARY (R458): the boundary passes when the clock has reached AT and READY is set; with it the pending changes of the
determinism mode and of the Tending share take effect (01 R56). DEDUCED: log 111. -/
def tendBoundary (s : State) : State :=
  let t := s.tiers.tend
  if t.pending && regF s .sqTendCtl 0 0 1 1 == 1 && decide (regN s .sqTendAt 0 0 ≤ stampNow s) then
    let grv := regF s .sqTendCtl 0 0 5 16
    let t2 := regF s .sqTendCtl 0 0 4 1 == 1
    let s1 := modesMod (regPutF s .sqTendCtl 0 0 1 1 0) (fun m => (m.take 4).take 6)
    { s1 with
      grove := { s1.grove with phases := s1.grove.phases ^^^ grv }
      tiers := { s1.tiers with tend := { t with pending := false, t2Phase := t.t2Phase != t2, lastAt := regN s .sqTendAt 0 0,
                                                lastGrv := grv, lastT2 := t2 } } }
  else s

/-- The watermark of a pipeline: the stamp below which every packet of it has passed its token decision (R457). -/
def watermarkOf (s : State) (i : Nat) : Nat :=
  let undecided (p : Packet) : Bool := pipeOf p.lport == i && (match p.stage with
    | .committed => true | .accepted => true | .keyed => true | .parked => true | .passOne => true | .toGrove => true
    | .inGrove => true | .toDispatch => true | _ => false)
  let stamps := (s.canopy.pkts.filter (fun e => undecided e.2)).map (·.2.stamp) ++
    (fgetD [] s.tiers.tokenWait i).map (·.snap.stamp)
  stamps.foldl min (stampNow s)

/-- WATERMARK (R457): SQ_T2_WM_i, and a watermark word into the pipeline's Tending queue, where the dispatcher is
the queue's producer and the queue is enabled. DEDUCED: log 111. -/
def watermark (s : State) (i : Nat) : State :=
  let w := watermarkOf s i
  let s1 := regPut s .sqT2Wm i 0 w
  let q := regF s .sqTendCtl 0 0 32 12 + i
  if queueEnabled s q && queueProducer s q == (2, i) then
    match queueSend s1 q [mkWord (BitVec.ofNat 128 (2 + w * 2 ^ 64)) false] false with
    | (.ok, s2) => s2
    | _ => bump s1 .sqTendStall 0 0
  else s1

/-! ### Verdict records (R448) -/

/-- A verdict record body without LOST, which each subscription fills as it is sent. DEDUCED: log 141. -/
def verdictRecord (tier flags pipe lport bucket slot gen cls score model stamp qpos queue : Nat) : Bytes :=
  [byteOf tier, byteOf flags, byteOf pipe, byteOf lport] ++ leBytes 3 bucket ++ [byteOf slot] ++ leBytes 2 gen ++ leBytes 2 cls
    ++ leBytes 2 score ++ leBytes 2 model ++ leBytes 8 stamp ++ leBytes 4 qpos ++ leBytes 2 queue ++ zeros 2 ++ zeros 32

/-- The bucket, slot and GEN that a packet's token and records name (15 "Token"). -/
def tokenFlow (p : Packet) : Bool × Nat × Nat × Nat :=
  match p.lookup with
  | some a => if a.hit then (true, a.bucket, a.slot, a.gen) else (false, p.keyCand.1, 0, 0)
  | none => (false, p.keyCand.1, 0, 0)

/-- The record of a Tier 1 verdict whose route escalated, where SQ_T2_REC enables it. DEDUCED: log 141. -/
def tier1Record (s : State) (p : Packet) : State :=
  if regF s .sqT2Rec 0 0 0 1 = 1 then
    let (_, b, k, g) := tokenFlow p
    pushRecord s 0 (verdictRecord 1 (4 * b2n p.passMode + 64) (pipeOf p.lport) p.lport b k g (metaF p 48 16) (metaF p 64 16)
      (metaF p 80 16) p.stamp 0 0)
  else s

/-! ### The flow-context cache (R440, R441) -/

/-- The address of frame `n`. DEDUCED: log 110. -/
def frameAddr (s : State) (n : Nat) : Nat := cellAddr (stageFirst s + 16 * n)

/-- The frames of the cache. -/
def frameCount (s : State) : Nat := regF s .sqT2Ctxc 0 0 0 14

/-- Reads the use count and advances it. -/
def nextUse (s : State) : Nat × State := (s.tiers.useCount, { s with tiers := { s.tiers with useCount := s.tiers.useCount + 1 } })

/-- Replaces a frame. -/
def frameSet (s : State) (n : Nat) (f : Option CtxFrame) : State := { s with tiers := { s.tiers with frames := fput s.tiers.frames n f } }

/-- The slot that a frame of a flow belongs to still has its generation (R440). -/
def frameCurrent (s : State) (t : FrameTag) : Bool :=
  match t with
  | .flow i b k g => entryGen (slotBytes s i b k) == g
  | .initial _ => false

/-- The slot of a frame's flow is reached through the flow cache of its pipeline (R440). -/
def reachTag (s : State) (t : FrameTag) : State :=
  match t with
  | .flow i b _ _ => reachBucket s i b
  | .initial _ => s

/-- Copies a context page of 4 KiB, its poison included. -/
def copyPage (s : State) (dst src : Nat) : State :=
  let s1 := memTouch s src 4096
  let s2 := memWr s1 dst (memBytes s1 src 4096)
  if memPoisoned s1 src 4096 then memTaint s2 dst 4096 else s2

/-- Evicts a frame: a dirty one is written back to its page when its slot's GEN still equals its own (R440). -/
def evictFrame (s : State) (n : Nat) : State :=
  match fget? s.tiers.frames n with
  | none => s
  | some f =>
    if f.dirty then
      let s1 := reachTag s f.tag
      frameSet (if frameCurrent s1 f.tag then copyPage s1 f.ctx (frameAddr s1 n) else s1) n none
    else frameSet s n none

/-- A frame that can take a copy: a free one, else the unpinned one least recently used. DEDUCED: log 110. -/
def victimFrame (s : State) : Option Nat :=
  match (List.range (frameCount s)).find? (fun n => (fget? s.tiers.frames n).isNone) with
  | some n => some n
  | none =>
    (s.tiers.frames.filter (fun e => e.2.pins == 0 && decide (e.1 < frameCount s))).foldl (fun best e => match best with
      | none => some e
      | some b => if e.2.lastUse < b.2.lastUse then some e else some b) none |>.map (·.1)

/-- Fills a frame with the page at `addr` as a clean copy; poisoned where the page cannot be read (03 R119, R121). DEDUCED: log 110. -/
def fillFrame (s : State) (t : FrameTag) (addr : Nat) : Option (Nat × State) :=
  match victimFrame s with
  | none => none
  | some n =>
    let s1 := evictFrame s n
    let (u, s2) := nextUse (copyPage s1 (frameAddr s1 n) addr)
    some (n, frameSet s2 n (some { tag := t, pins := 0, dirty := false, lastUse := u, ctx := addr }))

/-- PREFETCH_LAND (03 R119): the oldest prefetch of a pipeline in flight lands; where every frame of the cache is pinned, its page is lost.
DESIGN CHOICE: log 164. -/
def prefetchLand (s : State) (i : Nat) : State :=
  match prefetchList s i with
  | [] => s
  | x :: rest =>
    let s1 := { s with tiers := { s.tiers with prefetches := fsetD [] s.tiers.prefetches i rest } }
    if (frameOf s1 x.tag).isSome then s1
    else match fillFrame s1 x.tag x.addr with
      | some r => r.2
      | none => s1

/-- Pins a frame for one more token. -/
def pinFrame (s : State) (n : Nat) : State :=
  let (u, s1) := nextUse s
  { s1 with tiers := { s1.tiers with frames := fmod s1.tiers.frames n (fun f => { f with pins := f.pins + 1, lastUse := u }) } }

/-- A token's verdict has been read: the frame loses a pin and, unless the token was stateless or its copy cannot be read, becomes dirty
(R440). DEDUCED: log 110. -/
def unpinFrame (s : State) (n : Nat) (stateless : Bool) : State :=
  let failed := memPoisoned s (frameAddr s n) 4096
  { s with tiers := { s.tiers with frames := fmod s.tiers.frames n (fun f =>
      { f with pins := f.pins - 1, dirty := f.dirty || (!stateless && !failed) }) } }

/-! ### Tokens (R433–R435) -/

/-- Four FP32 features per word. -/
def featureWords (fs : List Nat) : List (BitVec 128) :=
  (List.range (ceilDiv fs.length 4)).map (fun j =>
    BitVec.ofNat 128 ((List.range 4).foldl (fun a n => a + fs.getD (4 * j + n) 0 * 2 ^ (32 * n)) 0))

/-- Word 0 of a token (15 "Token"). -/
def tokenWord0 (type flags pipe lport bucket slot gen model qpos : Nat) : Nat :=
  type + flags * 2 ^ 8 + pipe * 2 ^ 16 + lport * 2 ^ 24 + bucket % 2 ^ 24 * 2 ^ 32 + slot * 2 ^ 56 + gen * 2 ^ 64 + model * 2 ^ 80
    + qpos * 2 ^ 96

/-- Word 1 of a token. -/
def tokenWord1 (stamp hold cpage nf drops : Nat) : Nat :=
  stamp % 2 ^ 64 + hold * 2 ^ 64 + cpage * 2 ^ 96 + nf * 2 ^ 112 + drops * 2 ^ 120

/-- The token queue of a packet in set `x` of its pipeline (R434). DEDUCED: log 77. -/
def tokenQueue (s : State) (i x b1 : Nat) : Nat :=
  let r := regN s .sqT2Set (2 * i + x) 0
  bitsN r 0 12 + b1 % max 1 (bitsN r 16 11)

/-- The features of a packet's token (R433): a missing one takes the model's MISS value. -/
def tokenFeatures (s : State) (m : Tier2Model) (p : Packet) : List Nat :=
  m.feats.map (fun f => (featureOf s p p.outputs f).getD m.missVal)

/-- A token is a sample (R456). -/
def isSample (s : State) (b1 : Nat) : Bool :=
  s.tiers.tend.active && b1 % 2 ^ regF s .sqTendCtl 0 0 21 5 == 0

/-- The waiting token of a pipeline is done with. -/
def popToken (s : State) (i : Nat) : State :=
  { s with tiers := { s.tiers with tokenWait := fmodD [] s.tiers.tokenWait i (fun l => l.drop 1) } }

/-- A packet is held on an entry yet: the entry has not been released since the packet was given its handle (R426, R429). -/
def stillHeld (s : State) (key handle : Nat) : Bool := (fget? s.tiers.holds key).isSome && holdHandle s key == handle

/-- A token is dropped (R435): counted, and a packet that is held on it leaves at once with V_DEFERRED := 1. -/
def dropToken (s : State) (i q : Nat) (r : TokenReq) : State :=
  let s1 := bump (popToken s i) .sqT2Drop i 0
  let s2 := { s1 with tiers := { s1.tiers with drops := fmodD 0 s1.tiers.drops q (fun n => min 255 (n + 1)) } }
  match r.hold with
  | some k => if stillHeld s2 k r.handle then releasePacket (holdRelease s2 k) r.pkt defer else s2
  | none => s2

/-- The frame that holds the context copy of a tag, filled where it is absent (R435, R440); a copy whose generation is no longer that of
its flow's entry is discarded and read again (03 R121), unless a token in flight pins it. DEDUCED: log 110. -/
def copyFrame (s : State) (tag : FrameTag) (page : Nat) : Option (Nat × State) :=
  match frameOf s tag with
  | none => fillFrame s tag page
  | some n =>
    let s1 := reachTag s tag
    let stale : Bool := match tag with
      | .flow _ _ _ _ => !frameCurrent s1 tag && (fget? s1.tiers.frames n).any (fun f => f.pins == 0)
      | .initial _ => false
    if stale then fillFrame (evictFrame s1 n) tag page else some (n, s1)

/-- The frame that holds a token's context copy (R435, R440), and whether the token is stateless. -/
def contextFrame (s : State) (m : Tier2Model) (p : Packet) : Option (Nat × State) × Bool :=
  let (hit, b, k, g) := tokenFlow p
  let ctx := match p.lookup with
    | some a => a.ctx
    | none => 0
  let stateless := !hit || ctx == 0
  let tag := if stateless then FrameTag.initial m.modelId else .flow (pipeOf p.lport) b k g
  (copyFrame s tag (if stateless then m.initPage else ctx), stateless)

/-- TOKEN_DISPATCH (R433–R435, R454, R456): the dispatcher of a pipeline builds and commits its oldest waiting token, or drops
it, or waits for a Tending boundary or for room in its Tending queue. -/
def tokenDispatch (s : State) (i : Nat) : State :=
  match fgetD [] s.tiers.tokenWait i with
  | [] => s
  | r :: _ =>
    let p := r.snap
    let x := tier2Set s i
    let b1 := p.keyCand.1
    let q := tokenQueue s i x b1
    match tier2Model s i with
    | none => dropToken s i q r
    | some m =>
      let sample := isSample s b1
      let tq := regF s .sqTendCtl 0 0 32 12 + i
      let feats := tokenFeatures s m p
      let nf := ceilDiv feats.length 4
      if boundaryStalls s p.stamp || (sample && !queueRoom s tq (nf + 2)) then bump s .sqTendStall 0 0
      else if queueProducer s q != (2, i) then dropToken s i q r
      else if !queueEnabled s q || !queueRoom s q (nf + 2) then dropToken (queueOpen s q (nf + 2) true).2 i q r
      else match contextFrame s m p with
        | (none, _) => dropToken s i q r
        | (some (n, s1), stateless) =>
          let (hit, b, k, g) := tokenFlow p
          let held := r.hold.isSome
          let flags (smp : Bool) : Nat := b2n hit + 2 * b2n held + 4 * b2n stateless + 8 * b2n smp + 16 * b2n (t2PhaseFor s p.stamp)
          let qpos := (queueGet s q).wr.toNat
          let words (smp : Bool) : List QWord :=
            (BitVec.ofNat 128 (tokenWord0 1 (flags smp) i p.lport b k g m.modelId qpos) ::
             BitVec.ofNat 128 (tokenWord1 p.stamp r.handle n nf (fgetD 0 s.tiers.drops q)) :: featureWords feats).map (fun w => mkWord w false)
          match queueSend s1 q (words false) true with
          | (.ok, s2) =>
            let s3 := bump (popToken (pinFrame s2 n) i) .sqT2Tokens i 0
            let s4 := { s3 with tiers := { s3.tiers with drops := fsetD 0 s3.tiers.drops q 0 } }
            let s5 := if sample then (queueSend s4 tq (words true) false).2 else s4
            match pktGet s5 r.pkt with
            | some c => if c.stage = .toDispatch then pktSet s5 r.pkt { c with stage := .held } else s5
            | none => s5
          | (_, s2) => dropToken s2 i q r

/-! ### Verdicts read back (R428–R430, R445, R448, R449) -/

/-- The set and index of the return queue `q` of pipeline `i`: the token queue paired with it (R434). DEDUCED: log 77. -/
def pairedQueue (s : State) (i q : Nat) : Option Nat :=
  (List.range 2).findSome? (fun x =>
    let r := regN s .sqT2Set (2 * i + x) 0
    let j := q - bitsN r 32 12
    if bitsN r 32 12 ≤ q ∧ j < bitsN r 16 11 then some (bitsN r 0 12 + j) else none)

/-- Whether a verdict for (queue, QPOS) has been delivered before; earlier positions beyond half the counter are forgotten. DEDUCED: log 109. -/
def verdictSeen (s : State) (tq qpos : Nat) : Bool := decide (qpos ∈ fgetD [] s.tiers.delivered tq)

/-- Remembers a delivered verdict. DEDUCED: log 109. -/
def verdictMark (s : State) (tq qpos : Nat) : State :=
  { s with tiers := { s.tiers with delivered := fmodD [] s.tiers.delivered tq (fun l =>
      qpos :: l.filter (fun x => decide ((qpos + 2 ^ 32 - x) % 2 ^ 32 < 2 ^ 31))) } }

/-- An escalation of a flow to Tier 3, merged into one that waits or runs (R449). -/
def escalateFlow (s : State) (e : Escalation) : State :=
  if s.tiers.escal.any (fun x => x.pipe == e.pipe && x.bucket == e.bucket && x.slot == e.slot && x.gen == e.gen) then s
  else { s with tiers := { s.tiers with escal := s.tiers.escal ++ [e] } }

/-- A verdict in time releases the hold entry's packet with it, changed by `f`; a late one is counted (15 R428, R429). -/
def settleVerdict (s : State) (i key : Nat) (taken late : Bool) (f : Packet → Packet) : State :=
  match taken, fget? s.tiers.holds key with
  | true, some h => releasePacket (holdRelease s key) h.pkt f
  | _, _ => if late then bump s .sqLateRec i 0 else s

/-- A verdict of three good words reaches the return engine of pipeline `i` (R428–R430, R448, R449): a hold entry takes it if it is read
before the first cycle after the one in which the clock reaches D. DEDUCED: log 109. -/
def takeVerdict (s : State) (q : Nat) (w0 w1 w2 : Nat) : State :=
  let i := bitsN w0 16 3
  let lport := bitsN w0 24 6
  let bucket := bitsN w0 32 24
  let slot := bitsN w0 56 2
  let gen := bitsN w0 64 16
  let qpos := bitsN w0 96 32
  let tflags := bitsN w0 8 8
  let stamp := bitsN w1 0 64
  let hold := bitsN w1 64 32
  let tag := if bitN tflags 2 then FrameTag.initial (bitsN w0 80 16) else .flow i bucket slot gen
  let cls := bitsN w2 0 16
  let score := bitsN w2 16 16
  let model := bitsN w2 32 16
  let vf := bitsN w2 48 8
  let tq := (pairedQueue s i q).getD 0
  let s0 := if bitN vf 3 then bump s .sqReplay i 0 else s
  let s1 := if bitN vf 1 then bump s0 .sqCtxReset i 0 else s0
  if verdictSeen s1 tq qpos then s1
  else
    let s2 := match frameOf s1 tag with
      | some n => unpinFrame (verdictMark s1 tq qpos) n (bitN tflags 2)
      | none => verdictMark s1 tq qpos
    let key := holdKey i (hold % holdEntries)
    let entry := fget? s2.tiers.holds key
    let taken := bitN tflags 1 && holdGeneration s2 key == hold / holdEntries &&
      entry.any (fun h => decide (stampBefore s2 < h.deadline))
    let late := bitN tflags 1 && !taken
    let s3 := settleVerdict s2 i key taken late (fun p =>
      metaPut (metaPut (metaPut (metaPut (metaPut p 40 2 2) 48 16 cls) 64 16 score) 80 16 model) 43 1 (b2n (bitN vf 1)))
    let flags := b2n late + 2 * b2n late + 4 * b2n (!bitN tflags 1) + 8 * b2n (bitN vf 1) + 16 * b2n (bitN vf 2)
      + 32 * b2n (bitN vf 3) + 64 * b2n (bitN vf 0)
    let s4 := if regF s3 .sqT2Rec 0 0 1 1 = 1 then
        pushRecord s3 0 (verdictRecord 2 flags i lport bucket slot gen cls score model stamp qpos tq)
      else s3
    if bitN vf 0 then
      escalateFlow s4 { pipe := i, bucket := bucket, slot := slot, gen := gen, lport := lport, stamp := stamp,
                        held := (modePending s4.gct.modes 3).isSome }
    else s4

/-- VERDICT_READ (R428, R445): the return engine reads one packet of three words from a return queue and releases it. -/
def verdictRead (s : State) (q : Nat) : State :=
  if (queueConsumer s q).1 != 6 then s
  else
    let (a, s1) := queueRead s q
    let (b, s2) := queueRead s1 q
    let (c, s3) := queueRead s2 q
    match a, b, c with
    | some x, some y, some z =>
      let s4 := (queueRelease s3 q).2
      if x.poison || y.poison || z.poison then bump s4 .sqT2Poison 0 0
      else takeVerdict s4 q x.data.toNat y.data.toNat z.data.toNat
    | _, _, _ => s

/-! ### The Tier 2 switch (R454) -/

/-- Gates the queues of set `x` of pipeline `i` whose counterparts in the old set hold committed words not released. -/
def gateQueues (s : State) (i x : Nat) : State :=
  let new := regN s .sqT2Set (2 * i + x) 0
  let old := regN s .sqT2Set (2 * i + (1 - x)) 0
  (List.range (bitsN new 16 11)).foldl (fun t j =>
    let o := queueGet t (bitsN old 0 12 + j)
    if o.rl != o.cm then { t with tiers := { t.tiers with gated := fsetD false t.tiers.gated (bitsN new 0 12 + j) true } } else t) s

/-- GATE_RELEASE (R454): the gate of queue `j` of the active set opens when the old queue holds no committed word that is not
released. -/
def gateRelease (s : State) (i j : Nat) : State :=
  let x := tier2Set s i
  let o := queueGet s (regF s .sqT2Set (2 * i + (1 - x)) 0 0 12 + j)
  if o.rl = o.cm then { s with tiers := { s.tiers with gated := ferase s.tiers.gated (regF s .sqT2Set (2 * i + x) 0 0 12 + j) } } else s

/-- GATE of SQ_T2_SET_i_s (R454). -/
def setGated (s : State) (i x : Nat) : Bool :=
  let r := regN s .sqT2Set (2 * i + x) 0
  s.tiers.gated.any (fun e => e.2 && decide (bitsN r 0 12 ≤ e.1) && decide (e.1 < bitsN r 0 12 + bitsN r 16 11))

/-! ### Tier 3 (R449) -/

/-- The runtime's Tier 3 result for a flow: its record goes out and its escalation ends. DEDUCED: log 42. -/
def tier3Result (s : State) (i bucket slot cls score : Nat) : State :=
  match s.tiers.escal.find? (fun e => e.pipe == i && e.bucket == bucket && e.slot == slot && !e.held) with
  | none => s
  | some e =>
    let s1 := { s with tiers := { s.tiers with escal := s.tiers.escal.filter (fun x => x != e) } }
    if regF s .sqT2Rec 0 0 2 1 = 1 then
      pushRecord s1 0 (verdictRecord 3 0 i e.lport e.bucket e.slot e.gen cls score ((s.tiers.tier3.map (·.modelId)).getD 0) e.stamp 0 0)
    else s1

end Sys2Proof.Machine
end

