-- ==== Sys2Proof/Machine/PacketPath.lean ====
section
/-!
DEFINITION. The path of a packet (01 R39–R42): acceptance by the parser, the flow key, both Canopy passes, Grove, hold and
release, and egress. A step that finds nothing to act on, or whose island is stopped at a cut (02 R79), changes nothing.
-/

namespace Sys2Proof.Machine

/-- A packet of pipeline `i` at a stage. -/
def atStage (i : Nat) (st : PktStage) (p : Packet) : Bool := pipeOf p.lport == i && p.stage == st

/-- The settings that a packet samples at its acceptance (03 R106). -/
def parseCfg (s : State) : ParseCfg :=
  { hdrMax := regF s .prsDepth 0 0 0 5, tunnelMax := regF s .prsDepth 0 0 8 2, bytes := regF s .prsDepth 0 0 16 4,
    keyLevel := regF s .prsKey 0 0 0 2, keyN := regF s .prsKey 0 0 4 2, vxlan := regF s .prsUdpPorts 0 0 0 16,
    geneve := regF s .prsUdpPorts 0 0 16 16, gtpu := regF s .prsUdpPorts 0 0 32 16, esp := regF s .prsUdpPorts 0 0 48 16,
    quic := (List.range 4).map (fun j => regF s .prsQuicPorts 0 0 (16 * j) 16), dcidLen := regF s .prsQuicDcid 0 0 0 5 }

/-- Fewer than 32 places of the flow-wait buffer or of the Grove input buffer are free (04 R128, 07 R208). -/
def pathBackPressure (s : State) (i : Nat) : Bool :=
  decide (2016 < (s.canopy.pkts.filter (fun e => atStage i .parked e.2)).length) ||
    decide (2016 < (s.canopy.pkts.filter (fun e => atStage i .inGrove e.2 || (atStage i .toGrove e.2 && e.2.waited))).length)

/-- The logical port whose turn it is: round-robin among those of pipeline `i` with a committed frame (03 R104). DESIGN CHOICE: log 66. -/
def nextParsePort (s : State) (i : Nat) : Option Nat :=
  let start := fgetD 0 s.ports.nextPort i
  ((List.range 8).map (fun j => 8 * i + (start + j) % 8)).find? (fun m =>
    s.canopy.pkts.any (fun e => e.2.lport == m && e.2.stage == .committed))

/-- Counts the outcome of a parse (03 "PRS register offsets"). -/
def countParse (s : State) (i stop : Nat) : State :=
  let s1 := bump s .prsPkts i 0
  if stop = stopByteLimit || stop = stopHdrLimit || stop = stopTunnelLimit || stop = stopStackLimit then bump s1 .prsLimit i 0
  else if stop = stopMalformed then bump s1 .prsMalformed i 0
  else if stop = stopFragment then bump s1 .prsFrag i 0
  else s1

/-- PARSE_ACCEPT (03 R104–R117): parse pipeline `i` accepts one committed frame. -/
def parseAccept (s : State) (i : Nat) : State :=
  if s.gct.stopped || pathBackPressure s i then s
  else match nextParsePort s i with
    | none => s
    | some m =>
      match pktFirst s (fun p => p.lport == m && p.stage == .committed) with
      | none => s
      | some (k, p) =>
        let r := parseFrame (parseCfg s) p.bytes
        let s1 := pktSet (obsAdd (countParse s i r.stop) 0 i 1) k { p with stage := .accepted, prs := some r }
        { s1 with ports := { s1.ports with nextPort := fsetD 0 s1.ports.nextPort i ((m % 8 + 1) % 8) } }

/-- FLOW_KEY_COMPLETE (03 R105, R118): the lookup of the first accepted packet is issued; on a tag hit its prefetch too. -/
def flowKeyComplete (s : State) (i : Nat) : State :=
  if s.gct.stopped then s
  else match pktFirst s (atStage i .accepted) with
    | none => s
    | some (k, p) =>
      match p.prs with
      | none => s
      | some r =>
        let c := candidates s r.key
        let p1 := { p with stage := .keyed, keyCand := c }
        match tagHit s i c r.key with
        | some (b, j) =>
          let e := slotBytes s i b j
          let a : FlowAns := { missAnswer with hit := true, bucket := b, slot := j, gen := entryGen e, ctx := entryCtx e }
          pktSet (packetPrefetch s i r a false) k { p1 with prefetched := true }
        | none => pktSet s k p1

/-- Stages T2–T7 of the first pass, with the flow fields filled (04 R128, R136). DEDUCED: log 65. -/
def runFromT2 (s : State) (k : Nat) (p : Packet) : State :=
  let (s1, p1) := runStages false (s, metaFlow p) [2, 3, 4, 5, 6, 7]
  pktSet s1 k { p1 with stage := .passOne }

/-- Some parked packet of the pipeline has its answer (04 R128). -/
def parkedEligible (s : State) (i : Nat) : Option (Nat × Packet) := pktFirst s (fun p => atStage i .parked p && p.lookup.isSome)

/-- The packets of a pipeline in its flow-wait buffer (04 R128). -/
def parkedCount (s : State) (i : Nat) : Nat := (s.canopy.pkts.filter (fun e => atStage i .parked e.2)).length

/-- FIRST_PASS_ENTRY (04 R127, R128, R146): the packet whose flow key was complete first enters T0; leaving T1 it goes on, or is parked in
the flow-wait buffer of 2,048 packets, for whose room the lane waits. DEDUCED: log 65. -/
def firstPassEntry (s : State) (i : Nat) : State :=
  if s.gct.stopped then s
  else match pktFirst s (atStage i .keyed) with
    | none => s
    | some (k, p) =>
      let (s1, p1) := runStages false (s, enterFirst s p) [0, 1]
      if p1.lookup.isSome && (parkedEligible s i).isNone then runFromT2 s1 k p1
      else if 2048 ≤ parkedCount s i then s
      else pktSet (bump s1 .cnpWait i 0) k { p1 with stage := .parked }

/-- T2_ADMIT (04 R128): the oldest parked packet that has its answer enters T2. DEDUCED: log 65. -/
def t2Admit (s : State) (i : Nat) : State :=
  if s.gct.stopped then s
  else match parkedEligible s i with
    | some (k, p) => runFromT2 s k p
    | none => s

/-- The service mode of a packet, read at the end of its first pass (15 R425): 1 Hold, 2 Pass. The reserved value 3 of SERVICE
gives a free choice. DESIGN CHOICE: log 71. -/
def readService (s : State) (p : Packet) : Nat × State :=
  match metaF p 28 2 with
  | 0 => (p.svcMode, s)
  | 3 => let r := freeBits s 1; (1 + r.1, r.2)
  | n => (n, s)

/-- TIER at the end of the first pass; the reserved value 3 gives a free choice of 0, 1 and 2. DESIGN CHOICE: log 71. -/
def readTier (s : State) (p : Packet) : Nat × State :=
  match metaF p 26 2 with
  | 3 => let r := freeBits s 8; (r.1 % 3, r.2)
  | n => (n, s)

/-- The end of the first pass of packet `k` (04 R140, R146; 15 R425). DESIGN CHOICE: log 5. -/
def endFirst (s : State) (k : Nat) (p0 : Packet) : State :=
  let (sv, s0) := readService s p0
  let (tier, s1) := readTier s0 p0
  let p := fillShim (metaPut { p0 with service := sv, passMode := sv == 2 } 26 2 tier)
  let s2 := mirrorCopies s1 p
  if metaF p 30 1 = 1 then pktLeave (bump (pktSet s2 k p) .cnpDrop (pipeOf p.lport) 0) k
  else if tier = 0 then
    if metaF p 31 1 = 1 then pktSet s2 k { p with stage := .released }
    else pktSet s2 k { p with stage := .toEgress, pinned := false }
  else pktSet s2 k { p with stage := .toGrove }

/-- The end of the second pass of packet `k` (04 R140, R146). -/
def endSecond (s : State) (k : Nat) (p0 : Packet) : State :=
  let p := fillShim p0
  let s2 := mirrorCopies s p
  if metaF p 30 1 = 1 then pktLeave (bump (pktSet s2 k p) .cnpDrop (pipeOf p.lport) 0) k
  else pktSet s2 k { p with stage := .toEgress, pinned := false }

/-- PASS_END (04 R140): the oldest packet of a lane leaves T7. -/
def passEnd (s : State) (i : Nat) (second : Bool) : State :=
  if s.gct.stopped then s
  else match pktFirst s (atStage i (if second then .passTwo else .passOne)) with
    | none => s
    | some (k, p) => if second then endSecond s k p else endFirst s k p

/-! ### Grove (07 R201–R208; 15 R425–R433) -/

/-- GROVE_ENTRY (07 R201, R207, R208; 15 R458): the first packet of the pipeline enters Grove, its route, phases and ms count sampled. At a
Tending boundary that is not ready it waits in the input buffer, and counts once there. -/
def groveEntry (s : State) (i : Nat) : State :=
  if s.gct.stopped then s
  else match pktFirst s (atStage i .toGrove) with
    | none => s
    | some (k, p) =>
      let waiting := (s.canopy.pkts.filter (fun e => atStage i .inGrove e.2)).length
      if boundaryStalls s p.stamp then
        let s1 := bump s .sqTendStall 0 0
        if p.waited then s1 else pktSet (bump s1 .grvWait i 0) k { p with waited := true }
      else if 2048 ≤ waiting then s
      else
        let route := regN s .grvRoute (metaF p 0 4) 0
        let applies := (List.range 4).any (entryApplies p route)
        let last := metaF p 26 2 == 1 && metaF p 31 1 == 0 && !applies
        let p1 := { p with stage := .inGrove, pinned := p.pinned && !last,
                           sample := some { route := route, phases := phasesFor s p.stamp, ms := msNow s } }
        let s1 := bump s .grvEval i 0
        pktSet (if waiting = 0 || p.waited then s1 else bump s1 .grvWait i 0) k p1

/-- The results of a packet's route, in order (07 R203–R205): for each entry its outputs, if it applied, and the results. -/
def evalRoute (s : State) (p : Packet) (x : GroveSample) : List (Option (List Nat)) × List EntryResult :=
  (List.range 4).foldl (fun acc e =>
    if entryApplies p x.route e then
      match fget? s.grove.slots (routeSlot x.route e) with
      | some g =>
        let r := evalEntry s p acc.1 g (bitN x.phases (routeSlot x.route e))
        (acc.1 ++ [some r.outs], acc.2 ++ [r])
      | none => (acc.1 ++ [none], acc.2)
    else (acc.1 ++ [none], acc.2)) ([], [])

/-- Reports the errors, the NaN results and the visits of a packet's entries (07 R205, R214; 21 GROVE_BUSY). -/
def reportEntries (s : State) (rs : List EntryResult) : State :=
  rs.foldl (fun t r =>
    let t1 := r.bad.foldl (fun u w => nodeError u w.1 w.2) t
    let t2 := if r.nan then bump t1 .grvNan 0 0 else t1
    (List.range 16).foldl (fun w u => obsAdd w 0 (8 + u) (r.visits.getD u 0)) t2) s

/-- The packet with its Tier 1 verdict (07 R206). -/
def putVerdict1 (p : Packet) (rs : List EntryResult) : Packet :=
  match rs.getLast? with
  | none => p
  | some r => metaPut (metaPut (metaPut (metaPut p 40 2 1) 48 16 r.cls) 64 16 r.score) 80 16 r.model

/-- A packet that takes no verdict of Tier 2 goes on to its second pass, or to egress (01 R39 step 7, 04 R146). -/
def goOn (s : State) (k : Nat) (p : Packet) (verdict : Bool) : State :=
  if verdict || metaF p 31 1 = 1 then pktSet s k { p with stage := .released }
  else pktSet s k { p with stage := .toEgress, pinned := false }

/-- A packet's token waits for the dispatcher. -/
def queueToken (s : State) (i : Nat) (r : TokenReq) : State :=
  { s with tiers := { s.tiers with tokenWait := fmodD [] s.tiers.tokenWait i (fun l => l ++ [r]) } }

/-- The end of Grove for packet `k` (07 R206; 15 R426, R427, R431, R433). -/
def groveDone (s : State) (k : Nat) (p0 : Packet) (rs : List EntryResult) : State :=
  let i := pipeOf p0.lport
  let verdict := !rs.isEmpty
  let routeEsc := rs.any (·.esc)
  let esc := (metaF p0 26 2 == 2 || routeEsc) && bitN (regF s .sqT2Ctl 0 0 8 8) i
  let holds := p0.service != 2 && (verdict || esc)
  let p1 := { putVerdict1 p0 rs with passMode := p0.passMode || (holds && (freeHold s i).isNone) }
  let s1 := if routeEsc then tier1Record s p1 else s
  match holds, freeHold s1 i with
  | true, some e =>
    let key := holdKey i e
    let d := p1.stamp + (if esc then p1.dl2 else p1.dl1)
    if esc then
      let p2 := { p1 with stage := .toDispatch, hold := some key, escalated := true }
      let s2 := holdCreate (pktSet s1 k p2) key { pkt := k, deadline := d, tier2 := true }
      queueToken s2 i { pkt := k, snap := p2, hold := some key, handle := holdHandle s2 key }
    else
      let late := decide (d < stampNow s1)
      let s2 := holdRelease (holdCreate s1 key { pkt := k, deadline := d, tier2 := false }) key
      goOn (if late then bump s2 .sqT1Late i 0 else s2) k (if late then defer p1 else p1) verdict
  | true, none =>
    let p2 := { p1 with escalated := esc }
    let s2 := goOn (bump s1 .sqHoldFull i 0) k p2 verdict
    if esc then queueToken s2 i { pkt := k, snap := p2, hold := none, handle := 0 } else s2
  | false, _ =>
    let p2 := { p1 with escalated := esc }
    let s2 := goOn s1 k p2 verdict
    if esc then queueToken s2 i { pkt := k, snap := p2, hold := none, handle := 0 } else s2

/-- GROVE_VERDICT (07 R204–R206, R214): packet `k` is evaluated; `err` names a word in which an error has just arisen, and whether
it is uncorrectable. -/
def groveVerdict (s : State) (k : Nat) (err : Option (Nat × Nat × Bool)) : State :=
  if s.gct.stopped then s
  else match pktGet s k with
    | none => s
    | some p =>
      match p.stage, p.sample with
      | .inGrove, some x =>
        let s0 := match err with
          | some (u, w, b) => wordErrorArises s u w b
          | none => s
        let (outs, rs) := evalRoute s0 p x
        groveDone (reportEntries s0 rs) k { p with outputs := outs } rs
      | _, _ => s

/-! ### Second pass and egress (01 R42; 04 R127, R143; 03 R123) -/

/-- Two packets are of one flow on one ingress port (01 R42). DEDUCED: log 67. -/
def sameFlow (p q : Packet) : Bool :=
  p.lport == q.lport && (match p.prs, q.prs with
    | some a, some b => a.key == b.key
    | _, _ => false)

/-- An earlier packet of the same flow stands before packet `k` at one of the stages that `f` names. DESIGN CHOICE: log 66. -/
def behind (s : State) (k : Nat) (p : Packet) (f : Packet → Bool) : Bool :=
  s.canopy.pkts.any (fun e => decide (e.1 < k) && sameFlow e.2 p && f e.2)

/-- SECOND_PASS_ENTRY (04 R127, R138; 15 R430): packet `k` enters T0 of the second lane, unless an earlier packet of its flow and
egress port is still held. DESIGN CHOICE: log 66. -/
def secondPassEntry (s : State) (k : Nat) : State :=
  if s.gct.stopped then s
  else match pktGet s k with
    | none => s
    | some p =>
      let waits := behind s k p (fun q => metaF q 16 6 == metaF p 16 6 &&
        (q.stage == .toDispatch || q.stage == .held || q.stage == .released))
      if p.stage != .released || waits then s
      else
        let (s1, p1) := runStages true (s, enterSecond p) [0, 1, 2, 3, 4, 5, 6, 7]
        pktSet s1 k { p1 with stage := .passTwo }

/-- Some cell of the packet holds a poisoned granule (06 R180). -/
def pktPoisoned (s : State) (p : Packet) : Bool :=
  p.badFcs || cellsFail s p.cells

/-- Sends a packet's bytes on a logical port, cut to `trunc` bytes (FCS included) where that is not 0, or discards it
(03 R123, 04 R142). That a port whose link is down discards as a disabled one does is the model's choice. DESIGN CHOICE: log 23, log 158. -/
def transmit (s : State) (k : Nat) (p : Packet) (port trunc : Nat) (copy : Bool) : State :=
  let v := if copy then p.viewNow else markPassMode p.viewNow p.passMode
  let whole := v.work.length + 4
  let len := if trunc = 0 then whole else min whole trunc
  if !portLive s port then pktLeave (bump s .prtEgressDrop 0 0) k
  else if regF s .prtCfg (port / 4) 0 16 14 < len then pktLeave (bump s .cnpOversizeDrop 0 0) k
  else
    let s0 := readCells s p.cells
    let bad := pktPoisoned s0 p
    let s1 := bumpBy (bump s0 .prtTxFrames port 0) .prtTxBytes port 0 len
    let s2 := if bad then bump s1 .hwdPktStomp 0 0 else s1
    pktLeave { s2 with sent := s2.sent ++ [.data port (v.work.take (len - 4)) (!bad) copy] } k

/-- An earlier packet of the flow may still leave on the same port (01 R42): until its last pass is over an action may steer it there.
DEDUCED: log 67. -/
def orderBlocks (p q : Packet) : Bool :=
  match q.stage with
  | .mirror _ _ => false
  | .passTwo => metaF q 16 6 == metaF p 16 6
  | .toEgress => metaF q 16 6 == metaF p 16 6
  | _ => true

/-- EGRESS (03 R123; 04 R142–R144; 01 R42): packet or mirror copy `k` leaves. -/
def egress (s : State) (k : Nat) : State :=
  if s.gct.stopped then s
  else match pktGet s k with
    | none => s
    | some p =>
      match p.stage with
      | .toEgress => if behind s k p (orderBlocks p) then s else transmit s k p (metaF p 16 6) 0 false
      | .mirror port trunc => transmit s k p port trunc true
      | _ => s

end Sys2Proof.Machine
end

