-- ==== Sys2Proof/Machine/Trust.lean ====
section
/-!
DEFINITION. The trust block (19): role keys, sessions, claim and release, the measurements, secure boot, the configuration record,
attestation and the audit log.
-/

namespace Sys2Proof.Machine

/-- The ASCII bytes of a text. -/
def ascii (t : String) : Bytes := t.toList.map (fun c => byteOf c.toNat)

/-- Changes the trust block. -/
def trustMod (s : State) (f : Trust → Trust) : State := { s with trust := f s.trust }

/-! ### Role keys (19 "Role keys and their origin") -/

/-- GEN of an operator slot. -/
def slotGen (s : State) (j : Nat) : Nat := fgetD 0 s.trust.gens j

/-- The operator key of slot `j` under an installer root. -/
def operatorKey (s : State) (root : Bytes) (j : Nat) : Bytes :=
  hkdf [] root (ascii "AEDEM OPERATOR" ++ [byteOf j] ++ beBytes 4 (slotGen s j)) 32

/-- The role key that an open names, when it is held and enabled (R516 step 1). -/
def openKey (s : State) (role slot : Nat) : Option Bytes :=
  match role with
  | 1 => some (hkdf [] Config.deviceSecret (ascii "AEDEM MAKER") 32)
  | 2 => s.trust.root
  | 3 => if slot < 16 ∧ bitN s.trust.ens slot then s.trust.root.map (fun r => operatorKey s r slot) else none
  | _ => none

/-- The number of the open counter of a key: 0 maker, 1 installer, 2 + j operator slot j. -/
def counterOf (role slot : Nat) : Nat := match role with | 1 => 0 | 2 => 1 | _ => 2 + slot

/-- The first 16 bytes of the HMAC over a frame's header and body (02 R63). -/
def frameTag (key : Bytes) (f : CmdFrame) : Bytes :=
  (hmac key (beBytes 1 f.version ++ beBytes 1 f.kind ++ beBytes 2 f.flags ++ beBytes 4 f.session ++ beBytes 8 f.seq ++
    beBytes 2 f.opcode ++ beBytes 2 f.length ++ beBytes 1 f.status ++ beBytes 3 f.resv ++ f.body)).take 16

/-- INSTALLER_ID of a root; 32 zero bytes without one (R518, R530). -/
def installerId (s : State) : Bytes :=
  match s.trust.root with
  | some r => sha256 (ascii "AEDEM INSTALLER ID" ++ r)
  | none => zeros 32

/-! ### Measurements (R527) -/

/-- Measurement register `m`. -/
def measGet (s : State) (m : Nat) : Bytes := (List.range 4).flatMap (fun w => leBytes 8 (regN s .trsMeas (4 * m + w) 0))

/-- Sets measurement register `m`. -/
def measPut (s : State) (m : Nat) (b : Bytes) : State :=
  (List.range 4).foldl (fun t w => regPut t .trsMeas (4 * m + w) 0 (leAt b (8 * w) 8)) s

/-- Extends measurement register `m` with 32 bytes. DEDUCED: log 62. -/
def measExtend (s : State) (m : Nat) (x : Bytes) : State := measPut s m (sha256 (measGet s m ++ x))

/-- The identity state that M3 is extended with. -/
def identityState (s : State) : Bytes :=
  sha256 (installerId s ++ (List.range 16).flatMap (fun j => beBytes 4 (slotGen s j) ++ [byteOf (b2n (bitN s.trust.ens j))]) ++
    (List.range 8).flatMap (fun k => fgetD (zeros 32) s.trust.signers k) ++ [byteOf s.trust.signerEn])

/-- M3 takes the identity state. -/
def extendIdentity (s : State) : State := measExtend s 3 (identityState s)

/-! ### Sessions (02 R67; R515–R517) -/

/-- The commands that were accepted and have not begun complete with WRONG_STATE, and the session closes (R517) with its subscriptions
(02 R91): a record that waits is no longer numbered for it, so a later session with the same ID does not get it. -/
def dropSession (s : State) (i : Nat) : State :=
  match sessionGet s i with
  | none => s
  | some x =>
    let ends := x.held.map (fun f => ({ cmd := f, wait := .audit (complete 0x0C []), key := x.key, role := x.role.code, slot := x.keySlot,
                                        order := s.gct.begun, waited := false } : ExecCmd))
    { s with
      gct := { s.gct with sessions := ferase s.gct.sessions i, anon := s.gct.anon ++ ends,
                          subs := s.gct.subs.filter (fun u => u.session != i)
                          recq := s.gct.recq.map (fun e => (e.1, e.2.map (fun r => r.without i)))
                          stateWait := s.gct.stateWait.map (fun r => r.without i) }
      obs := { s.obs with recs := s.obs.recs.map (fun r => { r with seqs := r.seqs.filter (fun e => e.1 != i) }) }
      trust := { s.trust with quotes := ferase s.trust.quotes i } }

/-- A session closes under R517: when its command in execution has completed, at once where there is none. DEDUCED: log 31. -/
def closeSession (s : State) (i : Nat) : State :=
  match sessionGet s i with
  | none => s
  | some x =>
    if x.exec.isSome then sessionMod s i (fun x => { x with closing := true })
    else dropSession (auditEvent s 4 i []) i

/-- Closes the sessions of which `p` holds. -/
def closeWhere (s : State) (p : Session → Bool) : State :=
  (s.gct.sessions.filter (fun e => p e.2)).foldl (fun t e => closeSession t e.1) s

/-- The first number from `v` on that is nonzero, below 2³² and no open session's ID. DESIGN CHOICE: log 24. -/
def freeSession (s : State) (v fuel : Nat) : Nat :=
  match fuel with
  | 0 => v
  | k + 1 => if v = 0 ∨ (sessionGet s v).isSome then freeSession s ((v + 1) % 2 ^ 32) k else v

/-- A session opens (R516): its ID and its MNONCE are free values. DESIGN CHOICE: log 24. -/
def openSession (s : State) (role slot : Nat) (roleKey hnonce : Bytes) : Completion × Bytes × State :=
  let (v, s1) := freeBits s 32
  let (n, s2) := freeBits s1 256
  let id := freeSession s2 v 66
  let mnonce := beBytes 32 n
  let key := hkdf (hnonce ++ mnonce) roleKey
    (ascii "AEDEM GCT SESSION" ++ beBytes 4 id ++ [byteOf role, byteOf slot]) 32
  let x : Session := {
    role := if role = 1 then .maker else if role = 2 then .installer else .operator
    key := key, next := 1, held := [], exec := none, stored := [], idleFrom := s.idleClock, authFails := [], keySlot := slot
    closing := false, muted := false }
  (complete 0 (beBytes 4 id ++ zeros 4 ++ mnonce), key, { s2 with gct := { s2.gct with sessions := finsert s2.gct.sessions id x } })

/-- An open that fails at step 1 or 2 (R516). -/
def openFails (s : State) : Completion × Bytes × State := (complete 0x10 [], [], bump s .trsOpenFail 0 0)

/-- An open that completes with a status and opens nothing. -/
def openRefused (s : State) (status : Nat) : Completion × Bytes × State := (complete status [], [], s)

/-- Steps 3 and 4 of R516: fields, length and the session limit. -/
def openChecks (s : State) (f : CmdFrame) : Nat :=
  let b := f.body
  let mode := byteAt b 0
  let slotOk := byteAt b 1 == 3 || byteAt b 2 == 0
  if f.flags != 0 || f.status != 0 || f.resv != 0 || !allZero (slice b 3 5) || !slotOk ||
      !((mode == 1 && f.length == 40) || (mode == 2 && f.length == 1128 && byteAt b 1 == 2)) then 0x0D
  else if decide (64 ≤ s.gct.sessions.length) then 0x20 else 0

/-- The key's open counter takes the sequence number. DEDUCED: log 132. -/
def takeCounter (s : State) (role slot seq : Nat) : State :=
  trustMod s (fun t => { t with opens := fsetD 0 t.opens (counterOf role slot) seq })

/-- A valid claim (R518): the root is stored, the operator slots are cleared, and an installer session opens. -/
def claimDone (s : State) (root hnonce : Bytes) (seq : Nat) : Completion × Bytes × State :=
  let s1 := trustMod (takeCounter s 2 0 seq) (fun t => { t with root := some root, gens := [], ens := 0 })
  openSession (extendIdentity (auditEvent s1 3 0 [1])) 2 0 root hnonce

/-- A claim (R516, R518). DEDUCED: log 132. -/
def sessionClaim (s : State) (f : CmdFrame) : Completion × Bytes × State :=
  let b := f.body
  let hnonce := slice b 8 32
  let root := hkdf hnonce (Config.kemShared Config.deviceSecret (slice b 40 1088)) (ascii "AEDEM INSTALLER") 32
  let onCommand := match f.port with
    | .command _ => true
    | .logical _ => false
  if frameTag root f != f.tag then openFails s
  else if s.trust.root.isSome || !(s.gct.dev == .ready || s.gct.dev == .maintenance) || !onCommand || f.seq != 1 then openRefused s 0x0C
  else if f.seq ≤ fgetD 0 s.trust.opens 1 then openFails s
  else
    let st := openChecks s f
    if st ≠ 0 then openRefused s st else claimDone s root hnonce f.seq

/-- A SESSION_OPEN that is no claim (R516). -/
def sessionOpen (s : State) (f : CmdFrame) : Completion × Bytes × State :=
  let b := f.body
  let role := byteAt b 1
  let slot := byteAt b 2
  match openKey s role slot with
  | none => openFails s
  | some k =>
    if frameTag k f != f.tag then openFails s
    else if f.seq ≤ fgetD 0 s.trust.opens (counterOf role slot) then openFails s
    else
      let st := openChecks s f
      if st ≠ 0 then openRefused s st
      else openSession (takeCounter s role slot f.seq) role slot k (slice b 8 32)

/-- SESSION_OPEN with MODE open or claim. -/
def sessionStart (s : State) (f : CmdFrame) : Completion × Bytes × State :=
  if byteAt f.body 0 = 2 then sessionClaim s f else sessionOpen s f

/-! ### Release, rotation, signers (R519, R520, R534) -/

/-- TRS_RELEASE (R519): none where the state does not allow it. The installer's open counter goes with its root. DEDUCED: log 132. -/
def trsRelease (s : State) : State :=
  if s.gct.dev == .ready || s.gct.dev == .maintenance then
    let s1 := trustMod s (fun t => { t with
      root := none, gens := [], ens := 0, signers := [], signerEn := 0, opens := ferase t.opens 1 })
    closeWhere (extendIdentity (auditEvent s1 3 0 [2])) (fun x => x.role == .installer || x.role == .operator)
  else s

/-- The operator sessions of slot `j`. -/
def slotSession (j : Nat) (x : Session) : Bool := x.role == .operator && x.keySlot == j

/-- ROTATE (R520). -/
def trsRotate (s : State) (j : Nat) : State :=
  if 16 ≤ j then s
  else
    let s1 := trustMod s (fun t => { t with gens := fmodD 0 t.gens j (fun g => (g + 1) % 2 ^ 32), opens := ferase t.opens (2 + j) })
    closeWhere (extendIdentity s1) (slotSession j)

/-- OPKEY_ENABLE (R520). -/
def opkeyEnable (s : State) (j : Nat) (en : Bool) : State :=
  if 16 ≤ j then s
  else
    let same := bitN s.trust.ens j == en
    let s1 := trustMod s (fun t => { t with ens := setBitN t.ens j en })
    let s2 := if same then s1 else extendIdentity s1
    if en then s2 else closeWhere s2 (slotSession j)

/-- A write of TRS_CTL.SIGNER_EN. -/
def signerEnable (s : State) (v : Nat) : State :=
  if s.trust.signerEn = v % 256 then s else extendIdentity (trustMod s (fun t => { t with signerEn := v % 256 }))

/-- A write of word `w` of signer hash `k`; none while the signer is enabled (R534). -/
def signerWrite (s : State) (k w v : Nat) : Option State :=
  if bitN s.trust.signerEn k then none
  else
    let b := splice (fgetD (zeros 32) s.trust.signers k) (8 * w) (leBytes 8 v)
    some (extendIdentity (trustMod s (fun t => { t with signers := fsetD (zeros 32) t.signers k b })))

/-! ### Firmware and the configuration record (R525, R528, R529) -/

/-- The complete firmware image of a slot. -/
def firmwareAt (s : State) (slot : Nat) : Option Bytes :=
  (fget? s.flash.fw slot).bind (fun t => if t.complete then some t.data else none)

/-- FIRMWARE_ACTIVATE (R525). -/
def firmwareActivate (s : State) (f : CmdFrame) : Answer :=
  let b := f.body
  let slot := byteAt b 0
  let flags := byteAt b 1
  if f.length != 8 || decide (1 < slot) || decide (1 < flags) || !allZero (slice b 2 6) then refuse s 0x0D
  else match firmwareAt s slot with
    | none => refuse (sigBad s) 0x70
    | some img =>
      if firmwareVerifies s img then
        let svn := leAt img 8 4
        (complete 0 [], trustMod s (fun t => { t with bootSlot := slot, minSvn := if flags = 1 then svn else t.minSvn }))
      else refuse (sigBad s) 0x70

/-- A register of the configuration record: family, instance, index and the mask of its fields. -/
abbrev ConfigReg := RegName × Nat × Nat × Nat

/-- The registers of one instance that hold fields of the configuration record (R528; the register tables). -/
def configSingles : List ConfigReg :=
  [(.gctIpv4, 0, 0, 0xFFFFFFFF), (.gctIpv6, 0, 0, 2 ^ 64 - 1), (.gctIpv6, 0, 1, 2 ^ 64 - 1), (.gctRecq, 0, 0, 0x0FFF0FFF),
   (.flwHash, 0, 0, 2 ^ 64 - 1), (.flwNotify, 0, 0, 0xFFF), (.xltSpaceBase, 0, 0, 2 ^ 48 - 2 ^ 20), (.crnMem, 0, 0, 2 ^ 56 - 2 ^ 30),
   (.crnEvqBase, 0, 0, 2 ^ 48 - 2 ^ 17), (.sqTendCtl, 0, 0, 0xFFF * 2 ^ 32), (.obsChaifDmac, 0, 0, 2 ^ 48 - 1)]

/-- A family of registers that hold fields of the configuration record. -/
def configFamily (n : RegName) (count mask : Nat) : List ConfigReg := (List.range count).map (fun i => (n, 0, i, mask))

/-- The registers that hold fields of the configuration record (R528; the register tables). DESIGN CHOICE: log 56. -/
def configRegs : List ConfigReg :=
  [configSingles, configFamily .prtCfg 16 7, configFamily .cnpEgressMap 64 0x3F, configFamily .flwBase 8 (2 ^ 48 - 2 ^ 29),
   configFamily .flwShadow 8 (2 ^ 48 - 2 ^ 23), configFamily .grvOrdBase 8 (2 ^ 48 - 2 ^ 25), configFamily .spnLink 8 1,
   configFamily .sqT2Set 16 (0xFFF + 0x7FF * 2 ^ 16 + 0xFFF * 2 ^ 32), configFamily .sqCfg 4096 (1 + 0x1FFF * 16),
   configFamily .sqBind 4096 (2 ^ 48 - 1),
   (List.range 32).map (fun i => (.hbmMir, 2 * (i / 8), i % 8, 1 + (2 ^ 30 - 1) * 64))].flatten

/-- The register pairs of a record, with ascending addresses (R528). -/
def configPairs (s : State) : List (Nat × Nat) :=
  configRegs.foldl (fun m e => finsert m (regAddr (mkReg e.1 e.2.2.1 e.2.1)) (regN s e.1 e.2.2.1 e.2.1 &&& e.2.2.2)) []

/-- Writes the pairs of a record into the registers. DESIGN CHOICE: log 56. -/
def loadPairs (s : State) (pairs : List (Nat × Nat)) : State :=
  configRegs.foldl (fun t e =>
    match fget? pairs (regAddr (mkReg e.1 e.2.2.1 e.2.1)) with
    | some v => regPut t e.1 e.2.2.1 e.2.1 (regN t e.1 e.2.2.1 e.2.1 - (regN t e.1 e.2.2.1 e.2.1 &&& e.2.2.2) + v)
    | none => t) s

/-- A MODE_SET item as a record holds it, little-endian (R528). -/
def ModeItem.record (x : ModeItem) : Bytes := [byteOf x.mode, byteOf x.scope, 0, 0] ++ leBytes 4 x.value ++ leBytes 4 x.dl1 ++ leBytes 4 x.dl2

/-- The bytes of a configuration record (R528); the address of a pair is a physical address. DESIGN CHOICE: log 56. -/
def recordBytes (s : State) (version : Nat) : Bytes :=
  let pairs := (configPairs s).flatMap (fun e => leBytes 8 e.1 ++ leBytes 8 e.2)
  let body := (modeItems s).flatMap ModeItem.record ++ pairs
  let head := leBytes 4 4 ++ leBytes 4 version ++ leBytes 8 (16 + body.length + 17088)
  head ++ body ++ padTo (Config.slhSign (head ++ body)) 17088

/-- The record of higher VERSION, with its place: 0 A, 1 B. -/
def newestRecord (s : State) : Option (Nat × ConfigRecord) :=
  match fget? s.flash.cfg 0, fget? s.flash.cfg 1 with
  | some a, some b => if a.version < b.version then some (1, b) else some (0, a)
  | some a, none => some (0, a)
  | none, some b => some (1, b)
  | none, none => none

/-- SAVE (R529): the present values go into the older copy; none where the state does not allow it. DESIGN CHOICE: log 130. -/
def trsSave (s : State) : State :=
  if s.gct.dev == .ready || s.gct.dev == .maintenance then
    let (place, version) := match newestRecord s with
      | some (p, r) => (1 - p, r.version + 1)
      | none => (0, 1)
    let r : ConfigRecord := { version := version % 2 ^ 32, bytes := recordBytes s (version % 2 ^ 32), pairs := configPairs s,
                              modes := { s.gct.modes with pending := [] } }
    flashMod s (fun x => { x with cfg := finsert x.cfg place r })
  else s

/-- FACTORY (R528): the next boot takes the factory record. DEDUCED: log 131. -/
def trsFactory (s : State) : State := trustMod s (fun t => { t with factory := true })

/-! ### Secure boot (R526) -/

/-- The cores and pseudo-channels that the retirement records in CONFIG name, the Compass table and the reserve (22 R573, R576; 14 R418;
01 R59). -/
def bootTables (s : State) : State :=
  let s1 := { s with compass := { Compass.reset with log := s.flash.retired } }
  let s2 := s.flash.retired.foldl (fun t e => regPutF (regPutF t .fctId 0 e.core (33 + e.array) 1 1) .fctId 0 e.core 32 1 0) s1
  let s3 := (List.range 8).foldl (fun t st =>
    let v := fgetD 0 s.flash.hbmRetired st
    let n := ((List.range 32).filter (fun p => bitsN v (2 * p) 2 == 2)).length
    let bad := (List.range 32).any (fun p => bitsN v (2 * p) 2 == 3)
    regPutF (regPutF (regPut t .hbmPcState 0 st v) .hbmStatus 0 st 16 2 n) .hbmStatus 0 st 18 1 (b2n bad)) s2
  (List.range 4).foldl (fun t l => (bootReserve t l).foldl (fun t k => coreMod t k (fun c => { c with reserve := true })) t) s3

/-- The watchdog periods of the Crown cores begin when firmware starts (17 R493). -/
def crownStart (s : State) : State :=
  { s with crown := { s.crown with kick := (List.range 16).map (fun c => (c, s.idleClock)) } }

/-- Steps 1 to 5 with the firmware that verifies. -/
def bootWith (s : State) (slot : Nat) (img : Bytes) (fallback : Bool) : State :=
  let s1 := measExtend s 1 (sha256 (img.take 88))
  let rec_ := if s.trust.factory then none else newestRecord s
  let src := match rec_ with
    | some (p, _) => p
    | none => 2
  let s2 := trustMod s1 (fun t => { t with
    runSlot := slot, fallback := fallback, fwVersion := leAt img 4 4, runSvn := leAt img 8 4, cfgSrc := src, factory := false
    cfgVersion := (rec_.map (fun r => r.2.version)).getD 0 })
  let s3 := match rec_ with
    | some (_, r) => measExtend (modesMod (loadPairs s2 r.pairs) (fun _ => r.modes)) 2 (sha256 r.bytes)
    | none => measExtend s2 2 (zeros 32)
  enterState (crownStart (extendIdentity (auditEvent s3 1 0 [byteOf (b2n fallback), byteOf src]))) .ready

/-- SECURE_BOOT (R526; 02 R78): the boot slot, else the other slot, else FAULTED with cause 0x01. DEDUCED: log 131. -/
def secureBoot (s : State) : State :=
  if s.gct.dev != .secureBoot then s
  else
    let s1 := trustMod (bootTables s) (fun t => { t with boots := (t.boots + 1) % 2 ^ 64 })
    let s2 := (List.range 8).foldl (fun t m => measPut t m (zeros 32)) s1
    let s3 := measExtend s2 0 (sha256 Config.bootRom)
    let ok (n : Nat) : Option Bytes := (firmwareAt s3 n).bind (fun b => if firmwareVerifies s3 b then some b else none)
    match ok s.trust.bootSlot with
    | some b => bootWith s3 s.trust.bootSlot b false
    | none =>
      match ok (1 - s.trust.bootSlot) with
      | some b => bootWith (sigBad s3) (1 - s.trust.bootSlot) b true
      | none => enterFaulted (trustMod (sigBad (sigBad s3)) (fun t => { t with fallback := true })) 1

/-! ### TRS registers that show the trust block -/

/-- TRS_STATUS. -/
def trsStatus (s : State) : Nat :=
  let t := s.trust
  b2n t.root.isSome + t.bootSlot % 2 * 2 + t.runSlot % 2 * 4 + b2n t.fallback * 8 + t.cfgSrc % 4 * 16 + t.fwVersion % 2 ^ 32 * 2 ^ 32

/-- TRS_OPKEY_j. -/
def trsOpkey (s : State) (j : Nat) : Nat := slotGen s j + b2n (bitN s.trust.ens j) * 2 ^ 32

/-! ### Attestation (R530) -/

/-- The first 416 bytes of a quote. -/
def quoteHead (s : State) (x : Session) (nonce : Bytes) : Bytes :=
  beBytes 4 3 ++ zeros 4 ++ padTo Config.serialNumber 16 ++ padTo nonce 32 ++ beBytes 8 s.trust.boots ++ beBytes 8 (stampNow s) ++
    beBytes 2 (gctState s) ++ [byteOf x.role.code, byteOf x.keySlot] ++ beBytes 4 s.trust.fwVersion ++ beBytes 4 s.trust.minSvn ++
    zeros 4 ++ beBytes 8 s.trust.nextSeq ++ s.trust.chain ++ installerId s ++ (List.range 8).flatMap (measGet s)

/-- A quote of 26,592 bytes. -/
def quoteBytes (s : State) (x : Session) (nonce : Bytes) : Bytes :=
  let h := quoteHead s x nonce
  h ++ padTo (Config.slhSign h) 17088 ++ padTo Config.deviceCert 9088

/-- One part of a quote. -/
def quotePart (q : Quote) (off : Nat) : Completion :=
  complete 0 (beBytes 4 q.id ++ beBytes 4 26592 ++ beBytes 8 off ++ slice q.bytes off 8176)

/-- ATTEST_QUOTE (R530) of session `i`. The ID of a new quote is a free value that is not 0. -/
def attestQuote (s : State) (i : Nat) (f : CmdFrame) : Answer :=
  let b := f.body
  let off := beAt b 0 8
  let qid := beAt b 8 4
  match sessionGet s i with
  | none => refuse s 0x0D
  | some x =>
    if f.length != 48 || !allZero (slice b 12 4) || off % 8176 != 0 || decide (26592 ≤ off) then refuse s 0x0D
    else if off = 0 && qid == 0 then
      let (v, s1) := freeBits s 32
      let q : Quote := { id := if v = 0 then 1 else v, bytes := quoteBytes s x (slice b 16 32) }
      (quotePart q 0, trustMod s1 (fun t => { t with quotes := finsert t.quotes i q, quoteCount := t.quoteCount + 1 }))
    else match fget? s.trust.quotes i with
      | none => refuse s 0x02
      | some q => if q.id = qid then (quotePart q off, s) else refuse s 0x02

/-! ### The audit log (R531–R533) -/

/-- Opcodes that are recorded in summaries (R531). -/
def summarised (opcode : Nat) : Bool :=
  decide (opcode ∈ [0x0001, 0x0004, 0x0031, 0x0010, 0x0080, 0x0042, 0x0012, 0x0013, 0x0050, 0x0051, 0x0052, 0x0071, 0x0070])

/-- The arrival port as an audit record names it. -/
def auditPort (p : PortId) : Nat :=
  match p with
  | .command n => 0x80 + n.val
  | .logical m => m.val

/-- Counts a summarised command (R531). -/
def countSummary (s : State) (role slot opcode status port session : Nat) (body : Bytes) : State :=
  let hit (x : AuditSum) : Bool := x.session == session && x.opcode == opcode && x.status == status
  let new (n : Nat) : AuditSum := { session := session, role := role, slot := slot, opcode := opcode, status := status, port := port,
                                    body := body.take 16, count := n }
  let n := ((s.trust.sums.find? hit).map (fun x => x.count)).getD 0
  trustMod s (fun t => { t with sums := t.sums.filter (fun x => !hit x) ++ [new (n + 1)] })

/-- The record of a summary. -/
def summaryRecord (s : State) (x : AuditSum) : Bytes :=
  auditRecord s 2 x.role x.slot x.status x.opcode x.port x.session x.count x.body

/-- Summaries enter the staging area while it has room. -/
def addSummaries (s : State) (fuel : Nat) : State :=
  match fuel, s.trust.sums with
  | k + 1, x :: rest =>
    if auditFull s then s else addSummaries (trustMod (auditAdd s (summaryRecord s x)) (fun t => { t with sums := rest })) k
  | _, _ => s

/-- AUDIT_SUMMARY (R531): a second has passed; each session, opcode and status with a count gets one record. -/
def auditSummary (s : State) : State :=
  if s.clock < s.trust.sumsAt + 1250000000 then s
  else addSummaries (trustMod s (fun t => { t with sumsAt := s.clock })) s.trust.sums.length

/-- Records that the AUDIT partition holds (R495): 100 GB of 64 bytes. -/
def auditCapacity : Nat := 1562500000

/-- AUDIT_DRAIN (R532): the staged records go to the AUDIT partition, where the oldest give way. -/
def auditDrain (s : State) : State :=
  let put (m : FMap AuditRec) (r : AuditRec) : FMap AuditRec := finsert m (beAt r.bytes 0 8) r
  let m := s.trust.staging.foldl put s.flash.audit
  let kept := m.drop (m.length - auditCapacity)
  let s1 := flashMod s (fun x => countWritten { x with audit := kept } 6 (64 * s.trust.staging.length))
  trustMod s1 (fun t => { t with staging := [] })

/-- Every retained record with its number. -/
def auditAll (s : State) : FMap AuditRec :=
  s.trust.staging.foldl (fun m r => finsert m (beAt r.bytes 0 8) r) s.flash.audit

/-- AUDIT_READ (R533). -/
def auditRead (s : State) (f : CmdFrame) : Answer :=
  let b := f.body
  let first := beAt b 0 8
  let n := beAt b 8 2
  let all := auditAll s
  if f.length != 16 || !allZero (slice b 10 6) || n = 0 || decide (127 < n) then refuse s 0x0D
  else match fget? all first with
    | none => refuse s 0x02
    | some r =>
      let oldest := (all.head?.map Prod.fst).getD 0
      let recs := (List.range n).filterMap (fun i => (fget? all (first + i)).map (fun r => r.bytes))
      (complete 0 (beBytes 8 first ++ beBytes 8 oldest ++ beBytes 8 s.trust.nextSeq ++ r.before ++ zeros 8 ++ recs.flatten), s)

end Sys2Proof.Machine
end

