-- ==== Sys2Proof/Machine/RegView.lean ====
section
/-!
DEFINITION. What the registers read (00 R21–R25): the registers that show other state of the module, computed from that state, and every
other register as it is stored; REG_READ of one register (02 R76, R83).
-/

namespace Sys2Proof.Machine

/-! ### Registers that show other state -/

/-- PRT_STATUS_n (03). -/
def prtStatusReg (s : State) (n : Nat) : Nat := bitsN s.ports.link (4 * n) 4 + bitsN s.ports.hiSer (4 * n) 4 * 16

/-- Sixteen bits, one for each table `t`, that `p` sets. -/
def tableBits (p : Nat → Bool) : Nat := (List.range 16).foldl (fun a t => if p t then a + 2 ^ t else a) 0

/-- CNP_BANK (04). -/
def cnpBankReg (s : State) : Nat :=
  s.canopy.active % 65536 + tableBits (fun t => 0 < pinCount s t 0) * 2 ^ 16 + tableBits (fun t => 0 < pinCount s t 1) * 2 ^ 32

/-- FLW_COUNT_i (05). -/
def flwCountReg (s : State) (i : Nat) : Nat :=
  fgetD 0 s.flow.entries i + lockedCount s i * 2 ^ 32 + (errorList s i).length * 2 ^ 39

/-- HWD_USAGE (06): queue-tail cells, staging cells (16 for each frame of the flow-context cache, and cells of class 4), and trace
cells in use. -/
def hwdUsageReg (s : State) : Nat :=
  cellsOfClass s 3 + (16 * s.tiers.frames.length + cellsOfClass s 4) * 2 ^ 21 + ceilDiv (traceHeld s) 256 * 2 ^ 42

/-- SQ_T2_CTXC (15): the stored FRAMES with PINNED and DIRTY. -/
def ctxcReg (s : State) : Nat :=
  regF s .sqT2Ctxc 0 0 0 14 + (s.tiers.frames.filter (fun e => e.2.pins != 0)).length * 2 ^ 16 +
    (s.tiers.frames.filter (fun e => e.2.dirty)).length * 2 ^ 32

/-- SQ_TEND_CTL (15): the stored fields with PENDING and T2_PHASE. -/
def tendCtlReg (s : State) : Nat :=
  setBitN (setBitN (regN s .sqTendCtl 0 0) 2 s.tiers.tend.pending) 3 s.tiers.tend.t2Phase

/-- The code of the state of a hardware context (08 FCT_HC_h.STATE). -/
def Hc.stateCode (x : Hc) : Nat :=
  if x.stop then 5
  else match x.st with
    | .issuing => 1
    | .waiting => 2
    | .runAhead => 3
    | .suspended _ _ _ _ => 4
    | .debug => 6

/-- FCT_STATUS (08). -/
def fctStatusReg (s : State) (k : Nat) : Nat :=
  let c := coreGet s k
  c.hcs.foldl (fun a e => a + 2 ^ e.1 + (if e.2.st == .runAhead then 2 ^ (8 + e.1) else 0)) 0 +
    (match c.claim with | some h => h % 8 * 2 ^ 16 + 2 ^ 19 | none => 0) + b2n c.reserve * 2 ^ 20 + b2n c.evac * 2 ^ 21

/-- FCT_HC_h (08). -/
def fctHcReg (s : State) (k h : Nat) : Nat :=
  match hcGet s k h with
  | some x => x.stateCode + x.ctx % 65536 * 2 ^ 16 + b2n ((coreGet s k).claim == some h) * 2 ^ 32
  | none => 0

/-- FCT_FRAME_f (08). -/
def fctFrameReg (s : State) (k f : Nat) : Nat :=
  let x := fgetD FrameSt.free (coreGet s k).frames f
  x.st % 8 + x.ctx % 65536 * 2 ^ 16

/-- LAT_STATUS (10). -/
def latStatusReg (s : State) (k : Nat) : Nat :=
  let c := coreGet s k
  c.lat.shape0 % 4 + c.lat.shape1 % 4 * 4 + b2n c.bist0.since.isSome * 2 ^ 4 + b2n c.bist1.since.isSome * 2 ^ 5 +
    b2n c.bist0.overdue * 2 ^ 6 + b2n c.bist1.overdue * 2 ^ 7 + c.spareBusy % 4 * 2 ^ 8 +
    c.lat.slices.foldl (fun a e => a + 2 ^ (10 + e.1 % 8)) 0 + c.sched % 2 * 2 ^ 18

/-- The code of the state of a transfer tag (09 R280). -/
def TagSt.code (t : TagSt) : Nat :=
  match t with
  | .idle => 0 | .busy _ => 1 | .done => 2 | .failed _ => 3

/-- MOV_TAGS (12). -/
def movTagsReg (s : State) (k : Nat) : Nat :=
  (coreGet s k).hcs.foldl (fun a e =>
    a + (List.range 4).foldl (fun b x => b + (e.2.tag x).code * 2 ^ (8 * e.1 + 2 * x)) 0) 0

/-- The code of a power cap in W (23 PWR_CAP). -/
def capCode (w : Nat) : Nat := if w = 500 then 0 else if w = 750 then 1 else 2

/-- PWR_CAP (23). -/
def pwrCapReg (s : State) : Nat :=
  capCode s.gct.modes.cap + (match modePending s.gct.modes 5 with | some w => capCode w * 4 + 16 | none => 0)

/-- PWR_TEMP (23). -/
def pwrTempReg (s : State) : Nat :=
  (List.range 5).foldl (fun a i => a + fgetD 25 s.pwr.temps i % 256 * 2 ^ (8 * i)) 0 + s.pwr.throttled % 16 * 2 ^ 40

/-- Word `w` of a string of 32 bytes, byte 8w in bits [7:0] (19 R534). -/
def hashWord (b : Bytes) (w : Nat) : Nat := leAt b (8 * w) 8

/-- A logical port counter: one of a port that the present breakout does not use reads 0 (03). -/
def portCounter (s : State) (n : RegName) (m : Nat) : Nat := if portUsed s m then regN s n m 0 else 0

/-- The value that a register shows (00 R21). -/
def regView (s : State) (r : Reg) : Nat :=
  match r.name with
  | .gctState => gctState s
  | .gctUsage => s.gct.sessions.length + s.gct.slots.length * 2 ^ 16
  | .prtStatus => prtStatusReg s r.idx
  | .prtPool => poolHeld s
  | .prtRxFrames => portCounter s .prtRxFrames r.idx
  | .prtRxBytes => portCounter s .prtRxBytes r.idx
  | .prtRxFcsErr => portCounter s .prtRxFcsErr r.idx
  | .prtRxDiscard => portCounter s .prtRxDiscard r.idx
  | .prtRxAdmitDrop => portCounter s .prtRxAdmitDrop r.idx
  | .prtRxStateDrop => portCounter s .prtRxStateDrop r.idx
  | .prtTxFrames => portCounter s .prtTxFrames r.idx
  | .prtTxBytes => portCounter s .prtTxBytes r.idx
  | .cnpBank => cnpBankReg s
  | .hbmThrottleUs => heatUs s r.inst
  | .pwrThrottleUs => throttleUs s
  | .flwCount => flwCountReg s r.idx
  | .hwdUsage => hwdUsageReg s
  | .sqT2Ctxc => ctxcReg s
  | .sqTendCtl => tendCtlReg s
  | .sqT2Set => setBitN (regN s .sqT2Set r.idx 0) 48 (setGated s (r.idx / 2) (r.idx % 2))
  | .sqPtra => (queueGet s r.idx).wr.toNat + (queueGet s r.idx).cm.toNat * 2 ^ 32
  | .sqPtrb => (queueGet s r.idx).rd.toNat + (queueGet s r.idx).rl.toNat * 2 ^ 32
  | .sqMark => (queueGet s r.idx).mark.toNat
  | .grvPhase => s.grove.phases % 65536
  | .grvSlots => groveSlotsReg s
  | .grvSlot => groveSlotReg s r.idx
  | .grvFree => groveFreeReg s r.idx
  | .fctStatus => fctStatusReg s r.inst
  | .fctHc => fctHcReg s r.inst r.idx
  | .fctFrame => fctFrameReg s r.inst r.idx
  | .latStatus => latStatusReg s r.inst
  | .movTags => movTagsReg s r.inst
  | .spnStatus => setBitN (regN s .spnStatus 0 0) 1 (isCoord s)
  | .fshStatus => fshStatus s
  | .fshCapHead => s.flash.head
  | .fshCapTail => s.flash.tail
  | .fshWear => s.flash.wear
  | .fshPart => hostMb s r.idx
  | .trsStatus => trsStatus s
  | .trsCtl => s.trust.signerEn % 256
  | .trsSvn => s.trust.minSvn % 2 ^ 32 + s.trust.runSvn % 2 ^ 32 * 2 ^ 32
  | .trsCfg => s.trust.cfgVersion % 2 ^ 32 * 2 ^ 32
  | .trsOpkey => trsOpkey s r.idx
  | .trsSigner => hashWord (fgetD (zeros 32) s.trust.signers (r.idx / 4)) (r.idx % 4)
  | .trsInstallerId => hashWord (installerId s) r.idx
  | .pwrCap => pwrCapReg s
  | .pwrInput => s.pwr.mv % 65536 + s.pwr.ca % 65536 * 2 ^ 16 + s.pwr.dw % 65536 * 2 ^ 32
  | .pwrTemp => pwrTempReg s
  | _ => regN s r.name r.idx r.inst

/-! ### Reading (02 R76, R83) -/

/-- The blocks of the islands that stop at a cut (02 R79). -/
def Block.stops (b : Block) : Bool :=
  match b with
  | .prt => true | .prs => true | .cnp => true | .flw => true | .hwd => true | .sq => true | .grv => true | .fct => true | .lat => true
  | .mov => true | .xlt => true | .hbm => true | .crn => true
  | _ => false

/-- A register counts events and is cleared when it is read (00 R22). -/
def RegRow.counts (row : RegRow) : Bool := row.fields.any (fun f => f.acc == .rc)

/-- A window offset lies in a queue port of the Crown cores (17 R484). -/
def isQueuePort (a : Nat) : Bool := decide (0x01600000 + 0x100000 ≤ a) && decide (a < 0x01600000 + 0x100000 + 0x40 * 4096)

/-- Whether a role may read a block (08 R257, 10 R334, 12 R388, 13 R408). -/
def readRight (role : Role) (b : Block) : Bool :=
  match b with
  | .fct => role != .installer
  | .lat => role != .installer
  | .mov => role != .installer
  | .xlt => role != .installer
  | _ => true

/-- The block in whose part of the register window an address lies satisfies `p`; outside every block nothing is denied. -/
def blockAllows (p : Block → Bool) (a : Nat) : Bool :=
  match decodeBlock a with
  | some (b, _, _) => p b
  | none => true

/-- The status of a read of one register by a role: 0 where it is accepted. A role that may not read the block is denied at an offset that
holds no register too (00 R30). DEDUCED: log 57. -/
def readStatus (s : State) (role : Role) (a : Nat) : Nat :=
  if (compassWord s a).isSome then 0
  else if isQueuePort a then 0x11
  else match regAt a with
    | none => if blockAllows (readRight role) a then 0x0D else 0x11
    | some (row, _) => if row.name == .fshPort || row.name == .crnQport then 0x11 else if readRight role row.block then 0 else 0x11

/-- A WO field reads 0 (00 R22). -/
def maskWo (fs : List Field) (v : Nat) : Nat :=
  fs.foldl (fun a f => if f.acc == .wo then setBitsN a f.lo (f.hi + 1 - f.lo) 0 else a) v

/-- The value that a read of one register returns; 0 where no register lies. -/
def readValue (s : State) (a : Nat) : Nat :=
  match compassWord s a with
  | some v => v
  | none =>
    match regAt a with
    | some (row, r) => maskWo row.fields (regView s r) % 2 ^ 64
    | none => 0

/-- What reading does: an RC register is cleared, but not in a stopped island (00 R22; 02 R83, R598). -/
def readClear (s : State) (a : Nat) : State :=
  match regAt a with
  | some (row, r) =>
    if row.counts && !(s.gct.stopped && row.block.stops) then
      regSet (if r.name = .hbmThrottleUs then heatSettle s r.inst else if r.name = .pwrThrottleUs then throttleSettle s else s) r 0
    else s
  | none => s

end Sys2Proof.Machine
end

