-- ==== Sys2Proof/Machine/ObsRows.lean ====
section
/-!
DEFINITION. The commands and events of the observation block (21 R550–R570): counter reads, trace, cuts and scan-out.
-/

namespace Sys2Proof.Machine

/-! ### Counter reads (R550–R552, R556) -/

/-- The class lists the index (21 "Always-on counters", "Global counters", "Per-context counters"). -/
def counterListed (cls i : Nat) : Bool :=
  match cls with
  | 0 => decide (i ≤ 0x1A) || (decide (0x20 ≤ i) && decide (i ≤ 0x32))
  | 1 => decide (i < 0xA00) || (decide (i < 0xA40) && i % 8 != 7) || (decide (0xA40 ≤ i) && decide (i < 0xA90))
  | 2 => decide (i < 12)
  | _ => false

/-- The model keeps no count of this counter, because it counts cycles or the classes of R413: its value is free. DESIGN CHOICE: log 82. -/
def counterFree (cls i : Nat) : Bool :=
  match cls with
  | 0 => i == 0x18 || i == 0x19
  | 1 => decide (0x500 ≤ i)
  | _ => (decide (1 ≤ i) && decide (i ≤ 6)) || i == 11

/-- The values of counters, most significant byte first; `get` gives those that the model keeps. -/
def counterValues (s : State) (cls : Nat) (get : Nat → Nat) (is_ : List Nat) : Bytes × State :=
  match is_ with
  | [] => ([], s)
  | i :: t =>
    let (v, s1) := if counterFree cls i then freeBits s 64 else (get i, s)
    let (r, s2) := counterValues s1 cls get t
    (beBytes 8 (v % 2 ^ 64) ++ r, s2)

/-- The values of a bank of a counter set. -/
def bankValues (s : State) (bank : FMap Nat) (is_ : List Nat) : Bytes × State := counterValues s 2 (fgetD 0 bank) is_

/-- COUNTER_READ by a session of a role (R551, R556). DESIGN CHOICE: log 82. -/
def counterRead (s : State) (role : Role) (f : CmdFrame) : Answer :=
  let b := f.body
  let cls := byteAt b 0
  let ctx := beAt b 2 2
  let first := beAt b 4 2
  let n := beAt b 6 2
  let is_ := rangeFrom first n
  if (cls == 1 || cls == 2) && role != .operator then refuse s 0x11
  else if f.length != 8 || byteAt b 1 != 0 || (cls != 2 && ctx != 0) || n = 0 || decide (512 < n) || !is_.all (counterListed cls) then
    refuse s 0x0D
  else if cls = 2 then
    match (setOf s ctx).bind (fget? s.obs.sets) with
    | none => refuse s 0x0D
    | some x =>
      let (live, s1) := bankValues s x.live is_
      let (final, s2) := bankValues s1 x.final is_
      (complete 0 (beBytes 8 (stampNow s) ++ beBytes 4 x.bounds ++ zeros 4 ++ live ++ final), s2)
  else
    let (vs, s1) := counterValues s cls (fun i => fgetD 0 s.obs.ctr (ctrKey cls i)) is_
    (complete 0 (beBytes 8 (stampNow s) ++ zeros 8 ++ vs), s1)

/-! ### TRACE_CTL (R563) -/

/-- The body of an ENABLE is well formed. DEDUCED: log 135. -/
def traceEnableOk (b : Bytes) : Bool :=
  let src := byteAt b 2
  let pc := src % 2 == 1
  decide (byteAt b 1 ≤ 1) && decide (1 ≤ src) && decide (src < 8) && allZero (slice b 8 16) &&
    (if pc then decide (10 ≤ byteAt b 3) && decide (byteAt b 3 ≤ 24) && decide (beAt b 4 2 ≤ beAt b 6 2) && decide (beAt b 6 2 ≤ 1279)
     else byteAt b 3 == 0)

/-- ENABLE: the trace configuration is replaced, RSEQ and the Chaif SEQUENCE restart, and M7 is extended (19 R527). DEDUCED: log 135. -/
def traceEnable (s : State) (f : CmdFrame) : Answer :=
  let b := f.body
  if f.length != 24 || !traceEnableOk b then refuse s 0x0D
  else
    let src := byteAt b 2
    let pc := src % 2 == 1
    let v := 1 + byteAt b 1 * 2 + src * 4 + byteAt b 3 * 2 ^ 5 + (if pc then beAt b 4 2 * 2 ^ 10 + beAt b 6 2 * 2 ^ 21 else 0)
    let s1 := regPutF s .obsTrace 0 0 0 32 v
    let s2 := { s1 with obs := { s1.obs with rseq := [], chaifSeq := 0 } }
    (complete 0 [], measExtend s2 7 (sha256 (beBytes 2 f.opcode ++ b)))

/-- DISABLE: generation stops; the records held are still sent. -/
def traceDisable (s : State) (f : CmdFrame) : Answer :=
  if f.length != 24 || !allZero (f.body.drop 1) then refuse s 0x0D else (complete 0 [], regPutF s .obsTrace 0 0 0 1 0)

/-- MARKER: a marker record, where markers are selected (R557). DEDUCED: log 124. -/
def traceMarker (s : State) (f : CmdFrame) : Answer :=
  if f.length != 24 || !allZero (slice f.body 1 7) || !allZero (slice f.body 16 8) then refuse s 0x0D
  else (complete 0 [], if traceOn s 2 then traceEmit s 3 0xFFFF (leBytes 8 (beAt f.body 8 8)) else s)

/-- TRACE_CTL by its OP. -/
def traceCtl (s : State) (f : CmdFrame) : Answer :=
  match byteAt f.body 0 with
  | 1 => traceEnable s f
  | 2 => traceDisable s f
  | 3 => traceMarker s f
  | _ => refuse s 0x0D

/-! ### PC samples (R558) -/

/-- STALL of a context whose bundle `b` waits, by the first of the table's reasons that holds it. DEDUCED: log 135. -/
def bundleStall (s : State) (k h : Nat) (x : Hc) (b : Bundle) : Nat :=
  let drain := if x.anyBusy 15 then 0x03 else 0x05
  let cx : Nat := match b.cx with
    | none => 0
    | some i =>
      if !x.cond i.pred i.pneg then 0
      else match i.op with
        | .claim => if (coreGet s k).claim == some h then 0 else 0x04
        | .fence => if x.loads.isEmpty then 0 else 0x02
        | .ifence => if x.loads.isEmpty then 0 else 0x02
        | .exit => if workBusy s k h x then drain else 0
        | .release => if x.mstOn 0 || x.mstOn 1 then 0x03 else if claimBusy s k h x then 0x05 else 0
        | _ => if i.op.isQueue then 0x06 else 0
  if (b.reads x).any x.pending then 0x02
  else if b.dx.any (fun i => x.cond i.pred i.pneg && (i.op == .wait_ || (i.op.isTransfer && (x.tag i.xt).isBusy))) then 0x03
  else if aheadWaits x { b with cx := none } then 0x03
  else if cx != 0 then cx
  else if b.mx.isSome then 0x05
  else if b.dx.isSome then 0x03
  else 0x01

/-- STALL of a resident context (21 "Stall states"). DEDUCED: log 135. -/
def stallOf (s : State) (k h : Nat) (x : Hc) (issued : Bool) : Nat :=
  if x.stop then 0x0C
  else if issued then 0x00
  else match x.st with
    | .debug => 0x0A
    | .suspended _ _ _ _ => 0x07
    | .runAhead => 0x09
    | _ =>
      if x.heldFrame.isSome then 0x04
      else if x.exiting then (if x.anyBusy 15 then 0x03 else 0x05)
      else match cachedLine s k x with
        | none => 0x08
        | some l => bundleStall s k h x (Bundle.decode l.bits)

/-- PC_SAMPLE (R558): core `k` samples hardware context `h`, which issued in the cycle or was served least recently; `h` names a resident
context where there is one. -/
def pcSample (s : State) (k h : Nat) (issued : Bool) : State :=
  if s.gct.stopped || !traceOn s 0 || !coreActive s k || decide (k < regF s .obsTrace 0 0 10 11) ||
      decide (regF s .obsTrace 0 0 21 11 < k) then s
  else
    let emit (pc ctx layer oper stall hc : Nat) : State :=
      traceEmit s 1 k (leBytes 6 pc ++ leBytes 2 ctx ++ leBytes 2 layer ++ leBytes 2 oper ++ [byteOf stall, byteOf hc, 0, 0])
    match hcGet s k h with
    | some x => emit x.pc x.ctx x.layer x.oper (stallOf s k h x issued) h
    | none => if (coreGet s k).hcs.isEmpty then emit 0 0 0 0 0x0B 0 else s

/-! ### What leaves the trace partition (R560–R562) -/

/-- The first `n` records of the Chaif port, and the others. -/
def takeChaif (n : Nat) (rs : List TraceRec) : List TraceRec × List TraceRec :=
  match rs with
  | [] => ([], [])
  | r :: t =>
    if n = 0 then ([], rs)
    else if r.fallback then
      let p := takeChaif n t
      (p.1, r :: p.2)
    else
      let p := takeChaif (n - 1) t
      (r :: p.1, p.2)

/-- Records read from the trace partition with an uncorrectable error are discarded (06 R179, R180). -/
def dropBad (s : State) (rs : List TraceRec) : State :=
  (rs.filter (fun r => r.bad)).foldl (fun t _ => bump (bumpUe t .hwdEccUe 0 0) .hwdTraceEccDrop 0 0) s

/-- CHAIF_FRAME_SEND (R561): a frame of the first `n` records held for the Chaif port, 8,192 bytes of them at most. DESIGN CHOICE: log 85. -/
def chaifFrameSend (s0 : State) (n : Nat) : State :=
  let (taken, rest) := takeChaif n s0.obs.recs
  let now := taken.filter (fun r => !r.bad)
  let body := now.flatMap (fun r => r.bytes)
  let s := dropBad s0 taken
  if regF s0 .obsTrace 0 0 32 1 != 1 || decide (8192 < body.length) then s0
  else if now.isEmpty then { s with obs := { s.obs with recs := rest } }
  else
    let frame := beBytes 6 (regF s .obsChaifDmac 0 0 0 48) ++ beBytes 6 Config.chaifMac ++ beBytes 2 0x88B5 ++
      gctBytes [] 0x03 0 0 s.obs.chaifSeq 0 0 body
    bumpBy { s with obs := { s.obs with recs := rest, chaifSeq := s.obs.chaifSeq + 1 }, sent := s.sent ++ [.chaif frame] }
      .obsTraceRecs 0 0 now.length

/-- CHAIF_LINK_CHANGE (OBS_TRACE.LINK). -/
def chaifLink (s : State) (up : Bool) : State := regPutF s .obsTrace 0 0 32 1 (b2n up)

/-- The line bytes of a frame: FCS, preamble and inter-frame gap included (R562). -/
def lineBytes (f : Bytes) : Nat := f.length + 24

/-- The trace bytes that a command port has sent in the last 10 μs, 12,500 clock ticks. -/
def windowBytes (s : State) (p : Nat) : Nat :=
  ((fgetD [] s.obs.window p).filter (fun e => decide (s.clock < e.1 + 12500))).foldl (fun a e => a + e.2) 0

/-- Sends a trace frame on a command port, and counts it in the window. -/
def sendTrace (s : State) (e : PortId × Bytes) : State :=
  let s1 := sendOut s e.1 e.2
  let recent (l : List (Nat × Nat)) : List (Nat × Nat) := l.filter (fun x => decide (s.clock < x.1 + 12500))
  let w := fmodD [] s1.obs.window (portIndex e.1) (fun l => recent l ++ [(s.clock, lineBytes e.2)])
  { s1 with obs := { s1.obs with window := w } }

/-- TRACE_FALLBACK_SEND (R562): the oldest record for the fallback leaves to every subscription of the trace class on a command port, if
the outbound half has room and the 3 % limit of each port allows it; without any subscription it is discarded. -/
def traceFallbackSend (s : State) : State :=
  match s.obs.recs.find? (fun r => r.fallback) with
  | none => s
  | some r =>
    let s1 := { s with obs := { s.obs with recs := s.obs.recs.erase r } }
    let fs := (recordFrames s 2 r.seqs r.bytes).filter (fun e => match e.1 with | .command _ => true | _ => false)
    let onPort (p : Nat) : Nat := (fs.filter (fun e => portIndex e.1 == p)).foldl (fun a e => a + lineBytes e.2) 0
    if !traceSubscribed s then bump s1 .obsTraceDrop 0 0
    else if r.bad then dropBad s1 [r]
    else if !outRoom s (fs.map Prod.snd) || [0, 1].any (fun p => decide (15000 < windowBytes s p + onPort p) && decide (0 < onPort p)) then s
    else bump (fs.foldl sendTrace s1) .obsTraceRecs 0 0

/-- COUNT_SEND (R554) of core `k`, whose island stops at a cut. -/
def countSendRow (s : State) (k : Nat) : State := whileRunning s (countSend s k)

/-- COMMAND_BOUNDARY (R555): a Crown write of OBS_CTXB with SET and GO; before the boundary every increment is taken in. -/
def commandBoundary (s : State) (set : Nat) (go : Bool) : State :=
  if !go || s.gct.stopped then s
  else setBoundary (s.obs.local_.foldl (fun t e => countSend t e.1) s) (set % 256)

/-! ### Cuts (R565–R568) -/

/-- GLOBAL_STOP (R565, R566): the stop is driven to every stopping island. -/
def globalStop (s : State) : State :=
  if s.obs.cut.isSome then { s with gct := { s.gct with stopped := true } } else s

/-- Entry to HALTED with the state held before it (02 R78): its state event and its audit record. -/
def enterHalted (s : State) : State :=
  let was := s.gct.dev
  let s1 := appsFollow { s with gct := { s.gct with dev := .halted, prior := some was } } .halted
  auditEvent (stateEvent s1) 2 0 (beBytes 8 (gctState s1))

/-- CUT_COMPLETE (R566, 02 R84): OBS_CUT is written, HALTED entered, the Span group told (16 R471), and a STOP completes. DEDUCED: log 142. -/
def cutComplete (s : State) : State :=
  match s.obs.cut with
  | none => s
  | some c =>
    if !s.gct.stopped || !haltLegal s then s
    else
      let s1 := regPut { s with obs := { s.obs with cut := none } } .obsCut 0 0 (c.stamp % 2 ^ 56 + c.cause % 16 * 2 ^ 56)
      let s2 := enterHalted s1
      let s3 := if s.span.member then broadcast s2 (controlData 2 0 (epochNow s2) []) else s2
      answerWait s3 (fun w => w == .cut) 0 []

/-! ### Scan-out (R569) -/

/-- The queue-tail cell that follows cell `c` in its queue, and the valid bytes of `c` (06 R176, R183). -/
def tailLink (s : State) (c : Nat) : Option Nat × Nat :=
  match s.heart.queues.find? (fun e => e.2.tail.contains c) with
  | none => (none, 256)
  | some (_, v) =>
    match (v.tail.dropWhile (· != c)).tail with
    | d :: _ => (some d, 256)
    | [] => (none, ((v.wr.toNat + 15) % 16 + 1) * 16)

/-- A link word (06 "Cell link word"). -/
def packLink (next : Nat) (last : Bool) (fill cls poison : Nat) : Nat :=
  next % 2 ^ 20 + b2n last * 2 ^ 20 + fill % 512 * 2 ^ 21 + cls % 8 * 2 ^ 30 + poison % 256 * 2 ^ 33

/-- Granules of a cell whose uncorrectable error an access has met (06 R179). -/
def cellPoison (s : State) (c : Nat) : Nat :=
  (List.range 8).foldl (fun a g => if fgetD false s.memPoison (cellAddr c / 32 + g) then a + 2 ^ g else a) 0

/-- A cell of a chain of `n` cells that begins at `first`; the last holds `tail` bytes. -/
def chainLink (c first n tail cls poison : Nat) : Nat :=
  if c + 1 = first + n then packLink 0 true tail cls poison else packLink (c + 1) false 256 cls poison

/-- The valid bytes of the `k`-th cell of a chain that holds `len` bytes: at least 1. -/
def cellFill (len k : Nat) : Nat := Nat.max 1 (Nat.min 256 (len - 256 * k))

/-- The link word of a cell of result slot `n` (06 R176): the slot's 17 cells, the first with its control data. DESIGN CHOICE: log 68. -/
def slotLink (s : State) (n c poison : Nat) : Nat :=
  match fget? s.gct.slots n with
  | some r =>
    let k := c - (256 + 17 * n)
    packLink (if k = 16 then 0 else c + 1) (k == 16) (cellFill (256 + r.resultLen) k) 2 poison
  | none => packLink 0 false 0 0 poison

/-- The link word of a cell (06 R173, R176): the result slots, the frames of the flow-context cache and the trace partition lie where
their partitions place them; the other cells have the links that their frames, tails, packets and buffers gave them. -/
def linkWord (s : State) (c : Nat) : Nat :=
  let p := cellPoison s c
  if 256 ≤ c ∧ c < tailFirst then slotLink s ((c - 256) / 17) c p
  else if stageFirst s ≤ c ∧ c < traceFirst s ∧ (fget? s.tiers.frames ((c - stageFirst s) / 16)).isSome then
    chainLink c (stageFirst s + (c - stageFirst s) / 16 * 16) 16 256 4 p
  else if traceFirst s ≤ c ∧ c < traceFirst s + ceilDiv (traceHeld s) 256 then
    chainLink c (traceFirst s) (ceilDiv (traceHeld s) 256) ((traceHeld s - 1) % 256 + 1) 5 p
  else
    let l := fgetD CellLink.free s.heart.links c
    if l.cls = 3 then
      let t := tailLink s c
      packLink (t.1.getD 0) t.1.isNone t.2 3 p
    else packLink l.next l.last l.fill l.cls p

/-- The bytes of the register window in scan (R569): 8 bytes per register as REG_READ returns them; the trust block is left out (19
R513), and an offset without a register reads 0. -/
def scanRegister (s : State) (a : Nat) : Bytes :=
  let trust := match regAt a with
    | some (row, _) => row.block == .trs
    | none => false
  beBytes 8 (if trust || isQueuePort a then 0 else readValue s a)

/-- The image of a hardware context in scan. -/
def scanContext (s : State) (k h : Nat) : Bytes :=
  match hcGet s k h with
  | none => zeros 0xA000
  | some x =>
    let c := coreGet s k
    let claim := c.claim == some h
    frameImage x (saveState s k x) claim c.lat ++ (if claim then accImage c.lat else zeros 0x8000)

/-- The image of a crossing in scan (R567, R569). DEDUCED: log 136. -/
def scanCrossing (s : State) (c : Nat) : Bytes :=
  let isl := crossingIslands c
  let depth := Config.crossingDepth c % 256
  let width := Config.crossingWidth c
  let (wr, n0, items) := Config.crossingAtCut (regN s .obsCut 0 0) c
  let n := n0 % (depth + 1)
  beBytes 2 c ++ beBytes 2 isl.1 ++ beBytes 2 isl.2 ++ [byteOf depth, byteOf n] ++ beBytes 2 wr ++ beBytes 2 (wr + 65536 - n) ++
    beBytes 4 width ++ padTo items (n * width)

/-- `n` bytes from `off` of an image; bytes beyond its end are 0. -/
def imageSlice (img : Bytes) (off n : Nat) : Bytes := padTo (slice img off n) n

/-- The bytes that a SCAN_OUT body names, or none where it is malformed (R569). DEDUCED: log 136. -/
def scanBytes (s : State) (b : Bytes) : Option Bytes :=
  let sel := beAt b 4 4
  let off := beAt b 8 8
  let n := beAt b 16 4
  if !allZero (slice b 1 3) || off % 8 != 0 || n % 8 != 0 || decide (n < 8) || decide (8192 < n) then none
  else match byteAt b 0 with
    | 1 => if sel = 0 then some ((List.range (n / 8)).flatMap (fun i => scanRegister s (off + 8 * i))) else none
    | 2 => if sel % 2048 < 1280 ∧ sel < 2 ^ 14 then some (imageSlice (scanContext s (sel % 2048) (sel / 2048)) off n) else none
    | 3 => if sel < 2807 then some (imageSlice (scanCrossing s sel) off n) else none
    | 4 =>
      if sel = 0 then
        some ((List.range (n / 8)).flatMap (fun i => leBytes 8 (if off / 8 + i < 1048576 then linkWord s (off / 8 + i) else 0)))
      else none
    | _ => none

/-- SCAN_OUT (R569), measured into M7 (19 R527): a body of 20 bytes and 4 of padding. DEDUCED: log 136. -/
def scanOut (s : State) (f : CmdFrame) : Answer :=
  if f.length != 24 || !allZero (slice f.body 20 4) then refuse s 0x0D
  else match scanBytes s f.body with
    | none => refuse s 0x0D
    | some bs => (complete 0 bs, measExtend s 7 (sha256 (beBytes 2 f.opcode ++ f.body)))

/-- SCAN_READ (R570): the TAP instruction with a 20-byte body, its data least significant bit of byte 0 first; zeros where it is not
enabled, the state is not HALTED or the body is malformed. -/
def scanRead (s : State) (body : Bytes) : State :=
  if regF s .obsCtl 0 0 0 1 == 1 && s.gct.dev == .halted then
    let bs := (scanBytes s body).getD (zeros (beAt body 16 4 % 8193))
    auditAdd { s with sent := s.sent ++ [.tap (leNat bs)] } (auditRecord s 3 0 0 0 0x82 0 0 1 (body.take 16))
  else { s with sent := s.sent ++ [.tap 0] }

end Sys2Proof.Machine
end

