-- ==== Sys2Proof/Machine/Power.lean ====
section
/-!
DEFINITION. Power, reset and the sideband pins (23; 02 R78, R84): power-up, module reset, the power cap and thermal responses, SMBus
telemetry and the test access port.
-/

namespace Sys2Proof.Machine

/-- Changes the power state. -/
def pwrMod (s : State) (f : Pwr → Pwr) : State := { s with pwr := f s.pwr }

/-! ### Module reset (R588) -/

/-- What flash keeps through a module reset (R588; 18 R498): its durable contents; the append buffer and the state of commands are lost.
DEDUCED: log 15. -/
def Flash.afterReset (x : Flash) : Flash := { x with buf := [], bucket := 20000000000000, bucketAt := 0, media := [] }

/-- What the trust block keeps through a module reset (19 R514): the secure store. DEDUCED: log 15. -/
def Trust.afterReset (t : Trust) : Trust :=
  { t with runSlot := 0, fallback := false, cfgSrc := 0, fwVersion := 0, runSvn := 0, cfgVersion := 0, quotes := [], sums := [], sumsAt := 0 }

/-- Rails and pins through a module reset at clock tick `now`; `ssc` is the spread that applies from this reset (R589). DEDUCED: log 15. -/
def Pwr.afterReset (p : Pwr) (now : Nat) (ssc : Bool) : Pwr :=
  { p with releaseAt := p.releaseAt - now, hotSince := p.hotSince.map (fun e => (e.1, e.2 - now)), hotRest := 0, ssc := ssc }

/-- A module reset (R588): every island but the regulators and VAUX starts anew in POWERED; sessions close, memory is undefined. A phase
that was shed stays shed (R586). DESIGN CHOICE: log 8. -/
def moduleReset (s : State) : State :=
  let rails := regGet s (mkReg .pwrRail 0 0)
  let s1 : State := { State.reset with
    freeCount := s.freeCount, gct := { Gct.reset with dev := .powered }, flash := s.flash.afterReset, trust := s.trust.afterReset,
    pwr := s.pwr.afterReset s.clock (regF s .pwrCtl 0 0 0 1 == 1), sent := s.sent, pending := s.pending }
  regSet s1 (mkReg .pwrRail 0 0) rails

/-- Loss of power-good (R584, R588): a module reset, with the rails off. -/
def powerLost (s : State) : State := pwrMod (moduleReset s) (fun p => { p with rails := false })

/-- POWER_GOOD_LOSS (R584). -/
def powerGoodLoss (s : State) (c : PowerLoss) : State :=
  match c with
  | .input mv => if decide (44000 ≤ mv) && decide (mv ≤ 58000) then s else powerLost (pwrMod s (fun p => { p with mv := mv }))
  | .pgoodIn => powerLost (pwrMod s (fun p => { p with pgoodIn := false }))
  | .rail r => if r < 12 then powerLost s else s

/-- RESET_N is low and resets the module. -/
def pinReset (s : State) : State := pwrMod (moduleReset s) (fun p => { p with resetN := false })

/-- MODULE_RESET (R588; 02 R84): a pin pulse below 50 ns is ignored, one below 10 μs resets or is ignored, as a free value says; a RESET
command resets 10 μs after its completion has left. DESIGN CHOICE: log 16. -/
def moduleResetRow (s : State) (c : ResetCause) : State :=
  match c with
  | .pin ns =>
    if ns < 50 then s
    else if ns < 10000 then
      let r := freeBits s 1
      if r.1 = 1 then pinReset r.2 else r.2
    else pinReset s
  | .command =>
    match s.gct.resetDue with
    | some t => if t + 12500 ≤ s.clock then moduleReset s else s
    | none => s
  | .power => powerGoodLoss s .pgoodIn

/-- POWER_UP (R587, steps 1 and 2): the rails ramp with the input in range, and PGOOD_OUT is asserted. -/
def powerUp (s : State) (mv : Nat) : State :=
  if s.gct.dev != .powered || s.pwr.rails || decide (mv < 46000) || decide (56000 < mv) then s
  else pwrMod (regPut s .pwrRail 0 0 0) (fun p =>
    { p with mv := mv, pgoodIn := true, rails := true, resetN := false, releaseAt := s.clock + 1250000 })

/-- RESET_RELEASE (R587, step 3; 02 R78): RESET_N is high; at least 1 ms after PGOOD_OUT the module enters SECURE_BOOT. -/
def resetRelease (s : State) : State :=
  let s1 := pwrMod s (fun p => { p with resetN := true })
  if s.gct.dev == .powered && s.pwr.rails && s.pwr.pgoodIn && decide (s.pwr.releaseAt ≤ s.clock) then enterState s1 .secureBoot else s1

/-! ### Input, phases and the cap (R584–R586) -/

/-- INPUT_RANGE (R584): the input has been at 44–46 V or 56–58 V for 20 μs. -/
def inputRange (s : State) (mv : Nat) : State :=
  if (decide (44000 ≤ mv) && decide (mv < 46000)) || (decide (56000 < mv) && decide (mv ≤ 58000)) then
    if s.pwr.rails then bump (regPutF (pwrMod s (fun p => { p with mv := mv })) .pwrAlert 0 0 0 1 1) .pwrInputEvents 0 0 else s
  else s

/-- PHASE_SHED (R586; 20 R548): the first failing phase of a rail is shed; a second one is fatal, with cause 0x03. -/
def phaseShed (s : State) (r : Nat) : State :=
  if decide (12 ≤ r) || !s.pwr.rails then s
  else match regF s .pwrRail 0 0 (2 * r) 2 with
    | 0 => bump (regPutF (regPutF s .pwrRail 0 0 (2 * r) 2 1) .pwrAlert 0 0 1 1 1) .pwrShed 0 0
    | 1 => enterFaulted (regPutF s .pwrRail 0 0 (2 * r) 2 2) 3
    | _ => s

/-- CAP_CONTROL (R585): the loop samples the input; above the cap it gates Facet issue and Limb-originated HBM traffic. -/
def capControl (s : State) (mv ca dw : Nat) : State :=
  pwrMod s (fun p => { p with mv := mv % 65536, ca := ca % 65536, dw := dw % 65536, capGate := decide (10 * s.gct.modes.cap < dw % 65536) })

/-! ### Temperature (R595) -/

/-- LIMB_THROTTLE (R595): Limb `n` reads a temperature; it is throttled from 100 °C until below 95 °C. -/
def limbThrottle (s : State) (n temp : Nat) : State :=
  if 4 ≤ n then s
  else
    let s1 := pwrMod (throttleSettle s) (fun p => { p with temps := fsetD 25 p.temps (n + 1) (Nat.min temp 255) })
    if 100 ≤ temp ∧ !bitN s.pwr.throttled n then
      pwrMod (regPutF s1 .pwrAlert 0 0 2 1 1) (fun p =>
        { p with throttled := setBitN p.throttled n true, hotSince := finsert p.hotSince n s.clock })
    else if temp < 95 then
      pwrMod s1 (fun p => { p with throttled := setBitN p.throttled n false, hotSince := ferase p.hotSince n })
    else s1

/-- THERMAL_SHUTDOWN (R595; 14 R421): a die (0 Bole, 1–4 Limbs) has been at 110 °C or more, or an HBM stack (5 + s) at 105 °C or more, for
1 ms: FAULTED with cause 0x05. DEDUCED: log 140. -/
def thermalShutdown (s : State) (sensor temp : Nat) : State :=
  if sensor < 5 then
    if temp < 110 then s else enterFaulted (pwrMod s (fun p => { p with temps := fsetD 25 p.temps sensor (Nat.min temp 255) })) 5
  else if sensor < 13 then
    if temp < 105 then s else enterFaulted (hbmThermal s (sensor - 5) temp) 5
  else s

/-! ### SMBus telemetry (R592) -/

/-- `num / den` with 2⁻ⁿ as its unit, rounded to nearest. DEDUCED: log 139. -/
def linearMantissa (num den : Nat) (n : Int) : Nat :=
  match n with
  | .ofNat k => (2 * num + den * 2 ^ k) / (2 * den * 2 ^ k)
  | .negSucc k => (2 * num * 2 ^ (k + 1) + den) / (2 * den)

/-- LINEAR11 of `num / den` (PMBus 1.3): the least exponent that leaves a mantissa of at most 1,023. DEDUCED: log 139. -/
def linear11 (num den : Nat) : Nat :=
  match ((List.range 32).map (fun i : Nat => (i : Int) - 16)).find? (fun n => decide (linearMantissa num den n ≤ 1023)) with
  | some n => ofInt 5 n * 2048 + linearMantissa num den n
  | none => 15 * 2048 + 1023

/-- A telemetry read: it works while VAUX is up. -/
def smbusRead (s : State) (num den : Nat) : State :=
  if s.pwr.rails then { s with sent := s.sent ++ [.smbus (linear11 num den)] } else s

/-- READ_VIN, in V. DEDUCED: log 139. -/
def readVin (s : State) : State := smbusRead s s.pwr.mv 1000

/-- READ_IIN, in A. -/
def readIin (s : State) : State := smbusRead s s.pwr.ca 100

/-- READ_PIN, in W. -/
def readPin (s : State) : State := smbusRead s s.pwr.dw 10

/-- READ_TEMPERATURE_1: the hottest die, in °C. -/
def readTemperature (s : State) : State := smbusRead s ((List.range 5).foldl (fun a i => Nat.max a (fgetD 25 s.pwr.temps i)) 0) 1

/-! ### Test access port (R593) -/

/-- An instruction stands in the TAP, and its data register has shifted out `data`. -/
def tapAnswer (s : State) (ir data : Nat) : State := pwrMod { s with sent := s.sent ++ [.tap data] } (fun p => { p with tapIr := ir })

/-- BYPASS, and every reserved code: the data comes back one bit late. -/
def tapBypass (s : State) (code data : Nat) : State := tapAnswer s (code % 256) (2 * data)

/-- IDCODE. -/
def tapIdcode (s : State) : State := tapAnswer s 0x01 0x194164B3

/-- SAMPLE/PRELOAD: the pins are sampled, and the boundary register takes `data`; the spec gives the order of its cells nowhere, so what is
sampled is a free value. DESIGN CHOICE: log 138. -/
def tapSample (s : State) (data : Nat) : State :=
  let r := freeBits s 64
  pwrMod (tapAnswer r.2 0x02 r.1) (fun p => { p with boundary := data })

/-- EXTEST: with RESET_N low the boundary register takes `data` and drives the outputs; otherwise it acts as BYPASS. DESIGN CHOICE: log 138. -/
def tapExtest (s : State) (data : Nat) : State :=
  if s.pwr.resetN then tapAnswer s 0x00 (2 * data)
  else
    let r := freeBits s 64
    pwrMod (tapAnswer r.2 0x00 r.1) (fun p => { p with boundary := data })

/-- SCAN_READ (21 R570). DESIGN CHOICE: log 138. -/
def tapScan (s : State) (body : Bytes) : State := pwrMod (scanRead s body) (fun p => { p with tapIr := 0x20 })

end Sys2Proof.Machine
end

