-- ==== Sys2Proof/Machine/Crown.lean ====
section
/-!
DEFINITION. The Crown cores (17): the queue port, the event ring, the watchdog and restarts; and the Heartwood scrub (06 R179–R181).
-/

namespace Sys2Proof.Machine

/-! ### The queue port (R485, R486) -/


/-- The key of core `c` on queue `q`. -/
def portKey (c q : Nat) : Nat := c * 4096 + q % 4096

/-- Core `c` is held in reset (R493). -/
def crownHeld (s : State) (c : Nat) : Bool := (fget? s.crown.held c).isSome

/-- A store or a load of core `c` waits at the port: the core issues nothing behind an OPEN under WAIT (R481, R485). -/
def portWaits (s : State) (c : Nat) : Bool := s.heart.waiting.any (fun w => w.2.2 == c)

/-- The Crown cores run: from the start of firmware on (19 R526), and not in HALTED. DEDUCED: log 6. -/
def crownRuns (s : State) : Bool := s.gct.dev != .powered && s.gct.dev != .secureBoot && !s.gct.stopped

/-- What a Crown core does, while the Crown cores run. DEDUCED: log 6. -/
def whileCrown (s t : State) : State := if crownRuns s then t else s

/-- Core `c` runs and can reach the port of queue `q`. -/
def portLives (s : State) (c q : Nat) : Bool :=
  decide (c < 16) && decide (q < 4096) && !crownHeld s c && !portWaits s c && crownRuns s

/-- SQ_BIND names core `c` as this endpoint. -/
def crownBound (e : Nat × Nat) (c : Nat) : Bool := e.1 == 4 && (e.2 == c || e.2 == 0xFFFF)

/-- The status of the last operation of core `c` on queue `q` (0x20). -/
def portStatus (s : State) (c q : Nat) (w : Word) : State :=
  { s with crown := { s.crown with status := fsetD 0 s.crown.status (portKey c q) w.toNat } }

/-- An operation that the port refuses (R485). -/
def portRefuse (s : State) (c q : Nat) : State := portStatus s c q (queueStatusWord 2 false false false 0)

/-- The status of an operation and the state after it. -/
def portDone (d : QDone) (c q : Nat) : State := portStatus d.s c q (queueStatusWord d.code d.sop d.eop d.poison d.count)

/-- A producer operation of core `c` on queue `q`. -/
def portProduce (s : State) (c q : Nat) (f : State → State) : State :=
  if !portLives s c q then s else if crownBound (queueProducer s q) c then f s else portRefuse s c q

/-- A consumer operation of core `c` on queue `q`. -/
def portConsume (s : State) (c q : Nat) (f : State → State) : State :=
  if !portLives s c q then s else if crownBound (queueConsumer s q) c then f s else portRefuse s c q

/-- The OPEN of core `c` is done: it opened the packet, unless the queue refused. -/
def openDone (d : QDone) (c q : Nat) : State :=
  portDone { d with s := if d.code = 0 then { d.s with crown := { d.s.crown with opener := finsert d.s.crown.opener q c } } else d.s } c q

/-- PORT_OPEN (R485): the store of OPEN, [8:0] n and [9] DISCARD; a store under WAIT without room waits. DEDUCED: log 123. -/
def portOpen (s : State) (c q v : Nat) : State :=
  portProduce s c q (fun s =>
    let n := v % 512
    if n = 0 ∨ 256 < n then portRefuse s c q
    else
      let d := (qOpen s q n (bitN v 9)).1
      if d.wait then
        let s1 := queueRewindPacket s q false true
        { s1 with heart := { s1.heart with waiting := s1.heart.waiting ++ [(q, n, c)] } }
      else openDone d c q)

/-- OPEN_RETRY (06 R184): the OPENs that wait on queue `q` open their packet in the first cycle in which room exists. -/
def openRetry (s : State) (q : Nat) : State :=
  if s.gct.stopped then s
  else match s.heart.waiting.find? (fun w => w.1 == q) with
    | none => s
    | some (_, n, c) =>
      let v := queueGet s q
      if v.openN.isSome then s
      else
        let d := (qOpen s q n false).1
        if d.wait then s
        else
          let s1 := openDone d c q
          { s1 with heart := { s1.heart with waiting := s1.heart.waiting.erase (q, n, c) } }

/-- PORT_PUSH (R485): the store stages DATA[63:0], or pushes DATA[127:64] with the staged half; `flip` is an error on the way, with which the
word fails its parity check as it enters the queue (06 R186). DESIGN CHOICE: log 163. -/
def portPush (s : State) (c q : Nat) (stage : Bool) (v : Word) (flip : Bool) : State :=
  portProduce s c q (fun s =>
    if stage then
      portStatus { s with crown := { s.crown with staged := fsetD 0 s.crown.staged (portKey c q) v.toNat } } c q
        (queueStatusWord 0 false false false 0)
    else
      let d : BitVec 128 := BitVec.ofNat 128 (v.toNat * 2 ^ 64 + fgetD 0 s.crown.staged (portKey c q))
      let w := mkWord d false
      portDone (qPush s q [{ w with par := w.par != flip }] 0) c q)

/-- PORT_COMMIT (R485, R486): the stores of this model are visible at once, so the barrier that comes with COMMIT adds nothing. -/
def portCommit (s : State) (c q : Nat) : State := portProduce s c q (fun s => portDone (qSimple (queueCommit s q)) c q)

/-- PORT_ABORT (R485). -/
def portAbort (s : State) (c q : Nat) : State := portProduce s c q (fun s => portDone (qSimple (queueAbort s q)) c q)

/-- A store to offset 0x28 of the port: bit 0 is the wait flag of the next load (R485). DEDUCED: log 123. -/
def portFlag (s : State) (c q : Nat) (b : Bool) : State :=
  { s with crown := { s.crown with waits := fsetD false s.crown.waits (portKey c q) b } }

/-- The word at head stage 0 has been upset there: its parity fails at READ (06 R189). -/
def spoilHead (s : State) (q : Nat) : State :=
  let s1 := if (queueGet s q).head.isEmpty then loadHead s q else s
  let v := queueGet s1 q
  queueSet s1 q { v with head := v.head.modify 0 (fun w => { w with par := !w.par }) }

/-- PORT_READ (R485, R486): a load reads the next word and returns its status; with the wait flag it waits while the queue is empty. The
flag is that of the previous store to 0x28, which may come with the row. A disabled queue refuses (06 R192). With `flip` the word fails its
parity check at READ (06 R189). DEDUCED: log 123. DESIGN CHOICE: log 163. -/
def portRead (s : State) (c q : Nat) (flag : Option Bool) (flip : Bool) : State :=
  portConsume s c q (fun s =>
    let s0 := match flag with
      | some b => portFlag s c q b
      | none => s
    let v := queueGet s0 q
    if !queueEnabled s0 q then portRefuse s0 c q
    else if fgetD false s0.crown.waits (portKey c q) && (queueNext v).isNone then s0
    else match queueRead (if flip then spoilHead s0 q else s0) q with
      | (none, s1) => portStatus s1 c q (queueStatusWord 1 false false false 0)
      | (some w, s1) =>
        portStatus { s1 with crown := { s1.crown with word := fsetD 0 s1.crown.word (portKey c q) w.data } } c q
          (queueStatusWord 0 w.sop w.eop w.poison 1))

/-- PORT_MARK (R485). -/
def portMark (s : State) (c q : Nat) : State :=
  portConsume s c q (fun s => portDone (qSimple (queueMark (portFlag s c q false) q)) c q)

/-- PORT_REWIND (R485): its store value is 3, whose bit 0 is the wait flag. -/
def portRewind (s : State) (c q : Nat) : State :=
  portConsume s c q (fun s => portDone (qSimple (queueRewind (portFlag s c q true) q)) c q)

/-- PORT_RELEASE (R485). -/
def portRelease (s : State) (c q : Nat) : State :=
  portConsume s c q (fun s => portDone (qSimple (queueRelease (portFlag s c q false) q)) c q)

/-! ### The event ring (R487) -/

/-- The runtime appends the exception record at `addr` to the log page at `page` (R488): the record, then COUNT. -/
def appendExc (s : State) (page addr : Nat) : State :=
  if !crownReaches s page 8 || !crownReaches s addr 56 then s
  else
    let n := leNat (memBytes s page 8)
    crownStore (crownStore s (page + 64 + 64 * (n % 1023)) (memBytes s addr 56)) page (leBytes 8 (n + 1))

/-- What the runtime does for record `n` of the event ring before it advances RD (R487, R488): an EXCEPTION goes to its context's log. -/
def handleEvent (s : State) (n : Nat) : State :=
  let r := memBytes s (regN s .crnEvqBase 0 0 + 32 * (n % 4096)) 32
  if leAt r 0 2 = 5 then match (fget? s.crown.contexts (leAt r 10 2)).bind (fun c => c.log) with
    | some page => appendExc s page (leAt r 16 8)
    | none => s
  else s

/-- EVQ_RD (R487, R488): the Crown cores have handled the records up to `rd` and advance CRN_EVQ.RD; a value with WR − RD outside 0–4,096 is
ignored. -/
def evqRd (s : State) (rd : Nat) : State :=
  let wr := regF s .crnEvq 0 0 0 32
  let old := regF s .crnEvq 0 0 32 32
  if 4096 < (wr + 2 ^ 32 - rd % 2 ^ 32) % 2 ^ 32 then s
  else
    let n := (rd % 2 ^ 32 + 2 ^ 32 - old) % 2 ^ 32
    let s1 := if n ≤ 4096 then (rangeFrom old n).foldl handleEvent s else s
    drainEvents (regPutF s1 .crnEvq 0 0 32 32 rd) s.crown.evWait.length

/-! ### Watchdog and restarts (R489, R490, R493) -/

/-- Core `c` runs the runtime. -/
def isRuntime (s : State) (c : Nat) : Bool := bitN (regF s .crnCtl 0 0 0 16) c

/-- KICK (R493): core `c` writes its CRN_KICK_c. -/
def kick (s : State) (c : Nat) : State :=
  if 16 ≤ c ∨ crownHeld s c then s else { s with crown := { s.crown with kick := finsert s.crown.kick c s.idleClock } }

/-- Runtime cores that are not held. -/
def aliveRuntime (s : State) : List Nat := (List.range 16).filter (fun c => isRuntime s c && !crownHeld s c)

/-- The application core of highest number. -/
def appCore (s : State) : Option Nat :=
  ((List.range 16).reverse).find? (fun c => bitN (regF s .crnStatus 0 0 32 16) c && !crownHeld s c)

/-- Core `c` stops its application's work. -/
def leaveApp (s : State) (c : Nat) : State :=
  let s1 := regPutF s .crnStatus 0 0 (32 + c) 1 0
  (List.range 8).foldl (fun t a => regPutF t .crnApp a 0 c 1 0) s1

/-- The runtime keeps at least two cores alive (R489). DEDUCED: log 122. -/
def keepTwo (s : State) : State :=
  if 2 ≤ (aliveRuntime s).length then s
  else match appCore s with
    | none => s
    | some c => kick (regPutF (leaveApp s c) .crnCtl 0 0 c 1 1) c

/-- Commands that the runtime executes. DEDUCED: log 121. -/
def commandsRunning (s : State) : Nat := (s.gct.sessions.filter (fun e => e.2.exec.isSome)).length + s.gct.anon.length

/-- The packets that core `c` has open through the port vanish (06 R186). DEDUCED: log 121. -/
def rewindCrown (s : State) (c : Nat) : State :=
  (s.crown.opener.filter (fun e => e.2 == c)).foldl (fun t e =>
    if (queueProducer t e.1).1 = 4 then queueRewindPacket t e.1 true true else t) s

/-- Core `c` is held in reset (R493): its bits, a WATCHDOG event, and the commands that another core continues from the journal. DEDUCED: log 121. -/
def holdCore (s : State) (c replays : Nat) : State :=
  let s0 := rewindCrown { s with heart := { s.heart with waiting := s.heart.waiting.filter (fun w => w.2.2 != c) } } c
  let s1 := regPutF (regPutF s0 .crnStatus 0 0 c 1 0) .crnStatus 0 0 (16 + c) 1 1
  let s2 := { s1 with crown := { s1.crown with held := finsert s1.crown.held c s1.idleClock } }
  let s3 := recovery (bump s2 .crnRestart 0 0)
  let s4 := crownEvent (bumpBy s3 .crnReplay 0 0 (Nat.min replays (commandsRunning s3))) 6 (zeros 4 ++ [byteOf c])
  if (List.range 16).all (crownHeld s4) then enterFaulted s4 4 else keepTwo s4

/-- WATCHDOG (R493): the period of runtime core `c` has expired. -/
def watchdog (s : State) (c replays : Nat) : State :=
  let since := fgetD 0 s.crown.kick c
  if decide (16 ≤ c) || !crownRuns s || regF s .crnCtl 0 0 16 1 != 1 || !isRuntime s c || crownHeld s c ||
      decide (s.idleClock < since + msTicks (regF s .crnWd 0 0 0 16)) then s
  else holdCore s c replays

/-- The application that core `c` serves ends (R492). DEDUCED: log 122. -/
def appEnds (s : State) (c : Nat) : State :=
  if bitN (regF s .crnStatus 0 0 32 16) c then
    (List.range 8).foldl (fun t a => if regF t .crnApp a 0 17 1 = 1 ∧ bitN (regF t .crnApp a 0 0 16) c then
      bump (regPutF t .crnApp a 0 17 1 0) .crnAppFault 0 0 else t) s
  else s

/-- MACHINE_CHECK (R493): an uncorrectable error of a Crown cache or a load of poison restarts the core; an application that it serves
ends (R492). DEDUCED: log 122. -/
def machineCheck (s : State) (c replays : Nat) : State :=
  if decide (16 ≤ c) || !crownRuns s || crownHeld s c then s else holdCore (appEnds s c) c replays

/-- CORE_RELEASE (R493): 50 ms after it was held, core `c` is released and the runtime restarts on it. -/
def coreRelease (s : State) (c : Nat) : State :=
  match fget? s.crown.held c with
  | none => s
  | some t =>
    if decide (s.idleClock < t + msTicks 50) || s.gct.stopped then s
    else
      let s1 := regPutF (regPutF s .crnStatus 0 0 c 1 1) .crnStatus 0 0 (16 + c) 1 0
      kick { s1 with crown := { s1.crown with held := ferase s1.crown.held c } } c

/-! ### The Heartwood scrub (06 R179–R181) -/

/-- The trace record that holds a byte of the trace partition, when the records stand there one after another. DESIGN CHOICE: log 85. -/
def traceRecAt (rs : List TraceRec) (off n : Nat) : Option Nat :=
  match rs with
  | [] => none
  | r :: t => if off < r.bytes.length then some n else traceRecAt t (off - r.bytes.length) (n + 1)

/-- The trace record in whose bytes a Heartwood granule lies. -/
def traceRecOf (s : State) (g : Nat) : Option Nat :=
  let a := 32 * g
  if cellAddr (traceFirst s) ≤ a ∧ a < cellAddr (poolFirst s) then traceRecAt s.obs.recs (a - cellAddr (traceFirst s)) 0 else none

/-- A trace record has lost a granule (R180): it is discarded when it is next read. -/
def spoilTrace (s : State) (g : Nat) : State :=
  match traceRecOf s g with
  | some n => { s with obs := { s.obs with recs := s.obs.recs.modify n (fun r => { r with bad := true }) } }
  | none => s

/-- The scrub reads a granule of Heartwood (R179–R181); a trace record that it finds uncorrectable is discarded. DESIGN CHOICE: log 85. -/
def scrubHeart (s : State) (g : Nat) : State :=
  let s1 := touchGranule s g
  match if granuleMarked s1 g then traceRecOf s1 g else none with
  | some n => bump { s1 with obs := { s1.obs with recs := s1.obs.recs.eraseIdx n } } .hwdTraceEccDrop 0 0
  | none => s1

/-- The granules of Heartwood that a row lists as 8 × cell + granule. -/
def heartGranules (l : List Nat) : List Nat := (l.filter (fun n => decide (n < 8 * 1048576))).map (fun n => cellAddr 0 / 32 + n)

/-- HEARTWOOD_SCRUB (R181): since the last row the listed granules (8 × cell + granule) have been upset, `ce` with an error that the code
corrects, `ue` with one that it only detects; the scrub engine reads every cell, once in each period, when it is enabled.
DESIGN CHOICE: log 85, log 156. -/
def heartwoodScrub (s : State) (ce ue : List Nat) : State :=
  if s.gct.stopped then s
  else
    let s1 := (heartGranules ue).foldl spoilTrace (upsetGranules s (heartGranules ce) (heartGranules ue))
    match scrubPass s1 0 (mkReg .hwdScrub 0 0) (fun v => msTicks (bitsN v 0 16)) with
    | (some v, s2) => if bitN v 16 then (faultyGranules s2 (fun g => inHeart (32 * g))).foldl scrubHeart s2 else s2
    | (none, s2) => s2

/-- FLUSH (06 R192): SQ_CFG_q.FLUSH of an enabled queue; a disabled queue is empty. -/
def flush (s : State) (q : Nat) : State := if q < 4096 then queueFlush s q else s

end Sys2Proof.Machine
end

