-- ==== Sys2Proof/Machine/RegWrite.lean ====
section
/-!
DEFINITION. REG_WRITE of one register (02 R76; 00 R22–R24, R26, R599): who may write which field, which values and states are refused, and
what a write does.
-/

namespace Sys2Proof.Machine

/-! ### Rights (00 R599; the chapters' register sections; 19 R512) -/

/-- A role may write the registers of a block, where its chapter names no other right for one of them. -/
def blockWriteRight (role : Role) (b : Block) : Bool :=
  let installer := role == .installer
  let operator := role == .operator
  match b with
  | .gct => installer
  | .prt => installer
  | .crn => installer
  | .fsh => installer
  | .trs => installer
  | .pwr => installer
  | .xltBole => installer
  | .fct => operator
  | .lat => operator
  | .mov => operator
  | .xlt => operator
  | .cmp => true
  | _ => installer || operator

/-- A role may write the register at all, Crown-only and RWL fields apart. -/
def writeRight (role : Role) (n : RegName) : Bool :=
  let installer := role == .installer
  let operator := role == .operator
  match n with
  | .gctSessionTtl => installer || operator
  | .gctSlotTtl => installer || operator
  | .prsKey => installer
  | .cnpEgressMap => installer
  | .flwHash => installer
  | .hwdPool => installer
  | .grvOrdBase => installer
  | .fshCapRate => installer || operator
  | .obsDbg => operator
  | .obsDbgAddr => operator
  | .pwrAlert => installer || operator
  | _ =>
    blockWriteRight role (regBlock n)

/-- A field that a write can change. -/
def Field.writable (f : Field) : Bool :=
  match f.acc with
  | .rw => true | .rwl => true | .rw1c => true | .wo => true | _ => false

/-- The role may write the field; RWL fields are the installer's (19 R512). DEDUCED: log 58. -/
def mayWrite (role : Role) (n : RegName) (f : Field) : Bool :=
  f.writable && !f.crown && writeRight role n && (f.acc != .rwl || role == .installer)

/-- The bits of a field in a value. -/
def Field.of (f : Field) (v : Nat) : Nat := bitsN v f.lo (f.hi + 1 - f.lo)

/-- A write of `v` reaches the field: it changes an RW or RWL field, or writes 1 to a WO or RW1C bit (R599). DEDUCED: log 58. -/
def Field.reached (f : Field) (old v : Nat) : Bool :=
  match f.acc with
  | .rw => f.of v != f.of old
  | .rwl => f.of v != f.of old
  | .rw1c => f.of v != 0
  | .wo => f.of v != 0
  | _ => false

/-- The role has the right that the write needs (R13, R599). DEDUCED: log 58. -/
def writeAllowed (role : Role) (row : RegRow) (old v : Nat) : Bool :=
  let mine (f : Field) : Bool := mayWrite role row.name f
  writeRight role row.name && (!row.fields.any Field.writable || row.fields.any mine) &&
    row.fields.all (fun f => mine f || !f.reached old v)

/-- The write sets a reserved bit (R24). -/
def setsReserved (row : RegRow) (v : Nat) : Bool := row.fields.any (fun f => f.acc == .resv && f.of v != 0)

/-! ### Locks (R23) -/

/-- The register that holds the LOCK bit of a block. -/
def lockReg (b : Block) : Option RegName :=
  match b with
  | .gct => some .gctCtrl
  | .flw => some .flwCtl
  | .grv => some .grvCtl
  | .xltBole => some .xltCtl
  | .hbm => some .hbmCtl
  | .spn => some .spnCtl
  | .crn => some .crnCtl
  | .fsh => some .fshCtl
  | .obs => some .obsCtl
  | .pwr => some .pwrCtl
  | _ => none

/-- The block's LOCK bit is set. -/
def locked (s : State) (b : Block) (inst : Nat) : Bool :=
  match lockReg b with
  | some n => regF s n 0 inst 63 1 == 1
  | none => false

/-- The write would change a locked RWL field (R23). -/
def breaksLock (s : State) (row : RegRow) (r : Reg) (old v : Nat) : Bool :=
  locked s row.block r.inst && row.fields.any (fun f => f.acc == .rwl && f.reached old v)

/-- LOCK (R23): a write of 1 to the LOCK bit of a block instance. -/
def lockBlock (s : State) (b : Block) (inst : Nat) : State :=
  match lockReg b with
  | some n => if (if b = .hbm then 8 else 1) ≤ inst then s else regPutF s n 0 inst 63 1 1
  | none => s

/-! ### Values (R26, R409 and the register tables) -/

/-- The address lies in no reserved range of the physical address map (14 R409). DEDUCED: log 63. -/
def addressExists (a : Nat) : Bool := decide (a < 2 ^ 32) || inHeart a || inRing a || inHbm a

/-- The first and the last byte of a table of `n` bytes lie in one window that exists (14 R409). -/
def rangeExists (a n : Nat) : Bool :=
  let e := a + n - 1
  (decide (e < 2 ^ 32)) || (inHeart a && inHeart e) || (inRing a && inRing e) || (inHbm a && inHbm e && hbmStack a == hbmStack e)

/-- The number lies in a range. DEDUCED: log 63. -/
def within (x lo hi : Nat) : Bool := decide (lo ≤ x) && decide (x ≤ hi)

/-- An endpoint of the table "Endpoint kinds" (06). -/
def endpointOk (kind id : Nat) : Bool :=
  match kind with
  | 0 => id == 0
  | 1 => decide (id < 8)
  | 2 => decide (id < 8)
  | 3 => true
  | 4 => decide (id < 16) || id == 0xFFFF
  | 5 => decide (id < 3)
  | 6 => decide (id < 8)
  | _ => false

/-- The value of a scrub period of 100–60,000 ms in bits [15:0]. -/
def scrubMsOk (v : Nat) : Bool := within (bitsN v 0 16) 100 60000

/-- The TPIDs that CNP_SHIM refuses (04). -/
def shimTaken (t : Nat) : Bool := ([0x0800, 0x8100, 0x8847, 0x8848, 0x86DD, 0x88A8, 0x88B5, 0x88E5] : List Nat).contains t

/-- The enabled UDP ports of PRS_UDP_PORTS and PRS_QUIC_PORTS differ within one register. -/
def udpPortsOk (v : Nat) : Bool :=
  let ps := ((List.range 4).map (fun i => bitsN v (16 * i) 16)).filter (· != 0)
  ps.eraseDups.length == ps.length

/-- The frames of the flow-context cache fit in a staging partition of `u` units (06 HWD_POOL, 15 R461). -/
def framesFit (frames u : Nat) : Bool := decide (16 * frames ≤ 256 * u)

/-- A write of `v` to the register holds only values that its table allows. DEDUCED: log 63. -/
def valueOk (s : State) (r : Reg) (v : Nat) : Bool :=
  match r.name with
  | .gctSessionTtl => within (bitsN v 0 32) 1000 3600000
  | .gctSlotTtl => within (bitsN v 0 32) 100 600000
  | .prtCfg => bitsN v 0 2 != 3 && within (bitsN v 16 14) 1518 9216 && within (bitsN v 32 17) 144 65536
  | .prsDepth => within (bitsN v 0 5) 1 24 && within (bitsN v 16 4) 1 8
  | .prsKey => bitsN v 0 2 != 3
  | .prsUdpPorts => udpPortsOk v
  | .prsQuicDcid => decide (bitsN v 0 5 ≤ 20)
  | .cnpShim => !shimTaken (bitsN v 0 16)
  | .cnpMirror => bitsN v 16 14 == 0 || within (bitsN v 16 14) 64 9216
  | .flwHash => bitsN v 0 32 != bitsN v 32 32
  | .flwAge => within (bitsN v 0 32) 100 2147483647 && within (bitsN v 32 16) 100 60000
  | .flwLock => within (bitsN v 0 10) 2 1000
  | .flwScrub => within (bitsN v 0 12) 1 3600
  | .flwNotify => decide (bitsN v 0 12 ≤ 4088)
  | .flwBase => rangeExists v (2 ^ 29)
  | .flwShadow => rangeExists v (2 ^ 23)
  | .grvOrdBase => rangeExists v (2 ^ 25)
  | .hwdPool =>
    within (bitsN v 0 12) 16 2048 && within (bitsN v 16 12) 16 2048 && within (bitsN v 32 10) 4 512 &&
      decide (tailFirst + 256 * (bitsN v 0 12 + bitsN v 16 12 + bitsN v 32 10) + 65536 ≤ 1048576)
  | .hwdScrub => scrubMsOk v
  | .sqCfg => within (bitsN v 4 13) 1 4096
  | .sqBind => endpointOk (bitsN v 0 4) (bitsN v 8 16) && endpointOk (bitsN v 24 4) (bitsN v 32 16)
  | .sqT2Ctxc => within (bitsN v 0 14) 256 8192 && framesFit (bitsN v 0 14) (regF s .hwdPool 0 0 16 12)
  | .sqT2Set =>
    within (bitsN v 16 11) 1 1024 && decide (bitsN v 0 12 + bitsN v 16 11 ≤ 4096) && decide (bitsN v 32 12 + bitsN v 16 11 ≤ 4096)
  | .sqTendCtl => decide (bitsN v 21 5 ≤ 20) && decide (bitsN v 32 12 ≤ 4088)
  | .grvScrub => scrubMsOk v
  | .grvRoute => routeOk s v
  | .fctQuantum => decide (11000 ≤ bitsN v 0 24)
  | .fctScrub => scrubMsOk v
  | .fctEvac => bitsN v 16 32 == 0 || inPopulated s (bitsN v 16 32 * 65536) 1
  | .latBist => within (bitsN v 0 16) 10 60000
  | .xltSpaceBase => inPopulated s v 1048576
  | .hbmCtl => decide (1 ≤ bitsN v 8 8) && decide (1 ≤ bitsN v 16 16)
  | .hbmScrub => within (bitsN v 0 11) 1 1440
  | .hbmMir => mirStatus s r.inst r.idx v != 0x0D
  | .spnCtl => decide (10 ≤ bitsN v 16 16) && decide (2 ≤ bitsN v 32 8) && decide (100 ≤ bitsN v 40 16)
  | .spnTrace => decide (bitsN v 1 5 ≤ 26)
  | .crnCtl => decide (2 ≤ ((List.range 16).filter (bitN v)).length)
  | .crnMem => within (bitsN v 48 8) 16 64 && inPopulated s (bitsN v 30 18 * 2 ^ 30) (bitsN v 48 8 * 2 ^ 30)
  | .crnEvqBase =>
    decide (regF s .crnMem 0 0 30 18 * 2 ^ 30 ≤ v) &&
      decide (v + 131072 ≤ (regF s .crnMem 0 0 30 18 + regF s .crnMem 0 0 48 8) * 2 ^ 30)
  | .crnWd => within (bitsN v 0 16) 1 1000
  | .fshCapRate => within (bitsN v 0 11) 1 2000 && within (bitsN v 16 8) 1 255
  | .fshScrub => within (bitsN v 0 8) 1 90 && within (bitsN v 16 9) 30 365
  | _ => true

/-! ### States (R29: 0x0C WRONG_STATE) -/

/-- The module serves or drains. -/
def servingOrDraining (s : State) : Bool := s.gct.dev == .serving || s.gct.dev == .draining

/-- The module is in READY or MAINTENANCE. -/
def readyOrMaint (s : State) : Bool := s.gct.dev == .ready || s.gct.dev == .maintenance

/-- The present state accepts the write. -/
def stateAccepts (s : State) (r : Reg) (v : Nat) : Bool :=
  match r.name with
  | .prtCfg => bitsN v 0 2 == regF s .prtCfg r.idx 0 0 2 || !servingOrDraining s
  | .prsKey => v == regN s .prsKey 0 0 || !servingOrDraining s
  | .flwHash => readyOrMaint s && (List.range 8).all (fun i => fgetD 0 s.flow.entries i == 0)
  | .hwdPool =>
    readyOrMaint s && s.heart.queues.all (fun e => e.2.wr == e.2.rl) && s.tiers.frames.isEmpty && cellsOfClass s 4 == 0 && s.obs.recs.isEmpty
  | .sqCfg =>
    let q := queueGet s r.idx
    (bitN v 0 || !queueEnabled s r.idx || q.wr == q.rl) && (!bitN v 63 || q.openN.isNone)
  | .sqBind => !queueEnabled s r.idx
  | .sqT2Set => !(servingOrDraining s && tier2Set s (r.idx / 2) == r.idx % 2)
  | .sqT2Ctxc => readyOrMaint s
  | .xltSpaceBase => !servingOrDraining s
  | .hbmMir => mirStatus s r.inst r.idx v != 0x0C
  | .trsCtl => !bitN v 8 || readyOrMaint s
  | .trsCfg => !bitN v 0 || readyOrMaint s
  | .trsSigner => !bitN s.trust.signerEn (r.idx / 4)
  | _ => true

/-- The status of a write of one register by a role: 0 where it is accepted (R30: role, arguments, state). -/
def writeStatus (s : State) (role : Role) (a v : Nat) : Nat :=
  if (compassWord s a).isSome then (if compassReserved a &&& v = 0 then 0 else 0x0D)
  else if isQueuePort a then 0x11
  else match regAt a with
    | none => if blockAllows (blockWriteRight role) a then 0x0D else 0x11
    | some (row, r) =>
      let old := regView s r
      if !writeAllowed role row old v then 0x11
      else if setsReserved row v || !valueOk s r v then 0x0D
      else if breaksLock s row r old v || !stateAccepts s r v then 0x0C
      else 0

/-! ### Effects -/

/-- The stored value after a write of `v` (R22). -/
def mergeWrite (fs : List Field) (old v : Nat) : Nat :=
  fs.foldl (fun a f =>
    let w := f.hi + 1 - f.lo
    match f.acc with
    | .rw => setBitsN a f.lo w (f.of v)
    | .rwl => setBitsN a f.lo w (f.of v)
    | .rw1c => setBitsN a f.lo w (f.of old &&& (f.of v ^^^ (2 ^ w - 1)))
    | .wo => setBitsN a f.lo w 0
    | _ => a) old

/-- Stores a write of a register of a row. DEDUCED: log 59. -/
def plainWrite (s : State) (row : RegRow) (r : Reg) (v : Nat) : State :=
  regSet s r (BitVec.ofNat 64 (mergeWrite row.fields (regN s r.name r.idx r.inst) v))

/-- PRT_CFG_n (03 R124): a logical port that the new breakout does not use loses its link. DEDUCED: log 60. -/
def afterPrtCfg (s : State) (n : Nat) : State :=
  (List.range 4).foldl (fun t k => if portUsed t (4 * n + k) || !portLinkUp t (4 * n + k) then t else portLinkChange t (4 * n + k) false) s

/-- SQ_CFG_q (06 R192): a disabled queue refuses its producer's packet; FLUSH. DEDUCED: log 61. -/
def afterSqCfg (s : State) (q v : Nat) : State :=
  let s1 := if bitN v 0 then s else queueRewindPacket s q true true
  if bitN v 63 then queueFlush s1 q else s1

/-- SQ_T2_CTXC.FRAMES (15 R440): the frames beyond the new number are evicted. DEDUCED: log 61. -/
def afterCtxc (s : State) : State :=
  (s.tiers.frames.filter (fun e => decide (frameCount s ≤ e.1))).foldl (fun t e => evictFrame t e.1) s

/-- FCT_CTL (08; 19 R527): DEBUG set to 1 is measured into M7. DEDUCED: log 62. -/
def afterFctCtl (s : State) (was : Bool) (r : Reg) (v : Nat) : State :=
  if bitN v 2 && !was then measExtend s 7 (sha256 (beBytes 8 (regAddr r) ++ beBytes 8 v)) else s

/-- SPN_LINK_k (16 R462, R463): ENABLE and RETRAIN. -/
def afterSpnLink (s : State) (k v : Nat) : State :=
  let s1 := if bitN v 0 then linkEnable s k else linkDisable s k
  if bitN v 2 then linkRetrain s1 k else s1

/-- CRN_CTL (17 R493): the watchdog period of a core that newly runs under it begins. -/
def afterCrnCtl (s : State) (old v : Nat) : State :=
  (List.range 16).foldl (fun t c => if bitN v c && bitN v 16 && !(bitN old c && bitN old 16) then kick t c else t) s

/-- TRS_OPKEY_j (19 R520): EN, then ROTATE. -/
def writeOpkey (s : State) (j v : Nat) : State :=
  let s1 := opkeyEnable s j (bitN v 32)
  if bitN v 33 then trsRotate s1 j else s1

/-- TRS_CTL (19 R519, R522): SIGNER_EN, then RELEASE. -/
def writeTrsCtl (s : State) (v : Nat) : State :=
  let s1 := signerEnable s (v % 256)
  if bitN v 8 then trsRelease s1 else s1

/-- TRS_CFG (19 R528, R529): SAVE and FACTORY. -/
def writeTrsCfg (s : State) (v : Nat) : State :=
  let s1 := if bitN v 0 then trsSave s else s
  if bitN v 1 then trsFactory s1 else s1

/-- The effect of an accepted write of `v` to a register. DEDUCED: log 59. -/
def applyWrite (s : State) (row : RegRow) (r : Reg) (v : Nat) : State :=
  let old := regN s r.name r.idx r.inst
  match r.name with
  | .prtCfg => afterPrtCfg (plainWrite s row r v) r.idx
  | .flwBase => plainWrite (flushTable s r.idx) row r v
  | .grvOrdBase => plainWrite (flushOrds s r.idx) row r v
  | .sqCfg => afterSqCfg (plainWrite s row r v) r.idx v
  | .sqT2Ctxc => afterCtxc (plainWrite s row r v)
  | .fctCtl => afterFctCtl (plainWrite s row r v) (bitN old 2) r v
  | .latBist => if bitN v 16 then bistRequest (plainWrite s row r v) r.inst else plainWrite s row r v
  | .hbmMir => mirWrite s r.inst r.idx v
  | .spnLink => afterSpnLink (plainWrite s row r (setBitN v 0 (bitN old 0))) r.idx v
  | .crnCtl => afterCrnCtl (plainWrite s row r v) old v
  | .fshCapRate => plainWrite (flashMod s (fun x => { x with bucket := bucketNow s, bucketAt := s.clock })) row r v
  | .trsCtl => writeTrsCtl s v
  | .trsCfg => writeTrsCfg s v
  | .trsOpkey => writeOpkey s r.idx v
  | .trsSigner => (signerWrite s (r.idx / 4) (r.idx % 4) v).getD s
  | .obsDbg => obsDbgWrite s v
  | _ => plainWrite s row r v

/-- A write of one register that has been accepted; the Compass table does not change (22 R573). -/
def writeReg (s : State) (a v : Nat) : State :=
  if (compassWord s a).isSome then s
  else match regAt a with
    | some (row, r) => applyWrite s row r v
    | none => s

/-- REG_WRITE is legal in the device state (02 "Legality matrix"). -/
def writeLegal (s : State) : Bool := servingOrDraining s || readyOrMaint s

/-- A write that a row of the table makes: it has its effect where the device state, the value and the state of the register allow it, and
else changes nothing. DEDUCED: log 59. -/
def rowWrite (s : State) (r : Reg) (v : Nat) : State :=
  match regAt (regAddr r) with
  | some (row, q) =>
    if !writeLegal s || q != r || setsReserved row v || !valueOk s r v || breaksLock s row r (regView s r) v || !stateAccepts s r v then s
    else applyWrite s row r v
  | none => s

/-! ### REG_READ and REG_WRITE (02 R76) -/

/-- The window offsets that a command names. -/
def regOffsets (a n : Nat) : List Nat := (List.range n).map (fun i => a + 8 * i)

/-- The address and count of REG_READ and REG_WRITE are legal: the register window begins at physical address 0 (14 R409). DEDUCED: log 27. -/
def regArgsOk (a n : Nat) : Bool := a % 8 == 0 && decide (1 ≤ n) && decide (n ≤ 64) && decide (a + 8 * n ≤ 2 ^ 32)

/-- REG_READ (02 R76, R83): a register that the role may not read decides before an offset that holds none (00 R30); else every value, each
register cleared as it is read. DEDUCED: log 57. -/
def regRead (s : State) (role : Role) (f : CmdFrame) : Answer :=
  let a := beAt f.body 0 8
  let n := beAt f.body 8 8
  if f.length != 16 || !regArgsOk a n then refuse s 0x0D
  else
    let os := regOffsets a n
    if os.any (fun o => readStatus s role o == 0x11) then refuse s 0x11
    else if os.any (fun o => readStatus s role o != 0) then refuse s 0x0D
    else (complete 0 (os.flatMap (fun o => beBytes 8 (readValue s o))), os.foldl readClear s)

/-- Writes registers one after another, up to the first that is refused. -/
def writeRegs (s : State) (role : Role) (l : List (Nat × Nat)) : Nat × State :=
  match l with
  | [] => (0, s)
  | (a, v) :: t =>
    let st := writeStatus s role a v
    if st = 0 then writeRegs (writeReg s a v) role t else (st, s)

/-- REG_WRITE (02 R76): registers before the first refused one stay written. DEDUCED: log 57. -/
def regWrite (s : State) (role : Role) (f : CmdFrame) : Answer :=
  let a := beAt f.body 0 8
  let n := beAt f.body 8 8
  if f.length != 16 + 8 * n || !regArgsOk a n then refuse s 0x0D
  else
    let r := writeRegs s role ((regOffsets a n).zip ((List.range n).map (fun i => beAt f.body (16 + 8 * i) 8)))
    (complete r.1 [], r.2)

/-! ### Rows of the table that are register writes -/

/-- FLUSH (06 R192): SQ_CFG_q.FLUSH with the present ENABLE and LIMIT. -/
def flushRow (s : State) (q : Nat) : State := rowWrite s (mkReg .sqCfg q 0) (regN s .sqCfg q 0 % 2 ^ 17 + 2 ^ 63)

/-- ROUTE_WRITE (07 R216). -/
def routeWriteRow (s : State) (i v : Nat) : State := rowWrite s (mkReg .grvRoute i 0) v

/-- BIST_REQUEST (10 R334): LAT_BIST.RUN with the present PERIOD_MS. -/
def bistRequestRow (s : State) (k : Nat) : State := rowWrite s (mkReg .latBist 0 k) (regN s .latBist 0 k % 2 ^ 16 + 2 ^ 16)

/-- MIRROR_ENABLE (14 R417): HBM_MIR_r with EN set over the given units. -/
def mirrorEnableRow (s : State) (st i base size : Nat) : State :=
  rowWrite s (mkReg .hbmMir i st) (1 + base % 2 ^ 15 * 2 ^ 6 + size % 2 ^ 15 * 2 ^ 21)

/-- LINK_ENABLE (16 R462): SPN_LINK_k.ENABLE := 1. -/
def linkEnableRow (s : State) (k : Nat) : State := rowWrite s (mkReg .spnLink k 0) (regN s .spnLink k 0 % 4 / 2 * 2 + 1)

/-- LINK_RETRAIN (16 R463): SPN_LINK_k.RETRAIN := 1. -/
def linkRetrainRow (s : State) (k : Nat) : State := rowWrite s (mkReg .spnLink k 0) (regN s .spnLink k 0 % 4 + 4)

/-- TRS_RELEASE (19 R519). -/
def releaseRow (s : State) : State := rowWrite s (mkReg .trsCtl 0 0) (s.trust.signerEn % 256 + 2 ^ 8)

/-- ROTATE (19 R520). -/
def rotateRow (s : State) (j : Nat) : State := rowWrite s (mkReg .trsOpkey j 0) (b2n (bitN s.trust.ens j) * 2 ^ 32 + 2 ^ 33)

/-- OPKEY_ENABLE (19 R520). -/
def opkeyRow (s : State) (j : Nat) (en : Bool) : State := rowWrite s (mkReg .trsOpkey j 0) (b2n en * 2 ^ 32)

/-- SAVE (19 R529). -/
def saveRow (s : State) : State := rowWrite s (mkReg .trsCfg 0 0) 1

/-- FACTORY (19 R528). -/
def factoryRow (s : State) : State := rowWrite s (mkReg .trsCfg 0 0) 2

/-- ARM (15 R458): a Crown write of SQ_TEND_AT and of SQ_TEND_CTL with ARM, T2_FLIP and GRV_FLIP. -/
def armRow (s : State) (at_ flips : Nat) (t2 : Bool) : State :=
  if s.gct.stopped then s
  else
    let s1 := regPut s .sqTendAt 0 0 (at_ % 2 ^ 64)
    tendArm (regPutF (regPutF s1 .sqTendCtl 0 0 4 1 (b2n t2)) .sqTendCtl 0 0 5 16 flips)

/-- EVAC_DONE (08 R242, R243): a Crown write of FCT_EVAC: BASE takes its field, and DONE ends the evacuation. -/
def evacRow (s : State) (k base : Nat) (done : Bool) : State :=
  let v := base % 2 ^ 32 * 2 ^ 16
  if decide (1280 ≤ k) || s.gct.stopped || !valueOk s (mkReg .fctEvac 0 k) v then s
  else
    let s1 := regPutF s .fctEvac 0 k 16 32 base
    if done then evacDone s1 k else s1

end Sys2Proof.Machine
end

