-- ==== Sys2Proof/Machine/GctRun.lean ====
section
/-!
DEFINITION. What the GCT commands do once they execute, part 1 (02 R76, R83–R92, R598; 13 R406, R407): device states, result slots,
subscriptions and the session's context memory.
-/

namespace Sys2Proof.Machine

/-- What executing a command gives: what it then waits on, and the state. -/
abbrev Handled := ExecWait × State

/-- A command that has only its completion to send. -/
def handled (a : Answer) : Handled := (.send a.1, a.2)

/-- A refusal. -/
def refused (s : State) (status : Nat) : Handled := (.send (complete status []), s)

/-- A command without arguments: a body refuses it (R30). DEDUCED: log 29. -/
def bare (s : State) (f : CmdFrame) (h : Handled) : Handled := if f.length = 0 then h else refused s 0x0D

/-! ### Device states (R78, R84) -/

/-- A command that moves the device state and completes. -/
def moveTo (s : State) (f : CmdFrame) (d : DevState) : Handled := bare s f (handled (complete 0 [], enterState s d))

/-- STOP (R84; 21 R565): it completes with the cut, its own or the one in progress. DEDUCED: log 142. -/
def stopCmd (s : State) (f : CmdFrame) : Handled := bare s f (.cut, requestStop s 1)

/-- Frees a slot and increments its generation (R89). -/
def freeSlot (s : State) (n : Nat) : State :=
  { s with gct := { s.gct with
      slots := ferase s.gct.slots n, slotGen := fmodD 0 s.gct.slotGen n (fun g => (g + 1) % 2 ^ 20) } }

/-- Ends the run of a slot, if it has not finished, and frees the slot (R89, 08 R246). -/
def dropSlot (s : State) (n : Nat) : State :=
  match fget? s.gct.slots n with
  | none => s
  | some r => freeSlot (if r.ready.isNone then cancelContext s r.ctx else s) n

/-- The Span message that tells the group of a stop (2) or its end (3) (16 R471). -/
def tellGroup (s : State) (kind : Nat) : State := if s.span.member then broadcast s (controlData kind 0 (epochNow s) []) else s

/-- The length of the HALTED period (R79). DEDUCED: log 49. -/
def haltedNs (s : State) : Nat := (stampNow s + 2 ^ 64 - regF s .obsCut 0 0 0 56) % 2 ^ 56

/-- The recorded releases apply, in the order in which their commands completed (R598). -/
def applyReleases (s : State) : State := s.gct.releases.foldl dropSlot { s with gct := { s.gct with releases := [] } }

/-- RESUME (R79, R598; 21 R568; 16 R471). After STOP in a FAULTED state with stopped islands it restarts them: R79 says it of every RESUME,
R78 that they stay stopped until a module reset. DEDUCED: log 45; DESIGN CHOICE: log 161. -/
def resumeNow (s : State) : State :=
  let s1 := applyReleases { s with gct := { s.gct with stopped := false } }
  let s2 := enterState (settleLate (holdAdvance s1 (haltedNs s))) (s.gct.prior.getD .ready)
  let s3 := retryStateEvents s2 (s2.gct.stateWait.length + 1)
  tellGroup s3 3

/-- The blocks of a register address that stop at a cut. -/
def addressStops (a : Nat) : Bool :=
  match decodeBlock a with
  | some (b, _, _) => b.stops
  | none => false

/-- A LOCK bit that was set stays set: only a module reset clears it (00 R23). -/
def keepLocks (s t : State) : State :=
  [(Block.flw, 1), (.grv, 1), (.hbm, 8), (.crn, 1)].foldl (fun t e =>
    (List.range e.2).foldl (fun t i => if locked s e.1 i then lockBlock t e.1 i else t) t) t

/-- Heartwood after a reset of its stopped part: the control slice, which runs on, keeps its cells (R79). -/
def Heart.stoppedReset (h : Heart) : Heart :=
  { Heart.reset with links := h.links.filter (fun e => decide (e.1 < 256)), lastBank := h.lastBank.filter (fun e => decide (4160 ≤ e.1)) }

/-- The address is that of an XLT_FRING, which only a module reset clears (13 R408). -/
def fringAddress (a : Nat) : Bool :=
  match decodeBlock a with
  | some (.xlt, _, off) => off == 0
  | _ => false

/-- The Facet cores after a reset of the stopped islands: the fault rings stay, and the records that wait for them (13 R408). -/
def Facet.stoppedReset (f : Facet) : Facet :=
  { Facet.reset with cores := f.cores.filterMap (fun e => if e.2.faults.isEmpty then none else some (e.1, { CoreSt.reset with faults := e.2.faults })) }

/-- The stopped islands are reset (R78): their state is that of a module reset, with their registers from the configuration record in
force; memory, result slots, LOCK bits and the fault rings stay. DEDUCED: log 46. -/
def resetStopped (s : State) : State :=
  let fresh : State := { s with
    regs := s.regs.filter (fun e => !addressStops e.1 || fringAddress e.1), ports := { s.ports with rx := [], held := [] }, heart := s.heart.stoppedReset
    canopy := Canopy.reset, flow := Flow.reset, grove := Grove.reset, tiers := Tiers.reset, facet := s.facet.stoppedReset, crown := Crown.reset
    gct := { s.gct with stopped := false, recq := [] } }
  keepLocks s (match fget? s.flash.cfg s.trust.cfgSrc with
    | some r => loadPairs fresh (r.pairs.filter (fun e => addressStops e.1))
    | none => fresh)

/-! ### Subscriptions (R91) -/

/-- SUBSCRIBE (R91) by session `i`: byte 0 CLASS, bytes 1–7 reserved. The layout of the body is the model's choice. DESIGN CHOICE: log 159. -/
def subscribe (s : State) (i : Nat) (f : CmdFrame) : Answer :=
  let cls := byteAt f.body 0
  let put (l : List Subscription) : State := { s with gct := { s.gct with subs := l } }
  if f.length != 8 || !allZero (slice f.body 1 7) || decide (2 < cls) then refuse s 0x0D
  else match subOf s cls i with
    | some u =>
      let u' := { u with port := f.port, smac := f.smac, vlan := f.vlan, udp := f.udp }
      (complete 0 [], put (s.gct.subs.map (fun x => if x.cls == cls && x.session == i then u' else x)))
    | none =>
      if 4 ≤ (s.gct.subs.filter (fun x => x.cls == cls)).length then refuse s 0x20
      else
        let u : Subscription := { cls := cls, session := i, port := f.port, smac := f.smac, vlan := f.vlan, udp := f.udp
                                  count := 0, lost := 0 }
        (complete 0 [], put (s.gct.subs ++ [u]))

/-! ### RUN and the result slots (R85–R90) -/

/-- A free slot, searched from `v` upward. DESIGN CHOICE: log 24. -/
def freeSlotFrom (s : State) (v fuel : Nat) : Option Nat :=
  match fuel with
  | 0 => none
  | k + 1 => if (fget? s.gct.slots (v % 4096)).isNone then some (v % 4096) else freeSlotFrom s (v + 1) k

/-- The handle of a slot (R85). -/
def slotHandle (s : State) (n : Nat) : Nat := fgetD 0 s.gct.slotGen n * 4096 + n

/-- RUN (R86): which free slot it takes is a free value. That the handle stands in bytes 0–3 of a body of 8 bytes is the model's choice.
DESIGN CHOICE: log 40; DESIGN CHOICE: log 159. -/
def runNew (s : State) (x : Session) (f : CmdFrame) : Answer :=
  let b := f.body
  let ctx := beAt b 0 2
  let rlen := beAt b 24 8
  if f.length != 32 || beAt b 6 2 != 0 || decide (4096 < rlen) || rlen % 8 != 0 then refuse s 0x0D
  else
    let (v, s1) := freeBits s 12
    match freeSlotFrom s1 v 4096 with
    | none => refuse s 0x20
    | some n =>
      let busy := contextRuns s ctx
      let r : ResultSlot := { role := x.role, ctx := ctx, resultLen := rlen, ready := none, data := [], read := false, readyAt := 0 }
      let s2 := { s1 with gct := { s1.gct with slots := finsert s1.gct.slots n r } }
      (complete 0 (beBytes 4 (slotHandle s n) ++ zeros 4),
       placeRun s2 n ctx (beAt b 2 2) (beAt b 4 2) (beAt b 8 8) (beAt b 16 8) rlen busy)

/-- The slot that a handle names for a role: STALE, ROLE_DENIED, or the slot (R85, R87, R598). A handle of a free slot whose generation
matches answers STALE. DESIGN CHOICE: log 35. -/
def slotNamed (s : State) (role : Role) (h : Nat) : Except Nat ResultSlot :=
  let n := h % 4096
  if fgetD 0 s.gct.slotGen n != h / 4096 then .error 0x02
  else match fget? s.gct.slots n with
    | none => .error 0x02
    | some r => if r.role != role then .error 0x11 else if decide (n ∈ s.gct.releases) then .error 0x02 else .ok r

/-- What a slot body names: a handle in bytes 0–3 and four reserved bytes; ROLE_DENIED comes before BAD_ARGS (00 R30). DEDUCED: log 34. -/
def slotArg (s : State) (role : Role) (f : CmdFrame) : Except Nat (Nat × ResultSlot) :=
  let r := slotNamed s role (beAt f.body 0 4)
  if f.length != 8 then .error 0x0D
  else match r with
    | .error 0x11 => .error 0x11
    | .error e => if allZero (slice f.body 4 4) then .error e else .error 0x0D
    | .ok x => if allZero (slice f.body 4 4) then .ok (beAt f.body 0 4 % 4096, x) else .error 0x0D

/-- SLOT_READ (R87, R88; 06 R180): an uncorrectable error in the cells that hold the slot's status and data gives 0x60 and no data. In a
stopped module the read changes nothing of Heartwood (R83). DEDUCED: log 34. -/
def slotRead (s : State) (role : Role) (f : CmdFrame) : Answer :=
  match slotArg s role f with
  | .error e => refuse s e
  | .ok (n, r) =>
    match r.ready with
    | none => refuse s 0x01
    | some st =>
      let cells := (slotCells n).take (1 + ceilDiv r.data.length 256)
      let s0 := if s.gct.stopped then s else readCells s cells
      let s1 := { s0 with gct := { s0.gct with slots := fmod s0.gct.slots n (fun y => { y with read := true }) } }
      let bad := cellsFail s0 cells
      ({ status := if bad then 0x60 else st, flags := if r.read then 4 else 0, body := if bad then [] else r.data }, s1)

/-- SLOT_RELEASE (R89, R598): while the islands stay stopped, in HALTED or in FAULTED after it, the release is only recorded.
DEDUCED: log 34, log 160. -/
def slotRelease (s : State) (role : Role) (f : CmdFrame) : Handled :=
  match slotArg s role f with
  | .error e => refused s e
  | .ok (n, r) =>
    if s.gct.dev = .halted || (s.gct.dev = .faulted && s.gct.stopped) then
      (.send (complete 0 []), { s with gct := { s.gct with releases := s.gct.releases ++ [n] } })
    else if r.ready.isSome then (.send (complete 0 []), freeSlot s n)
    else (.cancel n, s)

/-- CANCEL_COMPLETE (R89; 08 R246): the run has stopped and its slot is freed. In a stopped island a run does not stop. -/
def cancelComplete (s : State) (n : Nat) : State :=
  match fget? s.gct.slots n with
  | none => s
  | some r =>
    if !anyWait s (fun w => w == .cancel n) || (r.ready.isNone && (s.gct.stopped || cancelWaits s r.ctx)) then s
    else answerWait (dropSlot s n) (fun w => w == .cancel n) 0 []

/-- SLOT_TTL_EXPIRY (R90): the slot has been ready for GCT_SLOT_TTL; the timer pauses in HALTED (R79). DEDUCED: log 55. -/
def slotTtlExpiry (s : State) (n : Nat) : State :=
  match fget? s.gct.slots n with
  | none => s
  | some r =>
    if s.gct.dev != .halted && r.ready.isSome && decide (r.readyAt + msTicks (regF s .gctSlotTtl 0 0 0 32) ≤ s.idleClock) then
      freeSlot s n
    else s

/-! ### The session's context memory (13 R406, R407) -/

/-- The arguments of MEM_READ and MEM_WRITE lie in their ranges (13 R406). DEDUCED: log 36. -/
def memArgsOk (s : State) (f : CmdFrame) (write : Bool) : Bool :=
  let b := f.body
  let va := beAt b 8 8
  let n := beAt b 16 8
  decide (24 ≤ f.length) && allZero (slice b 2 6) && va % 8 == 0 && n % 8 == 0 && decide (8 ≤ n) &&
    decide (n ≤ if write then 8168 else 8192) && f.length == (if write then 24 + n else 24) && decide (va + n ≤ 2 ^ 48) &&
    (fget? s.crown.contexts (beAt b 0 2)).any (fun c => c.operator)

/-- The pieces of the range, translated before any byte is read or written (13 R407). In HALTED the walk uses no cache (R83).
DESIGN CHOICE: log 37. -/
def memTranslate (s : State) (f : CmdFrame) (need : Need) : Except Nat (List (Nat × Nat)) × State :=
  let s0 := if s.gct.stopped then unitSet s unitGct XltUnit.reset else s
  translatePieces s0 unitGct (beAt f.body 0 2) need (pagePieces (beAt f.body 8 8) (beAt f.body 16 8) 3)

/-- MEM_READ (13 R407): in a stopped module it changes nothing (R83). DESIGN CHOICE: log 37. -/
def memRead (s : State) (f : CmdFrame) : Answer :=
  if !memArgsOk s f false then refuse s 0x0D
  else
    let keep (t : State) : State := if s.gct.stopped then s else t
    match memTranslate s f .r with
    | (.error e, s1) => (complete e [], keep (bump s1 .xltMemFault 0 0))
    | (.ok ps, s1) =>
      let (bs, bad, s2) := readPieces s1 ps
      (if bad then complete 0x60 [] else complete 0 bs, keep s2)

/-- MEM_WRITE (13 R407). -/
def memWriteCmd (s : State) (f : CmdFrame) : Answer :=
  if !memArgsOk s f true then refuse s 0x0D
  else match memTranslate s f .w with
    | (.error e, s1) => (complete e [], bump s1 .xltMemFault 0 0)
    | (.ok ps, s1) => (complete 0 [], writePieces s1 (f.body.drop 24) false ps)

end Sys2Proof.Machine
end

