-- ==== Sys2Proof/Machine/GctModel.lean ====
section
/-!
DEFINITION. What the GCT commands do once they execute, part 2: rules and flows (04 R145–R148; 05 R167, R168), models (15 R451–R454;
07 R211, R212), applications (17 R491) and Span membership (16 R475, R478).
-/

namespace Sys2Proof.Machine

/-! ### Waits on other commands -/

/-- The commands in execution that wait as `p` says, with their sessions, in the order in which they began. -/
def waiting (s : State) (p : ExecWait → Bool) : List (Nat × ExecCmd) :=
  let l := s.gct.sessions.filterMap (fun e => (e.2.exec.filter (fun x => p x.wait)).map (fun x => (e.1, x)))
  l.mergeSort (fun a b => decide (a.2.order ≤ b.2.order))

/-- The command in execution of session `i` has its completion. -/
def answerSession (s : State) (i : Nat) (c : Completion) : State :=
  sessionMod s i (fun x => { x with exec := x.exec.map (fun e => e.answer c) })

/-- The command in execution of session `i` waits on something else. -/
def rewait (s : State) (i : Nat) (w : ExecWait) : State :=
  sessionMod s i (fun x => { x with exec := x.exec.map (fun e => { e with wait := w }) })

/-! ### RULE_WRITE and RULE_SWAP (04 R145–R148) -/

/-- A RULE_WRITE to table `t` waits: for pins on its standby bank, or behind an earlier one to the table (04 R146). DESIGN CHOICE: log 38. -/
def ruleBlocked (s : State) (t : Nat) : Bool :=
  decide (0 < pinCount s t (standbyBank s t)) || anyWait s (fun w => w == .rulePins t)

/-- RULE_WRITE (04 R146, R147). -/
def ruleWriteCmd (s : State) (f : CmdFrame) : Handled :=
  let b := f.body
  if !ruleWriteOk b then refused s 0x0D
  else if ruleBlocked s (byteAt b 0) then (.rulePins (byteAt b 0), s)
  else
    let (st, s1) := ruleWrite s b
    (.send (complete st []), s1)

/-- A RULE_WRITE that began before command number `order` waits on a table of the mask. DESIGN CHOICE: log 38. -/
def swapBlocked (s : State) (mask order : Nat) : Bool :=
  (waiting s (fun w => match w with | .rulePins t => bitN mask t | _ => false)).any (fun e => decide (e.2.order < order))

/-- RULE_SWAP (04 R145, R146, R148). -/
def ruleSwapCmd (s : State) (f : CmdFrame) : Handled :=
  let b := f.body
  let mask := beAt b 0 2
  if f.length != 8 || !allZero (slice b 2 6) then refused s 0x0D
  else if swapBlocked s mask s.gct.begun then (.ruleSwap mask, s)
  else (.send (complete 0 []), ruleSwap s mask)

/-- Swaps that waited for a RULE_WRITE take place in order once none that began before them is left. DESIGN CHOICE: log 38. -/
def retrySwaps (s : State) : State :=
  (waiting s (fun w => match w with | .ruleSwap _ => true | _ => false)).foldl (fun t e =>
    match e.2.wait with
    | .ruleSwap mask => if swapBlocked t mask e.2.order then t else answerSession (ruleSwap t mask) e.1 (complete 0 [])
    | _ => t) s

/-- PINNED_WRITE_APPLY (04 R146): the first RULE_WRITE that waits on table `t` applies once the bank's pin count is 0. -/
def pinnedWriteApply (s : State) (t : Nat) : State :=
  match waiting s (fun w => w == .rulePins t) with
  | [] => s
  | e :: _ =>
    if pinCount s t (standbyBank s t) ≠ 0 then s
    else
      let (st, s1) := ruleWrite s e.2.cmd.body
      retrySwaps (answerSession s1 e.1 (complete st []))

/-! ### FLOW_READ and FLOW_DELETE (05 R167, R168) -/

/-- FLOW_READ (05 R167). -/
def flowReadCmd (s : State) (f : CmdFrame) : Answer :=
  if flowBodyOk f.body false then let r := flowRead s f.body; (complete 0 r.1, r.2) else refuse s 0x0D

/-- A record of the flow engine waits for room in its queue. -/
def noteWaits (s : State) (n : Bytes) : Bool := s.flow.notes.any (fun e => e.2.any (fun x => x.body == n))

/-- FLOW_DELETE once it is not held back by a lock: the record is written, or waits for room (05 R161, R168). -/
def deleteNow (s : State) (f : CmdFrame) : Handled :=
  match flowDelete s f.body with
  | (none, s1) => refused s1 0x0D
  | (some note, s1) => if noteWaits s1 note then (.flowNote note, s1) else (.send (complete 0 []), s1)

/-- FLOW_DELETE (05 R167, R168). -/
def flowDeleteCmd (s : State) (f : CmdFrame) : Handled :=
  if !flowBodyOk f.body true then refused s 0x0D
  else if deleteBlocked s f.body then (.flowLock, s) else deleteNow s f

/-- Deletes that waited on a lock go on in order where their buckets are free (05 R168). -/
def retryDeletes (s : State) : State :=
  (waiting s (fun w => w == .flowLock)).foldl (fun t e =>
    if deleteBlocked t e.2.cmd.body then t
    else
      let (w, t1) := deleteNow t e.2.cmd
      rewait t1 e.1 w) s

/-- Deletes whose record has entered its queue complete (05 R168). -/
def notesSent (s : State) : State :=
  answerWait s (fun w => match w with | .flowNote n => !noteWaits s n | _ => false) 0 []

/-- FLOW_RECORD_ENQUEUE (05 R161): the waiting records of pipeline `i` enter their queue while it has room. -/
def flowRecordEnqueue (s : State) (i : Nat) : State := notesSent (drainNotes s i ((fgetD [] s.flow.notes i).length))

/-! ### MODEL_ACTIVATE (15 R451–R454) -/

/-- The fields of a MODEL_ACTIVATE body: image ID, TARGET, SLOT, PIPES, SECTION. -/
structure ActBody where
  image : Nat
  target : Nat
  slot : Nat
  pipes : Nat
  sect : Nat
deriving DecidableEq, Repr

/-- The body of a MODEL_ACTIVATE. -/
def actBody (b : Bytes) : ActBody :=
  { image := beAt b 0 4, target := byteAt b 4, slot := byteAt b 5, pipes := beAt b 6 2, sect := byteAt b 8 }

/-- The fields agree with the target, and the reserved bytes are 0 (15 R453). DEDUCED: log 41. -/
def actFieldsOk (f : CmdFrame) : Bool :=
  let a := actBody f.body
  f.length == 16 && allZero (slice f.body 9 7) &&
    (match a.target with
      | 1 => decide (a.slot < 16) && a.pipes == 0
      | 2 => a.slot == 0 && decide (a.pipes < 256)
      | 3 => a.slot == 0 && a.pipes == 0
      | 4 => decide (a.slot < 16) && a.pipes == 0 && a.image == 0 && a.sect == 0
      | _ => false)

/-- The section that a MODEL_ACTIVATE names in a complete image of LIBRARY (15 R453). -/
def actSection (s : State) (a : ActBody) : Option (Bytes × Bytes) :=
  (fget? s.flash.images a.image).bind (fun img =>
    (Config.imageSection (imagePayload img) a.target a.sect).map (fun sec => (img, sec)))

/-- M4 of a MODEL_ACTIVATE that succeeds (19 R527): the header, or 88 zero bytes, and bytes 4–8 of the body. -/
def measureModel (s : State) (head b : Bytes) : State := measExtend s 4 (sha256 (head ++ slice b 4 5))

/-- A MODEL_ACTIVATE of an image has succeeded: the image is in use, and M4 is extended. -/
def activated (s : State) (f : CmdFrame) (img : Bytes) : State :=
  measureModel (imageUsed s (actBody f.body).image) (img.take 88) f.body

/-- Target 1 (07 R211). -/
def activateGrove (s : State) (f : CmdFrame) (img sec : Bytes) : Handled :=
  let a := actBody f.body
  let (st, s1) := groveLoad s a.slot sec a.image a.sect
  if st = 0 then (.send (complete 0 []), activated s1 f img) else refused s st

/-- Pipeline `i` switches to the other Tier 2 set with a model (15 R454). DEDUCED: log 41. -/
def switchPipe (s : State) (i : Nat) (m : Tier2Model) : State :=
  let x := 1 - tier2Set s i
  let s1 := { s with tiers := { s.tiers with models := finsert s.tiers.models (2 * i + x) m } }
  gateQueues (regPutF s1 .sqT2Ctl 0 0 i 1 x) i x

/-- The Tending section that comes with a Tier 2 image (15 R456). DEDUCED: log 22. -/
def tendWith (s : State) (img : Bytes) : State :=
  let sec := Config.imageSection (imagePayload img) 4 0
  { s with tiers := { s.tiers with tend := { s.tiers.tend with
      active := sec.isSome, slots := (sec.map Config.tendingSlots).getD 0 } } }

/-- Target 2 (15 R433, R454). DEDUCED: log 22. -/
def activateTier2 (s : State) (f : CmdFrame) (img sec : Bytes) : Handled :=
  let a := actBody f.body
  let (modelId, feats, missVal, errClass, initPage) := Config.tier2Section sec
  if feats.length = 0 ∨ 248 < feats.length ∨ !feats.all (fun x => featureOk x [0, 1, 4]) then refused s 0x0D
  else
    let m : Tier2Model := { image := a.image, modelId := modelId, feats := feats, missVal := missVal, errClass := errClass
                            initPage := initPage }
    let s1 := ((List.range 8).filter (bitN a.pipes)).foldl (fun t i => switchPipe t i m) s
    (.send (complete 0 []), activated (tendWith s1 img) f img)

/-- An Apex image fits on every schedulable core beside the active Tier 2 steps (15 R451). DEDUCED: log 112. -/
def apexFits (s : State) (sec : Bytes) : Bool :=
  let active := ((List.range 8).filterMap (fun i => (tier2Model s i).map (fun m => m.image))).dedup
  (List.range 1280).all (fun k => !coreActive s k || (coreGet s k).reserve ||
    decide (Config.apexPart sec k + Config.tier2Ring active k ≤ 1835008))

/-- The Tier 3 model of an image takes its place (15 R453). DEDUCED: log 42. -/
def placeTier3 (s : State) (f : CmdFrame) (img sec : Bytes) : State :=
  let a := actBody f.body
  let (modelId, apex, _) := Config.tier3Section sec
  activated { s with tiers := { s.tiers with
    tier3 := some { image := a.image, section_ := a.sect, modelId := modelId, apex := apex
                    shard := Config.imageShard (imagePayload img) } } } f img

/-- Target 3 (15 R451–R453): a model in use is replaced between escalations. DEDUCED: log 42. -/
def activateTier3 (s : State) (f : CmdFrame) (img sec : Bytes) : Handled :=
  let (_, apex, bound) := Config.tier3Section sec
  if apex ∧ 25000 < bound then refused s 0x0D
  else if apex ∧ (s.gct.modes.share ≠ 0 ∨ !apexFits s sec) then refused s 0x20
  else if !tier3Busy s then (.send (complete 0 []), placeTier3 s f img sec)
  else (.place, s)

/-- Target 4 (07 R212). -/
def activateUnload (s : State) (f : CmdFrame) : Handled :=
  let n := (actBody f.body).slot
  match fget? s.grove.slots n with
  | none => refused s 0x0D
  | some g =>
    if g.draining then (.unload n, s)
    else if slotRouted s n then refused s 0x0C
    else (.unload n, { s with grove := { s.grove with slots := finsert s.grove.slots n { g with draining := true } } })

/-- A sharded image does not fit the mesh of the current epoch (16 R474). -/
def imageUnfit (s : State) (img : Bytes) : Bool := (Config.imageShard (imagePayload img)).any (fun c => shardUnfit s c.1 c.2)

/-- MODEL_ACTIVATE (15 R453; 16 R474). DEDUCED: log 43. -/
def modelActivate (s : State) (f : CmdFrame) : Handled :=
  let a := actBody f.body
  if !actFieldsOk f then refused s 0x0D
  else if a.target = 4 then activateUnload s f
  else match actSection s a with
    | none => refused s 0x0D
    | some (img, sec) =>
      if !lanvikVerifies s img a.image then refused (sigBad s) 0x70
      else if imageUnfit s img then refused s 0x0D
      else match a.target with
        | 1 => activateGrove s f img sec
        | 2 => activateTier2 s f img sec
        | _ => activateTier3 s f img sec

/-- The unloads that wait on slot `n` succeed, each extending M4 (19 R527). -/
def unloaded (s : State) (n : Nat) : State :=
  let s1 := (waiting s (fun w => w == .unload n)).foldl (fun t e => measureModel t (zeros 88) e.2.cmd.body) s
  answerWait s1 (fun w => w == .unload n) 0 []

/-- UNLOAD_COMPLETE (07 R212): no packet that sampled the draining slot remains in Grove. -/
def unloadComplete (s : State) (n : Nat) : State :=
  match fget? s.grove.slots n with
  | some g => if !g.draining || slotInUse s n then s else unloaded (groveFree s n) n
  | none => unloaded s n

/-- Between two escalations the Tier 3 models that wait are placed, in order (15 R453). -/
def retryPlaces (s : State) : State :=
  (waiting s (fun w => w == .place)).foldl (fun t e =>
    match actSection t (actBody e.2.cmd.body) with
    | some (img, sec) => answerSession (placeTier3 t e.2.cmd img sec) e.1 (complete 0 [])
    | none => answerSession t e.1 (complete 0x0D [])) s

/-! ### MAINT_ENTER (02 R78) -/

/-- Commands that waited on an island go on once it has been reset. -/
def settleWaits (s : State) : State :=
  let s1 := (List.range 16).foldl (fun t n => unloadComplete (pinnedWriteApply t n) n) s
  retryPlaces (retryDeletes (notesSent s1))

/-- MAINT_ENTER (02 R78): from a FAULTED state with stopped islands these are reset first, and the releases recorded in HALTED apply.
DEDUCED: log 46, log 160. -/
def maintEnter (s : State) (f : CmdFrame) : Handled :=
  let s1 := if s.gct.dev = .faulted ∧ s.gct.stopped then settleWaits (applyReleases (resetStopped s)) else s
  let s2 := enterState s1 .maintenance
  bare s f (handled (complete 0 [], retryStateEvents s2 (s2.gct.stateWait.length + 1)))

/-! ### Applications (17 R491, R492) -/

/-- The sum of MEM_MIB over the loaded applications. -/
def appMemory (s : State) : Nat := s.crown.appMem.foldl (fun a e => a + e.2) 0

/-- CRN_STATUS.APP follows the cores of the loaded applications. -/
def appCores (s : State) : State :=
  let cores := (List.range 8).foldl (fun a n => if regF s .crnApp n 0 16 1 = 1 then a ||| regF s .crnApp n 0 0 16 else a) 0
  regPutF s .crnStatus 0 0 32 16 cores

/-- The fields of an APP_LOAD body are within their ranges for OP. DEDUCED: log 44. -/
def appFieldsOk (f : CmdFrame) : Bool :=
  let b := f.body
  f.length == 16 && decide (byteAt b 1 < 8) && allZero (slice b 12 4) &&
    (match byteAt b 0 with
      | 1 => beAt b 2 2 != 0 && decide (1 ≤ beAt b 8 4) && decide (beAt b 8 4 ≤ 4096)
      | 2 => beAt b 2 2 == 0 && beAt b 4 4 == 0 && beAt b 8 4 == 0
      | _ => false)

/-- OP 1 of APP_LOAD (17 R491; 19 R527 M5). DEDUCED: log 44. -/
def appLoad (s : State) (f : CmdFrame) : Answer :=
  let b := f.body
  let n := byteAt b 1
  let cores := beAt b 2 2
  let image := beAt b 4 4
  if cores &&& regF s .crnCtl 0 0 0 16 != 0 || regF s .crnApp n 0 16 1 == 1 then refuse s 0x0D
  else match fget? s.flash.images image with
    | none => refuse s 0x0D
    | some img =>
      if (Config.imageSection (imagePayload img) 5 0).isNone then refuse s 0x0D
      else if !lanvikVerifies s img image then refuse (sigBad s) 0x70
      else if regF s .crnMem 0 0 48 8 * 1024 < appMemory s + beAt b 8 4 + 8192 then refuse s 0x20
      else
        let s1 := regPut s .crnApp n 0 (cores + 2 ^ 16 + image * 2 ^ 32)
        let s2 := { s1 with crown := { s1.crown with appMem := finsert s1.crown.appMem n (beAt b 8 4) } }
        (complete 0 [], measExtend (appCores (imageUsed s2 image)) 5 (sha256 (img.take 88 ++ [byteOf n])))

/-- OP 2 of APP_LOAD (17 R491): an unload frees the application's memory and its contexts; of an empty slot it changes nothing. A run
of such a context ends as one of a context that does not exist (08 R244). DEDUCED: log 44. -/
def appUnload (s : State) (f : CmdFrame) : Answer :=
  let n := byteAt f.body 1
  let s1 := regPut s .crnApp n 0 0
  let own (c : NewContext) : Bool := c.app.any (fun a => a.val == n)
  let gone := (s.crown.contexts.filter (fun e => own e.2)).map Prod.fst
  let s2 := gone.foldl (fun t c => runReady (cancelContext t c) c 0x0C []) { s1 with crown := { s1.crown with
    appMem := ferase s1.crown.appMem n, contexts := s1.crown.contexts.filter (fun e => !own e.2) } }
  (complete 0 [], appCores s2)

/-- APP_LOAD (17 R491). -/
def appCmd (s : State) (f : CmdFrame) : Answer :=
  if !appFieldsOk f then refuse s 0x0D else if byteAt f.body 0 = 1 then appLoad s f else appUnload s f

/-! ### SPAN_MEMBER (16 R475, R478) -/

/-- The module is a member of an open epoch (16 R476, R478). -/
def inOpenEpoch (s : State) : Bool := s.span.member || s.span.old.isSome

/-- The links whose ENABLE is set begin to train (16 R462, R478). -/
def trainEnabled (s : State) : State :=
  (List.range 8).foldl (fun t k => if regF t .spnLink k 0 0 1 = 1 then linkEnable t k else t) s

/-- ATTACH (16 R478; 19 R527 M6). DESIGN CHOICE: log 47. -/
def spanAttach (s : State) (f : CmdFrame) : Answer :=
  let b := f.body
  let neigh := (List.range 8).map (fun k => byteAt b (16 + k))
  if f.length != 24 || decide (64 ≤ byteAt b 12) || !allZero (slice b 13 3) || neigh.any (fun x => decide (64 ≤ x) && x != 0xFF) then
    refuse s 0x0D
  else if inOpenEpoch s then refuse s 0x0C
  else
    let s1 := regPut s .spnId 0 0 (beAt b 8 4 + byteAt b 12 * 2 ^ 32 + 2 ^ 38)
    let map := (List.range 8).foldl (fun m k => fsetD 0xFF m k (neigh.getD k 0xFF)) ([] : FMap Nat)
    (complete 0 [], measureSpan (trainEnabled { s1 with span := { s1.span with neigh := map } }))

/-- The plan that an EPOCH body names (16 R475). -/
def epochPlan (s : State) (b : Bytes) : EpochPlan :=
  let mesh := [byteAt b 8, byteAt b 9, byteAt b 10]
  { epoch := (epochNow s + 1) % 2 ^ 32, coord := ownId s, mesh := mesh
    map := (List.range (byteAt b 8 * byteAt b 9 * byteAt b 10)).map (fun p => byteAt b (16 + p)) }

/-- An EPOCH body is well formed, and every module that its map names has a trained path (16 R478). -/
def epochArgsOk (s : State) (f : CmdFrame) : Bool :=
  let b := f.body
  let p := epochPlan s b
  let q := p.map.length
  let ms := membersOf p.map
  decide (1 ≤ q) && decide (q ≤ 64) && f.length == 16 + ceilDiv q 8 * 8 && allZero (slice b 11 5) && allZero (b.drop (16 + q)) &&
    ms.all (fun m => decide (m < 64)) && decide ms.Nodup && ms.all (fun m => m == ownId s || planReaches s p m)

/-- EPOCH (16 R475, R478): it completes at COMMIT or ABORT. DESIGN CHOICE: log 47. -/
def spanEpoch (s : State) (f : CmdFrame) : Handled :=
  let p := epochPlan s f.body
  let attached := regF s .spnId 0 0 38 1 == 1
  if !epochArgsOk s f then refused s 0x0D
  else if !attached || isolated s || s.span.run.isSome || s.span.old.isSome || !(isCoord s || (!s.span.member && p.map.head? == some (ownId s))) then refused s 0x0C
  else
    let s1 := startEpoch s p 0xFF true
    (if s1.span.run.isNone then .send (complete 0 []) else .epoch, s1)

/-- DETACH (16 R478): SPN_ID is cleared, and links in training stop. DESIGN CHOICE: log 47. -/
def spanDetach (s : State) (f : CmdFrame) : Answer :=
  if f.length != 8 then refuse s 0x0D
  else if inOpenEpoch s then refuse s 0x0C
  else
    let s1 := regPut { s with span := { s.span with neigh := [] } } .spnId 0 0 0
    (complete 0 [], (List.range 8).foldl (fun t k => if linkState t k = 1 then setLinkState t k 0 else t) s1)

/-- QUERY (16 R478): SPN_ID, SPN_EPOCH, SPN_MESH, SPN_STATUS, then the map by position. -/
def spanQuery (s : State) (f : CmdFrame) : Answer :=
  let r (n : RegName) : Bytes := beBytes 8 (regView s (mkReg n 0 0))
  if f.length != 8 then refuse s 0x0D
  else (complete 0 (r .spnId ++ r .spnEpoch ++ r .spnMesh ++ r .spnStatus ++ (List.range 64).map (fun p => byteOf (mapAt s p))), s)

/-- SPAN_MEMBER (16 R478). -/
def spanMember (s : State) (f : CmdFrame) : Handled :=
  if decide (f.length < 8) || !allZero (slice f.body 1 7) then refused s 0x0D
  else match byteAt f.body 0 with
    | 1 => handled (spanAttach s f)
    | 2 => spanEpoch s f
    | 3 => handled (spanDetach s f)
    | 4 => handled (spanQuery s f)
    | _ => refused s 0x0D

end Sys2Proof.Machine
end

