-- ==== Sys2Proof/Machine/Gct.lean ====
section
/-!
DEFINITION. The command transport engine (02 R60–R73, R82): how a command frame is admitted, checked and executed, and how completions
and records leave.
-/

namespace Sys2Proof.Machine

/-! ### Rights and legality (R75, R82) -/

/-- The roles that hold the right for an opcode: 1 maker, 2 installer, 4 operator; none where the table does not list it (02 "Opcodes"). -/
def opcodeRoles (op : Nat) : Option Nat :=
  match op with
  | 0x0001 => some 7 | 0x0002 => some 7 | 0x0003 => some 7 | 0x0004 => some 7 | 0x0010 => some 7 | 0x0011 => some 7
  | 0x0012 => some 4 | 0x0013 => some 4
  | 0x0020 => some 6 | 0x0021 => some 6 | 0x0022 => some 7 | 0x0023 => some 7 | 0x0024 => some 3 | 0x0025 => some 3 | 0x0026 => some 3
  | 0x0030 => some 6 | 0x0031 => some 7 | 0x0032 => some 6
  | 0x0040 => some 4 | 0x0041 => some 4 | 0x0042 => some 4 | 0x0043 => some 4
  | 0x0050 => some 4 | 0x0051 => some 4 | 0x0052 => some 4
  | 0x0060 => some 6 | 0x0061 => some 4 | 0x0062 => some 3 | 0x0063 => some 3
  | 0x0064 => some 6 | 0x0065 => some 2 | 0x0066 => some 2
  | 0x0070 => some 7 | 0x0071 => some 7
  | 0x0080 => some 7 | 0x0081 => some 5 | 0x0082 => some 3
  | 0x0090 => some 6 | 0x00A0 => some 6
  | _ => none

/-- The role holds the right that the opcode needs; an unlisted opcode needs none (R75). -/
def roleMay (r : Role) (op : Nat) : Bool :=
  match opcodeRoles op with
  | some m => bitN m (r.code - 1)
  | none => true

/-! ### Execution (R68 step 6, R72, R82) -/

/-- What a command of session `i` does when it executes, by its opcode (02 "Opcodes"). -/
def runOpcode (s : State) (i : Nat) (x : Session) (f : CmdFrame) : Handled :=
  match f.opcode with
  | 0x0001 => bare s f (handled (complete 0 [], s))
  | 0x0003 => bare s f (handled (complete 0 [], s))
  | 0x0004 => bare s f (handled (complete 0 (beBytes 8 (gctState s)), s))
  | 0x0010 => handled (regRead s x.role f)
  | 0x0011 => handled (regWrite s x.role f)
  | 0x0012 => handled (memRead s f)
  | 0x0013 => handled (memWriteCmd s f)
  | 0x0020 => moveTo s f .serving
  | 0x0021 => moveTo s f .draining
  | 0x0022 => stopCmd s f
  | 0x0023 => bare s f (handled (complete 0 [], resumeNow s))
  | 0x0024 => maintEnter s f
  | 0x0025 => moveTo s f .ready
  | 0x0026 => bare s f (handled (complete 0 [], s))
  | 0x0030 => handled (modeSet s f)
  | 0x0031 => bare s f (handled (modeGet s, s))
  | 0x0032 => handled (subscribe s i f)
  | 0x0040 => ruleWriteCmd s f
  | 0x0041 => ruleSwapCmd s f
  | 0x0042 => handled (flowReadCmd s f)
  | 0x0043 => flowDeleteCmd s f
  | 0x0050 => handled (runNew s x f)
  | 0x0051 => handled (slotRead s x.role f)
  | 0x0052 => slotRelease s x.role f
  | 0x0060 => handled (imageStage s f)
  | 0x0061 => modelActivate s f
  | 0x0062 => handled (firmwareStage s f)
  | 0x0063 => handled (firmwareActivate s f)
  | 0x0064 => handled (flashRead s f)
  | 0x0065 => handled (flashWrite s f)
  | 0x0066 => handled (flashErase s f)
  | 0x0070 => handled (attestQuote s i f)
  | 0x0071 => handled (auditRead s f)
  | 0x0080 => handled (counterRead s x.role f)
  | 0x0081 => handled (traceCtl s f)
  | 0x0082 => handled (scanOut s f)
  | 0x0090 => spanMember s f
  | 0x00A0 => handled (appCmd s f)
  | _ => refused s 0x0D

/-- The header fields that a command must leave 0 (R63). DEDUCED: log 28. -/
def headOk (f : CmdFrame) : Bool := f.flags == 0 && f.status == 0 && f.resv == 0

/-- The refusal that comes before WRONG_STATE (00 R30), of a command that is not legal in the device state. DEDUCED: log 27. -/
def earlyStatus (s : State) (i : Nat) (x : Session) (f : CmdFrame) : Nat :=
  match f.opcode with
  | 0x0040 => if ruleWriteOk f.body then 0x0C else 0x0D
  | 0x0043 => if flowBodyOk f.body true then 0x0C else 0x0D
  | _ =>
    match (runOpcode s i x f).1 with
    | .send c => if c.status = 0x0D ∨ c.status = 0x11 then c.status else 0x0C
    | _ => 0x0C

/-- A command executes (R68 step 6): the argument check, the state check, then its effect. DEDUCED: log 27. -/
def execute (s : State) (i : Nat) (x : Session) (f : CmdFrame) : Handled :=
  if !headOk f then refused s 0x0D
  else if (opcodeRoles f.opcode).isNone then refused s 0x0D
  else if !legalIn s.gct.dev f.opcode then refused s (earlyStatus s i x f)
  else runOpcode s i x f

/-- The command is in execution with a wait. -/
def setExec (s : State) (i : Nat) (x : Session) (f : CmdFrame) (w : ExecWait) : State :=
  let e : ExecCmd := { cmd := f, wait := w, key := x.key, role := x.role.code, slot := x.keySlot, order := s.gct.begun, waited := false }
  sessionMod s i (fun y => { y with exec := some e })

/-- A command of session `i` begins execution (R72). DEDUCED: log 26. -/
def beginCmd (s : State) (i : Nat) (f : CmdFrame) : State :=
  match sessionGet s i with
  | none => s
  | some x =>
    let s1 := setExec s i x f (.send (complete 0 []))
    let (w, s2) := execute s1 i x f
    takeFault (rewait { s2 with gct := { s2.gct with begun := s2.gct.begun + 1 } } i w)

/-! ### Checks of a command (R68–R73) -/

/-- The AUTH_FAIL completions of the last second (R73): 1.25 × 10⁹ ticks of 0.8 ns. -/
def recentFails (s : State) (l : List Nat) : List Nat := l.filter (fun t => decide (s.clock < t + 1250000000))

/-- A command beyond the limit of R73 is discarded; the first raises an audit event (19 R531). DESIGN CHOICE: log 30. -/
def suppress (s : State) (session : Nat) (muted : Bool) : State :=
  let s1 := bump s .gctAuthSuppress 0 0
  if muted then s1 else auditEvent s1 5 session []

/-- A command that fails at step 1 or 2 of R68. DESIGN CHOICE: log 30. -/
def authFail (s : State) (i : Nat) (x : Session) (f : CmdFrame) : State :=
  let l := recentFails s x.authFails
  if 1024 ≤ l.length then sessionMod (suppress s i x.muted) i (fun y => { y with authFails := l, muted := true })
  else
    let s1 := sessionMod s i (fun y => { y with authFails := l ++ [s.clock], muted := false })
    answerNow s1 f x.key x.role.code x.keySlot (.send (complete 0x10 []))

/-- An open that fails at step 1 or 2 of 19 R516: opens count as commands of session 0 (R73). DESIGN CHOICE: log 30. -/
def openFail (s : State) (f : CmdFrame) (w : ExecWait) : State :=
  let l := recentFails s s.gct.openFails
  if 1024 ≤ l.length then
    let s1 := suppress s 0 s.gct.openMuted
    { s1 with gct := { s1.gct with openFails := l, openMuted := true } }
  else answerNow { s with gct := { s.gct with openFails := l ++ [s.clock], openMuted := false } } f [] (byteAt f.body 1) (byteAt f.body 2) w

/-- SESSION_OPEN (19 R516, R518, R531). -/
def openCmd (s : State) (f : CmdFrame) : State :=
  let (c, key, s1) := sessionStart s f
  if c.status = 0x10 then openFail s1 f (.audit c) else answerNow s1 f key (byteAt f.body 1) (byteAt f.body 2) (.audit c)

/-- A duplicate (R69). DEDUCED: log 33. -/
def duplicateCmd (s : State) (x : Session) (f : CmdFrame) : State :=
  let say (c : Completion) : State := answerNow s f x.key x.role.code x.keySlot (.send { c with flags := c.flags ||| 1 })
  match x.stored.find? (fun e => e.seq == f.seq) with
  | none => say (complete 0x0D [])
  | some e =>
    if e.tag != f.tag then say (complete 0x0D [])
    else match e.done with
      | some c => say c
      | none => s

/-- The commands of a session that wait or execute (R71). DEDUCED: log 33. -/
def Session.load (x : Session) : Nat := x.held.length + (if x.exec.isSome then 1 else 0)

/-- A command reaches step 6 of R68: its number is consumed (R70), and it is refused for want of room (R71), executes, or waits. -/
def acceptCmd (s : State) (i : Nat) (x : Session) (f : CmdFrame) : State :=
  let kept := x.stored ++ [{ seq := f.seq, tag := f.tag, done := none }]
  let s1 := sessionMod s i (fun y => { y with next := y.next + 1, stored := kept.drop (kept.length - 256) })
  if 16 ≤ x.load then answerNow s1 f x.key x.role.code x.keySlot (.audit (complete 0x20 []))
  else if x.exec.isNone && x.held.isEmpty then beginCmd s1 i f
  else sessionMod s1 i (fun y => { y with held := y.held ++ [f] })

/-- The steps of R68 for a command of an open session. -/
def sessionCmd (s : State) (i : Nat) (x : Session) (f : CmdFrame) : State :=
  let say (c : Completion) : State := answerNow s f x.key x.role.code x.keySlot (.send c)
  if frameTag x.key f != f.tag || decide (f.seq + 256 < x.next) then authFail s i x f
  else if f.seq < x.next then duplicateCmd s x f
  else if !roleMay x.role f.opcode then say (complete 0x11 [])
  else if x.next < f.seq then say { status := 0x0D, flags := 2, body := [] }
  else acceptCmd s i x f

/-! ### Admission (R64, R65) -/

/-- Every command that the inbound half holds (R65). -/
def inboundCmds (s : State) : List CmdFrame :=
  s.gct.sessions.flatMap (fun e => (e.2.exec.map (fun x => x.cmd)).toList ++ e.2.held) ++ s.gct.anon.map (fun x => x.cmd)

/-- The inbound half has room for a frame (R65). -/
def inboundFits (s : State) (f : CmdFrame) : Bool :=
  decide ((inboundCmds s).foldl (fun a x => a + cellsFor (cmdFrameLen x)) 0 + cellsFor (cmdFrameLen f) ≤ 128)

/-- A frame passes framing (R64). -/
def framingOk (s : State) (f : CmdFrame) : Bool :=
  f.version == 1 && f.kind == 1 && f.length % 8 == 0 && decide (f.length ≤ 8192) && decide (f.length + 16 ≤ f.rest.length) &&
    (if f.session = 0 then f.opcode == 2 else f.opcode != 2 && (sessionGet s f.session).isSome)

/-- The requester of cells for the frames of a port. DESIGN CHOICE: log 68. -/
def sliceKey (p : PortId) : Nat := 4160 + portIndex p

/-- A command frame is written into cells of the inbound half, where it stays until it completes (R65; 06 R174–R176). -/
def admitFrame (s : State) (f : CmdFrame) : State :=
  let (cells, s1) := takeSlice s 0 128 (sliceKey f.port) (cmdFrameLen f)
  { s1 with gct := { s1.gct with inCells := s1.gct.inCells ++ [(f, cells)] } }

/-- The holdings of the inbound half that no command of the list needs any more, and the others. -/
def spentCells (held : List (CmdFrame × List Nat)) (live : List CmdFrame) : List Nat × List (CmdFrame × List Nat) :=
  match held with
  | [] => ([], [])
  | (f, cells) :: t =>
    if live.contains f then
      let r := spentCells t (live.erase f)
      (r.1, (f, cells) :: r.2)
    else
      let r := spentCells t live
      (cells ++ r.1, r.2)

/-- The cells of frames that are no commands, or whose commands have completed, return to the free lists (R65). -/
def settleSlice (s : State) : State :=
  let r := spentCells s.gct.inCells (inboundCmds s)
  freeCells { s with gct := { s.gct with inCells := r.2 } } r.1

/-- A GCT frame in the control slice passes framing and the checks of R68, or is discarded (R64). -/
def routeCmd (s : State) (f : CmdFrame) : State :=
  if !framingOk s f then bump s .gctFramingDrop 0 0
  else if f.session = 0 then openCmd s f
  else match sessionGet s f.session with
    | some x => sessionCmd s f.session x f
    | none => s

/-- A GCT frame that has reached the control slice (R64, R65, R68). No frame is received in POWERED (R82). -/
def receiveCmd (s : State) (f : CmdFrame) : State :=
  if s.gct.dev = .powered then s
  else if !inboundFits s f then bump s .gctSliceFullDrop 0 0
  else settleSlice (routeCmd (admitFrame s f) f)

/-- A GCT frame of the control slice that an uncorrectable error hits is no command: it is discarded and counted, its granule stays marked
(06 R179, R180). -/
def stompedCmd (s : State) (f : CmdFrame) : State :=
  if s.gct.dev = .powered then s
  else if !inboundFits s f then bump s .gctSliceFullDrop 0 0
  else
    let (cells, s1) := takeSlice s 0 128 (sliceKey f.port) (cmdFrameLen f)
    let s2 := match cells with
      | c :: _ => countUe (taintGranule s1 (cellAddr c / 32)) (cellAddr c / 32)
      | [] => s1
    bump (freeCells s2 cells) .hwdCtlEccDrop 0 0

/-- A command frame with an opcode. DESIGN CHOICE: log 52. -/
def frameWithOpcode (f : CmdFrame) (op : Nat) : CmdFrame := { f with opcode := op }

/-- A command frame with byte `n` of its body set, where the body has that byte. DESIGN CHOICE: log 52. -/
def frameWithByte (f : CmdFrame) (n v : Nat) : CmdFrame := if n < f.length then { f with rest := f.rest.set n (byteOf v) } else f

/-- A frame of the row of an opcode reaches the control slice. DESIGN CHOICE: log 52. -/
def receiveOp (s : State) (op : Nat) (f : CmdFrame) : State := receiveCmd s (frameWithOpcode f op)

/-- A frame of the row of an opcode and a sub-operation that a byte of the body names. -/
def receiveSub (s : State) (op n v : Nat) (f : CmdFrame) : State := receiveCmd s (frameWithByte (frameWithOpcode f op) n v)

/-- UNKNOWN_OPCODE (R75): a frame whose opcode the table does not list. -/
def unknownOpcode (s : State) (f : CmdFrame) : State := if (opcodeRoles f.opcode).isSome then s else receiveCmd s f

/-! ### Completions (R63, R66; 19 R531, R532) -/

/-- The completion frame of a command (R66). -/
def completionFrame (e : ExecCmd) (c : Completion) : Bytes :=
  let f := e.cmd
  gctEthernet f.port f.smac f.vlan f.udp (gctBytes e.key 0x02 c.flags f.session f.seq f.opcode c.status c.body)

/-- The audit record of a completed command, or its count in a summary (19 R531). -/
def recordCommand (s : State) (e : ExecCmd) (c : Completion) : State :=
  let f := e.cmd
  if summarised f.opcode then countSummary s e.role e.slot f.opcode c.status (auditPort f.port) f.session f.body
  else auditAdd s (auditRecord s 1 e.role e.slot c.status f.opcode (auditPort f.port) f.session 1 f.body)

/-- A command that needs a record of its own waits while the staging area is full (19 R532). -/
def auditBlocks (s : State) (e : ExecCmd) : Bool := !summarised e.cmd.opcode && auditFull s

/-- The completion frame leaves, or waits for its port's link; AUTH_FAIL and completions are counted (02 "GCT counters"). -/
def sendCompletion (s : State) (e : ExecCmd) (c : Completion) : State :=
  let s1 := bump (sendOut s e.cmd.port (completionFrame e c)) .gctCompletions 0 0
  if c.status = 0x10 then bump s1 .gctAuthFail 0 0 else s1

/-- The stored completion of an accepted number (R69). -/
def storeDone (s : State) (e : ExecCmd) (c : Completion) : State :=
  let f := e.cmd
  sessionMod s f.session (fun x => { x with stored := x.stored.map (fun y =>
    if y.seq == f.seq && y.tag == f.tag && y.done.isNone then { y with done := some c } else y) })

/-- The outbound half has room for the completion. -/
def completionFits (s : State) (e : ExecCmd) (c : Completion) : Bool := outRoom s [completionFrame e c]

/-- A wait for the staging area is counted once (19 R532). -/
def countAuditWait (s : State) (waited : Bool) : State := if waited then s else bump s .trsAuditWait 0 0

/-- The anonymous command can be completed now. -/
def anonReady (s : State) (e : ExecCmd) : Bool :=
  match e.wait with
  | .send c => completionFits s e c
  | .audit c => completionFits s e c && !auditBlocks s e
  | _ => false

/-- The oldest completion that is no session's command in execution leaves. -/
def sendAnon (s : State) : State :=
  match s.gct.anon.find? (anonReady s) with
  | some e =>
    let s1 := { s with gct := { s.gct with anon := s.gct.anon.erase e } }
    (match e.wait with
    | .send c => sendCompletion s1 e c
    | .audit c => storeDone (sendCompletion (recordCommand s1 e c) e c) e c
    | _ => s)
  | none =>
    let blocked (e : ExecCmd) : Bool := (match e.wait with | .audit _ => true | _ => false) && auditBlocks s e
    let s1 := (s.gct.anon.filter blocked).foldl (fun t e => countAuditWait t e.waited) s
    { s1 with gct := { s1.gct with anon := s1.gct.anon.map (fun e => if blocked e then { e with waited := true } else e) } }

/-- What follows the completion of a command of session `i` (R67, R84; 18 R507; 19 R517). -/
def afterCompletion (s : State) (i : Nat) (f : CmdFrame) (c : Completion) : State :=
  match f.opcode with
  | 0x0003 => if c.status = 0 then dropSession s i else s
  | 0x0026 =>
    if c.status ≠ 0 then s
    else if portOpens s f.port then { s with gct := { s.gct with resetDue := some s.clock } }
    else { s with gct := { s.gct with resetOut := some f.port } }
  | 0x0064 => drainAll s
  | _ => s

/-- The cells that a command frame holds in the inbound half. -/
def frameCells (s : State) (f : CmdFrame) : List Nat := ((s.gct.inCells.find? (fun e => e.1 == f)).map Prod.snd).getD []

/-- Commands that wait at the head of a session and whose frames an uncorrectable error has hit are no commands: they are discarded with no
completion (06 R180). DEDUCED: log 162. -/
def dropStomped (s : State) (i fuel : Nat) : State :=
  match fuel, sessionGet s i with
  | k + 1, some x =>
    match x.held with
    | f :: rest =>
      let s1 := readCells s (frameCells s f)
      if cellsFail s1 (frameCells s f) then
        dropStomped (bump (sessionMod s1 i (fun y => { y with held := rest })) .hwdCtlEccDrop 0 0) i k
      else s1
    | [] => s
  | _, _ => s

/-- The next command of a session begins, or the session closes (R72; 19 R517). -/
def nextCmd (s : State) (i : Nat) : State :=
  let s1 := dropStomped s i 17
  match sessionGet s1 i with
  | none => s1
  | some x =>
    if x.closing then dropSession (auditEvent s1 4 i []) i
    else match x.held with
      | f :: rest => beginCmd (sessionMod s1 i (fun y => { y with held := rest })) i f
      | [] => s1

/-- The completion of the command in execution of session `i` leaves. -/
def sendSession (s : State) (i : Nat) : State :=
  match (sessionGet s i).bind (fun x => x.exec) with
  | none => s
  | some e =>
    match e.wait with
    | .send c =>
      if !completionFits s e c then s
      else if auditBlocks s e then
        sessionMod (countAuditWait s e.waited) i (fun x => { x with exec := x.exec.map (fun y => { y with waited := true }) })
      else
        let s1 := storeDone (sendCompletion (recordCommand s e c) e c) e c
        let s2 := sessionMod s1 i (fun x => { x with exec := none, idleFrom := s.idleClock })
        nextCmd (afterCompletion s2 i e.cmd c) i
    | _ => s

/-- COMPLETION_SEND (R66): of the command in execution of a session, or, for 0, of a command that is no session's in execution.
DESIGN CHOICE: log 32. -/
def completionSend (s : State) (who : Nat) : State := settleSlice (if who = 0 then sendAnon s else sendSession s who)

/-! ### Records (R91, R92, R602; 15 R448) -/

/-- A verdict record as a session gets it: with the number of records discarded since the one before it (15 R448). DEDUCED: log 141. -/
def recordBody (r : PushRecord) (session : Nat) : Bytes :=
  if r.cls = 0 then splice r.body 30 (leBytes 2 (min (((r.lost.find? (fun e => e.1 == session)).map Prod.snd).getD 0) 65535)) else r.body

/-- The frames of a record for the subscriptions that it was numbered for and that still stand. -/
def recordOut (s : State) (r : PushRecord) : List (PortId × Bytes) :=
  r.seqs.filterMap (fun e => (subOf s r.cls e.1).map (fun u => (u.port, recordFrame s u e.2 (recordBody r e.1))))

/-- The frames of a record leave. -/
def sendRecord (s : State) (r : PushRecord) : State := (recordOut s r).foldl (fun t e => sendOut t e.1 e.2) s

/-- The record sender takes the words of a record from a queue. -/
def takeWords (s : State) (q n : Nat) : State := (queueRelease ((List.range n).foldl (fun t _ => (queueRead t q).2) s) q).2

/-- The records that still stand in a record queue: a flush or a disable may have discarded older ones. -/
def standingRecords (s : State) (cls : Nat) : List PushRecord :=
  let v := queueGet s (recordQueue s cls)
  let l := fgetD [] s.gct.recq cls
  l.drop (l.length - (v.cm - v.rd).toNat / (if cls = 0 then 4 else 1))

/-- The oldest record of a class leaves its record queue, if the outbound half has room for it (R602). -/
def sendQueued (s : State) (cls : Nat) : State :=
  match standingRecords s cls with
  | r :: rest =>
    if outRoom s ((recordOut s r).map Prod.snd) && recordQueueUsable s cls then
      let s1 := takeWords s (recordQueue s cls) ((bytesToWords r.body).length)
      sendRecord { s1 with gct := { s1.gct with recq := fsetD [] s1.gct.recq cls rest } } r
    else s
  | [] => { s with gct := { s.gct with recq := fsetD [] s.gct.recq cls [] } }

/-- RECORD_SEND (R602) of class 0 or 1. The record queues stand in a stopped partition while the islands are stopped (R79): nothing enters
or leaves them then. DEDUCED: log 48. -/
def recordSend (s : State) (cls : Nat) : State :=
  if 2 ≤ cls || s.gct.stopped then s
  else
    let s1 := retryStateEvents s (s.gct.stateWait.length + 1)
    let s2 := sendQueued s1 cls
    retryStateEvents s2 (s2.gct.stateWait.length + 1)

/-! ### Time and drain (R67, R78, R79) -/

/-- SESSION_TIMEOUT (R67, R79; 19 R531): the session has been idle for GCT_SESSION_TTL. -/
def sessionTimeout (s : State) (i : Nat) : State :=
  match sessionGet s i with
  | none => s
  | some x =>
    if s.gct.dev != .halted && x.load == 0 && decide (x.idleFrom + msTicks (regF s .gctSessionTtl 0 0 0 32) ≤ s.idleClock) then
      dropSession (auditEvent s 4 i []) i
    else s

/-- DRAIN_COMPLETE (R78): the last admitted packet has left, and every accepted RUN has its slot ready. -/
def drainComplete (s : State) : State :=
  if s.gct.dev == .draining && !s.gct.stopped && s.canopy.pkts.isEmpty && (openRuns s).isEmpty then enterState s .ready else s

/-! ### Frames on the ports (R60–R62, R65, R600; 03 R97, R601) -/

/-- An admitted frame is counted, GCT frames included (03 "Logical port counters"). -/
def countRx (s : State) (m : Nat) (b : Bytes) : State := bumpBy (bump s .prtRxFrames m 0) .prtRxBytes m 0 (b.length + 4)

/-- A GCT frame of a packet port reaches the control slice; an admitted one is counted (03 "Logical port counters"). -/
def inbandFrame (s : State) (m : Nat) (b : Bytes) (f : CmdFrame) (ecc : Bool) : State :=
  let s1 := if inboundFits s f then countRx s m b else s
  if ecc then stompedCmd s1 f else receiveCmd s1 f

/-- The cells of the packet admitted last. -/
def pktCells (s : State) : List Nat := ((fget? s.canopy.pkts (s.canopy.nextPkt - 1)).map (fun p => p.cells)).getD []

/-- The first granule of the packet admitted last is found uncorrectable (06 R179, R180). -/
def stompedData (s : State) : State :=
  match pktCells s with
  | c :: _ => countUe (taintGranule s (cellAddr c / 32)) (cellAddr c / 32)
  | [] => s

/-- FRAME_END (03 R97, R100, R601) on logical port `m`: the frame without its FCS; `ecc` says that an uncorrectable error hits it in
Heartwood (06 R180). DESIGN CHOICE: log 53, log 64. -/
def frameEnd (s : State) (m : Fin 64) (b : Bytes) (fcsOk truncated ecc : Bool) : State :=
  match rxGet s m.val with
  | none => s
  | some r =>
    let s0 := rxSet s m.val none
    if r.discarded then s0
    else match judgeRx s m r b fcsOk truncated with
      | .discard n => bump (dropReservation s0 m.val r) n m.val 0
      | .gct f => inbandFrame (dropReservation s0 m.val r) m.val b f ecc
      | .data =>
        let s1 := admitData (countRx s0 m.val b) m.val b r
        if ecc then stompedData s1 else s1

/-- COMMAND_PORT_FRAME (R600): a frame on command port `n` without its FCS; `ecc` says that an uncorrectable error of the control slice
hit it (06 R180). DESIGN CHOICE: log 53. -/
def commandPortFrame (s : State) (n : Fin 2) (b : Bytes) (fcsOk truncated ecc : Bool) : State :=
  let len := b.length + 4
  if s.gct.dev = .powered || !portOpens s (.command n) then s
  else if len < 64 || 9216 < len || isMacControl b || !fcsOk || truncated then bump s .gctCpMacDrop n.val 0
  else match recogniseGct s (.command n) b with
    | none => bump s .gctCpOther n.val 0
    | some f => if ecc then stompedCmd s f else receiveCmd s f

/-- A port whose link has come up sends what waits for it; a RESET whose completion has now left takes its delay (R84). -/
def portFlushes (s : State) (p : PortId) : State :=
  let s1 := flushOut s p
  if portOpens s1 p && s1.gct.resetOut == some p then
    { s1 with gct := { s1.gct with resetOut := none, resetDue := some s1.clock } }
  else s1

/-- COMMAND_PORT_LINK_CHANGE (R600; 02 R77: no command port works in POWERED). A frame that a loss truncates is one
COMMAND_PORT_FRAME with `truncated`. -/
def commandPortLink (s : State) (n : Fin 2) (up : Bool) : State :=
  if up && s.gct.dev == .powered then s
  else portFlushes { s with ports := { s.ports with cmdLink := setBitN s.ports.cmdLink n.val up } } (.command n)

/-- PORT_LINK_CHANGE (03 R94): the packets of the control slice that waited for the port leave. -/
def portLinkRow (s : State) (m : Fin 64) (up : Bool) : State := portFlushes (portLinkChange s m.val up) (.logical m)

end Sys2Proof.Machine
end

