-- ==== Sys2Proof/Machine/Rows.lean ====
section
/-!
DEFINITION. The last operations that the meanings of the rows share: the answer of a row, what the flash dies do under a command, a
register's lock, a Tier 3 result and a context dump.
-/

namespace Sys2Proof.Machine

/-- What a row answers. -/
abbrev Result := Host.Outcome State Fault Refusal

/-- LOCK (00 R23): a write of 1 to bit 63 of the lock register of a block, in a state in which registers may be written. -/
def lockRow (s : State) (b : Block) (inst : Nat) : State := if writeLegal s then lockBlock s b inst else s

/-- A command waits behind another of its session. -/
def commandHeld (s : State) (f : CmdFrame) : Bool := s.gct.sessions.any (fun e => e.1 == f.session && e.2.held.any (fun g => g.seq == f.seq))

/-- What the dies do under a command is set for it. DESIGN CHOICE: log 127. -/
def mediaPut (s : State) (f : CmdFrame) (m : Media) : State :=
  flashMod s (fun x => { x with media := fsetD Media.clean x.media (mediaKey f.session f.seq) m })

/-- What the dies do is forgotten where no command waits to use it. -/
def mediaDrop (s : State) (f : CmdFrame) : State :=
  if commandHeld s f then s else flashMod s (fun x => { x with media := ferase x.media (mediaKey f.session f.seq) })

/-- A frame of a command that reads or programs the flash dies reaches the control slice; `m` is what the dies do while it executes
(18 R497, R500). DESIGN CHOICE: log 127. -/
def receiveMedia (s : State) (f : CmdFrame) (m : Media) : State := mediaDrop (receiveCmd (mediaPut s f m) f) f

/-- The active Tier 3 model is sharded, and a position that it uses is VACANT: its escalations are kept (16 R477). -/
def tier3Vacant (s : State) : Bool := s.tiers.tier3.any (fun m => m.shard.any (fun c => shardVacant s c.2))

/-- The slot write of the runtime that carries a Tier 3 result ends the escalation (15 R449; 16 R477). -/
def tierResult (s : State) (i bucket slot : Nat) (result : Option (Nat × Nat)) : State :=
  match result with
  | some (cls, score) => if tier3Vacant s then s else retryPlaces (tier3Result s i bucket slot cls score)
  | none => s

/-- DUMP (21 R564): the address is written to OBS_DBG_ADDR, then the operation to OBS_DBG. -/
def dumpRow (s : State) (k h va : Nat) : State :=
  whileRunning s (debugRow (regPutF s .obsDbgAddr 0 0 12 36 (va / 4096)) k h 3)

/-- A tick of 0.8 ns passes with no command: the clock goes on, and so do the times that a stopped module does not count (02 R79).
DESIGN CHOICE: log 2. -/
def idle (s : State) : State :=
  { s with clock := s.clock + 1, idleClock := if s.gct.dev = .halted then s.idleClock else s.idleClock + 1 }

end Sys2Proof.Machine
end

