-- ==== Sys2Proof/Machine/RowsCommand.lean ====
section
/-!
DEFINITION. The meanings of the rows of GCT, its commands, completions and records (02, 15, 18, 19, 21), one per row.
-/

namespace Sys2Proof.Machine

/-- COMPLETION_SEND (R66): A completion frame is built in the outbound half of the control slice once room exists and leaves on the port
of arrival. The session whose command in execution completes; 0 for a command that is no session's in execution. -/
def execCompletionSend (session : Nat) (s : State) : Result :=
  .next (completionSend s session)

/-- RECORD_SEND (R602): The GCT record sender takes a record from its record queue and sends it as a RECORD frame to every subscription of
its class. -/
def execRecordSend (cls : Fin 2) (s : State) : Result :=
  .next (recordSend s cls.val)

/-- NOP (R75): The command completes DONE and keeps the session alive. -/
def execNop (f : CmdFrame) (s : State) : Result :=
  .next (receiveOp s 0x0001 f)

/-- SESSION_OPEN (R516): An open authenticates the role key and counter, derives the session key and assigns a session ID. -/
def execSessionOpen (f : CmdFrame) (s : State) : Result :=
  .next (receiveSub s 0x0002 0 1 f)

/-- SESSION_CLAIM (R518): A claim decapsulates the ML-KEM ciphertext, stores the installer root and opens an installer session. -/
def execSessionClaim (f : CmdFrame) (s : State) : Result :=
  .next (receiveSub s 0x0002 0 2 f)

/-- SESSION_CLOSE (R517): The command closes the session after its completion is sent, failing held commands with WRONG_STATE. -/
def execSessionClose (f : CmdFrame) (s : State) : Result :=
  .next (receiveOp s 0x0003 f)

/-- SESSION_TIMEOUT (R67): A session idle for GCT_SESSION_TTL with no held command closes. -/
def execSessionTimeout (session : Nat) (s : State) : Result :=
  .next (sessionTimeout s session)

/-- STATE_GET (R75): The command returns GCT_STATE. -/
def execStateGet (f : CmdFrame) (s : State) : Result :=
  .next (receiveOp s 0x0004 f)

/-- REG_READ (R76): The command reads 1–64 consecutive registers, each from one cycle of its island. -/
def execRegRead (f : CmdFrame) (s : State) : Result :=
  .next (receiveOp s 0x0010 f)

/-- REG_WRITE (R76): The command writes 1–64 registers in ascending order, stopping at the first refused under R23, R24 or R599. -/
def execRegWrite (f : CmdFrame) (s : State) : Result :=
  .next (receiveOp s 0x0011 f)

/-- LOCK (R23): Writing 1 to a block's LOCK bit makes every RWL field of the block read-only until module reset. The block and, where it
has several, the instance. -/
def execLock (block : Block) (inst : Nat) (s : State) : Result :=
  .next (lockRow s block inst)

/-- MEM_READ (R407): The command translates the whole range in a context's space and returns its bytes, or fails with a fault or poison
status. -/
def execMemRead (f : CmdFrame) (s : State) : Result :=
  .next (receiveOp s 0x0012 f)

/-- MEM_WRITE (R407): The command translates the whole range and writes the data into the context's memory. -/
def execMemWrite (f : CmdFrame) (s : State) : Result :=
  .next (receiveOp s 0x0013 f)

/-- START (R78): The command moves the module from READY to SERVING. -/
def execStart (f : CmdFrame) (s : State) : Result :=
  .next (receiveOp s 0x0020 f)

/-- DRAIN (R84): The command moves the module from SERVING to DRAINING. -/
def execDrain (f : CmdFrame) (s : State) : Result :=
  .next (receiveOp s 0x0021 f)

/-- DRAIN_COMPLETE (R78): When the last admitted packet has left and every accepted RUN has its slot ready, the module enters READY. -/
def execDrainComplete (s : State) : Result :=
  .next (drainComplete s)

/-- STOP (R84): The command requests a global stop and completes when the cut is complete. -/
def execStop (f : CmdFrame) (s : State) : Result :=
  .next (receiveOp s 0x0022 f)

/-- RESUME (R568): The command applies pending releases, advances hold deadlines and restarts every stopped island from its cut. -/
def execResume (f : CmdFrame) (s : State) : Result :=
  .next (receiveOp s 0x0023 f)

/-- MAINT_ENTER (R78): The command moves the module from READY or FAULTED to MAINTENANCE. -/
def execMaintEnter (f : CmdFrame) (s : State) : Result :=
  .next (receiveOp s 0x0024 f)

/-- MAINT_EXIT (R78): The command moves the module from MAINTENANCE to READY. -/
def execMaintExit (f : CmdFrame) (s : State) : Result :=
  .next (receiveOp s 0x0025 f)

/-- RESET (R84): The command completes DONE and module reset begins 10 μs after its completion has left. -/
def execReset (f : CmdFrame) (s : State) : Result :=
  .next (receiveOp s 0x0026 f)

/-- MODULE_RESET (R588): On RESET_N low, a RESET command or loss of power-good every island is reset, sessions close and the boot sequence
restarts. -/
def execModuleReset (cause : ResetCause) (s : State) : Result :=
  .next (moduleResetRow s cause)

/-- MODE_SET (R432): The command validates all mode items and then applies each under R58 at its effect point. -/
def execModeSet (f : CmdFrame) (s : State) : Result :=
  .next (receiveOp s 0x0030 f)

/-- MODE_TAKES_EFFECT (R56): A pending mode change reaches its effect point and takes effect. The MODE code. -/
def execModeTakesEffect (mode : Nat) (s : State) : Result :=
  .next (modeTakesEffect s mode)

/-- MODE_GET (R75): The command returns the current modes and any pending change. -/
def execModeGet (f : CmdFrame) (s : State) : Result :=
  .next (receiveOp s 0x0031 f)

/-- SUBSCRIBE (R91): The command registers or replaces the session's subscription to a record class. -/
def execSubscribe (f : CmdFrame) (s : State) : Result :=
  .next (receiveOp s 0x0032 f)

/-- RULE_WRITE_DEFINE (R147): The item defines a table in the standby bank, reserving SIZE entries from its kind's pool. -/
def execRuleDefine (f : CmdFrame) (s : State) : Result :=
  .next (receiveSub s 0x0040 1 1 f)

/-- RULE_WRITE_INSERT (R147): The items add or replace entries of a standby-bank table. -/
def execRuleInsert (f : CmdFrame) (s : State) : Result :=
  .next (receiveSub s 0x0040 1 2 f)

/-- RULE_WRITE_DELETE (R147): The items remove entries by match part from a standby-bank table. -/
def execRuleDelete (f : CmdFrame) (s : State) : Result :=
  .next (receiveSub s 0x0040 1 3 f)

/-- RULE_WRITE_SET_DEFAULT (R147): The item replaces a standby-bank table's default action. -/
def execRuleSetDefault (f : CmdFrame) (s : State) : Result :=
  .next (receiveSub s 0x0040 1 4 f)

/-- RULE_WRITE_UNDEFINE (R147): The operation removes a standby-bank table and returns its entries to the pool. -/
def execRuleUndefine (f : CmdFrame) (s : State) : Result :=
  .next (receiveSub s 0x0040 1 5 f)

/-- RULE_SWAP (R145): The command inverts the ACTIVE bits of the masked tables at one swap point, after any RULE_WRITE in execution on
them. -/
def execRuleSwap (f : CmdFrame) (s : State) : Result :=
  .next (receiveOp s 0x0041 f)

/-- FLOW_READ (R167): The command returns a flow entry by key or a whole bucket, sampled in one bucket operation. -/
def execFlowRead (f : CmdFrame) (s : State) : Result :=
  .next (receiveOp s 0x0042 f)

/-- FLOW_DELETE (R168): The command waits for unlocked buckets, removes the key, rewrites the digest and writes a DELETED record. -/
def execFlowDelete (f : CmdFrame) (s : State) : Result :=
  .next (receiveOp s 0x0043 f)

/-- RUN (R86): The command allocates a result slot, places the named context and returns the slot handle. -/
def execRun (f : CmdFrame) (s : State) : Result :=
  .next (receiveOp s 0x0050 f)

/-- SLOT_READ (R87): The command samples a result slot once and returns its status and inline data, NOT_READY or STALE. -/
def execSlotRead (f : CmdFrame) (s : State) : Result :=
  .next (receiveOp s 0x0051 f)

/-- SLOT_RELEASE (R89): The command frees a ready slot, cancels an unfinished run, or in HALTED records a pending release. -/
def execSlotRelease (f : CmdFrame) (s : State) : Result :=
  .next (receiveOp s 0x0052 f)

/-- CANCEL_COMPLETE (R246): A cancelled run's context has stopped, its state is discarded and the SLOT_RELEASE completes. -/
def execCancelComplete (slot : Fin 4096) (s : State) : Result :=
  .next (cancelComplete s slot.val)

/-- SLOT_TTL_EXPIRY (R90): A ready slot unreleased for GCT_SLOT_TTL is released by the module. -/
def execSlotTtlExpiry (slot : Fin 4096) (s : State) : Result :=
  .next (slotTtlExpiry s slot.val)

/-- UNKNOWN_OPCODE (R75): An opcode the table does not list consumes its number and completes with BAD_ARGS. -/
def execUnknownOpcode (f : CmdFrame) (s : State) : Result :=
  .next (unknownOpcode s f)

/-- IMAGE_STAGE_BEGIN (R524): BEGIN reserves LIBRARY space for a new image stage, discarding an earlier incomplete stage of the ID. -/
def execImageBegin (f : CmdFrame) (s : State) : Result :=
  .next (receiveSub s 0x0060 0 1 f)

/-- IMAGE_STAGE_DATA (R524): DATA appends bytes at the expected offset to the image stage and completes when durable. What the flash dies
do while the command runs. -/
def execImageData (f : CmdFrame) (media : Media) (s : State) : Result :=
  .next (receiveMedia s (frameWithByte (frameWithOpcode f 0x0060) 0 2) media)

/-- IMAGE_STAGE_FINISH (R524): FINISH checks completeness and verifies the image, making it complete or erasing the stage. -/
def execImageFinish (f : CmdFrame) (s : State) : Result :=
  .next (receiveSub s 0x0060 0 3 f)

/-- IMAGE_STAGE_DELETE (R524): DELETE erases the complete image and any incomplete stage of an ID not in use. -/
def execImageDelete (f : CmdFrame) (s : State) : Result :=
  .next (receiveSub s 0x0060 0 4 f)

/-- MODEL_ACTIVATE_GROVE (R211): Target 1 verifies the image and loads an ensemble into a Grove slot or refuses with NODE_CAPACITY. -/
def execActivateGrove (f : CmdFrame) (s : State) : Result :=
  .next (receiveSub s 0x0061 4 1 f)

/-- MODEL_ACTIVATE_TIER2 (R454): Target 2 verifies the image and switches the pipelines' Tier 2 set at one switch point. -/
def execActivateTier2 (f : CmdFrame) (s : State) : Result :=
  .next (receiveSub s 0x0061 4 2 f)

/-- MODEL_ACTIVATE_TIER3 (R453): Target 3 verifies the image and places the Tier 3 model between escalations. -/
def execActivateTier3 (f : CmdFrame) (s : State) : Result :=
  .next (receiveSub s 0x0061 4 3 f)

/-- MODEL_ACTIVATE_UNLOAD (R212): Target 4 unloads a Grove slot, marking it draining until no packet that sampled it remains. -/
def execActivateUnload (f : CmdFrame) (s : State) : Result :=
  .next (receiveSub s 0x0061 4 4 f)

/-- UNLOAD_COMPLETE (R212): When no packet that sampled a draining slot remains in Grove, its space is freed and the unload completes. -/
def execUnloadComplete (slot : Fin 16) (s : State) : Result :=
  .next (whileRunning s (unloadComplete s slot.val))

/-- GATE_RELEASE (R454): A new-set token queue is ungated once its old-set queue has no unreleased committed words. The queue by its
number in the active set. -/
def execGateRelease (pipe : Fin 8) (queue : Fin 1024) (s : State) : Result :=
  .next (whileRunning s (gateRelease s pipe.val queue.val))

/-- FIRMWARE_STAGE_BEGIN (R524): BEGIN discards a non-running firmware slot and starts a stage of the announced size. -/
def execFirmwareBegin (f : CmdFrame) (s : State) : Result :=
  .next (receiveSub s 0x0062 0 1 f)

/-- FIRMWARE_STAGE_DATA (R524): DATA appends bytes to the firmware stage at the expected offset. What the flash dies do while the command
runs. -/
def execFirmwareData (f : CmdFrame) (media : Media) (s : State) : Result :=
  .next (receiveMedia s (frameWithByte (frameWithOpcode f 0x0062) 0 2) media)

/-- FIRMWARE_STAGE_FINISH (R524): FINISH checks and verifies the staged firmware slot. -/
def execFirmwareFinish (f : CmdFrame) (s : State) : Result :=
  .next (receiveSub s 0x0062 0 3 f)

/-- FIRMWARE_ACTIVATE (R525): The command verifies a slot and writes the boot slot and optionally MIN_SVN as one secure-store item. -/
def execFirmwareActivate (f : CmdFrame) (s : State) : Result :=
  .next (receiveOp s 0x0063 f)

/-- FLASH_READ (R510): The command returns 4 or 8 KiB from a readable partition, or POISONED on an uncorrectable sector. What the flash
dies do while the command runs. -/
def execFlashRead (f : CmdFrame) (media : Media) (s : State) : Result :=
  .next (receiveMedia s (frameWithOpcode f 0x0064) media)

/-- FLASH_WRITE (R510): The command writes one SNAPSHOT sector out of place and completes when it is durable. What the flash dies do while
the command runs. -/
def execFlashWrite (f : CmdFrame) (media : Media) (s : State) : Result :=
  .next (receiveMedia s (frameWithOpcode f 0x0065) media)

/-- FLASH_ERASE (R510): The command discards a SNAPSHOT range or resets the CAPTURE ring. -/
def execFlashErase (f : CmdFrame) (s : State) : Result :=
  .next (receiveOp s 0x0066 f)

/-- ATTEST_QUOTE (R530): The command builds a signed quote for the session or returns one part of it. -/
def execAttestQuote (f : CmdFrame) (s : State) : Result :=
  .next (receiveOp s 0x0070 f)

/-- AUDIT_READ (R533): The command returns a range of audit records with the chain value before the first. -/
def execAuditRead (f : CmdFrame) (s : State) : Result :=
  .next (receiveOp s 0x0071 f)

/-- COUNTER_READ (R551): The command samples and returns always-on, global or per-context observation counters. -/
def execCounterRead (f : CmdFrame) (s : State) : Result :=
  .next (receiveOp s 0x0080 f)

/-- TRACE_CTL_ENABLE (R563): ENABLE sets trace sources and destination and restarts RSEQ. -/
def execTraceEnable (f : CmdFrame) (s : State) : Result :=
  .next (receiveSub s 0x0081 0 1 f)

/-- TRACE_CTL_DISABLE (R563): DISABLE stops trace generation and sends the records already held. -/
def execTraceDisable (f : CmdFrame) (s : State) : Result :=
  .next (receiveSub s 0x0081 0 2 f)

/-- TRACE_CTL_MARKER (R563): MARKER generates a marker trace record carrying the host value when markers are enabled. -/
def execTraceMarker (f : CmdFrame) (s : State) : Result :=
  .next (receiveSub s 0x0081 0 3 f)

/-- SCAN_OUT (R569): The command returns bytes of a scan space's image at the cut, in HALTED only. -/
def execScanOut (f : CmdFrame) (s : State) : Result :=
  .next (receiveOp s 0x0082 f)

/-- SPAN_MEMBER_ATTACH (R478): ATTACH sets the group and module IDs and link map and trains the enabled links. -/
def execSpanAttach (f : CmdFrame) (s : State) : Result :=
  .next (receiveSub s 0x0090 0 1 f)

/-- SPAN_MEMBER_EPOCH (R478): EPOCH runs the membership protocol for a new mesh and map and completes at COMMIT or ABORT. -/
def execSpanEpoch (f : CmdFrame) (s : State) : Result :=
  .next (receiveSub s 0x0090 0 2 f)

/-- SPAN_MEMBER_DETACH (R478): DETACH clears SPN_ID and stops training. -/
def execSpanDetach (f : CmdFrame) (s : State) : Result :=
  .next (receiveSub s 0x0090 0 3 f)

/-- SPAN_MEMBER_QUERY (R478): QUERY returns the Span identity, epoch, mesh, status and map. -/
def execSpanQuery (f : CmdFrame) (s : State) : Result :=
  .next (receiveSub s 0x0090 0 4 f)

/-- APP_LOAD (R491): The command verifies and loads an application into a slot on Crown cores. -/
def execAppLoad (f : CmdFrame) (s : State) : Result :=
  .next (receiveSub s 0x00A0 0 1 f)

/-- APP_UNLOAD (R491): The command unloads an application, freeing its memory and contexts. -/
def execAppUnload (f : CmdFrame) (s : State) : Result :=
  .next (receiveSub s 0x00A0 0 2 f)

end Sys2Proof.Machine
end

