-- ==== Sys2Proof/Machine/RowsContext.lean ====
section
/-!
DEFINITION. The meanings of the rows of hardware contexts, frames and translation (08, 13), one per row.
-/

namespace Sys2Proof.Machine

/-- RUN_AHEAD_ENTRY (R233): A context waiting 8 cycles on a remote load or transfer enters run-ahead in shadow registers. How many younger
bundles run-ahead executes. -/
def execRunAheadEntry (core : Fin 1280) (hc : Fin 8) (bundles : Nat) (s : State) : Result :=
  .next (runAheadEntry s core.val hc.val bundles)

/-- RUN_AHEAD_EXIT (R234): Run-ahead ends when the awaited value arrives, discarding shadow registers. -/
def execRunAheadExit (core : Fin 1280) (hc : Fin 8) (s : State) : Result :=
  .next (whileRunning s (runAheadExit s core.val hc.val))

/-- QUANTUM_EXPIRY (R237): A resident context reaching its quantum with a runnable frame and a free frame is chosen for preemption. A
context that waits and is chosen in place of one that issued for its quantum. -/
def execQuantumExpiry (core : Fin 1280) (waiter : Option (Fin 8)) (s : State) : Result :=
  .next (quantumExpiry s core.val (waiter.map Fin.val))

/-- PREEMPTION_COMPLETE (R238): The preempted context's state is written to a frame which becomes runnable. How many units each transfer
still runs before it stops. -/
def execPreemptionComplete (core : Fin 1280) (hc : Fin 8) (units : List Nat) (s : State) : Result :=
  .next (preemptionComplete s core.val hc.val units)

/-- RESTORE (R404): A runnable frame is read into a free hardware context, reloading stationary operands and resuming or failing its
targets. What reading descriptor tables of Span peers gives, for transfers that read them again. -/
def execRestore (core : Fin 1280) (tables : List PeerTable) (s : State) : Result :=
  .next (restoreRow s core.val tables)

/-- RING_SCRUB (R226): The Ring store scrub reads every granule once per period. The granules upset since the last row, with an error that
the code corrects or only detects. -/
def execRingScrub (core : Fin 1280) (ce : List Nat) (ue : List Nat) (s : State) : Result :=
  .next (ringScrub s core.val ce ue)

/-- PLACE (R241): The frame command starts a context from a frame in a free hardware context or leaves it runnable. The frame image and
the stores of the runtime before it, the counter set it binds, the context when it creates it, and what reading descriptor tables of Span
peers gives. -/
def execPlace (core : Fin 1280) (frame : Fin 6) (image : Bytes) (stores : List (Nat × Bytes)) (set : Option (Fin 32)) (born : Option
    NewContext) (tables : List PeerTable) (s : State) : Result :=
  .next (whileCrown s (placeRow s core.val frame.val image stores (set.map Fin.val) born tables))

/-- EXPORT (R241): The frame command keeps a saved frame from restore and reports EXPORTED. -/
def execExportFrame (core : Fin 1280) (frame : Fin 6) (s : State) : Result :=
  .next (whileCrown s (exportRow s core.val frame.val))

/-- FREE (R241): The frame command frees an EXPORTED frame. -/
def execFreeFrame (core : Fin 1280) (frame : Fin 6) (s : State) : Result :=
  .next (whileCrown s (freeRow s core.val frame.val))

/-- EVAC_DONE (R242): Writing FCT_EVAC.DONE ends the evacuation and makes the core's Ring store unreachable. BASE, and whether DONE is
written. -/
def execEvacDone (core : Fin 1280) (base : Nat) (done : Bool) (s : State) : Result :=
  .next (whileCrown s (evacRow s core.val base done))

/-- FAULT_RING_RD (R400): Advancing XLT_FRING.RD frees ring positions so waiting faults write their records. -/
def execFaultRingRd (core : Fin 1280) (rd : Nat) (s : State) : Result :=
  .next (whileCrown s (faultRingRd s core.val rd))

/-- RETRY (R402): The resolve action retranslates the suspended target holding the FSEQ. The stores of the runtime before it, and what
reading the descriptor table of a Span peer gives. -/
def execRetry (core : Fin 1280) (fseq : Nat) (stores : List (Nat × Bytes)) (table : PeerTable) (s : State) : Result :=
  .next (whileCrown s (resolveRetry s core.val fseq stores table))

/-- REFUSE_XLATE (R402): The resolve action ends the suspended target with status 0x30. -/
def execRefuseXlate (core : Fin 1280) (fseq : Nat) (s : State) : Result :=
  .next (whileCrown s (resolveFault s core.val fseq 2 PeerTable.empty))

/-- REFUSE_PROT (R402): The resolve action ends the suspended target with status 0x31. -/
def execRefuseProt (core : Fin 1280) (fseq : Nat) (s : State) : Result :=
  .next (whileCrown s (resolveFault s core.val fseq 3 PeerTable.empty))

/-- INVAL_ADDRESS (R398): An XLT_INVAL of scope 0 discards cached translations covering one address of a context. The stores of the
runtime to its tables before it. -/
def execInvalAddress (ctx : Nat) (va : Nat) (stores : List (Nat × Bytes)) (s : State) : Result :=
  .next (whileCrown s (xltInvalidate (runtimeStores s stores) (.address ctx va)))

/-- INVAL_CONTEXT (R398): An XLT_INVAL of scope 1 discards every cached translation of a context. The stores of the runtime to its tables
before it, and the context when it creates it. -/
def execInvalContext (ctx : Nat) (stores : List (Nat × Bytes)) (born : Option NewContext) (s : State) : Result :=
  .next (whileCrown s (xltInvalidate (createContext (runtimeStores s stores) ctx born) (.context ctx)))

/-- INVAL_ALL (R398): An XLT_INVAL of scope 2 discards every cached translation. The stores of the runtime to its tables before it. -/
def execInvalAll (stores : List (Nat × Bytes)) (s : State) : Result :=
  .next (whileCrown s (xltInvalidate (runtimeStores s stores) .all))

/-- INVALIDATION_COMPLETE (R398): When all units have discarded, restarted walks and drained accesses, XLT_INVAL.BUSY clears. -/
def execInvalidationComplete (s : State) : Result :=
  .next (whileRunning s (invalidationComplete s))

end Sys2Proof.Machine
end

