-- ==== Sys2Proof/Machine/RowsControl.lean ====
section
/-!
DEFINITION. The meanings of the rows of the control slot and the claim (09, 10), one per row.
-/

namespace Sys2Proof.Machine

/-- BR (R282): The control instruction branches relative to PC when its condition holds. -/
def execWBr (core : Fin 1280) (hc : Fin 8) (s : State) : Result :=
  .next (issueRow s core.val hc.val (.c .br) PeerTable.empty)

/-- JR (R282): The control instruction jumps to a register target. -/
def execWJr (core : Fin 1280) (hc : Fin 8) (s : State) : Result :=
  .next (issueRow s core.val hc.val (.c .jr) PeerTable.empty)

/-- CALL (R282): The control instruction links and branches. -/
def execWCall (core : Fin 1280) (hc : Fin 8) (s : State) : Result :=
  .next (issueRow s core.val hc.val (.c .call) PeerTable.empty)

/-- CALLR (R282): The control instruction links and jumps to a register target. -/
def execWCallr (core : Fin 1280) (hc : Fin 8) (s : State) : Result :=
  .next (issueRow s core.val hc.val (.c .callr) PeerTable.empty)

/-- LOOP (R283): The control instruction decrements a counter and branches while nonzero. -/
def execWLoop (core : Fin 1280) (hc : Fin 8) (s : State) : Result :=
  .next (issueRow s core.val hc.val (.c .loop) PeerTable.empty)

/-- EXIT (R245): The instruction ends the context, releases the claim, copies the inline result and makes the slot ready. -/
def execWExit (core : Fin 1280) (hc : Fin 8) (s : State) : Result :=
  .next (issueRow s core.val hc.val (.c .exit) PeerTable.empty)

/-- TRAP (R284): The instruction raises TRAP with its immediate in the record. -/
def execWTrap (core : Fin 1280) (hc : Fin 8) (s : State) : Result :=
  .next (issueRow s core.val hc.val (.c .trap) PeerTable.empty)

/-- BREAK (R251): The instruction raises BREAK, a debug stop when FCT_CTL.DEBUG is set. -/
def execWBreak (core : Fin 1280) (hc : Fin 8) (s : State) : Result :=
  .next (issueRow s core.val hc.val (.c .brk) PeerTable.empty)

/-- FENCE (R285): The instruction completes earlier loads and makes earlier stores visible. -/
def execWFence (core : Fin 1280) (hc : Fin 8) (s : State) : Result :=
  .next (issueRow s core.val hc.val (.c .fence) PeerTable.empty)

/-- IFENCE (R286): The instruction acts as FENCE and discards the context's bundle-cache lines. -/
def execWIfence (core : Fin 1280) (hc : Fin 8) (s : State) : Result :=
  .next (issueRow s core.val hc.val (.c .ifence) PeerTable.empty)

/-- CRD (R287): The instruction reads a c register, clearing c9 when read. -/
def execWCrd (core : Fin 1280) (hc : Fin 8) (s : State) : Result :=
  .next (issueRow s core.val hc.val (.c .crd) PeerTable.empty)

/-- CWR (R287): The instruction writes c2 or c3. -/
def execWCwr (core : Fin 1280) (hc : Fin 8) (s : State) : Result :=
  .next (issueRow s core.val hc.val (.c .cwr) PeerTable.empty)

/-- SETTAG (R289): The instruction sets the layer and operator tags. -/
def execWSettag (core : Fin 1280) (hc : Fin 8) (s : State) : Result :=
  .next (issueRow s core.val hc.val (.c .settag) PeerTable.empty)

/-- CLAIM (R288): The instruction requests the Lattice pair and waits until granted. -/
def execWClaim (core : Fin 1280) (hc : Fin 8) (s : State) : Result :=
  .next (issueRow s core.val hc.val (.c .claim) PeerTable.empty)

/-- RELEASE (R288): The instruction waits for matrix work and gives up the Lattice pair. -/
def execWRelease (core : Fin 1280) (hc : Fin 8) (s : State) : Result :=
  .next (issueRow s core.val hc.val (.c .release) PeerTable.empty)

/-- CLAIM_GRANT (R321): At a scheduling boundary the core grants the free pair to the claim chosen by the compute scheduling mode. -/
def execClaimGrant (core : Fin 1280) (s : State) : Result :=
  .next (claimGrant s core.val)

/-- QSEL (R290): The instruction sets a queue descriptor. -/
def execWQsel (core : Fin 1280) (hc : Fin 8) (s : State) : Result :=
  .next (issueRow s core.val hc.val (.c .qsel) PeerTable.empty)

/-- QOPEN (R293): The instruction opens a producer packet under WAIT or DISCARD. -/
def execWQopen (core : Fin 1280) (hc : Fin 8) (s : State) : Result :=
  .next (issueRow s core.val hc.val (.c .qopen) PeerTable.empty)

/-- QPUSH (R293): The instruction pushes one word. -/
def execWQpush (core : Fin 1280) (hc : Fin 8) (s : State) : Result :=
  .next (issueRow s core.val hc.val (.c .qpush) PeerTable.empty)

/-- QPUSHV (R293): The instruction pushes up to eight words from a vector register. -/
def execWQpushv (core : Fin 1280) (hc : Fin 8) (s : State) : Result :=
  .next (issueRow s core.val hc.val (.c .qpushv) PeerTable.empty)

/-- QCOMMIT (R293): The instruction commits the open packet. -/
def execWQcommit (core : Fin 1280) (hc : Fin 8) (s : State) : Result :=
  .next (issueRow s core.val hc.val (.c .qcommit) PeerTable.empty)

/-- QABORT (R293): The instruction aborts the open packet. -/
def execWQabort (core : Fin 1280) (hc : Fin 8) (s : State) : Result :=
  .next (issueRow s core.val hc.val (.c .qabort) PeerTable.empty)

/-- QREAD (R295): The instruction reads one queue word, optionally waiting while empty. -/
def execWQread (core : Fin 1280) (hc : Fin 8) (s : State) : Result :=
  .next (issueRow s core.val hc.val (.c .qread) PeerTable.empty)

/-- QREADV (R295): The instruction reads up to eight words into a vector register. -/
def execWQreadv (core : Fin 1280) (hc : Fin 8) (s : State) : Result :=
  .next (issueRow s core.val hc.val (.c .qreadv) PeerTable.empty)

/-- QMARK (R295): The instruction sets the consumer mark. -/
def execWQmark (core : Fin 1280) (hc : Fin 8) (s : State) : Result :=
  .next (issueRow s core.val hc.val (.c .qmark) PeerTable.empty)

/-- QREWIND (R295): The instruction rewinds the consumer to the mark. -/
def execWQrewind (core : Fin 1280) (hc : Fin 8) (s : State) : Result :=
  .next (issueRow s core.val hc.val (.c .qrewind) PeerTable.empty)

/-- QRELEASE (R295): The instruction releases read words at a packet boundary. -/
def execWQrelease (core : Fin 1280) (hc : Fin 8) (s : State) : Result :=
  .next (issueRow s core.val hc.val (.c .qrelease) PeerTable.empty)

end Sys2Proof.Machine
end

