-- ==== Sys2Proof/Machine/RowsFlow.lean ====
section
/-!
DEFINITION. The meanings of the rows of flow DMA, aging, the Grove and Tending (05, 07, 15), one per row.
-/

namespace Sys2Proof.Machine

/-- LOCK_READ (R162): The flow DMA operation locks two unlocked buckets under a new token and returns them, or returns BUSY. -/
def execLockRead (crown : Fin 16) (pipe : Fin 8) (bucket1 : Fin 2097152) (bucket2 : Fin 2097152) (s : State) : Result :=
  .next (whileCrown s (takeFault (lockRead s crown.val pipe.val bucket1.val bucket2.val)))

/-- FLOW_DMA_READ (R162): The flow DMA operation returns a bucket without locking. -/
def execFlowDmaRead (crown : Fin 16) (pipe : Fin 8) (bucket : Fin 2097152) (s : State) : Result :=
  .next (whileCrown s (takeFault (dmaRead s crown.val pipe.val bucket.val)))

/-- WRITE_SLOT (R162): The flow DMA operation writes a slot's key, state and CTX under a valid token. Bytes 0–47 and 56–63 of the slot,
and the CLASS and SCORE of a Tier 3 result that the write carries (15 R449). -/
def execWriteSlot (crown : Fin 16) (pipe : Fin 8) (bucket : Fin 2097152) (slot : Fin 4) (token : Nat) (low : Bytes) (high : Bytes) (result
    : Option (Nat × Nat)) (s : State) : Result :=
  .next (whileCrown s (takeFault (writeSlot (tierResult s pipe.val bucket.val slot.val result) crown.val pipe.val bucket.val slot.val
    token low high)))

/-- PUBLISH (R162): The flow DMA operation makes an invalid slot valid, incrementing GEN and setting LAST_HIT. -/
def execPublish (crown : Fin 16) (pipe : Fin 8) (bucket : Fin 2097152) (slot : Fin 4) (token : Nat) (s : State) : Result :=
  .next (whileCrown s (takeFault (publish s crown.val pipe.val bucket.val slot.val token)))

/-- INVALIDATE (R162): The flow DMA operation invalidates a valid slot and increments GEN. -/
def execInvalidate (crown : Fin 16) (pipe : Fin 8) (bucket : Fin 2097152) (slot : Fin 4) (token : Nat) (s : State) : Result :=
  .next (whileCrown s (takeFault (invalidate s crown.val pipe.val bucket.val slot.val token)))

/-- UNLOCK (R162): The flow DMA operation writes shadow digests, clears the locks and removes the buckets from the error list. -/
def execUnlock (crown : Fin 16) (pipe : Fin 8) (bucket1 : Fin 2097152) (bucket2 : Fin 2097152) (token : Nat) (digest1 : Nat) (digest2 :
    Nat) (s : State) : Result :=
  .next (whileCrown s (takeFault (retryDeletes (unlock s crown.val pipe.val bucket1.val bucket2.val token digest1 digest2))))

/-- LEASE_EXPIRY (R163): A bucket lock not unlocked within LEASE_US is cleared, its token invalidated and FLW_LOCK_EXPIRED counted. -/
def execLeaseExpiry (pipe : Fin 8) (s : State) : Result :=
  .next (whileRunning s (takeFault (retryDeletes (leaseExpiry s pipe.val))))

/-- AGING_VISIT (R165): The aging scan visits a bucket and removes each idle slot, rewriting the digest and writing AGED records. -/
def execAgingVisit (pipe : Fin 8) (bucket : Fin 2097152) (s : State) : Result :=
  .next (whileRunning s (takeFault (agingVisit s pipe.val bucket.val)))

/-- SHADOW_COMPARE (R170): The scrub walk compares each unlocked bucket's digest with its shadow and raises MISMATCH on a difference. -/
def execShadowCompare (pipe : Fin 8) (bucket : Fin 2097152) (s : State) : Result :=
  .next (whileRunning s (takeFault (shadowCompare s pipe.val bucket.val)))

/-- ROUTE_WRITE (R216): A write to GRV_ROUTE_r is validated against loaded slots and features and applies from the next packet. The value
written. -/
def execRouteWrite (route : Fin 16) (v : Nat) (s : State) : Result :=
  .next (routeWriteRow s route.val v)

/-- GROVE_SCRUB (R215): The Grove scrub reads every node, directory entry and side-set word once per period in idle lane cycles. The words
(slice × 2¹⁸ + word) in which the reads of this period meet a new error, corrected or uncorrectable. -/
def execGroveScrub (ce : List Nat) (ue : List Nat) (s : State) : Result :=
  .next (whileRunning s (groveScrub s ce ue))

/-- WRITE_LEAF (R459): The leaf port writes the inactive value of a Grove leaf. The node by partition and offset, and the value. -/
def execWriteLeaf (slot : Fin 16) (part : Fin 16) (off : Nat) (v : Nat) (s : State) : Result :=
  .next (whileCrown s (writeLeaf s slot.val part.val off v))

/-- WRITE_WORD (R459): The leaf port rewrites a node, directory or side-set word from the staged image. The word offset and the value. -/
def execWriteWord (slice : Fin 16) (off : Nat) (v : Nat) (s : State) : Result :=
  .next (whileCrown s (writeWord s slice.val off v))

/-- ARM (R458): Writing SQ_TEND_CTL.ARM schedules a Tending boundary at SQ_TEND_AT, or is refused and counted when the stamp has passed.
AT, GRV_FLIP and T2_FLIP. -/
def execArm (stamp : Nat) (flips : Nat) (t2 : Bool) (s : State) : Result :=
  .next (whileCrown s (armRow s stamp flips t2))

/-- TEND_READY (R458): Setting SQ_TEND_CTL.READY declares the inactive phase complete so that held packets may proceed. -/
def execTendReady (s : State) : Result :=
  .next (whileCrown s (tendReady s))

/-- TENDING_BOUNDARY (R458): At the armed stamp the leaf and Tier 2 phases flip for newer packets and READY is cleared. -/
def execTendingBoundary (s : State) : Result :=
  .next (whileRunning s (tendBoundary s))

/-- WATERMARK (R457): Every 1 μs each dispatcher pushes a watermark word into its Tending queue. -/
def execWatermark (pipe : Fin 8) (s : State) : Result :=
  .next (whileRunning s (watermark s pipe.val))

end Sys2Proof.Machine
end

