-- ==== Sys2Proof/Machine/RowsMatrix.lean ====
section
/-!
DEFINITION. The meanings of the rows of the matrix slot and the checks of the Lattice and self-tests (09, 10, 22), one per row.
-/

namespace Sys2Proof.Machine

/-- MSHAPE (R303): The matrix instruction waits for in-flight work and sets the array shape, invalidating stationary operands. -/
def execWMshape (core : Fin 1280) (hc : Fin 8) (s : State) : Result :=
  .next (issueRow s core.val hc.val (.m .shape) PeerTable.empty)

/-- MLW (R310): The matrix instruction loads the stationary operand of a slice row by row. -/
def execWMlw (core : Fin 1280) (hc : Fin 8) (s : State) : Result :=
  .next (issueRow s core.val hc.val (.m .lw) PeerTable.empty)

/-- MMB (R311): The matrix instruction runs a bulk-class pass into an accumulator bank. -/
def execWMmb (core : Fin 1280) (hc : Fin 8) (s : State) : Result :=
  .next (issueRow s core.val hc.val (.m .mb) PeerTable.empty)

/-- MMS (R311): The matrix instruction runs a stream-class pass into an accumulator bank. -/
def execWMms (core : Fin 1280) (hc : Fin 8) (s : State) : Result :=
  .next (issueRow s core.val hc.val (.m .ms) PeerTable.empty)

/-- MEW (R314): The matrix instruction multiplies or adds a tile element-wise into a bank. -/
def execWMew (core : Fin 1280) (hc : Fin 8) (s : State) : Result :=
  .next (issueRow s core.val hc.val (.m .ew) PeerTable.empty)

/-- MST (R381): The matrix instruction converts and stores a bank through a descriptor as a transfer. -/
def execWMst (core : Fin 1280) (hc : Fin 8) (s : State) : Result :=
  .next (issueRow s core.val hc.val (.m .st) PeerTable.empty)

/-- MLA (R382): The matrix instruction loads a bank from an FP32 tile. -/
def execWMla (core : Fin 1280) (hc : Fin 8) (s : State) : Result :=
  .next (issueRow s core.val hc.val (.m .la) PeerTable.empty)

/-- MZERO (R315): The matrix instruction clears a bank to +0.0. -/
def execWMzero (core : Fin 1280) (hc : Fin 8) (s : State) : Result :=
  .next (issueRow s core.val hc.val (.m .zero) PeerTable.empty)

/-- MXWAIT (R329): The matrix instruction waits for in-flight work on masked banks and raises for any failure code. -/
def execWMxwait (core : Fin 1280) (hc : Fin 8) (s : State) : Result :=
  .next (issueRow s core.val hc.val (.m .wait_) PeerTable.empty)

/-- MXTEST (R329): The matrix instruction waits and writes the failure codes of an array to a scalar register. -/
def execWMxtest (core : Fin 1280) (hc : Fin 8) (s : State) : Result :=
  .next (issueRow s core.val hc.val (.m .test) PeerTable.empty)

/-- MXCLR (R331): The matrix instruction clears nonzero failure codes and zeroes their regions. -/
def execWMxclr (core : Fin 1280) (hc : Fin 8) (s : State) : Result :=
  .next (issueRow s core.val hc.val (.m .clr) PeerTable.empty)

/-- PASS_CHECK (R324): At t+L+1 a pass is checked and its results commit to the bank, or are held back for recomputation. What the array
makes wrong in the pass, and in its parity and replay buffers. -/
def execPassCheck (core : Fin 1280) (array : Fin 2) (slice : Nat) (errors : PassErrors) (s : State) : Result :=
  .next (whileRunning s (passCheck s core.val array.val slice errors))

/-- RECOMPUTATION (R326): A failed full-shape pass is recomputed once from the replay buffers and commits if the check passes. What the
array makes wrong in the pass, and in its parity and replay buffers. -/
def execRecomputation (core : Fin 1280) (array : Fin 2) (slice : Nat) (errors : PassErrors) (s : State) : Result :=
  .next (whileRunning s (recomputePass s core.val array.val slice errors))

/-- SPARE_RECOMPUTATION (R326): A twice-failed pass is computed on a spare array and commits, or its regions take code 0x41, and the array
is retired. What the array makes wrong in the pass, and in its parity and replay buffers. -/
def execSpareRecomputation (core : Fin 1280) (array : Fin 2) (slice : Nat) (errors : PassErrors) (s : State) : Result :=
  .next (whileRunning s (spareRecomputation s core.val array.val slice errors))

/-- RETIREMENT_RECORD_WRITE (R576): A run-time retirement is written to the retirement record in CONFIG within 100 ms. -/
def execRetirementRecordWrite (s : State) : Result :=
  .next (whileRunning s (retirementRecordWrite s))

/-- BIST_START (R332): A self-test starts on an array whose pair has been idle for 1,100 cycles. -/
def execBistStart (core : Fin 1280) (array : Fin 2) (s : State) : Result :=
  .next (bistStart s core.val array.val)

/-- BIST_RESULT (R333): A completed self-test sets LAT_BIST_LAST_a or retires the array on a mismatch. Whether the test found no mismatch.
-/
def execBistResult (core : Fin 1280) (array : Fin 2) (ok : Bool) (s : State) : Result :=
  .next (bistResult s core.val array.val ok)

/-- BIST_OVERDUE (R333): An array untested for 2 × PERIOD_MS has LAT_STATUS.BIST_OVERDUE set. -/
def execBistOverdue (core : Fin 1280) (array : Fin 2) (s : State) : Result :=
  .next (bistOverdue s core.val array.val)

/-- BIST_REQUEST (R334): Writing LAT_BIST.RUN requests a test of both arrays at their next idle period. -/
def execBistRequest (core : Fin 1280) (s : State) : Result :=
  .next (bistRequestRow s core.val)

end Sys2Proof.Machine
end

