-- ==== Sys2Proof/Machine/RowsMemory.lean ====
section
/-!
DEFINITION. The meanings of the rows of HBM (14), one per row.
-/

namespace Sys2Proof.Machine

/-- REFRESH (R421): The HBM controller refreshes every bank of every pseudo-channel each 3.9 μs, or 1.95 μs when hot. -/
def execRefresh (stack : Fin 8) (s : State) : Result :=
  .next (refresh s stack.val)

/-- HBM_SCRUB (R422): The controller reads every populated line once per scrub period. The granules (offset div 32) upset since the last
row, with an error that the code corrects or only detects. -/
def execHbmScrub (stack : Fin 8) (ce : List Nat) (ue : List Nat) (s : State) : Result :=
  .next (whileRunning s (hbmScrub s stack.val ce ue))

/-- PC_RETIREMENT (R419): A pseudo-channel is retired on error thresholds or a link failure and its rebuild starts. The pseudo-channel and
the cause code. -/
def execPcRetirement (stack : Fin 8) (pc : Fin 32) (cause : Nat) (s : State) : Result :=
  .next (whileRunning s (pcRetirement s stack.val pc.val cause))

/-- HBM_RETIRE (R419): Writing HBM_RETIRE.GO starts retirement of a pseudo-channel. -/
def execHbmRetire (stack : Fin 8) (pc : Fin 32) (s : State) : Result :=
  .next (whileCrown s (hbmRetire s stack.val (pc.val + 32)))

/-- REBUILD_COMPLETE (R419): Every line of the retiring pseudo-channel is rebuilt, its state becomes retired and PC_RETIRED is sent. The
lines that could not be rebuilt. -/
def execRebuildComplete (stack : Fin 8) (lost : List Nat) (s : State) : Result :=
  .next (whileRunning s (rebuildComplete s stack.val lost))

/-- MIRROR_ENABLE (R417): Enabling HBM_MIR_r starts copying the primary to its copy. BASE and SIZE of HBM_MIR_r. -/
def execMirrorEnable (stack : Fin 8) (range : Fin 8) (base : Nat) (size : Nat) (s : State) : Result :=
  .next (mirrorEnableRow s stack.val range.val base size)

/-- MIRROR_SYNC (R417): The mirror copy completes and SYNCED is set. -/
def execMirrorSync (stack : Fin 8) (range : Fin 8) (s : State) : Result :=
  .next (whileRunning s (mirrorSync s stack.val range.val))

end Sys2Proof.Machine
end

