-- ==== Sys2Proof/Machine/RowsMover.lean ====
section
/-!
DEFINITION. The meanings of the rows of the mover slot and the mover (09, 12), one per row.
-/

namespace Sys2Proof.Machine

/-- MCOPY (R373): The mover instruction starts a copy transfer between descriptors. -/
def execWMcopy (core : Fin 1280) (hc : Fin 8) (s : State) : Result :=
  .next (issueRow s core.val hc.val (.d .copy) PeerTable.empty)

/-- MTRANS (R374): The mover instruction starts a transposing copy transfer. -/
def execWMtrans (core : Fin 1280) (hc : Fin 8) (s : State) : Result :=
  .next (issueRow s core.val hc.val (.d .trans) PeerTable.empty)

/-- MGATHER (R376): The mover instruction starts a gather of listed blocks. -/
def execWMgather (core : Fin 1280) (hc : Fin 8) (s : State) : Result :=
  .next (issueRow s core.val hc.val (.d .gather) PeerTable.empty)

/-- MSCATTER (R377): The mover instruction starts a scatter to listed blocks. -/
def execWMscatter (core : Fin 1280) (hc : Fin 8) (s : State) : Result :=
  .next (issueRow s core.val hc.val (.d .scatter) PeerTable.empty)

/-- MFILL (R378): The mover instruction starts a fill of the destination. -/
def execWMfill (core : Fin 1280) (hc : Fin 8) (s : State) : Result :=
  .next (issueRow s core.val hc.val (.d .fill) PeerTable.empty)

/-- MPUT (R379): The mover instruction starts a copy to a Span peer. What reading the peer's descriptor table gives. -/
def execWMput (core : Fin 1280) (hc : Fin 8) (table : PeerTable) (s : State) : Result :=
  .next (issueRow s core.val hc.val (.d .put) table)

/-- MGET (R379): The mover instruction starts a copy from a Span peer. What reading the peer's descriptor table gives. -/
def execWMget (core : Fin 1280) (hc : Fin 8) (table : PeerTable) (s : State) : Result :=
  .next (issueRow s core.val hc.val (.d .get) table)

/-- MWAIT (R279): The mover instruction waits for masked tags, raises XFER_FAIL on a failure, and sets them IDLE. -/
def execWMwait (core : Fin 1280) (hc : Fin 8) (s : State) : Result :=
  .next (issueRow s core.val hc.val (.d .wait_) PeerTable.empty)

/-- MTEST (R280): The mover instruction writes the tag states to a scalar register. -/
def execWMtest (core : Fin 1280) (hc : Fin 8) (s : State) : Result :=
  .next (issueRow s core.val hc.val (.d .test) PeerTable.empty)

/-- TLD (R276): The instruction loads a 32-byte descriptor into a t register. -/
def execWTld (core : Fin 1280) (hc : Fin 8) (s : State) : Result :=
  .next (issueRow s core.val hc.val (.d .tld) PeerTable.empty)

/-- TST (R276): The instruction stores a t register to memory. -/
def execWTst (core : Fin 1280) (hc : Fin 8) (s : State) : Result :=
  .next (issueRow s core.val hc.val (.d .tst) PeerTable.empty)

/-- TMOV (R276): The instruction copies one t register to another. -/
def execWTmov (core : Fin 1280) (hc : Fin 8) (s : State) : Result :=
  .next (issueRow s core.val hc.val (.d .tmov) PeerTable.empty)

/-- TADDB (R276): The instruction adjusts a descriptor's base. -/
def execWTaddb (core : Fin 1280) (hc : Fin 8) (s : State) : Result :=
  .next (issueRow s core.val hc.val (.d .taddb) PeerTable.empty)

/-- TRANSFER_END (R278): A transfer ends and its tag becomes DONE or FAILED with its status. -/
def execTransferEnd (core : Fin 1280) (hc : Fin 8) (tag : Fin 16) (s : State) : Result :=
  .next (whileRunning s (transferEnd s core.val hc.val tag.val))

end Sys2Proof.Machine
end

