-- ==== Sys2Proof/Machine/RowsPacket.lean ====
section
/-!
DEFINITION. The meanings of the rows of ports, parser, flow tables, Canopy, Grove passes and egress (03–07, 15), one per row.
-/

namespace Sys2Proof.Machine

/-- FRAME_START (R98): At the first byte of a received frame the port complex reserves 36 Heartwood cells against the logical-port share
and the data pool, or discards the frame into RX_ADMIT_DROP. -/
def execFrameStart (lport : Fin 64) (s : State) : Result :=
  .next (frameStart s lport.val)

/-- OVERSIZE_DISCARD (R601): The byte that takes a frame past PRT_CFG_n.MAX_FRAME discards the frame, frees its cells and counts it in
RX_DISCARD. -/
def execOversizeDiscard (lport : Fin 64) (s : State) : Result :=
  .next (oversizeDiscard s lport.val)

/-- FRAME_END (R97): At a frame's end the MAC applies the FCS, truncation, size, MAC-control and state checks, counts any discard, and
commits the frame to admission. The frame without its FCS, whether the FCS holds, whether the frame was truncated, and whether its cells
of the control slice have an uncorrectable error (06 R180). -/
def execFrameEnd (lport : Fin 64) (frame : Bytes) (fcsOk : Bool) (truncated : Bool) (ecc : Bool) (s : State) : Result :=
  .next (frameEnd s lport frame fcsOk truncated ecc)

/-- COMMAND_PORT_FRAME (R600): A frame received on C0 or C1 is discarded and counted when it is malformed or not GCT, and otherwise enters
the control slice. The frame without its FCS; `ecc` is an uncorrectable error of its cells (06 R180). -/
def execCommandPortFrame (port : Fin 2) (frame : Bytes) (fcsOk : Bool) (truncated : Bool) (ecc : Bool) (s : State) : Result :=
  .next (commandPortFrame s port frame fcsOk truncated ecc)

/-- PORT_LINK_CHANGE (R94): A packet-port logical link goes up or down, updating PRT_STATUS_n.LINK and truncating any frame in progress.
-/
def execPortLinkChange (lport : Fin 64) (up : Bool) (s : State) : Result :=
  .next (portLinkRow s lport up)

/-- PORT_ENABLE (R124): A change of PRT_CFG_n.ENABLE takes effect at the next frame boundary of each logical port of the physical port. -/
def execPortEnable (lport : Fin 64) (s : State) : Result :=
  .next (portEnable s lport.val)

/-- PARSE_ACCEPT (R104): A parse pipeline accepts one committed frame per cycle, round-robin among its logical ports, and samples
PRS_DEPTH and PRS_KEY. -/
def execParseAccept (pipe : Fin 8) (s : State) : Result :=
  .next (parseAccept s pipe.val)

/-- FLOW_KEY_COMPLETE (R105): Twenty-one cycles after acceptance the flow key is complete and its lookup is issued to the pipeline's flow
cache. -/
def execFlowKeyComplete (pipe : Fin 8) (s : State) : Result :=
  .next (flowKeyComplete s pipe.val)

/-- PREFETCH_LAND (R119): Prefetched context-page data lands in the flow-context cache as a clean copy tagged with the entry generation,
poisoned on an uncorrectable error. -/
def execPrefetchLand (pipe : Fin 8) (s : State) : Result :=
  .next (whileRunning s (takeFault (prefetchLand s pipe.val)))

/-- FLOW_LOOKUP_ANSWER (R156): A flow lookup answers with a hit that refreshes LAST_HIT and delivers FLOW_STATE, CTX and GEN, or with a
miss that sets FLOW_NEW. `bad1` and `bad2` are uncorrectable errors in the cached lines of the first and the second candidate. -/
def execFlowLookupAnswer (packet : Nat) (bad1 : Bool) (bad2 : Bool) (s : State) : Result :=
  .next (whileRunning s (takeFault (flowLookupAnswer s packet bad1 bad2)))

/-- FILTER_EXPIRY (R160): A key leaves the pipeline's learn suppression filter 80,000 cycles after it entered. -/
def execFilterExpiry (pipe : Fin 8) (s : State) : Result :=
  .next (whileRunning s (filterExpiry s pipe.val))

/-- FLOW_RECORD_ENQUEUE (R161): A waiting AGED, DELETED, BUCKET_ERR or MISMATCH record is written to its pipeline's notification queue
once room returns. -/
def execFlowRecordEnqueue (pipe : Fin 8) (s : State) : Result :=
  .next (whileRunning s (flowRecordEnqueue s pipe.val))

/-- FIRST_PASS_ENTRY (R146): A packet enters first-pass T0, copies the ACTIVE bank vector, pins its banks and runs stages T0–T7. -/
def execFirstPassEntry (pipe : Fin 8) (s : State) : Result :=
  .next (firstPassEntry s pipe.val)

/-- T2_ADMIT (R128): T2 admits one packet per cycle, the oldest parked packet with its answer first. -/
def execT2Admit (pipe : Fin 8) (s : State) : Result :=
  .next (t2Admit s pipe.val)

/-- PASS_END (R140): When a packet leaves T7 the module takes mirror copies, drops it if DROP is set, and routes it onward by TIER and
RECIRC. `second` says which pass ends. -/
def execPassEnd (pipe : Fin 8) (second : Bool) (s : State) : Result :=
  .next (passEnd s pipe.val second)

/-- PINNED_WRITE_APPLY (R146): A RULE_WRITE held by pins on its target bank applies its items once the bank's pin count reaches 0. -/
def execPinnedWriteApply (table : Fin 16) (s : State) : Result :=
  .next (whileRunning s (pinnedWriteApply s table.val))

/-- GROVE_ENTRY (R201): A packet with TIER 1 or 2 enters its Grove input buffer, sampling its route and the leaf phase of each named slot.
-/
def execGroveEntry (pipe : Fin 8) (s : State) : Result :=
  .next (groveEntry s pipe.val)

/-- GROVE_VERDICT (R206): Grove combines the applied entries' outputs, writes the Tier 1 verdict into metadata and decides escalation. An
error that the walk finds: slice, word, and whether it is uncorrectable (R214). -/
def execGroveVerdict (packet : Nat) (error : Option (Nat × Nat × Bool)) (s : State) : Result :=
  .next (groveVerdict s packet error)

/-- TOKEN_DISPATCH (R435): The dispatcher commits an escalated packet's token to its token queue once its context copy is in the
flow-context cache, or drops it. -/
def execTokenDispatch (pipe : Fin 8) (s : State) : Result :=
  .next (whileRunning s (takeFault (tokenDispatch s pipe.val)))

/-- VERDICT_READ (R428): The return engine reads a Tier 2 verdict from a return queue and releases its held packet, or treats it as late.
-/
def execVerdictRead (queue : Fin 4096) (s : State) : Result :=
  .next (whileRunning s (verdictRead s queue.val))

/-- DEADLINE_TEST (R428): When the stamp clock reaches a hold entry's D without a read verdict, the packet is released with V_DEFERRED
set. -/
def execDeadlineTest (pipe : Fin 8) (entry : Fin 131072) (s : State) : Result :=
  .next (whileRunning s (deadlineTest s (holdKey pipe.val entry.val)))

/-- SECOND_PASS_ENTRY (R138): A released packet enters second-pass T0, with RECIRC and MIRROR cleared, PASS set and the verdict fields
filled. -/
def execSecondPassEntry (packet : Nat) (s : State) : Result :=
  .next (secondPassEntry s packet)

/-- EGRESS (R123): The port complex transmits the packet on its egress port applying the edit list and FCS, or discards it to
PRT_EGRESS_DROP or CNP_OVERSIDE limits. -/
def execEgress (packet : Nat) (s : State) : Result :=
  .next (egress s packet)

end Sys2Proof.Machine
end

