-- ==== Sys2Proof/Machine/RowsPlatform.lean ====
section
/-!
DEFINITION. The meanings of the rows of Crown, flash, trust, observation and debug (17–22), one per row.
-/

namespace Sys2Proof.Machine

/-- EVQ_RD (R487): Advancing CRN_EVQ.RD frees event-ring records so waiting producers write. -/
def execEvqRd (rd : Nat) (s : State) : Result :=
  .next (whileCrown s (evqRd s rd))

/-- KICK (R493): A write to CRN_KICK_c restarts that core's watchdog period. -/
def execKick (crown : Fin 16) (s : State) : Result :=
  .next (whileCrown s (kick s crown.val))

/-- WATCHDOG (R493): An expired watchdog holds the Crown core in reset and writes a WATCHDOG event, entering FAULTED if all are held. The
commands that another core continues. -/
def execWatchdog (crown : Fin 16) (replays : Nat) (s : State) : Result :=
  .next (watchdog s crown.val replays)

/-- MACHINE_CHECK (R493): An uncorrectable Crown cache error or poisoned load restarts the core as the watchdog does. The commands that
another core continues. -/
def execMachineCheck (crown : Fin 16) (replays : Nat) (s : State) : Result :=
  .next (machineCheck s crown.val replays)

/-- CORE_RELEASE (R493): Fifty milliseconds after being held the Crown core is released and the runtime restarts on it. -/
def execCoreRelease (crown : Fin 16) (s : State) : Result :=
  .next (coreRelease s crown.val)

/-- CAPTURE_APPEND (R506): A Crown append passes the byte bucket and buffer into CAPTURE, discarding the oldest segment when full, or is
DROPPED. -/
def execCaptureAppend (crown : Fin 16) (data : Bytes) (s : State) : Result :=
  .next (whileCrown s (captureAppend s crown.val data))

/-- DIE_LOSS (R501): A lost flash die is served by reconstruction and its stripes rebuild, or DEGRADED is set. -/
def execDieLoss (die : Fin 16) (s : State) : Result :=
  .next (dieLoss s die.val)

/-- STRIPE_REBUILD_COMPLETE (R501): Every stripe has been rebuilt on the 15 live dies. -/
def execStripeRebuildComplete (s : State) : Result :=
  .next (stripeRebuildComplete s)

/-- FLASH_SCRUB (R508): The retention scrub reads every programmed page once per period and relocates weak or old blocks. What the dies
do, the sectors found uncorrectable, and the blocks relocated. -/
def execFlashScrub (media : Media) (ue : List Nat) (reloc : Nat) (s : State) : Result :=
  .next (flashScrub s media ue reloc)

/-- WEAR_LEVELLING (R502): When the TLC erase-count spread exceeds 300 the manager moves cold data. The erase counts after it, and whether
the spare blocks are spent. -/
def execWearLevelling (avg : Nat) (max : Nat) (spread : Nat) (spent : Bool) (s : State) : Result :=
  .next (wearLevelling s avg max spread spent)

/-- TRS_RELEASE (R519): Writing TRS_CTL.RELEASE erases the installer root, signers and operator keys and closes sessions. -/
def execTrsRelease (s : State) : Result :=
  .next (releaseRow s)

/-- ROTATE (R520): Writing TRS_OPKEY_j.ROTATE increments the slot's GEN, zeroes its counter and closes its sessions. -/
def execRotate (slot : Fin 16) (s : State) : Result :=
  .next (rotateRow s slot.val)

/-- OPKEY_ENABLE (R520): Writing TRS_OPKEY_j.EN enables the slot, or disables it and closes its sessions. -/
def execOpkeyEnable (slot : Fin 16) (on : Bool) (s : State) : Result :=
  .next (opkeyRow s slot.val on)

/-- SAVE (R529): Writing TRS_CFG.SAVE writes the present values as the next configuration record. -/
def execSave (s : State) : Result :=
  .next (saveRow s)

/-- FACTORY (R528): Writing TRS_CFG.FACTORY selects the factory record at the next boot. -/
def execFactory (s : State) : Result :=
  .next (factoryRow s)

/-- AUDIT_DRAIN (R532): Audit records in the secure staging area drain to the AUDIT partition. -/
def execAuditDrain (s : State) : Result :=
  .next (auditDrain s)

/-- AUDIT_SUMMARY (R531): Each second one summary record is appended per session, opcode and status with a nonzero count. -/
def execAuditSummary (s : State) : Result :=
  .next (auditSummary s)

/-- COUNT_SEND (R554): At least once per microsecond a core sends its per-context event counts to the observation block. -/
def execCountSend (core : Fin 1280) (s : State) : Result :=
  .next (countSendRow s core.val)

/-- COMMAND_BOUNDARY (R555): A RUN start or OBS_CTXB write copies LIVE to FINAL, increments the boundary count and zeroes LIVE. SET and GO
of OBS_CTXB. -/
def execCommandBoundary (set : Fin 32) (go : Bool) (s : State) : Result :=
  .next (whileCrown s (commandBoundary s set.val go))

/-- PC_SAMPLE (R558): In a matching cycle a selected core generates a PC sample trace record. Whether the context issues in the cycle. -/
def execPcSample (core : Fin 1280) (hc : Fin 8) (issued : Bool) (s : State) : Result :=
  .next (pcSample s core.val hc.val issued)

/-- CHAIF_FRAME_SEND (R561): The Chaif port sends a frame of whole trace records from the trace partition. -/
def execChaifFrameSend (records : Nat) (s : State) : Result :=
  .next (chaifFrameSend s records)

/-- TRACE_FALLBACK_SEND (R562): Trace records leave in RECORD frames to trace subscribers within the 3 % command-port limit. -/
def execTraceFallbackSend (s : State) : Result :=
  .next (traceFallbackSend s)

/-- GLOBAL_STOP (R565): A stop request from a command, debug stop, exception or Span HALT starts the stop distribution to every stopping
island. -/
def execGlobalStop (s : State) : Result :=
  .next (globalStop s)

/-- CUT_COMPLETE (R566): When every stopping island has reported, the cut is complete, OBS_CUT is written and HALTED entered. -/
def execCutComplete (s : State) : Result :=
  .next (cutComplete s)

/-- CONTINUE (R564): The OBS_DBG operation releases a context's debug stop. -/
def execDbgContinue (core : Fin 1280) (hc : Fin 8) (s : State) : Result :=
  .next (debugRow s core.val hc.val 1)

/-- STEP (R564): The OBS_DBG operation releases a debug-stopped context for one bundle. -/
def execDbgStep (core : Fin 1280) (hc : Fin 8) (s : State) : Result :=
  .next (debugRow s core.val hc.val 2)

/-- DUMP (R564): The OBS_DBG operation writes the stopped context's state to its virtual address. The value of OBS_DBG_ADDR. -/
def execDbgDump (core : Fin 1280) (hc : Fin 8) (va : Nat) (s : State) : Result :=
  .next (dumpRow s core.val hc.val va)

/-- COMMAND_PORT_LINK_CHANGE (R600): The link of command port C0 or C1 goes down or comes up, truncating any frame in progress on loss. -/
def execCommandPortLinkChange (port : Fin 2) (up : Bool) (s : State) : Result :=
  .next (commandPortLink s port up)

/-- CHAIF_LINK_CHANGE (R561): The Chaif port link goes up or down, changing OBS_TRACE.LINK and whether trace frames can leave. -/
def execChaifLinkChange (up : Bool) (s : State) : Result :=
  .next (chaifLink s up)

/-- HIGH_SYMBOL_ERROR_RATE (R124): RS-FEC on a packet logical port enters or leaves high symbol error rate, changing PRT_STATUS_n.HI_SER.
-/
def execHighSymbolErrorRate (lport : Fin 64) (on : Bool) (s : State) : Result :=
  .next (setHiSer s lport.val on)

/-- FLIT_CRC_FAILURE (R466): A Span receiver finds a flit with a CRC failure, a reserved FTYPE or VC, or an out-of-order SEQ, discards it
and later flits, and sends RETRY_REQ. -/
def execFlitCrcFailure (link : Fin 8) (s : State) : Result :=
  .next (flitFailure s link.val)

/-- ACK_AND_CREDIT (R467): A received flit's ACK frees replay-buffer entries and its CREDIT returns flits of a VC, letting held senders
send. The acknowledged SEQ, and the flits returned to a virtual channel. -/
def execAckAndCredit (link : Fin 8) (ack : Option Nat) (vc : Fin 5) (n : Nat) (s : State) : Result :=
  .next (ackAndCredit s link.val ack vc.val n)

/-- BUNDLE_CACHE_FILL (R230): A bundle-cache fill through the context's translation completes and lets the bundle issue, or meets a
translation fault that suspends the context at fetch. -/
def execBundleCacheFill (core : Fin 1280) (hc : Fin 8) (s : State) : Result :=
  .next (cacheFill s core.val hc.val)

/-- SUSPENDED_TRANSFER (R401): A mover transfer meets a serviceable translation fault at a unit, stops before that unit with its tag BUSY,
and writes a fault record. -/
def execSuspendedTransfer (core : Fin 1280) (hc : Fin 8) (tag : Fin 16) (s : State) : Result :=
  .next (whileRunning s (suspendTransfer s core.val hc.val tag.val))

end Sys2Proof.Machine
end

