-- ==== Sys2Proof/Machine/RowsPower.lean ====
section
/-!
DEFINITION. The meanings of the rows of power, thermal protection, the management bus and the TAP (23), one per row.
-/

namespace Sys2Proof.Machine

/-- POWER_UP (R587): With input in range and PGOOD_IN asserted the rails ramp in order and PGOOD_OUT is asserted. The input voltage in mV.
-/
def execPowerUp (mv : Nat) (s : State) : Result :=
  .next (powerUp s mv)

/-- RESET_RELEASE (R587): RESET_N released at least 1 ms after PGOOD_OUT locks the PLLs and enters SECURE_BOOT. -/
def execResetRelease (s : State) : Result :=
  .next (resetRelease s)

/-- SECURE_BOOT (R526): The trust block measures, verifies the boot slot or falls back, loads the configuration record, starts firmware
and enters READY or FAULTED. -/
def execSecureBoot (s : State) : Result :=
  .next (secureBoot s)

/-- INPUT_RANGE (R584): Input at 44–46 V or 56–58 V for 20 μs sets PWR_ALERT.INPUT_RANGE. The input voltage in mV. -/
def execInputRange (mv : Nat) (s : State) : Result :=
  .next (inputRange s mv)

/-- POWER_GOOD_LOSS (R584): Input outside 44–58 V for 20 μs, or PGOOD_IN or a rail lost, drops power-good, enters POWERED and turns the
rails off. -/
def execPowerGoodLoss (cause : PowerLoss) (s : State) : Result :=
  .next (powerGoodLoss s cause)

/-- PHASE_SHED (R586): A failing regulator phase is shed within 10 μs, or a second failure on the rail enters FAULTED with cause 0x03. -/
def execPhaseShed (rail : Nat) (s : State) : Result :=
  .next (phaseShed s rail)

/-- CAP_CONTROL (R585): Every 10 μs the cap loop samples input power and sets Facet issue gating and Limb HBM limits. The sampled input
voltage in mV, current in 10 mA and power in 0.1 W. -/
def execCapControl (mv : Nat) (ca : Nat) (dw : Nat) (s : State) : Result :=
  .next (capControl s mv ca dw)

/-- LIMB_THROTTLE (R595): A Limb at 100 °C gates Facet issue to half until below 95 °C, setting PWR_ALERT.THROTTLE. The Limb and its
temperature in °C. -/
def execLimbThrottle (limb : Nat) (temp : Nat) (s : State) : Result :=
  .next (limbThrottle s limb temp)

/-- THERMAL_SHUTDOWN (R595): A die at 110 °C, or an HBM stack at 105 °C, for 1 ms enters FAULTED with cause 0x05. The sensor, 0–4 for the
dies and 5–12 for the stacks, and its temperature in °C. -/
def execThermalShutdown (sensor : Nat) (temp : Nat) (s : State) : Result :=
  .next (thermalShutdown s sensor temp)

/-- HBM_THERMAL (R421): A stack temperature crossing 85 °C or 95 °C doubles refresh or throttles class 5. The temperature in °C. -/
def execHbmThermal (stack : Fin 8) (temp : Nat) (s : State) : Result :=
  .next (hbmThermal s stack.val temp)

/-- READ_VIN (R592): The SMBus command returns the input voltage in LINEAR11. -/
def execReadVin (s : State) : Result :=
  .next (readVin s)

/-- READ_IIN (R592): The SMBus command returns the input current in LINEAR11. -/
def execReadIin (s : State) : Result :=
  .next (readIin s)

/-- READ_TEMPERATURE_1 (R592): The SMBus command returns the hottest die temperature in LINEAR11. -/
def execReadTemperature1 (s : State) : Result :=
  .next (readTemperature s)

/-- READ_PIN (R592): The SMBus command returns the input power in LINEAR11. -/
def execReadPin (s : State) : Result :=
  .next (readPin s)

/-- EXTEST (R593): The TAP instruction drives the boundary register while RESET_N is low, and otherwise acts as BYPASS. The value shifted
into the boundary register. -/
def execExtest (data : Nat) (s : State) : Result :=
  .next (tapExtest s data)

/-- IDCODE (R593): The TAP instruction returns IDCODE 0x1941_64B3. -/
def execIdcode (s : State) : Result :=
  .next (tapIdcode s)

/-- SAMPLE_PRELOAD (R593): The TAP instruction samples or preloads the boundary register. The value shifted into the boundary register. -/
def execSamplePreload (data : Nat) (s : State) : Result :=
  .next (tapSample s data)

/-- SCAN_READ (R570): The TAP instruction returns SCAN_OUT data in HALTED when TAP_EN is set, and records an audit event. The 20 bytes
that a SCAN_OUT body would hold. -/
def execScanRead (body : Bytes) (s : State) : Result :=
  .next (tapScan s body)

/-- BYPASS (R593): The TAP instruction selects the bypass register, as every reserved code does. The instruction code and the data shifted
through. -/
def execBypass (code : Nat) (data : Nat) (s : State) : Result :=
  .next (tapBypass s code data)

end Sys2Proof.Machine
end

