-- ==== Sys2Proof/Machine/RowsQueue.lean ====
section
/-!
DEFINITION. The meanings of the rows of the queue ports of Crown cores and Heartwood scrub (06, 17), one per row.
-/

namespace Sys2Proof.Machine

/-- OPEN_RETRY (R184): A producer OPEN waiting under WAIT opens its packet in the first cycle in which room exists. -/
def execOpenRetry (queue : Fin 4096) (s : State) : Result :=
  .next (openRetry s queue.val)

/-- PORT_OPEN (R485): A Crown store to the queue port opens a producer packet. The stored value. -/
def execPortOpen (crown : Fin 16) (queue : Fin 4096) (v : Nat) (s : State) : Result :=
  .next (portOpen s crown.val queue.val v)

/-- PORT_PUSH (R485): A Crown store stages or pushes a queue word through the port. Whether the store stages DATA[63:0], the stored value,
and whether the word fails its parity check. -/
def execPortPush (crown : Fin 16) (queue : Fin 4096) (stage : Bool) (v : Word) (flip : Bool) (s : State) : Result :=
  .next (portPush s crown.val queue.val stage v flip)

/-- PORT_COMMIT (R486): A Crown store commits the open packet, acting as a full barrier. -/
def execPortCommit (crown : Fin 16) (queue : Fin 4096) (s : State) : Result :=
  .next (portCommit s crown.val queue.val)

/-- PORT_ABORT (R485): A Crown store aborts the open packet. -/
def execPortAbort (crown : Fin 16) (queue : Fin 4096) (s : State) : Result :=
  .next (portAbort s crown.val queue.val)

/-- PORT_READ (R485): A Crown load reads the next queue word and returns its status, waiting if flagged. A store of the wait flag that
comes before the load, if there is one, and whether the word fails its parity check. -/
def execPortRead (crown : Fin 16) (queue : Fin 4096) (flag : Option Bool) (flip : Bool) (s : State) : Result :=
  .next (portRead s crown.val queue.val flag flip)

/-- PORT_MARK (R485): A Crown store sets the consumer mark at a packet boundary. -/
def execPortMark (crown : Fin 16) (queue : Fin 4096) (s : State) : Result :=
  .next (portMark s crown.val queue.val)

/-- PORT_REWIND (R485): A Crown store rewinds the consumer to the mark. -/
def execPortRewind (crown : Fin 16) (queue : Fin 4096) (s : State) : Result :=
  .next (portRewind s crown.val queue.val)

/-- PORT_RELEASE (R485): A Crown store releases read words up to a packet boundary. -/
def execPortRelease (crown : Fin 16) (queue : Fin 4096) (s : State) : Result :=
  .next (portRelease s crown.val queue.val)

/-- FLUSH (R192): Writing SQ_CFG_q.FLUSH sets RD, MK and RL to CM and frees tail cells. -/
def execFlush (queue : Fin 4096) (s : State) : Result :=
  .next (flushRow s queue.val)

/-- HEARTWOOD_SCRUB (R181): The scrub engine reads and corrects every Heartwood cell once per period. The granules (8 × cell + granule)
upset since the last row, with an error that the code corrects or only detects. -/
def execHeartwoodScrub (ce : List Nat) (ue : List Nat) (s : State) : Result :=
  .next (heartwoodScrub s ce ue)

end Sys2Proof.Machine
end

