-- ==== Sys2Proof/Machine/RowsScalar.lean ====
section
/-!
DEFINITION. The meanings of the rows of the scalar slots of a bundle and loads that complete (08, 09), one per row.
-/

namespace Sys2Proof.Machine

/-- ADD (R267): The scalar instruction adds two operands modulo 2^64. -/
def execWAdd (core : Fin 1280) (hc : Fin 8) (s : State) : Result :=
  .next (issueRow s core.val hc.val (.s .add) PeerTable.empty)

/-- SUB (R267): The scalar instruction subtracts modulo 2^64. -/
def execWSub (core : Fin 1280) (hc : Fin 8) (s : State) : Result :=
  .next (issueRow s core.val hc.val (.s .sub) PeerTable.empty)

/-- AND (R267): The scalar instruction computes bitwise AND. -/
def execWAnd (core : Fin 1280) (hc : Fin 8) (s : State) : Result :=
  .next (issueRow s core.val hc.val (.s .and_) PeerTable.empty)

/-- OR (R267): The scalar instruction computes bitwise OR. -/
def execWOr (core : Fin 1280) (hc : Fin 8) (s : State) : Result :=
  .next (issueRow s core.val hc.val (.s .or_) PeerTable.empty)

/-- XOR (R267): The scalar instruction computes bitwise XOR. -/
def execWXor (core : Fin 1280) (hc : Fin 8) (s : State) : Result :=
  .next (issueRow s core.val hc.val (.s .xor_) PeerTable.empty)

/-- SHL (R267): The scalar instruction shifts left. -/
def execWShl (core : Fin 1280) (hc : Fin 8) (s : State) : Result :=
  .next (issueRow s core.val hc.val (.s .shl) PeerTable.empty)

/-- SHR (R267): The scalar instruction shifts right logically. -/
def execWShr (core : Fin 1280) (hc : Fin 8) (s : State) : Result :=
  .next (issueRow s core.val hc.val (.s .shr) PeerTable.empty)

/-- SAR (R267): The scalar instruction shifts right arithmetically. -/
def execWSar (core : Fin 1280) (hc : Fin 8) (s : State) : Result :=
  .next (issueRow s core.val hc.val (.s .sar) PeerTable.empty)

/-- MIN (R267): The scalar instruction takes the signed minimum. -/
def execWMin (core : Fin 1280) (hc : Fin 8) (s : State) : Result :=
  .next (issueRow s core.val hc.val (.s .min_) PeerTable.empty)

/-- MAX (R267): The scalar instruction takes the signed maximum. -/
def execWMax (core : Fin 1280) (hc : Fin 8) (s : State) : Result :=
  .next (issueRow s core.val hc.val (.s .max_) PeerTable.empty)

/-- MINU (R267): The scalar instruction takes the unsigned minimum. -/
def execWMinu (core : Fin 1280) (hc : Fin 8) (s : State) : Result :=
  .next (issueRow s core.val hc.val (.s .minu) PeerTable.empty)

/-- MAXU (R267): The scalar instruction takes the unsigned maximum. -/
def execWMaxu (core : Fin 1280) (hc : Fin 8) (s : State) : Result :=
  .next (issueRow s core.val hc.val (.s .maxu) PeerTable.empty)

/-- CLZ (R267): The scalar instruction counts leading zeros. -/
def execWClz (core : Fin 1280) (hc : Fin 8) (s : State) : Result :=
  .next (issueRow s core.val hc.val (.s .clz) PeerTable.empty)

/-- POPC (R267): The scalar instruction counts ones. -/
def execWPopc (core : Fin 1280) (hc : Fin 8) (s : State) : Result :=
  .next (issueRow s core.val hc.val (.s .popc) PeerTable.empty)

/-- SEL (R267): The scalar instruction selects one of two registers by a predicate. -/
def execWSel (core : Fin 1280) (hc : Fin 8) (s : State) : Result :=
  .next (issueRow s core.val hc.val (.s .sel) PeerTable.empty)

/-- MUL (R267): The scalar instruction returns the low 64 bits of the product. -/
def execWMul (core : Fin 1280) (hc : Fin 8) (s : State) : Result :=
  .next (issueRow s core.val hc.val (.s .mul) PeerTable.empty)

/-- MULH (R267): The scalar instruction returns the high 64 bits of the signed product. -/
def execWMulh (core : Fin 1280) (hc : Fin 8) (s : State) : Result :=
  .next (issueRow s core.val hc.val (.s .mulh) PeerTable.empty)

/-- MULHU (R267): The scalar instruction returns the high 64 bits of the unsigned product. -/
def execWMulhu (core : Fin 1280) (hc : Fin 8) (s : State) : Result :=
  .next (issueRow s core.val hc.val (.s .mulhu) PeerTable.empty)

/-- DIV (R268): The scalar instruction divides signed, truncating, with defined results for zero and overflow. -/
def execWDiv (core : Fin 1280) (hc : Fin 8) (s : State) : Result :=
  .next (issueRow s core.val hc.val (.s .div) PeerTable.empty)

/-- DIVU (R268): The scalar instruction divides unsigned. -/
def execWDivu (core : Fin 1280) (hc : Fin 8) (s : State) : Result :=
  .next (issueRow s core.val hc.val (.s .divu) PeerTable.empty)

/-- REM (R268): The scalar instruction takes the signed remainder. -/
def execWRem (core : Fin 1280) (hc : Fin 8) (s : State) : Result :=
  .next (issueRow s core.val hc.val (.s .rem_) PeerTable.empty)

/-- REMU (R268): The scalar instruction takes the unsigned remainder. -/
def execWRemu (core : Fin 1280) (hc : Fin 8) (s : State) : Result :=
  .next (issueRow s core.val hc.val (.s .remu) PeerTable.empty)

/-- LI (R267): The scalar instruction loads a sign-extended immediate. -/
def execWLi (core : Fin 1280) (hc : Fin 8) (s : State) : Result :=
  .next (issueRow s core.val hc.val (.s .li) PeerTable.empty)

/-- LUI (R267): The scalar instruction loads the upper 32 bits. -/
def execWLui (core : Fin 1280) (hc : Fin 8) (s : State) : Result :=
  .next (issueRow s core.val hc.val (.s .lui) PeerTable.empty)

/-- CEQ (R267): The compare writes a predicate for equality. -/
def execWCeq (core : Fin 1280) (hc : Fin 8) (s : State) : Result :=
  .next (issueRow s core.val hc.val (.s .ceq) PeerTable.empty)

/-- CNE (R267): The compare writes a predicate for inequality. -/
def execWCne (core : Fin 1280) (hc : Fin 8) (s : State) : Result :=
  .next (issueRow s core.val hc.val (.s .cne) PeerTable.empty)

/-- CLT (R267): The compare writes a predicate for signed less than. -/
def execWClt (core : Fin 1280) (hc : Fin 8) (s : State) : Result :=
  .next (issueRow s core.val hc.val (.s .clt) PeerTable.empty)

/-- CLTU (R267): The compare writes a predicate for unsigned less than. -/
def execWCltu (core : Fin 1280) (hc : Fin 8) (s : State) : Result :=
  .next (issueRow s core.val hc.val (.s .cltu) PeerTable.empty)

/-- CLE (R267): The compare writes a predicate for signed less or equal. -/
def execWCle (core : Fin 1280) (hc : Fin 8) (s : State) : Result :=
  .next (issueRow s core.val hc.val (.s .cle) PeerTable.empty)

/-- CLEU (R267): The compare writes a predicate for unsigned less or equal. -/
def execWCleu (core : Fin 1280) (hc : Fin 8) (s : State) : Result :=
  .next (issueRow s core.val hc.val (.s .cleu) PeerTable.empty)

/-- PAND (R267): The predicate instruction computes AND. -/
def execWPand (core : Fin 1280) (hc : Fin 8) (s : State) : Result :=
  .next (issueRow s core.val hc.val (.s .pand) PeerTable.empty)

/-- POR (R267): The predicate instruction computes OR. -/
def execWPor (core : Fin 1280) (hc : Fin 8) (s : State) : Result :=
  .next (issueRow s core.val hc.val (.s .por) PeerTable.empty)

/-- PXOR (R267): The predicate instruction computes XOR. -/
def execWPxor (core : Fin 1280) (hc : Fin 8) (s : State) : Result :=
  .next (issueRow s core.val hc.val (.s .pxor) PeerTable.empty)

/-- PANDN (R267): The predicate instruction computes AND NOT. -/
def execWPandn (core : Fin 1280) (hc : Fin 8) (s : State) : Result :=
  .next (issueRow s core.val hc.val (.s .pandn) PeerTable.empty)

/-- PFIRST (R267): The predicate instruction sets the first s[RA] bits. -/
def execWPfirst (core : Fin 1280) (hc : Fin 8) (s : State) : Result :=
  .next (issueRow s core.val hc.val (.s .pfirst) PeerTable.empty)

/-- LD8U (R269): The scalar load reads a zero-extended byte. -/
def execWLd8u (core : Fin 1280) (hc : Fin 8) (s : State) : Result :=
  .next (issueRow s core.val hc.val (.s .ld8u) PeerTable.empty)

/-- LD16U (R269): The scalar load reads 16 zero-extended bits. -/
def execWLd16u (core : Fin 1280) (hc : Fin 8) (s : State) : Result :=
  .next (issueRow s core.val hc.val (.s .ld16u) PeerTable.empty)

/-- LD32U (R269): The scalar load reads 32 zero-extended bits. -/
def execWLd32u (core : Fin 1280) (hc : Fin 8) (s : State) : Result :=
  .next (issueRow s core.val hc.val (.s .ld32u) PeerTable.empty)

/-- LD64 (R269): The scalar load reads 64 bits. -/
def execWLd64 (core : Fin 1280) (hc : Fin 8) (s : State) : Result :=
  .next (issueRow s core.val hc.val (.s .ld64) PeerTable.empty)

/-- LD8S (R269): The scalar load reads a sign-extended byte. -/
def execWLd8s (core : Fin 1280) (hc : Fin 8) (s : State) : Result :=
  .next (issueRow s core.val hc.val (.s .ld8s) PeerTable.empty)

/-- LD16S (R269): The scalar load reads 16 sign-extended bits. -/
def execWLd16s (core : Fin 1280) (hc : Fin 8) (s : State) : Result :=
  .next (issueRow s core.val hc.val (.s .ld16s) PeerTable.empty)

/-- LD32S (R269): The scalar load reads 32 sign-extended bits. -/
def execWLd32s (core : Fin 1280) (hc : Fin 8) (s : State) : Result :=
  .next (issueRow s core.val hc.val (.s .ld32s) PeerTable.empty)

/-- ST8 (R269): The scalar store writes a byte. -/
def execWSt8 (core : Fin 1280) (hc : Fin 8) (s : State) : Result :=
  .next (issueRow s core.val hc.val (.s .st8) PeerTable.empty)

/-- ST16 (R269): The scalar store writes 16 bits. -/
def execWSt16 (core : Fin 1280) (hc : Fin 8) (s : State) : Result :=
  .next (issueRow s core.val hc.val (.s .st16) PeerTable.empty)

/-- ST32 (R269): The scalar store writes 32 bits. -/
def execWSt32 (core : Fin 1280) (hc : Fin 8) (s : State) : Result :=
  .next (issueRow s core.val hc.val (.s .st32) PeerTable.empty)

/-- ST64 (R269): The scalar store writes 64 bits. -/
def execWSt64 (core : Fin 1280) (hc : Fin 8) (s : State) : Result :=
  .next (issueRow s core.val hc.val (.s .st64) PeerTable.empty)

/-- LOAD_COMPLETE (R228): Data of a load from outside the core's own Ring store arrives into its register. -/
def execLoadComplete (core : Fin 1280) (hc : Fin 8) (reg : RegRef) (s : State) : Result :=
  .next (whileRunning s (loadComplete s core.val hc.val reg))

end Sys2Proof.Machine
end

