-- ==== Sys2Proof/Machine/RowsSpan.lean ====
section
/-!
DEFINITION. The meanings of the rows of Span links and epochs (16), one per row.
-/

namespace Sys2Proof.Machine

/-- LINK_ENABLE (R462): Enabling SPN_LINK_k starts training of a Span link. -/
def execLinkEnable (link : Fin 8) (s : State) : Result :=
  .next (linkEnableRow s link.val)

/-- LINK_TRAINED (R462): A Span link reaches UP4 or UP3 and sets its credits. The neighbour's module ID, and a lane that is faulty. -/
def execLinkTrained (link : Fin 8) (peer : Nat) (badLane : Option (Fin 4)) (s : State) : Result :=
  .next (linkTrained s link.val peer badLane)

/-- LANE_FAULT (R463): A faulty lane makes the link retrain on three lanes or go DOWN. -/
def execLaneFault (link : Fin 8) (lane : Fin 4) (s : State) : Result :=
  .next (laneFault s link.val lane)

/-- RETRAIN_COMPLETE (R463): A link retrained on three lanes enters UP3 and replays from its last acknowledged flit. Whether the three
lanes trained. -/
def execRetrainComplete (link : Fin 8) (ok : Bool) (s : State) : Result :=
  .next (retrainComplete s link.val ok)

/-- LINK_RETRAIN (R463): Writing SPN_LINK_k.RETRAIN retrains the link on four lanes. -/
def execLinkRetrain (link : Fin 8) (s : State) : Result :=
  .next (linkRetrainRow s link.val)

/-- LINK_SILENCE (R464): A link with no flit for SILENCE_US goes DOWN and broadcasts LINK_DOWN. -/
def execLinkSilence (link : Fin 8) (s : State) : Result :=
  .next (linkSilence s link.val)

/-- RETRY_REQ (R466): A received RETRY_REQ makes the sender resend from the named SEQ, going DOWN after 16 retries without progress. -/
def execRetryReq (link : Fin 8) (seq : Nat) (s : State) : Result :=
  .next (retryReq s link.val seq)

/-- WRITE_REQ (R469): A received write request is forwarded, or translated in context CTX, written and answered with WRITE_RSP. The
virtual channel and the message. -/
def execWriteReq (link : Fin 8) (vc : Fin 5) (m : SpanMsg) (s : State) : Result :=
  .next (writeReq s link.val vc.val m)

/-- READ_REQ (R469): A received read request is translated, read and answered with READ_RSP. The virtual channel and the message. -/
def execReadReq (link : Fin 8) (vc : Fin 5) (m : SpanMsg) (s : State) : Result :=
  .next (readReq s link.val vc.val m)

/-- WRITE_RSP (R469): A write response completes a transfer unit, taking its nonzero status. The virtual channel and the message. -/
def execWriteRsp (link : Fin 8) (vc : Fin 5) (m : SpanMsg) (s : State) : Result :=
  .next (writeRsp s link.val vc.val m)

/-- READ_RSP (R469): A read response delivers a unit's data and status to its transfer. The virtual channel and the message. -/
def execReadRsp (link : Fin 8) (vc : Fin 5) (m : SpanMsg) (s : State) : Result :=
  .next (readRsp s link.val vc.val m)

/-- REQUEST_TIMEOUT (R471): A Span request unanswered within TIMEOUT_US ends its transfer with FABRIC_LOST. -/
def execRequestTimeout (xid : Nat) (s : State) : Result :=
  .next (whileRunning s (requestTimeout s xid))

/-- ROUTE_MOVE (R471): After a link goes DOWN, destinations move to their alternate once old requests are answered or timed out. The
destination and the parity of the route half. -/
def execRouteMove (dst : Fin 64) (parity : Fin 2) (s : State) : Result :=
  .next (routeMove s dst.val parity.val)

/-- LINK_DOWN (R477): A LINK_DOWN control message is recorded and, at the coordinator, may find a module lost and start its eviction. The
header of the message, and the neighbour that the link of its source led to. -/
def execLinkDown (link : Fin 8) (head : CtlHead) (neighbour : Nat) (s : State) : Result :=
  .next (linkDownMsg s link.val head neighbour)

/-- SPAN_HALT (R471): A HALT message pauses request timeouts to its sender and may request a global stop. The header of the message. -/
def execSpanHalt (link : Fin 8) (head : CtlHead) (s : State) : Result :=
  .next (spanHalt s link.val head)

/-- SPAN_RESUME (R471): A RESUME message restarts timeouts to its sender. The header of the message. -/
def execSpanResume (link : Fin 8) (head : CtlHead) (s : State) : Result :=
  .next (spanResume s link.val head)

/-- PREPARE (R475): A received PREPARE writes the route half for the new epoch and answers READY or REFUSE. The header of the message, the
plan, and a module that it evicts or 0xFF. -/
def execPrepare (link : Fin 8) (head : CtlHead) (plan : EpochPlan) (lost : Nat) (s : State) : Result :=
  .next (prepareMsg s link.val head plan lost)

/-- EPOCH_READY (R475): The coordinator collects READY and sends COMMIT when every new member has answered. The header of the message,
which names the epoch. -/
def execEpochReady (link : Fin 8) (head : CtlHead) (s : State) : Result :=
  .next (epochReady s link.val head)

/-- EPOCH_REFUSE (R475): A REFUSE answer makes the coordinator abort the epoch. The header of the message, which names the epoch. -/
def execEpochRefuse (link : Fin 8) (head : CtlHead) (s : State) : Result :=
  .next (epochRefuse s link.val head)

/-- EPOCH_READY_TIMEOUT (R475): Without every READY within 10 ms the coordinator sends ABORT. -/
def execEpochReadyTimeout (s : State) : Result :=
  .next (epochReadyTimeout s)

/-- EPOCH_COMMIT (R475): On COMMIT a module switches to the new epoch at one Bole service cycle. The header of the message, which names
the epoch. -/
def execEpochCommit (link : Fin 8) (head : CtlHead) (s : State) : Result :=
  .next (epochCommit s link.val head)

/-- EPOCH_ABORT (R475): On ABORT the prepared epoch is discarded and nothing changes. The header of the message, which names the epoch. -/
def execEpochAbort (link : Fin 8) (head : CtlHead) (s : State) : Result :=
  .next (epochAbort s link.val head)

/-- EPOCH_CLOSE (R476): GRACE_US after the switch point the old epoch closes and its remaining transfers end with FABRIC_LOST. -/
def execEpochClose (s : State) : Result :=
  .next (whileRunning s (epochClose s))

end Sys2Proof.Machine
end

