-- ==== Sys2Proof/Machine/RowsVector.lean ====
section
/-!
DEFINITION. The meanings of the rows of the vector slot (09), one per row.
-/

namespace Sys2Proof.Machine

/-- VADD (R271): The vector instruction adds elements. -/
def execWVadd (core : Fin 1280) (hc : Fin 8) (s : State) : Result :=
  .next (issueRow s core.val hc.val (.v .add) PeerTable.empty)

/-- VSUB (R271): The vector instruction subtracts elements. -/
def execWVsub (core : Fin 1280) (hc : Fin 8) (s : State) : Result :=
  .next (issueRow s core.val hc.val (.v .sub) PeerTable.empty)

/-- VMUL (R271): The vector instruction multiplies elements. -/
def execWVmul (core : Fin 1280) (hc : Fin 8) (s : State) : Result :=
  .next (issueRow s core.val hc.val (.v .mul) PeerTable.empty)

/-- VFMA (R271): The vector instruction performs fused multiply-add with one rounding. -/
def execWVfma (core : Fin 1280) (hc : Fin 8) (s : State) : Result :=
  .next (issueRow s core.val hc.val (.v .fma) PeerTable.empty)

/-- VMIN (R271): The vector instruction takes element minima. -/
def execWVmin (core : Fin 1280) (hc : Fin 8) (s : State) : Result :=
  .next (issueRow s core.val hc.val (.v .min_) PeerTable.empty)

/-- VMAX (R271): The vector instruction takes element maxima. -/
def execWVmax (core : Fin 1280) (hc : Fin 8) (s : State) : Result :=
  .next (issueRow s core.val hc.val (.v .max_) PeerTable.empty)

/-- VABS (R271): The vector instruction takes absolute values. -/
def execWVabs (core : Fin 1280) (hc : Fin 8) (s : State) : Result :=
  .next (issueRow s core.val hc.val (.v .abs) PeerTable.empty)

/-- VNEG (R271): The vector instruction negates elements. -/
def execWVneg (core : Fin 1280) (hc : Fin 8) (s : State) : Result :=
  .next (issueRow s core.val hc.val (.v .neg) PeerTable.empty)

/-- VAND (R271): The vector instruction computes element AND. -/
def execWVand (core : Fin 1280) (hc : Fin 8) (s : State) : Result :=
  .next (issueRow s core.val hc.val (.v .and_) PeerTable.empty)

/-- VOR (R271): The vector instruction computes element OR. -/
def execWVor (core : Fin 1280) (hc : Fin 8) (s : State) : Result :=
  .next (issueRow s core.val hc.val (.v .or_) PeerTable.empty)

/-- VXOR (R271): The vector instruction computes element XOR. -/
def execWVxor (core : Fin 1280) (hc : Fin 8) (s : State) : Result :=
  .next (issueRow s core.val hc.val (.v .xor_) PeerTable.empty)

/-- VSHL (R271): The vector instruction shifts elements left. -/
def execWVshl (core : Fin 1280) (hc : Fin 8) (s : State) : Result :=
  .next (issueRow s core.val hc.val (.v .shl) PeerTable.empty)

/-- VSHR (R271): The vector instruction shifts elements right logically. -/
def execWVshr (core : Fin 1280) (hc : Fin 8) (s : State) : Result :=
  .next (issueRow s core.val hc.val (.v .shr) PeerTable.empty)

/-- VSAR (R271): The vector instruction shifts elements right arithmetically. -/
def execWVsar (core : Fin 1280) (hc : Fin 8) (s : State) : Result :=
  .next (issueRow s core.val hc.val (.v .sar) PeerTable.empty)

/-- VCEQ (R271): The vector compare writes predicate bits for equality. -/
def execWVceq (core : Fin 1280) (hc : Fin 8) (s : State) : Result :=
  .next (issueRow s core.val hc.val (.v .ceq) PeerTable.empty)

/-- VCLT (R271): The vector compare writes predicate bits for less than. -/
def execWVclt (core : Fin 1280) (hc : Fin 8) (s : State) : Result :=
  .next (issueRow s core.val hc.val (.v .clt) PeerTable.empty)

/-- VCLE (R271): The vector compare writes predicate bits for less or equal. -/
def execWVcle (core : Fin 1280) (hc : Fin 8) (s : State) : Result :=
  .next (issueRow s core.val hc.val (.v .cle) PeerTable.empty)

/-- VSEL (R271): The vector instruction selects elements by predicate. -/
def execWVsel (core : Fin 1280) (hc : Fin 8) (s : State) : Result :=
  .next (issueRow s core.val hc.val (.v .sel) PeerTable.empty)

/-- VCVT (R273): The vector instruction converts a part of the elements to a target format. -/
def execWVcvt (core : Fin 1280) (hc : Fin 8) (s : State) : Result :=
  .next (issueRow s core.val hc.val (.v .cvt) PeerTable.empty)

/-- VBCAST (R271): The vector instruction broadcasts a scalar to every element. -/
def execWVbcast (core : Fin 1280) (hc : Fin 8) (s : State) : Result :=
  .next (issueRow s core.val hc.val (.v .bcast) PeerTable.empty)

/-- VEXT (R271): The vector instruction extracts an element to a scalar register. -/
def execWVext (core : Fin 1280) (hc : Fin 8) (s : State) : Result :=
  .next (issueRow s core.val hc.val (.v .ext) PeerTable.empty)

/-- VINS (R271): The vector instruction inserts a scalar into one element. -/
def execWVins (core : Fin 1280) (hc : Fin 8) (s : State) : Result :=
  .next (issueRow s core.val hc.val (.v .ins) PeerTable.empty)

/-- VPERM (R271): The vector instruction permutes bytes. -/
def execWVperm (core : Fin 1280) (hc : Fin 8) (s : State) : Result :=
  .next (issueRow s core.val hc.val (.v .perm) PeerTable.empty)

/-- VRSUM (R274): The vector instruction reduces elements by sum in a fixed tree. -/
def execWVrsum (core : Fin 1280) (hc : Fin 8) (s : State) : Result :=
  .next (issueRow s core.val hc.val (.v .rsum) PeerTable.empty)

/-- VRMAX (R274): The vector instruction reduces elements by maximum. -/
def execWVrmax (core : Fin 1280) (hc : Fin 8) (s : State) : Result :=
  .next (issueRow s core.val hc.val (.v .rmax) PeerTable.empty)

/-- VRMIN (R274): The vector instruction reduces elements by minimum. -/
def execWVrmin (core : Fin 1280) (hc : Fin 8) (s : State) : Result :=
  .next (issueRow s core.val hc.val (.v .rmin) PeerTable.empty)

/-- VEXP2 (R349): The function unit computes 2^a. -/
def execWVexp2 (core : Fin 1280) (hc : Fin 8) (s : State) : Result :=
  .next (issueRow s core.val hc.val (.v .exp2) PeerTable.empty)

/-- VLOG2 (R349): The function unit computes log2 a. -/
def execWVlog2 (core : Fin 1280) (hc : Fin 8) (s : State) : Result :=
  .next (issueRow s core.val hc.val (.v .log2) PeerTable.empty)

/-- VRCP (R349): The function unit computes a reciprocal. -/
def execWVrcp (core : Fin 1280) (hc : Fin 8) (s : State) : Result :=
  .next (issueRow s core.val hc.val (.v .rcp) PeerTable.empty)

/-- VRSQRT (R349): The function unit computes a reciprocal square root. -/
def execWVrsqrt (core : Fin 1280) (hc : Fin 8) (s : State) : Result :=
  .next (issueRow s core.val hc.val (.v .rsqrt) PeerTable.empty)

/-- VTANH (R349): The function unit computes tanh. -/
def execWVtanh (core : Fin 1280) (hc : Fin 8) (s : State) : Result :=
  .next (issueRow s core.val hc.val (.v .tanh) PeerTable.empty)

/-- VSIGM (R349): The function unit computes the logistic sigmoid. -/
def execWVsigm (core : Fin 1280) (hc : Fin 8) (s : State) : Result :=
  .next (issueRow s core.val hc.val (.v .sigm) PeerTable.empty)

/-- VLD (R271): The vector load reads 128 bytes into enabled lanes. -/
def execWVld (core : Fin 1280) (hc : Fin 8) (s : State) : Result :=
  .next (issueRow s core.val hc.val (.v .ld) PeerTable.empty)

/-- VST (R271): The vector store writes the bytes of enabled elements. -/
def execWVst (core : Fin 1280) (hc : Fin 8) (s : State) : Result :=
  .next (issueRow s core.val hc.val (.v .st) PeerTable.empty)

end Sys2Proof.Machine
end

