-- ==== Sys2Proof/Machine/Dispatch.lean ====
section
/-!
DEFINITION. Which meaning each row of the table has.
-/

namespace Sys2Proof.Machine

def exec (i : Instr) (s : State) : Host.Outcome State Fault Refusal :=
  match i with
  | .frameStart lport => Sys2Proof.Machine.execFrameStart lport s
  | .oversizeDiscard lport => Sys2Proof.Machine.execOversizeDiscard lport s
  | .frameEnd lport frame fcsOk truncated ecc => Sys2Proof.Machine.execFrameEnd lport frame fcsOk truncated ecc s
  | .commandPortFrame port frame fcsOk truncated ecc => Sys2Proof.Machine.execCommandPortFrame port frame fcsOk truncated ecc s
  | .portLinkChange lport up => Sys2Proof.Machine.execPortLinkChange lport up s
  | .portEnable lport => Sys2Proof.Machine.execPortEnable lport s
  | .parseAccept pipe => Sys2Proof.Machine.execParseAccept pipe s
  | .flowKeyComplete pipe => Sys2Proof.Machine.execFlowKeyComplete pipe s
  | .prefetchLand pipe => Sys2Proof.Machine.execPrefetchLand pipe s
  | .flowLookupAnswer packet bad1 bad2 => Sys2Proof.Machine.execFlowLookupAnswer packet bad1 bad2 s
  | .filterExpiry pipe => Sys2Proof.Machine.execFilterExpiry pipe s
  | .flowRecordEnqueue pipe => Sys2Proof.Machine.execFlowRecordEnqueue pipe s
  | .firstPassEntry pipe => Sys2Proof.Machine.execFirstPassEntry pipe s
  | .t2Admit pipe => Sys2Proof.Machine.execT2Admit pipe s
  | .passEnd pipe second => Sys2Proof.Machine.execPassEnd pipe second s
  | .pinnedWriteApply table => Sys2Proof.Machine.execPinnedWriteApply table s
  | .groveEntry pipe => Sys2Proof.Machine.execGroveEntry pipe s
  | .groveVerdict packet error => Sys2Proof.Machine.execGroveVerdict packet error s
  | .tokenDispatch pipe => Sys2Proof.Machine.execTokenDispatch pipe s
  | .verdictRead queue => Sys2Proof.Machine.execVerdictRead queue s
  | .deadlineTest pipe entry => Sys2Proof.Machine.execDeadlineTest pipe entry s
  | .secondPassEntry packet => Sys2Proof.Machine.execSecondPassEntry packet s
  | .egress packet => Sys2Proof.Machine.execEgress packet s
  | .completionSend session => Sys2Proof.Machine.execCompletionSend session s
  | .recordSend cls => Sys2Proof.Machine.execRecordSend cls s
  | .nop f => Sys2Proof.Machine.execNop f s
  | .sessionOpen f => Sys2Proof.Machine.execSessionOpen f s
  | .sessionClaim f => Sys2Proof.Machine.execSessionClaim f s
  | .sessionClose f => Sys2Proof.Machine.execSessionClose f s
  | .sessionTimeout session => Sys2Proof.Machine.execSessionTimeout session s
  | .stateGet f => Sys2Proof.Machine.execStateGet f s
  | .regRead f => Sys2Proof.Machine.execRegRead f s
  | .regWrite f => Sys2Proof.Machine.execRegWrite f s
  | .lock block inst => Sys2Proof.Machine.execLock block inst s
  | .memRead f => Sys2Proof.Machine.execMemRead f s
  | .memWrite f => Sys2Proof.Machine.execMemWrite f s
  | .start f => Sys2Proof.Machine.execStart f s
  | .drain f => Sys2Proof.Machine.execDrain f s
  | .drainComplete => Sys2Proof.Machine.execDrainComplete s
  | .stop f => Sys2Proof.Machine.execStop f s
  | .resume f => Sys2Proof.Machine.execResume f s
  | .maintEnter f => Sys2Proof.Machine.execMaintEnter f s
  | .maintExit f => Sys2Proof.Machine.execMaintExit f s
  | .reset f => Sys2Proof.Machine.execReset f s
  | .moduleReset cause => Sys2Proof.Machine.execModuleReset cause s
  | .modeSet f => Sys2Proof.Machine.execModeSet f s
  | .modeTakesEffect mode => Sys2Proof.Machine.execModeTakesEffect mode s
  | .modeGet f => Sys2Proof.Machine.execModeGet f s
  | .subscribe f => Sys2Proof.Machine.execSubscribe f s
  | .ruleDefine f => Sys2Proof.Machine.execRuleDefine f s
  | .ruleInsert f => Sys2Proof.Machine.execRuleInsert f s
  | .ruleDelete f => Sys2Proof.Machine.execRuleDelete f s
  | .ruleSetDefault f => Sys2Proof.Machine.execRuleSetDefault f s
  | .ruleUndefine f => Sys2Proof.Machine.execRuleUndefine f s
  | .ruleSwap f => Sys2Proof.Machine.execRuleSwap f s
  | .flowRead f => Sys2Proof.Machine.execFlowRead f s
  | .flowDelete f => Sys2Proof.Machine.execFlowDelete f s
  | .run f => Sys2Proof.Machine.execRun f s
  | .slotRead f => Sys2Proof.Machine.execSlotRead f s
  | .slotRelease f => Sys2Proof.Machine.execSlotRelease f s
  | .cancelComplete slot => Sys2Proof.Machine.execCancelComplete slot s
  | .slotTtlExpiry slot => Sys2Proof.Machine.execSlotTtlExpiry slot s
  | .unknownOpcode f => Sys2Proof.Machine.execUnknownOpcode f s
  | .imageBegin f => Sys2Proof.Machine.execImageBegin f s
  | .imageData f media => Sys2Proof.Machine.execImageData f media s
  | .imageFinish f => Sys2Proof.Machine.execImageFinish f s
  | .imageDelete f => Sys2Proof.Machine.execImageDelete f s
  | .activateGrove f => Sys2Proof.Machine.execActivateGrove f s
  | .activateTier2 f => Sys2Proof.Machine.execActivateTier2 f s
  | .activateTier3 f => Sys2Proof.Machine.execActivateTier3 f s
  | .activateUnload f => Sys2Proof.Machine.execActivateUnload f s
  | .unloadComplete slot => Sys2Proof.Machine.execUnloadComplete slot s
  | .gateRelease pipe queue => Sys2Proof.Machine.execGateRelease pipe queue s
  | .firmwareBegin f => Sys2Proof.Machine.execFirmwareBegin f s
  | .firmwareData f media => Sys2Proof.Machine.execFirmwareData f media s
  | .firmwareFinish f => Sys2Proof.Machine.execFirmwareFinish f s
  | .firmwareActivate f => Sys2Proof.Machine.execFirmwareActivate f s
  | .flashRead f media => Sys2Proof.Machine.execFlashRead f media s
  | .flashWrite f media => Sys2Proof.Machine.execFlashWrite f media s
  | .flashErase f => Sys2Proof.Machine.execFlashErase f s
  | .attestQuote f => Sys2Proof.Machine.execAttestQuote f s
  | .auditRead f => Sys2Proof.Machine.execAuditRead f s
  | .counterRead f => Sys2Proof.Machine.execCounterRead f s
  | .traceEnable f => Sys2Proof.Machine.execTraceEnable f s
  | .traceDisable f => Sys2Proof.Machine.execTraceDisable f s
  | .traceMarker f => Sys2Proof.Machine.execTraceMarker f s
  | .scanOut f => Sys2Proof.Machine.execScanOut f s
  | .spanAttach f => Sys2Proof.Machine.execSpanAttach f s
  | .spanEpoch f => Sys2Proof.Machine.execSpanEpoch f s
  | .spanDetach f => Sys2Proof.Machine.execSpanDetach f s
  | .spanQuery f => Sys2Proof.Machine.execSpanQuery f s
  | .appLoad f => Sys2Proof.Machine.execAppLoad f s
  | .appUnload f => Sys2Proof.Machine.execAppUnload f s
  | .powerUp mv => Sys2Proof.Machine.execPowerUp mv s
  | .resetRelease => Sys2Proof.Machine.execResetRelease s
  | .secureBoot => Sys2Proof.Machine.execSecureBoot s
  | .inputRange mv => Sys2Proof.Machine.execInputRange mv s
  | .powerGoodLoss cause => Sys2Proof.Machine.execPowerGoodLoss cause s
  | .phaseShed rail => Sys2Proof.Machine.execPhaseShed rail s
  | .capControl mv ca dw => Sys2Proof.Machine.execCapControl mv ca dw s
  | .limbThrottle limb temp => Sys2Proof.Machine.execLimbThrottle limb temp s
  | .thermalShutdown sensor temp => Sys2Proof.Machine.execThermalShutdown sensor temp s
  | .hbmThermal stack temp => Sys2Proof.Machine.execHbmThermal stack temp s
  | .readVin => Sys2Proof.Machine.execReadVin s
  | .readIin => Sys2Proof.Machine.execReadIin s
  | .readTemperature1 => Sys2Proof.Machine.execReadTemperature1 s
  | .readPin => Sys2Proof.Machine.execReadPin s
  | .extest data => Sys2Proof.Machine.execExtest data s
  | .idcode => Sys2Proof.Machine.execIdcode s
  | .samplePreload data => Sys2Proof.Machine.execSamplePreload data s
  | .scanRead body => Sys2Proof.Machine.execScanRead body s
  | .bypass code data => Sys2Proof.Machine.execBypass code data s
  | .openRetry queue => Sys2Proof.Machine.execOpenRetry queue s
  | .portOpen crown queue v => Sys2Proof.Machine.execPortOpen crown queue v s
  | .portPush crown queue stage v flip => Sys2Proof.Machine.execPortPush crown queue stage v flip s
  | .portCommit crown queue => Sys2Proof.Machine.execPortCommit crown queue s
  | .portAbort crown queue => Sys2Proof.Machine.execPortAbort crown queue s
  | .portRead crown queue flag flip => Sys2Proof.Machine.execPortRead crown queue flag flip s
  | .portMark crown queue => Sys2Proof.Machine.execPortMark crown queue s
  | .portRewind crown queue => Sys2Proof.Machine.execPortRewind crown queue s
  | .portRelease crown queue => Sys2Proof.Machine.execPortRelease crown queue s
  | .flush queue => Sys2Proof.Machine.execFlush queue s
  | .heartwoodScrub ce ue => Sys2Proof.Machine.execHeartwoodScrub ce ue s
  | .lockRead crown pipe bucket1 bucket2 => Sys2Proof.Machine.execLockRead crown pipe bucket1 bucket2 s
  | .flowDmaRead crown pipe bucket => Sys2Proof.Machine.execFlowDmaRead crown pipe bucket s
  | .writeSlot crown pipe bucket slot token low high result => Sys2Proof.Machine.execWriteSlot crown pipe bucket slot token low high result s
  | .publish crown pipe bucket slot token => Sys2Proof.Machine.execPublish crown pipe bucket slot token s
  | .invalidate crown pipe bucket slot token => Sys2Proof.Machine.execInvalidate crown pipe bucket slot token s
  | .unlock crown pipe bucket1 bucket2 token digest1 digest2 => Sys2Proof.Machine.execUnlock crown pipe bucket1 bucket2 token digest1 digest2 s
  | .leaseExpiry pipe => Sys2Proof.Machine.execLeaseExpiry pipe s
  | .agingVisit pipe bucket => Sys2Proof.Machine.execAgingVisit pipe bucket s
  | .shadowCompare pipe bucket => Sys2Proof.Machine.execShadowCompare pipe bucket s
  | .routeWrite route v => Sys2Proof.Machine.execRouteWrite route v s
  | .groveScrub ce ue => Sys2Proof.Machine.execGroveScrub ce ue s
  | .writeLeaf slot part off v => Sys2Proof.Machine.execWriteLeaf slot part off v s
  | .writeWord slice off v => Sys2Proof.Machine.execWriteWord slice off v s
  | .arm stamp flips t2 => Sys2Proof.Machine.execArm stamp flips t2 s
  | .tendReady => Sys2Proof.Machine.execTendReady s
  | .tendingBoundary => Sys2Proof.Machine.execTendingBoundary s
  | .watermark pipe => Sys2Proof.Machine.execWatermark pipe s
  | .wAdd core hc => Sys2Proof.Machine.execWAdd core hc s
  | .wSub core hc => Sys2Proof.Machine.execWSub core hc s
  | .wAnd core hc => Sys2Proof.Machine.execWAnd core hc s
  | .wOr core hc => Sys2Proof.Machine.execWOr core hc s
  | .wXor core hc => Sys2Proof.Machine.execWXor core hc s
  | .wShl core hc => Sys2Proof.Machine.execWShl core hc s
  | .wShr core hc => Sys2Proof.Machine.execWShr core hc s
  | .wSar core hc => Sys2Proof.Machine.execWSar core hc s
  | .wMin core hc => Sys2Proof.Machine.execWMin core hc s
  | .wMax core hc => Sys2Proof.Machine.execWMax core hc s
  | .wMinu core hc => Sys2Proof.Machine.execWMinu core hc s
  | .wMaxu core hc => Sys2Proof.Machine.execWMaxu core hc s
  | .wClz core hc => Sys2Proof.Machine.execWClz core hc s
  | .wPopc core hc => Sys2Proof.Machine.execWPopc core hc s
  | .wSel core hc => Sys2Proof.Machine.execWSel core hc s
  | .wMul core hc => Sys2Proof.Machine.execWMul core hc s
  | .wMulh core hc => Sys2Proof.Machine.execWMulh core hc s
  | .wMulhu core hc => Sys2Proof.Machine.execWMulhu core hc s
  | .wDiv core hc => Sys2Proof.Machine.execWDiv core hc s
  | .wDivu core hc => Sys2Proof.Machine.execWDivu core hc s
  | .wRem core hc => Sys2Proof.Machine.execWRem core hc s
  | .wRemu core hc => Sys2Proof.Machine.execWRemu core hc s
  | .wLi core hc => Sys2Proof.Machine.execWLi core hc s
  | .wLui core hc => Sys2Proof.Machine.execWLui core hc s
  | .wCeq core hc => Sys2Proof.Machine.execWCeq core hc s
  | .wCne core hc => Sys2Proof.Machine.execWCne core hc s
  | .wClt core hc => Sys2Proof.Machine.execWClt core hc s
  | .wCltu core hc => Sys2Proof.Machine.execWCltu core hc s
  | .wCle core hc => Sys2Proof.Machine.execWCle core hc s
  | .wCleu core hc => Sys2Proof.Machine.execWCleu core hc s
  | .wPand core hc => Sys2Proof.Machine.execWPand core hc s
  | .wPor core hc => Sys2Proof.Machine.execWPor core hc s
  | .wPxor core hc => Sys2Proof.Machine.execWPxor core hc s
  | .wPandn core hc => Sys2Proof.Machine.execWPandn core hc s
  | .wPfirst core hc => Sys2Proof.Machine.execWPfirst core hc s
  | .wLd8u core hc => Sys2Proof.Machine.execWLd8u core hc s
  | .wLd16u core hc => Sys2Proof.Machine.execWLd16u core hc s
  | .wLd32u core hc => Sys2Proof.Machine.execWLd32u core hc s
  | .wLd64 core hc => Sys2Proof.Machine.execWLd64 core hc s
  | .wLd8s core hc => Sys2Proof.Machine.execWLd8s core hc s
  | .wLd16s core hc => Sys2Proof.Machine.execWLd16s core hc s
  | .wLd32s core hc => Sys2Proof.Machine.execWLd32s core hc s
  | .wSt8 core hc => Sys2Proof.Machine.execWSt8 core hc s
  | .wSt16 core hc => Sys2Proof.Machine.execWSt16 core hc s
  | .wSt32 core hc => Sys2Proof.Machine.execWSt32 core hc s
  | .wSt64 core hc => Sys2Proof.Machine.execWSt64 core hc s
  | .loadComplete core hc reg => Sys2Proof.Machine.execLoadComplete core hc reg s
  | .wVadd core hc => Sys2Proof.Machine.execWVadd core hc s
  | .wVsub core hc => Sys2Proof.Machine.execWVsub core hc s
  | .wVmul core hc => Sys2Proof.Machine.execWVmul core hc s
  | .wVfma core hc => Sys2Proof.Machine.execWVfma core hc s
  | .wVmin core hc => Sys2Proof.Machine.execWVmin core hc s
  | .wVmax core hc => Sys2Proof.Machine.execWVmax core hc s
  | .wVabs core hc => Sys2Proof.Machine.execWVabs core hc s
  | .wVneg core hc => Sys2Proof.Machine.execWVneg core hc s
  | .wVand core hc => Sys2Proof.Machine.execWVand core hc s
  | .wVor core hc => Sys2Proof.Machine.execWVor core hc s
  | .wVxor core hc => Sys2Proof.Machine.execWVxor core hc s
  | .wVshl core hc => Sys2Proof.Machine.execWVshl core hc s
  | .wVshr core hc => Sys2Proof.Machine.execWVshr core hc s
  | .wVsar core hc => Sys2Proof.Machine.execWVsar core hc s
  | .wVceq core hc => Sys2Proof.Machine.execWVceq core hc s
  | .wVclt core hc => Sys2Proof.Machine.execWVclt core hc s
  | .wVcle core hc => Sys2Proof.Machine.execWVcle core hc s
  | .wVsel core hc => Sys2Proof.Machine.execWVsel core hc s
  | .wVcvt core hc => Sys2Proof.Machine.execWVcvt core hc s
  | .wVbcast core hc => Sys2Proof.Machine.execWVbcast core hc s
  | .wVext core hc => Sys2Proof.Machine.execWVext core hc s
  | .wVins core hc => Sys2Proof.Machine.execWVins core hc s
  | .wVperm core hc => Sys2Proof.Machine.execWVperm core hc s
  | .wVrsum core hc => Sys2Proof.Machine.execWVrsum core hc s
  | .wVrmax core hc => Sys2Proof.Machine.execWVrmax core hc s
  | .wVrmin core hc => Sys2Proof.Machine.execWVrmin core hc s
  | .wVexp2 core hc => Sys2Proof.Machine.execWVexp2 core hc s
  | .wVlog2 core hc => Sys2Proof.Machine.execWVlog2 core hc s
  | .wVrcp core hc => Sys2Proof.Machine.execWVrcp core hc s
  | .wVrsqrt core hc => Sys2Proof.Machine.execWVrsqrt core hc s
  | .wVtanh core hc => Sys2Proof.Machine.execWVtanh core hc s
  | .wVsigm core hc => Sys2Proof.Machine.execWVsigm core hc s
  | .wVld core hc => Sys2Proof.Machine.execWVld core hc s
  | .wVst core hc => Sys2Proof.Machine.execWVst core hc s
  | .wMshape core hc => Sys2Proof.Machine.execWMshape core hc s
  | .wMlw core hc => Sys2Proof.Machine.execWMlw core hc s
  | .wMmb core hc => Sys2Proof.Machine.execWMmb core hc s
  | .wMms core hc => Sys2Proof.Machine.execWMms core hc s
  | .wMew core hc => Sys2Proof.Machine.execWMew core hc s
  | .wMst core hc => Sys2Proof.Machine.execWMst core hc s
  | .wMla core hc => Sys2Proof.Machine.execWMla core hc s
  | .wMzero core hc => Sys2Proof.Machine.execWMzero core hc s
  | .wMxwait core hc => Sys2Proof.Machine.execWMxwait core hc s
  | .wMxtest core hc => Sys2Proof.Machine.execWMxtest core hc s
  | .wMxclr core hc => Sys2Proof.Machine.execWMxclr core hc s
  | .passCheck core array slice errors => Sys2Proof.Machine.execPassCheck core array slice errors s
  | .recomputation core array slice errors => Sys2Proof.Machine.execRecomputation core array slice errors s
  | .spareRecomputation core array slice errors => Sys2Proof.Machine.execSpareRecomputation core array slice errors s
  | .retirementRecordWrite => Sys2Proof.Machine.execRetirementRecordWrite s
  | .bistStart core array => Sys2Proof.Machine.execBistStart core array s
  | .bistResult core array ok => Sys2Proof.Machine.execBistResult core array ok s
  | .bistOverdue core array => Sys2Proof.Machine.execBistOverdue core array s
  | .bistRequest core => Sys2Proof.Machine.execBistRequest core s
  | .wMcopy core hc => Sys2Proof.Machine.execWMcopy core hc s
  | .wMtrans core hc => Sys2Proof.Machine.execWMtrans core hc s
  | .wMgather core hc => Sys2Proof.Machine.execWMgather core hc s
  | .wMscatter core hc => Sys2Proof.Machine.execWMscatter core hc s
  | .wMfill core hc => Sys2Proof.Machine.execWMfill core hc s
  | .wMput core hc table => Sys2Proof.Machine.execWMput core hc table s
  | .wMget core hc table => Sys2Proof.Machine.execWMget core hc table s
  | .wMwait core hc => Sys2Proof.Machine.execWMwait core hc s
  | .wMtest core hc => Sys2Proof.Machine.execWMtest core hc s
  | .wTld core hc => Sys2Proof.Machine.execWTld core hc s
  | .wTst core hc => Sys2Proof.Machine.execWTst core hc s
  | .wTmov core hc => Sys2Proof.Machine.execWTmov core hc s
  | .wTaddb core hc => Sys2Proof.Machine.execWTaddb core hc s
  | .transferEnd core hc tag => Sys2Proof.Machine.execTransferEnd core hc tag s
  | .wBr core hc => Sys2Proof.Machine.execWBr core hc s
  | .wJr core hc => Sys2Proof.Machine.execWJr core hc s
  | .wCall core hc => Sys2Proof.Machine.execWCall core hc s
  | .wCallr core hc => Sys2Proof.Machine.execWCallr core hc s
  | .wLoop core hc => Sys2Proof.Machine.execWLoop core hc s
  | .wExit core hc => Sys2Proof.Machine.execWExit core hc s
  | .wTrap core hc => Sys2Proof.Machine.execWTrap core hc s
  | .wBreak core hc => Sys2Proof.Machine.execWBreak core hc s
  | .wFence core hc => Sys2Proof.Machine.execWFence core hc s
  | .wIfence core hc => Sys2Proof.Machine.execWIfence core hc s
  | .wCrd core hc => Sys2Proof.Machine.execWCrd core hc s
  | .wCwr core hc => Sys2Proof.Machine.execWCwr core hc s
  | .wSettag core hc => Sys2Proof.Machine.execWSettag core hc s
  | .wClaim core hc => Sys2Proof.Machine.execWClaim core hc s
  | .wRelease core hc => Sys2Proof.Machine.execWRelease core hc s
  | .claimGrant core => Sys2Proof.Machine.execClaimGrant core s
  | .wQsel core hc => Sys2Proof.Machine.execWQsel core hc s
  | .wQopen core hc => Sys2Proof.Machine.execWQopen core hc s
  | .wQpush core hc => Sys2Proof.Machine.execWQpush core hc s
  | .wQpushv core hc => Sys2Proof.Machine.execWQpushv core hc s
  | .wQcommit core hc => Sys2Proof.Machine.execWQcommit core hc s
  | .wQabort core hc => Sys2Proof.Machine.execWQabort core hc s
  | .wQread core hc => Sys2Proof.Machine.execWQread core hc s
  | .wQreadv core hc => Sys2Proof.Machine.execWQreadv core hc s
  | .wQmark core hc => Sys2Proof.Machine.execWQmark core hc s
  | .wQrewind core hc => Sys2Proof.Machine.execWQrewind core hc s
  | .wQrelease core hc => Sys2Proof.Machine.execWQrelease core hc s
  | .runAheadEntry core hc bundles => Sys2Proof.Machine.execRunAheadEntry core hc bundles s
  | .runAheadExit core hc => Sys2Proof.Machine.execRunAheadExit core hc s
  | .quantumExpiry core waiter => Sys2Proof.Machine.execQuantumExpiry core waiter s
  | .preemptionComplete core hc units => Sys2Proof.Machine.execPreemptionComplete core hc units s
  | .restore core tables => Sys2Proof.Machine.execRestore core tables s
  | .ringScrub core ce ue => Sys2Proof.Machine.execRingScrub core ce ue s
  | .place core frame image stores set born tables => Sys2Proof.Machine.execPlace core frame image stores set born tables s
  | .exportFrame core frame => Sys2Proof.Machine.execExportFrame core frame s
  | .freeFrame core frame => Sys2Proof.Machine.execFreeFrame core frame s
  | .evacDone core base done => Sys2Proof.Machine.execEvacDone core base done s
  | .faultRingRd core rd => Sys2Proof.Machine.execFaultRingRd core rd s
  | .retry core fseq stores table => Sys2Proof.Machine.execRetry core fseq stores table s
  | .refuseXlate core fseq => Sys2Proof.Machine.execRefuseXlate core fseq s
  | .refuseProt core fseq => Sys2Proof.Machine.execRefuseProt core fseq s
  | .invalAddress ctx va stores => Sys2Proof.Machine.execInvalAddress ctx va stores s
  | .invalContext ctx stores born => Sys2Proof.Machine.execInvalContext ctx stores born s
  | .invalAll stores => Sys2Proof.Machine.execInvalAll stores s
  | .invalidationComplete => Sys2Proof.Machine.execInvalidationComplete s
  | .refresh stack => Sys2Proof.Machine.execRefresh stack s
  | .hbmScrub stack ce ue => Sys2Proof.Machine.execHbmScrub stack ce ue s
  | .pcRetirement stack pc cause => Sys2Proof.Machine.execPcRetirement stack pc cause s
  | .hbmRetire stack pc => Sys2Proof.Machine.execHbmRetire stack pc s
  | .rebuildComplete stack lost => Sys2Proof.Machine.execRebuildComplete stack lost s
  | .mirrorEnable stack range base size => Sys2Proof.Machine.execMirrorEnable stack range base size s
  | .mirrorSync stack range => Sys2Proof.Machine.execMirrorSync stack range s
  | .linkEnable link => Sys2Proof.Machine.execLinkEnable link s
  | .linkTrained link peer badLane => Sys2Proof.Machine.execLinkTrained link peer badLane s
  | .laneFault link lane => Sys2Proof.Machine.execLaneFault link lane s
  | .retrainComplete link ok => Sys2Proof.Machine.execRetrainComplete link ok s
  | .linkRetrain link => Sys2Proof.Machine.execLinkRetrain link s
  | .linkSilence link => Sys2Proof.Machine.execLinkSilence link s
  | .retryReq link seq => Sys2Proof.Machine.execRetryReq link seq s
  | .writeReq link vc m => Sys2Proof.Machine.execWriteReq link vc m s
  | .readReq link vc m => Sys2Proof.Machine.execReadReq link vc m s
  | .writeRsp link vc m => Sys2Proof.Machine.execWriteRsp link vc m s
  | .readRsp link vc m => Sys2Proof.Machine.execReadRsp link vc m s
  | .requestTimeout xid => Sys2Proof.Machine.execRequestTimeout xid s
  | .routeMove dst parity => Sys2Proof.Machine.execRouteMove dst parity s
  | .linkDown link head neighbour => Sys2Proof.Machine.execLinkDown link head neighbour s
  | .spanHalt link head => Sys2Proof.Machine.execSpanHalt link head s
  | .spanResume link head => Sys2Proof.Machine.execSpanResume link head s
  | .prepare link head plan lost => Sys2Proof.Machine.execPrepare link head plan lost s
  | .epochReady link head => Sys2Proof.Machine.execEpochReady link head s
  | .epochRefuse link head => Sys2Proof.Machine.execEpochRefuse link head s
  | .epochReadyTimeout => Sys2Proof.Machine.execEpochReadyTimeout s
  | .epochCommit link head => Sys2Proof.Machine.execEpochCommit link head s
  | .epochAbort link head => Sys2Proof.Machine.execEpochAbort link head s
  | .epochClose => Sys2Proof.Machine.execEpochClose s
  | .evqRd rd => Sys2Proof.Machine.execEvqRd rd s
  | .kick crown => Sys2Proof.Machine.execKick crown s
  | .watchdog crown replays => Sys2Proof.Machine.execWatchdog crown replays s
  | .machineCheck crown replays => Sys2Proof.Machine.execMachineCheck crown replays s
  | .coreRelease crown => Sys2Proof.Machine.execCoreRelease crown s
  | .captureAppend crown data => Sys2Proof.Machine.execCaptureAppend crown data s
  | .dieLoss die => Sys2Proof.Machine.execDieLoss die s
  | .stripeRebuildComplete => Sys2Proof.Machine.execStripeRebuildComplete s
  | .flashScrub media ue reloc => Sys2Proof.Machine.execFlashScrub media ue reloc s
  | .wearLevelling avg max spread spent => Sys2Proof.Machine.execWearLevelling avg max spread spent s
  | .trsRelease => Sys2Proof.Machine.execTrsRelease s
  | .rotate slot => Sys2Proof.Machine.execRotate slot s
  | .opkeyEnable slot on => Sys2Proof.Machine.execOpkeyEnable slot on s
  | .save => Sys2Proof.Machine.execSave s
  | .factory => Sys2Proof.Machine.execFactory s
  | .auditDrain => Sys2Proof.Machine.execAuditDrain s
  | .auditSummary => Sys2Proof.Machine.execAuditSummary s
  | .countSend core => Sys2Proof.Machine.execCountSend core s
  | .commandBoundary set go => Sys2Proof.Machine.execCommandBoundary set go s
  | .pcSample core hc issued => Sys2Proof.Machine.execPcSample core hc issued s
  | .chaifFrameSend records => Sys2Proof.Machine.execChaifFrameSend records s
  | .traceFallbackSend => Sys2Proof.Machine.execTraceFallbackSend s
  | .globalStop => Sys2Proof.Machine.execGlobalStop s
  | .cutComplete => Sys2Proof.Machine.execCutComplete s
  | .dbgContinue core hc => Sys2Proof.Machine.execDbgContinue core hc s
  | .dbgStep core hc => Sys2Proof.Machine.execDbgStep core hc s
  | .dbgDump core hc va => Sys2Proof.Machine.execDbgDump core hc va s
  | .commandPortLinkChange port up => Sys2Proof.Machine.execCommandPortLinkChange port up s
  | .chaifLinkChange up => Sys2Proof.Machine.execChaifLinkChange up s
  | .highSymbolErrorRate lport on => Sys2Proof.Machine.execHighSymbolErrorRate lport on s
  | .flitCrcFailure link => Sys2Proof.Machine.execFlitCrcFailure link s
  | .ackAndCredit link ack vc n => Sys2Proof.Machine.execAckAndCredit link ack vc n s
  | .bundleCacheFill core hc => Sys2Proof.Machine.execBundleCacheFill core hc s
  | .suspendedTransfer core hc tag => Sys2Proof.Machine.execSuspendedTransfer core hc tag s

end Sys2Proof.Machine
end

