-- ==== Sys2Proof/Machine/Step.lean ====
section
/-!
DEFINITION. One step of the block: the command at the front of the queue runs; on an empty queue the block idles for one tick.
-/

namespace Sys2Proof.Machine

/-- The queue of the commands that wait. DESIGN CHOICE: log 1. -/
def State.withPending (s : State) (l : List Instr) : State := { s with pending := l }

/-- One step. DESIGN CHOICE: on an empty queue one tick of 0.8 ns passes (`idle`). DESIGN CHOICE: log 1. -/
def step (s : State) : Host.Outcome State Fault Refusal :=
  match s.pending with
  | [] => .next (idle s)
  | c :: rest => exec c (s.withPending rest)

/-- The command that a word of the table spells is put at the front of the queue; none is, as no row has bits. DESIGN CHOICE: log 4. -/
def State.withFetchWord (s : State) (nbits w : Nat) : State :=
  match decodeTableWord nbits w with
  | some c => s.withPending (c :: s.pending)
  | none => s

end Sys2Proof.Machine
end

