-- ==== Sys2Proof/Safety.lean ====
section
/-!
DEFINITION. What counts as a safe run, in the terms that the claims use.
-/

namespace Sys2Proof.Machine

/-- A row completes in a state: it answers a next state. -/
def Completes (i : Instr) (s : State) : Prop := ∃ t, exec i s = .next t

/-- The session of a command that it has accepted: the number is consumed, and the command's tag is kept (02 R69, R70). -/
def Session.accepting (x : Session) (f : CmdFrame) : Session :=
  let kept := x.stored ++ [{ seq := f.seq, tag := f.tag, done := none }]
  { x with next := x.next + 1, stored := kept.drop (kept.length - 256) }

/-- A command that passes every step of R68 up to the state check, on a session that has nothing else to do, so that it executes at once: the
module receives frames, has room for it, its framing and tag are right, its number is the next, its role holds the right, and it is legal in
the device state. -/
def Admitted (s : State) (x : Session) (f : CmdFrame) : Prop :=
  s.gct.dev ≠ .powered ∧ inboundFits s f = true ∧ framingOk s f = true ∧ f.session ≠ 0 ∧ sessionGet s f.session = some x ∧
    frameTag x.key f = f.tag ∧ x.next = f.seq ∧ roleMay x.role f.opcode = true ∧ x.exec = none ∧ x.held = [] ∧ headOk f = true ∧
    (opcodeRoles f.opcode).isSome = true ∧ legalIn s.gct.dev f.opcode = true

/-- The state in which an admitted command executes: its frame stands in cells of the control slice (02 R65), its session has accepted it and
holds it in execution. -/
def commandStart (s : State) (x : Session) (f : CmdFrame) : State :=
  let y := x.accepting f
  setExec (sessionMod (admitFrame s f) f.session (fun z => { z with next := z.next + 1, stored := y.stored })) f.session y f
    (.send (complete 0 []))

/-- The state after an admitted command has executed with a result: what it waits on stands in its session, one more command has begun, a
fault that fell due is taken, and the cells of frames that have completed are free again. -/
def commandEnd (f : CmdFrame) (r : Handled) : State :=
  settleSlice (takeFault (rewait { r.2 with gct := { r.2.gct with begun := r.2.gct.begun + 1 } } f.session r.1))

/-- The result DONE, with no body. -/
def doneWith (t : State) : Handled := (.send (complete 0 []), t)

/-- The module takes a write of `v` to a register: the register exists, the device state accepts register writes, no reserved bit is set, the
value is one that the register allows, no lock holds it and the present state accepts it (00 R23, R24; 02 R76). -/
def TakesWrite (s : State) (row : RegRow) (r : Reg) (v : Nat) : Prop :=
  regAt (regAddr r) = some (row, r) ∧ writeLegal s = true ∧ setsReserved row v = false ∧ valueOk s r v = true ∧
    breaksLock s row r (regView s r) v = false ∧ stateAccepts s r v = true

/-- The order of a queue's counters, RL ≤ MK ≤ RD ≤ CM ≤ WR on differences modulo 2³² (06 R183), the words that they bound, and the room that
the open packet still has within the largest tail limit (06 R184). -/
def SQueue.ordered (v : SQueue) : Prop :=
  (v.mark - v.rl).toNat ≤ (v.rd - v.rl).toNat ∧ (v.rd - v.rl).toNat ≤ (v.cm - v.rl).toNat ∧ (v.cm - v.rl).toNat ≤ v.occupied ∧
    v.words.length = v.occupied ∧
    match v.openN with
    | none => v.wr = v.cm ∧ v.occupied ≤ 131056
    | some n => v.pushed ≤ n ∧ (v.wr - v.cm).toNat = v.pushed ∧ v.occupied + (n - v.pushed) ≤ 131056

/-- The words that the consumer of a queue can read, oldest first (06 R185, R187). -/
def SQueue.readable (v : SQueue) : List QWord := (v.words.drop (v.rd - v.rl).toNat).take ((v.cm - v.rl).toNat - (v.rd - v.rl).toNat)

/-- A queue word without its poison tag. -/
def QWord.clean (w : QWord) : QWord := { w with poison := false }

/-- The head of a queue holds its oldest readable words, 16 at most, each with the poison tag that its load found (06 R188), and the tail lies in
cells of the Heartwood window. -/
def SQueue.headOk (v : SQueue) : Prop :=
  v.head.length ≤ 16 ∧ v.head.map QWord.clean = (v.readable.take v.head.length).map QWord.clean ∧ ∀ c ∈ v.tail, c < 2 ^ 21

/-- The bundle `b` at the PC of the context `x` in hardware context `h` of core `k` issues and commits: the context can issue, the bundle is in
the cache without poison, it breaks no rule of encoding or pairing, no register that it reads waits for a load, and the answers of its slots
hold no exception, fault or wait (08 R228, R247–R249; 09 R263). -/
def Commits (s : State) (k h : Nat) (x : Hc) (b : Bundle) (table : PeerTable) : Prop :=
  canIssue s k h = some x ∧ (∃ l, cachedLine s k x = some l ∧ l.poison = false ∧ Bundle.decode l.bits = b) ∧ b.firstIllegal = none ∧
    chooseExc (b.pairing x ((coreGet s k).claim == some h)) = none ∧ (b.reads x).any x.pending = false ∧
    decideBundle (bundleOuts s k h x b table).1 (bundleExtra s k x b) = .commit

/-- The first stage of a commit (09 R264): the stores of SA, SB and VX, the register writes of every slot, and the PC at the next bundle. -/
def slotsStage (s : State) (k h : Nat) (x : Hc) (b : Bundle) (table : PeerTable) : State :=
  let outs := (bundleOuts s k h x b table).1
  let s0 := (outs.flatMap (fun o => o.touch)).foldl (fun t r => memTouch t r.1 r.2) (bundleOuts s k h x b table).2
  let s1 := ((outs.take 3).flatMap (fun o => o.st)).foldl (fun t w => busWrite t w.1 w.2.1 w.2.2) s0
  countBundle (hcSet s1 k h (some { x.advance outs with buf := aheadKept x b outs })) k x.ctx

/-- The second stage: the matrix instruction, and the store of TST. -/
def matrixStage (t : State) (s : State) (k h : Nat) (x : Hc) (b : Bundle) (table : PeerTable) : State :=
  let t1 := match b.mx with
    | some i => mstCommit (matrixCommit t k h x i) k h x i
    | none => t
  (((bundleOuts s k h x b table).1.drop 3).flatMap (fun o => o.st)).foldl (fun t w => busWrite t w.1 w.2.1 w.2.2) t1

/-- The third stage: the mover instruction. -/
def moverStage (t : State) (k h : Nat) (x : Hc) (b : Bundle) (table : PeerTable) : State :=
  match b.dx with
  | some i => moverCommit t k h x i table
  | none => t

/-- The last stage: the control instruction. -/
def controlStage (t : State) (k h : Nat) (x : Hc) (b : Bundle) : State :=
  match b.cx with
  | some i => controlCommit t k h x i
  | none => t

/-- What follows a committed bundle: a single step ends, and blank bundles pass. -/
def endBundle (t : State) (k h : Nat) : State := passBlanks (stepStop t k h) k h 1024

/-- The state in which the mover slot of a committing bundle takes effect. -/
def beforeMover (s : State) (k h : Nat) (x : Hc) (b : Bundle) (table : PeerTable) : State :=
  matrixStage (slotsStage s k h x b table) s k h x b table

/-- The state in which the control slot of a committing bundle takes effect. -/
def beforeControl (s : State) (k h : Nat) (x : Hc) (b : Bundle) (table : PeerTable) : State :=
  moverStage (beforeMover s k h x b table) k h x b table

/-- The state after a bundle has committed. -/
def committed (s : State) (k h : Nat) (x : Hc) (b : Bundle) (table : PeerTable) : State :=
  endBundle (controlStage (beforeControl s k h x b table) k h x b) k h

/-- The scalar slot of a bundle: SA, or SB. -/
def Bundle.scalar (b : Bundle) (sb : Bool) : Option SSlot := if sb then b.sb else b.sa

/-- The name of a scalar slot. -/
def scalarId (sb : Bool) : SlotId := if sb then .sb else .sa

/-- The answer of a scalar slot of an issuing bundle. -/
def scalarAnswer (s : State) (k h : Nat) (x : Hc) (b : Bundle) (sb : Bool) : SlotOut :=
  (bundleOuts s k h x b PeerTable.empty).1.getD (if sb then 1 else 0) .none_

/-- The state in which a scalar slot of an issuing bundle translates its address: SB comes after SA. -/
def beforeScalar (s : State) (k : Nat) (x : Hc) (b : Bundle) (sb : Bool) : State :=
  if sb then (slotOut b.sa (fun i t => scalarOut t k x .sa i) s).2 else s

/-- The answer of the vector slot of an issuing bundle. -/
def vectorAnswer (s : State) (k h : Nat) (x : Hc) (b : Bundle) : SlotOut := (bundleOuts s k h x b PeerTable.empty).1.getD 2 .none_

/-- The state in which the vector slot of an issuing bundle translates its address. -/
def beforeVector (s : State) (k : Nat) (x : Hc) (b : Bundle) : State :=
  (slotOut b.sb (fun i t => scalarOut t k x .sb i) (beforeScalar s k x b true)).2

/-- Every waiting command is well formed. -/
def State.queueWf (s : State) : Bool := s.pending.all Instr.wf

/-- A memory is in canonical form: addresses strictly rising, and no entry equal to what an unlisted address reads as. -/
def Memory.wf (m : FMap Byte) : Bool := fcanon 0 m

/-- Memory, its poison marks and the register file are in canonical form, so that equal contents are equal data. -/
def State.tablesCanonical (s : State) : Bool := Memory.wf s.mem && fcanon false s.memPoison && fsorted s.regs

end Sys2Proof.Machine
end

