-- ==== Sys2Proof/Certificates/Slice0/Obligations.lean ====
section
/-!
DEFINITION. The statements for the provers. Each says what a command, or a step, does; `exec … = .next t` says that the command answers the
next state `t`.
-/

open Sys2Proof Sys2Proof.Machine

/-! ### The machine as a whole -/

/-- A step runs the command at the front of the queue, with the queue's rest in the state. -/
def Obligations.StepRunsTheFrontCommand : Prop :=
  ∀ (c : Instr) (rest : List Instr) (s : State), step (s.withPending (c :: rest)) = exec c (s.withPending rest)

/-- On an empty queue a step is one tick of 0.8 ns (the model's own choice: log 2): the clock advances, the clock of the times that a halted
module does not count stands in HALTED (R79), and nothing else changes. -/
def Obligations.IdleStepIsOneTick : Prop :=
  ∀ s : State, s.pending = [] →
    step s = .next { s with clock := s.clock + 1, idleClock := if s.gct.dev = .halted then s.idleClock else s.idleClock + 1 }

/-- No command ends the machine: `exec` answers a next state for every command in every state. -/
def Obligations.NoCommandStopsTheMachine : Prop := ∀ (c : Instr) (s : State), Completes c s

/-- The queue is first in, first out: a step takes its front command and nothing else, whatever the command does. -/
def Obligations.StepTakesOnlyTheFront : Prop :=
  ∀ (c : Instr) (rest : List Instr) (s t : State), step (s.withPending (c :: rest)) = .next t → t.pending = rest

/-- Memory, its poison marks and the register file stay in their canonical form across every step (the model's own invariant: log 3). -/
def Obligations.TablesStayCanonical : Prop :=
  ∀ s t : State, s.tablesCanonical = true → step s = .next t → t.tablesCanonical = true

/-- The state after reset has its tables in canonical form, and an empty queue.
After a module reset the device is in SECURE_BOOT with no session, no result slot, no subscription and no packet, with no link up, every
queue empty, and every register at its Reset value (R25, R73, R77, R85). -/
def Obligations.ResetState : Prop :=
  (State.reset.tablesCanonical = true ∧ State.reset.pending = []) ∧
  (State.reset.gct.dev = .secureBoot ∧ State.reset.gct.sessions = [] ∧ State.reset.gct.slots = [] ∧ State.reset.gct.subs = [] ∧
     State.reset.canopy.pkts = [] ∧ State.reset.ports.link = 0 ∧ (∀ q : Nat, queueGet State.reset q = SQueue.empty) ∧
     ∀ r : Reg, regGet State.reset r = resetVal r)

/-! ### Packets: reception, parser, flow lookup, Canopy, Grove and egress -/

/-- Reception on a packet port. FRAME_START on a live port takes the arrival stamp and reserves 36 cells against the share and the pool, or
discards the frame into RX_ADMIT_DROP; in HALTED it takes no reservation (R98, R100, R102); a port that is not live takes no frame.
OVERSIZE_DISCARD discards the frame into RX_DISCARD (R601). PORT_ENABLE takes ENABLE at a frame boundary (R124), and waits for one. -/
def Obligations.FrameReception : Prop :=
  (∀ (m : Fin 64) (s : State), portLive s m.val = true → rxGet s m.val = none →
    let r : RxFrame := { stamp := stampNow s, reserved := true, discarded := false, maxFrame := regF s .prtCfg (m.val / 4) 0 16 14 }
    (s.gct.dev ≠ .halted → reservationFits s m.val = true →
      exec (.frameStart m) s = .next (rxSet (setPortHeld s m.val (portHeld s m.val + 36)) m.val (some r))) ∧
    (s.gct.dev ≠ .halted → reservationFits s m.val = false →
      exec (.frameStart m) s =
        .next (rxSet (bump s .prtRxAdmitDrop m.val 0) m.val (some { r with reserved := false, discarded := true }))) ∧
    (s.gct.dev = .halted → exec (.frameStart m) s = .next (rxSet s m.val (some { r with reserved := false })))) ∧
  (∀ (m : Fin 64) (s : State), portLive s m.val = false ∨ (rxGet s m.val).isSome = true → exec (.frameStart m) s = .next s) ∧
  (∀ (m : Fin 64) (s : State) (r : RxFrame), rxGet s m.val = some r →
    (r.discarded = false → exec (.oversizeDiscard m) s =
      .next (rxSet (bump (dropReservation s m.val r) .prtRxDiscard m.val 0) m.val (some { r with reserved := false, discarded := true }))) ∧
    (r.discarded = true → exec (.oversizeDiscard m) s = .next s)) ∧
  (∀ (m : Fin 64) (s : State),
    (rxGet s m.val = none → exec (.portEnable m) s = .next { s with ports := { s.ports with
      enabled := setBitN s.ports.enabled m.val (regF s .prtCfg (m.val / 4) 0 2 1 == 1) } }) ∧
    ((rxGet s m.val).isSome = true → exec (.portEnable m) s = .next s))

/-- FRAME_END (R97, R100, R601): the first check that a frame fails names the one counter in which its discard counts, and a frame that was
discarded before ends with nothing more; a GCT frame reaches the control slice, and is counted as received where the slice has room for it
(R65), and a data frame in SERVING that holds a reservation is admitted and counted. An uncorrectable error that hits the frame's cells
(R180) makes of a GCT frame no command, and marks the packet of a data frame. -/
def Obligations.FrameEndDecides : Prop :=
  ∀ (m : Fin 64) (b : Bytes) (fcsOk trunc ecc : Bool) (s : State) (r : RxFrame), rxGet s m.val = some r →
    let s0 := rxSet s m.val none
    let drop (n : RegName) : State := bump (dropReservation s0 m.val r) n m.val 0
    (r.discarded = true → exec (.frameEnd m b fcsOk trunc ecc) s = .next s0) ∧
    (r.discarded = false →
      (r.maxFrame < b.length + 4 → exec (.frameEnd m b fcsOk trunc ecc) s = .next (drop .prtRxDiscard)) ∧
      (b.length + 4 ≤ r.maxFrame → fcsOk = false ∨ trunc = true → exec (.frameEnd m b fcsOk trunc ecc) s = .next (drop .prtRxFcsErr)) ∧
      (b.length + 4 ≤ r.maxFrame → fcsOk = true → trunc = false → b.length + 4 < 64 ∨ beAt b 12 2 = 0x8808 →
        exec (.frameEnd m b fcsOk trunc ecc) s = .next (drop .prtRxDiscard)) ∧
      (b.length + 4 ≤ r.maxFrame → fcsOk = true → trunc = false → 64 ≤ b.length + 4 → beAt b 12 2 ≠ 0x8808 →
        match recogniseGct s (.logical m) b with
        | some f =>
          let s1 := dropReservation s0 m.val r
          let s2 := if inboundFits s1 f then countRx s1 m.val b else s1
          exec (.frameEnd m b fcsOk trunc ecc) s = .next (if ecc then stompedCmd s2 f else receiveCmd s2 f)
        | none =>
          let s1 := admitData (countRx s0 m.val b) m.val b r
          exec (.frameEnd m b fcsOk trunc ecc) s = .next (if s.gct.dev = .serving ∧ r.reserved = true then
            (if ecc then stompedData s1 else s1) else drop .prtRxStateDrop)))

/-- A command port (R600; R77: no command port works in POWERED): a malformed frame counts in GCT_CP_MAC_DROP, one that is no GCT frame in
GCT_CP_OTHER, and every other reaches the control slice, where one hit by an uncorrectable error is no command (R180).
Link events set exactly the link bits (03 "PRT registers", R94, R600): a packet link that comes up in a state that does not hold the links
down, a packet link that goes down, with the frame in reception truncated (R97), a command port's link, and HI_SER. Frames that waited for the
port leave. -/
def Obligations.PortEvents : Prop :=
  (∀ (n : Fin 2) (b : Bytes) (fcsOk trunc ecc : Bool) (s : State), s.gct.dev ≠ .powered → bitN s.ports.cmdLink n.val = true →
     let bad : Prop := b.length + 4 < 64 ∨ 9216 < b.length + 4 ∨ beAt b 12 2 = 0x8808 ∨ fcsOk = false ∨ trunc = true
     (bad → exec (.commandPortFrame n b fcsOk trunc ecc) s = .next (bump s .gctCpMacDrop n.val 0)) ∧
     (¬ bad → match recogniseGct s (.command n) b with
       | none => exec (.commandPortFrame n b fcsOk trunc ecc) s = .next (bump s .gctCpOther n.val 0)
       | some f => exec (.commandPortFrame n b fcsOk trunc ecc) s = .next (if ecc then stompedCmd s f else receiveCmd s f))) ∧
  ((∀ (m : Fin 64) (s : State), linksForcedDown s.gct.dev = false → portUsed s m.val = true →
     exec (.portLinkChange m true) s =
       .next (portFlushes { s with ports := { s.ports with link := setBitN s.ports.link m.val true } } (.logical m))) ∧
   (∀ (m : Fin 64) (s : State), linksForcedDown s.gct.dev = true ∨ portUsed s m.val = false →
     exec (.portLinkChange m true) s = .next (portFlushes s (.logical m))) ∧
   (∀ (m : Fin 64) (s : State),
     let t := match rxGet s m.val with
       | none => s
       | some r => rxSet (if r.discarded then s else bump (dropReservation s m.val r) .prtRxFcsErr m.val 0) m.val none
     exec (.portLinkChange m false) s = .next (portFlushes { t with ports := { t.ports with
       link := setBitN s.ports.link m.val false, hiSer := setBitN s.ports.hiSer m.val false } } (.logical m))) ∧
   (∀ (n : Fin 2) (up : Bool) (s : State), s.gct.dev ≠ .powered →
     exec (.commandPortLinkChange n up) s =
       .next (portFlushes { s with ports := { s.ports with cmdLink := setBitN s.ports.cmdLink n.val up } } (.command n))) ∧
   (∀ (m : Fin 64) (on : Bool) (s : State),
     exec (.highSymbolErrorRate m on) s = .next { s with ports := { s.ports with hiSer := setBitN s.ports.hiSer m.val on } }))

/-- The parser takes the packet whose port's turn it is (R104): its parse record is made under the settings sampled at its acceptance (R106),
the pipeline's counters count it by its outcome, and the turn passes on.
The flow lookup of a packet (R105, R156–R161). FLOW_KEY_COMPLETE issues it for the two candidate buckets of R154, and with it a prefetch on a
tag hit (R118). FLOW_LOOKUP_ANSWER, for a packet whose lookup has been issued, reads the candidate buckets, fetching a line with an error
again (R158), and gives the packet a hit, with the entry's fields and the refresh of LAST_HIT, or a miss, which learns. FILTER_EXPIRY drops
the keys whose 80,000 cycles have passed (R160), FLOW_RECORD_ENQUEUE writes records that wait (R161), and PREFETCH_LAND lands the oldest
prefetch (R119) in a frame of the flow-context cache; where a frame holds its page already nothing is filled. -/
def Obligations.ParsingAndLookup : Prop :=
  (∀ (i : Fin 8) (s : State) (m k : Nat) (p : Packet), s.gct.stopped = false → pathBackPressure s i.val = false →
     nextParsePort s i.val = some m → pktFirst s (fun q => q.lport == m && q.stage == .committed) = some (k, p) →
     let r := parseFrame (parseCfg s) p.bytes
     let t := pktSet (obsAdd (countParse s i.val r.stop) 0 i.val 1) k { p with stage := .accepted, prs := some r }
     exec (.parseAccept i) s =
       .next { t with ports := { t.ports with nextPort := fsetD 0 s.ports.nextPort i.val ((m % 8 + 1) % 8) } }) ∧
  ((∀ (i : Fin 8) (s : State) (k : Nat) (p : Packet) (r : ParseRec), s.gct.stopped = false → pktFirst s (atStage i.val .accepted) = some (k, p) →
     p.prs = some r → tagHit s i.val (candidates s r.key) r.key = none →
     exec (.flowKeyComplete i) s = .next (pktSet s k { p with stage := .keyed, keyCand := candidates s r.key })) ∧
   (∀ (i : Fin 8) (s : State) (k : Nat) (p : Packet) (r : ParseRec) (b j : Nat), s.gct.stopped = false →
     pktFirst s (atStage i.val .accepted) = some (k, p) → p.prs = some r → tagHit s i.val (candidates s r.key) r.key = some (b, j) →
     let e := slotBytes s i.val b j
     let a : FlowAns := { missAnswer with hit := true, bucket := b, slot := j, gen := entryGen e, ctx := entryCtx e }
     exec (.flowKeyComplete i) s = .next (pktSet (packetPrefetch s i.val r a false) k
         { p with stage := .keyed, keyCand := candidates s r.key, prefetched := true })) ∧
   (∀ (s : State) (k : Nat) (bad1 bad2 : Bool) (p : Packet) (r : ParseRec), s.gct.stopped = false → pktGet s k = some p → p.prs = some r →
     p.lookup = none → p.stage = .keyed ∨ p.stage = .parked →
     let i := pipeOf p.lport
     let s0 := if bad1 then refetchLine s i p.keyCand.1 else s
     let s1 := reachBucket (reachBucket (if bad2 then refetchLine s0 i p.keyCand.2 else s0) i p.keyCand.1) i p.keyCand.2
     match findKey s1 i p.keyCand r.key with
     | some (b, j) =>
       exec (.flowLookupAnswer k bad1 bad2) s = .next (takeFault (pktSet
         (if p.prefetched then (lookupHit s1 i b j).2 else packetPrefetch (lookupHit s1 i b j).2 i r (lookupHit s1 i b j).1 false) k
           { p with lookup := some (lookupHit s1 i b j).1, prefetched := true }))
     | none =>
       let m := learnMiss (bump s1 .flwMiss i 0) i p r
       exec (.flowLookupAnswer k bad1 bad2) s = .next (takeFault (pktSet (packetPrefetch m.2 i r missAnswer m.1) k
         { p with lookup := some missAnswer, prefetched := true }))) ∧
   (∀ (i : Fin 8) (s : State), s.gct.stopped = false →
     exec (.filterExpiry i) s = .next { s with flow := { s.flow with
       filter := fmodD [] s.flow.filter i.val (fun l => l.filter (fun e => decide (s.idleClock < e.2 + 80000))) } }) ∧
   (∀ (i : Fin 8) (s : State), s.gct.stopped = false →
     exec (.flowRecordEnqueue i) s = .next (notesSent (drainNotes s i.val ((fgetD [] s.flow.notes i.val).length)))) ∧
   (∀ (i : Fin 8) (s : State) (x : Prefetch) (rest : List Prefetch), s.gct.stopped = false → prefetchList s i.val = x :: rest →
     let s1 := { s with tiers := { s.tiers with prefetches := fsetD [] s.tiers.prefetches i.val rest } }
     ((frameOf s1 x.tag).isSome = true → exec (.prefetchLand i) s = .next (takeFault s1)) ∧
     (∀ r : Nat × State, frameOf s1 x.tag = none → fillFrame s1 x.tag x.addr = some r → exec (.prefetchLand i) s = .next (takeFault r.2))))

/-- The two passes of Canopy (R127, R128, R136–R146). FIRST_PASS_ENTRY runs T0 and T1 on the packet whose key was complete first, and then T2 to
T7 where it has its answer and no parked packet goes first; else the packet parks, while the flow-wait buffer of 2,048 places has room, and
waits before T0 while it has none. T2_ADMIT runs T2 to T7 on the oldest parked packet that has its answer; SECOND_PASS_ENTRY runs all eight
stages again on a released packet; PASS_END ends a pass; PINNED_WRITE_APPLY applies a RULE_WRITE that the pins held. -/
def Obligations.CanopyPasses : Prop :=
  (∀ (i : Fin 8) (s : State) (k : Nat) (p : Packet), s.gct.stopped = false → pktFirst s (atStage i.val .keyed) = some (k, p) →
    let r := runStages false (s, enterFirst s p) [0, 1]
    (r.2.lookup.isSome = true → parkedEligible s i.val = none → exec (.firstPassEntry i) s = .next (runFromT2 r.1 k r.2)) ∧
    (r.2.lookup = none ∨ (parkedEligible s i.val).isSome = true →
      (parkedCount s i.val < 2048 →
        exec (.firstPassEntry i) s = .next (pktSet (bump r.1 .cnpWait i.val 0) k { r.2 with stage := .parked })) ∧
      (2048 ≤ parkedCount s i.val → exec (.firstPassEntry i) s = .next s))) ∧
  (∀ (i : Fin 8) (s : State) (k : Nat) (p : Packet), s.gct.stopped = false → parkedEligible s i.val = some (k, p) →
    exec (.t2Admit i) s = .next (runFromT2 s k p)) ∧
  (∀ (i : Fin 8) (s : State) (k : Nat) (p : Packet), s.gct.stopped = false → pktFirst s (atStage i.val .passOne) = some (k, p) →
    exec (.passEnd i false) s = .next (endFirst s k p)) ∧
  (∀ (i : Fin 8) (s : State) (k : Nat) (p : Packet), s.gct.stopped = false → pktFirst s (atStage i.val .passTwo) = some (k, p) →
    exec (.passEnd i true) s = .next (endSecond s k p)) ∧
  (∀ (s : State) (k : Nat) (p : Packet), s.gct.stopped = false → pktGet s k = some p → p.stage = .released →
    behind s k p (fun q => metaF q 16 6 == metaF p 16 6 && (q.stage == .toDispatch || q.stage == .held || q.stage == .released)) = false →
    let r := runStages true (s, enterSecond p) [0, 1, 2, 3, 4, 5, 6, 7]
    exec (.secondPassEntry k) s = .next (pktSet r.1 k { r.2 with stage := .passTwo })) ∧
  (∀ (t : Fin 16) (s : State) (e : Nat × ExecCmd) (l : List (Nat × ExecCmd)), s.gct.stopped = false →
    waiting s (fun w => w == .rulePins t.val) = e :: l → pinCount s t.val (standbyBank s t.val) = 0 →
    let r := ruleWrite s e.2.cmd.body
    exec (.pinnedWriteApply t) s = .next (retrySwaps (answerSession r.2 e.1 (complete r.1 []))))

/-- Grove and Tier 2 of a packet (R201–R208, R426–R435, R457–R458). GROVE_ENTRY samples the route, the leaf phases and the module time, and
counts the packet in GRV_EVAL, and in GRV_WAIT where others wait before it; a packet of a Tending boundary that is not ready waits in the
input buffer. GROVE_VERDICT evaluates the route and routes the packet on by its results. TOKEN_DISPATCH commits the oldest waiting token to
its token queue, once its context copy is in the flow-context cache, with a second copy to the Tending queue for a sample; it waits for a
boundary and for room for a sample, and drops the token where no model is loaded, and where its queue is bound to another producer, disabled
or full. VERDICT_READ takes a verdict of three words, and a poisoned one counts alone; DEADLINE_TEST releases a
packet whose deadline has come with V_DEFERRED. -/
def Obligations.GroveAndTiers : Prop :=
  (∀ (i : Fin 8) (s : State) (k : Nat) (p : Packet), s.gct.stopped = false → pktFirst s (atStage i.val .toGrove) = some (k, p) →
    let others := (s.canopy.pkts.filter (fun e => atStage i.val .inGrove e.2)).length
    (boundaryStalls s p.stamp = true → exec (.groveEntry i) s = .next (
      let s1 := bump s .sqTendStall 0 0
      if p.waited then s1 else pktSet (bump s1 .grvWait i.val 0) k { p with waited := true })) ∧
    (boundaryStalls s p.stamp = false → others < 2048 →
      let route := regN s .grvRoute (metaF p 0 4) 0
      let last : Bool := metaF p 26 2 == 1 && metaF p 31 1 == 0 && !(List.range 4).any (entryApplies p route)
      let s1 := bump s .grvEval i.val 0
      exec (.groveEntry i) s = .next (pktSet (if others = 0 ∨ p.waited = true then s1 else bump s1 .grvWait i.val 0) k
        { p with stage := .inGrove, pinned := p.pinned && !last,
                 sample := some { route := route, phases := phasesFor s p.stamp, ms := msNow s } }))) ∧
  (∀ (s : State) (k : Nat) (p : Packet) (x : GroveSample) (err : Option (Nat × Nat × Bool)), s.gct.stopped = false → pktGet s k = some p →
    p.stage = .inGrove → p.sample = some x →
    let s0 := match err with
      | some (u, w, b) => wordErrorArises s u w b
      | none => s
    exec (.groveVerdict k err) s = .next (groveDone (reportEntries s0 (evalRoute s0 p x).2) k { p with outputs := (evalRoute s0 p x).1 }
      (evalRoute s0 p x).2)) ∧
  (∀ (i : Fin 8) (s : State) (r : TokenReq) (rest : List TokenReq), s.gct.stopped = false → fgetD [] s.tiers.tokenWait i.val = r :: rest →
    let q := tokenQueue s i.val (tier2Set s i.val) r.snap.keyCand.1
    (tier2Model s i.val = none → exec (.tokenDispatch i) s = .next (takeFault (dropToken s i.val q r))) ∧
    (∀ m : Tier2Model, tier2Model s i.val = some m →
      let nf := ceilDiv (tokenFeatures s m r.snap).length 4
      let sample := isSample s r.snap.keyCand.1
      let tq := regF s .sqTendCtl 0 0 32 12 + i.val
      let stalls : Prop := boundaryStalls s r.snap.stamp = true ∨ (sample = true ∧ queueRoom s tq (nf + 2) = false)
      (stalls → exec (.tokenDispatch i) s = .next (takeFault (bump s .sqTendStall 0 0))) ∧
      (¬ stalls → queueProducer s q ≠ (2, i.val) → exec (.tokenDispatch i) s = .next (takeFault (dropToken s i.val q r))) ∧
      (¬ stalls → queueProducer s q = (2, i.val) → queueEnabled s q = false ∨ queueRoom s q (nf + 2) = false →
        exec (.tokenDispatch i) s = .next (takeFault (dropToken (queueOpen s q (nf + 2) true).2 i.val q r))) ∧
      ∀ (s1 s2 : State) (n : Nat) (stateless : Bool),
        let f := tokenFlow r.snap
        let flags (smp : Bool) : Nat :=
          b2n f.1 + 2 * b2n r.hold.isSome + 4 * b2n stateless + 8 * b2n smp + 16 * b2n (t2PhaseFor s r.snap.stamp)
        let token (smp : Bool) : List QWord :=
          (BitVec.ofNat 128 (tokenWord0 1 (flags smp) i.val r.snap.lport f.2.1 f.2.2.1 f.2.2.2 m.modelId (queueGet s q).wr.toNat) ::
            BitVec.ofNat 128 (tokenWord1 r.snap.stamp r.handle n nf (fgetD 0 s.tiers.drops q)) ::
            featureWords (tokenFeatures s m r.snap)).map (fun w => mkWord w false)
        ¬ stalls → queueProducer s q = (2, i.val) → queueEnabled s q = true → queueRoom s q (nf + 2) = true →
          contextFrame s m r.snap = (some (n, s1), stateless) → queueSend s1 q (token false) true = (.ok, s2) →
        let s3 := bump (popToken (pinFrame s2 n) i.val) .sqT2Tokens i.val 0
        let s4 := { s3 with tiers := { s3.tiers with drops := fsetD 0 s3.tiers.drops q 0 } }
        let s5 := if sample then (queueSend s4 tq (token true) false).2 else s4
        (∀ c : Packet, pktGet s5 r.pkt = some c → c.stage = .toDispatch →
          exec (.tokenDispatch i) s = .next (takeFault (pktSet s5 r.pkt { c with stage := .held }))) ∧
        ((∀ c : Packet, pktGet s5 r.pkt = some c → c.stage ≠ .toDispatch) → exec (.tokenDispatch i) s = .next (takeFault s5)))) ∧
  (∀ (q : Fin 4096) (s s1 s2 s3 : State) (x y z : QWord), s.gct.stopped = false → (queueConsumer s q.val).1 = 6 →
    queueRead s q.val = (some x, s1) → queueRead s1 q.val = (some y, s2) → queueRead s2 q.val = (some z, s3) →
    let s4 := (queueRelease s3 q.val).2
    exec (.verdictRead q) s = .next (if x.poison || y.poison || z.poison then bump s4 .sqT2Poison 0 0
      else takeVerdict s4 q.val x.data.toNat y.data.toNat z.data.toNat)) ∧
  (∀ (i : Fin 8) (e : Fin 131072) (s : State) (h : HoldEntry), s.gct.stopped = false → fget? s.tiers.holds (holdKey i.val e.val) = some h →
    h.tier2 = true → h.deadline ≤ stampNow s →
    exec (.deadlineTest i e) s =
      .next (releasePacket (bump (holdRelease s (holdKey i.val e.val)) .sqDeferred i.val 0) h.pkt defer))

/-- EGRESS (R123, R142–R144; 01 R42): a packet with no earlier packet of its flow in its way leaves on its egress port, with its edits, and its
cells return; over MAX_FRAME, or on a port that is disabled, not used or, by the model's choice (log 158), down, it is discarded and counted
instead. One whose cells hold an uncorrectable error leaves with its FCS inverted, and counts in HWD_PKT_STOMP (06 R180). A mirror copy leaves
cut to its length. -/
def Obligations.EgressSendsOrCounts : Prop :=
  (∀ (s : State) (k : Nat) (p : Packet), s.gct.stopped = false → pktGet s k = some p → p.stage = .toEgress →
    behind s k p (orderBlocks p) = false →
    let port := metaF p 16 6
    let v := markPassMode p.viewNow p.passMode
    let len := v.work.length + 4
    (portLive s port = false → exec (.egress k) s = .next (pktLeave (bump s .prtEgressDrop 0 0) k)) ∧
    (portLive s port = true → regF s .prtCfg (port / 4) 0 16 14 < len → exec (.egress k) s = .next (pktLeave (bump s .cnpOversizeDrop 0 0) k)) ∧
    (portLive s port = true → len ≤ regF s .prtCfg (port / 4) 0 16 14 →
      let s0 := readCells s p.cells
      let bad := pktPoisoned s0 p
      let s1 := bumpBy (bump s0 .prtTxFrames port 0) .prtTxBytes port 0 len
      let s2 := if bad then bump s1 .hwdPktStomp 0 0 else s1
      exec (.egress k) s = .next (pktLeave { s2 with sent := s2.sent ++ [.data port (v.work.take (len - 4)) (!bad) false] } k))) ∧
  ∀ (s : State) (k port trunc : Nat) (p : Packet), s.gct.stopped = false → pktGet s k = some p → p.stage = .mirror port trunc →
    let whole := p.viewNow.work.length + 4
    let len := if trunc = 0 then whole else min whole trunc
    (portLive s port = false → exec (.egress k) s = .next (pktLeave (bump s .prtEgressDrop 0 0) k)) ∧
    (portLive s port = true → regF s .prtCfg (port / 4) 0 16 14 < len → exec (.egress k) s = .next (pktLeave (bump s .cnpOversizeDrop 0 0) k)) ∧
    (portLive s port = true → len ≤ regF s .prtCfg (port / 4) 0 16 14 →
      let s0 := readCells s p.cells
      let bad := pktPoisoned s0 p
      let s1 := bumpBy (bump s0 .prtTxFrames port 0) .prtTxBytes port 0 len
      let s2 := if bad then bump s1 .hwdPktStomp 0 0 else s1
      exec (.egress k) s = .next (pktLeave { s2 with sent := s2.sent ++ [.data port (p.viewNow.work.take (len - 4)) (!bad) true] } k))

/-! ### Commands: admission, and what each command does when it executes -/

/-- A command that passes the checks of R68 executes at once, by its opcode (R68, R70, R72, R75).
Accepting a command changes nothing but its session, where it consumes one number and puts the command into execution, and the cells of the
control slice that its frame takes, with what they hold: no register, memory byte, packet, queue, slot or other session changes by it
(R65, R70, R72). -/
def Obligations.AdmittedCommandExecutes : Prop :=
  (∀ (s : State) (x : Session) (f : CmdFrame), Admitted s x f →
     receiveCmd s f = commandEnd f (runOpcode (commandStart s x f) f.session (x.accepting f) f)) ∧
  (∀ (s : State) (x : Session) (f : CmdFrame), sessionGet s f.session = some x →
     let t := commandStart s x f
     let c := takeSlice s 0 128 (sliceKey f.port) (cmdFrameLen f)
     t = { s with
         memPoison := c.2.memPoison, upsets := c.2.upsets
         heart := { s.heart with links := c.2.heart.links, lastBank := c.2.heart.lastBank }
         gct := { s.gct with sessions := t.gct.sessions, inCells := s.gct.inCells ++ [(f, c.1)] } } ∧
       (∀ j, j ≠ f.session → sessionGet t j = sessionGet s j) ∧
       ∃ y, sessionGet t f.session = some y ∧ y.next = x.next + 1 ∧ y.key = x.key ∧ y.role = x.role ∧ y.held = x.held ∧
         y.exec.map (fun e => (e.cmd, e.key)) = some (f, x.key))

/-- The checks of R68 in their order: a wrong tag or a number that lies too far back gives AUTH_FAIL, up to 1,024 a second, after which
commands are discarded and counted in GCT_AUTH_SUPPRESS; a number that was accepted before is a duplicate, and its stored completion is
repeated (R69); a role without the right gives ROLE_DENIED; a number after the expected one gives BAD_ARGS with the flag GAP; none of these
consumes a number (R68–R70, R73). In each case the frame's cells return.
Frames that the module does not take: in POWERED none is received (R77, R82); without room in the inbound half, and where framing fails,
a frame is discarded and counted (R64, R65).
A command that is not legal in the device state completes with WRONG_STATE and changes nothing else (R82; R30), here for the commands that
take no arguments. -/
def Obligations.CommandChecks : Prop :=
  (∀ (s : State) (x : Session) (f : CmdFrame), s.gct.dev ≠ .powered → inboundFits s f = true → framingOk s f = true → f.session ≠ 0 →
     sessionGet s f.session = some x →
     let t := admitFrame s f
     let say (u : State) (c : Completion) : State := settleSlice (answerNow u f x.key x.role.code x.keySlot (.send c))
     (frameTag x.key f ≠ f.tag ∨ f.seq + 256 < x.next →
       let l := recentFails s x.authFails
       (l.length < 1024 → receiveCmd s f = say (sessionMod t f.session (fun y => { y with authFails := l ++ [s.clock], muted := false }))
         (complete 0x10 [])) ∧
       (1024 ≤ l.length → receiveCmd s f = settleSlice (sessionMod (suppress t f.session x.muted) f.session (fun y =>
         { y with authFails := l, muted := true })))) ∧
     (frameTag x.key f = f.tag → x.next ≤ f.seq + 256 → f.seq < x.next →
       match x.stored.find? (fun e => e.seq == f.seq) with
       | none => receiveCmd s f = say t { status := 0x0D, flags := 1, body := [] }
       | some e =>
         (e.tag ≠ f.tag → receiveCmd s f = say t { status := 0x0D, flags := 1, body := [] }) ∧
         (e.tag = f.tag → match e.done with
           | some c => receiveCmd s f = say t { c with flags := c.flags ||| 1 }
           | none => receiveCmd s f = settleSlice t)) ∧
     (frameTag x.key f = f.tag → x.next ≤ f.seq → roleMay x.role f.opcode = false → receiveCmd s f = say t (complete 0x11 [])) ∧
     (frameTag x.key f = f.tag → x.next < f.seq → roleMay x.role f.opcode = true →
       receiveCmd s f = say t { status := 0x0D, flags := 2, body := [] })) ∧
  (∀ (s : State) (f : CmdFrame),
     (s.gct.dev = .powered → receiveCmd s f = s) ∧
     (s.gct.dev ≠ .powered → inboundFits s f = false → receiveCmd s f = bump s .gctSliceFullDrop 0 0) ∧
     (s.gct.dev ≠ .powered → inboundFits s f = true → framingOk s f = false →
       receiveCmd s f = settleSlice (bump (admitFrame s f) .gctFramingDrop 0 0))) ∧
  (∀ (s : State) (i : Nat) (x : Session) (f : CmdFrame), headOk f = true → f.length = 0 → f.opcode ∈ [0x0020, 0x0021, 0x0022, 0x0023, 0x0024, 0x0025] →
     legalIn s.gct.dev f.opcode = false → execute s i x f = refused s 0x0C)

/-- A session accepts at most 16 commands that are waiting or in execution: a command that passes the checks waits or executes while fewer are
held, and with 16 it completes with CAPACITY; either way it consumes its number (R71). -/
def Obligations.SessionsHoldSixteen : Prop :=
  ∀ (s : State) (x : Session) (f : CmdFrame), s.gct.dev ≠ .powered → inboundFits s f = true → framingOk s f = true → f.session ≠ 0 →
    sessionGet s f.session = some x → frameTag x.key f = f.tag → x.next = f.seq → roleMay x.role f.opcode = true →
    let t := sessionMod (admitFrame s f) f.session (fun z => { z with next := z.next + 1, stored := (x.accepting f).stored })
    sessionGet t f.session = some { x with next := f.seq + 1, stored := (x.accepting f).stored } ∧
    (16 ≤ x.held.length + (if x.exec.isSome then 1 else 0) →
      receiveCmd s f = settleSlice (answerNow t f x.key x.role.code x.keySlot (.audit (complete 0x20 [])))) ∧
    (x.held.length + (if x.exec.isSome then 1 else 0) < 16 → x.exec.isSome = true ∨ x.held ≠ [] →
      receiveCmd s f = settleSlice (sessionMod t f.session (fun z => { z with held := z.held ++ [f] }))) ∧
    (x.exec = none → x.held = [] → receiveCmd s f = settleSlice (beginCmd t f.session f))

/-- The commands without arguments (R75, R79, R84): NOP and SESSION_CLOSE complete DONE, STATE_GET answers GCT_STATE and MODE_GET the modes;
START, DRAIN and MAINT_EXIT move the device state; STOP requests a cut and waits for it; RESUME restarts the islands; MAINT_ENTER resets the
stopped islands of a FAULTED module; RESET completes DONE.
An opcode that the table does not list consumes its number and completes with BAD_ARGS (R75). -/
def Obligations.SimpleCommands : Prop :=
  (∀ (f : CmdFrame) (s : State) (x : Session), f.length = 0 →
     let g (op : Nat) : CmdFrame := frameWithOpcode f op
     let t (op : Nat) : State := commandStart s x (g op)
     (Admitted s x (g 0x0001) → exec (.nop f) s = .next (commandEnd (g 0x0001) (doneWith (t 0x0001)))) ∧
     (Admitted s x (g 0x0003) → exec (.sessionClose f) s = .next (commandEnd (g 0x0003) (doneWith (t 0x0003)))) ∧
     (Admitted s x (g 0x0004) → exec (.stateGet f) s =
       .next (commandEnd (g 0x0004) (.send (complete 0 (beBytes 8 (gctState (t 0x0004)))), t 0x0004))) ∧
     (Admitted s x (g 0x0031) → exec (.modeGet f) s = .next (commandEnd (g 0x0031) (.send (modeGet s), t 0x0031))) ∧
     (Admitted s x (g 0x0020) → exec (.start f) s = .next (commandEnd (g 0x0020) (doneWith (enterState (t 0x0020) .serving)))) ∧
     (Admitted s x (g 0x0021) → exec (.drain f) s = .next (commandEnd (g 0x0021) (doneWith (enterState (t 0x0021) .draining)))) ∧
     (Admitted s x (g 0x0025) → exec (.maintExit f) s = .next (commandEnd (g 0x0025) (doneWith (enterState (t 0x0025) .ready)))) ∧
     (Admitted s x (g 0x0022) → exec (.stop f) s = .next (commandEnd (g 0x0022) (.cut, requestStop (t 0x0022) 1))) ∧
     (Admitted s x (g 0x0023) → exec (.resume f) s = .next (commandEnd (g 0x0023) (doneWith (resumeNow (t 0x0023))))) ∧
     (Admitted s x (g 0x0024) →
       let u := enterState (if s.gct.dev = .faulted ∧ s.gct.stopped = true then settleWaits (applyReleases (resetStopped (t 0x0024)))
         else t 0x0024) .maintenance
       exec (.maintEnter f) s = .next (commandEnd (g 0x0024) (doneWith (retryStateEvents u (u.gct.stateWait.length + 1))))) ∧
     (Admitted s x (g 0x0026) → exec (.reset f) s = .next (commandEnd (g 0x0026) (doneWith (t 0x0026))))) ∧
  (∀ (s : State) (x : Session) (f : CmdFrame), s.gct.dev ≠ .powered → inboundFits s f = true → framingOk s f = true → f.session ≠ 0 →
     sessionGet s f.session = some x → frameTag x.key f = f.tag → x.next = f.seq → x.exec = none → x.held = [] → opcodeRoles f.opcode = none →
     exec (.unknownOpcode f) s = .next (commandEnd f (refused (commandStart s x f) 0x0D)))

/-- REG_READ and REG_WRITE (R76). A read of registers that the role may read returns their values, eight bytes each, most significant byte
first, and clears those that a read clears; one that names a register denied to the role gives ROLE_DENIED, and else one that names an offset
without a register gives BAD_ARGS (R30). A write goes on in ascending order up to the first refused register, whose status it returns, and
the registers before it stay written. LOCK locks the block (R23).
MEM_READ and MEM_WRITE (R407): the whole range is translated first; then its bytes are returned, or POISONED, or the data are written. A
translation that fails gives its status and counts in XLT_MEM_FAULT, and nothing is read or written; a read of a stopped module changes
nothing in it (R83). -/
def Obligations.RegisterAndMemoryCommands : Prop :=
  ((∀ (f : CmdFrame) (s : State) (x : Session) (a n : Nat),
     let g := frameWithOpcode f 0x0010
     let t := commandStart s x g
     Admitted s x g → g.length = 16 → a = beAt g.body 0 8 → n = beAt g.body 8 8 → regArgsOk a n = true →
     ((∀ o ∈ regOffsets a n, readStatus t x.role o = 0) →
       exec (.regRead f) s = .next (commandEnd g (.send (complete 0 ((regOffsets a n).flatMap (fun o => beBytes 8 (readValue t o)))),
         (regOffsets a n).foldl readClear t))) ∧
     ((∃ o ∈ regOffsets a n, readStatus t x.role o = 0x11) → exec (.regRead f) s = .next (commandEnd g (refused t 0x11))) ∧
     ((∀ o ∈ regOffsets a n, readStatus t x.role o ≠ 0x11) → (∃ o ∈ regOffsets a n, readStatus t x.role o ≠ 0) →
       exec (.regRead f) s = .next (commandEnd g (refused t 0x0D)))) ∧
   (∀ (f : CmdFrame) (s : State) (x : Session) (a n : Nat),
     let g := frameWithOpcode f 0x0011
     let t := commandStart s x g
     Admitted s x g → g.length = 16 + 8 * n → a = beAt g.body 0 8 → n = beAt g.body 8 8 → regArgsOk a n = true →
     let r := writeRegs t x.role ((regOffsets a n).zip ((List.range n).map (fun i => beAt g.body (16 + 8 * i) 8)))
     exec (.regWrite f) s = .next (commandEnd g (.send (complete r.1 []), r.2))) ∧
   (∀ (s : State) (role : Role) (a v : Nat) (l : List (Nat × Nat)),
     (writeStatus s role a v = 0 → writeRegs s role ((a, v) :: l) = writeRegs (writeReg s a v) role l) ∧
     (writeStatus s role a v ≠ 0 → writeRegs s role ((a, v) :: l) = (writeStatus s role a v, s))) ∧
   (∀ (b : Block) (i : Nat) (s : State), exec (.lock b i) s = .next (lockRow s b i))) ∧
  ((∀ (f : CmdFrame) (s u : State) (x : Session),
     let g := frameWithOpcode f 0x0012
     let t := commandStart s x g
     Admitted s x g → memArgsOk t g false = true →
     (∀ ps, memTranslate t g .r = (.ok ps, u) →
       let r := readPieces u ps
       exec (.memRead f) s = .next (commandEnd g (.send (if r.2.1 then complete 0x60 [] else complete 0 r.1),
         if s.gct.stopped then t else r.2.2))) ∧
     (∀ e, memTranslate t g .r = (.error e, u) →
       exec (.memRead f) s = .next (commandEnd g (.send (complete e []), if s.gct.stopped then t else bump u .xltMemFault 0 0)))) ∧
   (∀ (f : CmdFrame) (s u : State) (x : Session),
     let g := frameWithOpcode f 0x0013
     let t := commandStart s x g
     Admitted s x g → memArgsOk t g true = true →
     (∀ ps, memTranslate t g .w = (.ok ps, u) → exec (.memWrite f) s = .next (commandEnd g (doneWith (writePieces u (g.body.drop 24) false ps)))) ∧
     (∀ e, memTranslate t g .w = (.error e, u) →
       exec (.memWrite f) s = .next (commandEnd g (.send (complete e []), bump u .xltMemFault 0 0)))))

/-- MODE_SET (R432, R58): items that are all valid apply in order, and take effect each at its effect point. SUBSCRIBE (R91; the layout of its
body is the model's choice, log 159): a session that has no subscription to the class gets one, up to four of them, and one that has it takes
the new destination. MODE_TAKES_EFFECT (R56): at the effect point of a mode its pending value is the mode, and Tier 3 requests that waited for
it go on.
RUN and the result slots (R85–R90, R246, R598). RUN takes a free slot and answers its handle (its place in the body is the model's choice, log
159); SLOT_READ of a slot that is not ready answers NOT_READY, and of one that is ready its status and data, or POISONED where its cells hold an
uncorrectable error; SLOT_RELEASE frees a ready slot, waits for the end of an unfinished run, and is only recorded while the islands stand;
CANCEL_COMPLETE frees the slot of the run that has stopped; SLOT_TTL_EXPIRY frees a slot that has been ready for GCT_SLOT_TTL. -/
def Obligations.ModesAndRuns : Prop :=
  ((∀ (f : CmdFrame) (s : State) (x : Session),
     let g := frameWithOpcode f 0x0030
     let t := commandStart s x g
     Admitted s x g → modeStatus t g = 0 →
     exec (.modeSet f) s = .next (commandEnd g (doneWith
       (modesMod t (fun m => ((List.range (beAt g.body 0 2)).map (modeItem g.body)).foldl applyItem m))))) ∧
   (∀ (f : CmdFrame) (s : State) (x : Session),
     let g := frameWithOpcode f 0x0032
     let t := commandStart s x g
     let cls := byteAt g.body 0
     Admitted s x g → g.length = 8 → allZero (slice g.body 1 7) = true → cls ≤ 2 →
     (subOf s cls g.session = none → (s.gct.subs.filter (fun y => y.cls == cls)).length < 4 →
       let u : Subscription :=
         { cls := cls, session := g.session, port := g.port, smac := g.smac, vlan := g.vlan, udp := g.udp, count := 0, lost := 0 }
       exec (.subscribe f) s = .next (commandEnd g (doneWith { t with gct := { t.gct with subs := s.gct.subs ++ [u] } }))) ∧
     (subOf s cls g.session = none → 4 ≤ (s.gct.subs.filter (fun y => y.cls == cls)).length →
       exec (.subscribe f) s = .next (commandEnd g (refused t 0x20))) ∧
     (∀ u, subOf s cls g.session = some u →
       let u' := { u with port := g.port, smac := g.smac, vlan := g.vlan, udp := g.udp }
       exec (.subscribe f) s = .next (commandEnd g (doneWith { t with gct := { t.gct with
         subs := s.gct.subs.map (fun y => if y.cls == cls && y.session == g.session then u' else y) } })))) ∧
   (∀ (code : Nat) (s : State), (s.gct.stopped = true → code = 5) → modeDue s code = true →
     let t := modesMod s (fun m => m.take code)
     exec (.modeTakesEffect code) s = .next (if code = 3 then
       { t with tiers := { t.tiers with escal := t.tiers.escal.map (fun e => { e with held := false }) } } else t)) ∧
   (∀ (m : Modes) (code v : Nat), modePending m code = some v →
     m.take code = { m.put code v with pending := m.pending.filter (fun e => e.1 != code) })) ∧
  ((∀ (f : CmdFrame) (s : State) (x : Session) (n : Nat),
     let g := frameWithOpcode f 0x0050
     let t := commandStart s x g
     let b := g.body
     let u := (freeBits t 12).2
     let r : ResultSlot := { role := x.role, ctx := beAt b 0 2, resultLen := beAt b 24 8, ready := none, data := [], read := false, readyAt := 0 }
     Admitted s x g → g.length = 32 → beAt b 6 2 = 0 → beAt b 24 8 ≤ 4096 → beAt b 24 8 % 8 = 0 →
     freeSlotFrom u (freeBits t 12).1 4096 = some n →
     exec (.run f) s = .next (commandEnd g (.send (complete 0 (beBytes 4 (slotHandle t n) ++ zeros 4)),
       placeRun { u with gct := { u.gct with slots := finsert u.gct.slots n r } } n (beAt b 0 2) (beAt b 2 2) (beAt b 4 2) (beAt b 8 8)
         (beAt b 16 8) (beAt b 24 8) (contextRuns t (beAt b 0 2))))) ∧
   (∀ (f : CmdFrame) (s : State) (x : Session) (n : Nat) (r : ResultSlot),
     let g := frameWithOpcode f 0x0051
     let t := commandStart s x g
     Admitted s x g → slotArg t x.role g = .ok (n, r) →
     (r.ready = none → exec (.slotRead f) s = .next (commandEnd g (.send (complete 0x01 []), t))) ∧
     (∀ st, r.ready = some st →
       let cells := (slotCells n).take (1 + ceilDiv r.data.length 256)
       let u := if s.gct.stopped then t else readCells t cells
       let bad := cellsFail u cells
       exec (.slotRead f) s = .next (commandEnd g
         (.send { status := if bad then 0x60 else st, flags := if r.read then 4 else 0, body := if bad then [] else r.data },
          { u with gct := { u.gct with slots := fmod u.gct.slots n (fun y => { y with read := true }) } })))) ∧
   (∀ (f : CmdFrame) (s : State) (x : Session) (n : Nat) (r : ResultSlot),
     let g := frameWithOpcode f 0x0052
     let t := commandStart s x g
     let standing : Prop := s.gct.dev = .halted ∨ (s.gct.dev = .faulted ∧ s.gct.stopped = true)
     Admitted s x g → slotArg t x.role g = .ok (n, r) →
     (standing → exec (.slotRelease f) s =
       .next (commandEnd g (doneWith { t with gct := { t.gct with releases := t.gct.releases ++ [n] } }))) ∧
     (¬ standing → r.ready.isSome = true → exec (.slotRelease f) s = .next (commandEnd g (doneWith (freeSlot t n)))) ∧
     (¬ standing → r.ready = none → exec (.slotRelease f) s = .next (commandEnd g (.cancel n, t)))) ∧
   (∀ (n : Fin 4096) (s : State) (r : ResultSlot), fget? s.gct.slots n.val = some r → anyWait s (fun w => w == .cancel n.val) = true →
     r.ready.isSome = true ∨ (s.gct.stopped = false ∧ cancelWaits s r.ctx = false) →
     exec (.cancelComplete n) s = .next (answerWait (dropSlot s n.val) (fun w => w == .cancel n.val) 0 [])) ∧
   (∀ (n : Fin 4096) (s : State) (r : ResultSlot), fget? s.gct.slots n.val = some r → s.gct.dev ≠ .halted → r.ready.isSome = true →
     r.readyAt + msTicks (regF s .gctSlotTtl 0 0 0 32) ≤ s.idleClock → exec (.slotTtlExpiry n) s = .next (freeSlot s n.val)))

/-- The operations of RULE_WRITE (R146, R147): on a table whose standby bank no packet pins and on which no write waits, a body that is well
formed applies at once; on a pinned one it waits. RULE_SWAP (R145, R146): the ACTIVE bits of the masked tables are inverted, after any
RULE_WRITE in execution on them.
FLOW_READ and FLOW_DELETE (R167, R168): a read reaches its buckets and returns the entry or the bucket; a delete waits while its buckets are
locked; then it removes the entry, and completes when its record has entered the record queue, and one that finds no entry gives BAD_ARGS. -/
def Obligations.RuleAndFlowCommands : Prop :=
  ((∀ (f : CmdFrame) (s : State) (x : Session) (op : Nat) (c : CmdFrame → Instr),
     (op, c) ∈ [(1, Instr.ruleDefine), (2, Instr.ruleInsert), (3, Instr.ruleDelete), (4, Instr.ruleSetDefault), (5, Instr.ruleUndefine)] →
     let g := frameWithByte (frameWithOpcode f 0x0040) 1 op
     let t := commandStart s x g
     Admitted s x g → ruleWriteOk g.body = true →
     (ruleBlocked t (byteAt g.body 0) = false →
       exec (c f) s = .next (commandEnd g (.send (complete (ruleWrite t g.body).1 []), (ruleWrite t g.body).2))) ∧
     (ruleBlocked t (byteAt g.body 0) = true → exec (c f) s = .next (commandEnd g (.rulePins (byteAt g.body 0), t)))) ∧
   (∀ (f : CmdFrame) (s : State) (x : Session),
     let g := frameWithOpcode f 0x0041
     let t := commandStart s x g
     let mask := beAt g.body 0 2
     Admitted s x g → g.length = 8 → allZero (slice g.body 2 6) = true →
     (swapBlocked t mask t.gct.begun = false → exec (.ruleSwap f) s = .next (commandEnd g (doneWith (ruleSwap t mask)))) ∧
     (swapBlocked t mask t.gct.begun = true → exec (.ruleSwap f) s = .next (commandEnd g (.ruleSwap mask, t))))) ∧
  ((∀ (f : CmdFrame) (s : State) (x : Session),
     let g := frameWithOpcode f 0x0042
     let t := commandStart s x g
     Admitted s x g → flowBodyOk g.body false = true →
     exec (.flowRead f) s = .next (commandEnd g (.send (complete 0 (flowRead t g.body).1), (flowRead t g.body).2))) ∧
   (∀ (f : CmdFrame) (s u : State) (x : Session),
     let g := frameWithOpcode f 0x0043
     let t := commandStart s x g
     Admitted s x g → flowBodyOk g.body true = true →
     (deleteBlocked t g.body = true → exec (.flowDelete f) s = .next (commandEnd g (.flowLock, t))) ∧
     (∀ note, deleteBlocked t g.body = false → flowDelete t g.body = (some note, u) →
       exec (.flowDelete f) s = .next (commandEnd g (if noteWaits u note then (.flowNote note, u) else doneWith u))) ∧
     (deleteBlocked t g.body = false → flowDelete t g.body = (none, u) →
       exec (.flowDelete f) s = .next (commandEnd g (refused u 0x0D)))))

/-- IMAGE_STAGE (R524). BEGIN reserves the size and discards an earlier incomplete stage; DATA appends at the expected offset; FINISH of a whole
stage verifies it, and the image is complete, or the stage is erased with SIG_INVALID; DELETE erases the image and the stage of an ID whose image
is not in use. DATA is refused with CAPACITY once spare blocks have run out (R500).
FIRMWARE_STAGE and FIRMWARE_ACTIVATE (R524, R525): a stage of a slot that does not run begins, takes bytes at the expected offset and, whole
and verified, is complete; activation of a verified slot writes the boot slot and, with bit 0 of FLAGS, MIN_SVN. -/
def Obligations.StagingCommands : Prop :=
  (∀ (f : CmdFrame) (s : State) (x : Session),
     let g (op : Nat) : CmdFrame := frameWithByte (frameWithOpcode f 0x0060) 0 op
     let id (op : Nat) : Nat := beAt (g op).body 4 4
     let off (op : Nat) : Nat := beAt (g op).body 8 8
     let t (op : Nat) : State := commandStart s x (g op)
     (Admitted s x (g 1) → stageOk (g 1) false = true → byteAt (g 1).body 0 = 1 → imageInUse s (id 1) = false →
       let u := flashMod (t 1) (fun y => { y with stages := ferase y.stages (id 1) })
       libraryHeld u + off 1 ≤ partSize 3 →
       exec (.imageBegin f) s = .next (commandEnd (g 1) (doneWith
         (flashMod u (fun y => { y with stages := finsert y.stages (id 1) (Stage.begin_ (off 1)) }))))) ∧
     (∀ (m : Media) (d d' : Stage),
       let s1 := mediaPut s (g 2) m
       let u := commandStart s1 x (g 2)
       Admitted s1 x (g 2) → stageOk (g 2) false = true → byteAt (g 2).body 0 = 2 → fget? s.flash.stages (id 2) = some d →
       stageData d (off 2) ((g 2).body.drop 24) = some d' →
       (s.flash.spent = true → exec (.imageData f m) s = .next (mediaDrop (commandEnd (g 2) (refused u 0x20)) (g 2))) ∧
       (s.flash.spent = false →
       let r := mediaTake u (g 2)
       exec (.imageData f m) s = .next (mediaDrop (commandEnd (g 2) (doneWith (flashMod (mediaCount r.2 r.1)
         (fun y => countWritten { y with stages := finsert y.stages (id 2) d' } 3 ((g 2).length - 24))))) (g 2)))) ∧
     (∀ d : Stage, Admitted s x (g 3) → stageOk (g 3) false = true → byteAt (g 3).body 0 = 3 → fget? s.flash.stages (id 3) = some d →
       d.data.length = d.total → d.used = false →
       let erased := flashMod (t 3) (fun y => { y with stages := ferase y.stages (id 3) })
       exec (.imageFinish f) s = .next (commandEnd (g 3) (if lanvikVerifies (t 3) d.data (id 3) = true
         then doneWith (flashMod erased (fun y => { y with images := finsert y.images (id 3) d.data }))
         else refused (sigBad erased) 0x70))) ∧
     (Admitted s x (g 4) → stageOk (g 4) false = true → byteAt (g 4).body 0 = 4 →
       (imageInUse s (id 4) = false ∨ fget? s.flash.images (id 4) = none) →
       ((fget? s.flash.images (id 4)).isSome = true ∨ (fget? s.flash.stages (id 4)).isSome = true) →
       exec (.imageDelete f) s = .next (commandEnd (g 4) (doneWith (flashMod (t 4)
         (fun y => { y with stages := ferase y.stages (id 4), images := ferase y.images (id 4) })))))) ∧
  (∀ (f : CmdFrame) (s : State) (x : Session),
     let g (op : Nat) : CmdFrame := frameWithByte (frameWithOpcode f 0x0062) 0 op
     let slot (op : Nat) : Nat := byteAt (g op).body 1
     let t (op : Nat) : State := commandStart s x (g op)
     (Admitted s x (g 1) → stageOk (g 1) true = true → byteAt (g 1).body 0 = 1 → slot 1 ≠ s.trust.runSlot →
       beAt (g 1).body 8 8 ≤ partSize 0 →
       exec (.firmwareBegin f) s = .next (commandEnd (g 1) (doneWith
         (flashMod (t 1) (fun y => { y with fw := fput y.fw (slot 1) (some (Stage.begin_ (beAt (g 1).body 8 8))) }))))) ∧
     (∀ (m : Media) (d d' : Stage),
       let s1 := mediaPut s (g 2) m
       let u := commandStart s1 x (g 2)
       Admitted s1 x (g 2) → stageOk (g 2) true = true → byteAt (g 2).body 0 = 2 → fget? s.flash.fw (slot 2) = some d →
       stageData d (beAt (g 2).body 8 8) ((g 2).body.drop 24) = some d' →
       (s.flash.spent = true → exec (.firmwareData f m) s = .next (mediaDrop (commandEnd (g 2) (refused u 0x20)) (g 2))) ∧
       (s.flash.spent = false →
       let r := mediaTake u (g 2)
       exec (.firmwareData f m) s = .next (mediaDrop (commandEnd (g 2) (doneWith (flashMod
         (mediaCount (flashMod r.2 (fun y => { y with fw := fput y.fw (slot 2) (some d') })) r.1)
         (fun y => countWritten y (slot 2) ((g 2).length - 24))))) (g 2)))) ∧
     (∀ d : Stage, Admitted s x (g 3) → stageOk (g 3) true = true → byteAt (g 3).body 0 = 3 → fget? s.flash.fw (slot 3) = some d →
       d.data.length = d.total → d.complete = false →
       let put (v : Option Stage) : State := flashMod (t 3) (fun y => { y with fw := fput y.fw (slot 3) v })
       exec (.firmwareFinish f) s = .next (commandEnd (g 3) (if firmwareVerifies (t 3) d.data = true
         then doneWith (put (some { d with complete := true })) else refused (sigBad (put none)) 0x70))) ∧
     (∀ img : Bytes,
       let h := frameWithOpcode f 0x0063
       let u := commandStart s x h
       Admitted s x h → h.length = 8 → byteAt h.body 0 ≤ 1 → byteAt h.body 1 ≤ 1 → allZero (slice h.body 2 6) = true →
       firmwareAt s (byteAt h.body 0) = some img →
       exec (.firmwareActivate f) s = .next (commandEnd h (if firmwareVerifies u img = true
         then doneWith (trustMod u (fun y =>
           { y with bootSlot := byteAt h.body 0, minSvn := if byteAt h.body 1 = 1 then leAt img 8 4 else y.minSvn }))
         else refused (sigBad u) 0x70))))

/-- FLASH_READ, FLASH_WRITE and FLASH_ERASE (R509, R510): a read of a readable range without a lost sector returns its bytes, and one with a lost
sector gives POISONED (R497; the sectors that a degraded store had not rebuilt are free values, log 166); a write puts one sector of SNAPSHOT; an
erase discards a SNAPSHOT range, or resets the CAPTURE ring.
ATTEST_QUOTE, AUDIT_READ, COUNTER_READ, TRACE_CTL and SCAN_OUT (R530, R533, R551, R563, R569) answer from the state that they find: a new
quote is kept with its ID, and its later parts are read by it; audit records and counters of each class are returned; tracing is set, stopped
or marked; a scan returns its bytes and extends M7. -/
def Obligations.FlashAndEvidenceCommands : Prop :=
  ((∀ (f : CmdFrame) (m : Media) (s : State) (x : Session) (part off n : Nat),
     let g := frameWithOpcode f 0x0064
     let s1 := mediaPut s g m
     let u := commandStart s1 x g
     Admitted s1 x g → g.length = 24 → flashReservedOk g.body = true → flashFields g.body = (part, off, n) → n = 4096 ∨ n = 8192 →
     part = 3 ∨ part = 5 → off % 4096 = 0 → off + n ≤ partSize part →
     exec (.flashRead f m) s = .next (mediaDrop (commandEnd g (handled (flashReadAt u g part off n))) g)) ∧
   (∀ (f : CmdFrame) (m : Media) (s : State) (x : Session) (off n : Nat),
     let g := frameWithOpcode f 0x0064
     let s1 := mediaPut s g m
     let u := commandStart s1 x g
     Admitted s1 x g → g.length = 24 → flashReservedOk g.body = true → flashFields g.body = (4, off, n) → n = 4096 ∨ n = 8192 →
     s.flash.tail ≤ off → off + n ≤ s.flash.head →
     exec (.flashRead f m) s = .next (mediaDrop (commandEnd g (handled (flashReadAt u g 4 off n))) g)) ∧
   (∀ (s : State) (f : CmdFrame) (part off n : Nat),
     let r := mediaTake s f
     let t := mediaLost (mediaCount r.2 r.1) part (sectorsOf off n) r.1.ue
     ((∀ i ∈ sectorsOf off n, sectorLost t part i = false) → flashReadAt s f part off n = (complete 0 (flashData t part off n), t)) ∧
     ((∃ i ∈ sectorsOf off n, sectorLost t part i = true) → flashReadAt s f part off n = (complete 0x60 [], t))) ∧
   (∀ (f : CmdFrame) (m : Media) (s : State) (x : Session) (off : Nat),
     let g := frameWithOpcode f 0x0065
     let s1 := mediaPut s g m
     let u := commandStart s1 x g
     Admitted s1 x g → g.length = 4120 → flashReservedOk g.body = true → flashFields g.body = (5, off, 4096) → off % 4096 = 0 →
     off + 4096 ≤ partSize 5 → s.flash.degraded = false → s.flash.spent = false →
     let r := mediaTake u g
     exec (.flashWrite f m) s = .next (mediaDrop (commandEnd g (doneWith (flashMod (mediaCount r.2 r.1) (fun y => countWritten { y with
       snap := flashPut (y.snap.filter (fun e => !(decide (off ≤ e.1) && decide (e.1 < off + 4096)))) off (slice g.body 24 4096)
       badSectors := clearSectors y.badSectors 5 off 4096 } 5 4096)))) g)) ∧
   (∀ (f : CmdFrame) (s : State) (x : Session),
     let g := frameWithOpcode f 0x0066
     let t := commandStart s x g
     Admitted s x g → g.length = 24 → flashReservedOk g.body = true → s.flash.degraded = false →
     (flashFields g.body = (4, 0, 0) → exec (.flashErase f) s = .next (commandEnd g (doneWith (flashMod t (fun y => { y with
       cap := [], head := 0, tail := 0, badSectors := y.badSectors.filter (fun e => e.1 / 2 ^ 40 != 4) }))))) ∧
     (∀ off n, flashFields g.body = (5, off, n) → off % 67108864 = 0 → n % 67108864 = 0 → n ≠ 0 → off + n ≤ partSize 5 →
       exec (.flashErase f) s = .next (commandEnd g (doneWith (flashMod t (fun y => { y with
         snap := y.snap.filter (fun e => !(decide (off ≤ e.1) && decide (e.1 < off + n)))
         badSectors := y.badSectors.filter (fun e =>
           !(e.1 / 2 ^ 40 == 5 && decide (off ≤ e.1 % 2 ^ 40 * 4096) && decide (e.1 % 2 ^ 40 * 4096 < off + n))) }))))))) ∧
  ((∀ (f : CmdFrame) (s : State) (x y : Session),
     let g := frameWithOpcode f 0x0070
     let t := commandStart s x g
     let b := g.body
     Admitted s x g → g.length = 48 → allZero (slice b 12 4) = true → beAt b 0 8 = 0 → beAt b 8 4 = 0 → sessionGet t g.session = some y →
     let v := (freeBits t 32).1
     let u := (freeBits t 32).2
     let q : Quote := { id := if v = 0 then 1 else v, bytes := quoteBytes t y (slice b 16 32) }
     exec (.attestQuote f) s = .next (commandEnd g (.send (quotePart q 0),
       trustMod u (fun z => { z with quotes := finsert z.quotes g.session q, quoteCount := z.quoteCount + 1 })))) ∧
   (∀ (f : CmdFrame) (s : State) (x y : Session) (q : Quote),
     let g := frameWithOpcode f 0x0070
     let t := commandStart s x g
     let off := beAt g.body 0 8
     let id := beAt g.body 8 4
     Admitted s x g → g.length = 48 → allZero (slice g.body 12 4) = true → off % 8176 = 0 → off < 26592 → off ≠ 0 ∨ id ≠ 0 →
     sessionGet t g.session = some y →
     (fget? s.trust.quotes g.session = some q → q.id = id → exec (.attestQuote f) s = .next (commandEnd g (.send (quotePart q off), t))) ∧
     (fget? s.trust.quotes g.session = some q → q.id ≠ id → exec (.attestQuote f) s = .next (commandEnd g (refused t 0x02))) ∧
     (fget? s.trust.quotes g.session = none → exec (.attestQuote f) s = .next (commandEnd g (refused t 0x02)))) ∧
   (∀ (f : CmdFrame) (s : State) (x : Session),
     let g := frameWithOpcode f 0x0071
     let t := commandStart s x g
     let b := g.body
     let first := beAt b 0 8
     let n := beAt b 8 2
     Admitted s x g → g.length = 16 → allZero (slice b 10 6) = true → 1 ≤ n → n ≤ 127 →
     (fget? (auditAll t) first = none → exec (.auditRead f) s = .next (commandEnd g (refused t 0x02))) ∧
     (∀ r, fget? (auditAll t) first = some r →
       let recs := (List.range n).filterMap (fun i => (fget? (auditAll t) (first + i)).map (fun y => y.bytes))
       exec (.auditRead f) s = .next (commandEnd g (.send (complete 0 (beBytes 8 first ++
         beBytes 8 (((auditAll t).head?.map Prod.fst).getD 0) ++ beBytes 8 t.trust.nextSeq ++ r.before ++ zeros 8 ++ recs.flatten)), t)))) ∧
   (∀ (f : CmdFrame) (s : State) (x : Session),
     let g := frameWithOpcode f 0x0080
     let t := commandStart s x g
     let b := g.body
     let l := rangeFrom (beAt b 4 2) (beAt b 6 2)
     let cls := byteAt b 0
     Admitted s x g → g.length = 8 → cls ≤ 2 → byteAt b 1 = 0 → 1 ≤ beAt b 6 2 → beAt b 6 2 ≤ 512 → (∀ i ∈ l, counterListed cls i = true) →
     (cls = 0 ∨ x.role = .operator) →
     (cls ≠ 2 → beAt b 2 2 = 0 →
       let r := counterValues t cls (fun i => fgetD 0 s.obs.ctr (ctrKey cls i)) l
       exec (.counterRead f) s = .next (commandEnd g (.send (complete 0 (beBytes 8 (stampNow t) ++ zeros 8 ++ r.1)), r.2))) ∧
     (∀ y, cls = 2 → (setOf t (beAt b 2 2)).bind (fget? t.obs.sets) = some y →
       let r := bankValues t y.live l
       let q := bankValues r.2 y.final l
       exec (.counterRead f) s =
         .next (commandEnd g (.send (complete 0 (beBytes 8 (stampNow t) ++ beBytes 4 y.bounds ++ zeros 4 ++ r.1 ++ q.1)), q.2)))) ∧
   (∀ (f : CmdFrame) (s : State) (x : Session),
     let g (op : Nat) : CmdFrame := frameWithByte (frameWithOpcode f 0x0081) 0 op
     let t (op : Nat) : State := commandStart s x (g op)
     let b := (g 1).body
     let src := byteAt b 2
     (Admitted s x (g 1) → (g 1).length = 24 → byteAt b 0 = 1 → traceEnableOk b = true →
       let v := 1 + byteAt b 1 * 2 + src * 4 + byteAt b 3 * 2 ^ 5 +
         (if src % 2 = 1 then beAt b 4 2 * 2 ^ 10 + beAt b 6 2 * 2 ^ 21 else 0)
       let u := regPutF (t 1) .obsTrace 0 0 0 32 v
       exec (.traceEnable f) s = .next (commandEnd (g 1) (doneWith (measExtend { u with obs := { u.obs with rseq := [], chaifSeq := 0 } } 7
         (sha256 (beBytes 2 (g 1).opcode ++ b)))))) ∧
     (Admitted s x (g 2) → (g 2).length = 24 → byteAt (g 2).body 0 = 2 → allZero ((g 2).body.drop 1) = true →
       exec (.traceDisable f) s = .next (commandEnd (g 2) (doneWith (regPutF (t 2) .obsTrace 0 0 0 1 0)))) ∧
     (Admitted s x (g 3) → (g 3).length = 24 → byteAt (g 3).body 0 = 3 → allZero (slice (g 3).body 1 7) = true →
       allZero (slice (g 3).body 16 8) = true →
       exec (.traceMarker f) s = .next (commandEnd (g 3) (doneWith
         (if traceOn (t 3) 2 then traceEmit (t 3) 3 0xFFFF (leBytes 8 (beAt (g 3).body 8 8)) else t 3))))) ∧
   (∀ (f : CmdFrame) (s : State) (x : Session) (bs : Bytes),
     let g := frameWithOpcode f 0x0082
     let t := commandStart s x g
     Admitted s x g → g.length = 24 → allZero (slice g.body 20 4) = true → scanBytes t g.body = some bs →
     exec (.scanOut f) s = .next (commandEnd g (.send (complete 0 bs), measExtend t 7 (sha256 (beBytes 2 g.opcode ++ g.body))))))

/-- MODEL_ACTIVATE (R211, R212, R453, R454, R474): BAD_ARGS for a section that the image does not have, SIG_INVALID where the image does not
verify, BAD_ARGS where a sharded image does not fit the mesh; else target 1 loads a Grove slot, target 2 switches the masked pipelines' Tier 2
set, target 3 places the Tier 3 model between escalations, target 4 marks the slot draining; UNLOAD_COMPLETE frees the drained slot, and
GATE_RELEASE opens a queue of the new set. What a section holds is the image's (Config; logs 22, 41–43, 165).
SPAN_MEMBER and APP_LOAD (R478, R491). ATTACH sets the identity, keeps the link map and trains the enabled links; EPOCH by a module that may
open one starts it, and by another gives WRONG_STATE (log 47); DETACH clears SPN_ID and stops training; QUERY answers the identity, epoch,
mesh, status and map; an application that verifies and fits is bound to its cores; an unload frees its slot and its contexts, whose runs end
with 0x0C (log 44). -/
def Obligations.ActivationAndApplications : Prop :=
  ((∀ (f : CmdFrame) (s : State) (x : Session) (n : Nat) (c : CmdFrame → Instr),
     (n, c) ∈ [(1, Instr.activateGrove), (2, Instr.activateTier2), (3, Instr.activateTier3)] →
     let g := frameWithByte (frameWithOpcode f 0x0061) 4 n
     let t := commandStart s x g
     let a := actBody g.body
     Admitted s x g → actFieldsOk g = true → a.target = n →
     exec (c f) s = .next (commandEnd g (match actSection t a with
       | none => refused t 0x0D
       | some (img, sec) =>
         if lanvikVerifies t img a.image = false then refused (sigBad t) 0x70
         else if imageUnfit t img = true then refused t 0x0D
         else match n with
           | 1 => activateGrove t g img sec
           | 2 => activateTier2 t g img sec
           | _ => activateTier3 t g img sec))) ∧
   (∀ (s : State) (f : CmdFrame) (img sec : Bytes),
     let a := actBody f.body
     let r := groveLoad s a.slot sec a.image a.sect
     activateGrove s f img sec = if r.1 = 0 then doneWith (activated r.2 f img) else refused s r.1) ∧
   (∀ (s : State) (f : CmdFrame) (img sec : Bytes),
     let m := Config.tier3Section sec
     activateTier3 s f img sec =
       if m.2.1 = true ∧ 25000 < m.2.2 then refused s 0x0D
       else if m.2.1 = true ∧ (s.gct.modes.share ≠ 0 ∨ apexFits s sec = false) then refused s 0x20
       else if s.tiers.escal.all (fun e => e.held) = true then doneWith (placeTier3 s f img sec) else (.place, s)) ∧
   (∀ (f : CmdFrame) (s : State) (x : Session) (v : GroveSlot),
     let g := frameWithByte (frameWithOpcode f 0x0061) 4 4
     let t := commandStart s x g
     let a := actBody g.body
     Admitted s x g → actFieldsOk g = true → a.target = 4 → fget? s.grove.slots a.slot = some v → v.draining = false →
     slotRouted t a.slot = false →
     exec (.activateUnload f) s = .next (commandEnd g (.unload a.slot,
       { t with grove := { t.grove with slots := finsert t.grove.slots a.slot { v with draining := true } } }))) ∧
   (∀ (n : Fin 16) (s : State) (v : GroveSlot), s.gct.stopped = false → fget? s.grove.slots n.val = some v → v.draining = true →
     slotInUse s n.val = false → exec (.unloadComplete n) s = .next (unloaded (groveFree s n.val) n.val)) ∧
   (∀ (i : Fin 8) (q : Fin 1024) (s : State), s.gct.stopped = false → exec (.gateRelease i q) s = .next (gateRelease s i.val q.val))) ∧
  ((∀ (f : CmdFrame) (s : State) (x : Session),
     let g (op : Nat) : CmdFrame := frameWithByte (frameWithOpcode f 0x0090) 0 op
     let t (op : Nat) : State := commandStart s x (g op)
     let b := (g 1).body
     (Admitted s x (g 1) → (g 1).length = 24 → byteAt b 0 = 1 → allZero (slice b 1 7) = true → byteAt b 12 < 64 →
       allZero (slice b 13 3) = true → (∀ k, k < 8 → byteAt b (16 + k) < 64 ∨ byteAt b (16 + k) = 0xFF) → inOpenEpoch s = false →
       let neigh := (List.range 8).map (fun k => byteAt b (16 + k))
       let u := regPut (t 1) .spnId 0 0 (beAt b 8 4 + byteAt b 12 * 2 ^ 32 + 2 ^ 38)
       let map := (List.range 8).foldl (fun m k => fsetD 0xFF m k (neigh.getD k 0xFF)) ([] : FMap Nat)
       exec (.spanAttach f) s = .next (commandEnd (g 1) (doneWith
         (measureSpan (trainEnabled { u with span := { u.span with neigh := map } }))))) ∧
     (Admitted s x (g 2) → byteAt (g 2).body 0 = 2 → 8 ≤ (g 2).length → allZero (slice (g 2).body 1 7) = true →
       epochArgsOk (t 2) (g 2) = true → regF s .spnId 0 0 38 1 = 1 →
       let plan := epochPlan (t 2) (g 2).body
       let free : Prop := isolated (t 2) = false ∧ s.span.run = none ∧ s.span.old = none ∧
         (isCoord (t 2) = true ∨ (s.span.member = false ∧ plan.map.head? = some (ownId (t 2))))
       (free →
         let u := startEpoch (t 2) plan 0xFF true
         exec (.spanEpoch f) s = .next (commandEnd (g 2) (if u.span.run.isNone then .send (complete 0 []) else .epoch, u))) ∧
       (¬ free → exec (.spanEpoch f) s = .next (commandEnd (g 2) (refused (t 2) 0x0C)))) ∧
     (Admitted s x (g 3) → (g 3).length = 8 → byteAt (g 3).body 0 = 3 → allZero (slice (g 3).body 1 7) = true → inOpenEpoch s = false →
       let u := regPut { t 3 with span := { (t 3).span with neigh := [] } } .spnId 0 0 0
       exec (.spanDetach f) s = .next (commandEnd (g 3) (doneWith
         ((List.range 8).foldl (fun t k => if linkState t k = 1 then setLinkState t k 0 else t) u)))) ∧
     (Admitted s x (g 4) → (g 4).length = 8 → byteAt (g 4).body 0 = 4 → allZero (slice (g 4).body 1 7) = true →
       exec (.spanQuery f) s = .next (commandEnd (g 4) (handled (spanQuery (t 4) (g 4)))))) ∧
   (∀ (f : CmdFrame) (s : State) (x : Session) (img : Bytes),
     let g := frameWithByte (frameWithOpcode f 0x00A0) 0 1
     let t := commandStart s x g
     let b := g.body
     let n := byteAt b 1
     let cores := beAt b 2 2
     let image := beAt b 4 4
     Admitted s x g → appFieldsOk g = true → byteAt b 0 = 1 → cores &&& regF s .crnCtl 0 0 0 16 = 0 → regF s .crnApp n 0 16 1 ≠ 1 →
     fget? s.flash.images image = some img → appMemory s + beAt b 8 4 + 8192 ≤ regF s .crnMem 0 0 48 8 * 1024 →
     let u := regPut t .crnApp n 0 (cores + 2 ^ 16 + image * 2 ^ 32)
     let v := { u with crown := { u.crown with appMem := finsert u.crown.appMem n (beAt b 8 4) } }
     exec (.appLoad f) s = .next (commandEnd g (
       if (Config.imageSection (imagePayload img) 5 0).isNone = true then refused t 0x0D
       else if lanvikVerifies t img image = true then
         doneWith (measExtend (appCores (imageUsed v image)) 5 (sha256 (img.take 88 ++ [byteOf n])))
       else refused (sigBad t) 0x70))) ∧
   (∀ (f : CmdFrame) (s : State) (x : Session),
     let g := frameWithByte (frameWithOpcode f 0x00A0) 0 2
     let t := commandStart s x g
     let n := byteAt g.body 1
     Admitted s x g → appFieldsOk g = true → byteAt g.body 0 = 2 →
     let u := regPut t .crnApp n 0 0
     let own (c : NewContext) : Bool := c.app.any (fun a => a.val == n)
     let gone := (s.crown.contexts.filter (fun e => own e.2)).map Prod.fst
     let v : State := { u with crown := { u.crown with
       appMem := ferase u.crown.appMem n, contexts := s.crown.contexts.filter (fun e => !own e.2) } }
     exec (.appUnload f) s =
       .next (commandEnd g (doneWith (appCores (gone.foldl (fun t c => runReady (cancelContext t c) c 0x0C []) v))))))

/-- Opening a session (R516, R518). An open under a key that is held, with its right tag, a number above the key's open counter, well-formed
fields and room, takes the number into the open counter and opens a session; a claim of an unclaimed module stores the installer root and opens
an installer session. An open that fails its key, tag or counter gets AUTH_FAIL; one that only its fields, length or the session limit refuse
gets that status. The frame's cells return in each case.
Completions and records leave, sessions end and the drain ends (R66, R67, R69, R78, R602). COMPLETION_SEND sends the completion of the
command in execution once it has room and audit space, stores it under its number, and the session's next command begins. RECORD_SEND puts the
state events that wait into their queue and sends the oldest record of the queue of its class. SESSION_TIMEOUT closes an idle session.
DRAIN_COMPLETE moves the module to READY. -/
def Obligations.SessionsAndCompletions : Prop :=
  ((∀ (f : CmdFrame) (s : State) (k : Bytes),
     let g := frameWithByte (frameWithOpcode f 0x0002) 0 1
     let b := g.body
     let role := byteAt b 1
     let slot := byteAt b 2
     let t := admitFrame s g
     let fails := exec (.sessionOpen f) s = .next (settleSlice (openFail (bump t .trsOpenFail 0 0) g (.audit (complete 0x10 []))))
     s.gct.dev ≠ .powered → inboundFits s g = true → framingOk s g = true → g.session = 0 → byteAt b 0 = 1 →
     (openKey s role slot = none → fails) ∧
     (openKey s role slot = some k → frameTag k g ≠ g.tag → fails) ∧
     (openKey s role slot = some k → g.seq ≤ fgetD 0 s.trust.opens (counterOf role slot) → fails) ∧
     (openKey s role slot = some k → frameTag k g = g.tag → fgetD 0 s.trust.opens (counterOf role slot) < g.seq →
       (openChecks s g ≠ 0 →
         exec (.sessionOpen f) s = .next (settleSlice (answerNow t g [] role slot (.audit (complete (openChecks s g) []))))) ∧
       (openChecks s g = 0 →
         let r := openSession (takeCounter t role slot g.seq) role slot k (slice b 8 32)
         exec (.sessionOpen f) s = .next (settleSlice (answerNow r.2.2 g r.2.1 role slot (.audit r.1)))))) ∧
   (∀ (f : CmdFrame) (s : State) (n : Fin 2),
     let g := frameWithByte (frameWithOpcode f 0x0002) 0 2
     let b := g.body
     let hnonce := slice b 8 32
     let root := hkdf hnonce (Config.kemShared Config.deviceSecret (slice b 40 1088)) (ascii "AEDEM INSTALLER") 32
     inboundFits s g = true → framingOk s g = true → g.session = 0 → byteAt b 0 = 2 → g.port = .command n → frameTag root g = g.tag →
     s.trust.root = none → s.gct.dev = .ready ∨ s.gct.dev = .maintenance → g.seq = 1 → fgetD 0 s.trust.opens 1 = 0 → openChecks s g = 0 →
     let r := claimDone (admitFrame s g) root hnonce 1
     exec (.sessionClaim f) s = .next (settleSlice (answerNow r.2.2 g r.2.1 (byteAt b 1) (byteAt b 2) (.audit r.1))))) ∧
  ((∀ (i : Nat) (s : State) (x : Session) (e : ExecCmd) (c : Completion), i ≠ 0 → sessionGet s i = some x → x.exec = some e →
     e.wait = .send c → completionFits s e c = true → auditBlocks s e = false →
     let s1 := storeDone (sendCompletion (recordCommand s e c) e c) e c
     let s2 := sessionMod s1 i (fun y => { y with exec := none, idleFrom := s.idleClock })
     exec (.completionSend i) s = .next (settleSlice (nextCmd (afterCompletion s2 i e.cmd c) i))) ∧
   (∀ (n : Fin 2) (s : State) (r : PushRecord) (rest : List PushRecord), s.gct.stopped = false →
     let v := retryStateEvents s (s.gct.stateWait.length + 1)
     standingRecords v n.val = r :: rest → outRoom v ((recordOut v r).map Prod.snd) = true → recordQueueUsable v n.val = true →
     let u := takeWords v (recordQueue v n.val) ((bytesToWords r.body).length)
     let t := sendRecord { u with gct := { u.gct with recq := fsetD [] u.gct.recq n.val rest } } r
     exec (.recordSend n) s = .next (retryStateEvents t (t.gct.stateWait.length + 1))) ∧
   (∀ (i : Nat) (s : State) (x : Session), sessionGet s i = some x → s.gct.dev ≠ .halted → x.load = 0 →
     x.idleFrom + msTicks (regF s .gctSessionTtl 0 0 0 32) ≤ s.idleClock →
     exec (.sessionTimeout i) s = .next (dropSession (auditEvent s 4 i []) i)) ∧
   (∀ s : State, s.gct.dev = .draining → s.gct.stopped = false → s.canopy.pkts = [] → openRuns s = [] →
     exec .drainComplete s = .next (enterState s .ready)))

/-! ### Power, reset, temperature, the management bus and the TAP -/

/-- From power to READY (R587, R526; R78). The rails ramp with the input in range, RESET_N is released 1 ms later and the module enters
SECURE_BOOT, and the boot slot's firmware, if it verifies, runs the boot to READY, else that of the other slot. Without any firmware that
verifies the module is FAULTED with cause 0x01.
Module reset (R588, R84; the pins of R591). RESET_N low for at least 10 μs resets the module; a pulse below 50 ns is ignored; a RESET
command's reset comes 10 μs after its completion has left. Every island starts anew in POWERED, with sessions closed; the flash contents and the
secure store stay. -/
def Obligations.PowerAndReset : Prop :=
  ((∀ (mv : Nat) (s : State), s.gct.dev = .powered → s.pwr.rails = false → 46000 ≤ mv → mv ≤ 56000 →
     exec (.powerUp mv) s = .next (pwrMod (regPut s .pwrRail 0 0 0) (fun p =>
       { p with mv := mv, pgoodIn := true, rails := true, resetN := false, releaseAt := s.clock + 1250000 }))) ∧
   (∀ s : State, s.gct.dev = .powered → s.pwr.rails = true → s.pwr.pgoodIn = true → s.pwr.releaseAt ≤ s.clock →
     exec .resetRelease s = .next (enterState (pwrMod s (fun p => { p with resetN := true })) .secureBoot)) ∧
   (∀ s : State, s.gct.dev ≠ .powered ∨ s.clock < s.pwr.releaseAt →
     exec .resetRelease s = .next (pwrMod s (fun p => { p with resetN := true }))) ∧
   (∀ s : State, s.gct.dev = .secureBoot →
     let s1 := trustMod (bootTables s) (fun t => { t with boots := (t.boots + 1) % 2 ^ 64 })
     let s2 := measExtend ((List.range 8).foldl (fun t m => measPut t m (zeros 32)) s1) 0 (sha256 Config.bootRom)
     let good (n : Nat) : Option Bytes := (firmwareAt s2 n).bind (fun b => if firmwareVerifies s2 b then some b else none)
     exec .secureBoot s = .next (match good s.trust.bootSlot, good (1 - s.trust.bootSlot) with
       | some b, _ => bootWith s2 s.trust.bootSlot b false
       | none, some b => bootWith (sigBad s2) (1 - s.trust.bootSlot) b true
       | none, none => enterFaulted (trustMod (sigBad (sigBad s2)) (fun t => { t with fallback := true })) 1))) ∧
  ((∀ (ns : Nat) (s : State), (ns < 50 → exec (.moduleReset (.pin ns)) s = .next s) ∧
     (10000 ≤ ns → exec (.moduleReset (.pin ns)) s = .next (pwrMod (moduleReset s) (fun p => { p with resetN := false })))) ∧
   (∀ (t : Nat) (s : State), s.gct.resetDue = some t →
     (t + 12500 ≤ s.clock → exec (.moduleReset .command) s = .next (moduleReset s)) ∧
     (s.clock < t + 12500 → exec (.moduleReset .command) s = .next s)) ∧
   (∀ s : State, exec (.moduleReset .power) s = .next (powerLost (pwrMod s (fun p => { p with pgoodIn := false })))) ∧
   ∀ s : State, (moduleReset s).gct.dev = .powered ∧ (moduleReset s).gct.sessions = [] ∧ (moduleReset s).gct.slots = [] ∧
     (moduleReset s).canopy.pkts = [] ∧ (moduleReset s).mem = [] ∧ (moduleReset s).flash.images = s.flash.images ∧
     (moduleReset s).flash.snap = s.flash.snap ∧ (moduleReset s).flash.cap = s.flash.cap ∧ (moduleReset s).trust.root = s.trust.root ∧
     (moduleReset s).trust.opens = s.trust.opens ∧ (moduleReset s).trust.chain = s.trust.chain ∧ (moduleReset s).pending = s.pending)

/-- The input and the regulators (R584–R586): input at 44–46 V or 56–58 V sets PWR_ALERT.INPUT_RANGE; outside 44–58 V, or with PGOOD_IN or a
rail lost, power-good is lost; the first failing phase of a rail is shed and a second one is fatal with cause 0x03; the cap loop gates Facet
issue above the cap.
Temperature (R595, R421): a Limb at 100 °C or more is throttled and stays so until it reads below 95 °C; a die at 110 °C or a stack at
105 °C is fatal with cause 0x05; a stack's temperature sets its refresh rate, and the time in throttling is counted. -/
def Obligations.InputAndTemperature : Prop :=
  ((∀ (mv : Nat) (s : State), s.pwr.rails = true → (44000 ≤ mv ∧ mv < 46000) ∨ (56000 < mv ∧ mv ≤ 58000) →
     exec (.inputRange mv) s = .next (bump (regPutF (pwrMod s (fun p => { p with mv := mv })) .pwrAlert 0 0 0 1 1) .pwrInputEvents 0 0)) ∧
   (∀ (mv : Nat) (s : State), mv < 44000 ∨ 58000 < mv →
     exec (.powerGoodLoss (.input mv)) s = .next (powerLost (pwrMod s (fun p => { p with mv := mv })))) ∧
   (∀ s : State, exec (.powerGoodLoss .pgoodIn) s = .next (powerLost (pwrMod s (fun p => { p with pgoodIn := false })))) ∧
   (∀ (r : Nat) (s : State), r < 12 → exec (.powerGoodLoss (.rail r)) s = .next (powerLost s)) ∧
   (∀ (r : Nat) (s : State), r < 12 → s.pwr.rails = true →
     (regF s .pwrRail 0 0 (2 * r) 2 = 0 → exec (.phaseShed r) s =
       .next (bump (regPutF (regPutF s .pwrRail 0 0 (2 * r) 2 1) .pwrAlert 0 0 1 1 1) .pwrShed 0 0)) ∧
     (regF s .pwrRail 0 0 (2 * r) 2 = 1 → exec (.phaseShed r) s = .next (enterFaulted (regPutF s .pwrRail 0 0 (2 * r) 2 2) 3)) ∧
     (2 ≤ regF s .pwrRail 0 0 (2 * r) 2 → exec (.phaseShed r) s = .next s)) ∧
   (∀ (mv ca dw : Nat) (s : State), exec (.capControl mv ca dw) s = .next (pwrMod s (fun p =>
     { p with mv := mv % 65536, ca := ca % 65536, dw := dw % 65536, capGate := decide (10 * s.gct.modes.cap < dw % 65536) })))) ∧
  ((∀ (n temp : Nat) (s : State), n < 4 →
     let s1 := pwrMod (throttleSettle s) (fun p => { p with temps := fsetD 25 p.temps (n + 1) (Nat.min temp 255) })
     (100 ≤ temp → bitN s.pwr.throttled n = false → exec (.limbThrottle n temp) s =
       .next (pwrMod (regPutF s1 .pwrAlert 0 0 2 1 1) (fun p =>
         { p with throttled := setBitN p.throttled n true, hotSince := finsert p.hotSince n s.clock }))) ∧
     (temp < 95 → exec (.limbThrottle n temp) s = .next (pwrMod s1 (fun p =>
       { p with throttled := setBitN p.throttled n false, hotSince := ferase p.hotSince n }))) ∧
     (95 ≤ temp → temp < 100 → exec (.limbThrottle n temp) s = .next s1)) ∧
   (∀ (n temp : Nat) (s : State), n < 5 → 110 ≤ temp → exec (.thermalShutdown n temp) s =
     .next (enterFaulted (pwrMod s (fun p => { p with temps := fsetD 25 p.temps n (Nat.min temp 255) })) 5)) ∧
   (∀ (n temp : Nat) (s : State), 5 ≤ n → n < 13 → 105 ≤ temp →
     exec (.thermalShutdown n temp) s = .next (enterFaulted (hbmThermal s (n - 5) temp) 5)) ∧
   (∀ (st : Fin 8) (temp : Nat) (s : State), temp ≤ 255 →
     let t := heatSettle s st.val
     let u := { t with facet := { t.facet with
       hotSince := if thermalOf temp = 2 then finsert t.facet.hotSince st.val s.clock else ferase t.facet.hotSince st.val } }
     exec (.hbmThermal st temp) s = .next (regPutF (regPutF u .hbmStatus 0 st.val 0 8 temp) .hbmStatus 0 st.val 8 2 (thermalOf temp))))

/-- The management bus and the TAP (R592, R593, R570): each telemetry read sends its LINEAR11 word while VAUX is up; IDCODE sends 0x1941_64B3;
BYPASS and every reserved code send the data one bit late; EXTEST and SAMPLE/PRELOAD set the boundary register and send what the pins hold, a
free value, and change nothing else; SCAN_READ sends scan bytes in HALTED when TAP_EN is set, and records an audit event.
Counters and trace (R554, R555, R558, R560–R562): a core's counts enter the bound set and leave the core; a boundary copies LIVE into FINAL
and clears it; a PC sample of a resident context becomes a trace record; a Chaif frame takes the oldest whole records, without those that an
uncorrectable error has hit, which are discarded and counted; the fallback sends the oldest of its records to the trace subscribers, or
discards it where there are none; Chaif's link shows in OBS_TRACE.LINK. -/
def Obligations.SidebandAndCounters : Prop :=
  ((∀ s : State, s.pwr.rails = true →
     exec .readVin s = .next { s with sent := s.sent ++ [.smbus (linear11 s.pwr.mv 1000)] } ∧
     exec .readIin s = .next { s with sent := s.sent ++ [.smbus (linear11 s.pwr.ca 100)] } ∧
     exec .readPin s = .next { s with sent := s.sent ++ [.smbus (linear11 s.pwr.dw 10)] } ∧
     ∃ hot, (∀ i, i < 5 → fgetD 25 s.pwr.temps i ≤ hot) ∧ (hot = 0 ∨ ∃ i, i < 5 ∧ hot = fgetD 25 s.pwr.temps i) ∧
       exec .readTemperature1 s = .next { s with sent := s.sent ++ [.smbus (linear11 hot 1)] }) ∧
   (∀ s : State, exec .idcode s = .next { s with sent := s.sent ++ [.tap 0x194164B3], pwr := { s.pwr with tapIr := 1 } }) ∧
   (∀ (code data : Nat) (s : State), exec (.bypass code data) s =
     .next { s with sent := s.sent ++ [.tap (2 * data)], pwr := { s.pwr with tapIr := code % 256 } }) ∧
   (∀ (data : Nat) (s : State), ∃ v, exec (.samplePreload data) s = .next { s with
     freeCount := s.freeCount + 1, sent := s.sent ++ [.tap v], pwr := { s.pwr with tapIr := 2, boundary := data } }) ∧
   (∀ (data : Nat) (s : State),
     (s.pwr.resetN = true → exec (.extest data) s =
       .next { s with sent := s.sent ++ [.tap (2 * data)], pwr := { s.pwr with tapIr := 0 } }) ∧
     (s.pwr.resetN = false → ∃ v, exec (.extest data) s = .next { s with
       freeCount := s.freeCount + 1, sent := s.sent ++ [.tap v], pwr := { s.pwr with tapIr := 0, boundary := data } })) ∧
   (∀ (body bs : Bytes) (s : State), regF s .obsCtl 0 0 0 1 = 1 → s.gct.dev = .halted → scanBytes s body = some bs →
     exec (.scanRead body) s = .next (pwrMod (auditAdd { s with sent := s.sent ++ [.tap (leNat bs)] }
       (auditRecord s 3 0 0 0 0x82 0 0 1 (body.take 16))) (fun p => { p with tapIr := 0x20 })))) ∧
  ((∀ (k : Fin 1280) (s : State), s.gct.stopped = false → exec (.countSend k) s =
     .next ((fgetD [] s.obs.local_ k.val).foldl (fun t e => takeCount t e.1 e.2) { s with obs := { s.obs with local_ := ferase s.obs.local_ k.val } })) ∧
   (∀ (j : Fin 32) (s : State), crownRuns s = true →
     (s.gct.stopped = false →
       exec (.commandBoundary j true) s = .next (setBoundary (s.obs.local_.foldl (fun t e => countSend t e.1) s) j.val)) ∧
     exec (.commandBoundary j false) s = .next s) ∧
   (∀ (s : State) (j : Nat) (c : CtrSet), fget? s.obs.sets j = some c →
     fget? (setBoundary s j).obs.sets j = some { c with final := c.live, live := [], bounds := (c.bounds + 1) % 2 ^ 32 }) ∧
   (∀ (k : Fin 1280) (h : Fin 8) (issued : Bool) (s : State) (x : Hc), s.gct.stopped = false → traceOn s 0 = true → coreActive s k.val = true →
     regF s .obsTrace 0 0 10 11 ≤ k.val → k.val ≤ regF s .obsTrace 0 0 21 11 → hcGet s k.val h.val = some x →
     exec (.pcSample k h issued) s = .next (traceEmit s 1 k.val (leBytes 6 x.pc ++ leBytes 2 x.ctx ++ leBytes 2 x.layer ++ leBytes 2 x.oper ++
       [byteOf (stallOf s k.val h.val x issued), byteOf h.val, 0, 0]))) ∧
   (∀ (n : Nat) (s : State) (taken left : List TraceRec), regF s .obsTrace 0 0 32 1 = 1 → takeChaif n s.obs.recs = (taken, left) →
     let now := taken.filter (fun r => !r.bad)
     let t := dropBad s taken
     (now.flatMap (fun r => r.bytes)).length ≤ 8192 →
     (now = [] → exec (.chaifFrameSend n) s = .next { t with obs := { t.obs with recs := left } }) ∧
     (now ≠ [] →
       let frame := beBytes 6 (regF t .obsChaifDmac 0 0 0 48) ++ beBytes 6 Config.chaifMac ++ beBytes 2 0x88B5 ++
         gctBytes [] 0x03 0 0 t.obs.chaifSeq 0 0 (now.flatMap (fun r => r.bytes))
       exec (.chaifFrameSend n) s = .next (bumpBy { t with
         obs := { t.obs with recs := left, chaifSeq := t.obs.chaifSeq + 1 }, sent := t.sent ++ [.chaif frame] } .obsTraceRecs 0 0 now.length))) ∧
   (∀ (s : State) (r : TraceRec), s.obs.recs.find? (fun r => r.fallback) = some r →
     let t : State := { s with obs := { s.obs with recs := s.obs.recs.erase r } }
     let fs := (recordFrames s 2 r.seqs r.bytes).filter (fun e => match e.1 with | .command _ => true | _ => false)
     let onPort (p : Nat) : Nat := (fs.filter (fun e => portIndex e.1 == p)).foldl (fun a e => a + lineBytes e.2) 0
     (traceSubscribed s = false → exec .traceFallbackSend s = .next (bump t .obsTraceDrop 0 0)) ∧
     (traceSubscribed s = true → r.bad = true → exec .traceFallbackSend s = .next (dropBad t [r])) ∧
     (traceSubscribed s = true → r.bad = false → outRoom s (fs.map Prod.snd) = true →
       (∀ p, p < 2 → windowBytes s p + onPort p ≤ 15000) →
       exec .traceFallbackSend s = .next (bump (fs.foldl sendTrace t) .obsTraceRecs 0 0)) ∧
     (traceSubscribed s = true → r.bad = false → outRoom s (fs.map Prod.snd) = false → exec .traceFallbackSend s = .next s)) ∧
   (∀ (up : Bool) (s : State), exec (.chaifLinkChange up) s = .next (regPutF s .obsTrace 0 0 32 1 (b2n up))))

/-! ### Crown cores, flash, trust, observation and debug -/

/-- Crown cores (R487, R488, R493): with each record that EVQ.RD passes, an EXCEPTION goes to its context's log page, and waiting events enter
the ring; a kick restarts a core's watchdog period; an expired period and a machine
check hold the core; 50 ms later it is released. -/
def Obligations.CrownCores : Prop :=
  (∀ (rd : Nat) (s : State), crownRuns s = true → (regF s .crnEvq 0 0 0 32 + 2 ^ 32 - rd % 2 ^ 32) % 2 ^ 32 ≤ 4096 →
    let old := regF s .crnEvq 0 0 32 32
    let n := (rd % 2 ^ 32 + 2 ^ 32 - old) % 2 ^ 32
    exec (.evqRd rd) s = .next (drainEvents (regPutF (if n ≤ 4096 then (rangeFrom old n).foldl handleEvent s else s) .crnEvq 0 0 32 32 rd)
      s.crown.evWait.length)) ∧
  (∀ (rd : Nat) (s : State), crownRuns s = true → 4096 < (regF s .crnEvq 0 0 0 32 + 2 ^ 32 - rd % 2 ^ 32) % 2 ^ 32 →
    exec (.evqRd rd) s = .next s) ∧
  (∀ (c : Fin 16) (s : State), crownRuns s = true → crownHeld s c.val = false →
    exec (.kick c) s = .next { s with crown := { s.crown with kick := finsert s.crown.kick c.val s.idleClock } }) ∧
  (∀ (c : Fin 16) (n : Nat) (s : State), crownRuns s = true → regF s .crnCtl 0 0 16 1 = 1 → isRuntime s c.val = true →
    crownHeld s c.val = false → fgetD 0 s.crown.kick c.val + msTicks (regF s .crnWd 0 0 0 16) ≤ s.idleClock →
    exec (.watchdog c n) s = .next (holdCore s c.val n)) ∧
  (∀ (c : Fin 16) (n : Nat) (s : State), crownRuns s = true → crownHeld s c.val = false →
    exec (.machineCheck c n) s = .next (holdCore (appEnds s c.val) c.val n)) ∧
  (∀ (c : Fin 16) (t : Nat) (s : State), fget? s.crown.held c.val = some t → t + msTicks 50 ≤ s.idleClock → s.gct.stopped = false →
    let s1 := regPutF (regPutF s .crnStatus 0 0 c.val 1 1) .crnStatus 0 0 (16 + c.val) 1 0
    exec (.coreRelease c) s = .next (kick { s1 with crown := { s1.crown with held := ferase s1.crown.held c.val } } c.val))

/-- The flash store (R501–R508): an append within the bucket and the buffer enters CAPTURE, and beyond them it is dropped and counted; a lost die
is rebuilt, and a second loss during the rebuild degrades the store; the scrub, once in each period (log 156), and wear levelling record what
they find. -/
def Obligations.FlashStore : Prop :=
  (∀ (c : Fin 16) (bs : Bytes) (s : State), crownRuns s = true → crownHeld s c.val = false → s.gct.stopped = false → 4096 ≤ bs.length →
    bs.length ≤ 1048576 →
    let s1 := flashMod s (fun x => { x with bucket := bucketNow s, bucketAt := s.clock })
    (s.flash.worn = false → s.flash.degraded = false → 1250 * bs.length ≤ bucketNow s →
      s.flash.buf.foldl (fun a x => a + x.length) 0 + bs.length ≤ 268435456 →
      exec (.captureAppend c bs) s = .next (appendStatus (drainAll (flashMod s1 (fun x =>
        { x with bucket := bucketNow s - 1250 * bs.length, buf := x.buf ++ [bs] }))) c.val false)) ∧
    (s.flash.worn = true ∨ s.flash.degraded = true ∨ bucketNow s < 1250 * bs.length ∨
      268435456 < s.flash.buf.foldl (fun a x => a + x.length) 0 + bs.length →
      exec (.captureAppend c bs) s = .next (appendStatus (bump s1 .fshCapDrop 0 0) c.val true))) ∧
  (∀ (d : Fin 16) (s : State), bitN s.flash.lost d.val = false →
    let s1 := recovery (flashMod s (fun x => { x with lost := setBitN x.lost d.val true }))
    (s.flash.rebuild = none → s.flash.rebuilt < 2 → exec (.dieLoss d) s = .next (flashMod s1 (fun x => { x with rebuild := some d.val }))) ∧
    (s.flash.rebuild.isSome = true ∨ 2 ≤ s.flash.rebuilt → exec (.dieLoss d) s = .next (flashMod s1 (fun x =>
      if x.degraded then x else { x with degraded := true, degradedAt := s.clock })))) ∧
  (∀ s : State, s.gct.stopped = false → s.flash.rebuild.isSome = true →
    exec .stripeRebuildComplete s = .next (flashMod s (fun x => { x with rebuild := none, rebuilt := x.rebuilt + 1 }))) ∧
  (∀ (m : Media) (ue : List Nat) (n : Nat) (s t : State) (due : Option Nat), s.gct.stopped = false →
    scrubPassOf s 2 15 (scrubSetting s) (fun v => msTicks (86400000 * (v / 2))) = (due, t) →
    exec (.flashScrub m ue n) s = .next (if (match due with | some v => bitN v 0 | none => false) = true then
      flashMod (bumpBy (bumpBy (mediaCount t m) .fshReloc 0 0 n) .fshUe 0 0 ue.length)
        (fun x => { x with badSectors := ue.foldl (fun t n => finsert t n true) x.badSectors })
      else t)) ∧
  (∀ (avg max spread : Nat) (spent : Bool) (s : State), s.gct.stopped = false →
    exec (.wearLevelling avg max spread spent) s = .next (flashMod s (fun x => { x with
      wear := Nat.min avg 65535 + Nat.min max 65535 * 2 ^ 16 + Nat.min spread 65535 * 2 ^ 32
      worn := x.worn || decide (10000 ≤ avg), spent := x.spent || spent })))

/-- Rows that write a trust register do exactly what REG_WRITE of it does, in the same states (R519, R520, R528, R529): RELEASE, ROTATE, EN,
SAVE and FACTORY.
The audit log (R531, R532): staged records go to the AUDIT partition, the oldest giving way; each second every counted session, opcode and
status gets one summary. -/
def Obligations.TrustRecords : Prop :=
  ((∀ (s : State) (row : RegRow), TakesWrite s row (mkReg .trsCtl 0 0) (s.trust.signerEn % 256 + 2 ^ 8) →
     exec .trsRelease s = .next (writeTrsCtl s (s.trust.signerEn % 256 + 2 ^ 8))) ∧
   (∀ (j : Fin 16) (s : State) (row : RegRow), TakesWrite s row (mkReg .trsOpkey j.val 0) (b2n (bitN s.trust.ens j.val) * 2 ^ 32 + 2 ^ 33) →
     exec (.rotate j) s = .next (writeOpkey s j.val (b2n (bitN s.trust.ens j.val) * 2 ^ 32 + 2 ^ 33))) ∧
   (∀ (j : Fin 16) (on : Bool) (s : State) (row : RegRow), TakesWrite s row (mkReg .trsOpkey j.val 0) (b2n on * 2 ^ 32) →
     exec (.opkeyEnable j on) s = .next (writeOpkey s j.val (b2n on * 2 ^ 32))) ∧
   (∀ (s : State) (row : RegRow), TakesWrite s row (mkReg .trsCfg 0 0) 1 → exec .save s = .next (trsSave s)) ∧
   (∀ (s : State) (row : RegRow), TakesWrite s row (mkReg .trsCfg 0 0) 2 → exec .factory s = .next (trsFactory s))) ∧
  ((∀ s : State,
     let put (m : FMap AuditRec) (r : AuditRec) : FMap AuditRec := finsert m (beAt r.bytes 0 8) r
     let m := s.trust.staging.foldl put s.flash.audit
     exec .auditDrain s = .next (trustMod (flashMod s (fun x =>
       countWritten { x with audit := m.drop (m.length - auditCapacity) } 6 (64 * s.trust.staging.length))) (fun t => { t with staging := [] }))) ∧
   (∀ s : State,
     (s.trust.sumsAt + 1250000000 ≤ s.clock → exec .auditSummary s =
       .next (addSummaries (trustMod s (fun t => { t with sumsAt := s.clock })) s.trust.sums.length)) ∧
     (s.clock < s.trust.sumsAt + 1250000000 → exec .auditSummary s = .next s)))

/-- Operator slots (R520): a write of TRS_OPKEY_j with ROTATE = 1 increments GEN of slot j, sets its open counter to 0 and closes its sessions;
one with EN = 0 refuses further opens of the slot and closes its sessions. A session with a command in execution closes when that has completed.
No other slot's key changes. -/
def Obligations.OperatorSlots : Prop :=
  ∀ (s : State) (j v : Nat), j < 16 →
    let t := writeOpkey s j v
    let closed : Prop := ∀ (i : Nat) (x : Session), sessionGet s i = some x → x.role = .operator → x.keySlot = j →
      (x.exec = none → sessionGet t i = none) ∧ (x.exec.isSome = true → sessionGet t i = some { x with closing := true })
    (∀ row : RegRow, TakesWrite s row (mkReg .trsOpkey j 0) v → writeReg s (regAddr (mkReg .trsOpkey j 0)) v = t) ∧
    (bitN v 33 = true → fgetD 0 t.trust.gens j = (fgetD 0 s.trust.gens j + 1) % 2 ^ 32 ∧ fgetD 0 t.trust.opens (counterOf 3 j) = 0 ∧ closed) ∧
    (bitN v 32 = false → openKey t 3 j = none ∧ closed) ∧
    (∀ i, i ≠ j → fgetD 0 t.trust.gens i = fgetD 0 s.trust.gens i ∧ bitN t.trust.ens i = bitN s.trust.ens i) ∧
    t.trust.root = s.trust.root ∧ t.mem = s.mem

/-- A global stop (R565, R566; R78): the stop distribution stops the islands; when every one has reported, OBS_CUT takes the request cycle and
the cause, HALTED is entered with its event and audit record, the Span group is told, and a STOP completes.
Context debug (R564): CONTINUE and STEP release a context in debug stop, STEP for one bundle; DUMP writes its state to memory; an operation
on a context that is not in debug stop ends with 0x0C. -/
def Obligations.StopAndDebug : Prop :=
  ((∀ s : State, s.obs.cut.isSome = true → exec .globalStop s = .next { s with gct := { s.gct with stopped := true } }) ∧
   (∀ (s : State) (c : Cut), s.obs.cut = some c → s.gct.stopped = true → haltLegal s = true →
     let s1 := enterHalted (regPut { s with obs := { s.obs with cut := none } } .obsCut 0 0 (c.stamp % 2 ^ 56 + c.cause % 16 * 2 ^ 56))
     exec .cutComplete s = .next (answerWait (if s.span.member then broadcast s1 (controlData 2 0 (epochNow s1) []) else s1)
       (fun w => w == .cut) 0 [])) ∧
   (∀ s : State, (enterHalted s).gct.dev = .halted ∧ (enterHalted s).gct.prior = some s.gct.dev ∧ (enterHalted s).mem = s.mem)) ∧
  ((∀ (k : Fin 1280) (h : Fin 8) (va : Nat) (s : State), s.gct.stopped = false →
     exec (.dbgContinue k h) s = .next (obsDbgWrite s (k.val + h.val * 2 ^ 11 + 2 ^ 14)) ∧
     exec (.dbgStep k h) s = .next (obsDbgWrite s (k.val + h.val * 2 ^ 11 + 2 * 2 ^ 14)) ∧
     exec (.dbgDump k h va) s = .next (obsDbgWrite (regPutF s .obsDbgAddr 0 0 12 36 (va / 4096)) (k.val + h.val * 2 ^ 11 + 3 * 2 ^ 14))) ∧
   (∀ (s : State) (k h : Nat) (x : Hc), hcGet s k h = some x → x.st = .debug → x.stop = false →
     debugOp s k h 1 = dbgStatus (hcSet s k h (some { x with st := .issuing, skipBrk := true })) 0 ∧
     debugOp s k h 2 = regPutF (hcSet s k h (some { x with st := .issuing, skipBrk := true, stepOne := true })) .obsDbg 0 0 16 1 1 ∧
     debugOp s k h 3 = dumpContext s k h (regF s .obsDbgAddr 0 0 12 36 * 4096) x) ∧
   (∀ (s : State) (k h op : Nat), hcGet s k h = none → debugOp s k h op = dbgStatus s 0x0C))

/-! ### Memory and stream queues -/

/-- Device memory is little-endian (R18): a value of `n` bytes stored at an address has its least significant byte there, and each next byte one
address higher; every byte outside the stored range reads as before, and memory keeps its canonical form. (Of an address in an unmapped line, in
a mirrored region, in the copy of one or in Heartwood, other rules say more.) -/
def Obligations.DeviceMemoryIsLittleEndian : Prop :=
  ∀ (s : State) (a n v : Nat), Memory.wf s.mem = true →
    (∀ k, k < n → mirrorOf s (a + k) = none ∧ pcUnmapped s (a + k) = false ∧ inCopyRange s (a + k) = false ∧ inHeart (a + k) = false) →
    let t := memWr s a (leBytes n v)
    (∀ i, i < n → memRd t (a + i) = byteOf (v / 256 ^ i)) ∧ (∀ x, x < a ∨ a + n ≤ x → memRd t x = memRd s x) ∧ Memory.wf t.mem = true

/-- Every operation on a stream queue keeps the order of its counters (R183) and the room of its open packet (R184), and its head in step with its
oldest readable words (R188), from every state that has them: the producer's OPEN, PUSH, COMMIT and ABORT, the consumer's READ, MARK, REWIND
and RELEASE, and FLUSH. -/
def Obligations.QueueCountersStayOrdered : Prop :=
  ∀ (s : State) (q n : Nat) (w : QWord) (d : Bool), 1 ≤ n → n ≤ 256 →
    let good (t : State) : Prop := (queueGet t q).ordered ∧ (queueGet t q).headOk
    good s → ((queueGet s q).openN = none → good (queueOpen s q n d).2) ∧ good (queuePush s q w).2 ∧ good (queueCommit s q).2 ∧
      good (queueAbort s q).2 ∧ good (queueRead s q).2 ∧ good (queueMark s q).2 ∧ good (queueRewind s q).2 ∧ good (queueRelease s q).2 ∧
      good (queueFlush s q)

/-- A packet becomes readable at its COMMIT, all its words together, and no word of it before then (R185): opening, pushing and aborting leave what
the consumer can read as it was, and COMMIT adds exactly the words of the packet at its end. -/
def Obligations.PacketsAppearAtCommit : Prop :=
  ∀ (s : State) (q n : Nat) (w : QWord) (d : Bool), (queueGet s q).ordered →
    let v := queueGet s q
    (queueGet (queueOpen s q n d).2 q).readable = v.readable ∧ (queueGet (queuePush s q w).2 q).readable = v.readable ∧
      (queueGet (queueAbort s q).2 q).readable = v.readable ∧
      (queueEnabled s q = true → v.rewound = false → v.openN = some n → v.pushed = n →
        (queueGet (queueCommit s q).2 q).readable = v.readable ++ v.words.drop (v.cm - v.rl).toNat ∧
          (v.words.drop (v.cm - v.rl).toNat).length = n) ∧
      (v.openN = some n → v.pushed < n → v.rewound = false → (queueCommit s q).2 = s)

/-- READ delivers the oldest readable word and moves past it; on an empty, disabled or gated queue it delivers nothing and changes nothing
(R187, R192; R454). The word is delivered with its poison tag, and with poison where its parity fails (R189). -/
def Obligations.ReadTakesTheOldestWord : Prop :=
  ∀ (s : State) (q : Nat), (queueGet s q).ordered → (queueGet s q).headOk →
    let v := queueGet s q
    (queueEnabled s q = false ∨ fgetD false s.tiers.gated q = true ∨ v.readable = [] → queueRead s q = (none, s)) ∧
    (∀ x rest, queueEnabled s q = true → fgetD false s.tiers.gated q = false → v.readable = x :: rest →
      ∃ y t, queueRead s q = (some y, t) ∧ y.data = x.data ∧ y.sop = x.sop ∧ y.eop = x.eop ∧ ((x.par != parityOf x.data) = true → y.poison = true) ∧
        (∀ z, v.head.head? = some z → z.poison = true → y.poison = true) ∧ (queueGet t q).readable = rest ∧
        (queueGet t q).mark = v.mark ∧ (queueGet t q).rl = v.rl ∧ t.mem = s.mem ∧ ∀ j, j ≠ q → queueGet t j = queueGet s j)

/-- The queue port of a Crown core that is bound to the queue (R485, R486, R184, R192). Each store or load performs its operation of the queue
and leaves its status word; an OPEN without room waits or is refused by its policy; a load of an empty queue returns EMPTY, or waits with the
wait flag; a disabled queue refuses the load; a core that is not bound is refused, and nothing else changes. A word whose parity fails as it
enters or as it is read is a form of the row (log 163).
The other rows of queues (R181, R184, R192). OPEN_RETRY opens the packet of a core that waits once there is room; FLUSH is the write of
SQ_CFG_q.FLUSH; the Heartwood scrub, once in each period (log 156), reads every granule that holds an error: it corrects and counts, and marks
what it finds uncorrectable. -/
def Obligations.QueuePortAndEvents : Prop :=
  (∀ (c : Fin 16) (q : Fin 4096) (s : State), portLives s c.val q.val = true →
     (crownBound (queueProducer s q.val) c.val = true →
       (∀ v : Nat, 1 ≤ v % 512 → v % 512 ≤ 256 →
         let d := (qOpen s q.val (v % 512) (bitN v 9)).1
         (d.wait = false → exec (.portOpen c q v) s = .next (openDone d c.val q.val)) ∧
         (d.wait = true →
           let t := queueRewindPacket s q.val false true
           exec (.portOpen c q v) s = .next { t with heart := { t.heart with waiting := t.heart.waiting ++ [(q.val, v % 512, c.val)] } })) ∧
       (∀ v : Nat, v % 512 = 0 ∨ 256 < v % 512 → exec (.portOpen c q v) s = .next (portRefuse s c.val q.val)) ∧
       (∀ (v : Word) (flip : Bool), exec (.portPush c q true v flip) s = .next (portStatus { s with
         crown := { s.crown with staged := fsetD 0 s.crown.staged (portKey c.val q.val) v.toNat } } c.val q.val
         (queueStatusWord 0 false false false 0))) ∧
       (∀ (v : Word) (flip : Bool),
         let w := mkWord (BitVec.ofNat 128 (v.toNat * 2 ^ 64 + fgetD 0 s.crown.staged (portKey c.val q.val))) false
         exec (.portPush c q false v flip) s = .next (portDone (qPush s q.val [{ w with par := w.par != flip }] 0) c.val q.val)) ∧
       exec (.portCommit c q) s = .next (portDone (qSimple (queueCommit s q.val)) c.val q.val) ∧
       exec (.portAbort c q) s = .next (portDone (qSimple (queueAbort s q.val)) c.val q.val)) ∧
     (crownBound (queueConsumer s q.val) c.val = true →
       (∀ (flag : Option Bool) (flip : Bool),
         let t := match flag with
           | some b => portFlag s c.val q.val b
           | none => s
         (queueEnabled s q.val = false → exec (.portRead c q flag flip) s = .next (portRefuse t c.val q.val)) ∧
         (queueEnabled s q.val = true → fgetD false t.crown.waits (portKey c.val q.val) = true → (queueNext (queueGet s q.val)).isNone = true →
           exec (.portRead c q flag flip) s = .next t) ∧
         (queueEnabled s q.val = true →
           fgetD false t.crown.waits (portKey c.val q.val) = false ∨ (queueNext (queueGet s q.val)).isSome = true →
           let r := queueRead (if flip then spoilHead t q.val else t) q.val
           (r.1 = none → exec (.portRead c q flag flip) s = .next (portStatus r.2 c.val q.val (queueStatusWord 1 false false false 0))) ∧
           (∀ x, r.1 = some x → exec (.portRead c q flag flip) s = .next (portStatus { r.2 with
             crown := { r.2.crown with word := fsetD 0 r.2.crown.word (portKey c.val q.val) x.data } } c.val q.val
             (queueStatusWord 0 x.sop x.eop x.poison 1))))) ∧
       exec (.portMark c q) s = .next (portDone (qSimple (queueMark (portFlag s c.val q.val false) q.val)) c.val q.val) ∧
       exec (.portRewind c q) s = .next (portDone (qSimple (queueRewind (portFlag s c.val q.val true) q.val)) c.val q.val) ∧
       exec (.portRelease c q) s = .next (portDone (qSimple (queueRelease (portFlag s c.val q.val false) q.val)) c.val q.val)) ∧
     (crownBound (queueProducer s q.val) c.val = false → ∀ (v : Nat) (w : Word) (b flip : Bool),
       exec (.portOpen c q v) s = .next (portRefuse s c.val q.val) ∧ exec (.portPush c q b w flip) s = .next (portRefuse s c.val q.val) ∧
       exec (.portCommit c q) s = .next (portRefuse s c.val q.val) ∧ exec (.portAbort c q) s = .next (portRefuse s c.val q.val)) ∧
     (crownBound (queueConsumer s q.val) c.val = false → ∀ (flag : Option Bool) (flip : Bool),
       exec (.portRead c q flag flip) s = .next (portRefuse s c.val q.val) ∧ exec (.portMark c q) s = .next (portRefuse s c.val q.val) ∧
       exec (.portRewind c q) s = .next (portRefuse s c.val q.val) ∧ exec (.portRelease c q) s = .next (portRefuse s c.val q.val))) ∧
  ((∀ (q : Fin 4096) (s : State) (n c : Nat), s.gct.stopped = false → s.heart.waiting.find? (fun w => w.1 == q.val) = some (q.val, n, c) →
     (queueGet s q.val).openN = none → (qOpen s q.val n false).1.wait = false →
     let t := openDone (qOpen s q.val n false).1 c q.val
     exec (.openRetry q) s = .next { t with heart := { t.heart with waiting := t.heart.waiting.erase (q.val, n, c) } }) ∧
   (∀ (q : Fin 4096) (s : State) (row : RegRow), TakesWrite s row (mkReg .sqCfg q.val 0) (regN s .sqCfg q.val 0 % 2 ^ 17 + 2 ^ 63) →
     exec (.flush q) s = .next (applyWrite s row (mkReg .sqCfg q.val 0) (regN s .sqCfg q.val 0 % 2 ^ 17 + 2 ^ 63))) ∧
   (∀ (ce ue : List Nat) (s t : State) (due : Option Nat), s.gct.stopped = false →
     scrubPass ((heartGranules ue).foldl spoilTrace (upsetGranules s (heartGranules ce) (heartGranules ue))) 0 (mkReg .hwdScrub 0 0)
       (fun v => msTicks (bitsN v 0 16)) = (due, t) →
     exec (.heartwoodScrub ce ue) s = .next (if (match due with | some v => bitN v 16 | none => false) = true
       then (faultyGranules t (fun g => inHeart (32 * g))).foldl scrubHeart t else t)))

/-! ### Flow DMA, aging, the Grove's leaf port and Tending -/

/-- The flow DMA port (R162, R163). Each operation reaches its buckets in the flow cache (R152, R158). LOCK_READ of unlocked buckets locks them
under a new token and returns them, or BUSY; READ returns a bucket; WRITE_SLOT writes the key, state and CTX of a slot that is not valid, and
state and CTX of a valid one with the same key, PUBLISH makes an invalid slot valid and INVALIDATE a valid one invalid, UNLOCK writes the
digests and clears the locks, under a valid token; without one, and where the slot does not fit, they are refused; a write that carries a
Tier 3 result ends its escalation first (15 R449); a lease that runs out clears its locks.
The flow table's scans (R165, R170). The aging scan visits an unlocked bucket that is not in error and removes each idle slot for which the
record queue has room; the shadow compare raises MISMATCH where a bucket's digest differs from its shadow; neither reaches a locked bucket. -/
def Obligations.FlowDmaAndScans : Prop :=
  (∀ (c : Fin 16) (i : Fin 8) (b b2 : Fin 2097152) (k : Fin 4) (tok : Nat) (s : State), crownRuns s = true →
     let u := reachBucket s i.val b.val
     let u2 := reachBucket u i.val b2.val
     let new := if b = b2 then 1 else 2
     let busy : Prop := bucketLocked s i.val b.val = true ∨ bucketLocked s i.val b2.val = true ∨ 64 < lockedCount s i.val + new
     (busy → exec (.lockRead c i b b2) s = .next (takeFault (dmaAnswer u2 c.val 1 0 []))) ∧
     (¬ busy →
       let t := (fgetD 0 u2.flow.tokens i.val + 1) % 4096
       let l : BucketLock := { token := t, taken := u2.idleClock, lease := regF u2 .flwLock 0 0 0 10 }
       let s1 := setLock (setLock u2 i.val b.val (some l)) i.val b2.val (some l)
       let s2 := { s1 with flow := { s1.flow with tokens := fsetD 0 s1.flow.tokens i.val t } }
       exec (.lockRead c i b b2) s =
         .next (takeFault (dmaAnswer s2 c.val 0 t (bucketBytes s2 i.val b.val ++ bucketBytes s2 i.val b2.val)))) ∧
     exec (.flowDmaRead c i b) s = .next (takeFault (dmaAnswer u c.val 0 0 (bucketBytes u i.val b.val))) ∧
     (lockedUnder s i.val b.val tok = false → ∀ lo hi,
       exec (.writeSlot c i b k tok lo hi none) s = .next (takeFault (dmaAnswer u c.val 2 0 [])) ∧
       exec (.publish c i b k tok) s = .next (takeFault (dmaAnswer u c.val 2 0 [])) ∧
       exec (.invalidate c i b k tok) s = .next (takeFault (dmaAnswer u c.val 2 0 []))) ∧
     (lockedUnder s i.val b.val tok = false ∨ lockedUnder s i.val b2.val tok = false → ∀ d1 d2,
       exec (.unlock c i b b2 tok d1 d2) s = .next (takeFault (retryDeletes (dmaAnswer s c.val 2 0 [])))) ∧
     (lockedUnder s i.val b.val tok = true →
       let e := slotBytes u i.val b.val k.val
       let a := 64 * k.val
       (entryValid e = false → ∀ lo hi, exec (.writeSlot c i b k tok lo hi none) s =
         .next (takeFault (dmaAnswer (writeBucket (writeBucket u i.val b.val a (padTo lo 48)) i.val b.val (a + 56) (padTo hi 8)) c.val 0 0 []))) ∧
       (entryValid e = true → ∀ lo hi,
         (e.take 44 = (padTo lo 48).take 44 → exec (.writeSlot c i b k tok lo hi none) s = .next (takeFault (dmaAnswer
           (writeBucket (writeBucket u i.val b.val (a + 44) ((padTo lo 48).drop 44)) i.val b.val (a + 56) (padTo hi 8)) c.val 0 0 []))) ∧
         (e.take 44 ≠ (padTo lo 48).take 44 → exec (.writeSlot c i b k tok lo hi none) s = .next (takeFault (dmaAnswer u c.val 2 0 [])))) ∧
       (entryValid e = false → exec (.publish c i b k tok) s = .next (takeFault (dmaAnswer (bumpEntries (putCtl u i.val b.val k.val
         (setBitsN (setBitsN (setBitN (ctlOf e) 0 true) 16 16 (entryGen e + 1)) 32 32 (msNow u))) i.val true) c.val 0 0 [])) ∧
         exec (.invalidate c i b k tok) s = .next (takeFault (dmaAnswer u c.val 2 0 []))) ∧
       (entryValid e = true → exec (.invalidate c i b k tok) s = .next (takeFault (dmaAnswer (bumpEntries (putCtl u i.val b.val k.val
         (setBitsN (setBitN (ctlOf e) 0 false) 16 16 (entryGen e + 1))) i.val false) c.val 0 0 [])) ∧
         exec (.publish c i b k tok) s = .next (takeFault (dmaAnswer u c.val 2 0 [])))) ∧
     (∀ (lo hi : Bytes) (cls score : Nat), exec (.writeSlot c i b k tok lo hi (some (cls, score))) s = .next (takeFault (writeSlot
       (if tier3Vacant s then s else retryPlaces (tier3Result s i.val b.val k.val cls score)) c.val i.val b.val k.val tok lo hi))) ∧
     (lockedUnder s i.val b.val tok = true → lockedUnder s i.val b2.val tok = true → ∀ d1 d2,
       let s1 := putDigest (putDigest s i.val b.val d1) i.val b2.val d2
       let s2 := setLock (setLock s1 i.val b.val none) i.val b2.val none
       exec (.unlock c i b b2 tok d1 d2) s =
         .next (takeFault (retryDeletes (dmaAnswer (mendBucket (mendBucket s2 i.val b.val) i.val b2.val) c.val 0 0 [])))) ∧
     (s.gct.stopped = false → exec (.leaseExpiry i) s = .next (takeFault (retryDeletes (leaseExpiry s i.val))))) ∧
  ((∀ (i : Fin 8) (b : Fin 2097152) (s : State), s.gct.stopped = false →
     (regF s .flwCtl 0 0 8 1 = 0 ∨ bucketLocked s i.val b.val = true → exec (.agingVisit i b) s = .next (takeFault s)) ∧
     (regF s .flwCtl 0 0 8 1 = 1 → bucketLocked s i.val b.val = false →
       let u := reachBucket s i.val b.val
       exec (.agingVisit i b) s = .next (takeFault (if bucketBad u i.val b.val = true then u else (List.range 4).foldl (fun t k =>
         if slotAged t (slotBytes t i.val b.val k) && noteRoom t i.val then bump (removeEntry t i.val b.val k 0x02).1 .flwAged i.val 0 else t) u)))) ∧
   (∀ (i : Fin 8) (b : Fin 2097152) (s : State), s.gct.stopped = false →
     (regF s .flwCtl 0 0 10 1 = 0 ∨ bucketLocked s i.val b.val = true → exec (.shadowCompare i b) s = .next (takeFault s)) ∧
     (regF s .flwCtl 0 0 10 1 = 1 → bucketLocked s i.val b.val = false →
       let u := memTouch (reachBucket s i.val b.val) (digestAddr s i.val b.val) 4
       let d := bucketDigest u i.val b.val
       let stored := leNat (memBytes u (digestAddr u i.val b.val) 4)
       (bucketBad u i.val b.val = true ∨ d = stored → exec (.shadowCompare i b) s = .next (takeFault u)) ∧
       (bucketBad u i.val b.val = false → d ≠ stored → exec (.shadowCompare i b) s =
         .next (takeFault (raiseNote (bump u .flwMismatch i.val 0) i.val (bucketNote 0x05 i.val b.val d stored)))))))

/-- The Grove's writes and scrub (R214–R216, R459). A route write is that of GRV_ROUTE_r; the leaf port writes the value of a leaf that the
phase in force does not show, while a boundary is pending or the slot is named for flipping, and else nothing; it writes words of the store,
never the value of a leaf that the phase in force shows; the scrub, once in each period (log 156), counts a corrected error and reports each
word in error.
Tending (R457, R458). ARM schedules a boundary, or counts a miss when its stamp has passed; READY declares the inactive phase complete; at
the armed stamp, with READY set, the leaf phases named and the Tier 2 phase flip, READY is cleared, and the pending changes of determinism
and share take effect (R56); a watermark goes into the pipeline's register and, where the dispatcher feeds it, into
its queue. -/
def Obligations.GroveAndTending : Prop :=
  ((∀ (i : Fin 16) (v : Nat) (s : State) (row : RegRow), TakesWrite s row (mkReg .grvRoute i.val 0) v →
     exec (.routeWrite i v) s = .next (applyWrite s row (mkReg .grvRoute i.val 0) v)) ∧
   (∀ (ce ue : List Nat) (s t : State) (due : Option Nat), s.gct.stopped = false →
     scrubPass s 1 (mkReg .grvScrub 0 0) (fun v => msTicks (bitsN v 0 16)) = (due, t) →
     let u := ue.foldl (fun x w => wordErrorArises x (w / 2 ^ 18) (w % 2 ^ 18) true)
       (ce.foldl (fun x w => wordErrorArises x (w / 2 ^ 18) (w % 2 ^ 18) false) t)
     exec (.groveScrub ce ue) s = .next (if due.isSome = true ∧ regF s .grvCtl 0 0 0 1 = 1
       then (u.grove.bad.map Prod.fst).foldl (fun x w => nodeError x (w / 2 ^ 18) (w % 2 ^ 18)) u else t)) ∧
   (∀ (sl p : Fin 16) (off v : Nat) (s : State) (g : GroveSlot) (gp : GrovePart), crownRuns s = true → fget? s.grove.slots sl.val = some g →
     g.parts[p.val]? = some gp →
     let k := p.val * sliceNodes + gp.nodeAt + off
     let n := (fgetD 0 s.grove.nodes k).toNat
     let allowed : Prop := off < gp.nodes ∧ nodeType n = 3 ∧ (f32 v).isNan = false ∧
       (s.tiers.tend.pending = true ∨ bitN (regF s .sqTendCtl 0 0 5 16) sl.val = true)
     (allowed → exec (.writeLeaf sl p off v) s = .next { s with grove := { s.grove with
       nodes := fsetD 0 s.grove.nodes k (BitVec.ofNat 128 (setBitsN n (if bitN s.grove.phases sl.val then 32 else 64) 32 v)) } }) ∧
     (¬ allowed → exec (.writeLeaf sl p off v) s = .next s)) ∧
   (∀ (u : Fin 16) (off v : Nat) (s : State), crownRuns s = true →
     (off < sliceNodes →
       let k := u.val * sliceNodes + off
       let old := (fgetD 0 s.grove.nodes k).toNat
       let shown := match slotAt s u.val off with
         | some sl => if bitN s.grove.phases sl then 64 else 32
         | none => 32
       exec (.writeWord u off v) s = .next { s with grove := { s.grove with
         nodes := fsetD 0 s.grove.nodes k (BitVec.ofNat 128
           (if nodeType v = 3 ∧ nodeType old = 3 ∧ wordBad s u.val off = false then setBitsN v shown 32 (bitsN old shown 32) else v))
         bad := fsetD false s.grove.bad (wordKey u.val off) false } }) ∧
     (∀ d, d < 4096 → off = sliceNodes + d →
       exec (.writeWord u off v) s = .next { s with grove := { s.grove with
         dirs := fsetD 0 (fsetD 0 s.grove.dirs (u.val * sliceDirs + 2 * d) (BitVec.ofNat 64 v)) (u.val * sliceDirs + 2 * d + 1)
           (BitVec.ofNat 64 (v / 2 ^ 64))
         bad := fsetD false (fsetD false s.grove.bad (wordKey u.val (196608 + 2 * d)) false) (wordKey u.val (196608 + 2 * d + 1)) false } }) ∧
     (∀ d, d < 1024 → off = sliceNodes + 4096 + d →
       exec (.writeWord u off v) s = .next { s with grove := { s.grove with
         side := fsetD 0 (fsetD 0 s.grove.side (u.val * sliceSides + 2 * d) (BitVec.ofNat 64 v)) (u.val * sliceSides + 2 * d + 1)
           (BitVec.ofNat 64 (v / 2 ^ 64))
         bad := fsetD false (fsetD false s.grove.bad (wordKey u.val (204800 + 2 * d)) false) (wordKey u.val (204800 + 2 * d + 1)) false } }))) ∧
  ((∀ (stamp flips : Nat) (t2 : Bool) (s : State), crownRuns s = true → s.gct.stopped = false →
     exec (.arm stamp flips t2) s = .next (tendArm (regPutF (regPutF (regPut s .sqTendAt 0 0 (stamp % 2 ^ 64)) .sqTendCtl 0 0 4 1 (b2n t2))
       .sqTendCtl 0 0 5 16 flips))) ∧
   (∀ s : State, crownRuns s = true → exec .tendReady s = .next (regPutF s .sqTendCtl 0 0 1 1 1)) ∧
   (∀ s : State, s.gct.stopped = false → s.tiers.tend.pending = true → regF s .sqTendCtl 0 0 1 1 = 1 → regN s .sqTendAt 0 0 ≤ stampNow s →
     let t := s.tiers.tend
     let u := modesMod (regPutF s .sqTendCtl 0 0 1 1 0) (fun m => (m.take 4).take 6)
     exec .tendingBoundary s = .next { u with
       grove := { u.grove with phases := u.grove.phases ^^^ regF s .sqTendCtl 0 0 5 16 }
       tiers := { u.tiers with tend := { t with
         pending := false, t2Phase := t.t2Phase != (regF s .sqTendCtl 0 0 4 1 == 1), lastAt := regN s .sqTendAt 0 0
         lastGrv := regF s .sqTendCtl 0 0 5 16, lastT2 := regF s .sqTendCtl 0 0 4 1 == 1 } } }) ∧
   (∀ (i : Fin 8) (s : State), s.gct.stopped = false →
     let q := regF s .sqTendCtl 0 0 32 12 + i.val
     let w := watermarkOf s i.val
     let t := regPut s .sqT2Wm i.val 0 w
     let sends : Prop := queueEnabled s q = true ∧ queueProducer s q = (2, i.val)
     let r := queueSend t q [mkWord (BitVec.ofNat 128 (2 + w * 2 ^ 64)) false] false
     (¬ sends → exec (.watermark i) s = .next t) ∧ (sends → r.1 = .ok → exec (.watermark i) s = .next r.2) ∧
     (sends → r.1 ≠ .ok → exec (.watermark i) s = .next (bump t .sqTendStall 0 0))))

/-! ### Gramar-W: the instructions of a bundle (08, 09) -/

/-- The scalar instructions without memory (R267, R268, R270). When the bundle commits, the slot writes exactly one register, with the result
that the opcode names and the poison of the sources it reads; a predicate takes all ones or all zeros from a compare. -/
def Obligations.ScalarResults : Prop :=
  ∀ (core : Fin 1280) (hc : Fin 8) (s : State) (x : Hc) (b : Bundle) (i : SSlot) (sb : Bool),
    Commits s core.val hc.val x b PeerTable.empty → b.scalar sb = some i → x.cond i.pred i.pneg = true → x.badAB i = false ∨ i.op.form ≠ .compare →
    x.sBad i.ra = false ∨ i.op.form ≠ .first →
    let u := x.sreg i.ra
    let v := x.opB i
    let p := x.preg (i.ra % 16)
    let q := x.preg (i.rb % 16)
    let two (r : Word) : RegWrite := .s i.rd r (x.badAB i)
    let one (r : Word) : RegWrite := .s i.rd r (x.sBad i.ra)
    let truth (c : Bool) : RegWrite := .p (i.rd % 16) (if c then BitVec.allOnes 128 else 0)
    ∀ r ∈ ([(.add, .wAdd core hc, two (u + v)), (.sub, .wSub core hc, two (u - v)), (.and_, .wAnd core hc, two (u &&& v)),
      (.or_, .wOr core hc, two (u ||| v)), (.xor_, .wXor core hc, two (u ^^^ v)), (.shl, .wShl core hc, two (u <<< (v.toNat % 64))),
      (.shr, .wShr core hc, two (u >>> (v.toNat % 64))), (.sar, .wSar core hc, two (u.sshiftRight (v.toNat % 64))),
      (.min_, .wMin core hc, two (if u.sle v then u else v)), (.max_, .wMax core hc, two (if u.sle v then v else u)),
      (.minu, .wMinu core hc, two (if u.ule v then u else v)), (.maxu, .wMaxu core hc, two (if u.ule v then v else u)),
      (.clz, .wClz core hc, one (BitVec.ofNat 64 (clz64 u))), (.popc, .wPopc core hc, one (BitVec.ofNat 64 (popc64 u))),
      (.sel, .wSel core hc, two (if (x.preg (i.imm % 16)).getLsbD 0 then u else v)), (.mul, .wMul core hc, two (u * v)),
      (.mulh, .wMulh core hc, two (BitVec.ofInt 64 (u.toInt * v.toInt / 2 ^ 64))),
      (.mulhu, .wMulhu core hc, two (BitVec.ofNat 64 (u.toNat * v.toNat / 2 ^ 64))),
      (.div, .wDiv core hc, two (if v = 0 then BitVec.allOnes 64 else u.sdiv v)),
      (.divu, .wDivu core hc, two (if v = 0 then BitVec.allOnes 64 else u / v)),
      (.rem_, .wRem core hc, two (if v = 0 then u else u.srem v)), (.remu, .wRemu core hc, two (if v = 0 then u else u % v)),
      (.li, .wLi core hc, .s i.rd (sext32 i.imm) false),
      (.lui, .wLui core hc,
        .s i.rd (BitVec.ofNat 64 (i.imm % 2 ^ 32 * 2 ^ 32 + (x.sreg i.rd).toNat % 2 ^ 32)) (x.sBad i.rd)),
      (.ceq, .wCeq core hc, truth (u == v)), (.cne, .wCne core hc, truth (u != v)), (.clt, .wClt core hc, truth (u.slt v)),
      (.cltu, .wCltu core hc, truth (u.ult v)), (.cle, .wCle core hc, truth (u.sle v)), (.cleu, .wCleu core hc, truth (u.ule v)),
      (.pand, .wPand core hc, .p (i.rd % 16) (p &&& q)), (.por, .wPor core hc, .p (i.rd % 16) (p ||| q)),
      (.pxor, .wPxor core hc, .p (i.rd % 16) (p ^^^ q)), (.pandn, .wPandn core hc, .p (i.rd % 16) (p &&& ~~~q)),
      (.pfirst, .wPfirst core hc, .p (i.rd % 16) (BitVec.ofNat 128 (2 ^ Nat.min u.toNat 128 - 1)))] :
      List (SOp × Instr × RegWrite)), i.op = r.1 →
      exec r.2.1 s = .next (committed s core.val hc.val x b PeerTable.empty) ∧
        (scalarAnswer s core.val hc.val x b sb).wr = [r.2.2] ∧ (scalarAnswer s core.val hc.val x b sb).st = []

/-- The scalar loads and stores (R269, R228). The address is s[RA] + B modulo 2⁴⁸. A load takes its bytes through the context's translation:
its register is written with the bundle from the core's own Ring store or its run-ahead buffer (R235; log 88), and otherwise when
LOAD_COMPLETE delivers the data and its poison, as it does to vector and tensor registers. A store writes the low bytes of s[RD], with its poison.
A slot whose condition is 0 writes nothing. -/
def Obligations.ScalarMemory : Prop :=
  (∀ (core : Fin 1280) (hc : Fin 8) (s : State) (x : Hc) (b : Bundle) (i : SSlot) (sb : Bool) (pa : Nat) (t : State),
    Commits s core.val hc.val x b PeerTable.empty → b.scalar sb = some i → x.cond i.pred i.pneg = true → x.badAB i = false →
    let va := (x.sreg i.ra + x.opB i).toNat % 2 ^ 48
    let answer := scalarAnswer s core.val hc.val x b sb
    (∀ r ∈ ([(.ld8u, .wLd8u core hc, 1, false), (.ld16u, .wLd16u core hc, 2, false), (.ld32u, .wLd32u core hc, 4, false),
        (.ld64, .wLd64 core hc, 8, false), (.ld8s, .wLd8s core hc, 1, true), (.ld16s, .wLd16s core hc, 2, true),
        (.ld32s, .wLd32s core hc, 4, true)] : List (SOp × Instr × Nat × Bool)), i.op = r.1 → va % r.2.2.1 = 0 →
      translate (beforeScalar s core.val x b sb) core.val x.ctx va .r = (.ok pa, t) →
      let v (bs : Bytes) : Word := if r.2.2.2 then BitVec.ofInt 64 (toInt (8 * r.2.2.1) (leNat bs)) else BitVec.ofNat 64 (leNat bs)
      let bs := memBytes t pa r.2.2.1
      let bad := memPoisoned t pa r.2.2.1
      exec r.2.1 s = .next (committed s core.val hc.val x b PeerTable.empty) ∧ answer.st = [] ∧
        (∀ d p, x.aheadHit va r.2.2.1 = some (d, p) → answer.wr = [.s i.rd (v d) p] ∧ answer.loads = []) ∧
        (x.aheadHit va r.2.2.1 = none → ownRing core.val pa = true → answer.wr = [.s i.rd (v bs) bad] ∧ answer.loads = []) ∧
        (x.aheadHit va r.2.2.1 = none → ownRing core.val pa = false →
          answer.wr = [] ∧ answer.loads = [{ reg := .s i.rd, val := (v bs).toNat, poison := bad }])) ∧
    (∀ r ∈ ([(.st8, .wSt8 core hc, 1), (.st16, .wSt16 core hc, 2), (.st32, .wSt32 core hc, 4), (.st64, .wSt64 core hc, 8)] :
        List (SOp × Instr × Nat)), i.op = r.1 → va % r.2.2 = 0 →
      translate (beforeScalar s core.val x b sb) core.val x.ctx va .w = (.ok pa, t) →
      exec r.2.1 s = .next (committed s core.val hc.val x b PeerTable.empty) ∧ answer.wr = [] ∧ answer.loads = [] ∧
        answer.st = [(pa, leBytes r.2.2 (x.sreg i.rd).toNat, x.sBad i.rd)])) ∧
  (∀ (core : Fin 1280) (hc : Fin 8) (n : Nat) (s : State) (x : Hc) (l : LoadWait), s.gct.stopped = false → hcGet s core.val hc.val = some x →
    (x.loads.find? (fun l => l.reg == .s n) = some l → exec (.loadComplete core hc (.s n)) s = .next (hcSet s core.val hc.val (some { x with
      s := fsetD 0 x.s n (BitVec.ofNat 64 l.val), sPoison := setBitN x.sPoison n l.poison
      loads := x.loads.filter (fun l => l.reg != .s n) }))) ∧
    (x.loads.find? (fun l => l.reg == .v n) = some l → exec (.loadComplete core hc (.v n)) s = .next (hcSet s core.val hc.val (some { x with
      v := fsetD 0 x.v n (BitVec.ofNat 1024 l.val), vPoison := setBitN x.vPoison n l.poison
      loads := x.loads.filter (fun l => l.reg != .v n) }))) ∧
    (x.loads.find? (fun l => l.reg == .t n) = some l → exec (.loadComplete core hc (.t n)) s = .next (hcSet s core.val hc.val (some { x with
      t := fsetD 0 x.t n (BitVec.ofNat 256 l.val), tPoison := setBitN x.tPoison n l.poison
      loads := x.loads.filter (fun l => l.reg != .t n) })))) ∧
  ∀ (core : Fin 1280) (hc : Fin 8) (s : State) (x : Hc) (b : Bundle) (i : SSlot) (sb : Bool),
    b.scalar sb = some i → x.cond i.pred i.pneg = false → scalarAnswer s core.val hc.val x b sb = .none_

/-- The register writes of a bundle with neither a matrix, a mover nor a control instruction, and without memory effects (R264, R260): the
context takes the answers of its slots, its PC becomes PC + 0x40 modulo 2⁴⁸, and memory is as it was.
A register write changes its register and no other; p0 stays all ones (08 "Context state"). -/
def Obligations.RegisterEffects : Prop :=
  (∀ (s : State) (k h : Nat) (x : Hc) (b : Bundle) (outs : List SlotOut) (table : PeerTable), b.mx = none → b.dx = none → b.cx = none →
     (∀ o ∈ outs, o.touch = [] ∧ o.st = [] ∧ o.loads = []) → x.stepOne = false →
     let t := commitBundle s k h x b outs table
     t.mem = s.mem ∧ t.memPoison = s.memPoison ∧ ∃ y, hcGet t k h = some y ∧ y.pc = (x.pc + 0x40) % 2 ^ 48 ∧ y.ctx = x.ctx ∧ y.tags = x.tags ∧
       y.layer = x.layer ∧ y.oper = x.oper ∧ y.qd = x.qd ∧ y.s = (x.writes (outs.flatMap SlotOut.wr)).s ∧
       y.v = (x.writes (outs.flatMap SlotOut.wr)).v ∧ y.p = (x.writes (outs.flatMap SlotOut.wr)).p ∧
       y.t = (x.writes (outs.flatMap SlotOut.wr)).t) ∧
  ((∀ (x : Hc) (n m : Nat) (v : Word) (p : Bool), (x.write (.s n v p)).sreg m = (if m = n then v else x.sreg m) ∧
     (x.write (.s n v p)).sBad m = (if m = n then p else x.sBad m)) ∧
   (∀ (x : Hc) (n m : Nat) (v : VWord) (p : Bool), (x.write (.v n v p)).vreg m = (if m = n then v else x.vreg m)) ∧
   (∀ (x : Hc) (n m : Nat) (v : TWord) (p : Bool), (x.write (.t n v p)).treg m = (if m = n then v else x.treg m)) ∧
   ∀ (x : Hc) (n m : Nat) (v : PWord), (x.write (.p n v)).preg m = (if m = n ∧ n ≠ 0 then v else x.preg m) ∧
     (x.write (.p n v)).preg 0 = BitVec.allOnes 128)

/-- The vector instructions (R271–R274). When the bundle commits, an element-wise instruction writes each enabled element of VD with the value
of its opcode and leaves the others; a compare sets the byte lanes of its elements in a predicate; VEXT writes a scalar register; a reduction
leaves its result in element 0; VLD and VST move 128 bytes at s[SR] + IMM, or nothing where no element is enabled. -/
def Obligations.VectorResults : Prop :=
  ∀ (core : Fin 1280) (hc : Fin 8) (s : State) (x : Hc) (b : Bundle) (i : VSlot),
    Commits s core.val hc.val x b PeerTable.empty → b.vx = some i →
    let w := 8 * eltBytes i.elt
    let f := eltFmt i.elt
    let el (r e : Nat) := velem (x.vreg r) w e
    let num (a : Nat) := f.decode a
    let wd (g : Nat → Nat → Nat) (fl : Nat → Nat → Nat) (e : Nat) : Nat :=
      if eltFloat i.elt then fl (el i.va e) (x.vopB i e) else g (el i.va e) (x.vopB i e)
    let answer := vectorAnswer s core.val hc.val x b
    let writes (v : VWord) : List RegWrite := [.v i.vd v (i.bad x)]
    let lanes (g : Nat → Nat) : List RegWrite := writes (vmerge x i (x.vreg i.vd) g)
    (∀ r ∈ ([(.add, .wVadd core hc, lanes (wd (fun a c => (a + c) % 2 ^ w) (fun a c => f.encode ((num a).add (num c))))),
        (.sub, .wVsub core hc, lanes (wd (fun a c => (a + 2 ^ w - c % 2 ^ w) % 2 ^ w) (fun a c => f.encode ((num a).add (num c).neg)))),
        (.mul, .wVmul core hc, lanes (wd (fun a c => a * c % 2 ^ w) (fun a c => f.encode ((num a).mul (num c))))),
        (.min_, .wVmin core hc, lanes (wd (fun a c => if toInt w a ≤ toInt w c then a else c) (fpMin f))),
        (.max_, .wVmax core hc, lanes (wd (fun a c => if toInt w a ≤ toInt w c then c else a) (fpMax f))),
        (.abs, .wVabs core hc, lanes (fun e => vElem .abs i.elt (el i.va e) 0 0)),
        (.neg, .wVneg core hc, lanes (fun e => vElem .neg i.elt (el i.va e) 0 0)),
        (.fma, .wVfma core hc, lanes (fun e => vElem .fma i.elt (el i.va e) (el i.vb e) (el i.vc e))),
        (.and_, .wVand core hc, lanes (fun e => vElem .and_ i.elt (el i.va e) (x.vopB i e) 0)),
        (.or_, .wVor core hc, lanes (fun e => vElem .or_ i.elt (el i.va e) (x.vopB i e) 0)),
        (.xor_, .wVxor core hc, lanes (fun e => vElem .xor_ i.elt (el i.va e) (x.vopB i e) 0)),
        (.shl, .wVshl core hc, lanes (fun e => vElem .shl i.elt (el i.va e) (x.vopB i e) 0)),
        (.shr, .wVshr core hc, lanes (fun e => vElem .shr i.elt (el i.va e) (x.vopB i e) 0)),
        (.sar, .wVsar core hc, lanes (fun e => vElem .sar i.elt (el i.va e) (x.vopB i e) 0)),
        (.exp2, .wVexp2 core hc, lanes (fun e => vElem .exp2 i.elt (el i.va e) 0 0)),
        (.log2, .wVlog2 core hc, lanes (fun e => vElem .log2 i.elt (el i.va e) 0 0)),
        (.rcp, .wVrcp core hc, lanes (fun e => vElem .rcp i.elt (el i.va e) 0 0)),
        (.rsqrt, .wVrsqrt core hc, lanes (fun e => vElem .rsqrt i.elt (el i.va e) 0 0)),
        (.tanh, .wVtanh core hc, lanes (fun e => vElem .tanh i.elt (el i.va e) 0 0)),
        (.sigm, .wVsigm core hc, lanes (fun e => vElem .sigm i.elt (el i.va e) 0 0)),
        (.sel, .wVsel core hc, lanes (fun e => if (x.preg (i.vc % 16)).getLsbD (eltBytes i.elt * e) then el i.va e else el i.vb e)),
        (.bcast, .wVbcast core hc, lanes (fun _ => (x.sreg i.sr).toNat % 2 ^ w)),
        (.ins, .wVins core hc, lanes (fun e => if e = i.imm % 128 then (x.sreg i.sr).toNat % 2 ^ w else el i.vd e)),
        (.ext, .wVext core hc, [.s i.sr (BitVec.ofNat 64 (el i.va (i.imm % 128))) (i.bad x)]),
        (.cvt, .wVcvt core hc, writes (vConvert x i)),
        (.perm, .wVperm core hc, lanes (fun e => velem (x.vreg i.va) 8 (velem (x.vreg i.vb) 8 e % 128))),
        (.rsum, .wVrsum core hc, writes (vReduce x i)), (.rmax, .wVrmax core hc, writes (vReduce x i)),
        (.rmin, .wVrmin core hc, writes (vReduce x i))] : List (VOp × Instr × List RegWrite)), i.op = r.1 →
      exec r.2.1 s = .next (committed s core.val hc.val x b PeerTable.empty) ∧ answer.wr = r.2.2 ∧ answer.st = []) ∧
    (i.bad x = false → ∀ r ∈ ([(.ceq, .wVceq core hc), (.clt, .wVclt core hc), (.cle, .wVcle core hc)] : List (VOp × Instr)), i.op = r.1 →
      exec r.2 s = .next (committed s core.val hc.val x b PeerTable.empty) ∧ answer.wr = [.p (i.vd % 16) (vComparePred x i)]) ∧
    ∀ (pa : Nat) (t : State), x.sBad i.sr = false →
      let va := (x.sreg i.sr + sext32 i.imm).toNat % 2 ^ 48
      va % 128 = 0 →
      (x.noneEnabled i = true → (i.op = .ld → exec (.wVld core hc) s = .next (committed s core.val hc.val x b PeerTable.empty) ∧
          answer.wr = [] ∧ answer.loads = []) ∧
        (i.op = .st → exec (.wVst core hc) s = .next (committed s core.val hc.val x b PeerTable.empty) ∧ answer.st = [])) ∧
      (x.noneEnabled i = false → i.op = .ld → translate (beforeVector s core.val x b) core.val x.ctx va .r = (.ok pa, t) →
        exec (.wVld core hc) s = .next (committed s core.val hc.val x b PeerTable.empty) ∧
          let new (bs : Bytes) := vmerge x i (x.vreg i.vd) (fun e => velem (BitVec.ofNat 1024 (leNat bs)) w e)
          let old := !x.allEnabled i && x.vBad i.vd
          let bs := memBytes t pa 128
          let bad := memPoisoned t pa 128 || old
          (∀ d p, x.aheadHit va 128 = some (d, p) → answer.wr = [.v i.vd (new d) (p || old)] ∧ answer.loads = []) ∧
          (x.aheadHit va 128 = none → ownRing core.val pa = true → answer.wr = [.v i.vd (new bs) bad] ∧ answer.loads = []) ∧
          (x.aheadHit va 128 = none → ownRing core.val pa = false →
            answer.wr = [] ∧ answer.loads = [{ reg := .v i.vd, val := (new bs).toNat, poison := bad }])) ∧
      (x.noneEnabled i = false → i.op = .st → translate (beforeVector s core.val x b) core.val x.ctx va .w = (.ok pa, t) →
        exec (.wVst core hc) s = .next (committed s core.val hc.val x b PeerTable.empty) ∧
          answer.st = (enabledRuns (storeLanes x i) none).map (fun r => (pa + r.1, r.2, x.vBad i.vd)))

/-- A vector register that a slot writes holds its new value in each enabled element and its old one in the others (R261, R271). -/
def Obligations.VectorElements : Prop :=
  ∀ (x : Hc) (i : VSlot) (old : VWord) (f : Nat → Nat) (e : Nat), e < 128 / eltBytes i.elt →
    velem (vmerge x i old f) (8 * eltBytes i.elt) e =
      if x.lane i.pred i.pneg (eltBytes i.elt * e) then f e % 2 ^ (8 * eltBytes i.elt) else velem old (8 * eltBytes i.elt) e

/-- The matrix instructions (10 "Matrix opcodes"; R303, R310, R311, R314, R317, R331). When the bundle of the claimant commits, the instruction
takes effect after the stores and register writes of the scalar and vector slots, and before the mover and control slots; what can commit in the
pair then does. MXWAIT and MXTEST change no accumulator, and MXTEST writes the codes of its array. MST starts a transfer on its tag; an operand
that is not aligned ends it with 0x31 (R381). An instruction whose condition is 0 has no effect. -/
def Obligations.MatrixInstructions : Prop :=
  ∀ (core : Fin 1280) (hc : Fin 8) (s : State) (x : Hc) (b : Bundle) (i : MSlot),
    Commits s core.val hc.val x b PeerTable.empty → b.mx = some i →
    let k := core.val
    let h := hc.val
    let u := slotsStage s k h x b PeerTable.empty
    let outs := (bundleOuts s k h x b PeerTable.empty).1
    let drained (t : State) : State := ((outs.drop 3).flatMap (fun o => o.st)).foldl (fun t w => busWrite t w.1 w.2.1 w.2.2) t
    let rest (t : State) : State := endBundle (controlStage (moverStage (drained t) k h x b PeerTable.empty) k h x b) k h
    (x.cond i.pred i.pneg = false → ∀ r ∈ ([(.shape, .wMshape core hc), (.lw, .wMlw core hc), (.mb, .wMmb core hc), (.ms, .wMms core hc),
      (.ew, .wMew core hc), (.la, .wMla core hc), (.zero, .wMzero core hc), (.wait_, .wMxwait core hc), (.test, .wMxtest core hc),
      (.clr, .wMxclr core hc), (.st, .wMst core hc)] : List (MOp × Instr)), i.op = r.1 → exec r.2 s = .next (rest u)) ∧
    (x.cond i.pred i.pneg = true → (coreGet u k).claim = some h →
    (i.op = .shape → exec (.wMshape core hc) s =
      .next (rest (latDrain (latMod u k (fun l => (arraysOf i.arr).foldl (fun l a => l.setShape a (i.imm % 4)) l)) k))) ∧
    (i.op = .lw → exec (.wMlw core hc) s = .next (rest (latDrain (matrixLoad u k x i) k))) ∧
    (i.op = .mb → exec (.wMmb core hc) s = .next (rest (latDrain (matrixPass u k x i) k))) ∧
    (i.op = .ms → exec (.wMms core hc) s = .next (rest (latDrain (matrixPass u k x i) k))) ∧
    (i.op = .ew → exec (.wMew core hc) s = .next (rest (latDrain (matrixTile u k x i) k))) ∧
    (i.op = .la → exec (.wMla core hc) s = .next (rest (latDrain (matrixTile u k x i) k))) ∧
    (i.op = .zero → exec (.wMzero core hc) s = .next (rest (latDrain (latMod u k (fun l =>
      { l with work := l.work ++ (arraysOf i.arr).map (fun a => bankWork a i.bank .mzero 0) })) k))) ∧
    (i.op = .wait_ → exec (.wMxwait core hc) s = .next (rest (latDrain u k))) ∧
    (i.op = .test →
      let before := ((outs.take 3).flatMap (fun o => o.st)).foldl storeOnly (slotOut b.vx (fun i t => vectorOut t k x i) (beforeVector s k x b)).2
      exec (.wMxtest core hc) s = .next (rest (latDrain u k)) ∧
      (outs.getD 3 .none_).wr = [.s i.so ((coreGet before k).lat.codeWord ((arraysOf i.arr).headD 0)) false]) ∧
    ∀ (m : Tensor) (u1 : State), i.op = .st → (coreGet (latDrain u k) k).claim = some h →
      useDesc (latDrain u k) k x .mx (x.treg i.ta).toNat true = (.ok m, u1) →
      let f : Xfer :=
        { op := opMst, srcD := i.taDesc x, dstD := i.taDesc x, src := m.rebase (i.taDesc x), dst := m.rebase (i.taDesc x),
          list := (arraysOf i.arr).headD 0 + 2 * i.bank + (if bitN i.imm 0 then 8 else 0), count := 0, peer := 0,
          epoch := epochNow (latDrain u k), mesh := meshNow (latDrain u k), unit := 0, poison := false, st := .running, keep := XferMem.none_ }
      exec (.wMst core hc) s = .next (rest (if i.taAligned x then startXfer u1 k h i.xt f
        else xferEnd (setTag u1 k h i.xt (.busy f)) k h i.xt 0x31)))

/-- MXCLR sets every nonzero code in the masked banks of the named arrays to 0, and sets every element of those regions to +0.0; regions without
a code are untouched, and so are shapes, stationary operands and work in flight (R331). -/
def Obligations.ClearTakesOnlyCodedRegions : Prop :=
  (∀ (core : Fin 1280) (hc : Fin 8) (s : State) (x : Hc) (b : Bundle) (i : MSlot),
    Commits s core.val hc.val x b PeerTable.empty → b.mx = some i → x.cond i.pred i.pneg = true → i.op = .clr →
    let k := core.val
    let h := hc.val
    let u := slotsStage s k h x b PeerTable.empty
    (coreGet u k).claim = some h →
    exec (.wMxclr core hc) s = .next (endBundle (controlStage (moverStage ((((bundleOuts s k h x b PeerTable.empty).1.drop 3).flatMap (fun o => o.st)).foldl
      (fun t w => busWrite t w.1 w.2.1 w.2.2) (latDrain (latMod u k (fun l => l.clear (arraysOf i.arr) i.banks)) k)) k h x b PeerTable.empty) k h x b) k h)) ∧
  ∀ (l : Lattice) (as bs : List Nat) (a b g m c : Nat), a < 2 → b < 4 → g < 4 → m < 32 → c < 8 → (∀ x ∈ as, x < 2) → (∀ x ∈ bs, x < 4) →
    let hit := a ∈ as ∧ b ∈ bs ∧ l.code a b g ≠ 0
    (hit → (l.clear as bs).code a b g = 0 ∧ (l.clear as bs).get a b m (8 * g + c) = 0) ∧
    (¬ hit → (l.clear as bs).code a b g = l.code a b g ∧ (l.clear as bs).get a b m (8 * g + c) = l.get a b m (8 * g + c)) ∧
    (l.clear as bs).shape0 = l.shape0 ∧ (l.clear as bs).shape1 = l.shape1 ∧ (l.clear as bs).slices = l.slices ∧ (l.clear as bs).work = l.work

/-- The mover slot (R276–R280, R379; TRANSFER_END R278; SUSPENDED_TRANSFER R400, R401). A transfer takes its descriptors, list, count and peer as
they stand at issue, and starts on its tag; MWAIT sets the tags of its mask IDLE; MTEST, TMOV and TADDB write their register; TLD and TST move a
descriptor, which TLD takes from the run-ahead buffer or the core's own Ring store at once and otherwise when its load completes (log 88). An
instruction whose condition is 0 has no effect. A transfer whose units are all complete becomes DONE, or FAILED with 0x60 when it met poison; one
that meets a fault stops before that unit, and one that is refused fails with 0x31. -/
def Obligations.MoverInstructions : Prop :=
  (∀ (core : Fin 1280) (hc : Fin 8) (s : State) (x : Hc) (b : Bundle) (i : DSlot) (table : PeerTable),
    Commits s core.val hc.val x b table → b.dx = some i →
    let k := core.val
    let h := hc.val
    let u := beforeMover s k h x b table
    let rest (t : State) : State := endBundle (controlStage t k h x b) k h
    let answer := (bundleOuts s k h x b table).1.getD 4 .none_
    (x.cond i.pred i.pneg = false →
      (∀ r ∈ ([(.put, .wMput core hc table), (.get, .wMget core hc table)] : List (DOp × Instr)), i.op = r.1 → exec r.2 s = .next (rest u)) ∧
      (table = PeerTable.empty → ∀ r ∈ ([(.copy, .wMcopy core hc), (.trans, .wMtrans core hc), (.gather, .wMgather core hc),
        (.scatter, .wMscatter core hc), (.fill, .wMfill core hc), (.wait_, .wMwait core hc), (.test, .wMtest core hc), (.tld, .wTld core hc),
        (.tst, .wTst core hc), (.tmov, .wTmov core hc), (.taddb, .wTaddb core hc)] : List (DOp × Instr)), i.op = r.1 →
          exec r.2 s = .next (rest u))) ∧
    (x.cond i.pred i.pneg = true →
    (∀ (src dst : Tensor) (u1 : State), i.op.isTransfer = true → xferTensors u k x i table = (.ok (src, dst), u1) →
      let sd := addBase (x.treg (if i.op = .fill then i.td else i.ts)).toNat (if i.srcOfs then (x.sreg i.sa).toNat else 0)
      let dd := addBase (x.treg i.td).toNat (if i.dstOfs then (x.sreg i.sb).toNat else 0)
      let list := i.op == .gather || i.op == .scatter
      let f : Xfer :=
        { op := i.op.code, srcD := sd, dstD := dd, src := src.rebase sd, dst := dst.rebase dd,
          list := if list then (x.sreg i.sa).toNat % 2 ^ 48 else 0, count := if list then (x.sreg i.sb).toNat else 0,
          peer := if i.op = .put ∨ i.op = .get then (x.sreg i.sb).toNat % 64 else 0, epoch := epochNow u, mesh := meshNow u, unit := 0,
          poison := false, st := .running, keep := XferMem.none_ }
      let t := rest (startXfer (settleTag u1 k h i.xt) k h i.xt f)
      (∀ r ∈ ([(.put, .wMput core hc table), (.get, .wMget core hc table)] : List (DOp × Instr)), i.op = r.1 → exec r.2 s = .next t) ∧
      (table = PeerTable.empty → ∀ r ∈ ([(.copy, .wMcopy core hc), (.trans, .wMtrans core hc), (.gather, .wMgather core hc),
        (.scatter, .wMscatter core hc), (.fill, .wMfill core hc)] : List (DOp × Instr)), i.op = r.1 → exec r.2 s = .next t)) ∧
    (table = PeerTable.empty →
      (i.op = .wait_ → exec (.wMwait core hc) s = .next (rest ((List.range 4).foldl (fun t n =>
        if bitN i.imm n && !((x.tag n) == .idle) then setTag t k h n .idle else t) u))) ∧
      (i.op = .test → exec (.wMtest core hc) s = .next (rest u) ∧ answer.wr = [.s i.sa x.tagWord false]) ∧
      (i.op = .tmov → exec (.wTmov core hc) s = .next (rest u) ∧ answer.wr = [.t i.td (x.treg i.ts) (x.tBad i.ts)]) ∧
      (i.op = .taddb → exec (.wTaddb core hc) s = .next (rest u) ∧ answer.wr =
        [.t i.td (BitVec.ofNat 256 (addBase (x.treg i.ts).toNat (x.sreg i.sa).toNat)) (x.tBad i.ts || x.sBad i.sa)]) ∧
      ∀ (pa : Nat) (t : State), x.sBad i.sa = false →
        let va := (x.sreg i.sa + sext32 i.imm).toNat % 2 ^ 48
        let before := (slotOut b.mx (fun i t => matrixOut t k h x i) (((bundleOuts s k h x b PeerTable.empty).1.take 3).flatMap (fun o => o.st)
          |>.foldl storeOnly (slotOut b.vx (fun i t => vectorOut t k x i) (beforeVector s k x b)).2)).2
        va % 32 = 0 →
        (i.op = .tld → translate before k x.ctx va .r = (.ok pa, t) → exec (.wTld core hc) s = .next (rest u) ∧ answer.st = [] ∧
          (∀ d p, x.aheadHit va 32 = some (d, p) → answer.wr = [.t i.td (BitVec.ofNat 256 (leNat d)) p] ∧ answer.loads = []) ∧
          (x.aheadHit va 32 = none → ownRing k pa = true →
            answer.wr = [.t i.td (BitVec.ofNat 256 (leNat (memBytes t pa 32))) (memPoisoned t pa 32)] ∧ answer.loads = []) ∧
          (x.aheadHit va 32 = none → ownRing k pa = false →
            answer.wr = [] ∧ answer.loads = [{ reg := .t i.td, val := leNat (memBytes t pa 32), poison := memPoisoned t pa 32 }])) ∧
        (i.op = .tst → translate before k x.ctx va .w = (.ok pa, t) → exec (.wTst core hc) s = .next (rest u) ∧
          answer.st = [(pa, leBytes 32 (x.treg i.ts).toNat, x.tBad i.ts)])))) ∧
  ∀ (core : Fin 1280) (hc : Fin 8) (tag : Fin 16) (s t : State) (f : Xfer), s.gct.stopped = false →
    xferOf s core.val hc.val tag.val = some f → f.st = .running → xferWaits s core.val hc.val tag.val = false →
    (∀ g, xferOf t core.val hc.val tag.val = some g → runUnits s core.val hc.val tag.val f.left = (.finished, t) →
      exec (.transferEnd core hc tag) s = .next (xferEnd t core.val hc.val tag.val (if g.poison then 0x60 else 0))) ∧
    (runUnits s core.val hc.val tag.val f.left = (.refused, t) →
      exec (.transferEnd core hc tag) s = .next (xferEnd t core.val hc.val tag.val 0x31)) ∧
    (runUnits s core.val hc.val tag.val f.left = (.remote, t) → exec (.transferEnd core hc tag) s = .next t) ∧
    (∀ src va kind level, runUnits s core.val hc.val tag.val f.left = (.fault src va kind level, t) →
      exec (.transferEnd core hc tag) s = .next s) ∧
    ∀ (src va kind level : Nat) (x : Hc) (g : Xfer), hcGet s core.val hc.val = some x → xferOf t core.val hc.val tag.val = some g →
      runUnits s core.val hc.val tag.val f.left = (.fault src va kind level, t) →
      let r := raiseFault t core.val
        { va := va, ctx := x.ctx, hc := hc.val, src := src, kind := kind, level := level, tag := tag.val, pc := x.pc, unit := g.unit }
      exec (.suspendedTransfer core hc tag) s = .next (coreCount (bump (setTag r.2 core.val hc.val tag.val
        (.busy { g with st := .fault r.1 })) .movSuspend 0 core.val) core.val x.ctx 10 1)

/-- The word of MTEST: the state of each tag, and the failure status of the lowest FAILED one (R280). -/
def Obligations.TagWord : Prop :=
  ∀ (x : Hc) (n : Nat), n < 4 →
    let st (t : TagSt) : Nat := match t with | .idle => 0 | .busy _ => 1 | .done => 2 | .failed _ => 3
    bitsN x.tagWord.toNat (2 * n) 2 = st (x.tag n) ∧ x.tagWord.toNat < 2 ^ 16 ∧
      ((∀ m < 4, st (x.tag m) ≠ 3) → bitsN x.tagWord.toNat 8 8 = 0) ∧
      ∀ c, c < 256 → x.tag n = .failed c → (∀ m < n, st (x.tag m) ≠ 3) → bitsN x.tagWord.toNat 8 8 = c

/-- Control flow, state and synchronisation (R282–R289, R245, R250, R251; BUNDLE_CACHE_FILL R230, R248). When the bundle commits the control
instruction takes effect last: branches set the PC, LOOP while its counter is not 0, EXIT stops the context at the bundle until what it started has
completed and then ends it (log 155), IFENCE drops the context's bundle lines, CRD, CWR and SETTAG move the c registers, RELEASE gives up the pair
and QSEL names a queue. An instruction whose condition is 0 has no effect. TRAP and BREAK raise their exception in place of a commit (log 149). A
bundle that is not in the cache is fetched through its translation, which may suspend the context or raise. -/
def Obligations.ControlInstructions : Prop :=
  (∀ (core : Fin 1280) (hc : Fin 8) (s : State) (x : Hc) (b : Bundle) (i : CSlot),
    Commits s core.val hc.val x b PeerTable.empty → b.cx = some i →
    let k := core.val
    let h := hc.val
    let u := beforeControl s k h x b PeerTable.empty
    let rel := ofInt 48 ((x.pc : Int) + 64 * toInt 32 i.imm)
    let reg := (x.sreg i.ra + sext32 i.imm).toNat % 2 ^ 48
    let answer := (bundleOuts s k h x b PeerTable.empty).1.getD 5 .none_
    let link : List RegWrite := [.s i.rb (BitVec.ofNat 64 ((x.pc + 0x40) % 2 ^ 48)) false]
    let busy (y : Hc) (t : State) : Bool := y.anyBusy 15 || ((coreGet t k).claim == some h && !(coreGet t k).lat.work.isEmpty)
    let ending (t : State) : State := match hcGet t k h with
      | some y => if y.exiting && !t.gct.stopped && !busy y t then exitContext t k h else t
      | none => t
    (x.cond i.pred i.pneg = false → ∀ r ∈ ([(.br, .wBr core hc), (.jr, .wJr core hc), (.call, .wCall core hc), (.callr, .wCallr core hc),
      (.loop, .wLoop core hc), (.exit, .wExit core hc), (.trap, .wTrap core hc), (.brk, .wBreak core hc), (.fence, .wFence core hc),
      (.ifence, .wIfence core hc), (.crd, .wCrd core hc), (.cwr, .wCwr core hc), (.settag, .wSettag core hc), (.claim, .wClaim core hc),
      (.release, .wRelease core hc), (.qsel, .wQsel core hc), (.qopen, .wQopen core hc), (.qpush, .wQpush core hc), (.qpushv, .wQpushv core hc),
      (.qcommit, .wQcommit core hc), (.qabort, .wQabort core hc), (.qread, .wQread core hc), (.qreadv, .wQreadv core hc),
      (.qmark, .wQmark core hc), (.qrewind, .wQrewind core hc), (.qrelease, .wQrelease core hc)] : List (COp × Instr)), i.op = r.1 →
        exec r.2 s = .next (endBundle u k h) ∧ answer.wr = []) ∧
    (x.cond i.pred i.pneg = true →
    (∀ r ∈ ([(.br, .wBr core hc, setPc u k h rel),
        (.exit, .wExit core hc, ending (hcMod u k h (fun y => { y with exiting := true, st := .waiting, pc := x.pc }))),
        (.fence, .wFence core hc, u), (.ifence, .wIfence core hc, coreMod u k (fun c => { c with cache := c.cache.filter (fun b => b.ctx != x.ctx) })),
        (.settag, .wSettag core hc, hcMod u k h (fun y => { y with layer := i.imm % 65536, oper := i.imm / 65536 % 65536 })),
        (.claim, .wClaim core hc, u),
        (.release, .wRelease core hc, if (coreGet u k).claim = some h then releasePair u k else u)] : List (COp × Instr × State)),
      i.op = r.1 → exec r.2.1 s = .next (endBundle r.2.2 k h) ∧ answer.wr = []) ∧
    (i.op = .call → exec (.wCall core hc) s = .next (endBundle (setPc u k h rel) k h) ∧ answer.wr = link) ∧
    (i.op = .crd → exec (.wCrd core hc) s =
        .next (endBundle (if i.cr = 9 then hcMod u k h (fun y => { y with qstat := 0 }) else u) k h) ∧
      answer.wr = [.s i.rb (cregGet (bundleOuts s k h x b PeerTable.empty).2 k x i.cr) false]) ∧
    (x.sBad i.ra = false →
      (reg % 64 = 0 → i.op = .jr → exec (.wJr core hc) s = .next (endBundle (setPc u k h reg) k h) ∧ answer.wr = []) ∧
      (reg % 64 = 0 → i.op = .callr → exec (.wCallr core hc) s = .next (endBundle (setPc u k h reg) k h) ∧ answer.wr = link) ∧
      (i.op = .loop → exec (.wLoop core hc) s = .next (endBundle (if x.sreg i.ra - 1 = 0 then u else setPc u k h rel) k h) ∧
        answer.wr = [.s i.ra (x.sreg i.ra - 1) false]) ∧
      (i.op = .cwr → exec (.wCwr core hc) s = .next (endBundle (hcMod u k h (fun y =>
        if i.cr = 2 then { y with layer := (x.sreg i.ra).toNat % 65536 } else { y with oper := (x.sreg i.ra).toNat % 65536 })) k h))) ∧
    (x.sBad i.rb = false → i.op = .qsel → exec (.wQsel core hc) s =
      .next (endBundle (hcMod u k h (fun y => { y with qd := fsetD 0 y.qd i.qd ((x.sreg i.rb).toNat % 4096 + 32768) })) k h)))) ∧
  (∀ (core : Fin 1280) (hc : Fin 8) (s : State) (x : Hc), canIssue s core.val hc.val = none → hcGet s core.val hc.val = some x →
    x.exiting = true → s.gct.stopped = false →
    exec (.wExit core hc) s = .next (if x.anyBusy 15 || ((coreGet s core.val).claim == some hc.val && !(coreGet s core.val).lat.work.isEmpty) then s
      else exitContext s core.val hc.val)) ∧
  (∀ (core : Fin 1280) (hc : Fin 8) (s : State) (x : Hc) (b : Bundle) (l : BundleLine) (i : CSlot) (e : Exc),
    canIssue s core.val hc.val = some x → cachedLine s core.val x = some l → l.poison = false → Bundle.decode l.bits = b → b.cx = some i →
    b.firstIllegal = none → chooseExc (b.pairing x ((coreGet s core.val).claim == some hc.val)) = none →
    (b.reads x).any x.pending = false → x.cond i.pred i.pneg = true →
    let r := bundleOuts s core.val hc.val x b PeerTable.empty
    decideBundle r.1 (bundleExtra s core.val x b) = .raise e →
    let raised := passBlanks (raiseExc r.2 core.val hc.val e) core.val hc.val 1024
    (i.op = .brk → exec (.wBreak core hc) s = .next raised ∧ (r.1.getD 5 .none_).exc = [mkExc 12 .cx 0]) ∧
    (i.op = .trap → exec (.wTrap core hc) s = .next raised ∧ (r.1.getD 5 .none_).exc = [mkExc 13 .cx i.imm])) ∧
  ∀ (core : Fin 1280) (hc : Fin 8) (s : State) (x : Hc), canIssue s core.val hc.val = some x → cachedLine s core.val x = none →
    (∀ (pa : Nat) (t : State), translate s core.val x.ctx x.pc .x = (.ok pa, t) →
      let l : BundleLine := { ctx := x.ctx, va := x.pc, bits := leNat (memBytes t pa 64), poison := memPoisoned t pa 64 }
      exec (.bundleCacheFill core hc) s = .next (passBlanks (coreMod (memTouch t pa 64) core.val (fun c =>
        { c with cache := (l :: c.cache).take 1024 })) core.val hc.val 1024)) ∧
    (∀ (t : State), translate s core.val x.ctx x.pc .x = (.refused, t) →
      exec (.bundleCacheFill core hc) s = .next (raiseExc (bump t .xltRefused 0 core.val) core.val hc.val (mkExc 2 .sa x.pc))) ∧
    ∀ (kind level : Nat) (t : State), translate s core.val x.ctx x.pc .x = (.fault kind level, t) →
      exec (.bundleCacheFill core hc) s = .next (if x.disp = 2 then raiseExc t core.val hc.val (mkExc 1 .sa x.pc)
        else if x.disp = 3 then raiseExc t core.val hc.val (mkExc 2 .sa x.pc)
        else suspendBundle t core.val hc.val x { slot := .sa, src := 0, va := x.pc, kind := kind, level := level })

/-- An exception ends its context (R250): the record stands in the core's area, FCT_EXC counts it, and the slot of a run takes its status; a
BREAK with FCT_CTL.DEBUG set holds the context instead (R251). A claim that is granted starts with every accumulator +0.0 (R231, R232, R321), and
a pending change of the scheduling mode takes effect at the grant (R56). A restored claimant takes its accumulators from the frame it keeps, or
ends there when they hold an uncorrectable error (R227). With the pair taken, spare work on it, or no claim, nothing is granted (log 107). -/
def Obligations.ExceptionsAndGrants : Prop :=
  (∀ (s : State) (k h : Nat) (x : Hc) (e : Exc), hcGet s k h = some x → (e.code ≠ 12 ∨ regF s .fctCtl 0 k 2 1 ≠ 1) →
    let record := leBytes 8 e.code ++ leBytes 8 e.slot.index ++ leBytes 8 x.pc ++ leBytes 8 e.va ++ leBytes 8 x.layer ++
      leBytes 8 x.oper ++ leBytes 8 e.tag
    let at_ := ringBase k + 0x1FE000 + 64 * h
    let t := freeContext (excEvent (bump (memWr s at_ record) .fctExc 0 k) k x.ctx at_) k h
    raiseExc s k h e = excTrigger (if x.isRun then runReady t x.ctx e.status [] else t) e.code) ∧
  (∀ (s : State) (k h : Nat) (x : Hc) (e : Exc), hcGet s k h = some x → e.code = 12 → regF s .fctCtl 0 k 2 1 = 1 →
    let ended := if x.stepOne then regPutF (regPutF s .obsDbg 0 0 16 1 0) .obsDbg 0 0 24 8 0 else s
    raiseExc s k h e = debugTrigger (hcSet ended k h (some { x with st := .debug, stepOne := false }))) ∧
  ∀ (core : Fin 1280) (s : State), coreActive s core.val = true → s.gct.stopped = false →
    let k := core.val
    let c := coreGet s k
    let mode := (modePending s.gct.modes 2).getD s.gct.modes.scheduling
    (c.claim ≠ none ∨ c.spareBusy ≠ 0 ∨ c.evac = true ∨ nextClaim (if mode = 1 then 0 else 1) c.claims = none →
      exec (.claimGrant core) s = .next s) ∧
    ∀ (g : ClaimWait) (x : Hc), c.claim = none → c.spareBusy = 0 → c.evac = false →
      nextClaim (if mode = 1 then 0 else 1) c.claims = some g → hcGet s k g.hc = some x →
      let chosen := coreMod s k (fun c => { c with sched := mode, claims := passClaims g c.claims })
      let given (t : State) (l : Lattice) : State :=
        coreMod t k (fun c => { c with claim := some g.hc, lat := l, bist0 := c.bist0.abandon, bist1 := c.bist1.abandon })
      (x.heldFrame = none →
        exec (.claimGrant core) s = .next (hcSet (given chosen Lattice.reset) k g.hc (some { x with st := .issuing }))) ∧
      ∀ f, x.heldFrame = some f →
        let a := frameAt k f + 0x2000
        let t := memTouch chosen a 0x8000
        let image := memBytes chosen (frameAt k f) 0x2000
        let loaded := (List.range 8).foldl (fun t i => reloadSlice t k x i (leAt image (0xA8 + 4 * i) 4))
          (given t (parseLattice image (memBytes chosen a 0x8000)))
        exec (.claimGrant core) s = .next (if memPoisoned chosen a 0x8000 then freeContext (raiseInFrame t k f x (excPoison .sa)) k g.hc
          else hcSet (coreMod loaded k (fun c => { c with frames := ferase c.frames f })) k g.hc (some { x with st := .issuing, heldFrame := none }))

/-- The queue instructions (R290–R295). On a valid descriptor whose queue is bound to the context, the queue operation of the opcode takes
effect last, its words and its status word go to the registers, and c9 learns of a rewound packet. -/
def Obligations.QueueInstructions : Prop :=
  ∀ (core : Fin 1280) (hc : Fin 8) (s : State) (x : Hc) (b : Bundle) (i : CSlot) (q : Nat),
    Commits s core.val hc.val x b PeerTable.empty → b.cx = some i → x.cond i.pred i.pneg = true → x.queue i.qd = some q →
    let k := core.val
    let h := hc.val
    let u := beforeControl s k h x b PeerTable.empty
    let d := queueOp u x i q
    let t := endBundle (if d.2 then hcMod d.1.s k h (fun y => { y with qstat := setBitN y.qstat i.qd true }) else d.1.s) k h
    ∀ r ∈ ([(.qopen, .wQopen core hc, qOpen u q (i.imm % 512) (bitN i.imm 9)),
        (.qpush, .wQpush core hc, (qPush u q [mkWord (x.pair i.rb) (x.sBad i.rb || x.sBad (i.rb + 1))] 0, d.2)),
        (.qpushv, .wQpushv core hc,
          (qPush u q ((List.range (i.imm % 16)).map (fun j => mkWord (vword (x.vreg i.rb) j) (x.vBad i.rb))) 0, d.2)),
        (.qcommit, .wQcommit core hc, (qSimple (queueCommit u q), d.2)), (.qabort, .wQabort core hc, (qSimple (queueAbort u q), d.2)),
        (.qread, .wQread core hc, (qRead u q 1 (bitN i.imm 0) (qreadWrites i.rb), false)),
        (.qreadv, .wQreadv core hc, (qRead u q (i.imm % 16) (bitN i.imm 4) (qreadvWrites x i.rb), false)),
        (.qmark, .wQmark core hc, (qSimple (queueMark u q), false)), (.qrewind, .wQrewind core hc, (qSimple (queueRewind u q), false)),
        (.qrelease, .wQrelease core hc, (qSimple (queueRelease u q), false))] : List (COp × Instr × QDone × Bool)),
      i.op = r.1 → exec r.2.1 s = .next t ∧ d = r.2.2

/-- An E8M0 scale e from 0 to 0xFE stands for 2^(e − 127), and 0xFF makes every element of its block NaN, whatever its code (R341). -/
def Obligations.BlockScales : Prop :=
  (∀ (f : EFmt) (code : Nat), f.scaled code 0xFF = .nan) ∧
  (∀ (g : FFmt) (code e : Nat), e < 0xFF → (EFmt.flt g).scaled code e = (g.decode code).scale ((e : Int) - 127)) ∧
  (∀ (w code e : Nat), e < 0xFF → (EFmt.int w).scaled code e = (intVal (toInt w code)).scale (scaleUnit w + ((e : Int) - 127))) ∧
  ∀ (neg : Bool) (m : Nat) (e x : Int), m ≠ 0 → (FVal.fin neg m e).scale x = .fin neg m (e + x)

/-- Each floating format reads back what it writes (R335–R337, R345): the value of a code, converted into the format, gives the code again, with
its sign and its subnormals; every NaN gives the canonical code. -/
def Obligations.NumberFormatsRoundTrip : Prop :=
  ∀ (f : FFmt) (code : Nat), code < 2 ^ f.width →
    (f.decode code ≠ .nan → f.encode (f.decode code) = code) ∧
    (f.decode code = .nan → f.encode (f.decode code) = match f with
      | .fp32 => 0x7FC00000 | .bf16 => 0x7FC0 | .e5m2 => 0x7E | .e4m3 => 0x7F | .e2m1 => 0)

/-! ### Lattice checks, contexts, translation and HBM (08, 10, 13, 14) -/

/-- Checks, recomputation and self-test of the Lattice (R312, R324–R328, R332–R334, R576). A pass whose check passes commits with the errors that
no check caught; in full shape one that fails is held back and recomputed, then computed on a spare array, and its regions take code 0x41 when none
is there or its check fails again; in another shape a parity error gives 0x41. A replay buffer with an uncorrectable word gives code 2. What an
array makes wrong is the operand of the row (log 107). An idle array is tested, a test of 12,288 cycles that passes is stamped, one that fails
retires the array, and PERIOD_MS holds from the next test. -/
def Obligations.LatticeChecks : Prop :=
  (∀ (core : Fin 1280) (a : Fin 2) (sl h : Nat) (e : PassErrors) (s : State) (x : Hc), s.gct.stopped = false →
    claimant s core.val = some (h, x) →
    let k := core.val
    let l := (coreGet s k).lat
    (judgedPass l x a.val sl 0 [] l.work = none → exec (.passCheck core a sl e) s = .next s) ∧
    (judgedPass l x a.val sl 1 [] l.work = none → exec (.recomputation core a sl e) s = .next s) ∧
    (judgedPass l x a.val sl 2 [] l.work = none → exec (.spareRecomputation core a sl e) s = .next s) ∧
    ∀ (b t : List MxWork) (w : MxWork),
      let failed (s : State) (code : Nat) : State := latDrain (latMod s k (fun l => { l with work := b ++ t }.commit { w with fail := code })) k
      let passed (s : State) : State :=
        latDrain (coreCount (bump (latMod s k (fun l => { l with work := b ++ t }.commitWith w e)) .latPasses 0 k) k x.ctx 7 w.macs) k
      (judgedPass l x a.val sl 0 [] l.work = some (b, w, t) →
        (l.shape a.val = 0 → exec (.passCheck core a sl e) s =
          .next (if w.fails e then latMod s k (fun l => { l with work := b ++ { w with failed := 1 } :: t }) else passed s)) ∧
        (l.shape a.val ≠ 0 → exec (.passCheck core a sl e) s =
          .next (if e.parity then bump (failed s 1) .latParity 0 k else passed s))) ∧
      (judgedPass l x a.val sl 1 [] l.work = some (b, w, t) →
        let o := spareArray s k
        let sent := match o with
          | some (j, y) => coreMod s j (fun c => { c with spareBusy := setBitN c.spareBusy y true })
          | none => s
        exec (.recomputation core a sl e) s = .next (if e.replay then failed s 2
          else if w.fails e then latMod sent k (fun l => { l with work := b ++ { w with failed := 2, spare := o } :: t })
          else wantBist (bump (markRecomputed (passed s) k h) .latChkSame 0 k) k a.val)) ∧
      (judgedPass l x a.val sl 2 [] l.work = some (b, w, t) →
        (w.spare = none → exec (.spareRecomputation core a sl e) s =
          .next (retireArray (bump (failed s 1) .latChkFail 0 k) k a.val 1)) ∧
        ∀ j y : Nat, w.spare = some (j, y) →
          let free := coreMod (coreMod s j (fun c => { c with spareBusy := setBitN c.spareBusy y false })) j
            (fun c => { c with idleFrom := s.idleClock })
          exec (.spareRecomputation core a sl e) s = .next (retireArray (if e.replay then failed free 2
            else if w.fails e then wantBist (bump (failed free 1) .latChkFail 0 k) j y
            else bump (bump (markRecomputed (passed free) k h) .latChkSpare 0 k) .latSpareServed 0 j) k a.val 1))) ∧
  (∀ (r : Replay) (e : PassErrors), (e.parity = true → r.fails e = true) ∧
    ∀ c ∈ e.cells, c.vec < r.acts.length → c.col < r.cols.length → c.mask % 2 ^ 32 ≠ 0 → r.fails e = true) ∧
  (∀ (core : Fin 1280) (a : Fin 2) (s : State), s.gct.stopped = false →
    let k := core.val
    let c := coreGet s k
    let b := bistGet c a.val
    let due := (regF s .latCtl 0 k 1 1 = 1 ∨ b.wanted = true) ∧ c.claim = none ∧ c.spareBusy = 0 ∧ c.idleFrom + 1250 ≤ s.idleClock ∧ b.since = none
    (coreActive s k = true → due → exec (.bistStart core a) s = .next (bistMod s k a.val (fun b =>
      { b with since := some s.idleClock, wanted := false, setting := some (regGet s (mkReg .latBist 0 k)) }))) ∧
    (coreActive s k = false ∨ ¬ due → exec (.bistStart core a) s = .next s) ∧
    (∀ t : Nat, b.since = some t → t + 13963 ≤ s.idleClock →
      let ended := bump (bistMod s k a.val (fun b => { b with since := none, lastAt := s.idleClock, overdue := false })) .latBistRuns 0 k
      exec (.bistResult core a true) s = .next (regPut ended .latBistLast a.val k (msNow s)) ∧
      exec (.bistResult core a false) s = .next (retireArray (bump ended .latBistFail 0 k) k a.val 2)) ∧
    (b.since = none → ∀ ok : Bool, exec (.bistResult core a ok) s = .next s) ∧
    (∀ (t : Nat) (ok : Bool), b.since = some t → s.idleClock < t + 13963 → exec (.bistResult core a ok) s = .next s) ∧
    (coreActive s k = true → exec (.bistOverdue core a) s =
      .next (if b.lastAt + 2 * bistPeriod b ≤ s.idleClock then bistMod s k a.val (fun b => { b with overdue := true }) else s)) ∧
    ∀ row : RegRow, let v := regN s .latBist 0 k % 2 ^ 16 + 2 ^ 16
      TakesWrite s row (mkReg .latBist 0 k) v →
      exec (.bistRequest core) s = .next (wantBist (wantBist (plainWrite s row (mkReg .latBist 0 k) v) k 0) k 1)) ∧
  ∀ s : State, s.gct.stopped = false → exec .retirementRecordWrite s =
    .next { s with flash := { s.flash with retired := s.compass.log }, compass := { s.compass with unwritten := 0 } }

/-- Hardware contexts and save frames (R226, R233–R242, R404; 20 R546). Run-ahead works in a shadow and leaves the context as it was; a context
past its quantum is chosen for preemption, written to a free frame with its state, or in an evacuation to an overflow frame in the order of the
hardware contexts, and restored from the oldest runnable one; the frame commands start, export and free frames; EVAC_DONE ends an evacuation. The
Ring store is scrubbed once in each period; what is upset is the row's operand (log 85, log 156). -/
def Obligations.ContextsAndFrames : Prop :=
  (∀ (core : Fin 1280) (hc : Fin 8) (s : State) (x : Hc), let k := core.val; let h := hc.val
    (∀ n : Nat, canIssue s k h = some x →
      let r := aheadRun s k h (Nat.min n 64 + 1) x (x.toAhead (x.loads.map (fun l => l.reg.key)) false) true
      (regF s .fctCtl 0 k 0 1 = 1 ∧ waitsAhead s k x = true → exec (.runAheadEntry core hc n) s =
        .next (bump (hcSet s k h (some { r.1 with st := .runAhead, ahead := some r.2 })) .fctRaEnter 0 k)) ∧
      (¬ (regF s .fctCtl 0 k 0 1 = 1 ∧ waitsAhead s k x = true) → exec (.runAheadEntry core hc n) s = .next s) ∧
      r.1 = { x with buf := r.1.buf } ∧ (x.buf.length ≤ 16 → r.1.buf.length ≤ 16)) ∧
    (s.gct.stopped = false → hcGet s k h = some x → x.st = .runAhead →
      exec (.runAheadExit core hc) s =
        .next (if waitsAhead s k x then s else hcSet s k h (some { x with st := .waiting, ahead := none }))) ∧
    ∀ (units : List Nat), hcGet s k h = some x → s.gct.stopped = false →
      let q := quiesce s k h units
      let c := coreGet s k
      (x.stop = false ∨ spanBusy s k h = true ∨ matrixPending s k h x = true → exec (.preemptionComplete core hc units) s = .next s) ∧
      ∀ y : Hc, x.stop = true → spanBusy s k h = false → matrixPending s k h x = false → hcGet q k h = some y →
        (∀ f : Nat, freeFrame (coreGet q k) = some f → let r := storeContext q k h (frameAt k f)
          exec (.preemptionComplete core hc units) s = .next (releaseHeld (frameWritten r.1 k h f r.2 y) k)) ∧
        (freeFrame (coreGet q k) = none → c.evac = false ∨ overflowTurn c h = false →
          exec (.preemptionComplete core hc units) s = .next s) ∧
        (freeFrame (coreGet q k) = none → c.evac = true → overflowTurn c h = true →
          (∀ a : Nat, overflowAt s k = some a → let r := (storeContext q k h a).1
            exec (.preemptionComplete core hc units) s = .next (releaseHeld (regPutF (keepMarks
              (freeContext (countPreempt (countStops r k y) k y.ctx) k h) y) .fctEvac 0 k 0 4 (regF s .fctEvac 0 k 0 4 + 1)) k)) ∧
          (overflowAt s k = none → exec (.preemptionComplete core hc units) s = .next (releaseHeld (discardContext q k h (some 0x20)) k)))) ∧
  (∀ (core : Fin 1280) (s : State) (tables : List PeerTable), let k := core.val
    s.gct.stopped = false →
    (coreActive s k = true → regF s .fctCtl 0 k 1 1 ≠ 0 → (runnableFrame (coreGet s k)).isSome = true → (freeFrame (coreGet s k)).isSome = true →
      (∀ h, expired (coreGet s k) = some h → exec (.quantumExpiry core none) s = .next (choosePreempt s k h)) ∧
      (expired (coreGet s k) = none → exec (.quantumExpiry core none) s = .next s) ∧
      ∀ hc : Fin 8, exec (.quantumExpiry core (some hc)) s = .next (if waiter s k hc.val then choosePreempt s k hc.val else s)) ∧
    (coreActive s k = true → (coreGet s k).evac = false →
      (∀ f h, runnableFrame (coreGet s k) = some f → freeHc (coreGet s k) = some h →
        exec (.restore core tables) s = .next (restoreInto s k f h tables)) ∧
      (runnableFrame (coreGet s k) = none ∨ freeHc (coreGet s k) = none → exec (.restore core tables) s = .next s)) ∧
    ∀ (frame : Fin 6) (image : Bytes) (stores : List (Nat × Bytes)) (set : Option (Fin 32)) (born : Option NewContext), crownRuns s = true →
      coreActive s k = true ∨ (coreGet s k).evac = true →
      let ctx := leAt image 0 2
      let s1 := createContext (runtimeStores s stores) ctx born
      let s2 := memWr s1 (frameAt k frame.val) (padTo image 0xA000)
      let s3 := if byteAt image 2 = 0 then marksSet s2 ctx [] else s2
      exec (.place core frame image stores set born tables) s = .next (if frameState s k frame.val ≠ 0 then s1
        else leaveReserve (placeFrame (bindSet s3 ctx (set.map Fin.val)) k frame.val tables) k)) ∧
  (∀ (core : Fin 1280) (frame : Fin 6) (s : State), let k := core.val
    crownRuns s = true → s.gct.stopped = false →
    let kept := (coreGet s k).hcs.any (fun h => h.2.heldFrame == some frame.val)
    exec (.exportFrame core frame) s =
      .next (if frameState s k frame.val ∈ [1, 2, 3] ∧ kept = false then setFrameState s k frame.val 4 else s) ∧
    exec (.freeFrame core frame) s = .next (if frameState s k frame.val = 4 then setFrameState s k frame.val 0 else s) ∧
    ∀ base : Nat, valueOk s (mkReg .fctEvac 0 k) (base % 2 ^ 32 * 2 ^ 16) = true →
      let s1 := regPutF s .fctEvac 0 k 16 32 base
      exec (.evacDone core base false) s = .next s1 ∧
      exec (.evacDone core base true) s = .next (if (coreGet s1 k).evac then coreMod s1 k (fun c => { c with evac := false }) else s1)) ∧
  (∀ (core : Fin 1280) (ce ue : List Nat) (s t : State), s.gct.stopped = false →
    let at_ (l : List Nat) : List Nat := l.map (fun g => ringBase core.val / 32 + g % 65536)
    let pass := scrubPass (upsetGranules s (at_ ce) (at_ ue)) (2048 + core.val) (mkReg .fctScrub 0 core.val) (fun v => 1250000 * bitsN v 0 16)
    (pass = (none, t) → exec (.ringScrub core ce ue) s = .next t) ∧
    ∀ v : Nat, pass = (some v, t) → exec (.ringScrub core ce ue) s = .next (if bitN v 16 then
      (faultyGranules t (fun g => inRing (32 * g) && ringCore (32 * g) == core.val)).foldl touchGranule t else t)) ∧
  ∀ (s : State) (key first now : Nat) (ticks : Nat → Nat) (x : Scrub), fget? s.scrubs key = some x →
    (s.idleClock < x.since + ticks x.val → (scrubPassOf s key first now ticks).1 = if x.done then none else some x.val) ∧
    (x.since + ticks x.val ≤ s.idleClock → scrubPassOf s key first now ticks =
      (some now, { s with scrubs := finsert s.scrubs key { since := s.idleClock, val := now, done := true } }))

/-- Fault service and invalidation (R398, R400, R402, R404, R405). RD frees positions of the fault ring, and waiting faults write their records; a
RESOLVE applies its action to the suspended bundle or transfer that holds the FSEQ, or to a frame, is held while that context is being saved, and
leaves its result in XLT_RESOLVE; an invalidation discards what its scope covers, one that meets BUSY sets ERR, and BUSY clears when no access
through a discarded translation is left. The runtime's stores, and the context that it creates, come first (log 94, log 40). -/
def Obligations.FaultService : Prop :=
  (∀ (core : Fin 1280) (s : State), crownRuns s = true → let k := core.val
    (∀ rd : Nat, exec (.faultRingRd core rd) s = .next (if 64 < (fringWr s k + 2 ^ 32 - rd % 2 ^ 32) % 2 ^ 32 then s
      else drainFaults (regPutF s .xltFring 0 k 32 32 rd) k (coreGet s k).faults.length)) ∧
    ∀ q : Nat,
      let done_ (act : Nat) (table : PeerTable) (t : State) : State :=
        let r := applyResolve t k (q % 2 ^ 32) act table
        regPut r.2 .xltResolve 0 k (q % 2 ^ 32 + r.1.code * 2 ^ 34)
      exec (.refuseXlate core q) s = .next (done_ 2 PeerTable.empty s) ∧ exec (.refuseProt core q) s = .next (done_ 3 PeerTable.empty s) ∧
      ∀ (stores : List (Nat × Bytes)) (table : PeerTable), exec (.retry core q stores table) s = .next (done_ 1 table (runtimeStores s stores))) ∧
  (∀ (s : State) (k q act : Nat) (table : PeerTable),
    let found := (coreGet s k).hcs.findSome? (fun e => (e.2.target q).map (fun t => (e.1, e.2.stop, t)))
    (∀ (h : Nat) (t : Target), found = some (h, true, t) → applyResolve s k q act table =
      (.held, coreMod s k (fun c => { c with held := c.held ++ [(q, act)] }))) ∧
    (∀ (h src va : Nat) (slot : SlotId), found = some (h, false, .bundle src va slot) →
      let t := hcMod s k h (fun x => { x with st := .issuing })
      applyResolve s k q act table = (.resident, passBlanks (if act = 1 then t
        else if src = 4 then hcMod s k h (fun x => { x with st := .issuing, mxRef := if act = 2 then 3 else 4 })
        else raiseExc t k h (if src = 0 then mkExc (act - 1) .sa va else excData (if act = 2 then 0x30 else 0x31) slot va)) k h 1024)) ∧
    (∀ (h n : Nat) (f : Xfer), found = some (h, false, .xfer n f) → applyResolve s k q act table =
      (.resident, if act = 1 then resumeXfer s k h n f table else xferEnd s k h n (if act = 2 then 0x30 else 0x31))) ∧
    (found = none → (frameFor s k q = none → applyResolve s k q act table = (.miss, s)) ∧
      ∀ (f : Nat) (t : Option Nat), frameFor s k q = some (f, t) → applyResolve s k q act table = (.frame, resolveFrame s k f act t))) ∧
  (∀ (s : State) (stores : List (Nat × Bytes)), crownRuns s = true → let t := runtimeStores s stores
    (∀ ctx va : Nat, exec (.invalAddress ctx va stores) s = .next (xltInvalidate t (.address ctx va))) ∧
    (∀ (ctx : Nat) (born : Option NewContext), exec (.invalContext ctx stores born) s =
      .next (xltInvalidate (createContext t ctx born) (.context ctx))) ∧
    exec (.invalAll stores) s = .next (xltInvalidate t .all)) ∧
  (∀ (s : State) (i : InvScope), (regF s .xltInval 0 0 50 1 = 1 → xltInvalidate s i = regPutF s .xltInval 0 0 51 1 1) ∧
    (regF s .xltInval 0 0 50 1 = 0 → regF (xltInvalidate s i) .xltInval 0 0 50 1 = 1 ∧
      ∀ (u : Nat) (l : CachedLeaf), l ∈ (unitGet (xltInvalidate s i) u).leaves → l ∈ (unitGet s u).leaves ∧ i.leaf l = false)) ∧
  ∀ s : State, s.gct.stopped = false → exec .invalidationComplete s =
    .next (if regF s .xltInval 0 0 50 1 = 1 ∧ staleAccess s = false then bump (regPutF s .xltInval 0 0 50 1 0) .xltInvals 0 0 else s)

/-- The HBM controllers (R417–R422). The scrub reads every line once in each period; what is upset is the row's operand (log 85, log 156). A
pseudo-channel with as many uncorrectable errors in 1 s as UE_LIMIT, or more corrected ones than CE_LIMIT in each of 10 seconds, is retired under
AUTO_RETIRE, as is one whose parity or training fails; a retirement in service starts a rebuild, waits for the one that runs, or unmaps the lines
when no spare is left; a complete rebuild leaves the pseudo-channel retired and tells the Crown; a mirror region is copied and then in step.
Refresh changes no value. -/
def Obligations.HbmService : Prop :=
  (∀ (stack : Fin 8) (s : State), exec (.refresh stack) s = .next s) ∧
  (∀ (stack : Fin 8) (ce ue : List Nat) (s t : State), s.gct.stopped = false → let st := stack.val
    let at_ (l : List Nat) : List Nat :=
      (l.map (fun g => (hbmBase + 2 ^ 36 * st) / 32 + g)).filter (fun n => inHbm (32 * n) && hbmStack (32 * n) == st)
    let pass := scrubPass (upsetGranules s (at_ ce) (at_ ue)) (16 + st) (mkReg .hbmScrub 0 st) (fun v => 1250000 * (60000 * bitsN v 0 11))
    (pass = (none, t) → exec (.hbmScrub stack ce ue) s = .next t) ∧
    ∀ v : Nat, pass = (some v, t) → exec (.hbmScrub stack ce ue) s = .next (if bitN v 11 then
      (faultyGranules t (fun g => inHbm (32 * g) && hbmStack (32 * g) == st)).foldl touchGranule t else t)) ∧
  (∀ (stack : Fin 8) (pc : Fin 32) (s : State), let st := stack.val; let p := pc.val
    s.gct.stopped = false →
    let e := fgetD PcErrors.none_ s.facet.pcErrors (32 * st + p)
    let auto := regF s .hbmCtl 0 st 0 1 = 1
    let uncorrected := auto ∧ regF s .hbmCtl 0 st 8 8 ≤ e.ues.length
    let corrected := auto ∧ ∃ x ∈ e.ces, ∀ i < 10, regF s .hbmCtl 0 st 16 16 < fgetD 0 e.ces (x.1 + i)
    let begun : State :=
      if pcState s st p ≠ 0 then s
      else if rebuilding s st then { s with facet := { s.facet with rebuildWait := fmodD [] s.facet.rebuildWait st (fun l => addOnce l p) } }
      else if regF s .hbmStatus 0 st 16 2 = 2 then
        recordPcs (regPutF (regPutF s .hbmPcState 0 st (2 * p) 2 3) .hbmStatus 0 st 18 1 1) st
      else
        let t := recovery (regPutF (regPutF s .hbmPcState 0 st (2 * p) 2 1) .hbmStatus 0 st 10 6 (p + 32))
        { t with facet := { t.facet with rebuilt := ferase t.facet.rebuilt st } }
    (uncorrected → exec (.pcRetirement stack pc 0) s = .next begun) ∧ (¬ uncorrected → exec (.pcRetirement stack pc 0) s = .next s) ∧
    (corrected → exec (.pcRetirement stack pc 1) s = .next begun) ∧ (¬ corrected → exec (.pcRetirement stack pc 1) s = .next s) ∧
    (∀ cause : Nat, 2 ≤ cause → exec (.pcRetirement stack pc cause) s = .next begun) ∧
    (crownRuns s = true → exec (.hbmRetire stack pc) s = .next begun)) ∧
  (∀ (stack : Fin 8) (lost : List Nat) (s : State), let st := stack.val
    s.gct.stopped = false →
    (rebuilding s st = false → exec (.rebuildComplete stack lost) s = .next s) ∧
    (rebuilding s st = true →
      let p := regF s .hbmStatus 0 st 10 5
      let early := fgetD [] s.facet.rebuilt st
      let due (g : Nat) : Bool := inPc st p g && !early.contains (g / 8)
      let s0 := upsetGranules s [] ((stackGranules st lost).filter due)
      let s1 := regPutF ((faultyGranules s0 due).foldl rebuildGranule s0) .hbmPcState 0 st (2 * p) 2 2
      let s2 := regPutF (regPutF s1 .hbmStatus 0 st 10 6 0) .hbmStatus 0 st 16 2 (regF s .hbmStatus 0 st 16 2 + 1)
      let s3 := bumpBy (recordPcs s2 st) .hbmRebuilt 0 st (4394496 - early.length)
      let s4 := { s3 with facet := { s3.facet with rebuilt := ferase s3.facet.rebuilt st } }
      exec (.rebuildComplete stack lost) s = .next (nextRetire (crownEvent s4 3
        (zeros 4 ++ [byteOf st, byteOf p] ++ zeros 2 ++ leBytes 4 (poisonedLines s4 st p).length)) st 32))) ∧
  (∀ (stack range : Fin 8) (base size : Nat) (s : State) (row : RegRow), let v := 1 + base % 2 ^ 15 * 2 ^ 6 + size % 2 ^ 15 * 2 ^ 21
    TakesWrite s row (mkReg .hbmMir range.val stack.val) v →
    exec (.mirrorEnable stack range base size) s = .next (mirWrite s stack.val range.val v)) ∧
  ∀ (stack range : Fin 8) (s : State), let v := regN s .hbmMir range.val stack.val
    s.gct.stopped = false →
    let held := stack.val % 2 = 1 ∨ bitN v 0 = false ∨ regF s .hbmMir range.val stack.val 1 1 = 1 ∨ rebuilding s stack.val = true ∨
      rebuilding s (stack.val + 1) = true
    (held → exec (.mirrorSync stack range) s = .next s) ∧
    (¬ held →
      let a := hbmBase + 2 ^ 36 * stack.val + bitsN v 6 15 * 2 ^ 21
      let n := bitsN v 21 15
      let read := (faultyGranules s (fun g => decide (a / 32 ≤ g) && decide (g < a / 32 + n * 2 ^ 16))).foldl touchGranule s
      let copied : State := { read with
        mem := copyRange read.mem a (n * 2 ^ 21) (2 ^ 36)
        memPoison := copyRange read.memPoison (a / 32) (n * 2 ^ 16) (2 ^ 31)
        upsets := copyRange read.upsets (a / 32) (n * 2 ^ 16) (2 ^ 31) }
      exec (.mirrorSync stack range) s = .next (regPutF copied .hbmMir range.val stack.val 1 1 1))

/-! ### Span (16) -/

/-- Span links (R462–R467, R471). A link that is enabled trains, and one that is DOWN on an attached module trains again when its neighbour is
ready; a training ends in UP4, or in UP3 with a faulty lane, with the credits of the channels, and one that was up replays (log 119); routes over it
are usable again (log 114). A faulty lane retrains the link on three lanes and a second one takes it DOWN; silence takes it DOWN. A receiver that
discards a flit asks for the expected SEQ, a sender resends from the SEQ named, and an acknowledgement frees the replay buffer. A link that is not up
takes no flit. -/
def Obligations.SpanLinks : Prop :=
  (∀ (link : Fin 8) (s : State) (row : RegRow), let k := link.val
    (let v := regN s .spnLink k 0 % 4 / 2 * 2 + 1;
      TakesWrite s row (mkReg .spnLink k 0) v → exec (.linkEnable link) s =
        .next (linkEnable (plainWrite s row (mkReg .spnLink k 0) (setBitN v 0 (bitN (regN s .spnLink k 0) 0))) k)) ∧
    (let v := regN s .spnLink k 0 % 4 + 4;
      bitN v 0 = true → TakesWrite s row (mkReg .spnLink k 0) v → exec (.linkRetrain link) s =
        .next (linkRetrain (linkEnable (plainWrite s row (mkReg .spnLink k 0) (setBitN v 0 (bitN (regN s .spnLink k 0) 0))) k) k))) ∧
  (∀ (link : Fin 8) (peer : Nat) (bad : Option (Fin 4)) (s : State), let k := link.val
    let trains := regF s .spnLink k 0 0 1 = 1 ∧ (linkState s k = 1 ∨ (linkState s k = 0 ∧ regF s .spnId 0 0 38 1 = 1))
    (¬ trains → exec (.linkTrained link peer bad) s = .next s) ∧
    (trains →
      let judged := if (linkGet s k).resume then s else regPutF s .spnLink k 0 11 4 0
      let s1 := match bad with
        | some n => bump (regPutF judged .spnLink k 0 (11 + n.val) 1 1) .spnSpare k 0
        | none => judged
      let up := routesBack (regPutF (setLinkState s1 k (if regF s1 .spnLink k 0 11 4 ≠ 0 then 3 else 2)) .spnLink k 0 16 8 (peer % 256)) k
      let l := linkGet up k
      let t := if l.resume then replayLink (linkSet up k { l with resume := false, lastRx := s1.clock }) k
        else linkSet up k { SpanLink.reset with credits := [(0, 192), (1, 192), (2, 256), (3, 256), (4, 128)], lastRx := s1.clock }
      exec (.linkTrained link peer bad) s = .next (sendHeld (linkPump t k (linkGet t k).waiting.length)))) ∧
  (∀ (link : Fin 8) (lane : Fin 4) (s : State), let k := link.val
    (linkState s k = 0 ∨ regF s .spnLink k 0 (11 + lane.val) 1 = 1 → exec (.laneFault link lane) s = .next s) ∧
    (linkState s k ≠ 0 → regF s .spnLink k 0 (11 + lane.val) 1 ≠ 1 →
      let marked := regPutF s .spnLink k 0 (11 + lane.val) 1 1
      exec (.laneFault link lane) s = .next (if regF s .spnLink k 0 11 4 ≠ 0 then linkDown marked k
        else if linkState s k = 2 then recovery (linkMod (setLinkState marked k 1) k (fun l => { l with resume := true })) else marked))) ∧
  (∀ (link : Fin 8) (s : State), let k := link.val
    (linkState s k ≠ 1 ∨ (linkGet s k).resume = false → ∀ ok : Bool, exec (.retrainComplete link ok) s = .next s) ∧
    (linkState s k = 1 → (linkGet s k).resume = true →
      (regF s .spnLink k 0 11 4 ≠ 0 → exec (.retrainComplete link true) s =
        .next (bump (trained s k (regF s .spnLink k 0 16 8) true) .spnSpare k 0)) ∧
      (regF s .spnLink k 0 11 4 = 0 → exec (.retrainComplete link true) s = .next (trained s k (regF s .spnLink k 0 16 8) false)) ∧
      exec (.retrainComplete link false) s = .next (linkDown s k))) ∧
  (∀ (link : Fin 8) (s : State), let k := link.val
    let l := linkGet s k
    (linkUp s k = false → exec (.linkSilence link) s = .next s ∧ exec (.flitCrcFailure link) s = .next s ∧
      (∀ seq : Nat, exec (.retryReq link seq) s = .next s) ∧
      ∀ (ack : Option Nat) (vc : Fin 5) (n : Nat), exec (.ackAndCredit link ack vc n) s = .next s) ∧
    (linkUp s k = true →
      (l.lastRx + 1250 * regF s .spnCtl 0 0 32 8 ≤ s.clock → exec (.linkSilence link) s = .next (linkDown s k)) ∧
      (s.clock < l.lastRx + 1250 * regF s .spnCtl 0 0 32 8 → exec (.linkSilence link) s = .next s) ∧
      exec (.flitCrcFailure link) s = .next (emitFlit (linkMod s k (fun l => { l with lastRx := s.clock })) k (bareFlit 3 l.rxSeq) 0 0) ∧
      (∀ seq : Nat,
        let n := ackedFlits l (seq + 4095)
        let tries := (if n = 0 then l.retries else 0) + 1
        let t := bump (linkSet s k { l with replay := l.replay.drop n, retries := tries, lastRx := s.clock }) .spnRetry k 0
        exec (.retryReq link seq) s = .next (if 16 ≤ tries then linkDown t k else replayLink t k)) ∧
      ∀ (ack : Option Nat) (vc : Fin 5) (n : Nat),
        let gone := match ack with
          | some a => ackedFlits l a
          | none => 0
        let t := linkSet s k { l with replay := l.replay.drop gone, retries := if gone = 0 then l.retries else 0, lastRx := s.clock,
                                      credits := fmodD 0 l.credits vc.val (fun c => Nat.min (c + n) (vcShare vc.val)) }
        exec (.ackAndCredit link ack vc n) s = .next (sendHeld (linkPump t k l.waiting.length)))) ∧
  ∀ (l : SpanLink) (i seq : Nat), l.replay.findIdx? (fun f => f.seq == seq % 4096) = some i → ackedFlits l seq = i + 1

/-- Span messages and routes (R468–R471). A request for this module is translated and served in its context, and answered; one for another
module is forwarded, as is a control message (log 115); a response completes a unit of the transfer that waits for it, or ends it with its status. A
request that times out ends its transfer with 0x50; a destination moves to its alternate when no request waits on the old link; HALT and RESUME of
a peer stop and restart its timeouts (log 120). -/
def Obligations.SpanMessages : Prop :=
  (∀ (link : Fin 8) (vc : Fin 5) (m : SpanMsg) (s : State), let k := link.val
    let rows (mtype : Nat) (i : Instr) : Prop :=
      let w := { m with mtype := mtype }
      let s1 := linkReceive s k vc.val m.flits
      let t := spanEvent s1 true k w
      (linkUp s k = false ∨ s.gct.stopped = true ∨ 8192 < m.data.length → exec i s = .next s) ∧
      (linkUp s k = true → s.gct.stopped = false → m.data.length ≤ 8192 →
        (m.dst ≠ ownId s → exec i s = .next (forward s1 vc.val w)) ∧
        (m.dst = ownId s → exec i s = .next (if mtype = 1 then serveWrite t w else if mtype = 2 then serveRead t w else takeResponse t w)))
    rows 1 (.writeReq link vc m) ∧ rows 2 (.readReq link vc m) ∧ rows 3 (.writeRsp link vc m) ∧ rows 4 (.readRsp link vc m)) ∧
  (∀ (s t : State) (m : SpanMsg),
    (inWindow s m.ctx = false → serveWrite s m = respond s m 3 0x31 [] ∧ serveRead s m = respond s m 4 0x31 []) ∧
    (inWindow s m.ctx = true → ∀ l : List (SpanRange × List (Nat × Nat)),
      (translateRanges s m.ctx .w (parseRanges true m.data 128) = (.ok l, t) →
        serveWrite s m = respond (l.foldl (fun t e => writeRange t e.1 e.2) t) m 3 0 []) ∧
      (translateRanges s m.ctx .r (parseRanges false m.data 128) = (.ok l, t) →
        let r := readPieces t (l.flatMap (fun e => e.2))
        serveRead s m = respond r.2.2 m 4 (if r.2.1 then 0x60 else 0) r.1)) ∧
    (inWindow s m.ctx = true → ∀ e : Nat,
      (translateRanges s m.ctx .w (parseRanges true m.data 128) = (.error e, t) → serveWrite s m = respond t m 3 e []) ∧
      (translateRanges s m.ctx .r (parseRanges false m.data 128) = (.error e, t) → serveRead s m = respond t m 4 e [])) ∧
    ∀ (mtype status : Nat) (data : Bytes), respond s m mtype status data =
      sendMsg (if status = 0x30 ∨ status = 0x31 then bump (bump s .spnInRefused 0 0) .xltSpanFault 0 0 else s)
        { mtype := mtype, src := ownId s, epar := m.epar, dst := m.src, status := status, msgid := m.msgid, ctx := m.ctx, xid := m.xid,
          data := data }) ∧
  (∀ (s : State) (m : SpanMsg), (requestOf s m = none → takeResponse s m = s) ∧
    ∀ (r : SpanReq) (f : Xfer), requestOf s m = some r →
      let s1 := { s with span := { s.span with reqs := s.span.reqs.filter (fun q => q.msg.xid != r.msg.xid) } }
      let fin (t : State) (bytes fill drop : Nat) (bad : Bool) : State :=
        xferKick (unitDone t r.core r.hc r.tag r.ctx f bytes fill drop bad) r.core r.hc r.tag
      xferOf s1 r.core r.hc r.tag = some f →
      (m.mtype = 3 → takeResponse s m = if m.status ≠ 0 then endRequest s r m.status
        else fin s1 ((parseRanges true r.msg.data 128).foldl (fun a e => a + e.len) 0) 0 0 false) ∧
      (m.mtype = 4 → m.status ≠ 0 → m.status ≠ 0x60 → takeResponse s m = endRequest s r m.status) ∧
      (m.mtype = 4 → m.status = 0 ∨ m.status = 0x60 → ∀ t : State,
        let arrived := getArrive s1 r.core r.ctx f m.data (decide (m.status = 0x60))
        (∀ (bytes fill drop : Nat) (bad : Bool), arrived = (.ok bytes fill drop bad, t) → takeResponse s m = fin t bytes fill drop bad) ∧
        (arrived = (.refused, t) → takeResponse s m = xferEnd t r.core r.hc r.tag 0x31))) ∧
  (∀ (xid : Nat) (s : State), s.gct.stopped = false →
    (s.span.reqs.find? (fun r => r.msg.xid == xid) = none → exec (.requestTimeout xid) s = .next s) ∧
    ∀ r : SpanReq, s.span.reqs.find? (fun r => r.msg.xid == xid) = some r →
      let due := r.since + 1250 * regF s .spnCtl 0 0 16 16 ≤ s.clock
      (fget? s.span.halted r.msg.dst = none → due → exec (.requestTimeout xid) s = .next (bump (endRequest s r 0x50) .spnTimeout 0 0)) ∧
      (fget? s.span.halted r.msg.dst ≠ none ∨ ¬ due → exec (.requestTimeout xid) s = .next s)) ∧
  (∀ (dst : Fin 64) (par : Fin 2) (s : State), let key := 2 * dst.val + par.val
    let old := primaryOf (routeHalf s dst.val par.val)
    let waits := fget? s.span.moves key = some false ∨ (fget? s.span.moves key = none ∧ ∃ k, old = some k ∧ linkUsable s k = false)
    let open_ := ∃ r ∈ s.span.reqs, r.msg.dst = dst.val ∧ r.msg.epar % 2 = par.val ∧ r.link ≠ none ∧ r.link = old
    (waits → ¬ open_ →
      exec (.routeMove dst par) s = .next (sendHeld { s with span := { s.span with moves := finsert s.span.moves key true } })) ∧
    (¬ waits ∨ open_ → exec (.routeMove dst par) s = .next s)) ∧
  (∀ (link : Fin 8) (h : CtlHead) (s : State), let k := link.val
    let msg (data : Bytes) : SpanMsg :=
      { mtype := 0x10, src := h.src % 64, epar := h.epoch % 2, dst := h.dst % 64, status := 0, msgid := h.msgid, ctx := 0, xid := 0, data := data }
    let row (i : Instr) (data : Bytes) : Prop := (linkUp s k = false → exec i s = .next s) ∧
      (linkUp s k = true → h.dst % 64 ≠ ownId s → exec i s = .next (forward (linkReceive s k 4 1) 4 (msg data)))
    (∀ n : Nat, row (.linkDown link h n) (controlData 1 n h.epoch [])) ∧ row (.spanHalt link h) (controlData 2 0 h.epoch []) ∧
    row (.spanResume link h) (controlData 3 0 h.epoch []) ∧ (∀ (p : EpochPlan) (lost : Nat), row (.prepare link h p lost) (prepareData p lost)) ∧
    row (.epochReady link h) (controlData 5 0 h.epoch []) ∧ row (.epochRefuse link h) (controlData 6 0 h.epoch []) ∧
    row (.epochCommit link h) (controlData 7 0 h.epoch []) ∧ row (.epochAbort link h) (controlData 8 0 h.epoch [])) ∧
  ∀ (link : Fin 8) (h : CtlHead) (s : State), let k := link.val
    linkUp s k = true → h.dst % 64 = ownId s →
    let src := h.src % 64
    let msg (kind : Nat) : SpanMsg := { mtype := 0x10, src := src, epar := h.epoch % 2, dst := h.dst % 64, status := 0, msgid := h.msgid,
                                        ctx := 0, xid := 0, data := controlData kind 0 h.epoch [] }
    let s2 := spanEvent (linkReceive s k 4 1) true k (msg 2)
    let s3 := spanEvent (linkReceive s k 4 1) true k (msg 3)
    let paused := if (fget? s2.span.halted src).isSome then s2 else { s2 with span := { s2.span with halted := finsert s2.span.halted src s2.clock } }
    exec (.spanHalt link h) s = .next (if regF s2 .obsTrig 0 0 1 1 = 1 then requestStop paused 4 else paused) ∧
    exec (.spanResume link h) s = .next (match fget? s3.span.halted src with
      | none => s3
      | some t => { s3 with span := { s3.span with
          halted := ferase s3.span.halted src
          reqs := s3.span.reqs.map (fun r => if r.msg.dst = src then { r with since := r.since + (s3.clock - t) } else r) } })

/-- Membership epochs (R475–R477). A module answers PREPARE with READY, and with REFUSE while the old epoch is open, when it has answered READY to
another coordinator, or when the epoch does not follow its own; a PREPARE that evicts ends the requests to the lost modules. The coordinator commits
when every new member is READY and aborts on a REFUSE or after 10 ms; COMMIT switches the epoch, ABORT discards it, and the old epoch closes GRACE_US
later. LINK_DOWN is recorded, and a loss is judged, again after an abort or a close. Messages without a run or a plan that they name change nothing
(log 116, log 117). -/
def Obligations.SpanEpochs : Prop :=
  (∀ (link : Fin 8) (h : CtlHead) (s : State), let k := link.val
    linkUp s k = true → h.dst % 64 = ownId s →
    let src := h.src % 64
    let arrived (data : Bytes) : State := spanEvent (linkReceive s k 4 1) true k
      { mtype := 0x10, src := src, epar := h.epoch % 2, dst := h.dst % 64, status := 0, msgid := h.msgid, ctx := 0, xid := 0, data := data }
    (∀ neighbour : Nat, let t := arrived (controlData 1 neighbour h.epoch []);
      exec (.linkDown link h neighbour) s = .next (judgeLoss { t with span := { t.span with downs := addOnce t.span.downs (src, neighbour % 256) } })) ∧
    (∀ (p : EpochPlan) (lost : Nat), let t := arrived (prepareData p lost)
      let refused := (∃ q, t.span.prep = some q ∧ q.epoch = p.epoch ∧ q.coord ≠ p.coord) ∨ t.span.old ≠ none ∨
        (t.span.member = true ∧ p.epoch ≠ (epochNow t + 1) % 2 ^ 32)
      (refused → exec (.prepare link h p lost) s = .next (sendPlan t p.coord p (controlData 6 0 p.epoch []))) ∧
      (¬ refused →
        let s2 := loseRequests t (fun r => decide (lost < 64) && decide (r.msg.dst ∈ members t) && decide (r.msg.dst ∉ p.map))
        let s3 := writeRoutes { s2 with span := { s2.span with prep := some p } } p
        exec (.prepare link h p lost) s = .next (sendPlan (regPutF s3 .spnStatus 0 0 2 1 1) p.coord p (controlData 5 0 p.epoch [])))) ∧
    (let t := arrived (controlData 5 0 h.epoch []);
      exec (.epochReady link h) s = .next (match t.span.run with
        | some r => if r.plan.epoch = h.epoch then
            commitIfReady { t with span := { t.span with run := some { r with ready := addOnce r.ready src } } } else t
        | none => t)) ∧
    (let t := arrived (controlData 6 0 h.epoch []);
      exec (.epochRefuse link h) s = .next (match t.span.run with
        | some r => if r.plan.epoch = h.epoch then abortRun t 0x0C else t
        | none => t)) ∧
    (let t := arrived (controlData 7 0 h.epoch []);
      exec (.epochCommit link h) s = .next (match t.span.prep with
        | some p => if p.epoch = h.epoch then switchEpoch t p else t
        | none => t)) ∧
    (let t := arrived (controlData 8 0 h.epoch []);
      exec (.epochAbort link h) s = .next (match t.span.prep with
        | some p => if p.epoch = h.epoch then regPutF { t with span := { t.span with prep := none } } .spnStatus 0 0 2 1 0 else t
        | none => t))) ∧
  (∀ s : State, (s.span.run = none → exec .epochReadyTimeout s = .next s) ∧
    ∀ r : EpochRun, s.span.run = some r →
      let sent := sendPeers s r.plan (controlData 8 0 r.plan.epoch [])
      let ended := { sent with span := { sent.span with run := none } }
      (∀ status : Nat, abortRun s status = judgeLoss (if r.command then answerEpoch ended status else ended)) ∧
      (r.since + 12500000 ≤ s.clock → exec .epochReadyTimeout s = .next (abortRun s 0x50)) ∧
      (s.clock < r.since + 12500000 → exec .epochReadyTimeout s = .next s)) ∧
  (∀ s : State, s.gct.stopped = false → (s.span.old = none → exec .epochClose s = .next s) ∧
    ∀ o : OldEpoch, s.span.old = some o →
      (s.clock < o.since + 1250 * regF s .spnCtl 0 0 40 16 → exec .epochClose s = .next s) ∧
      (o.since + 1250 * regF s .spnCtl 0 0 40 16 ≤ s.clock →
        let t := regPutF { s with span := { s.span with old := none } } .spnEpoch 0 0 32 1 0
        exec .epochClose s =
          .next (judgeLoss (t.facet.cores.foldl (fun t e => e.2.hcs.foldl (fun t h => endEpochXfers t e.1 h.1 o.epoch) t) t)))) ∧
  (∀ (s : State) (p : EpochPlan) (r : EpochRun), s.span.run = some r → r.plan = p →
    ((∀ m ∈ p.map, m ≠ 0xFF → m ∈ r.ready) →
      let s1 := sendPeers s p (controlData 7 0 p.epoch [])
      let t := switchEpoch { s1 with span := { s1.span with run := none } } p
      commitIfReady s = if r.command then answerEpoch t 0 else t) ∧
    ((∃ m ∈ p.map, m ≠ 0xFF ∧ m ∉ r.ready) → commitIfReady s = s)) ∧
  ∀ (s : State) (p : EpochPlan), ∃ t : State, switchEpoch s p = sendHeld t ∧ t.span.prep = none ∧ t.span.member = decide (ownId s ∈ p.map) ∧
    t.span.old = (if s.span.member then some { epoch := epochNow s, map := epochMap s, since := s.clock } else none) ∧ t.mem = s.mem
end

