-- ==== Sys2Proof/Laws/Tables.lean ====
section
/-!
SUPPORT. The laws of sparse tables: a read after a write, and the canonical form that every table operation keeps.
-/

namespace Sys2Proof.Machine

variable {α : Type}

/-! ### Reading after writing -/

theorem fget_finsert_self (m : FMap α) (k : Nat) (v : α) : fget? (finsert m k v) k = some v := by
  induction m with
  | nil => simp [finsert, fget?]
  | cons e t ih =>
    obtain ⟨j, w⟩ := e
    simp only [finsert]
    split
    · simp [fget?]
    · split
      · simp [fget?]
      · rename_i h1 h2
        simp [fget?, h1, ih]

theorem fget_finsert_ne (m : FMap α) {k j : Nat} (v : α) (h : j ≠ k) : fget? (finsert m k v) j = fget? m j := by
  induction m with
  | nil => simp [finsert, fget?, h]
  | cons e t ih =>
    obtain ⟨i, w⟩ := e
    simp only [finsert]
    split
    · subst_vars; simp [fget?, h]
    · split
      · simp [fget?, h]
      · simp only [fget?, ih]

/-- Every key of a sorted table's tail lies above its first key. -/
theorem fsorted_cons {j : Nat} {v : α} {t : FMap α} (h : fsorted ((j, v) :: t) = true) :
    fsorted t = true ∧ ∀ e ∈ t, j < e.1 := by
  induction t generalizing j v with
  | nil => simp [fsorted]
  | cons e t ih =>
    obtain ⟨k, w⟩ := e
    simp only [fsorted, Bool.and_eq_true, decide_eq_true_eq] at h
    refine ⟨h.2, ?_⟩
    intro e he
    rcases List.mem_cons.1 he with rfl | he
    · exact h.1
    · exact lt_trans h.1 ((ih h.2).2 e he)

theorem fsorted_cons_of {j : Nat} {v : α} {t : FMap α} (h1 : fsorted t = true) (h2 : ∀ e ∈ t, j < e.1) :
    fsorted ((j, v) :: t) = true := by
  cases t with
  | nil => rfl
  | cons e t =>
    obtain ⟨k, w⟩ := e
    simp only [fsorted, Bool.and_eq_true, decide_eq_true_eq]
    exact ⟨h2 (k, w) (by simp), h1⟩

theorem mem_finsert {m : FMap α} {k : Nat} {v : α} {e : Nat × α} (h : e ∈ finsert m k v) : e = (k, v) ∨ e ∈ m := by
  induction m with
  | nil => simpa [finsert] using h
  | cons e' t ih =>
    obtain ⟨j, w⟩ := e'
    simp only [finsert] at h
    split at h
    · rcases List.mem_cons.1 h with h | h <;> simp [h]
    · split at h
      · rcases List.mem_cons.1 h with h | h
        · simp [h]
        · exact Or.inr h
      · rcases List.mem_cons.1 h with h | h
        · simp [h]
        · rcases ih h with h | h <;> simp [h]

theorem ferase_eq_filter (m : FMap α) (k : Nat) : ferase m k = m.filter (fun e => e.1 != k) := by
  induction m with
  | nil => rfl
  | cons e t ih =>
    obtain ⟨j, w⟩ := e
    simp only [ferase, List.filter_cons, ih, bne_iff_ne, ne_eq]
    by_cases h : k = j
    · simp [h]
    · simp [h, Ne.symm h]

theorem mem_ferase {m : FMap α} {k : Nat} {e : Nat × α} (h : e ∈ ferase m k) : e ∈ m := by
  rw [ferase_eq_filter] at h
  exact (List.mem_filter.1 h).1

/-! ### The canonical form -/

theorem fsorted_finsert {m : FMap α} (h : fsorted m = true) (k : Nat) (v : α) : fsorted (finsert m k v) = true := by
  induction m with
  | nil => rfl
  | cons e t ih =>
    obtain ⟨j, w⟩ := e
    obtain ⟨ht, hlt⟩ := fsorted_cons h
    simp only [finsert]
    split
    · subst_vars; exact fsorted_cons_of ht hlt
    · split
      · rename_i h2
        refine fsorted_cons_of h ?_
        intro e he
        rcases List.mem_cons.1 he with rfl | he
        · exact h2
        · exact lt_trans h2 (hlt e he)
      · refine fsorted_cons_of (ih ht) ?_
        intro e he
        rcases mem_finsert he with rfl | he
        · simp only; omega
        · exact hlt e he

theorem fsorted_filter {m : FMap α} (h : fsorted m = true) (p : Nat × α → Bool) : fsorted (m.filter p) = true := by
  induction m with
  | nil => rfl
  | cons e t ih =>
    obtain ⟨j, w⟩ := e
    obtain ⟨ht, hlt⟩ := fsorted_cons h
    simp only [List.filter_cons]
    split
    · exact fsorted_cons_of (ih ht) (fun e he => hlt e (List.mem_filter.1 he).1)
    · exact ih ht

theorem fsorted_ferase {m : FMap α} (h : fsorted m = true) (k : Nat) : fsorted (ferase m k) = true := by
  rw [ferase_eq_filter]
  exact fsorted_filter h _

theorem fget_ferase_self (m : FMap α) (k : Nat) : fget? (ferase m k) k = none := by
  induction m with
  | nil => rfl
  | cons e t ih =>
    obtain ⟨j, w⟩ := e
    simp only [ferase]
    split
    · exact ih
    · rename_i h; simp [fget?, h, ih]

theorem fget_ferase_ne (m : FMap α) {k j : Nat} (hne : j ≠ k) : fget? (ferase m k) j = fget? m j := by
  induction m with
  | nil => rfl
  | cons e t ih =>
    obtain ⟨i, w⟩ := e
    simp only [ferase]
    split
    · subst_vars; simp [fget?, hne, ih]
    · simp only [fget?, ih]

theorem fcanon_iff [DecidableEq α] {d : α} {m : FMap α} :
    fcanon d m = true ↔ fsorted m = true ∧ ∀ e ∈ m, e.2 ≠ d := by
  simp [fcanon]

theorem fcanon_nil [DecidableEq α] (d : α) : fcanon d ([] : FMap α) = true := rfl

theorem fcanon_ferase [DecidableEq α] {d : α} {m : FMap α} (h : fcanon d m = true) (k : Nat) : fcanon d (ferase m k) = true := by
  rw [fcanon_iff] at *
  exact ⟨fsorted_ferase h.1 k, fun e he => h.2 e (mem_ferase he)⟩

theorem fcanon_finsert [DecidableEq α] {d : α} {m : FMap α} (h : fcanon d m = true) (k : Nat) {v : α} (hv : v ≠ d) :
    fcanon d (finsert m k v) = true := by
  rw [fcanon_iff] at *
  refine ⟨fsorted_finsert h.1 k v, fun e he => ?_⟩
  rcases mem_finsert he with rfl | he
  · exact hv
  · exact h.2 e he

theorem fcanon_fsetD [DecidableEq α] {d : α} {m : FMap α} (h : fcanon d m = true) (k : Nat) (v : α) :
    fcanon d (fsetD d m k v) = true := by
  unfold fsetD
  split
  · exact fcanon_ferase h k
  · rename_i hv; exact fcanon_finsert h k hv

theorem fcanon_fmodD [DecidableEq α] {d : α} {m : FMap α} (h : fcanon d m = true) (k : Nat) (f : α → α) :
    fcanon d (fmodD d m k f) = true := fcanon_fsetD h k _

/-- What a table in which `v` has been written at `k` holds at `k`. -/
theorem fgetD_fsetD_self [DecidableEq α] (d : α) (m : FMap α) (k : Nat) (v : α) :
    fgetD d (fsetD d m k v) k = v := by
  unfold fgetD fsetD
  split
  · rename_i hv; simp [fget_ferase_self, hv]
  · simp [fget_finsert_self]

/-- A write leaves every other key as it was. -/
theorem fgetD_fsetD_ne [DecidableEq α] (d : α) (m : FMap α) {k j : Nat} (hne : j ≠ k) (v : α) :
    fgetD d (fsetD d m k v) j = fgetD d m j := by
  unfold fgetD fsetD
  split
  · simp [fget_ferase_ne m hne]
  · simp [fget_finsert_ne m v hne]

/-- A changed entry. -/
theorem fget_fmod_self (m : FMap α) (k : Nat) (f : α → α) : fget? (fmod m k f) k = (fget? m k).map f := by
  unfold fmod
  split
  · rename_i v hv; simp [fget_finsert_self, hv]
  · rename_i hv; simp [hv]

/-- A change leaves every other key as it was. -/
theorem fget_fmod_ne (m : FMap α) {k j : Nat} (h : j ≠ k) (f : α → α) : fget? (fmod m k f) j = fget? m j := by
  unfold fmod
  split
  · exact fget_finsert_ne _ _ h
  · rfl

theorem fcanon_foldl_ferase [DecidableEq α] {d : α} (l : List Nat) {m : FMap α} (h : fcanon d m = true) :
    fcanon d (l.foldl (fun p g => ferase p g) m) = true := by
  induction l generalizing m with
  | nil => exact h
  | cons k t ih => exact ih (fcanon_ferase h k)

end Sys2Proof.Machine
end

