-- ==== Sys2Proof/Laws/State.lean ====
section
/-!
SUPPORT. What each update of the state leaves: for every field that an update does not touch, the field after it is the field before it; and
what is read after a write of the same place.
-/

namespace Sys2Proof.Machine

section Fields

variable (s : State)

@[simp] theorem withPending_pending (l : List Instr) : (s.withPending l).pending = l := rfl
@[simp] theorem withPending_withPending (l m : List Instr) : (s.withPending l).withPending m = s.withPending m := rfl
@[simp] theorem withPending_clock (l : List Instr) : (s.withPending l).clock = s.clock := rfl
@[simp] theorem withPending_idleClock (l : List Instr) : (s.withPending l).idleClock = s.idleClock := rfl
@[simp] theorem withPending_freeCount (l : List Instr) : (s.withPending l).freeCount = s.freeCount := rfl
@[simp] theorem withPending_regs (l : List Instr) : (s.withPending l).regs = s.regs := rfl
@[simp] theorem withPending_mem (l : List Instr) : (s.withPending l).mem = s.mem := rfl
@[simp] theorem withPending_memPoison (l : List Instr) : (s.withPending l).memPoison = s.memPoison := rfl
@[simp] theorem withPending_upsets (l : List Instr) : (s.withPending l).upsets = s.upsets := rfl
@[simp] theorem withPending_scrubs (l : List Instr) : (s.withPending l).scrubs = s.scrubs := rfl
@[simp] theorem withPending_gct (l : List Instr) : (s.withPending l).gct = s.gct := rfl
@[simp] theorem withPending_ports (l : List Instr) : (s.withPending l).ports = s.ports := rfl
@[simp] theorem withPending_heart (l : List Instr) : (s.withPending l).heart = s.heart := rfl
@[simp] theorem withPending_canopy (l : List Instr) : (s.withPending l).canopy = s.canopy := rfl
@[simp] theorem withPending_flow (l : List Instr) : (s.withPending l).flow = s.flow := rfl
@[simp] theorem withPending_grove (l : List Instr) : (s.withPending l).grove = s.grove := rfl
@[simp] theorem withPending_tiers (l : List Instr) : (s.withPending l).tiers = s.tiers := rfl
@[simp] theorem withPending_facet (l : List Instr) : (s.withPending l).facet = s.facet := rfl
@[simp] theorem withPending_span (l : List Instr) : (s.withPending l).span = s.span := rfl
@[simp] theorem withPending_obs (l : List Instr) : (s.withPending l).obs = s.obs := rfl
@[simp] theorem withPending_compass (l : List Instr) : (s.withPending l).compass = s.compass := rfl
@[simp] theorem withPending_crown (l : List Instr) : (s.withPending l).crown = s.crown := rfl
@[simp] theorem withPending_flash (l : List Instr) : (s.withPending l).flash = s.flash := rfl
@[simp] theorem withPending_trust (l : List Instr) : (s.withPending l).trust = s.trust := rfl
@[simp] theorem withPending_pwr (l : List Instr) : (s.withPending l).pwr = s.pwr := rfl
@[simp] theorem withPending_sent (l : List Instr) : (s.withPending l).sent = s.sent := rfl
@[simp] theorem freeBits_freeCount (w : Nat) : (freeBits s w).2.freeCount = s.freeCount + 1 := rfl
@[simp] theorem freeBits_clock (w : Nat) : (freeBits s w).2.clock = s.clock := rfl
@[simp] theorem freeBits_idleClock (w : Nat) : (freeBits s w).2.idleClock = s.idleClock := rfl
@[simp] theorem freeBits_regs (w : Nat) : (freeBits s w).2.regs = s.regs := rfl
@[simp] theorem freeBits_mem (w : Nat) : (freeBits s w).2.mem = s.mem := rfl
@[simp] theorem freeBits_memPoison (w : Nat) : (freeBits s w).2.memPoison = s.memPoison := rfl
@[simp] theorem freeBits_upsets (w : Nat) : (freeBits s w).2.upsets = s.upsets := rfl
@[simp] theorem freeBits_scrubs (w : Nat) : (freeBits s w).2.scrubs = s.scrubs := rfl
@[simp] theorem freeBits_gct (w : Nat) : (freeBits s w).2.gct = s.gct := rfl
@[simp] theorem freeBits_ports (w : Nat) : (freeBits s w).2.ports = s.ports := rfl
@[simp] theorem freeBits_heart (w : Nat) : (freeBits s w).2.heart = s.heart := rfl
@[simp] theorem freeBits_canopy (w : Nat) : (freeBits s w).2.canopy = s.canopy := rfl
@[simp] theorem freeBits_flow (w : Nat) : (freeBits s w).2.flow = s.flow := rfl
@[simp] theorem freeBits_grove (w : Nat) : (freeBits s w).2.grove = s.grove := rfl
@[simp] theorem freeBits_tiers (w : Nat) : (freeBits s w).2.tiers = s.tiers := rfl
@[simp] theorem freeBits_facet (w : Nat) : (freeBits s w).2.facet = s.facet := rfl
@[simp] theorem freeBits_span (w : Nat) : (freeBits s w).2.span = s.span := rfl
@[simp] theorem freeBits_obs (w : Nat) : (freeBits s w).2.obs = s.obs := rfl
@[simp] theorem freeBits_compass (w : Nat) : (freeBits s w).2.compass = s.compass := rfl
@[simp] theorem freeBits_crown (w : Nat) : (freeBits s w).2.crown = s.crown := rfl
@[simp] theorem freeBits_flash (w : Nat) : (freeBits s w).2.flash = s.flash := rfl
@[simp] theorem freeBits_trust (w : Nat) : (freeBits s w).2.trust = s.trust := rfl
@[simp] theorem freeBits_pwr (w : Nat) : (freeBits s w).2.pwr = s.pwr := rfl
@[simp] theorem freeBits_sent (w : Nat) : (freeBits s w).2.sent = s.sent := rfl
@[simp] theorem freeBits_pending (w : Nat) : (freeBits s w).2.pending = s.pending := rfl

/-! #### regSet -/

@[simp] theorem regSet_clock (r : Reg) (v : Word) : (regSet s r v).clock = s.clock := rfl
@[simp] theorem regSet_idleClock (r : Reg) (v : Word) : (regSet s r v).idleClock = s.idleClock := rfl
@[simp] theorem regSet_freeCount (r : Reg) (v : Word) : (regSet s r v).freeCount = s.freeCount := rfl
@[simp] theorem regSet_mem (r : Reg) (v : Word) : (regSet s r v).mem = s.mem := rfl
@[simp] theorem regSet_memPoison (r : Reg) (v : Word) : (regSet s r v).memPoison = s.memPoison := rfl
@[simp] theorem regSet_upsets (r : Reg) (v : Word) : (regSet s r v).upsets = s.upsets := rfl
@[simp] theorem regSet_scrubs (r : Reg) (v : Word) : (regSet s r v).scrubs = s.scrubs := rfl
@[simp] theorem regSet_gct (r : Reg) (v : Word) : (regSet s r v).gct = s.gct := rfl
@[simp] theorem regSet_ports (r : Reg) (v : Word) : (regSet s r v).ports = s.ports := rfl
@[simp] theorem regSet_heart (r : Reg) (v : Word) : (regSet s r v).heart = s.heart := rfl
@[simp] theorem regSet_canopy (r : Reg) (v : Word) : (regSet s r v).canopy = s.canopy := rfl
@[simp] theorem regSet_flow (r : Reg) (v : Word) : (regSet s r v).flow = s.flow := rfl
@[simp] theorem regSet_grove (r : Reg) (v : Word) : (regSet s r v).grove = s.grove := rfl
@[simp] theorem regSet_tiers (r : Reg) (v : Word) : (regSet s r v).tiers = s.tiers := rfl
@[simp] theorem regSet_facet (r : Reg) (v : Word) : (regSet s r v).facet = s.facet := rfl
@[simp] theorem regSet_span (r : Reg) (v : Word) : (regSet s r v).span = s.span := rfl
@[simp] theorem regSet_obs (r : Reg) (v : Word) : (regSet s r v).obs = s.obs := rfl
@[simp] theorem regSet_compass (r : Reg) (v : Word) : (regSet s r v).compass = s.compass := rfl
@[simp] theorem regSet_crown (r : Reg) (v : Word) : (regSet s r v).crown = s.crown := rfl
@[simp] theorem regSet_flash (r : Reg) (v : Word) : (regSet s r v).flash = s.flash := rfl
@[simp] theorem regSet_trust (r : Reg) (v : Word) : (regSet s r v).trust = s.trust := rfl
@[simp] theorem regSet_pwr (r : Reg) (v : Word) : (regSet s r v).pwr = s.pwr := rfl
@[simp] theorem regSet_sent (r : Reg) (v : Word) : (regSet s r v).sent = s.sent := rfl
@[simp] theorem regSet_pending (r : Reg) (v : Word) : (regSet s r v).pending = s.pending := rfl

/-! #### regPut -/

@[simp] theorem regPut_clock (n : RegName) (i k v : Nat) : (regPut s n i k v).clock = s.clock := rfl
@[simp] theorem regPut_idleClock (n : RegName) (i k v : Nat) : (regPut s n i k v).idleClock = s.idleClock := rfl
@[simp] theorem regPut_freeCount (n : RegName) (i k v : Nat) : (regPut s n i k v).freeCount = s.freeCount := rfl
@[simp] theorem regPut_mem (n : RegName) (i k v : Nat) : (regPut s n i k v).mem = s.mem := rfl
@[simp] theorem regPut_memPoison (n : RegName) (i k v : Nat) : (regPut s n i k v).memPoison = s.memPoison := rfl
@[simp] theorem regPut_upsets (n : RegName) (i k v : Nat) : (regPut s n i k v).upsets = s.upsets := rfl
@[simp] theorem regPut_scrubs (n : RegName) (i k v : Nat) : (regPut s n i k v).scrubs = s.scrubs := rfl
@[simp] theorem regPut_gct (n : RegName) (i k v : Nat) : (regPut s n i k v).gct = s.gct := rfl
@[simp] theorem regPut_ports (n : RegName) (i k v : Nat) : (regPut s n i k v).ports = s.ports := rfl
@[simp] theorem regPut_heart (n : RegName) (i k v : Nat) : (regPut s n i k v).heart = s.heart := rfl
@[simp] theorem regPut_canopy (n : RegName) (i k v : Nat) : (regPut s n i k v).canopy = s.canopy := rfl
@[simp] theorem regPut_flow (n : RegName) (i k v : Nat) : (regPut s n i k v).flow = s.flow := rfl
@[simp] theorem regPut_grove (n : RegName) (i k v : Nat) : (regPut s n i k v).grove = s.grove := rfl
@[simp] theorem regPut_tiers (n : RegName) (i k v : Nat) : (regPut s n i k v).tiers = s.tiers := rfl
@[simp] theorem regPut_facet (n : RegName) (i k v : Nat) : (regPut s n i k v).facet = s.facet := rfl
@[simp] theorem regPut_span (n : RegName) (i k v : Nat) : (regPut s n i k v).span = s.span := rfl
@[simp] theorem regPut_obs (n : RegName) (i k v : Nat) : (regPut s n i k v).obs = s.obs := rfl
@[simp] theorem regPut_compass (n : RegName) (i k v : Nat) : (regPut s n i k v).compass = s.compass := rfl
@[simp] theorem regPut_crown (n : RegName) (i k v : Nat) : (regPut s n i k v).crown = s.crown := rfl
@[simp] theorem regPut_flash (n : RegName) (i k v : Nat) : (regPut s n i k v).flash = s.flash := rfl
@[simp] theorem regPut_trust (n : RegName) (i k v : Nat) : (regPut s n i k v).trust = s.trust := rfl
@[simp] theorem regPut_pwr (n : RegName) (i k v : Nat) : (regPut s n i k v).pwr = s.pwr := rfl
@[simp] theorem regPut_sent (n : RegName) (i k v : Nat) : (regPut s n i k v).sent = s.sent := rfl
@[simp] theorem regPut_pending (n : RegName) (i k v : Nat) : (regPut s n i k v).pending = s.pending := rfl

/-! #### regPutF -/

@[simp] theorem regPutF_clock (n : RegName) (i k lo w v : Nat) : (regPutF s n i k lo w v).clock = s.clock := rfl
@[simp] theorem regPutF_idleClock (n : RegName) (i k lo w v : Nat) : (regPutF s n i k lo w v).idleClock = s.idleClock := rfl
@[simp] theorem regPutF_freeCount (n : RegName) (i k lo w v : Nat) : (regPutF s n i k lo w v).freeCount = s.freeCount := rfl
@[simp] theorem regPutF_mem (n : RegName) (i k lo w v : Nat) : (regPutF s n i k lo w v).mem = s.mem := rfl
@[simp] theorem regPutF_memPoison (n : RegName) (i k lo w v : Nat) : (regPutF s n i k lo w v).memPoison = s.memPoison := rfl
@[simp] theorem regPutF_upsets (n : RegName) (i k lo w v : Nat) : (regPutF s n i k lo w v).upsets = s.upsets := rfl
@[simp] theorem regPutF_scrubs (n : RegName) (i k lo w v : Nat) : (regPutF s n i k lo w v).scrubs = s.scrubs := rfl
@[simp] theorem regPutF_gct (n : RegName) (i k lo w v : Nat) : (regPutF s n i k lo w v).gct = s.gct := rfl
@[simp] theorem regPutF_ports (n : RegName) (i k lo w v : Nat) : (regPutF s n i k lo w v).ports = s.ports := rfl
@[simp] theorem regPutF_heart (n : RegName) (i k lo w v : Nat) : (regPutF s n i k lo w v).heart = s.heart := rfl
@[simp] theorem regPutF_canopy (n : RegName) (i k lo w v : Nat) : (regPutF s n i k lo w v).canopy = s.canopy := rfl
@[simp] theorem regPutF_flow (n : RegName) (i k lo w v : Nat) : (regPutF s n i k lo w v).flow = s.flow := rfl
@[simp] theorem regPutF_grove (n : RegName) (i k lo w v : Nat) : (regPutF s n i k lo w v).grove = s.grove := rfl
@[simp] theorem regPutF_tiers (n : RegName) (i k lo w v : Nat) : (regPutF s n i k lo w v).tiers = s.tiers := rfl
@[simp] theorem regPutF_facet (n : RegName) (i k lo w v : Nat) : (regPutF s n i k lo w v).facet = s.facet := rfl
@[simp] theorem regPutF_span (n : RegName) (i k lo w v : Nat) : (regPutF s n i k lo w v).span = s.span := rfl
@[simp] theorem regPutF_obs (n : RegName) (i k lo w v : Nat) : (regPutF s n i k lo w v).obs = s.obs := rfl
@[simp] theorem regPutF_compass (n : RegName) (i k lo w v : Nat) : (regPutF s n i k lo w v).compass = s.compass := rfl
@[simp] theorem regPutF_crown (n : RegName) (i k lo w v : Nat) : (regPutF s n i k lo w v).crown = s.crown := rfl
@[simp] theorem regPutF_flash (n : RegName) (i k lo w v : Nat) : (regPutF s n i k lo w v).flash = s.flash := rfl
@[simp] theorem regPutF_trust (n : RegName) (i k lo w v : Nat) : (regPutF s n i k lo w v).trust = s.trust := rfl
@[simp] theorem regPutF_pwr (n : RegName) (i k lo w v : Nat) : (regPutF s n i k lo w v).pwr = s.pwr := rfl
@[simp] theorem regPutF_sent (n : RegName) (i k lo w v : Nat) : (regPutF s n i k lo w v).sent = s.sent := rfl
@[simp] theorem regPutF_pending (n : RegName) (i k lo w v : Nat) : (regPutF s n i k lo w v).pending = s.pending := rfl

/-! #### bumpBy -/

@[simp] theorem bumpBy_clock (n : RegName) (i k d : Nat) : (bumpBy s n i k d).clock = s.clock := rfl
@[simp] theorem bumpBy_idleClock (n : RegName) (i k d : Nat) : (bumpBy s n i k d).idleClock = s.idleClock := rfl
@[simp] theorem bumpBy_freeCount (n : RegName) (i k d : Nat) : (bumpBy s n i k d).freeCount = s.freeCount := rfl
@[simp] theorem bumpBy_mem (n : RegName) (i k d : Nat) : (bumpBy s n i k d).mem = s.mem := rfl
@[simp] theorem bumpBy_memPoison (n : RegName) (i k d : Nat) : (bumpBy s n i k d).memPoison = s.memPoison := rfl
@[simp] theorem bumpBy_upsets (n : RegName) (i k d : Nat) : (bumpBy s n i k d).upsets = s.upsets := rfl
@[simp] theorem bumpBy_scrubs (n : RegName) (i k d : Nat) : (bumpBy s n i k d).scrubs = s.scrubs := rfl
@[simp] theorem bumpBy_gct (n : RegName) (i k d : Nat) : (bumpBy s n i k d).gct = s.gct := rfl
@[simp] theorem bumpBy_ports (n : RegName) (i k d : Nat) : (bumpBy s n i k d).ports = s.ports := rfl
@[simp] theorem bumpBy_heart (n : RegName) (i k d : Nat) : (bumpBy s n i k d).heart = s.heart := rfl
@[simp] theorem bumpBy_canopy (n : RegName) (i k d : Nat) : (bumpBy s n i k d).canopy = s.canopy := rfl
@[simp] theorem bumpBy_flow (n : RegName) (i k d : Nat) : (bumpBy s n i k d).flow = s.flow := rfl
@[simp] theorem bumpBy_grove (n : RegName) (i k d : Nat) : (bumpBy s n i k d).grove = s.grove := rfl
@[simp] theorem bumpBy_tiers (n : RegName) (i k d : Nat) : (bumpBy s n i k d).tiers = s.tiers := rfl
@[simp] theorem bumpBy_facet (n : RegName) (i k d : Nat) : (bumpBy s n i k d).facet = s.facet := rfl
@[simp] theorem bumpBy_span (n : RegName) (i k d : Nat) : (bumpBy s n i k d).span = s.span := rfl
@[simp] theorem bumpBy_obs (n : RegName) (i k d : Nat) : (bumpBy s n i k d).obs = s.obs := rfl
@[simp] theorem bumpBy_compass (n : RegName) (i k d : Nat) : (bumpBy s n i k d).compass = s.compass := rfl
@[simp] theorem bumpBy_crown (n : RegName) (i k d : Nat) : (bumpBy s n i k d).crown = s.crown := rfl
@[simp] theorem bumpBy_flash (n : RegName) (i k d : Nat) : (bumpBy s n i k d).flash = s.flash := rfl
@[simp] theorem bumpBy_trust (n : RegName) (i k d : Nat) : (bumpBy s n i k d).trust = s.trust := rfl
@[simp] theorem bumpBy_pwr (n : RegName) (i k d : Nat) : (bumpBy s n i k d).pwr = s.pwr := rfl
@[simp] theorem bumpBy_sent (n : RegName) (i k d : Nat) : (bumpBy s n i k d).sent = s.sent := rfl
@[simp] theorem bumpBy_pending (n : RegName) (i k d : Nat) : (bumpBy s n i k d).pending = s.pending := rfl

/-! #### bump -/

@[simp] theorem bump_clock (n : RegName) (i k : Nat) : (bump s n i k).clock = s.clock := rfl
@[simp] theorem bump_idleClock (n : RegName) (i k : Nat) : (bump s n i k).idleClock = s.idleClock := rfl
@[simp] theorem bump_freeCount (n : RegName) (i k : Nat) : (bump s n i k).freeCount = s.freeCount := rfl
@[simp] theorem bump_mem (n : RegName) (i k : Nat) : (bump s n i k).mem = s.mem := rfl
@[simp] theorem bump_memPoison (n : RegName) (i k : Nat) : (bump s n i k).memPoison = s.memPoison := rfl
@[simp] theorem bump_upsets (n : RegName) (i k : Nat) : (bump s n i k).upsets = s.upsets := rfl
@[simp] theorem bump_scrubs (n : RegName) (i k : Nat) : (bump s n i k).scrubs = s.scrubs := rfl
@[simp] theorem bump_gct (n : RegName) (i k : Nat) : (bump s n i k).gct = s.gct := rfl
@[simp] theorem bump_ports (n : RegName) (i k : Nat) : (bump s n i k).ports = s.ports := rfl
@[simp] theorem bump_heart (n : RegName) (i k : Nat) : (bump s n i k).heart = s.heart := rfl
@[simp] theorem bump_canopy (n : RegName) (i k : Nat) : (bump s n i k).canopy = s.canopy := rfl
@[simp] theorem bump_flow (n : RegName) (i k : Nat) : (bump s n i k).flow = s.flow := rfl
@[simp] theorem bump_grove (n : RegName) (i k : Nat) : (bump s n i k).grove = s.grove := rfl
@[simp] theorem bump_tiers (n : RegName) (i k : Nat) : (bump s n i k).tiers = s.tiers := rfl
@[simp] theorem bump_facet (n : RegName) (i k : Nat) : (bump s n i k).facet = s.facet := rfl
@[simp] theorem bump_span (n : RegName) (i k : Nat) : (bump s n i k).span = s.span := rfl
@[simp] theorem bump_obs (n : RegName) (i k : Nat) : (bump s n i k).obs = s.obs := rfl
@[simp] theorem bump_compass (n : RegName) (i k : Nat) : (bump s n i k).compass = s.compass := rfl
@[simp] theorem bump_crown (n : RegName) (i k : Nat) : (bump s n i k).crown = s.crown := rfl
@[simp] theorem bump_flash (n : RegName) (i k : Nat) : (bump s n i k).flash = s.flash := rfl
@[simp] theorem bump_trust (n : RegName) (i k : Nat) : (bump s n i k).trust = s.trust := rfl
@[simp] theorem bump_pwr (n : RegName) (i k : Nat) : (bump s n i k).pwr = s.pwr := rfl
@[simp] theorem bump_sent (n : RegName) (i k : Nat) : (bump s n i k).sent = s.sent := rfl
@[simp] theorem bump_pending (n : RegName) (i k : Nat) : (bump s n i k).pending = s.pending := rfl

/-! #### taintGranule -/

@[simp] theorem taintGranule_clock (g : Nat) : (taintGranule s g).clock = s.clock := rfl
@[simp] theorem taintGranule_idleClock (g : Nat) : (taintGranule s g).idleClock = s.idleClock := rfl
@[simp] theorem taintGranule_freeCount (g : Nat) : (taintGranule s g).freeCount = s.freeCount := rfl
@[simp] theorem taintGranule_regs (g : Nat) : (taintGranule s g).regs = s.regs := rfl
@[simp] theorem taintGranule_mem (g : Nat) : (taintGranule s g).mem = s.mem := rfl
@[simp] theorem taintGranule_scrubs (g : Nat) : (taintGranule s g).scrubs = s.scrubs := rfl
@[simp] theorem taintGranule_gct (g : Nat) : (taintGranule s g).gct = s.gct := rfl
@[simp] theorem taintGranule_ports (g : Nat) : (taintGranule s g).ports = s.ports := rfl
@[simp] theorem taintGranule_heart (g : Nat) : (taintGranule s g).heart = s.heart := rfl
@[simp] theorem taintGranule_canopy (g : Nat) : (taintGranule s g).canopy = s.canopy := rfl
@[simp] theorem taintGranule_flow (g : Nat) : (taintGranule s g).flow = s.flow := rfl
@[simp] theorem taintGranule_grove (g : Nat) : (taintGranule s g).grove = s.grove := rfl
@[simp] theorem taintGranule_tiers (g : Nat) : (taintGranule s g).tiers = s.tiers := rfl
@[simp] theorem taintGranule_facet (g : Nat) : (taintGranule s g).facet = s.facet := rfl
@[simp] theorem taintGranule_span (g : Nat) : (taintGranule s g).span = s.span := rfl
@[simp] theorem taintGranule_obs (g : Nat) : (taintGranule s g).obs = s.obs := rfl
@[simp] theorem taintGranule_compass (g : Nat) : (taintGranule s g).compass = s.compass := rfl
@[simp] theorem taintGranule_crown (g : Nat) : (taintGranule s g).crown = s.crown := rfl
@[simp] theorem taintGranule_flash (g : Nat) : (taintGranule s g).flash = s.flash := rfl
@[simp] theorem taintGranule_trust (g : Nat) : (taintGranule s g).trust = s.trust := rfl
@[simp] theorem taintGranule_pwr (g : Nat) : (taintGranule s g).pwr = s.pwr := rfl
@[simp] theorem taintGranule_sent (g : Nat) : (taintGranule s g).sent = s.sent := rfl
@[simp] theorem taintGranule_pending (g : Nat) : (taintGranule s g).pending = s.pending := rfl

/-! #### queueSet -/

@[simp] theorem queueSet_clock (q : Nat) (v : SQueue) : (queueSet s q v).clock = s.clock := rfl
@[simp] theorem queueSet_idleClock (q : Nat) (v : SQueue) : (queueSet s q v).idleClock = s.idleClock := rfl
@[simp] theorem queueSet_freeCount (q : Nat) (v : SQueue) : (queueSet s q v).freeCount = s.freeCount := rfl
@[simp] theorem queueSet_regs (q : Nat) (v : SQueue) : (queueSet s q v).regs = s.regs := rfl
@[simp] theorem queueSet_mem (q : Nat) (v : SQueue) : (queueSet s q v).mem = s.mem := rfl
@[simp] theorem queueSet_memPoison (q : Nat) (v : SQueue) : (queueSet s q v).memPoison = s.memPoison := rfl
@[simp] theorem queueSet_upsets (q : Nat) (v : SQueue) : (queueSet s q v).upsets = s.upsets := rfl
@[simp] theorem queueSet_scrubs (q : Nat) (v : SQueue) : (queueSet s q v).scrubs = s.scrubs := rfl
@[simp] theorem queueSet_gct (q : Nat) (v : SQueue) : (queueSet s q v).gct = s.gct := rfl
@[simp] theorem queueSet_ports (q : Nat) (v : SQueue) : (queueSet s q v).ports = s.ports := rfl
@[simp] theorem queueSet_canopy (q : Nat) (v : SQueue) : (queueSet s q v).canopy = s.canopy := rfl
@[simp] theorem queueSet_flow (q : Nat) (v : SQueue) : (queueSet s q v).flow = s.flow := rfl
@[simp] theorem queueSet_grove (q : Nat) (v : SQueue) : (queueSet s q v).grove = s.grove := rfl
@[simp] theorem queueSet_tiers (q : Nat) (v : SQueue) : (queueSet s q v).tiers = s.tiers := rfl
@[simp] theorem queueSet_facet (q : Nat) (v : SQueue) : (queueSet s q v).facet = s.facet := rfl
@[simp] theorem queueSet_span (q : Nat) (v : SQueue) : (queueSet s q v).span = s.span := rfl
@[simp] theorem queueSet_obs (q : Nat) (v : SQueue) : (queueSet s q v).obs = s.obs := rfl
@[simp] theorem queueSet_compass (q : Nat) (v : SQueue) : (queueSet s q v).compass = s.compass := rfl
@[simp] theorem queueSet_crown (q : Nat) (v : SQueue) : (queueSet s q v).crown = s.crown := rfl
@[simp] theorem queueSet_flash (q : Nat) (v : SQueue) : (queueSet s q v).flash = s.flash := rfl
@[simp] theorem queueSet_trust (q : Nat) (v : SQueue) : (queueSet s q v).trust = s.trust := rfl
@[simp] theorem queueSet_pwr (q : Nat) (v : SQueue) : (queueSet s q v).pwr = s.pwr := rfl
@[simp] theorem queueSet_sent (q : Nat) (v : SQueue) : (queueSet s q v).sent = s.sent := rfl
@[simp] theorem queueSet_pending (q : Nat) (v : SQueue) : (queueSet s q v).pending = s.pending := rfl

/-! #### pktSet -/

@[simp] theorem pktSet_clock (k : Nat) (p : Packet) : (pktSet s k p).clock = s.clock := rfl
@[simp] theorem pktSet_idleClock (k : Nat) (p : Packet) : (pktSet s k p).idleClock = s.idleClock := rfl
@[simp] theorem pktSet_freeCount (k : Nat) (p : Packet) : (pktSet s k p).freeCount = s.freeCount := rfl
@[simp] theorem pktSet_regs (k : Nat) (p : Packet) : (pktSet s k p).regs = s.regs := rfl
@[simp] theorem pktSet_mem (k : Nat) (p : Packet) : (pktSet s k p).mem = s.mem := rfl
@[simp] theorem pktSet_memPoison (k : Nat) (p : Packet) : (pktSet s k p).memPoison = s.memPoison := rfl
@[simp] theorem pktSet_upsets (k : Nat) (p : Packet) : (pktSet s k p).upsets = s.upsets := rfl
@[simp] theorem pktSet_scrubs (k : Nat) (p : Packet) : (pktSet s k p).scrubs = s.scrubs := rfl
@[simp] theorem pktSet_gct (k : Nat) (p : Packet) : (pktSet s k p).gct = s.gct := rfl
@[simp] theorem pktSet_ports (k : Nat) (p : Packet) : (pktSet s k p).ports = s.ports := rfl
@[simp] theorem pktSet_heart (k : Nat) (p : Packet) : (pktSet s k p).heart = s.heart := rfl
@[simp] theorem pktSet_flow (k : Nat) (p : Packet) : (pktSet s k p).flow = s.flow := rfl
@[simp] theorem pktSet_grove (k : Nat) (p : Packet) : (pktSet s k p).grove = s.grove := rfl
@[simp] theorem pktSet_tiers (k : Nat) (p : Packet) : (pktSet s k p).tiers = s.tiers := rfl
@[simp] theorem pktSet_facet (k : Nat) (p : Packet) : (pktSet s k p).facet = s.facet := rfl
@[simp] theorem pktSet_span (k : Nat) (p : Packet) : (pktSet s k p).span = s.span := rfl
@[simp] theorem pktSet_obs (k : Nat) (p : Packet) : (pktSet s k p).obs = s.obs := rfl
@[simp] theorem pktSet_compass (k : Nat) (p : Packet) : (pktSet s k p).compass = s.compass := rfl
@[simp] theorem pktSet_crown (k : Nat) (p : Packet) : (pktSet s k p).crown = s.crown := rfl
@[simp] theorem pktSet_flash (k : Nat) (p : Packet) : (pktSet s k p).flash = s.flash := rfl
@[simp] theorem pktSet_trust (k : Nat) (p : Packet) : (pktSet s k p).trust = s.trust := rfl
@[simp] theorem pktSet_pwr (k : Nat) (p : Packet) : (pktSet s k p).pwr = s.pwr := rfl
@[simp] theorem pktSet_sent (k : Nat) (p : Packet) : (pktSet s k p).sent = s.sent := rfl
@[simp] theorem pktSet_pending (k : Nat) (p : Packet) : (pktSet s k p).pending = s.pending := rfl

/-! #### rxSet -/

@[simp] theorem rxSet_clock (m : Nat) (r : Option RxFrame) : (rxSet s m r).clock = s.clock := rfl
@[simp] theorem rxSet_idleClock (m : Nat) (r : Option RxFrame) : (rxSet s m r).idleClock = s.idleClock := rfl
@[simp] theorem rxSet_freeCount (m : Nat) (r : Option RxFrame) : (rxSet s m r).freeCount = s.freeCount := rfl
@[simp] theorem rxSet_regs (m : Nat) (r : Option RxFrame) : (rxSet s m r).regs = s.regs := rfl
@[simp] theorem rxSet_mem (m : Nat) (r : Option RxFrame) : (rxSet s m r).mem = s.mem := rfl
@[simp] theorem rxSet_memPoison (m : Nat) (r : Option RxFrame) : (rxSet s m r).memPoison = s.memPoison := rfl
@[simp] theorem rxSet_upsets (m : Nat) (r : Option RxFrame) : (rxSet s m r).upsets = s.upsets := rfl
@[simp] theorem rxSet_scrubs (m : Nat) (r : Option RxFrame) : (rxSet s m r).scrubs = s.scrubs := rfl
@[simp] theorem rxSet_gct (m : Nat) (r : Option RxFrame) : (rxSet s m r).gct = s.gct := rfl
@[simp] theorem rxSet_heart (m : Nat) (r : Option RxFrame) : (rxSet s m r).heart = s.heart := rfl
@[simp] theorem rxSet_canopy (m : Nat) (r : Option RxFrame) : (rxSet s m r).canopy = s.canopy := rfl
@[simp] theorem rxSet_flow (m : Nat) (r : Option RxFrame) : (rxSet s m r).flow = s.flow := rfl
@[simp] theorem rxSet_grove (m : Nat) (r : Option RxFrame) : (rxSet s m r).grove = s.grove := rfl
@[simp] theorem rxSet_tiers (m : Nat) (r : Option RxFrame) : (rxSet s m r).tiers = s.tiers := rfl
@[simp] theorem rxSet_facet (m : Nat) (r : Option RxFrame) : (rxSet s m r).facet = s.facet := rfl
@[simp] theorem rxSet_span (m : Nat) (r : Option RxFrame) : (rxSet s m r).span = s.span := rfl
@[simp] theorem rxSet_obs (m : Nat) (r : Option RxFrame) : (rxSet s m r).obs = s.obs := rfl
@[simp] theorem rxSet_compass (m : Nat) (r : Option RxFrame) : (rxSet s m r).compass = s.compass := rfl
@[simp] theorem rxSet_crown (m : Nat) (r : Option RxFrame) : (rxSet s m r).crown = s.crown := rfl
@[simp] theorem rxSet_flash (m : Nat) (r : Option RxFrame) : (rxSet s m r).flash = s.flash := rfl
@[simp] theorem rxSet_trust (m : Nat) (r : Option RxFrame) : (rxSet s m r).trust = s.trust := rfl
@[simp] theorem rxSet_pwr (m : Nat) (r : Option RxFrame) : (rxSet s m r).pwr = s.pwr := rfl
@[simp] theorem rxSet_sent (m : Nat) (r : Option RxFrame) : (rxSet s m r).sent = s.sent := rfl
@[simp] theorem rxSet_pending (m : Nat) (r : Option RxFrame) : (rxSet s m r).pending = s.pending := rfl

/-! #### setPortHeld -/

@[simp] theorem setPortHeld_clock (m n : Nat) : (setPortHeld s m n).clock = s.clock := rfl
@[simp] theorem setPortHeld_idleClock (m n : Nat) : (setPortHeld s m n).idleClock = s.idleClock := rfl
@[simp] theorem setPortHeld_freeCount (m n : Nat) : (setPortHeld s m n).freeCount = s.freeCount := rfl
@[simp] theorem setPortHeld_regs (m n : Nat) : (setPortHeld s m n).regs = s.regs := rfl
@[simp] theorem setPortHeld_mem (m n : Nat) : (setPortHeld s m n).mem = s.mem := rfl
@[simp] theorem setPortHeld_memPoison (m n : Nat) : (setPortHeld s m n).memPoison = s.memPoison := rfl
@[simp] theorem setPortHeld_upsets (m n : Nat) : (setPortHeld s m n).upsets = s.upsets := rfl
@[simp] theorem setPortHeld_scrubs (m n : Nat) : (setPortHeld s m n).scrubs = s.scrubs := rfl
@[simp] theorem setPortHeld_gct (m n : Nat) : (setPortHeld s m n).gct = s.gct := rfl
@[simp] theorem setPortHeld_heart (m n : Nat) : (setPortHeld s m n).heart = s.heart := rfl
@[simp] theorem setPortHeld_canopy (m n : Nat) : (setPortHeld s m n).canopy = s.canopy := rfl
@[simp] theorem setPortHeld_flow (m n : Nat) : (setPortHeld s m n).flow = s.flow := rfl
@[simp] theorem setPortHeld_grove (m n : Nat) : (setPortHeld s m n).grove = s.grove := rfl
@[simp] theorem setPortHeld_tiers (m n : Nat) : (setPortHeld s m n).tiers = s.tiers := rfl
@[simp] theorem setPortHeld_facet (m n : Nat) : (setPortHeld s m n).facet = s.facet := rfl
@[simp] theorem setPortHeld_span (m n : Nat) : (setPortHeld s m n).span = s.span := rfl
@[simp] theorem setPortHeld_obs (m n : Nat) : (setPortHeld s m n).obs = s.obs := rfl
@[simp] theorem setPortHeld_compass (m n : Nat) : (setPortHeld s m n).compass = s.compass := rfl
@[simp] theorem setPortHeld_crown (m n : Nat) : (setPortHeld s m n).crown = s.crown := rfl
@[simp] theorem setPortHeld_flash (m n : Nat) : (setPortHeld s m n).flash = s.flash := rfl
@[simp] theorem setPortHeld_trust (m n : Nat) : (setPortHeld s m n).trust = s.trust := rfl
@[simp] theorem setPortHeld_pwr (m n : Nat) : (setPortHeld s m n).pwr = s.pwr := rfl
@[simp] theorem setPortHeld_sent (m n : Nat) : (setPortHeld s m n).sent = s.sent := rfl
@[simp] theorem setPortHeld_pending (m n : Nat) : (setPortHeld s m n).pending = s.pending := rfl

/-! #### sessionMod -/

@[simp] theorem sessionMod_clock (i : Nat) (f : Session → Session) : (sessionMod s i f).clock = s.clock := rfl
@[simp] theorem sessionMod_idleClock (i : Nat) (f : Session → Session) : (sessionMod s i f).idleClock = s.idleClock := rfl
@[simp] theorem sessionMod_freeCount (i : Nat) (f : Session → Session) : (sessionMod s i f).freeCount = s.freeCount := rfl
@[simp] theorem sessionMod_regs (i : Nat) (f : Session → Session) : (sessionMod s i f).regs = s.regs := rfl
@[simp] theorem sessionMod_mem (i : Nat) (f : Session → Session) : (sessionMod s i f).mem = s.mem := rfl
@[simp] theorem sessionMod_memPoison (i : Nat) (f : Session → Session) : (sessionMod s i f).memPoison = s.memPoison := rfl
@[simp] theorem sessionMod_upsets (i : Nat) (f : Session → Session) : (sessionMod s i f).upsets = s.upsets := rfl
@[simp] theorem sessionMod_scrubs (i : Nat) (f : Session → Session) : (sessionMod s i f).scrubs = s.scrubs := rfl
@[simp] theorem sessionMod_ports (i : Nat) (f : Session → Session) : (sessionMod s i f).ports = s.ports := rfl
@[simp] theorem sessionMod_heart (i : Nat) (f : Session → Session) : (sessionMod s i f).heart = s.heart := rfl
@[simp] theorem sessionMod_canopy (i : Nat) (f : Session → Session) : (sessionMod s i f).canopy = s.canopy := rfl
@[simp] theorem sessionMod_flow (i : Nat) (f : Session → Session) : (sessionMod s i f).flow = s.flow := rfl
@[simp] theorem sessionMod_grove (i : Nat) (f : Session → Session) : (sessionMod s i f).grove = s.grove := rfl
@[simp] theorem sessionMod_tiers (i : Nat) (f : Session → Session) : (sessionMod s i f).tiers = s.tiers := rfl
@[simp] theorem sessionMod_facet (i : Nat) (f : Session → Session) : (sessionMod s i f).facet = s.facet := rfl
@[simp] theorem sessionMod_span (i : Nat) (f : Session → Session) : (sessionMod s i f).span = s.span := rfl
@[simp] theorem sessionMod_obs (i : Nat) (f : Session → Session) : (sessionMod s i f).obs = s.obs := rfl
@[simp] theorem sessionMod_compass (i : Nat) (f : Session → Session) : (sessionMod s i f).compass = s.compass := rfl
@[simp] theorem sessionMod_crown (i : Nat) (f : Session → Session) : (sessionMod s i f).crown = s.crown := rfl
@[simp] theorem sessionMod_flash (i : Nat) (f : Session → Session) : (sessionMod s i f).flash = s.flash := rfl
@[simp] theorem sessionMod_trust (i : Nat) (f : Session → Session) : (sessionMod s i f).trust = s.trust := rfl
@[simp] theorem sessionMod_pwr (i : Nat) (f : Session → Session) : (sessionMod s i f).pwr = s.pwr := rfl
@[simp] theorem sessionMod_sent (i : Nat) (f : Session → Session) : (sessionMod s i f).sent = s.sent := rfl
@[simp] theorem sessionMod_pending (i : Nat) (f : Session → Session) : (sessionMod s i f).pending = s.pending := rfl

/-! #### setExec -/

@[simp] theorem setExec_clock (i : Nat) (x : Session) (f : CmdFrame) (w : ExecWait) : (setExec s i x f w).clock = s.clock := rfl
@[simp] theorem setExec_idleClock (i : Nat) (x : Session) (f : CmdFrame) (w : ExecWait) : (setExec s i x f w).idleClock = s.idleClock := rfl
@[simp] theorem setExec_freeCount (i : Nat) (x : Session) (f : CmdFrame) (w : ExecWait) : (setExec s i x f w).freeCount = s.freeCount := rfl
@[simp] theorem setExec_regs (i : Nat) (x : Session) (f : CmdFrame) (w : ExecWait) : (setExec s i x f w).regs = s.regs := rfl
@[simp] theorem setExec_mem (i : Nat) (x : Session) (f : CmdFrame) (w : ExecWait) : (setExec s i x f w).mem = s.mem := rfl
@[simp] theorem setExec_memPoison (i : Nat) (x : Session) (f : CmdFrame) (w : ExecWait) : (setExec s i x f w).memPoison = s.memPoison := rfl
@[simp] theorem setExec_upsets (i : Nat) (x : Session) (f : CmdFrame) (w : ExecWait) : (setExec s i x f w).upsets = s.upsets := rfl
@[simp] theorem setExec_scrubs (i : Nat) (x : Session) (f : CmdFrame) (w : ExecWait) : (setExec s i x f w).scrubs = s.scrubs := rfl
@[simp] theorem setExec_ports (i : Nat) (x : Session) (f : CmdFrame) (w : ExecWait) : (setExec s i x f w).ports = s.ports := rfl
@[simp] theorem setExec_heart (i : Nat) (x : Session) (f : CmdFrame) (w : ExecWait) : (setExec s i x f w).heart = s.heart := rfl
@[simp] theorem setExec_canopy (i : Nat) (x : Session) (f : CmdFrame) (w : ExecWait) : (setExec s i x f w).canopy = s.canopy := rfl
@[simp] theorem setExec_flow (i : Nat) (x : Session) (f : CmdFrame) (w : ExecWait) : (setExec s i x f w).flow = s.flow := rfl
@[simp] theorem setExec_grove (i : Nat) (x : Session) (f : CmdFrame) (w : ExecWait) : (setExec s i x f w).grove = s.grove := rfl
@[simp] theorem setExec_tiers (i : Nat) (x : Session) (f : CmdFrame) (w : ExecWait) : (setExec s i x f w).tiers = s.tiers := rfl
@[simp] theorem setExec_facet (i : Nat) (x : Session) (f : CmdFrame) (w : ExecWait) : (setExec s i x f w).facet = s.facet := rfl
@[simp] theorem setExec_span (i : Nat) (x : Session) (f : CmdFrame) (w : ExecWait) : (setExec s i x f w).span = s.span := rfl
@[simp] theorem setExec_obs (i : Nat) (x : Session) (f : CmdFrame) (w : ExecWait) : (setExec s i x f w).obs = s.obs := rfl
@[simp] theorem setExec_compass (i : Nat) (x : Session) (f : CmdFrame) (w : ExecWait) : (setExec s i x f w).compass = s.compass := rfl
@[simp] theorem setExec_crown (i : Nat) (x : Session) (f : CmdFrame) (w : ExecWait) : (setExec s i x f w).crown = s.crown := rfl
@[simp] theorem setExec_flash (i : Nat) (x : Session) (f : CmdFrame) (w : ExecWait) : (setExec s i x f w).flash = s.flash := rfl
@[simp] theorem setExec_trust (i : Nat) (x : Session) (f : CmdFrame) (w : ExecWait) : (setExec s i x f w).trust = s.trust := rfl
@[simp] theorem setExec_pwr (i : Nat) (x : Session) (f : CmdFrame) (w : ExecWait) : (setExec s i x f w).pwr = s.pwr := rfl
@[simp] theorem setExec_sent (i : Nat) (x : Session) (f : CmdFrame) (w : ExecWait) : (setExec s i x f w).sent = s.sent := rfl
@[simp] theorem setExec_pending (i : Nat) (x : Session) (f : CmdFrame) (w : ExecWait) : (setExec s i x f w).pending = s.pending := rfl

/-! #### rewait -/

@[simp] theorem rewait_clock (i : Nat) (w : ExecWait) : (rewait s i w).clock = s.clock := rfl
@[simp] theorem rewait_idleClock (i : Nat) (w : ExecWait) : (rewait s i w).idleClock = s.idleClock := rfl
@[simp] theorem rewait_freeCount (i : Nat) (w : ExecWait) : (rewait s i w).freeCount = s.freeCount := rfl
@[simp] theorem rewait_regs (i : Nat) (w : ExecWait) : (rewait s i w).regs = s.regs := rfl
@[simp] theorem rewait_mem (i : Nat) (w : ExecWait) : (rewait s i w).mem = s.mem := rfl
@[simp] theorem rewait_memPoison (i : Nat) (w : ExecWait) : (rewait s i w).memPoison = s.memPoison := rfl
@[simp] theorem rewait_upsets (i : Nat) (w : ExecWait) : (rewait s i w).upsets = s.upsets := rfl
@[simp] theorem rewait_scrubs (i : Nat) (w : ExecWait) : (rewait s i w).scrubs = s.scrubs := rfl
@[simp] theorem rewait_ports (i : Nat) (w : ExecWait) : (rewait s i w).ports = s.ports := rfl
@[simp] theorem rewait_heart (i : Nat) (w : ExecWait) : (rewait s i w).heart = s.heart := rfl
@[simp] theorem rewait_canopy (i : Nat) (w : ExecWait) : (rewait s i w).canopy = s.canopy := rfl
@[simp] theorem rewait_flow (i : Nat) (w : ExecWait) : (rewait s i w).flow = s.flow := rfl
@[simp] theorem rewait_grove (i : Nat) (w : ExecWait) : (rewait s i w).grove = s.grove := rfl
@[simp] theorem rewait_tiers (i : Nat) (w : ExecWait) : (rewait s i w).tiers = s.tiers := rfl
@[simp] theorem rewait_facet (i : Nat) (w : ExecWait) : (rewait s i w).facet = s.facet := rfl
@[simp] theorem rewait_span (i : Nat) (w : ExecWait) : (rewait s i w).span = s.span := rfl
@[simp] theorem rewait_obs (i : Nat) (w : ExecWait) : (rewait s i w).obs = s.obs := rfl
@[simp] theorem rewait_compass (i : Nat) (w : ExecWait) : (rewait s i w).compass = s.compass := rfl
@[simp] theorem rewait_crown (i : Nat) (w : ExecWait) : (rewait s i w).crown = s.crown := rfl
@[simp] theorem rewait_flash (i : Nat) (w : ExecWait) : (rewait s i w).flash = s.flash := rfl
@[simp] theorem rewait_trust (i : Nat) (w : ExecWait) : (rewait s i w).trust = s.trust := rfl
@[simp] theorem rewait_pwr (i : Nat) (w : ExecWait) : (rewait s i w).pwr = s.pwr := rfl
@[simp] theorem rewait_sent (i : Nat) (w : ExecWait) : (rewait s i w).sent = s.sent := rfl
@[simp] theorem rewait_pending (i : Nat) (w : ExecWait) : (rewait s i w).pending = s.pending := rfl

/-! #### answerNow -/

@[simp] theorem answerNow_clock (f : CmdFrame) (key : Bytes) (role slot : Nat) (w : ExecWait) : (answerNow s f key role slot w).clock = s.clock := rfl
@[simp] theorem answerNow_idleClock (f : CmdFrame) (key : Bytes) (role slot : Nat) (w : ExecWait) : (answerNow s f key role slot w).idleClock = s.idleClock := rfl
@[simp] theorem answerNow_freeCount (f : CmdFrame) (key : Bytes) (role slot : Nat) (w : ExecWait) : (answerNow s f key role slot w).freeCount = s.freeCount := rfl
@[simp] theorem answerNow_regs (f : CmdFrame) (key : Bytes) (role slot : Nat) (w : ExecWait) : (answerNow s f key role slot w).regs = s.regs := rfl
@[simp] theorem answerNow_mem (f : CmdFrame) (key : Bytes) (role slot : Nat) (w : ExecWait) : (answerNow s f key role slot w).mem = s.mem := rfl
@[simp] theorem answerNow_memPoison (f : CmdFrame) (key : Bytes) (role slot : Nat) (w : ExecWait) : (answerNow s f key role slot w).memPoison = s.memPoison := rfl
@[simp] theorem answerNow_upsets (f : CmdFrame) (key : Bytes) (role slot : Nat) (w : ExecWait) : (answerNow s f key role slot w).upsets = s.upsets := rfl
@[simp] theorem answerNow_scrubs (f : CmdFrame) (key : Bytes) (role slot : Nat) (w : ExecWait) : (answerNow s f key role slot w).scrubs = s.scrubs := rfl
@[simp] theorem answerNow_ports (f : CmdFrame) (key : Bytes) (role slot : Nat) (w : ExecWait) : (answerNow s f key role slot w).ports = s.ports := rfl
@[simp] theorem answerNow_heart (f : CmdFrame) (key : Bytes) (role slot : Nat) (w : ExecWait) : (answerNow s f key role slot w).heart = s.heart := rfl
@[simp] theorem answerNow_canopy (f : CmdFrame) (key : Bytes) (role slot : Nat) (w : ExecWait) : (answerNow s f key role slot w).canopy = s.canopy := rfl
@[simp] theorem answerNow_flow (f : CmdFrame) (key : Bytes) (role slot : Nat) (w : ExecWait) : (answerNow s f key role slot w).flow = s.flow := rfl
@[simp] theorem answerNow_grove (f : CmdFrame) (key : Bytes) (role slot : Nat) (w : ExecWait) : (answerNow s f key role slot w).grove = s.grove := rfl
@[simp] theorem answerNow_tiers (f : CmdFrame) (key : Bytes) (role slot : Nat) (w : ExecWait) : (answerNow s f key role slot w).tiers = s.tiers := rfl
@[simp] theorem answerNow_facet (f : CmdFrame) (key : Bytes) (role slot : Nat) (w : ExecWait) : (answerNow s f key role slot w).facet = s.facet := rfl
@[simp] theorem answerNow_span (f : CmdFrame) (key : Bytes) (role slot : Nat) (w : ExecWait) : (answerNow s f key role slot w).span = s.span := rfl
@[simp] theorem answerNow_obs (f : CmdFrame) (key : Bytes) (role slot : Nat) (w : ExecWait) : (answerNow s f key role slot w).obs = s.obs := rfl
@[simp] theorem answerNow_compass (f : CmdFrame) (key : Bytes) (role slot : Nat) (w : ExecWait) : (answerNow s f key role slot w).compass = s.compass := rfl
@[simp] theorem answerNow_crown (f : CmdFrame) (key : Bytes) (role slot : Nat) (w : ExecWait) : (answerNow s f key role slot w).crown = s.crown := rfl
@[simp] theorem answerNow_flash (f : CmdFrame) (key : Bytes) (role slot : Nat) (w : ExecWait) : (answerNow s f key role slot w).flash = s.flash := rfl
@[simp] theorem answerNow_trust (f : CmdFrame) (key : Bytes) (role slot : Nat) (w : ExecWait) : (answerNow s f key role slot w).trust = s.trust := rfl
@[simp] theorem answerNow_pwr (f : CmdFrame) (key : Bytes) (role slot : Nat) (w : ExecWait) : (answerNow s f key role slot w).pwr = s.pwr := rfl
@[simp] theorem answerNow_sent (f : CmdFrame) (key : Bytes) (role slot : Nat) (w : ExecWait) : (answerNow s f key role slot w).sent = s.sent := rfl
@[simp] theorem answerNow_pending (f : CmdFrame) (key : Bytes) (role slot : Nat) (w : ExecWait) : (answerNow s f key role slot w).pending = s.pending := rfl

/-! #### modesMod -/

@[simp] theorem modesMod_clock (f : Modes → Modes) : (modesMod s f).clock = s.clock := rfl
@[simp] theorem modesMod_idleClock (f : Modes → Modes) : (modesMod s f).idleClock = s.idleClock := rfl
@[simp] theorem modesMod_freeCount (f : Modes → Modes) : (modesMod s f).freeCount = s.freeCount := rfl
@[simp] theorem modesMod_regs (f : Modes → Modes) : (modesMod s f).regs = s.regs := rfl
@[simp] theorem modesMod_mem (f : Modes → Modes) : (modesMod s f).mem = s.mem := rfl
@[simp] theorem modesMod_memPoison (f : Modes → Modes) : (modesMod s f).memPoison = s.memPoison := rfl
@[simp] theorem modesMod_upsets (f : Modes → Modes) : (modesMod s f).upsets = s.upsets := rfl
@[simp] theorem modesMod_scrubs (f : Modes → Modes) : (modesMod s f).scrubs = s.scrubs := rfl
@[simp] theorem modesMod_ports (f : Modes → Modes) : (modesMod s f).ports = s.ports := rfl
@[simp] theorem modesMod_heart (f : Modes → Modes) : (modesMod s f).heart = s.heart := rfl
@[simp] theorem modesMod_canopy (f : Modes → Modes) : (modesMod s f).canopy = s.canopy := rfl
@[simp] theorem modesMod_flow (f : Modes → Modes) : (modesMod s f).flow = s.flow := rfl
@[simp] theorem modesMod_grove (f : Modes → Modes) : (modesMod s f).grove = s.grove := rfl
@[simp] theorem modesMod_tiers (f : Modes → Modes) : (modesMod s f).tiers = s.tiers := rfl
@[simp] theorem modesMod_facet (f : Modes → Modes) : (modesMod s f).facet = s.facet := rfl
@[simp] theorem modesMod_span (f : Modes → Modes) : (modesMod s f).span = s.span := rfl
@[simp] theorem modesMod_obs (f : Modes → Modes) : (modesMod s f).obs = s.obs := rfl
@[simp] theorem modesMod_compass (f : Modes → Modes) : (modesMod s f).compass = s.compass := rfl
@[simp] theorem modesMod_crown (f : Modes → Modes) : (modesMod s f).crown = s.crown := rfl
@[simp] theorem modesMod_flash (f : Modes → Modes) : (modesMod s f).flash = s.flash := rfl
@[simp] theorem modesMod_trust (f : Modes → Modes) : (modesMod s f).trust = s.trust := rfl
@[simp] theorem modesMod_pwr (f : Modes → Modes) : (modesMod s f).pwr = s.pwr := rfl
@[simp] theorem modesMod_sent (f : Modes → Modes) : (modesMod s f).sent = s.sent := rfl
@[simp] theorem modesMod_pending (f : Modes → Modes) : (modesMod s f).pending = s.pending := rfl

/-! #### coreSet -/

@[simp] theorem coreSet_clock (k : Nat) (c : CoreSt) : (coreSet s k c).clock = s.clock := rfl
@[simp] theorem coreSet_idleClock (k : Nat) (c : CoreSt) : (coreSet s k c).idleClock = s.idleClock := rfl
@[simp] theorem coreSet_freeCount (k : Nat) (c : CoreSt) : (coreSet s k c).freeCount = s.freeCount := rfl
@[simp] theorem coreSet_regs (k : Nat) (c : CoreSt) : (coreSet s k c).regs = s.regs := rfl
@[simp] theorem coreSet_mem (k : Nat) (c : CoreSt) : (coreSet s k c).mem = s.mem := rfl
@[simp] theorem coreSet_memPoison (k : Nat) (c : CoreSt) : (coreSet s k c).memPoison = s.memPoison := rfl
@[simp] theorem coreSet_upsets (k : Nat) (c : CoreSt) : (coreSet s k c).upsets = s.upsets := rfl
@[simp] theorem coreSet_scrubs (k : Nat) (c : CoreSt) : (coreSet s k c).scrubs = s.scrubs := rfl
@[simp] theorem coreSet_gct (k : Nat) (c : CoreSt) : (coreSet s k c).gct = s.gct := rfl
@[simp] theorem coreSet_ports (k : Nat) (c : CoreSt) : (coreSet s k c).ports = s.ports := rfl
@[simp] theorem coreSet_heart (k : Nat) (c : CoreSt) : (coreSet s k c).heart = s.heart := rfl
@[simp] theorem coreSet_canopy (k : Nat) (c : CoreSt) : (coreSet s k c).canopy = s.canopy := rfl
@[simp] theorem coreSet_flow (k : Nat) (c : CoreSt) : (coreSet s k c).flow = s.flow := rfl
@[simp] theorem coreSet_grove (k : Nat) (c : CoreSt) : (coreSet s k c).grove = s.grove := rfl
@[simp] theorem coreSet_tiers (k : Nat) (c : CoreSt) : (coreSet s k c).tiers = s.tiers := rfl
@[simp] theorem coreSet_span (k : Nat) (c : CoreSt) : (coreSet s k c).span = s.span := rfl
@[simp] theorem coreSet_obs (k : Nat) (c : CoreSt) : (coreSet s k c).obs = s.obs := rfl
@[simp] theorem coreSet_compass (k : Nat) (c : CoreSt) : (coreSet s k c).compass = s.compass := rfl
@[simp] theorem coreSet_crown (k : Nat) (c : CoreSt) : (coreSet s k c).crown = s.crown := rfl
@[simp] theorem coreSet_flash (k : Nat) (c : CoreSt) : (coreSet s k c).flash = s.flash := rfl
@[simp] theorem coreSet_trust (k : Nat) (c : CoreSt) : (coreSet s k c).trust = s.trust := rfl
@[simp] theorem coreSet_pwr (k : Nat) (c : CoreSt) : (coreSet s k c).pwr = s.pwr := rfl
@[simp] theorem coreSet_sent (k : Nat) (c : CoreSt) : (coreSet s k c).sent = s.sent := rfl
@[simp] theorem coreSet_pending (k : Nat) (c : CoreSt) : (coreSet s k c).pending = s.pending := rfl

/-! #### coreMod -/

@[simp] theorem coreMod_clock (k : Nat) (f : CoreSt → CoreSt) : (coreMod s k f).clock = s.clock := rfl
@[simp] theorem coreMod_idleClock (k : Nat) (f : CoreSt → CoreSt) : (coreMod s k f).idleClock = s.idleClock := rfl
@[simp] theorem coreMod_freeCount (k : Nat) (f : CoreSt → CoreSt) : (coreMod s k f).freeCount = s.freeCount := rfl
@[simp] theorem coreMod_regs (k : Nat) (f : CoreSt → CoreSt) : (coreMod s k f).regs = s.regs := rfl
@[simp] theorem coreMod_mem (k : Nat) (f : CoreSt → CoreSt) : (coreMod s k f).mem = s.mem := rfl
@[simp] theorem coreMod_memPoison (k : Nat) (f : CoreSt → CoreSt) : (coreMod s k f).memPoison = s.memPoison := rfl
@[simp] theorem coreMod_upsets (k : Nat) (f : CoreSt → CoreSt) : (coreMod s k f).upsets = s.upsets := rfl
@[simp] theorem coreMod_scrubs (k : Nat) (f : CoreSt → CoreSt) : (coreMod s k f).scrubs = s.scrubs := rfl
@[simp] theorem coreMod_gct (k : Nat) (f : CoreSt → CoreSt) : (coreMod s k f).gct = s.gct := rfl
@[simp] theorem coreMod_ports (k : Nat) (f : CoreSt → CoreSt) : (coreMod s k f).ports = s.ports := rfl
@[simp] theorem coreMod_heart (k : Nat) (f : CoreSt → CoreSt) : (coreMod s k f).heart = s.heart := rfl
@[simp] theorem coreMod_canopy (k : Nat) (f : CoreSt → CoreSt) : (coreMod s k f).canopy = s.canopy := rfl
@[simp] theorem coreMod_flow (k : Nat) (f : CoreSt → CoreSt) : (coreMod s k f).flow = s.flow := rfl
@[simp] theorem coreMod_grove (k : Nat) (f : CoreSt → CoreSt) : (coreMod s k f).grove = s.grove := rfl
@[simp] theorem coreMod_tiers (k : Nat) (f : CoreSt → CoreSt) : (coreMod s k f).tiers = s.tiers := rfl
@[simp] theorem coreMod_span (k : Nat) (f : CoreSt → CoreSt) : (coreMod s k f).span = s.span := rfl
@[simp] theorem coreMod_obs (k : Nat) (f : CoreSt → CoreSt) : (coreMod s k f).obs = s.obs := rfl
@[simp] theorem coreMod_compass (k : Nat) (f : CoreSt → CoreSt) : (coreMod s k f).compass = s.compass := rfl
@[simp] theorem coreMod_crown (k : Nat) (f : CoreSt → CoreSt) : (coreMod s k f).crown = s.crown := rfl
@[simp] theorem coreMod_flash (k : Nat) (f : CoreSt → CoreSt) : (coreMod s k f).flash = s.flash := rfl
@[simp] theorem coreMod_trust (k : Nat) (f : CoreSt → CoreSt) : (coreMod s k f).trust = s.trust := rfl
@[simp] theorem coreMod_pwr (k : Nat) (f : CoreSt → CoreSt) : (coreMod s k f).pwr = s.pwr := rfl
@[simp] theorem coreMod_sent (k : Nat) (f : CoreSt → CoreSt) : (coreMod s k f).sent = s.sent := rfl
@[simp] theorem coreMod_pending (k : Nat) (f : CoreSt → CoreSt) : (coreMod s k f).pending = s.pending := rfl

/-! #### hcSet -/

@[simp] theorem hcSet_clock (k h : Nat) (x : Option Hc) : (hcSet s k h x).clock = s.clock := rfl
@[simp] theorem hcSet_idleClock (k h : Nat) (x : Option Hc) : (hcSet s k h x).idleClock = s.idleClock := rfl
@[simp] theorem hcSet_freeCount (k h : Nat) (x : Option Hc) : (hcSet s k h x).freeCount = s.freeCount := rfl
@[simp] theorem hcSet_regs (k h : Nat) (x : Option Hc) : (hcSet s k h x).regs = s.regs := rfl
@[simp] theorem hcSet_mem (k h : Nat) (x : Option Hc) : (hcSet s k h x).mem = s.mem := rfl
@[simp] theorem hcSet_memPoison (k h : Nat) (x : Option Hc) : (hcSet s k h x).memPoison = s.memPoison := rfl
@[simp] theorem hcSet_upsets (k h : Nat) (x : Option Hc) : (hcSet s k h x).upsets = s.upsets := rfl
@[simp] theorem hcSet_scrubs (k h : Nat) (x : Option Hc) : (hcSet s k h x).scrubs = s.scrubs := rfl
@[simp] theorem hcSet_gct (k h : Nat) (x : Option Hc) : (hcSet s k h x).gct = s.gct := rfl
@[simp] theorem hcSet_ports (k h : Nat) (x : Option Hc) : (hcSet s k h x).ports = s.ports := rfl
@[simp] theorem hcSet_heart (k h : Nat) (x : Option Hc) : (hcSet s k h x).heart = s.heart := rfl
@[simp] theorem hcSet_canopy (k h : Nat) (x : Option Hc) : (hcSet s k h x).canopy = s.canopy := rfl
@[simp] theorem hcSet_flow (k h : Nat) (x : Option Hc) : (hcSet s k h x).flow = s.flow := rfl
@[simp] theorem hcSet_grove (k h : Nat) (x : Option Hc) : (hcSet s k h x).grove = s.grove := rfl
@[simp] theorem hcSet_tiers (k h : Nat) (x : Option Hc) : (hcSet s k h x).tiers = s.tiers := rfl
@[simp] theorem hcSet_span (k h : Nat) (x : Option Hc) : (hcSet s k h x).span = s.span := rfl
@[simp] theorem hcSet_obs (k h : Nat) (x : Option Hc) : (hcSet s k h x).obs = s.obs := rfl
@[simp] theorem hcSet_compass (k h : Nat) (x : Option Hc) : (hcSet s k h x).compass = s.compass := rfl
@[simp] theorem hcSet_crown (k h : Nat) (x : Option Hc) : (hcSet s k h x).crown = s.crown := rfl
@[simp] theorem hcSet_flash (k h : Nat) (x : Option Hc) : (hcSet s k h x).flash = s.flash := rfl
@[simp] theorem hcSet_trust (k h : Nat) (x : Option Hc) : (hcSet s k h x).trust = s.trust := rfl
@[simp] theorem hcSet_pwr (k h : Nat) (x : Option Hc) : (hcSet s k h x).pwr = s.pwr := rfl
@[simp] theorem hcSet_sent (k h : Nat) (x : Option Hc) : (hcSet s k h x).sent = s.sent := rfl
@[simp] theorem hcSet_pending (k h : Nat) (x : Option Hc) : (hcSet s k h x).pending = s.pending := rfl

/-! #### hcMod -/

@[simp] theorem hcMod_clock (k h : Nat) (f : Hc → Hc) : (hcMod s k h f).clock = s.clock := by unfold hcMod; split <;> rfl
@[simp] theorem hcMod_idleClock (k h : Nat) (f : Hc → Hc) : (hcMod s k h f).idleClock = s.idleClock := by unfold hcMod; split <;> rfl
@[simp] theorem hcMod_freeCount (k h : Nat) (f : Hc → Hc) : (hcMod s k h f).freeCount = s.freeCount := by unfold hcMod; split <;> rfl
@[simp] theorem hcMod_regs (k h : Nat) (f : Hc → Hc) : (hcMod s k h f).regs = s.regs := by unfold hcMod; split <;> rfl
@[simp] theorem hcMod_mem (k h : Nat) (f : Hc → Hc) : (hcMod s k h f).mem = s.mem := by unfold hcMod; split <;> rfl
@[simp] theorem hcMod_memPoison (k h : Nat) (f : Hc → Hc) : (hcMod s k h f).memPoison = s.memPoison := by unfold hcMod; split <;> rfl
@[simp] theorem hcMod_upsets (k h : Nat) (f : Hc → Hc) : (hcMod s k h f).upsets = s.upsets := by unfold hcMod; split <;> rfl
@[simp] theorem hcMod_scrubs (k h : Nat) (f : Hc → Hc) : (hcMod s k h f).scrubs = s.scrubs := by unfold hcMod; split <;> rfl
@[simp] theorem hcMod_gct (k h : Nat) (f : Hc → Hc) : (hcMod s k h f).gct = s.gct := by unfold hcMod; split <;> rfl
@[simp] theorem hcMod_ports (k h : Nat) (f : Hc → Hc) : (hcMod s k h f).ports = s.ports := by unfold hcMod; split <;> rfl
@[simp] theorem hcMod_heart (k h : Nat) (f : Hc → Hc) : (hcMod s k h f).heart = s.heart := by unfold hcMod; split <;> rfl
@[simp] theorem hcMod_canopy (k h : Nat) (f : Hc → Hc) : (hcMod s k h f).canopy = s.canopy := by unfold hcMod; split <;> rfl
@[simp] theorem hcMod_flow (k h : Nat) (f : Hc → Hc) : (hcMod s k h f).flow = s.flow := by unfold hcMod; split <;> rfl
@[simp] theorem hcMod_grove (k h : Nat) (f : Hc → Hc) : (hcMod s k h f).grove = s.grove := by unfold hcMod; split <;> rfl
@[simp] theorem hcMod_tiers (k h : Nat) (f : Hc → Hc) : (hcMod s k h f).tiers = s.tiers := by unfold hcMod; split <;> rfl
@[simp] theorem hcMod_span (k h : Nat) (f : Hc → Hc) : (hcMod s k h f).span = s.span := by unfold hcMod; split <;> rfl
@[simp] theorem hcMod_obs (k h : Nat) (f : Hc → Hc) : (hcMod s k h f).obs = s.obs := by unfold hcMod; split <;> rfl
@[simp] theorem hcMod_compass (k h : Nat) (f : Hc → Hc) : (hcMod s k h f).compass = s.compass := by unfold hcMod; split <;> rfl
@[simp] theorem hcMod_crown (k h : Nat) (f : Hc → Hc) : (hcMod s k h f).crown = s.crown := by unfold hcMod; split <;> rfl
@[simp] theorem hcMod_flash (k h : Nat) (f : Hc → Hc) : (hcMod s k h f).flash = s.flash := by unfold hcMod; split <;> rfl
@[simp] theorem hcMod_trust (k h : Nat) (f : Hc → Hc) : (hcMod s k h f).trust = s.trust := by unfold hcMod; split <;> rfl
@[simp] theorem hcMod_pwr (k h : Nat) (f : Hc → Hc) : (hcMod s k h f).pwr = s.pwr := by unfold hcMod; split <;> rfl
@[simp] theorem hcMod_sent (k h : Nat) (f : Hc → Hc) : (hcMod s k h f).sent = s.sent := by unfold hcMod; split <;> rfl
@[simp] theorem hcMod_pending (k h : Nat) (f : Hc → Hc) : (hcMod s k h f).pending = s.pending := by unfold hcMod; split <;> rfl

/-! #### latMod -/

@[simp] theorem latMod_clock (k : Nat) (f : Lattice → Lattice) : (latMod s k f).clock = s.clock := rfl
@[simp] theorem latMod_idleClock (k : Nat) (f : Lattice → Lattice) : (latMod s k f).idleClock = s.idleClock := rfl
@[simp] theorem latMod_freeCount (k : Nat) (f : Lattice → Lattice) : (latMod s k f).freeCount = s.freeCount := rfl
@[simp] theorem latMod_regs (k : Nat) (f : Lattice → Lattice) : (latMod s k f).regs = s.regs := rfl
@[simp] theorem latMod_mem (k : Nat) (f : Lattice → Lattice) : (latMod s k f).mem = s.mem := rfl
@[simp] theorem latMod_memPoison (k : Nat) (f : Lattice → Lattice) : (latMod s k f).memPoison = s.memPoison := rfl
@[simp] theorem latMod_upsets (k : Nat) (f : Lattice → Lattice) : (latMod s k f).upsets = s.upsets := rfl
@[simp] theorem latMod_scrubs (k : Nat) (f : Lattice → Lattice) : (latMod s k f).scrubs = s.scrubs := rfl
@[simp] theorem latMod_gct (k : Nat) (f : Lattice → Lattice) : (latMod s k f).gct = s.gct := rfl
@[simp] theorem latMod_ports (k : Nat) (f : Lattice → Lattice) : (latMod s k f).ports = s.ports := rfl
@[simp] theorem latMod_heart (k : Nat) (f : Lattice → Lattice) : (latMod s k f).heart = s.heart := rfl
@[simp] theorem latMod_canopy (k : Nat) (f : Lattice → Lattice) : (latMod s k f).canopy = s.canopy := rfl
@[simp] theorem latMod_flow (k : Nat) (f : Lattice → Lattice) : (latMod s k f).flow = s.flow := rfl
@[simp] theorem latMod_grove (k : Nat) (f : Lattice → Lattice) : (latMod s k f).grove = s.grove := rfl
@[simp] theorem latMod_tiers (k : Nat) (f : Lattice → Lattice) : (latMod s k f).tiers = s.tiers := rfl
@[simp] theorem latMod_span (k : Nat) (f : Lattice → Lattice) : (latMod s k f).span = s.span := rfl
@[simp] theorem latMod_obs (k : Nat) (f : Lattice → Lattice) : (latMod s k f).obs = s.obs := rfl
@[simp] theorem latMod_compass (k : Nat) (f : Lattice → Lattice) : (latMod s k f).compass = s.compass := rfl
@[simp] theorem latMod_crown (k : Nat) (f : Lattice → Lattice) : (latMod s k f).crown = s.crown := rfl
@[simp] theorem latMod_flash (k : Nat) (f : Lattice → Lattice) : (latMod s k f).flash = s.flash := rfl
@[simp] theorem latMod_trust (k : Nat) (f : Lattice → Lattice) : (latMod s k f).trust = s.trust := rfl
@[simp] theorem latMod_pwr (k : Nat) (f : Lattice → Lattice) : (latMod s k f).pwr = s.pwr := rfl
@[simp] theorem latMod_sent (k : Nat) (f : Lattice → Lattice) : (latMod s k f).sent = s.sent := rfl
@[simp] theorem latMod_pending (k : Nat) (f : Lattice → Lattice) : (latMod s k f).pending = s.pending := rfl

/-! #### bistMod -/

@[simp] theorem bistMod_clock (k a : Nat) (f : Bist → Bist) : (bistMod s k a f).clock = s.clock := rfl
@[simp] theorem bistMod_idleClock (k a : Nat) (f : Bist → Bist) : (bistMod s k a f).idleClock = s.idleClock := rfl
@[simp] theorem bistMod_freeCount (k a : Nat) (f : Bist → Bist) : (bistMod s k a f).freeCount = s.freeCount := rfl
@[simp] theorem bistMod_regs (k a : Nat) (f : Bist → Bist) : (bistMod s k a f).regs = s.regs := rfl
@[simp] theorem bistMod_mem (k a : Nat) (f : Bist → Bist) : (bistMod s k a f).mem = s.mem := rfl
@[simp] theorem bistMod_memPoison (k a : Nat) (f : Bist → Bist) : (bistMod s k a f).memPoison = s.memPoison := rfl
@[simp] theorem bistMod_upsets (k a : Nat) (f : Bist → Bist) : (bistMod s k a f).upsets = s.upsets := rfl
@[simp] theorem bistMod_scrubs (k a : Nat) (f : Bist → Bist) : (bistMod s k a f).scrubs = s.scrubs := rfl
@[simp] theorem bistMod_gct (k a : Nat) (f : Bist → Bist) : (bistMod s k a f).gct = s.gct := rfl
@[simp] theorem bistMod_ports (k a : Nat) (f : Bist → Bist) : (bistMod s k a f).ports = s.ports := rfl
@[simp] theorem bistMod_heart (k a : Nat) (f : Bist → Bist) : (bistMod s k a f).heart = s.heart := rfl
@[simp] theorem bistMod_canopy (k a : Nat) (f : Bist → Bist) : (bistMod s k a f).canopy = s.canopy := rfl
@[simp] theorem bistMod_flow (k a : Nat) (f : Bist → Bist) : (bistMod s k a f).flow = s.flow := rfl
@[simp] theorem bistMod_grove (k a : Nat) (f : Bist → Bist) : (bistMod s k a f).grove = s.grove := rfl
@[simp] theorem bistMod_tiers (k a : Nat) (f : Bist → Bist) : (bistMod s k a f).tiers = s.tiers := rfl
@[simp] theorem bistMod_span (k a : Nat) (f : Bist → Bist) : (bistMod s k a f).span = s.span := rfl
@[simp] theorem bistMod_obs (k a : Nat) (f : Bist → Bist) : (bistMod s k a f).obs = s.obs := rfl
@[simp] theorem bistMod_compass (k a : Nat) (f : Bist → Bist) : (bistMod s k a f).compass = s.compass := rfl
@[simp] theorem bistMod_crown (k a : Nat) (f : Bist → Bist) : (bistMod s k a f).crown = s.crown := rfl
@[simp] theorem bistMod_flash (k a : Nat) (f : Bist → Bist) : (bistMod s k a f).flash = s.flash := rfl
@[simp] theorem bistMod_trust (k a : Nat) (f : Bist → Bist) : (bistMod s k a f).trust = s.trust := rfl
@[simp] theorem bistMod_pwr (k a : Nat) (f : Bist → Bist) : (bistMod s k a f).pwr = s.pwr := rfl
@[simp] theorem bistMod_sent (k a : Nat) (f : Bist → Bist) : (bistMod s k a f).sent = s.sent := rfl
@[simp] theorem bistMod_pending (k a : Nat) (f : Bist → Bist) : (bistMod s k a f).pending = s.pending := rfl

/-! #### unitSet -/

@[simp] theorem unitSet_clock (u : Nat) (x : XltUnit) : (unitSet s u x).clock = s.clock := rfl
@[simp] theorem unitSet_idleClock (u : Nat) (x : XltUnit) : (unitSet s u x).idleClock = s.idleClock := rfl
@[simp] theorem unitSet_freeCount (u : Nat) (x : XltUnit) : (unitSet s u x).freeCount = s.freeCount := rfl
@[simp] theorem unitSet_regs (u : Nat) (x : XltUnit) : (unitSet s u x).regs = s.regs := rfl
@[simp] theorem unitSet_mem (u : Nat) (x : XltUnit) : (unitSet s u x).mem = s.mem := rfl
@[simp] theorem unitSet_memPoison (u : Nat) (x : XltUnit) : (unitSet s u x).memPoison = s.memPoison := rfl
@[simp] theorem unitSet_upsets (u : Nat) (x : XltUnit) : (unitSet s u x).upsets = s.upsets := rfl
@[simp] theorem unitSet_scrubs (u : Nat) (x : XltUnit) : (unitSet s u x).scrubs = s.scrubs := rfl
@[simp] theorem unitSet_gct (u : Nat) (x : XltUnit) : (unitSet s u x).gct = s.gct := rfl
@[simp] theorem unitSet_ports (u : Nat) (x : XltUnit) : (unitSet s u x).ports = s.ports := rfl
@[simp] theorem unitSet_heart (u : Nat) (x : XltUnit) : (unitSet s u x).heart = s.heart := rfl
@[simp] theorem unitSet_canopy (u : Nat) (x : XltUnit) : (unitSet s u x).canopy = s.canopy := rfl
@[simp] theorem unitSet_flow (u : Nat) (x : XltUnit) : (unitSet s u x).flow = s.flow := rfl
@[simp] theorem unitSet_grove (u : Nat) (x : XltUnit) : (unitSet s u x).grove = s.grove := rfl
@[simp] theorem unitSet_tiers (u : Nat) (x : XltUnit) : (unitSet s u x).tiers = s.tiers := rfl
@[simp] theorem unitSet_span (u : Nat) (x : XltUnit) : (unitSet s u x).span = s.span := rfl
@[simp] theorem unitSet_obs (u : Nat) (x : XltUnit) : (unitSet s u x).obs = s.obs := rfl
@[simp] theorem unitSet_compass (u : Nat) (x : XltUnit) : (unitSet s u x).compass = s.compass := rfl
@[simp] theorem unitSet_crown (u : Nat) (x : XltUnit) : (unitSet s u x).crown = s.crown := rfl
@[simp] theorem unitSet_flash (u : Nat) (x : XltUnit) : (unitSet s u x).flash = s.flash := rfl
@[simp] theorem unitSet_trust (u : Nat) (x : XltUnit) : (unitSet s u x).trust = s.trust := rfl
@[simp] theorem unitSet_pwr (u : Nat) (x : XltUnit) : (unitSet s u x).pwr = s.pwr := rfl
@[simp] theorem unitSet_sent (u : Nat) (x : XltUnit) : (unitSet s u x).sent = s.sent := rfl
@[simp] theorem unitSet_pending (u : Nat) (x : XltUnit) : (unitSet s u x).pending = s.pending := rfl

/-! #### linkSet -/

@[simp] theorem linkSet_clock (k : Nat) (l : SpanLink) : (linkSet s k l).clock = s.clock := rfl
@[simp] theorem linkSet_idleClock (k : Nat) (l : SpanLink) : (linkSet s k l).idleClock = s.idleClock := rfl
@[simp] theorem linkSet_freeCount (k : Nat) (l : SpanLink) : (linkSet s k l).freeCount = s.freeCount := rfl
@[simp] theorem linkSet_regs (k : Nat) (l : SpanLink) : (linkSet s k l).regs = s.regs := rfl
@[simp] theorem linkSet_mem (k : Nat) (l : SpanLink) : (linkSet s k l).mem = s.mem := rfl
@[simp] theorem linkSet_memPoison (k : Nat) (l : SpanLink) : (linkSet s k l).memPoison = s.memPoison := rfl
@[simp] theorem linkSet_upsets (k : Nat) (l : SpanLink) : (linkSet s k l).upsets = s.upsets := rfl
@[simp] theorem linkSet_scrubs (k : Nat) (l : SpanLink) : (linkSet s k l).scrubs = s.scrubs := rfl
@[simp] theorem linkSet_gct (k : Nat) (l : SpanLink) : (linkSet s k l).gct = s.gct := rfl
@[simp] theorem linkSet_ports (k : Nat) (l : SpanLink) : (linkSet s k l).ports = s.ports := rfl
@[simp] theorem linkSet_heart (k : Nat) (l : SpanLink) : (linkSet s k l).heart = s.heart := rfl
@[simp] theorem linkSet_canopy (k : Nat) (l : SpanLink) : (linkSet s k l).canopy = s.canopy := rfl
@[simp] theorem linkSet_flow (k : Nat) (l : SpanLink) : (linkSet s k l).flow = s.flow := rfl
@[simp] theorem linkSet_grove (k : Nat) (l : SpanLink) : (linkSet s k l).grove = s.grove := rfl
@[simp] theorem linkSet_tiers (k : Nat) (l : SpanLink) : (linkSet s k l).tiers = s.tiers := rfl
@[simp] theorem linkSet_facet (k : Nat) (l : SpanLink) : (linkSet s k l).facet = s.facet := rfl
@[simp] theorem linkSet_obs (k : Nat) (l : SpanLink) : (linkSet s k l).obs = s.obs := rfl
@[simp] theorem linkSet_compass (k : Nat) (l : SpanLink) : (linkSet s k l).compass = s.compass := rfl
@[simp] theorem linkSet_crown (k : Nat) (l : SpanLink) : (linkSet s k l).crown = s.crown := rfl
@[simp] theorem linkSet_flash (k : Nat) (l : SpanLink) : (linkSet s k l).flash = s.flash := rfl
@[simp] theorem linkSet_trust (k : Nat) (l : SpanLink) : (linkSet s k l).trust = s.trust := rfl
@[simp] theorem linkSet_pwr (k : Nat) (l : SpanLink) : (linkSet s k l).pwr = s.pwr := rfl
@[simp] theorem linkSet_sent (k : Nat) (l : SpanLink) : (linkSet s k l).sent = s.sent := rfl
@[simp] theorem linkSet_pending (k : Nat) (l : SpanLink) : (linkSet s k l).pending = s.pending := rfl

/-! #### linkMod -/

@[simp] theorem linkMod_clock (k : Nat) (f : SpanLink → SpanLink) : (linkMod s k f).clock = s.clock := rfl
@[simp] theorem linkMod_idleClock (k : Nat) (f : SpanLink → SpanLink) : (linkMod s k f).idleClock = s.idleClock := rfl
@[simp] theorem linkMod_freeCount (k : Nat) (f : SpanLink → SpanLink) : (linkMod s k f).freeCount = s.freeCount := rfl
@[simp] theorem linkMod_regs (k : Nat) (f : SpanLink → SpanLink) : (linkMod s k f).regs = s.regs := rfl
@[simp] theorem linkMod_mem (k : Nat) (f : SpanLink → SpanLink) : (linkMod s k f).mem = s.mem := rfl
@[simp] theorem linkMod_memPoison (k : Nat) (f : SpanLink → SpanLink) : (linkMod s k f).memPoison = s.memPoison := rfl
@[simp] theorem linkMod_upsets (k : Nat) (f : SpanLink → SpanLink) : (linkMod s k f).upsets = s.upsets := rfl
@[simp] theorem linkMod_scrubs (k : Nat) (f : SpanLink → SpanLink) : (linkMod s k f).scrubs = s.scrubs := rfl
@[simp] theorem linkMod_gct (k : Nat) (f : SpanLink → SpanLink) : (linkMod s k f).gct = s.gct := rfl
@[simp] theorem linkMod_ports (k : Nat) (f : SpanLink → SpanLink) : (linkMod s k f).ports = s.ports := rfl
@[simp] theorem linkMod_heart (k : Nat) (f : SpanLink → SpanLink) : (linkMod s k f).heart = s.heart := rfl
@[simp] theorem linkMod_canopy (k : Nat) (f : SpanLink → SpanLink) : (linkMod s k f).canopy = s.canopy := rfl
@[simp] theorem linkMod_flow (k : Nat) (f : SpanLink → SpanLink) : (linkMod s k f).flow = s.flow := rfl
@[simp] theorem linkMod_grove (k : Nat) (f : SpanLink → SpanLink) : (linkMod s k f).grove = s.grove := rfl
@[simp] theorem linkMod_tiers (k : Nat) (f : SpanLink → SpanLink) : (linkMod s k f).tiers = s.tiers := rfl
@[simp] theorem linkMod_facet (k : Nat) (f : SpanLink → SpanLink) : (linkMod s k f).facet = s.facet := rfl
@[simp] theorem linkMod_obs (k : Nat) (f : SpanLink → SpanLink) : (linkMod s k f).obs = s.obs := rfl
@[simp] theorem linkMod_compass (k : Nat) (f : SpanLink → SpanLink) : (linkMod s k f).compass = s.compass := rfl
@[simp] theorem linkMod_crown (k : Nat) (f : SpanLink → SpanLink) : (linkMod s k f).crown = s.crown := rfl
@[simp] theorem linkMod_flash (k : Nat) (f : SpanLink → SpanLink) : (linkMod s k f).flash = s.flash := rfl
@[simp] theorem linkMod_trust (k : Nat) (f : SpanLink → SpanLink) : (linkMod s k f).trust = s.trust := rfl
@[simp] theorem linkMod_pwr (k : Nat) (f : SpanLink → SpanLink) : (linkMod s k f).pwr = s.pwr := rfl
@[simp] theorem linkMod_sent (k : Nat) (f : SpanLink → SpanLink) : (linkMod s k f).sent = s.sent := rfl
@[simp] theorem linkMod_pending (k : Nat) (f : SpanLink → SpanLink) : (linkMod s k f).pending = s.pending := rfl

/-! #### setLinkState -/

@[simp] theorem setLinkState_clock (k st : Nat) : (setLinkState s k st).clock = s.clock := rfl
@[simp] theorem setLinkState_idleClock (k st : Nat) : (setLinkState s k st).idleClock = s.idleClock := rfl
@[simp] theorem setLinkState_freeCount (k st : Nat) : (setLinkState s k st).freeCount = s.freeCount := rfl
@[simp] theorem setLinkState_mem (k st : Nat) : (setLinkState s k st).mem = s.mem := rfl
@[simp] theorem setLinkState_memPoison (k st : Nat) : (setLinkState s k st).memPoison = s.memPoison := rfl
@[simp] theorem setLinkState_upsets (k st : Nat) : (setLinkState s k st).upsets = s.upsets := rfl
@[simp] theorem setLinkState_scrubs (k st : Nat) : (setLinkState s k st).scrubs = s.scrubs := rfl
@[simp] theorem setLinkState_gct (k st : Nat) : (setLinkState s k st).gct = s.gct := rfl
@[simp] theorem setLinkState_ports (k st : Nat) : (setLinkState s k st).ports = s.ports := rfl
@[simp] theorem setLinkState_heart (k st : Nat) : (setLinkState s k st).heart = s.heart := rfl
@[simp] theorem setLinkState_canopy (k st : Nat) : (setLinkState s k st).canopy = s.canopy := rfl
@[simp] theorem setLinkState_flow (k st : Nat) : (setLinkState s k st).flow = s.flow := rfl
@[simp] theorem setLinkState_grove (k st : Nat) : (setLinkState s k st).grove = s.grove := rfl
@[simp] theorem setLinkState_tiers (k st : Nat) : (setLinkState s k st).tiers = s.tiers := rfl
@[simp] theorem setLinkState_facet (k st : Nat) : (setLinkState s k st).facet = s.facet := rfl
@[simp] theorem setLinkState_span (k st : Nat) : (setLinkState s k st).span = s.span := rfl
@[simp] theorem setLinkState_obs (k st : Nat) : (setLinkState s k st).obs = s.obs := rfl
@[simp] theorem setLinkState_compass (k st : Nat) : (setLinkState s k st).compass = s.compass := rfl
@[simp] theorem setLinkState_crown (k st : Nat) : (setLinkState s k st).crown = s.crown := rfl
@[simp] theorem setLinkState_flash (k st : Nat) : (setLinkState s k st).flash = s.flash := rfl
@[simp] theorem setLinkState_trust (k st : Nat) : (setLinkState s k st).trust = s.trust := rfl
@[simp] theorem setLinkState_pwr (k st : Nat) : (setLinkState s k st).pwr = s.pwr := rfl
@[simp] theorem setLinkState_sent (k st : Nat) : (setLinkState s k st).sent = s.sent := rfl
@[simp] theorem setLinkState_pending (k st : Nat) : (setLinkState s k st).pending = s.pending := rfl

/-! #### flashMod -/

@[simp] theorem flashMod_clock (f : Flash → Flash) : (flashMod s f).clock = s.clock := rfl
@[simp] theorem flashMod_idleClock (f : Flash → Flash) : (flashMod s f).idleClock = s.idleClock := rfl
@[simp] theorem flashMod_freeCount (f : Flash → Flash) : (flashMod s f).freeCount = s.freeCount := rfl
@[simp] theorem flashMod_regs (f : Flash → Flash) : (flashMod s f).regs = s.regs := rfl
@[simp] theorem flashMod_mem (f : Flash → Flash) : (flashMod s f).mem = s.mem := rfl
@[simp] theorem flashMod_memPoison (f : Flash → Flash) : (flashMod s f).memPoison = s.memPoison := rfl
@[simp] theorem flashMod_upsets (f : Flash → Flash) : (flashMod s f).upsets = s.upsets := rfl
@[simp] theorem flashMod_scrubs (f : Flash → Flash) : (flashMod s f).scrubs = s.scrubs := rfl
@[simp] theorem flashMod_gct (f : Flash → Flash) : (flashMod s f).gct = s.gct := rfl
@[simp] theorem flashMod_ports (f : Flash → Flash) : (flashMod s f).ports = s.ports := rfl
@[simp] theorem flashMod_heart (f : Flash → Flash) : (flashMod s f).heart = s.heart := rfl
@[simp] theorem flashMod_canopy (f : Flash → Flash) : (flashMod s f).canopy = s.canopy := rfl
@[simp] theorem flashMod_flow (f : Flash → Flash) : (flashMod s f).flow = s.flow := rfl
@[simp] theorem flashMod_grove (f : Flash → Flash) : (flashMod s f).grove = s.grove := rfl
@[simp] theorem flashMod_tiers (f : Flash → Flash) : (flashMod s f).tiers = s.tiers := rfl
@[simp] theorem flashMod_facet (f : Flash → Flash) : (flashMod s f).facet = s.facet := rfl
@[simp] theorem flashMod_span (f : Flash → Flash) : (flashMod s f).span = s.span := rfl
@[simp] theorem flashMod_obs (f : Flash → Flash) : (flashMod s f).obs = s.obs := rfl
@[simp] theorem flashMod_compass (f : Flash → Flash) : (flashMod s f).compass = s.compass := rfl
@[simp] theorem flashMod_crown (f : Flash → Flash) : (flashMod s f).crown = s.crown := rfl
@[simp] theorem flashMod_trust (f : Flash → Flash) : (flashMod s f).trust = s.trust := rfl
@[simp] theorem flashMod_pwr (f : Flash → Flash) : (flashMod s f).pwr = s.pwr := rfl
@[simp] theorem flashMod_sent (f : Flash → Flash) : (flashMod s f).sent = s.sent := rfl
@[simp] theorem flashMod_pending (f : Flash → Flash) : (flashMod s f).pending = s.pending := rfl

/-! #### trustMod -/

@[simp] theorem trustMod_clock (f : Trust → Trust) : (trustMod s f).clock = s.clock := rfl
@[simp] theorem trustMod_idleClock (f : Trust → Trust) : (trustMod s f).idleClock = s.idleClock := rfl
@[simp] theorem trustMod_freeCount (f : Trust → Trust) : (trustMod s f).freeCount = s.freeCount := rfl
@[simp] theorem trustMod_regs (f : Trust → Trust) : (trustMod s f).regs = s.regs := rfl
@[simp] theorem trustMod_mem (f : Trust → Trust) : (trustMod s f).mem = s.mem := rfl
@[simp] theorem trustMod_memPoison (f : Trust → Trust) : (trustMod s f).memPoison = s.memPoison := rfl
@[simp] theorem trustMod_upsets (f : Trust → Trust) : (trustMod s f).upsets = s.upsets := rfl
@[simp] theorem trustMod_scrubs (f : Trust → Trust) : (trustMod s f).scrubs = s.scrubs := rfl
@[simp] theorem trustMod_gct (f : Trust → Trust) : (trustMod s f).gct = s.gct := rfl
@[simp] theorem trustMod_ports (f : Trust → Trust) : (trustMod s f).ports = s.ports := rfl
@[simp] theorem trustMod_heart (f : Trust → Trust) : (trustMod s f).heart = s.heart := rfl
@[simp] theorem trustMod_canopy (f : Trust → Trust) : (trustMod s f).canopy = s.canopy := rfl
@[simp] theorem trustMod_flow (f : Trust → Trust) : (trustMod s f).flow = s.flow := rfl
@[simp] theorem trustMod_grove (f : Trust → Trust) : (trustMod s f).grove = s.grove := rfl
@[simp] theorem trustMod_tiers (f : Trust → Trust) : (trustMod s f).tiers = s.tiers := rfl
@[simp] theorem trustMod_facet (f : Trust → Trust) : (trustMod s f).facet = s.facet := rfl
@[simp] theorem trustMod_span (f : Trust → Trust) : (trustMod s f).span = s.span := rfl
@[simp] theorem trustMod_obs (f : Trust → Trust) : (trustMod s f).obs = s.obs := rfl
@[simp] theorem trustMod_compass (f : Trust → Trust) : (trustMod s f).compass = s.compass := rfl
@[simp] theorem trustMod_crown (f : Trust → Trust) : (trustMod s f).crown = s.crown := rfl
@[simp] theorem trustMod_flash (f : Trust → Trust) : (trustMod s f).flash = s.flash := rfl
@[simp] theorem trustMod_pwr (f : Trust → Trust) : (trustMod s f).pwr = s.pwr := rfl
@[simp] theorem trustMod_sent (f : Trust → Trust) : (trustMod s f).sent = s.sent := rfl
@[simp] theorem trustMod_pending (f : Trust → Trust) : (trustMod s f).pending = s.pending := rfl

/-! #### pwrMod -/

@[simp] theorem pwrMod_clock (f : Pwr → Pwr) : (pwrMod s f).clock = s.clock := rfl
@[simp] theorem pwrMod_idleClock (f : Pwr → Pwr) : (pwrMod s f).idleClock = s.idleClock := rfl
@[simp] theorem pwrMod_freeCount (f : Pwr → Pwr) : (pwrMod s f).freeCount = s.freeCount := rfl
@[simp] theorem pwrMod_regs (f : Pwr → Pwr) : (pwrMod s f).regs = s.regs := rfl
@[simp] theorem pwrMod_mem (f : Pwr → Pwr) : (pwrMod s f).mem = s.mem := rfl
@[simp] theorem pwrMod_memPoison (f : Pwr → Pwr) : (pwrMod s f).memPoison = s.memPoison := rfl
@[simp] theorem pwrMod_upsets (f : Pwr → Pwr) : (pwrMod s f).upsets = s.upsets := rfl
@[simp] theorem pwrMod_scrubs (f : Pwr → Pwr) : (pwrMod s f).scrubs = s.scrubs := rfl
@[simp] theorem pwrMod_gct (f : Pwr → Pwr) : (pwrMod s f).gct = s.gct := rfl
@[simp] theorem pwrMod_ports (f : Pwr → Pwr) : (pwrMod s f).ports = s.ports := rfl
@[simp] theorem pwrMod_heart (f : Pwr → Pwr) : (pwrMod s f).heart = s.heart := rfl
@[simp] theorem pwrMod_canopy (f : Pwr → Pwr) : (pwrMod s f).canopy = s.canopy := rfl
@[simp] theorem pwrMod_flow (f : Pwr → Pwr) : (pwrMod s f).flow = s.flow := rfl
@[simp] theorem pwrMod_grove (f : Pwr → Pwr) : (pwrMod s f).grove = s.grove := rfl
@[simp] theorem pwrMod_tiers (f : Pwr → Pwr) : (pwrMod s f).tiers = s.tiers := rfl
@[simp] theorem pwrMod_facet (f : Pwr → Pwr) : (pwrMod s f).facet = s.facet := rfl
@[simp] theorem pwrMod_span (f : Pwr → Pwr) : (pwrMod s f).span = s.span := rfl
@[simp] theorem pwrMod_obs (f : Pwr → Pwr) : (pwrMod s f).obs = s.obs := rfl
@[simp] theorem pwrMod_compass (f : Pwr → Pwr) : (pwrMod s f).compass = s.compass := rfl
@[simp] theorem pwrMod_crown (f : Pwr → Pwr) : (pwrMod s f).crown = s.crown := rfl
@[simp] theorem pwrMod_flash (f : Pwr → Pwr) : (pwrMod s f).flash = s.flash := rfl
@[simp] theorem pwrMod_trust (f : Pwr → Pwr) : (pwrMod s f).trust = s.trust := rfl
@[simp] theorem pwrMod_sent (f : Pwr → Pwr) : (pwrMod s f).sent = s.sent := rfl
@[simp] theorem pwrMod_pending (f : Pwr → Pwr) : (pwrMod s f).pending = s.pending := rfl

/-! #### auditAdd -/

@[simp] theorem auditAdd_clock (r : Bytes) : (auditAdd s r).clock = s.clock := rfl
@[simp] theorem auditAdd_idleClock (r : Bytes) : (auditAdd s r).idleClock = s.idleClock := rfl
@[simp] theorem auditAdd_freeCount (r : Bytes) : (auditAdd s r).freeCount = s.freeCount := rfl
@[simp] theorem auditAdd_regs (r : Bytes) : (auditAdd s r).regs = s.regs := rfl
@[simp] theorem auditAdd_mem (r : Bytes) : (auditAdd s r).mem = s.mem := rfl
@[simp] theorem auditAdd_memPoison (r : Bytes) : (auditAdd s r).memPoison = s.memPoison := rfl
@[simp] theorem auditAdd_upsets (r : Bytes) : (auditAdd s r).upsets = s.upsets := rfl
@[simp] theorem auditAdd_scrubs (r : Bytes) : (auditAdd s r).scrubs = s.scrubs := rfl
@[simp] theorem auditAdd_gct (r : Bytes) : (auditAdd s r).gct = s.gct := rfl
@[simp] theorem auditAdd_ports (r : Bytes) : (auditAdd s r).ports = s.ports := rfl
@[simp] theorem auditAdd_heart (r : Bytes) : (auditAdd s r).heart = s.heart := rfl
@[simp] theorem auditAdd_canopy (r : Bytes) : (auditAdd s r).canopy = s.canopy := rfl
@[simp] theorem auditAdd_flow (r : Bytes) : (auditAdd s r).flow = s.flow := rfl
@[simp] theorem auditAdd_grove (r : Bytes) : (auditAdd s r).grove = s.grove := rfl
@[simp] theorem auditAdd_tiers (r : Bytes) : (auditAdd s r).tiers = s.tiers := rfl
@[simp] theorem auditAdd_facet (r : Bytes) : (auditAdd s r).facet = s.facet := rfl
@[simp] theorem auditAdd_span (r : Bytes) : (auditAdd s r).span = s.span := rfl
@[simp] theorem auditAdd_obs (r : Bytes) : (auditAdd s r).obs = s.obs := rfl
@[simp] theorem auditAdd_compass (r : Bytes) : (auditAdd s r).compass = s.compass := rfl
@[simp] theorem auditAdd_crown (r : Bytes) : (auditAdd s r).crown = s.crown := rfl
@[simp] theorem auditAdd_flash (r : Bytes) : (auditAdd s r).flash = s.flash := rfl
@[simp] theorem auditAdd_pwr (r : Bytes) : (auditAdd s r).pwr = s.pwr := rfl
@[simp] theorem auditAdd_sent (r : Bytes) : (auditAdd s r).sent = s.sent := rfl
@[simp] theorem auditAdd_pending (r : Bytes) : (auditAdd s r).pending = s.pending := rfl

@[simp] theorem flashMod_flash (f : Flash → Flash) : (flashMod s f).flash = f s.flash := rfl

@[simp] theorem trustMod_trust (f : Trust → Trust) : (trustMod s f).trust = f s.trust := rfl

@[simp] theorem pwrMod_pwr (f : Pwr → Pwr) : (pwrMod s f).pwr = f s.pwr := rfl

@[simp] theorem modesMod_modes (f : Modes → Modes) : (modesMod s f).gct.modes = f s.gct.modes := rfl

end Fields

/-! ### Reading what was written -/

section Reads

variable (s : State)

@[simp] theorem regGet_regSet_self (r : Reg) (v : Word) : regGet (regSet s r v) r = v := by
  unfold regGet regSet
  split
  · next h => simp only [fget_ferase_self, Option.getD_none, h]
  · simp only [fget_finsert_self, Option.getD_some]

theorem regGet_regSet_ne {r q : Reg} (v : Word) (h : regAddr q ≠ regAddr r) : regGet (regSet s r v) q = regGet s q := by
  unfold regGet regSet
  split
  · simp only [fget_ferase_ne _ h]
  · simp only [fget_finsert_ne _ _ h]

@[simp] theorem queueGet_queueSet_self (q : Nat) (v : SQueue) : queueGet (queueSet s q v) q = v := fgetD_fsetD_self _ _ _ _

theorem queueGet_queueSet_ne {q j : Nat} (v : SQueue) (h : j ≠ q) : queueGet (queueSet s q v) j = queueGet s j := fgetD_fsetD_ne _ _ h _

@[simp] theorem pktGet_pktSet_self (k : Nat) (p : Packet) : pktGet (pktSet s k p) k = some (pktTurned s k p) := fget_finsert_self _ _ _

theorem pktGet_pktSet_ne {k j : Nat} (p : Packet) (h : j ≠ k) : pktGet (pktSet s k p) j = pktGet s j := fget_finsert_ne _ _ h

@[simp] theorem sessionGet_sessionMod_self (i : Nat) (f : Session → Session) : sessionGet (sessionMod s i f) i = (sessionGet s i).map f :=
  fget_fmod_self _ _ _

theorem sessionGet_sessionMod_ne {i j : Nat} (f : Session → Session) (h : j ≠ i) : sessionGet (sessionMod s i f) j = sessionGet s j :=
  fget_fmod_ne _ h _

@[simp] theorem coreGet_coreSet_self (k : Nat) (c : CoreSt) : coreGet (coreSet s k c) k = c := fgetD_fsetD_self _ _ _ _

theorem coreGet_coreSet_ne {k j : Nat} (c : CoreSt) (h : j ≠ k) : coreGet (coreSet s k c) j = coreGet s j := fgetD_fsetD_ne _ _ h _

@[simp] theorem coreGet_coreMod_self (k : Nat) (f : CoreSt → CoreSt) : coreGet (coreMod s k f) k = f (coreGet s k) :=
  coreGet_coreSet_self _ _ _

theorem coreGet_coreMod_ne {k j : Nat} (f : CoreSt → CoreSt) (h : j ≠ k) : coreGet (coreMod s k f) j = coreGet s j :=
  coreGet_coreSet_ne _ _ h

@[simp] theorem fget_fput_self {α : Type} (m : FMap α) (k : Nat) (x : Option α) : fget? (fput m k x) k = x := by
  cases x
  · exact fget_ferase_self m k
  · exact fget_finsert_self m k _

theorem fget_fput_ne {α : Type} (m : FMap α) {k j : Nat} (x : Option α) (h : j ≠ k) : fget? (fput m k x) j = fget? m j := by
  cases x
  · exact fget_ferase_ne m h
  · exact fget_finsert_ne m _ h

@[simp] theorem hcGet_hcSet_self (k h : Nat) (x : Option Hc) : hcGet (hcSet s k h x) k h = x := by
  unfold hcGet hcSet
  rw [coreGet_coreMod_self]
  exact fget_fput_self _ _ _

theorem hcGet_hcSet_ne {k h i j : Nat} (x : Option Hc) (hne : i ≠ k ∨ j ≠ h) : hcGet (hcSet s k h x) i j = hcGet s i j := by
  unfold hcGet hcSet
  by_cases hk : i = k
  · subst hk
    rw [coreGet_coreMod_self]
    exact fget_fput_ne _ _ (hne.resolve_left (fun h => h rfl))
  · rw [coreGet_coreMod_ne _ _ hk]

@[simp] theorem hcGet_hcMod_self (k h : Nat) (f : Hc → Hc) : hcGet (hcMod s k h f) k h = (hcGet s k h).map f := by
  unfold hcMod
  split
  · next x hx => rw [hcGet_hcSet_self, hx]; rfl
  · next hx => rw [hx]; rfl

@[simp] theorem unitGet_unitSet_self (u : Nat) (x : XltUnit) : unitGet (unitSet s u x) u = x := fgetD_fsetD_self _ _ _ _

theorem unitGet_unitSet_ne {u v : Nat} (x : XltUnit) (h : v ≠ u) : unitGet (unitSet s u x) v = unitGet s v := fgetD_fsetD_ne _ _ h _

@[simp] theorem linkGet_linkSet_self (k : Nat) (l : SpanLink) : linkGet (linkSet s k l) k = l := fgetD_fsetD_self _ _ _ _

theorem linkGet_linkSet_ne {k j : Nat} (l : SpanLink) (h : j ≠ k) : linkGet (linkSet s k l) j = linkGet s j := fgetD_fsetD_ne _ _ h _

@[simp] theorem rxGet_rxSet_self (m : Nat) (r : Option RxFrame) : rxGet (rxSet s m r) m = r := fget_fput_self _ _ _

@[simp] theorem portHeld_setPortHeld_self (m n : Nat) : portHeld (setPortHeld s m n) m = n := fgetD_fsetD_self _ _ _ _

end Reads

end Sys2Proof.Machine
end

