-- ==== Sys2Proof/Laws/Sessions.lean ====
section
/-!
SUPPORT. Sessions: what closing one leaves of it and of the others, and what a command frame's opcode and body bytes are.
-/

namespace Sys2Proof.Machine

@[simp] theorem frameWithOpcode_opcode (f : CmdFrame) (op : Nat) : (frameWithOpcode f op).opcode = op := rfl

@[simp] theorem frameWithOpcode_length (f : CmdFrame) (op : Nat) : (frameWithOpcode f op).length = f.length := rfl

@[simp] theorem frameWithByte_opcode (f : CmdFrame) (n v : Nat) : (frameWithByte f n v).opcode = f.opcode := by
  unfold frameWithByte
  split <;> rfl

@[simp] theorem frameWithByte_length (f : CmdFrame) (n v : Nat) : (frameWithByte f n v).length = f.length := by
  unfold frameWithByte
  split <;> rfl

@[simp] theorem frameWithByte_session (f : CmdFrame) (n v : Nat) : (frameWithByte f n v).session = f.session := by
  unfold frameWithByte
  split <;> rfl

/-- The tag that a frame should carry does not depend on the bytes after its body. -/
theorem frameTag_rest (k : Bytes) (f : CmdFrame) (r q : Bytes) (h : r.take f.length = q.take f.length) :
    frameTag k { f with rest := r } = frameTag k { f with rest := q } := by
  unfold frameTag CmdFrame.body
  rw [h]

/-- A frame whose body stands before its tag carries that tag. -/
theorem tag_of_rest (f : CmdFrame) (b t : Bytes) (h : b.length = f.length) (ht : t.length = 16) :
    CmdFrame.tag { f with rest := b ++ t } = t := by
  simp [CmdFrame.tag, ← h, ← ht]

theorem dropSession_self (s : State) (i : Nat) : sessionGet (dropSession s i) i = none := by
  unfold dropSession
  split
  · assumption
  · exact fget_ferase_self _ _

theorem dropSession_ne (s : State) {i j : Nat} (h : j ≠ i) : sessionGet (dropSession s i) j = sessionGet s j := by
  unfold dropSession
  split
  · rfl
  · exact fget_ferase_ne _ h

theorem closeSession_ne (s : State) {i j : Nat} (h : j ≠ i) : sessionGet (closeSession s i) j = sessionGet s j := by
  unfold closeSession
  split
  · rfl
  · split
    · exact sessionGet_sessionMod_ne _ _ h
    · rw [dropSession_ne _ h]
      rfl

/-- A session with no command in execution is gone once it closes. -/
theorem closeSession_idle (s : State) (i : Nat) (h : ∀ x, sessionGet s i = some x → x.exec = none) :
    sessionGet (closeSession s i) i = none := by
  unfold closeSession
  split
  · assumption
  · next x hx => simp only [h x hx, Option.isSome_none, Bool.false_eq_true, if_false, dropSession_self]

/-- A session with a command in execution is marked, to close after it. -/
theorem closeSession_busy (s : State) (i : Nat) (x : Session) (h : sessionGet s i = some x) (e : x.exec.isSome = true) :
    sessionGet (closeSession s i) i = some { x with closing := true } := by
  unfold closeSession
  rw [h]
  simp only [e, if_true, sessionGet_sessionMod_self, h, Option.map_some]

end Sys2Proof.Machine
end

