-- ==== Sys2Proof/Laws/Hash.lean ====
section
/-!
SUPPORT. How long the strings are that hashes, tags and numbers give.
-/

namespace Sys2Proof.Machine

@[simp] theorem leBytes_length (n x : Nat) : (leBytes n x).length = n := by
  induction n generalizing x with
  | zero => rfl
  | succ k ih => simp [leBytes, ih]

@[simp] theorem beBytes_length (n x : Nat) : (beBytes n x).length = n := by simp [beBytes]

@[simp] theorem sha256_length (m : Bytes) : (sha256 m).length = 32 := by
  simp only [sha256, List.length_flatMap, beBytes_length, List.map_const', List.sum_replicate, Vector.length_toList]
  rfl

@[simp] theorem frameTag_length (k : Bytes) (f : CmdFrame) : (frameTag k f).length = 16 := by
  unfold frameTag hmac
  simp

end Sys2Proof.Machine
end

