-- ==== Sys2Proof/Laws/Keeps.lean ====
section
/-!
SUPPORT.  One relation between two states that every operation of the model keeps: the queue of commands is the same, and memory, its
poison marks and the register file stay in canonical form. The other files of the family say it of each operation.
-/

namespace Sys2Proof.Machine

/-- `t` has the queue of `s`, and its tables are in canonical form where those of `s` are. -/
def Keeps (s t : State) : Prop :=
  t.pending = s.pending ∧ (fcanon 0 s.mem = true → fcanon 0 t.mem = true) ∧
    (fcanon false s.memPoison = true → fcanon false t.memPoison = true) ∧ (fsorted s.regs = true → fsorted t.regs = true)

namespace Keeps

variable {s t u : State}

theorem refl (s : State) : Keeps s s := ⟨rfl, id, id, id⟩

theorem trans (h1 : Keeps s t) (h2 : Keeps t u) : Keeps s u :=
  ⟨h2.1.trans h1.1, fun h => h2.2.1 (h1.2.1 h), fun h => h2.2.2.1 (h1.2.2.1 h), fun h => h2.2.2.2 (h1.2.2.2 h)⟩

/-- A change of any other field keeps the relation. -/
theorem upd {c i f us sc g p he ca fl gr ti fa sp ob co cr fs tr pw se} (h : Keeps s u) :
    Keeps s (State.mk c i f u.regs u.mem u.memPoison us sc g p he ca fl gr ti fa sp ob co cr fs tr pw se u.pending) := h

theorem foldl {β : Type} {f : State → β → State} {l : List β} (h : Keeps s t) (hf : ∀ t b, Keeps s t → Keeps s (f t b)) :
    Keeps s (l.foldl f t) := by
  induction l generalizing t with
  | nil => exact h
  | cons b l ih => exact ih (hf t b h)

theorem foldl_snd {α β : Type} {f : α × State → β → α × State} {l : List β} {a : α × State} (h : Keeps s a.2)
    (hf : ∀ a b, Keeps s a.2 → Keeps s (f a b).2) : Keeps s (l.foldl f a).2 := by
  induction l generalizing a with
  | nil => exact h
  | cons b l ih => exact ih (hf a b h)

theorem foldl_snd_snd {α γ β : Type} {f : α × γ × State → β → α × γ × State} {l : List β} {a : α × γ × State} (h : Keeps s a.2.2)
    (hf : ∀ a b, Keeps s a.2.2 → Keeps s (f a b).2.2) : Keeps s (l.foldl f a).2.2 := by
  induction l generalizing a with
  | nil => exact h
  | cons b l ih => exact ih (hf a b h)

theorem foldl_fst {α β : Type} {f : State × α → β → State × α} {l : List β} {a : State × α} (h : Keeps s a.1)
    (hf : ∀ a b, Keeps s a.1 → Keeps s (f a b).1) : Keeps s (l.foldl f a).1 := by
  induction l generalizing a with
  | nil => exact h
  | cons b l ih => exact ih (hf a b h)

/-- The state that an answer holds. -/
theorem of_snd {α : Type} {r : α × State} {a : α} (e : r = (a, t)) (h : Keeps s r.2) : Keeps s t := by rw [e] at h; exact h

theorem of_snd_snd {α β : Type} {r : α × β × State} {a : α} {b : β} (e : r = (a, b, t)) (h : Keeps s r.2.2) : Keeps s t := by
  rw [e] at h; exact h

theorem of_fst {α : Type} {r : State × α} {a : α} (e : r = (t, a)) (h : Keeps s r.1) : Keeps s t := by rw [e] at h; exact h

theorem getD {o : Option State} (ho : ∀ t, o = some t → Keeps s t) (h : Keeps s u) : Keeps s (o.getD u) := by
  cases o with
  | none => exact h
  | some t => exact ho t rfl

/-- A register write. -/
theorem setReg {r : FMap Word} (h : Keeps s u) (hr : fsorted u.regs = true → fsorted r = true) : Keeps s { u with regs := r } :=
  ⟨h.1, h.2.1, h.2.2.1, fun hs => hr (h.2.2.2 hs)⟩

/-- A memory write. -/
theorem setMem {m : FMap Byte} {p : FMap Bool} (h : Keeps s u) (hm : fcanon 0 u.mem = true → fcanon 0 m = true)
    (hp : fcanon false u.memPoison = true → fcanon false p = true) : Keeps s { u with mem := m, memPoison := p } :=
  ⟨h.1, fun hs => hm (h.2.1 hs), fun hs => hp (h.2.2.1 hs), h.2.2.2⟩

/-- A change of poison marks. -/
theorem setPoison {p : FMap Bool} (h : Keeps s u) (hp : fcanon false u.memPoison = true → fcanon false p = true) :
    Keeps s { u with memPoison := p } := h.setMem id hp

end Keeps

theorem fcanon_memPut {m : FMap Byte} (h : fcanon 0 m = true) (a : Nat) (bs : Bytes) : fcanon 0 (memPut m a bs) = true := by
  induction bs generalizing m a with
  | nil => exact h
  | cons b t ih => exact ih (fcanon_fsetD h a b) (a + 1)

theorem fcanon_clearGranules {p : FMap Bool} (h : fcanon false p = true) (gs : List Nat) : fcanon false (clearGranules p gs) = true :=
  fcanon_foldl_ferase gs h

namespace Keeps

variable {s u : State}

/-- A change of any other field, and of poison marks that are cleared. -/
theorem upd_clear {c i f us sc g p he ca fl gr ti fa sp ob co cr fs tr pw se} {gs : List Nat} (h : Keeps s u) :
    Keeps s (State.mk c i f u.regs u.mem (clearGranules u.memPoison gs) us sc g p he ca fl gr ti fa sp ob co cr fs tr pw se u.pending) :=
  h.setPoison (fun hp => fcanon_clearGranules hp gs)

/-- A change of any other field, and of one poison mark that is cleared. -/
theorem upd_erase {c i f us sc g p he ca fl gr ti fa sp ob co cr fs tr pw se} {k : Nat} (h : Keeps s u) :
    Keeps s (State.mk c i f u.regs u.mem (ferase u.memPoison k) us sc g p he ca fl gr ti fa sp ob co cr fs tr pw se u.pending) :=
  h.setPoison (fun hp => fcanon_ferase hp k)

/-- A change of any other field, and of one poison mark. -/
theorem upd_set {c i f us sc g p he ca fl gr ti fa sp ob co cr fs tr pw se} {k : Nat} {b : Bool} (h : Keeps s u) :
    Keeps s (State.mk c i f u.regs u.mem (fsetD false u.memPoison k b) us sc g p he ca fl gr ti fa sp ob co cr fs tr pw se u.pending) :=
  h.setPoison (fun hp => fcanon_fsetD hp k b)

end Keeps

end Sys2Proof.Machine
end

