-- ==== Sys2Proof/Laws/KeepsOps.lean ====
section
/-!
SUPPORT. The operations of Ops keep the queue and the canonical form of the tables.
-/

namespace Sys2Proof.Machine

theorem regSet_keeps {z : State} (s : State) (r : Reg) (v : Word) (h : Keeps z s) : Keeps z (regSet s r v) := by
  refine h.setReg fun hs => ?_
  split
  · exact fsorted_ferase hs _
  · exact fsorted_finsert hs _ _

theorem regPut_keeps {z : State} (s : State) (n : RegName) (i k v : Nat) (hz : Keeps z s) :
    Keeps z (regPut s n i k v) := by
  unfold regPut; try dsimp only
  repeat' (first | with_reducible assumption | with_reducible apply regSet_keeps | (intro _ _ _) | (intro _ _) | (intro _) | split | with_reducible apply Keeps.upd)

theorem regPutF_keeps {z : State} (s : State) (n : RegName) (i k lo w v : Nat) (hz : Keeps z s) :
    Keeps z (regPutF s n i k lo w v) := by
  unfold regPutF; try dsimp only
  repeat' (first | with_reducible assumption | with_reducible apply regPut_keeps | (intro _ _ _) | (intro _ _) | (intro _) | split | with_reducible apply Keeps.upd)

theorem bumpBy_keeps {z : State} (s : State) (n : RegName) (i k by_ : Nat) (hz : Keeps z s) :
    Keeps z (bumpBy s n i k by_) := by
  unfold bumpBy; try dsimp only
  repeat' (first | with_reducible assumption | with_reducible apply regPut_keeps | (intro _ _ _) | (intro _ _) | (intro _) | split | with_reducible apply Keeps.upd)

theorem bump_keeps {z : State} (s : State) (n : RegName) (i k : Nat) (hz : Keeps z s) :
    Keeps z (bump s n i k) := by
  unfold bump; try dsimp only
  repeat' (first | with_reducible assumption | with_reducible apply bumpBy_keeps | (intro _ _ _) | (intro _ _) | (intro _) | split | with_reducible apply Keeps.upd)

theorem obsAdd_keeps {z : State} (s : State) (cls idx n : Nat) (hz : Keeps z s) :
    Keeps z (obsAdd s cls idx n) := by
  unfold obsAdd; try dsimp only
  repeat' (first | with_reducible assumption | (intro _ _ _) | (intro _ _) | (intro _) | split | with_reducible apply Keeps.upd)

theorem bumpCe_keeps {z : State} (s : State) (n : RegName) (i k by_ : Nat) (hz : Keeps z s) :
    Keeps z (bumpCe s n i k by_) := by
  unfold bumpCe; try dsimp only
  repeat' (first | with_reducible assumption | with_reducible apply obsAdd_keeps | with_reducible apply bumpBy_keeps | (intro _ _ _) | (intro _ _) | (intro _) | split | with_reducible apply Keeps.upd)

theorem bumpUe_keeps {z : State} (s : State) (n : RegName) (i k : Nat) (hz : Keeps z s) :
    Keeps z (bumpUe s n i k) := by
  unfold bumpUe; try dsimp only
  repeat' (first | with_reducible assumption | with_reducible apply obsAdd_keeps | with_reducible apply bump_keeps | (intro _ _ _) | (intro _ _) | (intro _) | split | with_reducible apply Keeps.upd)

theorem freeBits_keeps {z : State} (s : State) (w : Nat) (hz : Keeps z s) :
    Keeps z (freeBits s w).2 := by
  unfold freeBits; try dsimp only
  repeat' (first | with_reducible assumption | (dsimp only) | (intro _ _ _) | (intro _ _) | (intro _) | split | with_reducible apply Keeps.upd)

theorem notePc_keeps {z : State} (s : State) (g : Nat) (ue : Bool) (hz : Keeps z s) :
    Keeps z (notePc s g ue) := by
  unfold notePc; try dsimp only
  repeat' (first | with_reducible assumption | (intro _ _ _) | (intro _ _) | (intro _) | split | with_reducible apply Keeps.upd)

theorem countCe_keeps {z : State} (s : State) (g : Nat) (hz : Keeps z s) :
    Keeps z (countCe s g) := by
  unfold countCe; try dsimp only
  repeat' (first | with_reducible assumption | with_reducible apply bumpCe_keeps | with_reducible apply bumpBy_keeps | with_reducible apply notePc_keeps | (intro _ _ _) | (intro _ _) | (intro _) | split | with_reducible apply Keeps.upd)

theorem meetUpset_keeps {z : State} (s : State) (g : Nat) (h : Keeps z s) : Keeps z (meetUpset s g) := by
  unfold meetUpset
  split
  · exact h
  · exact countCe_keeps _ _ h.upd
  · exact h.upd_set

theorem storeAt_keeps {z : State} (s : State) (a : Nat) (bs : Bytes) (h : Keeps z s) : Keeps z (storeAt s a bs) := by
  unfold storeAt
  have h1 := Keeps.foldl (l := partGranules a bs.length) h (fun t g ht => meetUpset_keeps t g ht)
  exact (h1.setMem (fun hm => fcanon_memPut hm a bs) (fun hp => fcanon_clearGranules hp _)).upd

theorem heartStore_keeps {z : State} (s : State) (a : Nat) (bs : Bytes) (hz : Keeps z s) :
    Keeps z (heartStore s a bs) := by
  unfold heartStore; try dsimp only
  repeat' (first | with_reducible assumption | with_reducible apply storeAt_keeps | (intro _ _ _) | (intro _ _) | (intro _) | split | with_reducible apply Keeps.upd)

theorem rebuildLine_keeps {z : State} (s : State) (a : Nat) (hz : Keeps z s) :
    Keeps z (rebuildLine s a) := by
  unfold rebuildLine; try dsimp only
  repeat' (first | with_reducible assumption | with_reducible apply bump_keeps | (intro _ _ _) | (intro _ _) | (intro _) | split | with_reducible apply Keeps.upd)

theorem lineWr_keeps {z : State} (s : State) (a : Nat) (bs : Bytes) (hz : Keeps z s) :
    Keeps z (lineWr s a bs) := by
  unfold lineWr; try dsimp only
  repeat' (first | with_reducible assumption | with_reducible apply heartStore_keeps | with_reducible apply rebuildLine_keeps | with_reducible apply storeAt_keeps | (intro _ _ _) | (intro _ _) | (intro _) | split | with_reducible apply Keeps.upd)

theorem memWrLines_keeps {z : State} (s : State) (a : Nat) (bs : Bytes) (fuel : Nat) (hz : Keeps z s) :
    Keeps z (memWrLines s a bs fuel) := by
  induction fuel generalizing s a bs with
  | zero =>
    unfold memWrLines; try dsimp only
    repeat' (first | (cases ‹_ + 1 = _ + 1›) | with_reducible assumption | with_reducible apply lineWr_keeps | with_reducible apply ih | (intro _ _ _) | (intro _ _) | (intro _) | split | with_reducible apply Keeps.upd)
  | succ n ih =>
    unfold memWrLines; try dsimp only
    repeat' (first | (cases ‹_ + 1 = _ + 1›) | with_reducible assumption | with_reducible apply lineWr_keeps | with_reducible apply ih | (intro _ _ _) | (intro _ _) | (intro _) | split | with_reducible apply Keeps.upd)

theorem countHbm_keeps {z : State} (s : State) (a n : Nat) (hz : Keeps z s) :
    Keeps z (countHbm s a n) := by
  unfold countHbm; try dsimp only
  repeat' (first | with_reducible assumption | with_reducible apply obsAdd_keeps | (intro _ _ _) | (intro _ _) | (intro _) | split | with_reducible apply Keeps.upd)

theorem memWr_keeps {z : State} (s : State) (a : Nat) (bs : Bytes) (hz : Keeps z s) :
    Keeps z (memWr s a bs) := by
  unfold memWr; try dsimp only
  repeat' (first | with_reducible assumption | with_reducible apply memWrLines_keeps | with_reducible apply countHbm_keeps | (intro _ _ _) | (intro _ _) | (intro _) | split | with_reducible apply Keeps.upd)

theorem taintGranule_keeps {z : State} (s : State) (g : Nat) (h : Keeps z s) : Keeps z (taintGranule s g) := h.upd_set

theorem memTaint_keeps {z : State} (s : State) (a n : Nat) (hz : Keeps z s) :
    Keeps z (memTaint s a n) := by
  unfold memTaint; try dsimp only
  repeat' (first | with_reducible assumption | with_reducible apply taintGranule_keeps | with_reducible apply Keeps.foldl | with_reducible apply Keeps.foldl_snd | with_reducible apply Keeps.foldl_fst | with_reducible apply Keeps.foldl_snd_snd | (intro _ _ _) | (intro _ _) | (intro _) | split | with_reducible apply Keeps.upd)

theorem countRingUe_keeps {z : State} (s : State) (g : Nat) (hz : Keeps z s) :
    Keeps z (countRingUe s g) := by
  unfold countRingUe; try dsimp only
  repeat' (first | with_reducible assumption | with_reducible apply bumpUe_keeps | with_reducible apply bump_keeps | with_reducible apply regPut_keeps | (intro _ _ _) | (intro _ _) | (intro _) | split | with_reducible apply Keeps.upd)

theorem countUe_keeps {z : State} (s : State) (g : Nat) (hz : Keeps z s) :
    Keeps z (countUe s g) := by
  unfold countUe; try dsimp only
  repeat' (first | with_reducible assumption | with_reducible apply countRingUe_keeps | with_reducible apply notePc_keeps | with_reducible apply bumpUe_keeps | (intro _ _ _) | (intro _ _) | (intro _) | split | with_reducible apply Keeps.upd)

theorem touchGranule_keeps {z : State} (s : State) (g : Nat) (hz : Keeps z s) :
    Keeps z (touchGranule s g) := by
  unfold touchGranule; try dsimp only
  repeat' (first | with_reducible assumption | with_reducible apply meetUpset_keeps | with_reducible apply countUe_keeps | with_reducible apply bump_keeps | with_reducible apply storeAt_keeps | with_reducible apply notePc_keeps | (intro _ _ _) | (intro _ _) | (intro _) | split | with_reducible apply Keeps.upd)

theorem memTouch_keeps {z : State} (s : State) (a n : Nat) (hz : Keeps z s) :
    Keeps z (memTouch s a n) := by
  unfold memTouch; try dsimp only
  repeat' (first | with_reducible assumption | with_reducible apply touchGranule_keeps | with_reducible apply countHbm_keeps | with_reducible apply rebuildLine_keeps | with_reducible apply Keeps.foldl | with_reducible apply Keeps.foldl_snd | with_reducible apply Keeps.foldl_fst | with_reducible apply Keeps.foldl_snd_snd | (intro _ _ _) | (intro _ _) | (intro _) | split | with_reducible apply Keeps.upd)

theorem busRead_keeps {z : State} (s : State) (a n : Nat) (hz : Keeps z s) :
    Keeps z (busRead s a n).2.2 := by
  unfold busRead; try dsimp only
  repeat' (first | with_reducible assumption | with_reducible apply memTouch_keeps | (dsimp only) | (intro _ _ _) | (intro _ _) | (intro _) | split | with_reducible apply Keeps.upd)

theorem busWrite_keeps {z : State} (s : State) (a : Nat) (bs : Bytes) (poison : Bool) (hz : Keeps z s) :
    Keeps z (busWrite s a bs poison) := by
  unfold busWrite; try dsimp only
  repeat' (first | with_reducible assumption | with_reducible apply memWr_keeps | with_reducible apply memTaint_keeps | with_reducible apply bumpBy_keeps | (intro _ _ _) | (intro _ _) | (intro _) | split | with_reducible apply Keeps.upd)

theorem heatSettle_keeps {z : State} (s : State) (st : Nat) (hz : Keeps z s) :
    Keeps z (heatSettle s st) := by
  unfold heatSettle; try dsimp only
  repeat' (first | with_reducible assumption | with_reducible apply regPut_keeps | (intro _ _ _) | (intro _ _) | (intro _) | split | with_reducible apply Keeps.upd)

theorem throttleSettle_keeps {z : State} (s : State) (hz : Keeps z s) :
    Keeps z (throttleSettle s) := by
  unfold throttleSettle; try dsimp only
  repeat' (first | with_reducible assumption | with_reducible apply regPut_keeps | (intro _ _ _) | (intro _ _) | (intro _) | split | with_reducible apply Keeps.upd)

theorem scrubPassOf_keeps {z : State} (s : State) (key first now : Nat) (ticks : Nat → Nat) (hz : Keeps z s) :
    Keeps z (scrubPassOf s key first now ticks).2 := by
  unfold scrubPassOf; try dsimp only
  repeat' (first | with_reducible assumption | (dsimp only) | (intro _ _ _) | (intro _ _) | (intro _) | split | with_reducible apply Keeps.upd)

theorem scrubPass_keeps {z : State} (s : State) (key : Nat) (r : Reg) (ticks : Nat → Nat) (hz : Keeps z s) :
    Keeps z (scrubPass s key r ticks).2 := by
  unfold scrubPass; try dsimp only
  repeat' (first | with_reducible assumption | with_reducible apply scrubPassOf_keeps | with_reducible refine Keeps.of_snd (by with_reducible assumption) ?_ | (dsimp only) | (intro _ _ _) | (intro _ _) | (intro _) | split | with_reducible apply Keeps.upd)

theorem upsetGranules_keeps {z : State} (s : State) (ce ue : List Nat) (hz : Keeps z s) :
    Keeps z (upsetGranules s ce ue) := by
  unfold upsetGranules; try dsimp only
  repeat' (first | with_reducible assumption | with_reducible apply Keeps.foldl | with_reducible apply Keeps.foldl_snd | with_reducible apply Keeps.foldl_fst | with_reducible apply Keeps.foldl_snd_snd | (intro _ _ _) | (intro _ _) | (intro _) | split | with_reducible apply Keeps.upd)

theorem freeCells_keeps {z : State} (s : State) (cells : List Nat) (hz : Keeps z s) :
    Keeps z (freeCells s cells) := by
  unfold freeCells; try dsimp only
  repeat' (first | with_reducible assumption | with_reducible apply Keeps.foldl | with_reducible apply Keeps.foldl_snd | with_reducible apply Keeps.foldl_fst | with_reducible apply Keeps.foldl_snd_snd | (intro _ _ _) | (intro _ _) | (intro _) | split | with_reducible apply Keeps.upd)

theorem readCells_keeps {z : State} (s : State) (cells : List Nat) (hz : Keeps z s) :
    Keeps z (readCells s cells) := by
  unfold readCells; try dsimp only
  repeat' (first | with_reducible assumption | with_reducible apply touchGranule_keeps | with_reducible apply Keeps.foldl | with_reducible apply Keeps.foldl_snd | with_reducible apply Keeps.foldl_fst | with_reducible apply Keeps.foldl_snd_snd | (intro _ _ _) | (intro _ _) | (intro _) | split | with_reducible apply Keeps.upd)

theorem writeCells_keeps {z : State} (s : State) (cells : List Nat) (len : Nat) (hz : Keeps z s) :
    Keeps z (writeCells s cells len) := by
  unfold writeCells; try dsimp only
  repeat' (first | with_reducible assumption | with_reducible apply Keeps.upd_clear | with_reducible apply Keeps.upd_set | (intro _ _ _) | (intro _ _) | (intro _) | split | with_reducible apply Keeps.upd)

theorem takeSlice_keeps {z : State} (s : State) (lo hi who len : Nat) (hz : Keeps z s) :
    Keeps z (takeSlice s lo hi who len).2 := by
  unfold takeSlice; try dsimp only
  repeat' (first | with_reducible assumption | with_reducible apply writeCells_keeps | (dsimp only) | (intro _ _ _) | (intro _ _) | (intro _) | split | with_reducible apply Keeps.upd)

theorem queueSet_keeps {z : State} (s : State) (q : Nat) (v : SQueue) (hz : Keeps z s) :
    Keeps z (queueSet s q v) := by
  unfold queueSet; try dsimp only
  repeat' (first | with_reducible assumption | (intro _ _ _) | (intro _ _) | (intro _) | split | with_reducible apply Keeps.upd)

theorem queueFit_keeps {z : State} (s : State) (q : Nat) (v : SQueue) (drop : Nat) (hz : Keeps z s) :
    Keeps z (queueFit s q v drop) := by
  unfold queueFit; try dsimp only
  repeat' (first | with_reducible assumption | with_reducible apply freeCells_keeps | with_reducible apply queueSet_keeps | (intro _ _ _) | (intro _ _) | (intro _) | split | with_reducible apply Keeps.upd)

theorem queueRewindPacket_keeps {z : State} (s : State) (q : Nat) (learn counted : Bool) (hz : Keeps z s) :
    Keeps z (queueRewindPacket s q learn counted) := by
  unfold queueRewindPacket; try dsimp only
  repeat' (first | with_reducible assumption | with_reducible apply queueFit_keeps | with_reducible apply bump_keeps | (intro _ _ _) | (intro _ _) | (intro _) | split | with_reducible apply Keeps.upd)

theorem queueOpen_keeps {z : State} (s : State) (q n : Nat) (discard : Bool) (hz : Keeps z s) :
    Keeps z (queueOpen s q n discard).2 := by
  unfold queueOpen; try dsimp only
  repeat' (first | with_reducible assumption | with_reducible apply queueSet_keeps | with_reducible apply bump_keeps | (dsimp only) | (intro _ _ _) | (intro _ _) | (intro _) | split | with_reducible apply Keeps.upd)

theorem pushedGranule_keeps {z : State} (s : State) (q : Nat) (hz : Keeps z s) :
    Keeps z (pushedGranule s q) := by
  unfold pushedGranule; try dsimp only
  repeat' (first | with_reducible assumption | with_reducible apply Keeps.upd_clear | with_reducible apply Keeps.upd_set | with_reducible apply Keeps.upd_erase | (intro _ _ _) | (intro _ _) | (intro _) | split | with_reducible apply Keeps.upd)

theorem queuePush_keeps {z : State} (s : State) (q : Nat) (w : QWord) (hz : Keeps z s) :
    Keeps z (queuePush s q w).2 := by
  unfold queuePush; try dsimp only
  repeat' (first | with_reducible assumption | with_reducible apply queueSet_keeps | with_reducible apply queueRewindPacket_keeps | with_reducible apply pushedGranule_keeps | with_reducible apply queueFit_keeps | (dsimp only) | (intro _ _ _) | (intro _ _) | (intro _) | split | with_reducible apply Keeps.upd)

theorem queueCommit_keeps {z : State} (s : State) (q : Nat) (hz : Keeps z s) :
    Keeps z (queueCommit s q).2 := by
  unfold queueCommit; try dsimp only
  repeat' (first | with_reducible assumption | with_reducible apply queueSet_keeps | (dsimp only) | (intro _ _ _) | (intro _ _) | (intro _) | split | with_reducible apply Keeps.upd)

theorem queueAbort_keeps {z : State} (s : State) (q : Nat) (hz : Keeps z s) :
    Keeps z (queueAbort s q).2 := by
  unfold queueAbort; try dsimp only
  repeat' (first | with_reducible assumption | with_reducible apply queueSet_keeps | with_reducible apply queueRewindPacket_keeps | (dsimp only) | (intro _ _ _) | (intro _ _) | (intro _) | split | with_reducible apply Keeps.upd)

theorem queueSend_keeps {z : State} (s : State) (q : Nat) (ws : List QWord) (discard : Bool) (hz : Keeps z s) :
    Keeps z (queueSend s q ws discard).2 := by
  unfold queueSend; try dsimp only
  repeat' (first | with_reducible assumption | with_reducible apply queueOpen_keeps | with_reducible apply queueCommit_keeps | with_reducible apply queuePush_keeps | with_reducible refine Keeps.of_snd (by with_reducible assumption) ?_ | with_reducible apply Keeps.foldl | with_reducible apply Keeps.foldl_snd | with_reducible apply Keeps.foldl_fst | with_reducible apply Keeps.foldl_snd_snd | (dsimp only) | (intro _ _ _) | (intro _ _) | (intro _) | split | with_reducible apply Keeps.upd)

theorem loadHead_keeps {z : State} (s : State) (q : Nat) (hz : Keeps z s) :
    Keeps z (loadHead s q) := by
  unfold loadHead; try dsimp only
  repeat' (first | with_reducible assumption | with_reducible apply queueSet_keeps | with_reducible apply touchGranule_keeps | (intro _ _ _) | (intro _ _) | (intro _) | split | with_reducible apply Keeps.upd)

theorem fillHead_keeps {z : State} (s : State) (q n : Nat) (hz : Keeps z s) :
    Keeps z (fillHead s q n) := by
  unfold fillHead; try dsimp only
  repeat' (first | with_reducible assumption | with_reducible apply loadHead_keeps | with_reducible apply Keeps.foldl | with_reducible apply Keeps.foldl_snd | with_reducible apply Keeps.foldl_fst | with_reducible apply Keeps.foldl_snd_snd | (intro _ _ _) | (intro _ _) | (intro _) | split | with_reducible apply Keeps.upd)

theorem queueRead_keeps {z : State} (s : State) (q : Nat) (hz : Keeps z s) :
    Keeps z (queueRead s q).2 := by
  unfold queueRead; try dsimp only
  repeat' (first | with_reducible assumption | with_reducible apply loadHead_keeps | with_reducible apply queueSet_keeps | with_reducible apply bump_keeps | (dsimp only) | (intro _ _ _) | (intro _ _) | (intro _) | split | with_reducible apply Keeps.upd)

theorem queueMark_keeps {z : State} (s : State) (q : Nat) (hz : Keeps z s) :
    Keeps z (queueMark s q).2 := by
  unfold queueMark; try dsimp only
  repeat' (first | with_reducible assumption | with_reducible apply queueSet_keeps | (dsimp only) | (intro _ _ _) | (intro _ _) | (intro _) | split | with_reducible apply Keeps.upd)

theorem queueRewind_keeps {z : State} (s : State) (q : Nat) (hz : Keeps z s) :
    Keeps z (queueRewind s q).2 := by
  unfold queueRewind; try dsimp only
  repeat' (first | with_reducible assumption | with_reducible apply fillHead_keeps | with_reducible apply queueSet_keeps | (dsimp only) | (intro _ _ _) | (intro _ _) | (intro _) | split | with_reducible apply Keeps.upd)

theorem queueRelease_keeps {z : State} (s : State) (q : Nat) (hz : Keeps z s) :
    Keeps z (queueRelease s q).2 := by
  unfold queueRelease; try dsimp only
  repeat' (first | with_reducible assumption | with_reducible apply queueFit_keeps | (dsimp only) | (intro _ _ _) | (intro _ _) | (intro _) | split | with_reducible apply Keeps.upd)

theorem queueFlush_keeps {z : State} (s : State) (q : Nat) (hz : Keeps z s) :
    Keeps z (queueFlush s q) := by
  unfold queueFlush; try dsimp only
  repeat' (first | with_reducible assumption | with_reducible apply queueFit_keeps | (intro _ _ _) | (intro _ _) | (intro _) | split | with_reducible apply Keeps.upd)

theorem drainEvents_keeps {z : State} (s : State) (fuel : Nat) (hz : Keeps z s) :
    Keeps z (drainEvents s fuel) := by
  induction fuel generalizing s with
  | zero =>
    unfold drainEvents; try dsimp only
    repeat' (first | (cases ‹_ + 1 = _ + 1›) | with_reducible assumption | with_reducible apply memWr_keeps | with_reducible apply regPutF_keeps | with_reducible apply ih | (intro _ _ _) | (intro _ _) | (intro _) | split | with_reducible apply Keeps.upd)
  | succ n ih =>
    unfold drainEvents; try dsimp only
    repeat' (first | (cases ‹_ + 1 = _ + 1›) | with_reducible assumption | with_reducible apply memWr_keeps | with_reducible apply regPutF_keeps | with_reducible apply ih | (intro _ _ _) | (intro _ _) | (intro _) | split | with_reducible apply Keeps.upd)

theorem crownEvent_keeps {z : State} (s : State) (type : Nat) (body : Bytes) (hz : Keeps z s) :
    Keeps z (crownEvent s type body) := by
  unfold crownEvent; try dsimp only
  repeat' (first | with_reducible assumption | with_reducible apply drainEvents_keeps | with_reducible apply bump_keeps | (intro _ _ _) | (intro _ _) | (intro _) | split | with_reducible apply Keeps.upd)

theorem numberRecord_keeps {z : State} (s : State) (cls : Nat) (hz : Keeps z s) :
    Keeps z (numberRecord s cls).2 := by
  unfold numberRecord; try dsimp only
  repeat' (first | with_reducible assumption | (dsimp only) | (intro _ _ _) | (intro _ _) | (intro _) | split | with_reducible apply Keeps.upd)

theorem discardRecord_keeps {z : State} (s : State) (cls : Nat) (hz : Keeps z s) :
    Keeps z (discardRecord s cls) := by
  unfold discardRecord; try dsimp only
  repeat' (first | with_reducible assumption | with_reducible apply bump_keeps | (intro _ _ _) | (intro _ _) | (intro _) | split | with_reducible apply Keeps.upd)

theorem enqueueRecord_keeps {z : State} {s : State} {r : PushRecord} (hz : Keeps z s) {tz : State} (e : enqueueRecord s r = some tz) :
    Keeps z tz := by
  unfold enqueueRecord at e; try dsimp only at e
  repeat' (first | (cases e; done) | (injection e with e; subst e) | split at e | with_reducible assumption | with_reducible apply queueSend_keeps | with_reducible refine Keeps.of_snd (by with_reducible assumption) ?_ | (dsimp only) | (intro _ _ _) | (intro _ _) | (intro _) | split | with_reducible apply Keeps.upd)

theorem pushRecord_keeps {z : State} (s : State) (cls : Nat) (body : Bytes) (hz : Keeps z s) :
    Keeps z (pushRecord s cls body) := by
  unfold pushRecord; try dsimp only
  repeat' (first | with_reducible assumption | with_reducible apply numberRecord_keeps | with_reducible apply discardRecord_keeps | with_reducible refine enqueueRecord_keeps ?_ (by with_reducible assumption) | with_reducible refine Keeps.of_snd (by with_reducible assumption) ?_ | (dsimp only) | (intro _ _ _) | (intro _ _) | (intro _) | split | with_reducible apply Keeps.upd)

theorem retryStateEvents_keeps {z : State} (s : State) (fuel : Nat) (hz : Keeps z s) :
    Keeps z (retryStateEvents s fuel) := by
  induction fuel generalizing s with
  | zero =>
    unfold retryStateEvents; try dsimp only
    repeat' (first | (cases ‹_ + 1 = _ + 1›) | with_reducible assumption | with_reducible apply discardRecord_keeps | with_reducible refine enqueueRecord_keeps ?_ (by with_reducible assumption) | with_reducible apply ih | (intro _ _ _) | (intro _ _) | (intro _) | split | with_reducible apply Keeps.upd)
  | succ n ih =>
    unfold retryStateEvents; try dsimp only
    repeat' (first | (cases ‹_ + 1 = _ + 1›) | with_reducible assumption | with_reducible apply discardRecord_keeps | with_reducible refine enqueueRecord_keeps ?_ (by with_reducible assumption) | with_reducible apply ih | (intro _ _ _) | (intro _ _) | (intro _) | split | with_reducible apply Keeps.upd)

theorem stateEvent_keeps {z : State} (s : State) (hz : Keeps z s) :
    Keeps z (stateEvent s) := by
  unfold stateEvent; try dsimp only
  repeat' (first | with_reducible assumption | with_reducible apply pushRecord_keeps | (intro _ _ _) | (intro _ _) | (intro _) | split | with_reducible apply Keeps.upd)

theorem modesMod_keeps {z : State} (s : State) (f : Modes → Modes) (hz : Keeps z s) :
    Keeps z (modesMod s f) := by
  unfold modesMod; try dsimp only
  repeat' (first | with_reducible assumption | (intro _ _ _) | (intro _ _) | (intro _) | split | with_reducible apply Keeps.upd)

theorem auditAdd_keeps {z : State} (s : State) (rec_ : Bytes) (hz : Keeps z s) :
    Keeps z (auditAdd s rec_) := by
  unfold auditAdd; try dsimp only
  repeat' (first | with_reducible assumption | (intro _ _ _) | (intro _ _) | (intro _) | split | with_reducible apply Keeps.upd)

theorem auditEvent_keeps {z : State} (s : State) (event session : Nat) (data : Bytes) (hz : Keeps z s) :
    Keeps z (auditEvent s event session data) := by
  unfold auditEvent; try dsimp only
  repeat' (first | with_reducible assumption | with_reducible apply auditAdd_keeps | (intro _ _ _) | (intro _ _) | (intro _) | split | with_reducible apply Keeps.upd)

theorem appsFollow_keeps {z : State} (s : State) (d : DevState) (hz : Keeps z s) :
    Keeps z (appsFollow s d) := by
  unfold appsFollow; try dsimp only
  repeat' (first | with_reducible assumption | with_reducible apply regPutF_keeps | with_reducible apply Keeps.foldl | with_reducible apply Keeps.foldl_snd | with_reducible apply Keeps.foldl_fst | with_reducible apply Keeps.foldl_snd_snd | (intro _ _ _) | (intro _ _) | (intro _) | split | with_reducible apply Keeps.upd)

theorem enterState_keeps {z : State} (s : State) (d : DevState) (hz : Keeps z s) :
    Keeps z (enterState s d) := by
  unfold enterState; try dsimp only
  repeat' (first | with_reducible assumption | with_reducible apply appsFollow_keeps | with_reducible apply auditEvent_keeps | with_reducible apply stateEvent_keeps | (intro _ _ _) | (intro _ _) | (intro _) | split | with_reducible apply Keeps.upd)

end Sys2Proof.Machine
end

