-- ==== Sys2Proof/Laws/KeepsPorts.lean ====
section
/-!
SUPPORT. The operations of Ports keep the queue and the canonical form of the tables.
-/

namespace Sys2Proof.Machine
theorem setPortHeld_keeps {z : State} (s : State) (m n : Nat) (hz : Keeps z s) :
    Keeps z (setPortHeld s m n) := by
  unfold setPortHeld; try dsimp only
  repeat' (first | with_reducible assumption | (intro _ _ _) | (intro _ _) | (intro _) | split | with_reducible apply Keeps.upd)

theorem rxSet_keeps {z : State} (s : State) (m : Nat) (r : Option RxFrame) (hz : Keeps z s) :
    Keeps z (rxSet s m r) := by
  unfold rxSet; try dsimp only
  repeat' (first | with_reducible assumption | (intro _ _ _) | (intro _ _) | (intro _) | split | with_reducible apply Keeps.upd)

theorem dropReservation_keeps {z : State} (s : State) (m : Nat) (r : RxFrame) (hz : Keeps z s) :
    Keeps z (dropReservation s m r) := by
  unfold dropReservation; try dsimp only
  repeat' (first | with_reducible assumption | with_reducible apply setPortHeld_keeps | (intro _ _ _) | (intro _ _) | (intro _) | split | with_reducible apply Keeps.upd)

theorem frameStart_keeps {z : State} (s : State) (m : Nat) (hz : Keeps z s) :
    Keeps z (frameStart s m) := by
  unfold frameStart; try dsimp only
  repeat' (first | with_reducible assumption | with_reducible apply rxSet_keeps | with_reducible apply setPortHeld_keeps | with_reducible apply bump_keeps | (intro _ _ _) | (intro _ _) | (intro _) | split | with_reducible apply Keeps.upd)

theorem discardRx_keeps {z : State} (s : State) (m : Nat) (r : RxFrame) (n : RegName) (hz : Keeps z s) :
    Keeps z (discardRx s m r n) := by
  unfold discardRx; try dsimp only
  repeat' (first | with_reducible assumption | with_reducible apply rxSet_keeps | with_reducible apply bump_keeps | with_reducible apply dropReservation_keeps | (intro _ _ _) | (intro _ _) | (intro _) | split | with_reducible apply Keeps.upd)

theorem oversizeDiscard_keeps {z : State} (s : State) (m : Nat) (hz : Keeps z s) :
    Keeps z (oversizeDiscard s m) := by
  unfold oversizeDiscard; try dsimp only
  repeat' (first | with_reducible assumption | with_reducible apply discardRx_keeps | (intro _ _ _) | (intro _ _) | (intro _) | split | with_reducible apply Keeps.upd)

theorem truncateRx_keeps {z : State} (s : State) (m : Nat) (hz : Keeps z s) :
    Keeps z (truncateRx s m) := by
  unfold truncateRx; try dsimp only
  repeat' (first | with_reducible assumption | with_reducible apply bump_keeps | with_reducible apply dropReservation_keeps | with_reducible apply rxSet_keeps | (intro _ _ _) | (intro _ _) | (intro _) | split | with_reducible apply Keeps.upd)

theorem portLinkChange_keeps {z : State} (s : State) (m : Nat) (up : Bool) (hz : Keeps z s) :
    Keeps z (portLinkChange s m up) := by
  unfold portLinkChange; try dsimp only
  repeat' (first | with_reducible assumption | with_reducible apply truncateRx_keeps | (intro _ _ _) | (intro _ _) | (intro _) | split | with_reducible apply Keeps.upd)

theorem allLinksDown_keeps {z : State} (s : State) (hz : Keeps z s) :
    Keeps z (allLinksDown s) := by
  unfold allLinksDown; try dsimp only
  repeat' (first | with_reducible assumption | with_reducible apply portLinkChange_keeps | with_reducible apply Keeps.foldl | with_reducible apply Keeps.foldl_snd | with_reducible apply Keeps.foldl_fst | with_reducible apply Keeps.foldl_snd_snd | (intro _ _ _) | (intro _ _) | (intro _) | split | with_reducible apply Keeps.upd)

theorem portEnable_keeps {z : State} (s : State) (m : Nat) (hz : Keeps z s) :
    Keeps z (portEnable s m) := by
  unfold portEnable; try dsimp only
  repeat' (first | with_reducible assumption | (intro _ _ _) | (intro _ _) | (intro _) | split | with_reducible apply Keeps.upd)

theorem setHiSer_keeps {z : State} (s : State) (m : Nat) (on : Bool) (hz : Keeps z s) :
    Keeps z (setHiSer s m on) := by
  unfold setHiSer; try dsimp only
  repeat' (first | with_reducible assumption | (intro _ _ _) | (intro _ _) | (intro _) | split | with_reducible apply Keeps.upd)

theorem admitData_keeps {z : State} (s : State) (m : Nat) (b : Bytes) (r : RxFrame) (hz : Keeps z s) :
    Keeps z (admitData s m b r) := by
  unfold admitData; try dsimp only
  repeat' (first | with_reducible assumption | with_reducible apply setPortHeld_keeps | with_reducible apply writeCells_keeps | (intro _ _ _) | (intro _ _) | (intro _) | split | with_reducible apply Keeps.upd)

end Sys2Proof.Machine
end

