-- ==== Sys2Proof/Laws/KeepsCanopy.lean ====
section
/-!
SUPPORT. The operations of Canopy keep the queue and the canonical form of the tables.
-/

namespace Sys2Proof.Machine

theorem pktSet_keeps {z : State} (s : State) (k : Nat) (p : Packet) (hz : Keeps z s) :
    Keeps z (pktSet s k p) := by
  unfold pktSet; try dsimp only
  repeat' (first | with_reducible assumption | (intro _ _ _) | (intro _ _) | (intro _) | split | with_reducible apply Keeps.upd)


theorem pktLeave_keeps {z : State} (s : State) (k : Nat) (hz : Keeps z s) :
    Keeps z (pktLeave s k) := by
  unfold pktLeave; try dsimp only
  repeat' (first | with_reducible assumption | with_reducible apply freeCells_keeps | with_reducible apply setPortHeld_keeps | (intro _ _ _) | (intro _ _) | (intro _) | split | with_reducible apply Keeps.upd)

theorem tablePut_keeps {z : State} (s : State) (t b : Nat) (v : Option CanopyTable) (hz : Keeps z s) :
    Keeps z (tablePut s t b v) := by
  unfold tablePut; try dsimp only
  repeat' (first | with_reducible assumption | (intro _ _ _) | (intro _ _) | (intro _) | split | with_reducible apply Keeps.upd)

theorem appendEdit_keeps {z : State} (s : State) (p : Packet) (a : Nat) (hz : Keeps z s) :
    Keeps z (appendEdit s p a).1 := by
  unfold appendEdit; try dsimp only
  repeat' (first | with_reducible assumption | with_reducible apply bump_keeps | (dsimp only) | (intro _ _ _) | (intro _ _) | (intro _) | split | with_reducible apply Keeps.upd)

theorem applyAct_keeps {z : State} (second : Bool) (sp : State × Packet) (a : Nat) (hz : Keeps z sp.1) :
    Keeps z (applyAct second sp a).1 := by
  unfold applyAct; try dsimp only
  repeat' (first | with_reducible assumption | with_reducible apply bump_keeps | with_reducible apply appendEdit_keeps | with_reducible refine Keeps.of_fst (by with_reducible assumption) ?_ | (dsimp only) | (intro _ _ _) | (intro _ _) | (intro _) | split | with_reducible apply Keeps.upd)

theorem runTable_keeps {z : State} (second : Bool) (key : Option Nat) (t : Nat) (sp : State × Packet) (hz : Keeps z sp.1) :
    Keeps z (runTable second key t sp).1 := by
  unfold runTable; try dsimp only
  repeat' (first | with_reducible assumption | with_reducible apply applyAct_keeps | with_reducible apply bump_keeps | with_reducible refine Keeps.of_fst (by with_reducible assumption) ?_ | with_reducible apply Keeps.foldl | with_reducible apply Keeps.foldl_snd | with_reducible apply Keeps.foldl_fst | with_reducible apply Keeps.foldl_snd_snd | (dsimp only) | (intro _ _ _) | (intro _ _) | (intro _) | split | with_reducible apply Keeps.upd)

theorem runStage_keeps {z : State} (second : Bool) (sp : State × Packet) (n : Nat) (hz : Keeps z sp.1) :
    Keeps z (runStage second sp n).1 := by
  unfold runStage; try dsimp only
  repeat' (first | with_reducible assumption | with_reducible apply runTable_keeps | with_reducible refine Keeps.of_fst (by with_reducible assumption) ?_ | (dsimp only) | (intro _ _ _) | (intro _ _) | (intro _) | split | with_reducible apply Keeps.upd)

theorem runStages_keeps {z : State} (second : Bool) (sp : State × Packet) (ns : List Nat) (hz : Keeps z sp.1) :
    Keeps z (runStages second sp ns).1 := by
  unfold runStages; try dsimp only
  repeat' (first | with_reducible assumption | with_reducible apply runStage_keeps | with_reducible refine Keeps.of_fst (by with_reducible assumption) ?_ | with_reducible apply Keeps.foldl | with_reducible apply Keeps.foldl_snd | with_reducible apply Keeps.foldl_fst | with_reducible apply Keeps.foldl_snd_snd | (dsimp only) | (intro _ _ _) | (intro _ _) | (intro _) | split | with_reducible apply Keeps.upd)

theorem mirrorCopy_keeps {z : State} (s : State) (p : Packet) (i : Nat) (hz : Keeps z s) :
    Keeps z (mirrorCopy s p i) := by
  unfold mirrorCopy; try dsimp only
  repeat' (first | with_reducible assumption | (intro _ _ _) | (intro _ _) | (intro _) | split | with_reducible apply Keeps.upd)

theorem mirrorCopies_keeps {z : State} (s : State) (p : Packet) (hz : Keeps z s) :
    Keeps z (mirrorCopies s p) := by
  unfold mirrorCopies; try dsimp only
  repeat' (first | with_reducible assumption | with_reducible apply mirrorCopy_keeps | with_reducible apply Keeps.foldl | with_reducible apply Keeps.foldl_snd | with_reducible apply Keeps.foldl_fst | with_reducible apply Keeps.foldl_snd_snd | (intro _ _ _) | (intro _ _) | (intro _) | split | with_reducible apply Keeps.upd)

theorem ruleDefine_keeps {z : State} (s : State) (t : Nat) (item : Bytes) (hz : Keeps z s) :
    Keeps z (ruleDefine s t item).2 := by
  unfold ruleDefine; try dsimp only
  repeat' (first | with_reducible assumption | with_reducible apply tablePut_keeps | (dsimp only) | (intro _ _ _) | (intro _ _) | (intro _) | split | with_reducible apply Keeps.upd)

theorem ruleInsert_keeps {z : State} (s : State) (t : Nat) (item : Bytes) (hz : Keeps z s) :
    Keeps z (ruleInsert s t item).2 := by
  unfold ruleInsert; try dsimp only
  repeat' (first | with_reducible assumption | with_reducible apply tablePut_keeps | (dsimp only) | (intro _ _ _) | (intro _ _) | (intro _) | split | with_reducible apply Keeps.upd)

theorem ruleDelete_keeps {z : State} (s : State) (t : Nat) (item : Bytes) (hz : Keeps z s) :
    Keeps z (ruleDelete s t item).2 := by
  unfold ruleDelete; try dsimp only
  repeat' (first | with_reducible assumption | with_reducible apply tablePut_keeps | (dsimp only) | (intro _ _ _) | (intro _ _) | (intro _) | split | with_reducible apply Keeps.upd)

theorem ruleSetDefault_keeps {z : State} (s : State) (t : Nat) (item : Bytes) (hz : Keeps z s) :
    Keeps z (ruleSetDefault s t item).2 := by
  unfold ruleSetDefault; try dsimp only
  repeat' (first | with_reducible assumption | with_reducible apply tablePut_keeps | (dsimp only) | (intro _ _ _) | (intro _ _) | (intro _) | split | with_reducible apply Keeps.upd)

theorem ruleUndefine_keeps {z : State} (s : State) (t : Nat) (hz : Keeps z s) :
    Keeps z (ruleUndefine s t).2 := by
  unfold ruleUndefine; try dsimp only
  repeat' (first | with_reducible assumption | with_reducible apply tablePut_keeps | (dsimp only) | (intro _ _ _) | (intro _ _) | (intro _) | split | with_reducible apply Keeps.upd)

theorem ruleItem_keeps {z : State} (s : State) (t op : Nat) (item : Bytes) (hz : Keeps z s) :
    Keeps z (ruleItem s t op item).2 := by
  unfold ruleItem; try dsimp only
  repeat' (first | with_reducible assumption | with_reducible apply ruleDefine_keeps | with_reducible apply ruleInsert_keeps | with_reducible apply ruleDelete_keeps | with_reducible apply ruleSetDefault_keeps | with_reducible refine Keeps.of_snd (by with_reducible assumption) ?_ | (dsimp only) | (intro _ _ _) | (intro _ _) | (intro _) | split | with_reducible apply Keeps.upd)

theorem ruleItems_keeps {z : State} (s : State) (t op : Nat) (items : List Bytes) (hz : Keeps z s) :
    Keeps z (ruleItems s t op items).2 := by
  induction items generalizing s t op with
  | nil =>
    unfold ruleItems; try dsimp only
    repeat' (first | (cases ‹_ + 1 = _ + 1›) | with_reducible assumption | with_reducible apply ruleItem_keeps | with_reducible apply ih | with_reducible refine Keeps.of_snd (by with_reducible assumption) ?_ | (dsimp only) | (intro _ _ _) | (intro _ _) | (intro _) | split | with_reducible apply Keeps.upd)
  | cons x l ih =>
    unfold ruleItems; try dsimp only
    repeat' (first | (cases ‹_ + 1 = _ + 1›) | with_reducible assumption | with_reducible apply ruleItem_keeps | with_reducible apply ih | with_reducible refine Keeps.of_snd (by with_reducible assumption) ?_ | (dsimp only) | (intro _ _ _) | (intro _ _) | (intro _) | split | with_reducible apply Keeps.upd)

theorem ruleWrite_keeps {z : State} (s : State) (b : Bytes) (hz : Keeps z s) :
    Keeps z (ruleWrite s b).2 := by
  unfold ruleWrite; try dsimp only
  repeat' (first | with_reducible assumption | with_reducible apply ruleUndefine_keeps | with_reducible apply ruleItems_keeps | with_reducible refine Keeps.of_snd (by with_reducible assumption) ?_ | (dsimp only) | (intro _ _ _) | (intro _ _) | (intro _) | split | with_reducible apply Keeps.upd)

theorem ruleSwap_keeps {z : State} (s : State) (mask : Nat) (hz : Keeps z s) :
    Keeps z (ruleSwap s mask) := by
  unfold ruleSwap; try dsimp only
  repeat' (first | with_reducible assumption | (intro _ _ _) | (intro _ _) | (intro _) | split | with_reducible apply Keeps.upd)

end Sys2Proof.Machine
end

