-- ==== Sys2Proof/Laws/KeepsLegal.lean ====
section
/-!
SUPPORT. The operations of Legal keep the queue and the canonical form of the tables.
-/

namespace Sys2Proof.Machine

theorem answerNow_keeps {z : State} (s : State) (f : CmdFrame) (key : Bytes) (role slot : Nat) (w : ExecWait) (hz : Keeps z s) :
    Keeps z (answerNow s f key role slot w) := by
  unfold answerNow; try dsimp only
  repeat' (first | with_reducible assumption | (intro _ _ _) | (intro _ _) | (intro _) | split | with_reducible apply Keeps.upd)

end Sys2Proof.Machine
end

