-- ==== Sys2Proof/Laws/KeepsObserve.lean ====
section
/-!
SUPPORT. The operations of Observe keep the queue and the canonical form of the tables.
-/

namespace Sys2Proof.Machine
theorem recovery_keeps {z : State} (s : State) (hz : Keeps z s) :
    Keeps z (recovery s) := by
  unfold recovery; try dsimp only
  repeat' (first | with_reducible assumption | with_reducible apply obsAdd_keeps | (intro _ _ _) | (intro _ _) | (intro _) | split | with_reducible apply Keeps.upd)

theorem coreCount_keeps {z : State} (s : State) (k ctx idx n : Nat) (hz : Keeps z s) :
    Keeps z (coreCount s k ctx idx n) := by
  unfold coreCount; try dsimp only
  repeat' (first | with_reducible assumption | (intro _ _ _) | (intro _ _) | (intro _) | split | with_reducible apply Keeps.upd)

theorem takeCount_keeps {z : State} (s : State) (key n : Nat) (hz : Keeps z s) :
    Keeps z (takeCount s key n) := by
  unfold takeCount; try dsimp only
  repeat' (first | with_reducible assumption | (intro _ _ _) | (intro _ _) | (intro _) | split | with_reducible apply Keeps.upd)

theorem countSend_keeps {z : State} (s : State) (k : Nat) (hz : Keeps z s) :
    Keeps z (countSend s k) := by
  unfold countSend; try dsimp only
  repeat' (first | with_reducible assumption | with_reducible apply takeCount_keeps | with_reducible apply Keeps.foldl | with_reducible apply Keeps.foldl_snd | with_reducible apply Keeps.foldl_fst | with_reducible apply Keeps.foldl_snd_snd | (intro _ _ _) | (intro _ _) | (intro _) | split | with_reducible apply Keeps.upd)

theorem setBoundary_keeps {z : State} (s : State) (j : Nat) (hz : Keeps z s) :
    Keeps z (setBoundary s j) := by
  unfold setBoundary; try dsimp only
  repeat' (first | with_reducible assumption | (intro _ _ _) | (intro _ _) | (intro _) | split | with_reducible apply Keeps.upd)

theorem contextBoundary_keeps {z : State} (s : State) (ctx : Nat) (hz : Keeps z s) :
    Keeps z (contextBoundary s ctx) := by
  unfold contextBoundary; try dsimp only
  repeat' (first | with_reducible assumption | with_reducible apply countSend_keeps | with_reducible apply setBoundary_keeps | with_reducible apply Keeps.foldl | with_reducible apply Keeps.foldl_snd | with_reducible apply Keeps.foldl_fst | with_reducible apply Keeps.foldl_snd_snd | (intro _ _ _) | (intro _ _) | (intro _) | split | with_reducible apply Keeps.upd)

theorem nextRseq_keeps {z : State} (s : State) (source : Nat) (hz : Keeps z s) :
    Keeps z (nextRseq s source).2 := by
  unfold nextRseq; try dsimp only
  repeat' (first | with_reducible assumption | (dsimp only) | (intro _ _ _) | (intro _ _) | (intro _) | split | with_reducible apply Keeps.upd)

theorem traceNumber_keeps {z : State} (s : State) (hz : Keeps z s) :
    Keeps z (traceNumber s).2 := by
  unfold traceNumber; try dsimp only
  repeat' (first | with_reducible assumption | with_reducible apply numberRecord_keeps | with_reducible refine Keeps.of_snd (by with_reducible assumption) ?_ | (dsimp only) | (intro _ _ _) | (intro _ _) | (intro _) | split | with_reducible apply Keeps.upd)

theorem traceEnter_keeps {z : State} (s : State) (bytes : Bytes) (hz : Keeps z s) :
    Keeps z (traceEnter s bytes) := by
  unfold traceEnter; try dsimp only
  repeat' (first | with_reducible assumption | with_reducible apply traceNumber_keeps | with_reducible refine Keeps.of_snd (by with_reducible assumption) ?_ | with_reducible apply Keeps.upd_clear | with_reducible apply Keeps.upd_set | (dsimp only) | (intro _ _ _) | (intro _ _) | (intro _) | split | with_reducible apply Keeps.upd)

theorem traceDrop_keeps {z : State} (s : State) (hz : Keeps z s) :
    Keeps z (traceDrop s) := by
  unfold traceDrop; try dsimp only
  repeat' (first | with_reducible assumption | with_reducible apply traceNumber_keeps | with_reducible apply bump_keeps | with_reducible refine Keeps.of_snd (by with_reducible assumption) ?_ | (dsimp only) | (intro _ _ _) | (intro _ _) | (intro _) | split | with_reducible apply Keeps.upd)

theorem traceEmit_keeps {z : State} (s : State) (rtype source : Nat) (body : Bytes) (hz : Keeps z s) :
    Keeps z (traceEmit s rtype source body) := by
  unfold traceEmit; try dsimp only
  repeat' (first | with_reducible assumption | with_reducible apply nextRseq_keeps | with_reducible apply traceDrop_keeps | with_reducible apply traceEnter_keeps | with_reducible refine Keeps.of_snd (by with_reducible assumption) ?_ | (dsimp only) | (intro _ _ _) | (intro _ _) | (intro _) | split | with_reducible apply Keeps.upd)

theorem requestStop_keeps {z : State} (s : State) (cause : Nat) (hz : Keeps z s) :
    Keeps z (requestStop s cause) := by
  unfold requestStop; try dsimp only
  repeat' (first | with_reducible assumption | with_reducible apply bump_keeps | (intro _ _ _) | (intro _ _) | (intro _) | split | with_reducible apply Keeps.upd)

theorem debugTrigger_keeps {z : State} (s : State) (hz : Keeps z s) :
    Keeps z (debugTrigger s) := by
  unfold debugTrigger; try dsimp only
  repeat' (first | with_reducible assumption | with_reducible apply requestStop_keeps | (intro _ _ _) | (intro _ _) | (intro _) | split | with_reducible apply Keeps.upd)

theorem excTrigger_keeps {z : State} (s : State) (code : Nat) (hz : Keeps z s) :
    Keeps z (excTrigger s code) := by
  unfold excTrigger; try dsimp only
  repeat' (first | with_reducible assumption | with_reducible apply requestStop_keeps | (intro _ _ _) | (intro _ _) | (intro _) | split | with_reducible apply Keeps.upd)

end Sys2Proof.Machine
end

