-- ==== Sys2Proof/Laws/KeepsTranslation.lean ====
section
/-!
SUPPORT. The operations of Translation keep the queue and the canonical form of the tables.
-/

namespace Sys2Proof.Machine
theorem coreSet_keeps {z : State} (s : State) (k : Nat) (c : CoreSt) (hz : Keeps z s) :
    Keeps z (coreSet s k c) := by
  unfold coreSet; try dsimp only
  repeat' (first | with_reducible assumption | (intro _ _ _) | (intro _ _) | (intro _) | split | with_reducible apply Keeps.upd)

theorem coreMod_keeps {z : State} (s : State) (k : Nat) (f : CoreSt → CoreSt) (hz : Keeps z s) :
    Keeps z (coreMod s k f) := by
  unfold coreMod; try dsimp only
  repeat' (first | with_reducible assumption | with_reducible apply coreSet_keeps | (intro _ _ _) | (intro _ _) | (intro _) | split | with_reducible apply Keeps.upd)

theorem hcSet_keeps {z : State} (s : State) (k h : Nat) (x : Option Hc) (hz : Keeps z s) :
    Keeps z (hcSet s k h x) := by
  unfold hcSet; try dsimp only
  repeat' (first | with_reducible assumption | with_reducible apply coreMod_keeps | (intro _ _ _) | (intro _ _) | (intro _) | split | with_reducible apply Keeps.upd)

theorem hcMod_keeps {z : State} (s : State) (k h : Nat) (f : Hc → Hc) (hz : Keeps z s) :
    Keeps z (hcMod s k h f) := by
  unfold hcMod; try dsimp only
  repeat' (first | with_reducible assumption | with_reducible apply hcSet_keeps | (intro _ _ _) | (intro _ _) | (intro _) | split | with_reducible apply Keeps.upd)

theorem unitSet_keeps {z : State} (s : State) (u : Nat) (x : XltUnit) (hz : Keeps z s) :
    Keeps z (unitSet s u x) := by
  unfold unitSet; try dsimp only
  repeat' (first | with_reducible assumption | (intro _ _ _) | (intro _ _) | (intro _) | split | with_reducible apply Keeps.upd)

theorem countXlt_keeps {z : State} (s : State) (u : Nat) (n : RegName) (hz : Keeps z s) :
    Keeps z (countXlt s u n) := by
  unfold countXlt; try dsimp only
  repeat' (first | with_reducible assumption | with_reducible apply bump_keeps | (intro _ _ _) | (intro _ _) | (intro _) | split | with_reducible apply Keeps.upd)

theorem walkFrom_keeps {z : State} (s : State) (u ctx va : Nat) (need : Need) (t lv fuel : Nat) (hz : Keeps z s) :
    Keeps z (walkFrom s u ctx va need t lv fuel).2 := by
  induction fuel generalizing s u ctx va need t lv with
  | zero =>
    unfold walkFrom; try dsimp only
    repeat' (first | (cases ‹_ + 1 = _ + 1›) | with_reducible assumption | with_reducible apply memTouch_keeps | with_reducible apply countXlt_keeps | with_reducible apply unitSet_keeps | with_reducible apply ih | with_reducible refine Keeps.of_snd (by with_reducible assumption) ?_ | (dsimp only) | (intro _ _ _) | (intro _ _) | (intro _) | split | with_reducible apply Keeps.upd)
  | succ n ih =>
    unfold walkFrom; try dsimp only
    repeat' (first | (cases ‹_ + 1 = _ + 1›) | with_reducible assumption | with_reducible apply memTouch_keeps | with_reducible apply countXlt_keeps | with_reducible apply unitSet_keeps | with_reducible apply ih | with_reducible refine Keeps.of_snd (by with_reducible assumption) ?_ | (dsimp only) | (intro _ _ _) | (intro _ _) | (intro _) | split | with_reducible apply Keeps.upd)

theorem walkSpace_keeps {z : State} (s : State) (u ctx va : Nat) (need : Need) (hz : Keeps z s) :
    Keeps z (walkSpace s u ctx va need).2 := by
  unfold walkSpace
  extract_lets a s1 e
  have h1 : Keeps z s1 := memTouch_keeps _ _ _ hz
  clear_value s1 a e
  split
  · exact countXlt_keeps _ _ _ h1
  · split
    · exact h1
    · split
      · exact h1
      · exact walkFrom_keeps _ _ _ _ _ _ _ _ h1

theorem translate_keeps {z : State} (s : State) (u ctx va : Nat) (need : Need) (hz : Keeps z s) :
    Keeps z (translate s u ctx va need).2 := by
  unfold translate; try dsimp only
  repeat' (first | with_reducible assumption | with_reducible apply unitSet_keeps | with_reducible apply countXlt_keeps | with_reducible apply walkFrom_keeps | with_reducible apply walkSpace_keeps | with_reducible refine Keeps.of_snd (by with_reducible assumption) ?_ | (dsimp only) | (intro _ _ _) | (intro _ _) | (intro _) | split | with_reducible apply Keeps.upd)

theorem drainFaults_keeps {z : State} (s : State) (k fuel : Nat) (hz : Keeps z s) :
    Keeps z (drainFaults s k fuel) := by
  induction fuel generalizing s k with
  | zero =>
    unfold drainFaults; try dsimp only
    repeat' (first | (cases ‹_ + 1 = _ + 1›) | with_reducible assumption | with_reducible apply memWr_keeps | with_reducible apply bump_keeps | with_reducible apply regPutF_keeps | with_reducible apply crownEvent_keeps | with_reducible apply coreMod_keeps | with_reducible apply ih | (intro _ _ _) | (intro _ _) | (intro _) | split | with_reducible apply Keeps.upd)
  | succ n ih =>
    unfold drainFaults; try dsimp only
    repeat' (first | (cases ‹_ + 1 = _ + 1›) | with_reducible assumption | with_reducible apply memWr_keeps | with_reducible apply bump_keeps | with_reducible apply regPutF_keeps | with_reducible apply crownEvent_keeps | with_reducible apply coreMod_keeps | with_reducible apply ih | (intro _ _ _) | (intro _ _) | (intro _) | split | with_reducible apply Keeps.upd)

theorem raiseFault_keeps {z : State} (s : State) (k : Nat) (f : FaultInfo) (hz : Keeps z s) :
    Keeps z (raiseFault s k f).2 := by
  unfold raiseFault; try dsimp only
  repeat' (first | with_reducible assumption | with_reducible apply coreMod_keeps | with_reducible apply drainFaults_keeps | with_reducible apply bump_keeps | (dsimp only) | (intro _ _ _) | (intro _ _) | (intro _) | split | with_reducible apply Keeps.upd)

theorem faultRingRd_keeps {z : State} (s : State) (k rd : Nat) (hz : Keeps z s) :
    Keeps z (faultRingRd s k rd) := by
  unfold faultRingRd; try dsimp only
  repeat' (first | with_reducible assumption | with_reducible apply drainFaults_keeps | with_reducible apply regPutF_keeps | (intro _ _ _) | (intro _ _) | (intro _) | split | with_reducible apply Keeps.upd)

theorem xltInvalidate_keeps {z : State} (s : State) (i : InvScope) (hz : Keeps z s) :
    Keeps z (xltInvalidate s i) := by
  unfold xltInvalidate; try dsimp only
  repeat' (first | with_reducible assumption | with_reducible apply regPutF_keeps | (intro _ _ _) | (intro _ _) | (intro _) | split | with_reducible apply Keeps.upd)

theorem xltInvalidateBad_keeps {z : State} (s : State) (hz : Keeps z s) :
    Keeps z (xltInvalidateBad s) := by
  unfold xltInvalidateBad; try dsimp only
  repeat' (first | with_reducible assumption | with_reducible apply regPutF_keeps | (intro _ _ _) | (intro _ _) | (intro _) | split | with_reducible apply Keeps.upd)

theorem invalidationComplete_keeps {z : State} (s : State) (hz : Keeps z s) :
    Keeps z (invalidationComplete s) := by
  unfold invalidationComplete; try dsimp only
  repeat' (first | with_reducible assumption | with_reducible apply bump_keeps | with_reducible apply regPutF_keeps | (intro _ _ _) | (intro _ _) | (intro _) | split | with_reducible apply Keeps.upd)

theorem crownStore_keeps {z : State} (s : State) (a : Nat) (bs : Bytes) (hz : Keeps z s) :
    Keeps z (crownStore s a bs) := by
  unfold crownStore; try dsimp only
  repeat' (first | with_reducible assumption | with_reducible apply memWr_keeps | (intro _ _ _) | (intro _ _) | (intro _) | split | with_reducible apply Keeps.upd)

theorem createContext_keeps {z : State} (s : State) (ctx : Nat) (o : Option NewContext) (hz : Keeps z s) :
    Keeps z (createContext s ctx o) := by
  unfold createContext; try dsimp only
  repeat' (first | with_reducible assumption | (intro _ _ _) | (intro _ _) | (intro _) | split | with_reducible apply Keeps.upd)

theorem runtimeStores_keeps {z : State} (s : State) (ws : List (Nat × Bytes)) (hz : Keeps z s) :
    Keeps z (runtimeStores s ws) := by
  unfold runtimeStores; try dsimp only
  repeat' (first | with_reducible assumption | with_reducible apply crownStore_keeps | with_reducible apply Keeps.foldl | with_reducible apply Keeps.foldl_snd | with_reducible apply Keeps.foldl_fst | with_reducible apply Keeps.foldl_snd_snd | (intro _ _ _) | (intro _ _) | (intro _) | split | with_reducible apply Keeps.upd)

end Sys2Proof.Machine
end

