-- ==== Sys2Proof/Laws/KeepsScalar.lean ====
section
/-!
SUPPORT. The operations of Scalar keep the queue and the canonical form of the tables.
-/

namespace Sys2Proof.Machine

theorem access_keeps {z : State} (s : State) (k : Nat) (x : Hc) (va : Nat) (need : Need) (slot : SlotId) (src : Nat) (hz : Keeps z s) :
    Keeps z (access s k x va need slot src).2 := by
  have h := translate_keeps s k x.ctx va need hz
  unfold access
  split <;> rename_i e <;> rw [e] at h
  · exact h
  · split
    · exact h
    · split <;> exact h
  · exact bump_keeps _ _ _ _ h

theorem scalarOut_keeps {z : State} (s : State) (k : Nat) (x : Hc) (slot : SlotId) (i : SSlot) (hz : Keeps z s) :
    Keeps z (scalarOut s k x slot i).2 := by
  unfold scalarOut; try dsimp only
  repeat' (first | with_reducible assumption | with_reducible apply access_keeps | with_reducible refine Keeps.of_snd (by with_reducible assumption) ?_ | (dsimp only) | (intro _ _ _) | (intro _ _) | (intro _) | split | with_reducible apply Keeps.upd)

end Sys2Proof.Machine
end

