-- ==== Sys2Proof/Laws/KeepsVector.lean ====
section
/-!
SUPPORT. The operations of Vector keep the queue and the canonical form of the tables.
-/

namespace Sys2Proof.Machine

theorem vectorOut_keeps {z : State} (s : State) (k : Nat) (x : Hc) (i : VSlot) (hz : Keeps z s) :
    Keeps z (vectorOut s k x i).2 := by
  unfold vectorOut; try dsimp only
  repeat' (first | with_reducible assumption | with_reducible apply access_keeps | with_reducible refine Keeps.of_snd (by with_reducible assumption) ?_ | (dsimp only) | (intro _ _ _) | (intro _ _) | (intro _) | split | with_reducible apply Keeps.upd)

end Sys2Proof.Machine
end

