-- ==== Sys2Proof/Laws/KeepsTensor.lean ====
section
/-!
SUPPORT. The operations of Tensor keep the queue and the canonical form of the tables.
-/

namespace Sys2Proof.Machine

theorem blkXlate_keeps {z : State} (s : State) (k ctx va : Nat) (need : Need) (hz : Keeps z s) :
    Keeps z (blkXlate s k ctx va need).2 := by
  unfold blkXlate; try dsimp only
  repeat' (first | with_reducible assumption | with_reducible apply translate_keeps | with_reducible apply bump_keeps | with_reducible refine Keeps.of_snd (by with_reducible assumption) ?_ | (dsimp only) | (intro _ _ _) | (intro _ _) | (intro _) | split | with_reducible apply Keeps.upd)

theorem readBlock_keeps {z : State} (s : State) (k ctx : Nat) (mesh : List Nat) (t : Tensor) (b : BlockAt) (own : Bool) (hz : Keeps z s) :
    Keeps z (readBlock s k ctx mesh t b own).2 := by
  unfold readBlock; try dsimp only
  repeat' (first | with_reducible assumption | with_reducible apply blkXlate_keeps | with_reducible apply bump_keeps | with_reducible apply memTouch_keeps | with_reducible refine Keeps.of_snd (by with_reducible assumption) ?_ | (dsimp only) | (intro _ _ _) | (intro _ _) | (intro _) | split | with_reducible apply Keeps.upd)

theorem putBlock_keeps {z : State} (s : State) (t : Tensor) (b : BlockAt) (pa : Nat) (w : BlockWrite) (hz : Keeps z s) :
    Keeps z (putBlock s t b pa w).2 := by
  unfold putBlock; try dsimp only
  repeat' (first | with_reducible assumption | with_reducible apply busWrite_keeps | with_reducible apply Keeps.foldl | with_reducible apply Keeps.foldl_snd | with_reducible apply Keeps.foldl_fst | with_reducible apply Keeps.foldl_snd_snd | (dsimp only) | (intro _ _ _) | (intro _ _) | (intro _) | split | with_reducible apply Keeps.upd)

end Sys2Proof.Machine
end

