-- ==== Sys2Proof/Laws/KeepsMatrix.lean ====
section
/-!
SUPPORT. The operations of Matrix keep the queue and the canonical form of the tables.
-/

namespace Sys2Proof.Machine
theorem readKVec_keeps {z : State} (s : State) (k ctx : Nat) (mesh : List Nat) (t : Tensor) (r kv : Nat) (j : Nat) (hz : Keeps z s) :
    Keeps z (readKVec s k ctx mesh t r kv j).2 := by
  induction j generalizing s k ctx mesh t r kv with
  | zero =>
    unfold readKVec; try dsimp only
    repeat' (first | (cases ‹_ + 1 = _ + 1›) | with_reducible assumption | with_reducible apply readBlock_keeps | with_reducible apply ih | with_reducible refine Keeps.of_snd (by with_reducible assumption) ?_ | (dsimp only) | (intro _ _ _) | (intro _ _) | (intro _) | split | with_reducible apply Keeps.upd)
  | succ n ih =>
    unfold readKVec; try dsimp only
    repeat' (first | (cases ‹_ + 1 = _ + 1›) | with_reducible assumption | with_reducible apply readBlock_keeps | with_reducible apply ih | with_reducible refine Keeps.of_snd (by with_reducible assumption) ?_ | (dsimp only) | (intro _ _ _) | (intro _ _) | (intro _) | split | with_reducible apply Keeps.upd)

theorem readKVecs_keeps {z : State} (s : State) (k ctx : Nat) (mesh : List Nat) (t : Tensor) (r kv n : Nat) (hz : Keeps z s) :
    Keeps z (readKVecs s k ctx mesh t r kv n).2 := by
  induction n generalizing s k ctx mesh t r kv with
  | zero =>
    unfold readKVecs; try dsimp only
    repeat' (first | (cases ‹_ + 1 = _ + 1›) | with_reducible assumption | with_reducible apply readKVec_keeps | with_reducible apply ih | with_reducible refine Keeps.of_snd (by with_reducible assumption) ?_ | (dsimp only) | (intro _ _ _) | (intro _ _) | (intro _) | split | with_reducible apply Keeps.upd)
  | succ n ih =>
    unfold readKVecs; try dsimp only
    repeat' (first | (cases ‹_ + 1 = _ + 1›) | with_reducible assumption | with_reducible apply readKVec_keeps | with_reducible apply ih | with_reducible refine Keeps.of_snd (by with_reducible assumption) ?_ | (dsimp only) | (intro _ _ _) | (intro _ _) | (intro _) | split | with_reducible apply Keeps.upd)

theorem readTile_keeps {z : State} (s : State) (k ctx : Nat) (mesh : List Nat) (t : Tensor) (rows : List (List Int)) (hz : Keeps z s) :
    Keeps z (readTile s k ctx mesh t rows).2 := by
  induction rows generalizing s k ctx mesh t with
  | nil =>
    unfold readTile; try dsimp only
    repeat' (first | (cases ‹_ + 1 = _ + 1›) | with_reducible assumption | with_reducible apply readBlock_keeps | with_reducible apply ih | with_reducible refine Keeps.of_snd (by with_reducible assumption) ?_ | (dsimp only) | (intro _ _ _) | (intro _ _) | (intro _) | split | with_reducible apply Keeps.upd)
  | cons x l ih =>
    unfold readTile; try dsimp only
    repeat' (first | (cases ‹_ + 1 = _ + 1›) | with_reducible assumption | with_reducible apply readBlock_keeps | with_reducible apply ih | with_reducible refine Keeps.of_snd (by with_reducible assumption) ?_ | (dsimp only) | (intro _ _ _) | (intro _ _) | (intro _) | split | with_reducible apply Keeps.upd)

theorem latDrain_keeps {z : State} (s : State) (k : Nat) (hz : Keeps z s) :
    Keeps z (latDrain s k) := by
  unfold latDrain; try dsimp only
  repeat' (first | with_reducible assumption | with_reducible apply coreSet_keeps | (intro _ _ _) | (intro _ _) | (intro _) | split | with_reducible apply Keeps.upd)

theorem virtRead_keeps {z : State} (s : State) (k ctx va n fuel : Nat) (hz : Keeps z s) :
    Keeps z (virtRead s k ctx va n fuel).2 := by
  induction fuel generalizing s k ctx va n with
  | zero =>
    unfold virtRead; try dsimp only
    repeat' (first | (cases ‹_ + 1 = _ + 1›) | with_reducible assumption | with_reducible apply blkXlate_keeps | with_reducible apply memTouch_keeps | with_reducible apply ih | with_reducible refine Keeps.of_snd (by with_reducible assumption) ?_ | (dsimp only) | (intro _ _ _) | (intro _ _) | (intro _) | split | with_reducible apply Keeps.upd)
  | succ n ih =>
    unfold virtRead; try dsimp only
    repeat' (first | (cases ‹_ + 1 = _ + 1›) | with_reducible assumption | with_reducible apply blkXlate_keeps | with_reducible apply memTouch_keeps | with_reducible apply ih | with_reducible refine Keeps.of_snd (by with_reducible assumption) ?_ | (dsimp only) | (intro _ _ _) | (intro _ _) | (intro _) | split | with_reducible apply Keeps.upd)

theorem useDesc_keeps {z : State} (s : State) (k : Nat) (x : Hc) (slot : SlotId) (d : Nat) (dest : Bool) (hz : Keeps z s) :
    Keeps z (useDesc s k x slot d dest).2 := by
  unfold useDesc; try dsimp only
  repeat' (first | with_reducible assumption | with_reducible apply virtRead_keeps | with_reducible refine Keeps.of_snd (by with_reducible assumption) ?_ | (dsimp only) | (intro _ _ _) | (intro _ _) | (intro _) | split | with_reducible apply Keeps.upd)

theorem matrixRead_keeps {z : State} (s : State) (k : Nat) (x : Hc) (i : MSlot) (t : Tensor) (hz : Keeps z s) :
    Keeps z (matrixRead s k x i t).2 := by
  unfold matrixRead; try dsimp only
  repeat' (first | with_reducible assumption | with_reducible apply readKVecs_keeps | with_reducible apply readTile_keeps | with_reducible refine Keeps.of_snd (by with_reducible assumption) ?_ | with_reducible apply Keeps.foldl | with_reducible apply Keeps.foldl_snd | with_reducible apply Keeps.foldl_fst | with_reducible apply Keeps.foldl_snd_snd | (dsimp only) | (intro _ _ _) | (intro _ _) | (intro _) | split | with_reducible apply Keeps.upd)

theorem matrixUse_keeps {z : State} (s : State) (k : Nat) (x : Hc) (l : Lattice) (i : MSlot) (hz : Keeps z s) :
    Keeps z (matrixUse s k x l i).2 := by
  unfold matrixUse; try dsimp only
  repeat' (first | with_reducible assumption | with_reducible apply useDesc_keeps | with_reducible apply matrixRead_keeps | with_reducible refine Keeps.of_snd (by with_reducible assumption) ?_ | (dsimp only) | (intro _ _ _) | (intro _ _) | (intro _) | split | with_reducible apply Keeps.upd)

theorem matrixOut_keeps {z : State} (s : State) (k h : Nat) (x : Hc) (i : MSlot) (hz : Keeps z s) :
    Keeps z (matrixOut s k h x i).2 := by
  unfold matrixOut; try dsimp only
  repeat' (first | with_reducible assumption | with_reducible apply matrixUse_keeps | with_reducible refine Keeps.of_snd (by with_reducible assumption) ?_ | (dsimp only) | (intro _ _ _) | (intro _ _) | (intro _) | split | with_reducible apply Keeps.upd)

theorem countFills_keeps {z : State} (s : State) (k : Nat) (t : Tensor) (bs : List BlockAt) (hz : Keeps z s) :
    Keeps z (countFills s k t bs) := by
  unfold countFills; try dsimp only
  repeat' (first | with_reducible assumption | with_reducible apply bumpBy_keeps | (intro _ _ _) | (intro _ _) | (intro _) | split | with_reducible apply Keeps.upd)

theorem matrixOperand_keeps {z : State} (s : State) (k : Nat) (x : Hc) (i : MSlot) (hz : Keeps z s) :
    Keeps z (matrixOperand s k x i).2 := by
  unfold matrixOperand; try dsimp only
  repeat' (first | with_reducible assumption | with_reducible apply useDesc_keeps | with_reducible apply matrixRead_keeps | with_reducible apply countFills_keeps | with_reducible refine Keeps.of_snd (by with_reducible assumption) ?_ | (dsimp only) | (intro _ _ _) | (intro _ _) | (intro _) | split | with_reducible apply Keeps.upd)

theorem latMod_keeps {z : State} (s : State) (k : Nat) (f : Lattice → Lattice) (hz : Keeps z s) :
    Keeps z (latMod s k f) := by
  unfold latMod; try dsimp only
  repeat' (first | with_reducible assumption | with_reducible apply coreMod_keeps | (intro _ _ _) | (intro _ _) | (intro _) | split | with_reducible apply Keeps.upd)

theorem matrixLoad_keeps {z : State} (s : State) (k : Nat) (x : Hc) (i : MSlot) (hz : Keeps z s) :
    Keeps z (matrixLoad s k x i) := by
  unfold matrixLoad; try dsimp only
  repeat' (first | with_reducible assumption | with_reducible apply matrixOperand_keeps | with_reducible apply latMod_keeps | with_reducible refine Keeps.of_snd (by with_reducible assumption) ?_ | with_reducible apply Keeps.foldl | with_reducible apply Keeps.foldl_snd | with_reducible apply Keeps.foldl_fst | with_reducible apply Keeps.foldl_snd_snd | (dsimp only) | (intro _ _ _) | (intro _ _) | (intro _) | split | with_reducible apply Keeps.upd)

theorem matrixPass_keeps {z : State} (s : State) (k : Nat) (x : Hc) (i : MSlot) (hz : Keeps z s) :
    Keeps z (matrixPass s k x i) := by
  unfold matrixPass; try dsimp only
  repeat' (first | with_reducible assumption | with_reducible apply matrixOperand_keeps | with_reducible apply latMod_keeps | with_reducible refine Keeps.of_snd (by with_reducible assumption) ?_ | (dsimp only) | (intro _ _ _) | (intro _ _) | (intro _) | split | with_reducible apply Keeps.upd)

theorem matrixTile_keeps {z : State} (s : State) (k : Nat) (x : Hc) (i : MSlot) (hz : Keeps z s) :
    Keeps z (matrixTile s k x i) := by
  unfold matrixTile; try dsimp only
  repeat' (first | with_reducible assumption | with_reducible apply matrixOperand_keeps | with_reducible apply latMod_keeps | with_reducible refine Keeps.of_snd (by with_reducible assumption) ?_ | (dsimp only) | (intro _ _ _) | (intro _ _) | (intro _) | split | with_reducible apply Keeps.upd)

theorem matrixCommit_keeps {z : State} (s : State) (k h : Nat) (x : Hc) (i : MSlot) (hz : Keeps z s) :
    Keeps z (matrixCommit s k h x i) := by
  unfold matrixCommit; try dsimp only
  repeat' (first | with_reducible assumption | with_reducible apply latMod_keeps | with_reducible apply matrixLoad_keeps | with_reducible apply matrixPass_keeps | with_reducible apply matrixTile_keeps | with_reducible apply latDrain_keeps | with_reducible apply Keeps.foldl | with_reducible apply Keeps.foldl_snd | with_reducible apply Keeps.foldl_fst | with_reducible apply Keeps.foldl_snd_snd | (intro _ _ _) | (intro _ _) | (intro _) | split | with_reducible apply Keeps.upd)

theorem commitPass_keeps {z : State} (s : State) (k : Nat) (x : Hc) (before : List MxWork) (w : MxWork) (after : List MxWork) (e : PassErrors) (hz : Keeps z s) :
    Keeps z (commitPass s k x before w after e) := by
  unfold commitPass; try dsimp only
  repeat' (first | with_reducible assumption | with_reducible apply bump_keeps | with_reducible apply latMod_keeps | with_reducible apply latDrain_keeps | with_reducible apply coreCount_keeps | (intro _ _ _) | (intro _ _) | (intro _) | split | with_reducible apply Keeps.upd)

theorem finishMatrix_keeps {z : State} (s : State) (k : Nat) (x : Hc) (fuel : Nat) (hz : Keeps z s) :
    Keeps z (finishMatrix s k x fuel) := by
  induction fuel generalizing s k x with
  | zero =>
    unfold finishMatrix; try dsimp only
    repeat' (first | (cases ‹_ + 1 = _ + 1›) | with_reducible assumption | with_reducible apply commitPass_keeps | with_reducible apply latMod_keeps | with_reducible apply ih | (intro _ _ _) | (intro _ _) | (intro _) | split | with_reducible apply Keeps.upd)
  | succ n ih =>
    unfold finishMatrix; try dsimp only
    repeat' (first | (cases ‹_ + 1 = _ + 1›) | with_reducible assumption | with_reducible apply commitPass_keeps | with_reducible apply latMod_keeps | with_reducible apply ih | (intro _ _ _) | (intro _ _) | (intro _) | split | with_reducible apply Keeps.upd)

theorem failPass_keeps {z : State} (s : State) (k : Nat) (before : List MxWork) (w : MxWork) (after : List MxWork) (code : Nat) (hz : Keeps z s) :
    Keeps z (failPass s k before w after code) := by
  unfold failPass; try dsimp only
  repeat' (first | with_reducible assumption | with_reducible apply latDrain_keeps | with_reducible apply latMod_keeps | (intro _ _ _) | (intro _ _) | (intro _) | split | with_reducible apply Keeps.upd)

theorem passCheck_keeps {z : State} (s : State) (k a sl : Nat) (e : PassErrors) (hz : Keeps z s) :
    Keeps z (passCheck s k a sl e) := by
  unfold passCheck; try dsimp only
  repeat' (first | with_reducible assumption | with_reducible apply latMod_keeps | with_reducible apply commitPass_keeps | with_reducible apply bump_keeps | with_reducible apply failPass_keeps | (intro _ _ _) | (intro _ _) | (intro _) | split | with_reducible apply Keeps.upd)

theorem markRecomputed_keeps {z : State} (s : State) (k h : Nat) (hz : Keeps z s) :
    Keeps z (markRecomputed s k h) := by
  unfold markRecomputed; try dsimp only
  repeat' (first | with_reducible assumption | with_reducible apply hcMod_keeps | (intro _ _ _) | (intro _ _) | (intro _) | split | with_reducible apply Keeps.upd)

theorem wantBist_keeps {z : State} (s : State) (k a : Nat) (hz : Keeps z s) :
    Keeps z (wantBist s k a) := by
  unfold wantBist; try dsimp only
  repeat' (first | with_reducible assumption | with_reducible apply coreMod_keeps | (intro _ _ _) | (intro _ _) | (intro _) | split | with_reducible apply Keeps.upd)

theorem spareSet_keeps {z : State} (s : State) (j y : Nat) (busy : Bool) (hz : Keeps z s) :
    Keeps z (spareSet s j y busy) := by
  unfold spareSet; try dsimp only
  repeat' (first | with_reducible assumption | with_reducible apply coreMod_keeps | (intro _ _ _) | (intro _ _) | (intro _) | split | with_reducible apply Keeps.upd)

theorem sendSpare_keeps {z : State} (s : State) (k : Nat) (before : List MxWork) (w : MxWork) (after : List MxWork) (hz : Keeps z s) :
    Keeps z (sendSpare s k before w after) := by
  unfold sendSpare; try dsimp only
  repeat' (first | with_reducible assumption | with_reducible apply spareSet_keeps | with_reducible apply latMod_keeps | (intro _ _ _) | (intro _ _) | (intro _) | split | with_reducible apply Keeps.upd)

theorem recomputePass_keeps {z : State} (s : State) (k a sl : Nat) (e : PassErrors) (hz : Keeps z s) :
    Keeps z (recomputePass s k a sl e) := by
  unfold recomputePass; try dsimp only
  repeat' (first | with_reducible assumption | with_reducible apply failPass_keeps | with_reducible apply sendSpare_keeps | with_reducible apply wantBist_keeps | with_reducible apply bump_keeps | with_reducible apply markRecomputed_keeps | with_reducible apply commitPass_keeps | (intro _ _ _) | (intro _ _) | (intro _) | split | with_reducible apply Keeps.upd)

theorem spareDone_keeps {z : State} (s : State) (o : Option (Nat × Nat)) (hz : Keeps z s) :
    Keeps z (spareDone s o) := by
  unfold spareDone; try dsimp only
  repeat' (first | with_reducible assumption | with_reducible apply coreMod_keeps | with_reducible apply spareSet_keeps | (intro _ _ _) | (intro _ _) | (intro _) | split | with_reducible apply Keeps.upd)

theorem sparePass_keeps {z : State} (s : State) (k a sl : Nat) (e : PassErrors) (hz : Keeps z s) :
    Keeps z (sparePass s k a sl e).2 := by
  unfold sparePass; try dsimp only
  repeat' (first | with_reducible assumption | with_reducible apply spareDone_keeps | with_reducible apply bump_keeps | with_reducible apply failPass_keeps | with_reducible apply wantBist_keeps | with_reducible apply markRecomputed_keeps | with_reducible apply commitPass_keeps | (dsimp only) | (intro _ _ _) | (intro _ _) | (intro _) | split | with_reducible apply Keeps.upd)

end Sys2Proof.Machine
end

