-- ==== Sys2Proof/Laws/KeepsSpan.lean ====
section
/-!
SUPPORT. The operations of Span keep the queue and the canonical form of the tables.
-/

namespace Sys2Proof.Machine
theorem linkSet_keeps {z : State} (s : State) (k : Nat) (l : SpanLink) (hz : Keeps z s) :
    Keeps z (linkSet s k l) := by
  unfold linkSet; try dsimp only
  repeat' (first | with_reducible assumption | (intro _ _ _) | (intro _ _) | (intro _) | split | with_reducible apply Keeps.upd)

theorem linkMod_keeps {z : State} (s : State) (k : Nat) (f : SpanLink → SpanLink) (hz : Keeps z s) :
    Keeps z (linkMod s k f) := by
  unfold linkMod; try dsimp only
  repeat' (first | with_reducible assumption | with_reducible apply linkSet_keeps | (intro _ _ _) | (intro _ _) | (intro _) | split | with_reducible apply Keeps.upd)

theorem setLinkState_keeps {z : State} (s : State) (k st : Nat) (hz : Keeps z s) :
    Keeps z (setLinkState s k st) := by
  unfold setLinkState; try dsimp only
  repeat' (first | with_reducible assumption | with_reducible apply regPutF_keeps | (intro _ _ _) | (intro _ _) | (intro _) | split | with_reducible apply Keeps.upd)

theorem emitFlit_keeps {z : State} (s : State) (k : Nat) (f : Flit) (cvc credit : Nat) (hz : Keeps z s) :
    Keeps z (emitFlit s k f cvc credit) := by
  unfold emitFlit; try dsimp only
  repeat' (first | with_reducible assumption | (intro _ _ _) | (intro _ _) | (intro _) | split | with_reducible apply Keeps.upd)

theorem linkPump_keeps {z : State} (s : State) (k fuel : Nat) (hz : Keeps z s) :
    Keeps z (linkPump s k fuel) := by
  induction fuel generalizing s k with
  | zero =>
    unfold linkPump; try dsimp only
    repeat' (first | (cases ‹_ + 1 = _ + 1›) | with_reducible assumption | with_reducible apply linkSet_keeps | with_reducible apply obsAdd_keeps | with_reducible apply emitFlit_keeps | with_reducible apply ih | (intro _ _ _) | (intro _ _) | (intro _) | split | with_reducible apply Keeps.upd)
  | succ n ih =>
    unfold linkPump; try dsimp only
    repeat' (first | (cases ‹_ + 1 = _ + 1›) | with_reducible assumption | with_reducible apply linkSet_keeps | with_reducible apply obsAdd_keeps | with_reducible apply emitFlit_keeps | with_reducible apply ih | (intro _ _ _) | (intro _ _) | (intro _) | split | with_reducible apply Keeps.upd)

theorem linkSend_keeps {z : State} (s : State) (k ftype vc : Nat) (bs : Bytes) (hz : Keeps z s) :
    Keeps z (linkSend s k ftype vc bs) := by
  unfold linkSend; try dsimp only
  repeat' (first | with_reducible assumption | with_reducible apply linkMod_keeps | with_reducible apply linkPump_keeps | (intro _ _ _) | (intro _ _) | (intro _) | split | with_reducible apply Keeps.upd)

theorem linkReceive_keeps {z : State} (s : State) (k vc n : Nat) (hz : Keeps z s) :
    Keeps z (linkReceive s k vc n) := by
  unfold linkReceive; try dsimp only
  repeat' (first | with_reducible assumption | with_reducible apply linkMod_keeps | with_reducible apply emitFlit_keeps | (intro _ _ _) | (intro _ _) | (intro _) | split | with_reducible apply Keeps.upd)

theorem spanEvent_keeps {z : State} (s : State) (receive : Bool) (k : Nat) (m : SpanMsg) (hz : Keeps z s) :
    Keeps z (spanEvent s receive k m) := by
  unfold spanEvent; try dsimp only
  repeat' (first | with_reducible assumption | with_reducible apply traceEmit_keeps | (intro _ _ _) | (intro _ _) | (intro _) | split | with_reducible apply Keeps.upd)

theorem sendOver_keeps {z : State} (s : State) (k vc : Nat) (m : SpanMsg) (hz : Keeps z s) :
    Keeps z (sendOver s k vc m) := by
  unfold sendOver; try dsimp only
  repeat' (first | with_reducible assumption | with_reducible apply linkSend_keeps | (intro _ _ _) | (intro _ _) | (intro _) | split | with_reducible apply Keeps.upd)

theorem nextMsgId_keeps {z : State} (s : State) (hz : Keeps z s) :
    Keeps z (nextMsgId s).2 := by
  unfold nextMsgId; try dsimp only
  repeat' (first | with_reducible assumption | (dsimp only) | (intro _ _ _) | (intro _ _) | (intro _) | split | with_reducible apply Keeps.upd)

theorem sendMsg_keeps {z : State} (s : State) (m : SpanMsg) (hz : Keeps z s) :
    Keeps z (sendMsg s m) := by
  unfold sendMsg; try dsimp only
  repeat' (first | with_reducible assumption | with_reducible apply spanEvent_keeps | with_reducible apply sendOver_keeps | (intro _ _ _) | (intro _ _) | (intro _) | split | with_reducible apply Keeps.upd)

theorem sendControl_keeps {z : State} (s : State) (dst : Nat) (data : Bytes) (hz : Keeps z s) :
    Keeps z (sendControl s dst data) := by
  unfold sendControl; try dsimp only
  repeat' (first | with_reducible assumption | with_reducible apply nextMsgId_keeps | with_reducible apply sendMsg_keeps | with_reducible refine Keeps.of_snd (by with_reducible assumption) ?_ | (dsimp only) | (intro _ _ _) | (intro _ _) | (intro _) | split | with_reducible apply Keeps.upd)

theorem broadcast_keeps {z : State} (s : State) (data : Bytes) (hz : Keeps z s) :
    Keeps z (broadcast s data) := by
  unfold broadcast; try dsimp only
  repeat' (first | with_reducible assumption | with_reducible apply sendControl_keeps | with_reducible apply Keeps.foldl | with_reducible apply Keeps.foldl_snd | with_reducible apply Keeps.foldl_fst | with_reducible apply Keeps.foldl_snd_snd | (intro _ _ _) | (intro _ _) | (intro _) | split | with_reducible apply Keeps.upd)

theorem trySend_keeps {z : State} (s : State) (r : SpanReq) (hz : Keeps z s) :
    Keeps z (trySend s r).2 := by
  unfold trySend; try dsimp only
  repeat' (first | with_reducible assumption | with_reducible apply spanEvent_keeps | with_reducible apply sendOver_keeps | (dsimp only) | (intro _ _ _) | (intro _ _) | (intro _) | split | with_reducible apply Keeps.upd)

theorem sendHeld_keeps {z : State} (s : State) (hz : Keeps z s) :
    Keeps z (sendHeld s) := by
  unfold sendHeld; try dsimp only
  repeat' (first | with_reducible assumption | with_reducible apply trySend_keeps | with_reducible refine Keeps.of_snd (by with_reducible assumption) ?_ | with_reducible apply Keeps.foldl | with_reducible apply Keeps.foldl_snd | with_reducible apply Keeps.foldl_fst | with_reducible apply Keeps.foldl_snd_snd | (dsimp only) | (intro _ _ _) | (intro _ _) | (intro _) | split | with_reducible apply Keeps.upd)

theorem spanRequest_keeps {z : State} (s : State) (write : Bool) (dst epoch core hc ctx tag : Nat) (data : Bytes) (hz : Keeps z s) :
    Keeps z (spanRequest s write dst epoch core hc ctx tag data) := by
  unfold spanRequest; try dsimp only
  repeat' (first | with_reducible assumption | with_reducible apply nextMsgId_keeps | with_reducible apply trySend_keeps | with_reducible refine Keeps.of_snd (by with_reducible assumption) ?_ | (dsimp only) | (intro _ _ _) | (intro _ _) | (intro _) | split | with_reducible apply Keeps.upd)

theorem dropReqs_keeps {z : State} (s : State) (core hc tag : Nat) (hz : Keeps z s) :
    Keeps z (dropReqs s core hc tag) := by
  unfold dropReqs; try dsimp only
  repeat' (first | with_reducible assumption | (intro _ _ _) | (intro _ _) | (intro _) | split | with_reducible apply Keeps.upd)

end Sys2Proof.Machine
end

