-- ==== Sys2Proof/Laws/KeepsMover.lean ====
section
/-!
SUPPORT. The operations of Mover keep the queue and the canonical form of the tables.
-/

namespace Sys2Proof.Machine

theorem writeUnit_keeps {z : State} (s : State) (k ctx : Nat) (f : Xfer) (b : BlockAt) (w0 : BlockWrite) (fill : Nat) (bad : Bool) (hz : Keeps z s) :
    Keeps z (writeUnit s k ctx f b w0 fill bad).2 := by
  unfold writeUnit; try dsimp only
  repeat' (first | with_reducible assumption | with_reducible apply blkXlate_keeps | with_reducible apply putBlock_keeps | with_reducible refine Keeps.of_snd (by with_reducible assumption) ?_ | (dsimp only) | (intro _ _ _) | (intro _ _) | (intro _) | split | with_reducible apply Keeps.upd)

theorem listEntry_keeps {z : State} (s : State) (k ctx : Nat) (f : Xfer) (n : Nat) (hz : Keeps z s) :
    Keeps z (listEntry s k ctx f n).2 := by
  unfold listEntry; try dsimp only
  repeat' (first | with_reducible assumption | with_reducible apply blkXlate_keeps | with_reducible apply memTouch_keeps | with_reducible refine Keeps.of_snd (by with_reducible assumption) ?_ | (dsimp only) | (intro _ _ _) | (intro _ _) | (intro _) | split | with_reducible apply Keeps.upd)

theorem overlapRead_keeps {z : State} (s : State) (k ctx : Nat) (f : Xfer) (c : BlockAt) (d : BlockData) (hz : Keeps z s) :
    Keeps z (overlapRead s k ctx f c d).2 := by
  unfold overlapRead; try dsimp only
  repeat' (first | with_reducible assumption | with_reducible apply blkXlate_keeps | with_reducible apply freeBits_keeps | with_reducible refine Keeps.of_snd (by with_reducible assumption) ?_ | (dsimp only) | (intro _ _ _) | (intro _ _) | (intro _) | split | with_reducible apply Keeps.upd)

theorem readSource_keeps {z : State} (s : State) (k ctx : Nat) (f : Xfer) (c : BlockAt) (hz : Keeps z s) :
    Keeps z (readSource s k ctx f c).2 := by
  unfold readSource; try dsimp only
  repeat' (first | with_reducible assumption | with_reducible apply readBlock_keeps | with_reducible apply overlapRead_keeps | with_reducible refine Keeps.of_snd (by with_reducible assumption) ?_ | (dsimp only) | (intro _ _ _) | (intro _ _) | (intro _) | split | with_reducible apply Keeps.upd)

theorem copyUnit_keeps {z : State} (s : State) (k ctx : Nat) (f : Xfer) (c b : BlockAt) (hz : Keeps z s) :
    Keeps z (copyUnit s k ctx f c b).2 := by
  unfold copyUnit; try dsimp only
  repeat' (first | with_reducible assumption | with_reducible apply writeUnit_keeps | with_reducible apply readSource_keeps | with_reducible refine Keeps.of_snd (by with_reducible assumption) ?_ | (dsimp only) | (intro _ _ _) | (intro _ _) | (intro _) | split | with_reducible apply Keeps.upd)

theorem fillUnit_keeps {z : State} (s : State) (k ctx : Nat) (f : Xfer) (b : BlockAt) (hz : Keeps z s) :
    Keeps z (fillUnit s k ctx f b).2 := by
  unfold fillUnit; try dsimp only
  repeat' (first | with_reducible assumption | with_reducible apply writeUnit_keeps | with_reducible refine Keeps.of_snd (by with_reducible assumption) ?_ | (dsimp only) | (intro _ _ _) | (intro _ _) | (intro _) | split | with_reducible apply Keeps.upd)

theorem tileSources_keeps {z : State} (s : State) (k ctx : Nat) (f : Xfer) (b : BlockAt) (x : Nat) (hz : Keeps z s) :
    Keeps z (tileSources s k ctx f b x).2 := by
  induction x generalizing s k ctx f b with
  | zero =>
    unfold tileSources; try dsimp only
    repeat' (first | (cases ‹_ + 1 = _ + 1›) | with_reducible assumption | with_reducible apply readSource_keeps | with_reducible apply ih | with_reducible refine Keeps.of_snd (by with_reducible assumption) ?_ | (dsimp only) | (intro _ _ _) | (intro _ _) | (intro _) | split | with_reducible apply Keeps.upd)
  | succ n ih =>
    unfold tileSources; try dsimp only
    repeat' (first | (cases ‹_ + 1 = _ + 1›) | with_reducible assumption | with_reducible apply readSource_keeps | with_reducible apply ih | with_reducible refine Keeps.of_snd (by with_reducible assumption) ?_ | (dsimp only) | (intro _ _ _) | (intro _ _) | (intro _) | split | with_reducible apply Keeps.upd)

theorem tileBlock_keeps {z : State} (s : State) (k ctx : Nat) (f : Xfer) (b : BlockAt) (hz : Keeps z s) :
    Keeps z (tileBlock s k ctx f b).2 := by
  unfold tileBlock; try dsimp only
  repeat' (first | with_reducible assumption | with_reducible apply tileSources_keeps | with_reducible refine Keeps.of_snd (by with_reducible assumption) ?_ | (dsimp only) | (intro _ _ _) | (intro _ _) | (intro _) | split | with_reducible apply Keeps.upd)

theorem tileCons_keeps {z : State} (w : TileWrite) (r : Except UnitRes (List TileWrite) × State) (hz : Keeps z r.2) :
    Keeps z (tileCons w r).2 := by
  unfold tileCons
  split <;> exact hz

theorem tileXlate_keeps {z : State} (s : State) (k ctx : Nat) (f : Xfer) (w : TileWrite) (hz : Keeps z s) :
    Keeps z (tileXlate s k ctx f w).2 := by
  unfold tileXlate; try dsimp only
  repeat' (first | with_reducible assumption | with_reducible apply blkXlate_keeps | with_reducible refine Keeps.of_snd (by with_reducible assumption) ?_ | (dsimp only) | (intro _ _ _) | (intro _ _) | (intro _) | split | with_reducible apply Keeps.upd)

theorem tilePlan_keeps {z : State} (s : State) (k ctx : Nat) (f : Xfer) (bs : List BlockAt) (hz : Keeps z s) :
    Keeps z (tilePlan s k ctx f bs).2 := by
  induction bs generalizing s k ctx f with
  | nil =>
    unfold tilePlan; try dsimp only
    repeat' (first | (cases ‹_ + 1 = _ + 1›) | with_reducible assumption | with_reducible apply tileBlock_keeps | with_reducible apply tileXlate_keeps | with_reducible apply tileCons_keeps | with_reducible apply ih | with_reducible refine Keeps.of_snd (by with_reducible assumption) ?_ | (dsimp only) | (intro _ _ _) | (intro _ _) | (intro _) | split | with_reducible apply Keeps.upd)
  | cons x l ih =>
    unfold tilePlan; try dsimp only
    repeat' (first | (cases ‹_ + 1 = _ + 1›) | with_reducible assumption | with_reducible apply tileBlock_keeps | with_reducible apply tileXlate_keeps | with_reducible apply tileCons_keeps | with_reducible apply ih | with_reducible refine Keeps.of_snd (by with_reducible assumption) ?_ | (dsimp only) | (intro _ _ _) | (intro _ _) | (intro _) | split | with_reducible apply Keeps.upd)

theorem tileRun_keeps {z : State} (s : State) (f : Xfer) (l : List TileWrite) (hz : Keeps z s) :
    Keeps z (tileRun s f l).2 := by
  unfold tileRun; try dsimp only
  repeat' (first | with_reducible assumption | with_reducible apply putBlock_keeps | with_reducible refine Keeps.of_snd (by with_reducible assumption) ?_ | with_reducible apply Keeps.foldl | with_reducible apply Keeps.foldl_snd | with_reducible apply Keeps.foldl_fst | with_reducible apply Keeps.foldl_snd_snd | (dsimp only) | (intro _ _ _) | (intro _ _) | (intro _) | split | with_reducible apply Keeps.upd)

theorem transUnit_keeps {z : State} (s : State) (k ctx : Nat) (f : Xfer) (n : Nat) (hz : Keeps z s) :
    Keeps z (transUnit s k ctx f n).2 := by
  unfold transUnit; try dsimp only
  repeat' (first | with_reducible assumption | with_reducible apply tilePlan_keeps | with_reducible apply tileRun_keeps | with_reducible refine Keeps.of_snd (by with_reducible assumption) ?_ | (dsimp only) | (intro _ _ _) | (intro _ _) | (intro _) | split | with_reducible apply Keeps.upd)

theorem gatherUnit_keeps {z : State} (s : State) (k ctx : Nat) (f : Xfer) (n : Nat) (hz : Keeps z s) :
    Keeps z (gatherUnit s k ctx f n).2 := by
  unfold gatherUnit; try dsimp only
  repeat' (first | with_reducible assumption | with_reducible apply writeUnit_keeps | with_reducible apply listEntry_keeps | with_reducible apply copyUnit_keeps | with_reducible refine Keeps.of_snd (by with_reducible assumption) ?_ | (dsimp only) | (intro _ _ _) | (intro _ _) | (intro _) | split | with_reducible apply Keeps.upd)

theorem scatterUnit_keeps {z : State} (s : State) (k ctx : Nat) (f : Xfer) (n : Nat) (hz : Keeps z s) :
    Keeps z (scatterUnit s k ctx f n).2 := by
  unfold scatterUnit; try dsimp only
  repeat' (first | with_reducible assumption | with_reducible apply listEntry_keeps | with_reducible apply writeUnit_keeps | with_reducible apply copyUnit_keeps | with_reducible refine Keeps.of_snd (by with_reducible assumption) ?_ | (dsimp only) | (intro _ _ _) | (intro _ _) | (intro _) | split | with_reducible apply Keeps.upd)

theorem storePlan_keeps {z : State} (s : State) (k ctx : Nat) (f : Xfer) (ws : List TileWrite) (hz : Keeps z s) :
    Keeps z (storePlan s k ctx f ws).2 := by
  induction ws generalizing s k ctx f with
  | nil =>
    unfold storePlan; try dsimp only
    repeat' (first | (cases ‹_ + 1 = _ + 1›) | with_reducible assumption | with_reducible apply tileXlate_keeps | with_reducible apply tileCons_keeps | with_reducible apply ih | with_reducible refine Keeps.of_snd (by with_reducible assumption) ?_ | (dsimp only) | (intro _ _ _) | (intro _ _) | (intro _) | split | with_reducible apply Keeps.upd)
  | cons x l ih =>
    unfold storePlan; try dsimp only
    repeat' (first | (cases ‹_ + 1 = _ + 1›) | with_reducible assumption | with_reducible apply tileXlate_keeps | with_reducible apply tileCons_keeps | with_reducible apply ih | with_reducible refine Keeps.of_snd (by with_reducible assumption) ?_ | (dsimp only) | (intro _ _ _) | (intro _ _) | (intro _) | split | with_reducible apply Keeps.upd)

theorem storeUnit_keeps {z : State} (s : State) (k ctx : Nat) (f : Xfer) (n : Nat) (hz : Keeps z s) :
    Keeps z (storeUnit s k ctx f n).2 := by
  unfold storeUnit; try dsimp only
  repeat' (first | with_reducible assumption | with_reducible apply writeUnit_keeps | with_reducible apply storePlan_keeps | with_reducible apply tileRun_keeps | with_reducible refine Keeps.of_snd (by with_reducible assumption) ?_ | (dsimp only) | (intro _ _ _) | (intro _ _) | (intro _) | split | with_reducible apply Keeps.upd)

theorem putUnit_keeps {z : State} (s : State) (k ctx : Nat) (f : Xfer) (n : Nat) (hz : Keeps z s) :
    Keeps z (putUnit s k ctx f n).2 := by
  unfold putUnit; try dsimp only
  repeat' (first | with_reducible assumption | with_reducible apply readBlock_keeps | with_reducible refine Keeps.of_snd (by with_reducible assumption) ?_ | (dsimp only) | (intro _ _ _) | (intro _ _) | (intro _) | split | with_reducible apply Keeps.upd)

theorem getUnit_keeps {z : State} (s : State) (k ctx : Nat) (f : Xfer) (n : Nat) (hz : Keeps z s) :
    Keeps z (getUnit s k ctx f n).2 := by
  unfold getUnit; try dsimp only
  repeat' (first | with_reducible assumption | with_reducible apply copyUnit_keeps | with_reducible apply blkXlate_keeps | with_reducible refine Keeps.of_snd (by with_reducible assumption) ?_ | (dsimp only) | (intro _ _ _) | (intro _ _) | (intro _) | split | with_reducible apply Keeps.upd)

theorem getArrive_keeps {z : State} (s : State) (k ctx : Nat) (f : Xfer) (data : Bytes) (bad : Bool) (hz : Keeps z s) :
    Keeps z (getArrive s k ctx f data bad).2 := by
  unfold getArrive; try dsimp only
  repeat' (first | with_reducible assumption | with_reducible apply writeUnit_keeps | with_reducible apply putBlock_keeps | with_reducible refine Keeps.of_snd (by with_reducible assumption) ?_ | (dsimp only) | (intro _ _ _) | (intro _ _) | (intro _) | split | with_reducible apply Keeps.upd)

theorem setTag_keeps {z : State} (s : State) (k h n : Nat) (t : TagSt) (hz : Keeps z s) :
    Keeps z (setTag s k h n t) := by
  unfold setTag; try dsimp only
  repeat' (first | with_reducible assumption | with_reducible apply hcMod_keeps | (intro _ _ _) | (intro _ _) | (intro _) | split | with_reducible apply Keeps.upd)

theorem xferEnd_keeps {z : State} (s : State) (k h n status : Nat) (hz : Keeps z s) :
    Keeps z (xferEnd s k h n status) := by
  unfold xferEnd; try dsimp only
  repeat' (first | with_reducible assumption | with_reducible apply dropReqs_keeps | with_reducible apply setTag_keeps | with_reducible apply bump_keeps | with_reducible apply latDrain_keeps | (intro _ _ _) | (intro _ _) | (intro _) | split | with_reducible apply Keeps.upd)

theorem unitDone_keeps {z : State} (s : State) (k h n ctx : Nat) (f : Xfer) (bytes fill drop : Nat) (bad : Bool) (hz : Keeps z s) :
    Keeps z (unitDone s k h n ctx f bytes fill drop bad) := by
  unfold unitDone; try dsimp only
  repeat' (first | with_reducible assumption | with_reducible apply bumpBy_keeps | with_reducible apply setTag_keeps | with_reducible apply coreCount_keeps | (intro _ _ _) | (intro _ _) | (intro _) | split | with_reducible apply Keeps.upd)

theorem localUnit_keeps {z : State} (s : State) (k ctx : Nat) (f : Xfer) (hz : Keeps z s) :
    Keeps z (localUnit s k ctx f).2 := by
  unfold localUnit; try dsimp only
  repeat' (first | with_reducible assumption | with_reducible apply copyUnit_keeps | with_reducible apply transUnit_keeps | with_reducible apply gatherUnit_keeps | with_reducible apply scatterUnit_keeps | with_reducible apply fillUnit_keeps | with_reducible apply storeUnit_keeps | with_reducible refine Keeps.of_snd (by with_reducible assumption) ?_ | (dsimp only) | (intro _ _ _) | (intro _ _) | (intro _) | split | with_reducible apply Keeps.upd)

theorem runUnits_keeps {z : State} (s : State) (k h n fuel : Nat) (hz : Keeps z s) :
    Keeps z (runUnits s k h n fuel).2 := by
  induction fuel generalizing s k h n with
  | zero =>
    unfold runUnits; try dsimp only
    repeat' (first | (cases ‹_ + 1 = _ + 1›) | with_reducible assumption | with_reducible apply putUnit_keeps | with_reducible apply getUnit_keeps | with_reducible apply spanRequest_keeps | with_reducible apply setTag_keeps | with_reducible apply bumpBy_keeps | with_reducible apply unitDone_keeps | with_reducible apply localUnit_keeps | with_reducible apply ih | with_reducible refine Keeps.of_snd (by with_reducible assumption) ?_ | (dsimp only) | (intro _ _ _) | (intro _ _) | (intro _) | split | with_reducible apply Keeps.upd)
  | succ n ih =>
    unfold runUnits; try dsimp only
    repeat' (first | (cases ‹_ + 1 = _ + 1›) | with_reducible assumption | with_reducible apply putUnit_keeps | with_reducible apply getUnit_keeps | with_reducible apply spanRequest_keeps | with_reducible apply setTag_keeps | with_reducible apply bumpBy_keeps | with_reducible apply unitDone_keeps | with_reducible apply localUnit_keeps | with_reducible apply ih | with_reducible refine Keeps.of_snd (by with_reducible assumption) ?_ | (dsimp only) | (intro _ _ _) | (intro _ _) | (intro _) | split | with_reducible apply Keeps.upd)

theorem xferKick_keeps {z : State} (s : State) (k h n : Nat) (hz : Keeps z s) :
    Keeps z (xferKick s k h n) := by
  unfold xferKick; try dsimp only
  repeat' (first | with_reducible assumption | with_reducible apply bump_keeps | with_reducible apply xferEnd_keeps | with_reducible apply runUnits_keeps | with_reducible refine Keeps.of_snd (by with_reducible assumption) ?_ | (dsimp only) | (intro _ _ _) | (intro _ _) | (intro _) | split | with_reducible apply Keeps.upd)

theorem transferEnd_keeps {z : State} (s : State) (k h n : Nat) (hz : Keeps z s) :
    Keeps z (transferEnd s k h n) := by
  unfold transferEnd; try dsimp only
  repeat' (first | with_reducible assumption | with_reducible apply runUnits_keeps | with_reducible apply xferEnd_keeps | with_reducible refine Keeps.of_snd (by with_reducible assumption) ?_ | (dsimp only) | (intro _ _ _) | (intro _ _) | (intro _) | split | with_reducible apply Keeps.upd)

theorem suspendTransfer_keeps {z : State} (s : State) (k h n : Nat) (hz : Keeps z s) :
    Keeps z (suspendTransfer s k h n) := by
  unfold suspendTransfer; try dsimp only
  repeat' (first | with_reducible assumption | with_reducible apply runUnits_keeps | with_reducible apply raiseFault_keeps | with_reducible apply coreCount_keeps | with_reducible apply bump_keeps | with_reducible apply setTag_keeps | with_reducible refine Keeps.of_snd (by with_reducible assumption) ?_ | (dsimp only) | (intro _ _ _) | (intro _ _) | (intro _) | split | with_reducible apply Keeps.upd)

theorem xferDesc_keeps {z : State} (s : State) (k : Nat) (x : Hc) (d : Nat) (dest : Bool) (peerTable : Option PeerTable) (hz : Keeps z s) :
    Keeps z (xferDesc s k x d dest peerTable).2 := by
  unfold xferDesc; try dsimp only
  repeat' (first | with_reducible assumption | with_reducible apply useDesc_keeps | with_reducible refine Keeps.of_snd (by with_reducible assumption) ?_ | (dsimp only) | (intro _ _ _) | (intro _ _) | (intro _) | split | with_reducible apply Keeps.upd)

theorem xferTensors_keeps {z : State} (s : State) (k : Nat) (x : Hc) (i : DSlot) (table : PeerTable) (hz : Keeps z s) :
    Keeps z (xferTensors s k x i table).2 := by
  unfold xferTensors; try dsimp only
  repeat' (first | with_reducible assumption | with_reducible apply xferDesc_keeps | with_reducible refine Keeps.of_snd (by with_reducible assumption) ?_ | (dsimp only) | (intro _ _ _) | (intro _ _) | (intro _) | split | with_reducible apply Keeps.upd)

theorem moverOut_keeps {z : State} (s : State) (k : Nat) (x : Hc) (i : DSlot) (table : PeerTable) (hz : Keeps z s) :
    Keeps z (moverOut s k x i table).2 := by
  unfold moverOut; try dsimp only
  repeat' (first | with_reducible assumption | with_reducible apply xferTensors_keeps | with_reducible apply access_keeps | with_reducible refine Keeps.of_snd (by with_reducible assumption) ?_ | (dsimp only) | (intro _ _ _) | (intro _ _) | (intro _) | split | with_reducible apply Keeps.upd)

theorem startXfer_keeps {z : State} (s : State) (k h n : Nat) (f : Xfer) (hz : Keeps z s) :
    Keeps z (startXfer s k h n f) := by
  unfold startXfer; try dsimp only
  repeat' (first | with_reducible assumption | with_reducible apply setTag_keeps | with_reducible apply bump_keeps | with_reducible apply xferEnd_keeps | with_reducible apply xferKick_keeps | (intro _ _ _) | (intro _ _) | (intro _) | split | with_reducible apply Keeps.upd)

theorem settleTag_keeps {z : State} (s : State) (k h n : Nat) (hz : Keeps z s) :
    Keeps z (settleTag s k h n) := by
  unfold settleTag; try dsimp only
  repeat' (first | with_reducible assumption | with_reducible apply runUnits_keeps | with_reducible refine Keeps.of_snd (by with_reducible assumption) ?_ | (dsimp only) | (intro _ _ _) | (intro _ _) | (intro _) | split | with_reducible apply Keeps.upd)

theorem moverCommit_keeps {z : State} (s : State) (k h : Nat) (x : Hc) (i : DSlot) (table : PeerTable) (hz : Keeps z s) :
    Keeps z (moverCommit s k h x i table) := by
  unfold moverCommit; try dsimp only
  repeat' (first | with_reducible assumption | with_reducible apply xferTensors_keeps | with_reducible apply startXfer_keeps | with_reducible apply settleTag_keeps | with_reducible apply setTag_keeps | with_reducible refine Keeps.of_snd (by with_reducible assumption) ?_ | with_reducible apply Keeps.foldl | with_reducible apply Keeps.foldl_snd | with_reducible apply Keeps.foldl_fst | with_reducible apply Keeps.foldl_snd_snd | (dsimp only) | (intro _ _ _) | (intro _ _) | (intro _) | split | with_reducible apply Keeps.upd)

theorem mstCommit_keeps {z : State} (s : State) (k h : Nat) (x : Hc) (i : MSlot) (hz : Keeps z s) :
    Keeps z (mstCommit s k h x i) := by
  unfold mstCommit; try dsimp only
  repeat' (first | with_reducible assumption | with_reducible apply useDesc_keeps | with_reducible apply startXfer_keeps | with_reducible apply setTag_keeps | with_reducible apply xferEnd_keeps | with_reducible refine Keeps.of_snd (by with_reducible assumption) ?_ | (dsimp only) | (intro _ _ _) | (intro _ _) | (intro _) | split | with_reducible apply Keeps.upd)

end Sys2Proof.Machine
end

