-- ==== Sys2Proof/Laws/KeepsControl.lean ====
section
/-!
SUPPORT. The operations of Control keep the queue and the canonical form of the tables.
-/

namespace Sys2Proof.Machine

theorem slotReady_keeps {z : State} (s : State) (n status : Nat) (data : Bytes) (hz : Keeps z s) :
    Keeps z (slotReady s n status data) := by
  unfold slotReady; try dsimp only
  repeat' (first | with_reducible assumption | with_reducible apply writeCells_keeps | (intro _ _ _) | (intro _ _) | (intro _) | split | with_reducible apply Keeps.upd)


theorem runReady_keeps {z : State} (s : State) (ctx status : Nat) (data : Bytes) (hz : Keeps z s) :
    Keeps z (runReady s ctx status data) := by
  unfold runReady; try dsimp only
  repeat' (first | with_reducible assumption | with_reducible apply slotReady_keeps | (intro _ _ _) | (intro _ _) | (intro _) | split | with_reducible apply Keeps.upd)

theorem rewindOpen_keeps {z : State} (s : State) (ctx : Nat) (hz : Keeps z s) :
    Keeps z (rewindOpen s ctx) := by
  unfold rewindOpen; try dsimp only
  repeat' (first | with_reducible assumption | with_reducible apply queueRewindPacket_keeps | with_reducible apply Keeps.foldl | with_reducible apply Keeps.foldl_snd | with_reducible apply Keeps.foldl_fst | with_reducible apply Keeps.foldl_snd_snd | (intro _ _ _) | (intro _ _) | (intro _) | split | with_reducible apply Keeps.upd)

theorem releasePair_keeps {z : State} (s : State) (k : Nat) (hz : Keeps z s) :
    Keeps z (releasePair s k) := by
  unfold releasePair; try dsimp only
  repeat' (first | with_reducible assumption | with_reducible apply coreMod_keeps | (intro _ _ _) | (intro _ _) | (intro _) | split | with_reducible apply Keeps.upd)

theorem dropClaim_keeps {z : State} (s : State) (k h : Nat) (hz : Keeps z s) :
    Keeps z (dropClaim s k h) := by
  unfold dropClaim; try dsimp only
  repeat' (first | with_reducible assumption | with_reducible apply releasePair_keeps | with_reducible apply coreMod_keeps | (intro _ _ _) | (intro _ _) | (intro _) | split | with_reducible apply Keeps.upd)

theorem stepOver_keeps {z : State} (s : State) (x : Hc) (hz : Keeps z s) :
    Keeps z (stepOver s x) := by
  unfold stepOver; try dsimp only
  repeat' (first | with_reducible assumption | with_reducible apply regPutF_keeps | (intro _ _ _) | (intro _ _) | (intro _) | split | with_reducible apply Keeps.upd)

theorem freeContext_keeps {z : State} (s : State) (k h : Nat) (hz : Keeps z s) :
    Keeps z (freeContext s k h) := by
  unfold freeContext; try dsimp only
  repeat' (first | with_reducible assumption | with_reducible apply rewindOpen_keeps | with_reducible apply dropClaim_keeps | with_reducible apply countSend_keeps | with_reducible apply coreMod_keeps | with_reducible apply hcSet_keeps | with_reducible apply stepOver_keeps | (intro _ _ _) | (intro _ _) | (intro _) | split | with_reducible apply Keeps.upd)

theorem exitCopy_keeps {z : State} (s : State) (k ctx va n : Nat) (hz : Keeps z s) :
    Keeps z (exitCopy s k ctx va n).2 := by
  unfold exitCopy; try dsimp only
  repeat' (first | with_reducible assumption | with_reducible apply virtRead_keeps | with_reducible refine Keeps.of_snd (by with_reducible assumption) ?_ | (dsimp only) | (intro _ _ _) | (intro _ _) | (intro _) | split | with_reducible apply Keeps.upd)

theorem exitContext_keeps {z : State} (s : State) (k h : Nat) (hz : Keeps z s) :
    Keeps z (exitContext s k h) := by
  unfold exitContext; try dsimp only
  repeat' (first | with_reducible assumption | with_reducible apply exitCopy_keeps | with_reducible apply freeContext_keeps | with_reducible apply runReady_keeps | with_reducible refine Keeps.of_snd (by with_reducible assumption) ?_ | (dsimp only) | (intro _ _ _) | (intro _ _) | (intro _) | split | with_reducible apply Keeps.upd)

theorem excEvent_keeps {z : State} (s : State) (k ctx addr : Nat) (hz : Keeps z s) :
    Keeps z (excEvent s k ctx addr) := by
  unfold excEvent; try dsimp only
  repeat' (first | with_reducible assumption | with_reducible apply crownEvent_keeps | (intro _ _ _) | (intro _ _) | (intro _) | split | with_reducible apply Keeps.upd)

theorem raiseExc_keeps {z : State} (s : State) (k h : Nat) (e : Exc) (hz : Keeps z s) :
    Keeps z (raiseExc s k h e) := by
  unfold raiseExc; try dsimp only
  repeat' (first | with_reducible assumption | with_reducible apply debugTrigger_keeps | with_reducible apply hcSet_keeps | with_reducible apply stepOver_keeps | with_reducible apply bump_keeps | with_reducible apply memWr_keeps | with_reducible apply excEvent_keeps | with_reducible apply freeContext_keeps | with_reducible apply runReady_keeps | with_reducible apply excTrigger_keeps | (intro _ _ _) | (intro _ _) | (intro _) | split | with_reducible apply Keeps.upd)

namespace Keeps

theorem of_qdone {s : State} {r : QDone × Bool} {d : QDone} {b : Bool} (e : r = (d, b)) (h : Keeps s r.1.s) : Keeps s d.s := by
  rw [e] at h; exact h

end Keeps

theorem qSimple_keeps {z : State} (r : QRes × State) (hz : Keeps z r.2) : Keeps z (qSimple r).s := hz

theorem qOpen_keeps {z : State} (s : State) (q n : Nat) (discard : Bool) (hz : Keeps z s) :
    Keeps z (qOpen s q n discard).1.s := by
  unfold qOpen; try dsimp only
  repeat' (first | with_reducible assumption | with_reducible apply qSimple_keeps | with_reducible apply queueSet_keeps | with_reducible apply queueOpen_keeps | with_reducible apply queueRewindPacket_keeps | with_reducible refine Keeps.of_snd (by with_reducible assumption) ?_ | (dsimp only) | (intro _ _ _) | (intro _ _) | (intro _) | split | with_reducible apply Keeps.upd)

theorem qPush_keeps {z : State} (s : State) (q : Nat) (ws : List QWord) (n : Nat) (hz : Keeps z s) :
    Keeps z (qPush s q ws n).s := by
  induction ws generalizing s q n with
  | nil =>
    unfold qPush; try dsimp only
    repeat' (first | (cases ‹_ + 1 = _ + 1›) | with_reducible assumption | with_reducible apply qSimple_keeps | with_reducible apply queuePush_keeps | with_reducible apply ih | with_reducible refine Keeps.of_snd (by with_reducible assumption) ?_ | (dsimp only) | (intro _ _ _) | (intro _ _) | (intro _) | split | with_reducible apply Keeps.upd)
  | cons x l ih =>
    unfold qPush; try dsimp only
    repeat' (first | (cases ‹_ + 1 = _ + 1›) | with_reducible assumption | with_reducible apply qSimple_keeps | with_reducible apply queuePush_keeps | with_reducible apply ih | with_reducible refine Keeps.of_snd (by with_reducible assumption) ?_ | (dsimp only) | (intro _ _ _) | (intro _ _) | (intro _) | split | with_reducible apply Keeps.upd)

theorem qTake_keeps {z : State} (s : State) (q n : Nat) (hz : Keeps z s) :
    Keeps z (qTake s q n).2 := by
  induction n generalizing s q with
  | zero =>
    unfold qTake; try dsimp only
    repeat' (first | (cases ‹_ + 1 = _ + 1›) | with_reducible assumption | with_reducible apply queueRead_keeps | with_reducible apply ih | with_reducible refine Keeps.of_snd (by with_reducible assumption) ?_ | (dsimp only) | (intro _ _ _) | (intro _ _) | (intro _) | split | with_reducible apply Keeps.upd)
  | succ n ih =>
    unfold qTake; try dsimp only
    repeat' (first | (cases ‹_ + 1 = _ + 1›) | with_reducible assumption | with_reducible apply queueRead_keeps | with_reducible apply ih | with_reducible refine Keeps.of_snd (by with_reducible assumption) ?_ | (dsimp only) | (intro _ _ _) | (intro _ _) | (intro _) | split | with_reducible apply Keeps.upd)

theorem qRead_keeps {z : State} (s : State) (q n : Nat) (waits : Bool) (dest : List QWord → Bool → List RegWrite) (hz : Keeps z s) :
    Keeps z (qRead s q n waits dest).s := by
  unfold qRead; try dsimp only
  repeat' (first | with_reducible assumption | with_reducible apply qSimple_keeps | with_reducible apply qTake_keeps | with_reducible refine Keeps.of_snd (by with_reducible assumption) ?_ | (dsimp only) | (intro _ _ _) | (intro _ _) | (intro _) | split | with_reducible apply Keeps.upd)

theorem queueOp_keeps {z : State} (s : State) (x : Hc) (i : CSlot) (q : Nat) (hz : Keeps z s) :
    Keeps z (queueOp s x i q).1.s := by
  unfold queueOp; try dsimp only
  repeat' (first | with_reducible assumption | with_reducible apply qOpen_keeps | with_reducible apply qPush_keeps | with_reducible apply qSimple_keeps | with_reducible apply queueCommit_keeps | with_reducible apply queueAbort_keeps | with_reducible apply qRead_keeps | with_reducible apply queueMark_keeps | with_reducible apply queueRewind_keeps | with_reducible apply queueRelease_keeps | with_reducible refine Keeps.of_qdone (by with_reducible assumption) ?_ | with_reducible refine Keeps.of_snd (by with_reducible assumption) ?_ | (dsimp only) | (intro _ _ _) | (intro _ _) | (intro _) | split | with_reducible apply Keeps.upd)

theorem setPc_keeps {z : State} (s : State) (k h pc : Nat) (hz : Keeps z s) :
    Keeps z (setPc s k h pc) := by
  unfold setPc; try dsimp only
  repeat' (first | with_reducible assumption | with_reducible apply hcMod_keeps | (intro _ _ _) | (intro _ _) | (intro _) | split | with_reducible apply Keeps.upd)

theorem dropBundles_keeps {z : State} (s : State) (k ctx : Nat) (hz : Keeps z s) :
    Keeps z (dropBundles s k ctx) := by
  unfold dropBundles; try dsimp only
  repeat' (first | with_reducible assumption | with_reducible apply coreMod_keeps | (intro _ _ _) | (intro _ _) | (intro _) | split | with_reducible apply Keeps.upd)

theorem queueCommitOp_keeps {z : State} (s : State) (k h : Nat) (x : Hc) (i : CSlot) (hz : Keeps z s) :
    Keeps z (queueCommitOp s k h x i) := by
  unfold queueCommitOp; try dsimp only
  repeat' (first | with_reducible assumption | with_reducible apply queueOp_keeps | with_reducible apply hcMod_keeps | with_reducible refine Keeps.of_qdone (by with_reducible assumption) ?_ | (dsimp only) | (intro _ _ _) | (intro _ _) | (intro _) | split | with_reducible apply Keeps.upd)

theorem exitDone_keeps {z : State} (s : State) (k h : Nat) (hz : Keeps z s) :
    Keeps z (exitDone s k h) := by
  unfold exitDone; try dsimp only
  repeat' (first | with_reducible assumption | with_reducible apply exitContext_keeps | (intro _ _ _) | (intro _ _) | (intro _) | split | with_reducible apply Keeps.upd)

theorem exitCommit_keeps {z : State} (s : State) (k h : Nat) (x : Hc) (hz : Keeps z s) :
    Keeps z (exitCommit s k h x) := by
  unfold exitCommit; try dsimp only
  repeat' (first | with_reducible assumption | with_reducible apply exitDone_keeps | with_reducible apply hcMod_keeps | (intro _ _ _) | (intro _ _) | (intro _) | split | with_reducible apply Keeps.upd)

theorem controlCommit_keeps {z : State} (s : State) (k h : Nat) (x : Hc) (i : CSlot) (hz : Keeps z s) :
    Keeps z (controlCommit s k h x i) := by
  unfold controlCommit; try dsimp only
  repeat' (first | with_reducible assumption | with_reducible apply setPc_keeps | with_reducible apply exitCommit_keeps | with_reducible apply dropBundles_keeps | with_reducible apply hcMod_keeps | with_reducible apply releasePair_keeps | with_reducible apply queueCommitOp_keeps | (intro _ _ _) | (intro _ _) | (intro _) | split | with_reducible apply Keeps.upd)

end Sys2Proof.Machine
end

