-- ==== Sys2Proof/Laws/KeepsIssue.lean ====
section
/-!
SUPPORT. The operations of Issue keep the queue and the canonical form of the tables.
-/

namespace Sys2Proof.Machine
/-- A state that takes the memory of another. -/
theorem Keeps.withMem {z s t : State} (h : Keeps z s) (h1 : Keeps z t) : Keeps z { s with mem := t.mem, memPoison := t.memPoison, upsets := t.upsets } :=
  ⟨h.1, h1.2.1, h1.2.2.1, h.2.2.2⟩

theorem storeOnly_keeps {z : State} (s : State) (w : Nat × Bytes × Bool) (hz : Keeps z s) : Keeps z (storeOnly s w) :=
  hz.withMem (busWrite_keeps s w.1 w.2.1 w.2.2 hz)

theorem slotOut_keeps {z : State} {α : Type} (o : Option α) (f : α → State → SlotOut × State) (s : State) (hz : Keeps z s) (hf : ∀ a t, Keeps z t → Keeps z (f a t).2) :
    Keeps z (slotOut o f s).2 := by
  unfold slotOut; try dsimp only
  repeat' (first | with_reducible assumption | with_reducible refine Keeps.of_snd (by with_reducible assumption) ?_ | with_reducible apply hf | (dsimp only) | (intro _ _ _) | (intro _ _) | (intro _) | split | with_reducible apply Keeps.upd)

theorem bundleOuts_keeps {z : State} (s : State) (k h : Nat) (x : Hc) (b : Bundle) (table : PeerTable) (hz : Keeps z s) :
    Keeps z (bundleOuts s k h x b table).2 := by
  have h1 := slotOut_keeps b.sa (fun i t => scalarOut t k x .sa i) s hz (fun i t ht => scalarOut_keeps t k x .sa i ht)
  have h2 := slotOut_keeps b.sb (fun i t => scalarOut t k x .sb i) _ h1 (fun i t ht => scalarOut_keeps t k x .sb i ht)
  have h3 := slotOut_keeps b.vx (fun i t => vectorOut t k x i) _ h2 (fun i t ht => vectorOut_keeps t k x i ht)
  unfold bundleOuts
  refine Keeps.withMem (t := _) ?_ h3
  refine slotOut_keeps b.cx _ _ ?_ (fun i t ht => ht)
  refine slotOut_keeps b.dx _ _ ?_ (fun i t ht => moverOut_keeps t k x i table ht)
  refine slotOut_keeps b.mx _ _ ?_ (fun i t ht => matrixOut_keeps t k h x i ht)
  exact Keeps.foldl h3 (fun t w ht => storeOnly_keeps t w ht)

theorem countBundle_keeps {z : State} (s : State) (k ctx : Nat) (hz : Keeps z s) :
    Keeps z (countBundle s k ctx) := by
  unfold countBundle; try dsimp only
  repeat' (first | with_reducible assumption | with_reducible apply coreCount_keeps | with_reducible apply obsAdd_keeps | with_reducible apply bump_keeps | (intro _ _ _) | (intro _ _) | (intro _) | split | with_reducible apply Keeps.upd)

theorem stepStop_keeps {z : State} (s : State) (k h : Nat) (hz : Keeps z s) :
    Keeps z (stepStop s k h) := by
  unfold stepStop; try dsimp only
  repeat' (first | with_reducible assumption | with_reducible apply hcSet_keeps | with_reducible apply debugTrigger_keeps | with_reducible apply regPutF_keeps | (intro _ _ _) | (intro _ _) | (intro _) | split | with_reducible apply Keeps.upd)

theorem commitBundle_keeps {z : State} (s : State) (k h : Nat) (x : Hc) (b : Bundle) (outs : List SlotOut) (table : PeerTable) (hz : Keeps z s) :
    Keeps z (commitBundle s k h x b outs table) := by
  unfold commitBundle; try dsimp only
  repeat' (first | with_reducible assumption | with_reducible apply memTouch_keeps | with_reducible apply busWrite_keeps | with_reducible apply countBundle_keeps | with_reducible apply hcSet_keeps | with_reducible apply mstCommit_keeps | with_reducible apply matrixCommit_keeps | with_reducible apply moverCommit_keeps | with_reducible apply controlCommit_keeps | with_reducible apply stepStop_keeps | with_reducible apply Keeps.foldl | with_reducible apply Keeps.foldl_snd | with_reducible apply Keeps.foldl_fst | with_reducible apply Keeps.foldl_snd_snd | (intro _ _ _) | (intro _ _) | (intro _) | split | with_reducible apply Keeps.upd)

theorem suspendBundle_keeps {z : State} (s : State) (k h : Nat) (x : Hc) (f : Flt) (hz : Keeps z s) :
    Keeps z (suspendBundle s k h x f) := by
  unfold suspendBundle; try dsimp only
  repeat' (first | with_reducible assumption | with_reducible apply raiseFault_keeps | with_reducible apply coreCount_keeps | with_reducible apply hcMod_keeps | with_reducible refine Keeps.of_snd (by with_reducible assumption) ?_ | (dsimp only) | (intro _ _ _) | (intro _ _) | (intro _) | split | with_reducible apply Keeps.upd)

theorem waitBundle_keeps {z : State} (s : State) (k h : Nat) (x : Hc) (b : Bundle) (hz : Keeps z s) :
    Keeps z (waitBundle s k h x b) := by
  unfold waitBundle; try dsimp only
  repeat' (first | with_reducible assumption | with_reducible apply hcMod_keeps | with_reducible apply coreMod_keeps | (intro _ _ _) | (intro _ _) | (intro _) | split | with_reducible apply Keeps.upd)

theorem issueBundle_keeps {z : State} (s : State) (k h : Nat) (x : Hc) (b : Bundle) (table : PeerTable) (hz : Keeps z s) :
    Keeps z (issueBundle s k h x b table) := by
  unfold issueBundle; try dsimp only
  repeat' (first | with_reducible assumption | with_reducible apply raiseExc_keeps | with_reducible apply hcMod_keeps | with_reducible apply bundleOuts_keeps | with_reducible apply suspendBundle_keeps | with_reducible apply waitBundle_keeps | with_reducible apply commitBundle_keeps | with_reducible refine Keeps.of_snd (by with_reducible assumption) ?_ | (dsimp only) | (intro _ _ _) | (intro _ _) | (intro _) | split | with_reducible apply Keeps.upd)

theorem passBlanks_keeps {z : State} (s : State) (k h fuel : Nat) (hz : Keeps z s) :
    Keeps z (passBlanks s k h fuel) := by
  induction fuel generalizing s k h with
  | zero =>
    unfold passBlanks; try dsimp only
    repeat' (first | (cases ‹_ + 1 = _ + 1›) | with_reducible assumption | with_reducible apply raiseExc_keeps | with_reducible apply issueBundle_keeps | with_reducible apply ih | (intro _ _ _) | (intro _ _) | (intro _) | split | with_reducible apply Keeps.upd)
  | succ n ih =>
    unfold passBlanks; try dsimp only
    repeat' (first | (cases ‹_ + 1 = _ + 1›) | with_reducible assumption | with_reducible apply raiseExc_keeps | with_reducible apply issueBundle_keeps | with_reducible apply ih | (intro _ _ _) | (intro _ _) | (intro _) | split | with_reducible apply Keeps.upd)

theorem issueRow_keeps {z : State} (s : State) (k h : Nat) (g : GOp) (table : PeerTable) (hz : Keeps z s) :
    Keeps z (issueRow s k h g table) := by
  unfold issueRow; try dsimp only
  repeat' (first | with_reducible assumption | with_reducible apply exitDone_keeps | with_reducible apply passBlanks_keeps | with_reducible apply issueBundle_keeps | (intro _ _ _) | (intro _ _) | (intro _) | split | with_reducible apply Keeps.upd)

theorem cacheFill_keeps {z : State} (s : State) (k h : Nat) (hz : Keeps z s) :
    Keeps z (cacheFill s k h) := by
  unfold cacheFill; try dsimp only
  repeat' (first | with_reducible assumption | with_reducible apply translate_keeps | with_reducible apply coreMod_keeps | with_reducible apply memTouch_keeps | with_reducible apply passBlanks_keeps | with_reducible apply raiseExc_keeps | with_reducible apply suspendBundle_keeps | with_reducible apply bump_keeps | with_reducible refine Keeps.of_snd (by with_reducible assumption) ?_ | (dsimp only) | (intro _ _ _) | (intro _ _) | (intro _) | split | with_reducible apply Keeps.upd)

theorem loadComplete_keeps {z : State} (s : State) (k h : Nat) (r : RegRef) (hz : Keeps z s) :
    Keeps z (loadComplete s k h r) := by
  unfold loadComplete; try dsimp only
  repeat' (first | with_reducible assumption | with_reducible apply hcSet_keeps | (intro _ _ _) | (intro _ _) | (intro _) | split | with_reducible apply Keeps.upd)

end Sys2Proof.Machine
end

