-- ==== Sys2Proof/Laws/KeepsFrames.lean ====
section
/-!
SUPPORT. The operations of Frames keep the queue and the canonical form of the tables.
-/

namespace Sys2Proof.Machine
theorem writeFrame_keeps {z : State} (s : State) (a : Nat) (x : Hc) (st : Nat) (claim : Bool) (l : Lattice) (hz : Keeps z s) :
    Keeps z (writeFrame s a x st claim l) := by
  unfold writeFrame; try dsimp only
  repeat' (first | with_reducible assumption | with_reducible apply memWr_keeps | (intro _ _ _) | (intro _ _) | (intro _) | split | with_reducible apply Keeps.upd)

theorem reloadSlice_keeps {z : State} (s : State) (k : Nat) (x : Hc) (i w : Nat) (hz : Keeps z s) :
    Keeps z (reloadSlice s k x i w) := by
  unfold reloadSlice; try dsimp only
  repeat' (first | with_reducible assumption | with_reducible apply latMod_keeps | with_reducible apply useDesc_keeps | with_reducible apply readKVecs_keeps | with_reducible apply countFills_keeps | with_reducible refine Keeps.of_snd (by with_reducible assumption) ?_ | (dsimp only) | (intro _ _ _) | (intro _ _) | (intro _) | split | with_reducible apply Keeps.upd)

theorem givePair_keeps {z : State} (s : State) (k h : Nat) (l : Lattice) (hz : Keeps z s) :
    Keeps z (givePair s k h l) := by
  unfold givePair; try dsimp only
  repeat' (first | with_reducible assumption | with_reducible apply coreMod_keeps | (intro _ _ _) | (intro _ _) | (intro _) | split | with_reducible apply Keeps.upd)

theorem takePair_keeps {z : State} (s : State) (k h : Nat) (x : Hc) (b acc : Bytes) (hz : Keeps z s) :
    Keeps z (takePair s k h x b acc) := by
  unfold takePair; try dsimp only
  repeat' (first | with_reducible assumption | with_reducible apply reloadSlice_keeps | with_reducible apply givePair_keeps | with_reducible apply Keeps.foldl | with_reducible apply Keeps.foldl_snd | with_reducible apply Keeps.foldl_fst | with_reducible apply Keeps.foldl_snd_snd | (intro _ _ _) | (intro _ _) | (intro _) | split | with_reducible apply Keeps.upd)

theorem quiesce_keeps {z : State} (s : State) (k h : Nat) (units : List Nat) (hz : Keeps z s) :
    Keeps z (quiesce s k h units) := by
  unfold quiesce; try dsimp only
  repeat' (first | with_reducible assumption | with_reducible apply hcMod_keeps | with_reducible apply finishMatrix_keeps | with_reducible apply runUnits_keeps | with_reducible apply hcSet_keeps | with_reducible apply rewindOpen_keeps | with_reducible refine Keeps.of_snd (by with_reducible assumption) ?_ | with_reducible apply Keeps.foldl | with_reducible apply Keeps.foldl_snd | with_reducible apply Keeps.foldl_fst | with_reducible apply Keeps.foldl_snd_snd | (dsimp only) | (intro _ _ _) | (intro _ _) | (intro _) | split | with_reducible apply Keeps.upd)

theorem copyAcc_keeps {z : State} (s : State) (a b : Nat) (hz : Keeps z s) :
    Keeps z (copyAcc s a b) := by
  unfold copyAcc; try dsimp only
  repeat' (first | with_reducible assumption | with_reducible apply busWrite_keeps | with_reducible apply memWr_keeps | with_reducible apply Keeps.foldl | with_reducible apply Keeps.foldl_snd | with_reducible apply Keeps.foldl_fst | with_reducible apply Keeps.foldl_snd_snd | (intro _ _ _) | (intro _ _) | (intro _) | split | with_reducible apply Keeps.upd)

theorem storeContext_keeps {z : State} (s : State) (k h a : Nat) (hz : Keeps z s) :
    Keeps z (storeContext s k h a).1 := by
  unfold storeContext; try dsimp only
  repeat' (first | with_reducible assumption | with_reducible apply copyAcc_keeps | with_reducible apply memWr_keeps | with_reducible apply writeFrame_keeps | (dsimp only) | (intro _ _ _) | (intro _ _) | (intro _) | split | with_reducible apply Keeps.upd)

theorem marksSet_keeps {z : State} (s : State) (ctx : Nat) (m : FMap TagMark) (hz : Keeps z s) :
    Keeps z (marksSet s ctx m) := by
  unfold marksSet; try dsimp only
  repeat' (first | with_reducible assumption | (intro _ _ _) | (intro _ _) | (intro _) | split | with_reducible apply Keeps.upd)

theorem keepMarks_keeps {z : State} (s : State) (x : Hc) (hz : Keeps z s) :
    Keeps z (keepMarks s x) := by
  unfold keepMarks; try dsimp only
  repeat' (first | with_reducible assumption | with_reducible apply marksSet_keeps | with_reducible apply Keeps.foldl | with_reducible apply Keeps.foldl_snd | with_reducible apply Keeps.foldl_fst | with_reducible apply Keeps.foldl_snd_snd | (intro _ _ _) | (intro _ _) | (intro _) | split | with_reducible apply Keeps.upd)

theorem countPreempt_keeps {z : State} (s : State) (k ctx : Nat) (hz : Keeps z s) :
    Keeps z (countPreempt s k ctx) := by
  unfold countPreempt; try dsimp only
  repeat' (first | with_reducible assumption | with_reducible apply coreCount_keeps | with_reducible apply bump_keeps | (intro _ _ _) | (intro _ _) | (intro _) | split | with_reducible apply Keeps.upd)

theorem countStops_keeps {z : State} (s : State) (k : Nat) (x : Hc) (hz : Keeps z s) :
    Keeps z (countStops s k x) := by
  unfold countStops; try dsimp only
  repeat' (first | with_reducible assumption | with_reducible apply bumpBy_keeps | (intro _ _ _) | (intro _ _) | (intro _) | split | with_reducible apply Keeps.upd)

theorem frameWritten_keeps {z : State} (s : State) (k h f st : Nat) (x : Hc) (hz : Keeps z s) :
    Keeps z (frameWritten s k h f st x) := by
  unfold frameWritten; try dsimp only
  repeat' (first | with_reducible assumption | with_reducible apply keepMarks_keeps | with_reducible apply dropClaim_keeps | with_reducible apply countSend_keeps | with_reducible apply countPreempt_keeps | with_reducible apply countStops_keeps | with_reducible apply coreMod_keeps | with_reducible apply hcSet_keeps | (intro _ _ _) | (intro _ _) | (intro _) | split | with_reducible apply Keeps.upd)

theorem raiseInFrame_keeps {z : State} (s : State) (k f : Nat) (x : Hc) (e : Exc) (hz : Keeps z s) :
    Keeps z (raiseInFrame s k f x e) := by
  unfold raiseInFrame; try dsimp only
  repeat' (first | with_reducible assumption | with_reducible apply excEvent_keeps | with_reducible apply bump_keeps | with_reducible apply memWr_keeps | with_reducible apply coreMod_keeps | with_reducible apply marksSet_keeps | with_reducible apply runReady_keeps | with_reducible apply excTrigger_keeps | (intro _ _ _) | (intro _ _) | (intro _) | split | with_reducible apply Keeps.upd)

theorem grantHeld_keeps {z : State} (s : State) (k h f : Nat) (x : Hc) (hz : Keeps z s) :
    Keeps z (grantHeld s k h f x) := by
  unfold grantHeld; try dsimp only
  repeat' (first | with_reducible assumption | with_reducible apply memTouch_keeps | with_reducible apply freeContext_keeps | with_reducible apply raiseInFrame_keeps | with_reducible apply takePair_keeps | with_reducible apply coreMod_keeps | with_reducible apply hcSet_keeps | (intro _ _ _) | (intro _ _) | (intro _) | split | with_reducible apply Keeps.upd)

theorem claimGrant_keeps {z : State} (s : State) (k : Nat) (hz : Keeps z s) :
    Keeps z (claimGrant s k) := by
  unfold claimGrant; try dsimp only
  repeat' (first | with_reducible assumption | with_reducible apply coreMod_keeps | with_reducible apply hcSet_keeps | with_reducible apply givePair_keeps | with_reducible apply grantHeld_keeps | (intro _ _ _) | (intro _ _) | (intro _) | split | with_reducible apply Keeps.upd)

theorem stopXfer_keeps {z : State} (s : State) (k h n : Nat) (x : Hc) (f : Xfer) (o : SlotOut) (hz : Keeps z s) :
    Keeps z (stopXfer s k h n x f o) := by
  unfold stopXfer; try dsimp only
  repeat' (first | with_reducible assumption | with_reducible apply raiseFault_keeps | with_reducible apply setTag_keeps | with_reducible apply xferEnd_keeps | with_reducible refine Keeps.of_snd (by with_reducible assumption) ?_ | (dsimp only) | (intro _ _ _) | (intro _ _) | (intro _) | split | with_reducible apply Keeps.upd)

theorem resumeXfer_keeps {z : State} (s : State) (k h n : Nat) (f : Xfer) (table : PeerTable) (hz : Keeps z s) :
    Keeps z (resumeXfer s k h n f table) := by
  unfold resumeXfer; try dsimp only
  repeat' (first | with_reducible assumption | with_reducible apply bump_keeps | with_reducible apply xferEnd_keeps | with_reducible apply setTag_keeps | with_reducible apply xferDesc_keeps | with_reducible apply xferKick_keeps | with_reducible apply stopXfer_keeps | with_reducible refine Keeps.of_snd (by with_reducible assumption) ?_ | (dsimp only) | (intro _ _ _) | (intro _ _) | (intro _) | split | with_reducible apply Keeps.upd)

theorem resumeTag_keeps {z : State} (s : State) (k h n : Nat) (img : Bytes) (mark : Option TagMark) (table : PeerTable) (hz : Keeps z s) :
    Keeps z (resumeTag s k h n img mark table) := by
  unfold resumeTag; try dsimp only
  repeat' (first | with_reducible assumption | with_reducible apply setTag_keeps | with_reducible apply xferEnd_keeps | with_reducible apply resumeXfer_keeps | (intro _ _ _) | (intro _ _) | (intro _) | split | with_reducible apply Keeps.upd)

theorem resumeTags_keeps {z : State} (s : State) (k h : Nat) (img : Bytes) (tables : List PeerTable) (hz : Keeps z s) :
    Keeps z (resumeTags s k h img tables) := by
  unfold resumeTags; try dsimp only
  repeat' (first | with_reducible assumption | with_reducible apply resumeTag_keeps | with_reducible apply marksSet_keeps | with_reducible apply Keeps.foldl | with_reducible apply Keeps.foldl_snd | with_reducible apply Keeps.foldl_fst | with_reducible apply Keeps.foldl_snd_snd | (intro _ _ _) | (intro _ _) | (intro _) | split | with_reducible apply Keeps.upd)

theorem restoreExc_keeps {z : State} (s : State) (k h : Nat) (x : Hc) (hz : Keeps z s) :
    Keeps z (restoreExc s k h x).2 := by
  unfold restoreExc; try dsimp only
  repeat' (first | with_reducible assumption | with_reducible apply translate_keeps | with_reducible apply bump_keeps | with_reducible apply bundleOuts_keeps | with_reducible refine Keeps.of_snd (by with_reducible assumption) ?_ | (dsimp only) | (intro _ _ _) | (intro _ _) | (intro _) | split | with_reducible apply Keeps.upd)

theorem restoreInto_keeps {z : State} (s : State) (k f h : Nat) (tables : List PeerTable) (hz : Keeps z s) :
    Keeps z (restoreInto s k f h tables) := by
  unfold restoreInto; try dsimp only
  repeat' (first | with_reducible assumption | with_reducible apply coreMod_keeps | with_reducible apply memTouch_keeps | with_reducible apply raiseInFrame_keeps | with_reducible apply restoreExc_keeps | with_reducible apply hcSet_keeps | with_reducible apply takePair_keeps | with_reducible apply passBlanks_keeps | with_reducible apply resumeTags_keeps | with_reducible refine Keeps.of_snd (by with_reducible assumption) ?_ | (dsimp only) | (intro _ _ _) | (intro _ _) | (intro _) | split | with_reducible apply Keeps.upd)

theorem restoreRow_keeps {z : State} (s : State) (k : Nat) (tables : List PeerTable) (hz : Keeps z s) :
    Keeps z (restoreRow s k tables) := by
  unfold restoreRow; try dsimp only
  repeat' (first | with_reducible assumption | with_reducible apply restoreInto_keeps | (intro _ _ _) | (intro _ _) | (intro _) | split | with_reducible apply Keeps.upd)

theorem choosePreempt_keeps {z : State} (s : State) (k h : Nat) (hz : Keeps z s) :
    Keeps z (choosePreempt s k h) := by
  unfold choosePreempt; try dsimp only
  repeat' (first | with_reducible assumption | with_reducible apply coreMod_keeps | (intro _ _ _) | (intro _ _) | (intro _) | split | with_reducible apply Keeps.upd)

theorem quantumExpiry_keeps {z : State} (s : State) (k : Nat) (waiting : Option Nat) (hz : Keeps z s) :
    Keeps z (quantumExpiry s k waiting) := by
  unfold quantumExpiry; try dsimp only
  repeat' (first | with_reducible assumption | with_reducible apply choosePreempt_keeps | (intro _ _ _) | (intro _ _) | (intro _) | split | with_reducible apply Keeps.upd)

theorem resolveBundle_keeps {z : State} (s : State) (k h act src va : Nat) (slot : SlotId) (hz : Keeps z s) :
    Keeps z (resolveBundle s k h act src va slot) := by
  unfold resolveBundle; try dsimp only
  repeat' (first | with_reducible assumption | with_reducible apply hcMod_keeps | with_reducible apply raiseExc_keeps | (intro _ _ _) | (intro _ _) | (intro _) | split | with_reducible apply Keeps.upd)

theorem resolveXfer_keeps {z : State} (s : State) (k h n act : Nat) (f : Xfer) (table : PeerTable) (hz : Keeps z s) :
    Keeps z (resolveXfer s k h n act f table) := by
  unfold resolveXfer; try dsimp only
  repeat' (first | with_reducible assumption | with_reducible apply resumeXfer_keeps | with_reducible apply xferEnd_keeps | (intro _ _ _) | (intro _ _) | (intro _) | split | with_reducible apply Keeps.upd)

theorem framePoke_keeps {z : State} (s : State) (k f off v : Nat) (hz : Keeps z s) :
    Keeps z (framePoke s k f off v) := by
  unfold framePoke; try dsimp only
  repeat' (first | with_reducible assumption | with_reducible apply memWr_keeps | (intro _ _ _) | (intro _ _) | (intro _) | split | with_reducible apply Keeps.upd)

theorem resolveFrame_keeps {z : State} (s : State) (k f act : Nat) (t : Option Nat) (hz : Keeps z s) :
    Keeps z (resolveFrame s k f act t) := by
  unfold resolveFrame; try dsimp only
  repeat' (first | with_reducible assumption | with_reducible apply coreMod_keeps | with_reducible apply framePoke_keeps | (intro _ _ _) | (intro _ _) | (intro _) | split | with_reducible apply Keeps.upd)

theorem applyResolve_keeps {z : State} (s : State) (k q act : Nat) (table : PeerTable) (hz : Keeps z s) :
    Keeps z (applyResolve s k q act table).2 := by
  unfold applyResolve; try dsimp only
  repeat' (first | with_reducible assumption | with_reducible apply coreMod_keeps | with_reducible apply passBlanks_keeps | with_reducible apply resolveBundle_keeps | with_reducible apply resolveXfer_keeps | with_reducible apply resolveFrame_keeps | (dsimp only) | (intro _ _ _) | (intro _ _) | (intro _) | split | with_reducible apply Keeps.upd)

theorem resolveFault_keeps {z : State} (s : State) (k q act : Nat) (table : PeerTable) (hz : Keeps z s) :
    Keeps z (resolveFault s k q act table) := by
  unfold resolveFault; try dsimp only
  repeat' (first | with_reducible assumption | with_reducible apply applyResolve_keeps | with_reducible apply regPut_keeps | with_reducible refine Keeps.of_snd (by with_reducible assumption) ?_ | (dsimp only) | (intro _ _ _) | (intro _ _) | (intro _) | split | with_reducible apply Keeps.upd)

theorem resolveRetry_keeps {z : State} (s : State) (k q : Nat) (ws : List (Nat × Bytes)) (table : PeerTable) (hz : Keeps z s) :
    Keeps z (resolveRetry s k q ws table) := by
  unfold resolveRetry; try dsimp only
  repeat' (first | with_reducible assumption | with_reducible apply resolveFault_keeps | with_reducible apply runtimeStores_keeps | (intro _ _ _) | (intro _ _) | (intro _) | split | with_reducible apply Keeps.upd)

theorem releaseHeld_keeps {z : State} (s : State) (k : Nat) (hz : Keeps z s) :
    Keeps z (releaseHeld s k) := by
  unfold releaseHeld; try dsimp only
  repeat' (first | with_reducible assumption | with_reducible apply resolveFault_keeps | with_reducible apply coreMod_keeps | with_reducible apply Keeps.foldl | with_reducible apply Keeps.foldl_snd | with_reducible apply Keeps.foldl_fst | with_reducible apply Keeps.foldl_snd_snd | (intro _ _ _) | (intro _ _) | (intro _) | split | with_reducible apply Keeps.upd)

theorem discardContext_keeps {z : State} (s : State) (k h : Nat) (status : Option Nat) (hz : Keeps z s) :
    Keeps z (discardContext s k h status) := by
  unfold discardContext; try dsimp only
  repeat' (first | with_reducible assumption | with_reducible apply freeContext_keeps | with_reducible apply runReady_keeps | (intro _ _ _) | (intro _ _) | (intro _) | split | with_reducible apply Keeps.upd)

theorem preemptionComplete_keeps {z : State} (s : State) (k h : Nat) (units : List Nat) (hz : Keeps z s) :
    Keeps z (preemptionComplete s k h units) := by
  unfold preemptionComplete; try dsimp only
  repeat' (first | with_reducible assumption | with_reducible apply quiesce_keeps | with_reducible apply storeContext_keeps | with_reducible apply releaseHeld_keeps | with_reducible apply frameWritten_keeps | with_reducible apply keepMarks_keeps | with_reducible apply freeContext_keeps | with_reducible apply countPreempt_keeps | with_reducible apply countStops_keeps | with_reducible apply regPutF_keeps | with_reducible apply discardContext_keeps | with_reducible refine Keeps.of_fst (by with_reducible assumption) ?_ | (dsimp only) | (intro _ _ _) | (intro _ _) | (intro _) | split | with_reducible apply Keeps.upd)

theorem setFrameState_keeps {z : State} (s : State) (k f st : Nat) (hz : Keeps z s) :
    Keeps z (setFrameState s k f st) := by
  unfold setFrameState; try dsimp only
  repeat' (first | with_reducible assumption | with_reducible apply coreMod_keeps | (intro _ _ _) | (intro _ _) | (intro _) | split | with_reducible apply Keeps.upd)

theorem refillReserve_keeps {z : State} (s : State) (l : Nat) (hz : Keeps z s) :
    Keeps z (refillReserve s l) := by
  unfold refillReserve; try dsimp only
  repeat' (first | with_reducible assumption | with_reducible apply coreMod_keeps | (intro _ _ _) | (intro _ _) | (intro _) | split | with_reducible apply Keeps.upd)

theorem leaveReserve_keeps {z : State} (s : State) (k : Nat) (hz : Keeps z s) :
    Keeps z (leaveReserve s k) := by
  unfold leaveReserve; try dsimp only
  repeat' (first | with_reducible assumption | with_reducible apply refillReserve_keeps | with_reducible apply coreMod_keeps | (intro _ _ _) | (intro _ _) | (intro _) | split | with_reducible apply Keeps.upd)

theorem placeFrame_keeps {z : State} (s : State) (k f : Nat) (tables : List PeerTable) (hz : Keeps z s) :
    Keeps z (placeFrame s k f tables) := by
  unfold placeFrame; try dsimp only
  repeat' (first | with_reducible assumption | with_reducible apply coreMod_keeps | with_reducible apply restoreInto_keeps | (intro _ _ _) | (intro _ _) | (intro _) | split | with_reducible apply Keeps.upd)

theorem bindSet_keeps {z : State} (s : State) (ctx : Nat) (set : Option Nat) (hz : Keeps z s) :
    Keeps z (bindSet s ctx set) := by
  unfold bindSet; try dsimp only
  repeat' (first | with_reducible assumption | (intro _ _ _) | (intro _ _) | (intro _) | split | with_reducible apply Keeps.upd)

theorem placeRow_keeps {z : State} (s : State) (k f : Nat) (image : Bytes) (ws : List (Nat × Bytes)) (set : Option Nat) (born : Option NewContext) (tables : List PeerTable) (hz : Keeps z s) :
    Keeps z (placeRow s k f image ws set born tables) := by
  unfold placeRow; try dsimp only
  repeat' (first | with_reducible assumption | with_reducible apply createContext_keeps | with_reducible apply runtimeStores_keeps | with_reducible apply memWr_keeps | with_reducible apply marksSet_keeps | with_reducible apply leaveReserve_keeps | with_reducible apply placeFrame_keeps | with_reducible apply bindSet_keeps | (intro _ _ _) | (intro _ _) | (intro _) | split | with_reducible apply Keeps.upd)

theorem exportRow_keeps {z : State} (s : State) (k f : Nat) (hz : Keeps z s) :
    Keeps z (exportRow s k f) := by
  unfold exportRow; try dsimp only
  repeat' (first | with_reducible assumption | with_reducible apply setFrameState_keeps | (intro _ _ _) | (intro _ _) | (intro _) | split | with_reducible apply Keeps.upd)

theorem freeRow_keeps {z : State} (s : State) (k f : Nat) (hz : Keeps z s) :
    Keeps z (freeRow s k f) := by
  unfold freeRow; try dsimp only
  repeat' (first | with_reducible assumption | with_reducible apply setFrameState_keeps | (intro _ _ _) | (intro _ _) | (intro _) | split | with_reducible apply Keeps.upd)

theorem evacDone_keeps {z : State} (s : State) (k : Nat) (hz : Keeps z s) :
    Keeps z (evacDone s k) := by
  unfold evacDone; try dsimp only
  repeat' (first | with_reducible assumption | with_reducible apply coreMod_keeps | (intro _ _ _) | (intro _ _) | (intro _) | split | with_reducible apply Keeps.upd)

theorem placeRun_keeps {z : State} (s : State) (slot ctx layer oper entry param rlen : Nat) (busy : Bool) (hz : Keeps z s) :
    Keeps z (placeRun s slot ctx layer oper entry param rlen busy) := by
  unfold placeRun; try dsimp only
  repeat' (first | with_reducible assumption | with_reducible apply slotReady_keeps | with_reducible apply placeFrame_keeps | with_reducible apply memWr_keeps | with_reducible apply marksSet_keeps | with_reducible apply contextBoundary_keeps | (intro _ _ _) | (intro _ _) | (intro _) | split | with_reducible apply Keeps.upd)

theorem discardFrame_keeps {z : State} (s : State) (ctx : Nat) (hz : Keeps z s) :
    Keeps z (discardFrame s ctx) := by
  unfold discardFrame; try dsimp only
  repeat' (first | with_reducible assumption | with_reducible apply setFrameState_keeps | with_reducible apply marksSet_keeps | (intro _ _ _) | (intro _ _) | (intro _) | split | with_reducible apply Keeps.upd)

theorem cancelContext_keeps {z : State} (s : State) (ctx : Nat) (hz : Keeps z s) :
    Keeps z (cancelContext s ctx) := by
  unfold cancelContext; try dsimp only
  repeat' (first | with_reducible assumption | with_reducible apply preemptionComplete_keeps | with_reducible apply freeContext_keeps | with_reducible apply quiesce_keeps | with_reducible apply discardFrame_keeps | (intro _ _ _) | (intro _ _) | (intro _) | split | with_reducible apply Keeps.upd)

end Sys2Proof.Machine
end

