-- ==== Sys2Proof/Laws/KeepsRunAhead.lean ====
section
/-!
SUPPORT. The operations of RunAhead keep the queue and the canonical form of the tables.
-/

namespace Sys2Proof.Machine

theorem runAheadEntry_keeps {z : State} (s : State) (k h n : Nat) (hz : Keeps z s) :
    Keeps z (runAheadEntry s k h n) := by
  unfold runAheadEntry; try dsimp only
  repeat' (first | with_reducible assumption | with_reducible apply bump_keeps | with_reducible apply hcSet_keeps | (intro _ _ _) | (intro _ _) | (intro _) | split | with_reducible apply Keeps.upd)

theorem runAheadExit_keeps {z : State} (s : State) (k h : Nat) (hz : Keeps z s) :
    Keeps z (runAheadExit s k h) := by
  unfold runAheadExit; try dsimp only
  repeat' (first | with_reducible assumption | with_reducible apply hcSet_keeps | (intro _ _ _) | (intro _ _) | (intro _) | split | with_reducible apply Keeps.upd)

end Sys2Proof.Machine
end

