-- ==== Sys2Proof/Laws/KeepsFatal.lean ====
section
/-!
SUPPORT. The operations of Fatal keep the queue and the canonical form of the tables.
-/

namespace Sys2Proof.Machine
theorem abandonRun_keeps {z : State} (s : State) (n : Nat) (hz : Keeps z s) :
    Keeps z (abandonRun s n) := by
  unfold abandonRun; try dsimp only
  repeat' (first | with_reducible assumption | with_reducible apply cancelContext_keeps | with_reducible apply slotReady_keeps | (intro _ _ _) | (intro _ _) | (intro _) | split | with_reducible apply Keeps.upd)

theorem endHeld_keeps {z : State} (s : State) (i : Nat) (hz : Keeps z s) :
    Keeps z (endHeld s i) := by
  unfold endHeld; try dsimp only
  repeat' (first | with_reducible assumption | with_reducible apply answerNow_keeps | with_reducible apply Keeps.foldl | with_reducible apply Keeps.foldl_snd | with_reducible apply Keeps.foldl_fst | with_reducible apply Keeps.foldl_snd_snd | (intro _ _ _) | (intro _ _) | (intro _) | split | with_reducible apply Keeps.upd)

theorem enterFaulted_keeps {z : State} (s : State) (cause : Nat) (hz : Keeps z s) :
    Keeps z (enterFaulted s cause) := by
  unfold enterFaulted; try dsimp only
  repeat' (first | with_reducible assumption | with_reducible apply enterState_keeps | with_reducible apply regPutF_keeps | with_reducible apply allLinksDown_keeps | with_reducible apply abandonRun_keeps | with_reducible apply endHeld_keeps | with_reducible apply Keeps.foldl | with_reducible apply Keeps.foldl_snd | with_reducible apply Keeps.foldl_fst | with_reducible apply Keeps.foldl_snd_snd | (intro _ _ _) | (intro _ _) | (intro _) | split | with_reducible apply Keeps.upd)

theorem takeFault_keeps {z : State} (s : State) (hz : Keeps z s) :
    Keeps z (takeFault s) := by
  unfold takeFault; try dsimp only
  repeat' (first | with_reducible assumption | with_reducible apply enterFaulted_keeps | (intro _ _ _) | (intro _ _) | (intro _) | split | with_reducible apply Keeps.upd)

end Sys2Proof.Machine
end

