-- ==== Sys2Proof/Laws/KeepsCompass.lean ====
section
/-!
SUPPORT. The operations of Compass keep the queue and the canonical form of the tables.
-/

namespace Sys2Proof.Machine
theorem compassUpdate_keeps {z : State} (s : State) (k a cause : Nat) (hz : Keeps z s) :
    Keeps z (compassUpdate s k a cause) := by
  unfold compassUpdate; try dsimp only
  repeat' (first | with_reducible assumption | (intro _ _ _) | (intro _ _) | (intro _) | split | with_reducible apply Keeps.upd)

theorem startEvacuation_keeps {z : State} (s : State) (k : Nat) (hz : Keeps z s) :
    Keeps z (startEvacuation s k) := by
  unfold startEvacuation; try dsimp only
  repeat' (first | with_reducible assumption | with_reducible apply choosePreempt_keeps | with_reducible apply regPutF_keeps | with_reducible apply coreMod_keeps | with_reducible apply Keeps.foldl | with_reducible apply Keeps.foldl_snd | with_reducible apply Keeps.foldl_fst | with_reducible apply Keeps.foldl_snd_snd | (intro _ _ _) | (intro _ _) | (intro _) | split | with_reducible apply Keeps.upd)

theorem retireArray_keeps {z : State} (s : State) (k a cause : Nat) (hz : Keeps z s) :
    Keeps z (retireArray s k a cause) := by
  unfold retireArray; try dsimp only
  repeat' (first | with_reducible assumption | with_reducible apply regPutF_keeps | with_reducible apply recovery_keeps | with_reducible apply compassUpdate_keeps | with_reducible apply startEvacuation_keeps | with_reducible apply crownEvent_keeps | with_reducible apply leaveReserve_keeps | (intro _ _ _) | (intro _ _) | (intro _) | split | with_reducible apply Keeps.upd)

theorem spareRecomputation_keeps {z : State} (s : State) (k a sl : Nat) (e : PassErrors) (hz : Keeps z s) :
    Keeps z (spareRecomputation s k a sl e) := by
  unfold spareRecomputation; try dsimp only
  repeat' (first | with_reducible assumption | with_reducible apply sparePass_keeps | with_reducible apply retireArray_keeps | with_reducible refine Keeps.of_snd (by with_reducible assumption) ?_ | (dsimp only) | (intro _ _ _) | (intro _ _) | (intro _) | split | with_reducible apply Keeps.upd)

theorem retirementRecordWrite_keeps {z : State} (s : State) (hz : Keeps z s) :
    Keeps z (retirementRecordWrite s) := by
  unfold retirementRecordWrite; try dsimp only
  repeat' (first | with_reducible assumption | (intro _ _ _) | (intro _ _) | (intro _) | split | with_reducible apply Keeps.upd)

theorem bistMod_keeps {z : State} (s : State) (k a : Nat) (f : Bist → Bist) (hz : Keeps z s) :
    Keeps z (bistMod s k a f) := by
  unfold bistMod; try dsimp only
  repeat' (first | with_reducible assumption | with_reducible apply coreMod_keeps | (intro _ _ _) | (intro _ _) | (intro _) | split | with_reducible apply Keeps.upd)

theorem bistStart_keeps {z : State} (s : State) (k a : Nat) (hz : Keeps z s) :
    Keeps z (bistStart s k a) := by
  unfold bistStart; try dsimp only
  repeat' (first | with_reducible assumption | with_reducible apply bistMod_keeps | (intro _ _ _) | (intro _ _) | (intro _) | split | with_reducible apply Keeps.upd)

theorem bistResult_keeps {z : State} (s : State) (k a : Nat) (ok : Bool) (hz : Keeps z s) :
    Keeps z (bistResult s k a ok) := by
  unfold bistResult; try dsimp only
  repeat' (first | with_reducible assumption | with_reducible apply bump_keeps | with_reducible apply bistMod_keeps | with_reducible apply regPut_keeps | with_reducible apply retireArray_keeps | (intro _ _ _) | (intro _ _) | (intro _) | split | with_reducible apply Keeps.upd)

theorem bistOverdue_keeps {z : State} (s : State) (k a : Nat) (hz : Keeps z s) :
    Keeps z (bistOverdue s k a) := by
  unfold bistOverdue; try dsimp only
  repeat' (first | with_reducible assumption | with_reducible apply bistMod_keeps | (intro _ _ _) | (intro _ _) | (intro _) | split | with_reducible apply Keeps.upd)

theorem bistRequest_keeps {z : State} (s : State) (k : Nat) (hz : Keeps z s) :
    Keeps z (bistRequest s k) := by
  unfold bistRequest; try dsimp only
  repeat' (first | with_reducible assumption | with_reducible apply wantBist_keeps | (intro _ _ _) | (intro _ _) | (intro _) | split | with_reducible apply Keeps.upd)

theorem ringScrub_keeps {z : State} (s : State) (k : Nat) (ce ue : List Nat) (hz : Keeps z s) :
    Keeps z (ringScrub s k ce ue) := by
  unfold ringScrub; try dsimp only
  repeat' (first | with_reducible assumption | with_reducible apply upsetGranules_keeps | with_reducible apply scrubPass_keeps | with_reducible apply touchGranule_keeps | with_reducible refine Keeps.of_snd (by with_reducible assumption) ?_ | with_reducible apply Keeps.foldl | with_reducible apply Keeps.foldl_snd | with_reducible apply Keeps.foldl_fst | with_reducible apply Keeps.foldl_snd_snd | (dsimp only) | (intro _ _ _) | (intro _ _) | (intro _) | split | with_reducible apply Keeps.upd)

end Sys2Proof.Machine
end

