-- ==== Sys2Proof/Laws/KeepsHbm.lean ====
section
/-!
SUPPORT. The operations of Hbm keep the queue and the canonical form of the tables.
-/

namespace Sys2Proof.Machine
theorem whileRunning_keeps {z : State} (s t : State) (hz : Keeps z s) (hz1 : Keeps z t) :
    Keeps z (whileRunning s t) := by
  unfold whileRunning; try dsimp only
  repeat' (first | with_reducible assumption | (intro _ _ _) | (intro _ _) | (intro _) | split | with_reducible apply Keeps.upd)

theorem hbmScrub_keeps {z : State} (s : State) (st : Nat) (ce ue : List Nat) (hz : Keeps z s) :
    Keeps z (hbmScrub s st ce ue) := by
  unfold hbmScrub; try dsimp only
  repeat' (first | with_reducible assumption | with_reducible apply upsetGranules_keeps | with_reducible apply scrubPass_keeps | with_reducible apply touchGranule_keeps | with_reducible refine Keeps.of_snd (by with_reducible assumption) ?_ | with_reducible apply Keeps.foldl | with_reducible apply Keeps.foldl_snd | with_reducible apply Keeps.foldl_fst | with_reducible apply Keeps.foldl_snd_snd | (dsimp only) | (intro _ _ _) | (intro _ _) | (intro _) | split | with_reducible apply Keeps.upd)

theorem recordPcs_keeps {z : State} (s : State) (st : Nat) (hz : Keeps z s) :
    Keeps z (recordPcs s st) := by
  unfold recordPcs; try dsimp only
  repeat' (first | with_reducible assumption | with_reducible apply Keeps.foldl | with_reducible apply Keeps.foldl_snd | with_reducible apply Keeps.foldl_fst | with_reducible apply Keeps.foldl_snd_snd | (intro _ _ _) | (intro _ _) | (intro _) | split | with_reducible apply Keeps.upd)

theorem startRetire_keeps {z : State} (s : State) (st p : Nat) (hz : Keeps z s) :
    Keeps z (startRetire s st p) := by
  unfold startRetire; try dsimp only
  repeat' (first | with_reducible assumption | with_reducible apply recordPcs_keeps | with_reducible apply regPutF_keeps | with_reducible apply recovery_keeps | (intro _ _ _) | (intro _ _) | (intro _) | split | with_reducible apply Keeps.upd)

theorem pcRetirement_keeps {z : State} (s : State) (st p cause : Nat) (hz : Keeps z s) :
    Keeps z (pcRetirement s st p cause) := by
  unfold pcRetirement; try dsimp only
  repeat' (first | with_reducible assumption | with_reducible apply startRetire_keeps | (intro _ _ _) | (intro _ _) | (intro _) | split | with_reducible apply Keeps.upd)

theorem hbmRetire_keeps {z : State} (s : State) (st v : Nat) (hz : Keeps z s) :
    Keeps z (hbmRetire s st v) := by
  unfold hbmRetire; try dsimp only
  repeat' (first | with_reducible assumption | with_reducible apply startRetire_keeps | (intro _ _ _) | (intro _ _) | (intro _) | split | with_reducible apply Keeps.upd)

theorem rebuildGranule_keeps {z : State} (s : State) (g : Nat) (hz : Keeps z s) :
    Keeps z (rebuildGranule s g) := by
  unfold rebuildGranule; try dsimp only
  repeat' (first | with_reducible assumption | with_reducible apply touchGranule_keeps | with_reducible apply taintGranule_keeps | with_reducible apply storeAt_keeps | (intro _ _ _) | (intro _ _) | (intro _) | split | with_reducible apply Keeps.upd)

theorem nextRetire_keeps {z : State} (s : State) (st fuel : Nat) (hz : Keeps z s) :
    Keeps z (nextRetire s st fuel) := by
  induction fuel generalizing s st with
  | zero =>
    unfold nextRetire; try dsimp only
    repeat' (first | (cases ‹_ + 1 = _ + 1›) | with_reducible assumption | with_reducible apply startRetire_keeps | with_reducible apply ih | (intro _ _ _) | (intro _ _) | (intro _) | split | with_reducible apply Keeps.upd)
  | succ n ih =>
    unfold nextRetire; try dsimp only
    repeat' (first | (cases ‹_ + 1 = _ + 1›) | with_reducible assumption | with_reducible apply startRetire_keeps | with_reducible apply ih | (intro _ _ _) | (intro _ _) | (intro _) | split | with_reducible apply Keeps.upd)

theorem rebuildComplete_keeps {z : State} (s : State) (st : Nat) (lost : List Nat) (hz : Keeps z s) :
    Keeps z (rebuildComplete s st lost) := by
  unfold rebuildComplete; try dsimp only
  repeat' (first | with_reducible assumption | with_reducible apply upsetGranules_keeps | with_reducible apply rebuildGranule_keeps | with_reducible apply regPutF_keeps | with_reducible apply bumpBy_keeps | with_reducible apply recordPcs_keeps | with_reducible apply nextRetire_keeps | with_reducible apply crownEvent_keeps | with_reducible apply Keeps.foldl | with_reducible apply Keeps.foldl_snd | with_reducible apply Keeps.foldl_fst | with_reducible apply Keeps.foldl_snd_snd | (intro _ _ _) | (intro _ _) | (intro _) | split | with_reducible apply Keeps.upd)

theorem mirWrite_keeps {z : State} (s : State) (st r v : Nat) (hz : Keeps z s) :
    Keeps z (mirWrite s st r v) := by
  unfold mirWrite; try dsimp only
  repeat' (first | with_reducible assumption | with_reducible apply regPut_keeps | (intro _ _ _) | (intro _ _) | (intro _) | split | with_reducible apply Keeps.upd)

theorem mirrorEnable_keeps {z : State} (s : State) (st r base size : Nat) (hz : Keeps z s) :
    Keeps z (mirrorEnable s st r base size) := by
  unfold mirrorEnable; try dsimp only
  repeat' (first | with_reducible assumption | with_reducible apply mirWrite_keeps | (intro _ _ _) | (intro _ _) | (intro _) | split | with_reducible apply Keeps.upd)

theorem fsorted_foldl_finsert {α : Type} (l : FMap α) (d : Nat) {m : FMap α} (h : fsorted m = true) :
    fsorted (l.foldl (fun m e => finsert m (e.1 + d) e.2) m) = true := by
  induction l generalizing m with
  | nil => exact h
  | cons e l ih => exact ih (fsorted_finsert h _ _)

theorem mem_foldl_finsert {α : Type} (l : FMap α) (d : Nat) {m : FMap α} {e : Nat × α}
    (h : e ∈ l.foldl (fun m e => finsert m (e.1 + d) e.2) m) : e ∈ m ∨ ∃ f ∈ l, f.2 = e.2 := by
  induction l generalizing m with
  | nil => exact Or.inl h
  | cons g l ih =>
    rcases ih h with h | ⟨f, hf, he⟩
    · rcases mem_finsert h with rfl | h
      · exact Or.inr ⟨g, by simp, rfl⟩
      · exact Or.inl h
    · exact Or.inr ⟨f, by simp [hf], he⟩

/-- A copied range leaves a canonical table canonical. -/
theorem fcanon_copyRange {α : Type} [DecidableEq α] {v : α} {m : FMap α} (h : fcanon v m = true) (a n d : Nat) :
    fcanon v (copyRange m a n d) = true := by
  rw [fcanon_iff] at *
  refine ⟨fsorted_foldl_finsert _ _ (fsorted_filter h.1 _), fun e he => ?_⟩
  rcases mem_foldl_finsert _ _ he with he | ⟨f, hf, he⟩
  · exact h.2 e (List.mem_filter.1 he).1
  · rw [← he]; exact h.2 f (List.mem_filter.1 hf).1

theorem mirrorSync_keeps {z : State} (s : State) (st r : Nat) (hz : Keeps z s) : Keeps z (mirrorSync s st r) := by
  have h1 : ∀ l : List Nat, Keeps z (l.foldl touchGranule s) := fun l => Keeps.foldl hz (fun t g ht => touchGranule_keeps t g ht)
  unfold mirrorSync
  split
  split
  · exact hz
  · exact regPutF_keeps _ _ _ _ _ _ _ (Keeps.setMem (h1 _) (fun h => fcanon_copyRange h _ _ _) (fun h => fcanon_copyRange h _ _ _)).upd

theorem hbmThermal_keeps {z : State} (s : State) (st temp : Nat) (hz : Keeps z s) :
    Keeps z (hbmThermal s st temp) := by
  unfold hbmThermal; try dsimp only
  repeat' (first | with_reducible assumption | with_reducible apply heatSettle_keeps | with_reducible apply regPutF_keeps | (intro _ _ _) | (intro _ _) | (intro _) | split | with_reducible apply Keeps.upd)

theorem refresh_keeps {z : State} (s : State) (_st : Nat) (hz : Keeps z s) :
    Keeps z (refresh s _st) := by
  unfold refresh; try dsimp only
  repeat' (first | with_reducible assumption | (intro _ _ _) | (intro _ _) | (intro _) | split | with_reducible apply Keeps.upd)

end Sys2Proof.Machine
end

