-- ==== Sys2Proof/Laws/KeepsGctCore.lean ====
section
/-!
SUPPORT. The operations of GctCore keep the queue and the canonical form of the tables.
-/

namespace Sys2Proof.Machine

theorem answerWait_keeps {z : State} (s : State) (p : ExecWait → Bool) (status : Nat) (body : Bytes) (hz : Keeps z s) :
    Keeps z (answerWait s p status body) := by
  unfold answerWait; try dsimp only
  repeat' (first | with_reducible assumption | (intro _ _ _) | (intro _ _) | (intro _) | split | with_reducible apply Keeps.upd)

theorem sessionMod_keeps {z : State} (s : State) (i : Nat) (f : Session → Session) (hz : Keeps z s) :
    Keeps z (sessionMod s i f) := by
  unfold sessionMod; try dsimp only
  repeat' (first | with_reducible assumption | (intro _ _ _) | (intro _ _) | (intro _) | split | with_reducible apply Keeps.upd)

end Sys2Proof.Machine
end

