-- ==== Sys2Proof/Laws/KeepsSpanRows.lean ====
section
/-!
SUPPORT. The operations of SpanRows keep the queue and the canonical form of the tables.
-/

namespace Sys2Proof.Machine
theorem endTransfer_keeps {z : State} (s : State) (r : SpanReq) (status : Nat) (hz : Keeps z s) :
    Keeps z (endTransfer s r status) := by
  unfold endTransfer; try dsimp only
  repeat' (first | with_reducible assumption | with_reducible apply xferEnd_keeps | with_reducible apply bump_keeps | (intro _ _ _) | (intro _ _) | (intro _) | split | with_reducible apply Keeps.upd)

theorem endRequest_keeps {z : State} (s : State) (r : SpanReq) (status : Nat) (hz : Keeps z s) :
    Keeps z (endRequest s r status) := by
  unfold endRequest; try dsimp only
  repeat' (first | with_reducible assumption | with_reducible apply endTransfer_keeps | (intro _ _ _) | (intro _ _) | (intro _) | split | with_reducible apply Keeps.upd)

theorem settleLate_keeps {z : State} (s : State) (hz : Keeps z s) :
    Keeps z (settleLate s) := by
  unfold settleLate; try dsimp only
  repeat' (first | with_reducible assumption | with_reducible apply endTransfer_keeps | with_reducible apply Keeps.foldl | with_reducible apply Keeps.foldl_snd | with_reducible apply Keeps.foldl_fst | with_reducible apply Keeps.foldl_snd_snd | (intro _ _ _) | (intro _ _) | (intro _) | split | with_reducible apply Keeps.upd)

theorem loseRequests_keeps {z : State} (s : State) (p : SpanReq → Bool) (hz : Keeps z s) :
    Keeps z (loseRequests s p) := by
  unfold loseRequests; try dsimp only
  repeat' (first | with_reducible assumption | with_reducible apply endRequest_keeps | with_reducible apply Keeps.foldl | with_reducible apply Keeps.foldl_snd | with_reducible apply Keeps.foldl_fst | with_reducible apply Keeps.foldl_snd_snd | (intro _ _ _) | (intro _ _) | (intro _) | split | with_reducible apply Keeps.upd)

theorem isolate_keeps {z : State} (s : State) (hz : Keeps z s) :
    Keeps z (isolate s) := by
  unfold isolate; try dsimp only
  repeat' (first | with_reducible assumption | with_reducible apply loseRequests_keeps | with_reducible apply regPutF_keeps | (intro _ _ _) | (intro _ _) | (intro _) | split | with_reducible apply Keeps.upd)

theorem writeRoutes_keeps {z : State} (s : State) (p : EpochPlan) (hz : Keeps z s) :
    Keeps z (writeRoutes s p) := by
  unfold writeRoutes; try dsimp only
  repeat' (first | with_reducible assumption | with_reducible apply regPutF_keeps | with_reducible apply Keeps.foldl | with_reducible apply Keeps.foldl_snd | with_reducible apply Keeps.foldl_fst | with_reducible apply Keeps.foldl_snd_snd | (intro _ _ _) | (intro _ _) | (intro _) | split | with_reducible apply Keeps.upd)

theorem sendPlan_keeps {z : State} (s : State) (dst : Nat) (p : EpochPlan) (data : Bytes) (hz : Keeps z s) :
    Keeps z (sendPlan s dst p data) := by
  unfold sendPlan; try dsimp only
  repeat' (first | with_reducible assumption | with_reducible apply nextMsgId_keeps | with_reducible apply sendMsg_keeps | with_reducible refine Keeps.of_snd (by with_reducible assumption) ?_ | (dsimp only) | (intro _ _ _) | (intro _ _) | (intro _) | split | with_reducible apply Keeps.upd)

theorem sendPeers_keeps {z : State} (s : State) (p : EpochPlan) (data : Bytes) (hz : Keeps z s) :
    Keeps z (sendPeers s p data) := by
  unfold sendPeers; try dsimp only
  repeat' (first | with_reducible assumption | with_reducible apply sendPlan_keeps | with_reducible apply Keeps.foldl | with_reducible apply Keeps.foldl_snd | with_reducible apply Keeps.foldl_fst | with_reducible apply Keeps.foldl_snd_snd | (intro _ _ _) | (intro _ _) | (intro _) | split | with_reducible apply Keeps.upd)

theorem putMap_keeps {z : State} (s : State) (map : List Nat) (hz : Keeps z s) :
    Keeps z (putMap s map) := by
  unfold putMap; try dsimp only
  repeat' (first | with_reducible assumption | with_reducible apply regPut_keeps | with_reducible apply Keeps.foldl | with_reducible apply Keeps.foldl_snd | with_reducible apply Keeps.foldl_fst | with_reducible apply Keeps.foldl_snd_snd | (intro _ _ _) | (intro _ _) | (intro _) | split | with_reducible apply Keeps.upd)

theorem answerEpoch_keeps {z : State} (s : State) (status : Nat) (hz : Keeps z s) :
    Keeps z (answerEpoch s status) := by
  unfold answerEpoch; try dsimp only
  repeat' (first | with_reducible assumption | with_reducible apply answerWait_keeps | (intro _ _ _) | (intro _ _) | (intro _) | split | with_reducible apply Keeps.upd)

theorem measure_keeps {z : State} (s : State) (m : Nat) (x : Bytes) (hz : Keeps z s) :
    Keeps z (measure s m x) := by
  unfold measure; try dsimp only
  repeat' (first | with_reducible assumption | with_reducible apply regPut_keeps | with_reducible apply Keeps.foldl | with_reducible apply Keeps.foldl_snd | with_reducible apply Keeps.foldl_fst | with_reducible apply Keeps.foldl_snd_snd | (intro _ _ _) | (intro _ _) | (intro _) | split | with_reducible apply Keeps.upd)

theorem measureSpan_keeps {z : State} (s : State) (hz : Keeps z s) :
    Keeps z (measureSpan s) := by
  unfold measureSpan; try dsimp only
  repeat' (first | with_reducible assumption | with_reducible apply measure_keeps | (intro _ _ _) | (intro _ _) | (intro _) | split | with_reducible apply Keeps.upd)

theorem switchEpoch_keeps {z : State} (s : State) (p : EpochPlan) (hz : Keeps z s) :
    Keeps z (switchEpoch s p) := by
  unfold switchEpoch; try dsimp only
  repeat' (first | with_reducible assumption | with_reducible apply regPutF_keeps | with_reducible apply regPut_keeps | with_reducible apply putMap_keeps | with_reducible apply sendHeld_keeps | with_reducible apply measureSpan_keeps | (intro _ _ _) | (intro _ _) | (intro _) | split | with_reducible apply Keeps.upd)

theorem commitIfReady_keeps {z : State} (s : State) (hz : Keeps z s) :
    Keeps z (commitIfReady s) := by
  unfold commitIfReady; try dsimp only
  repeat' (first | with_reducible assumption | with_reducible apply sendPeers_keeps | with_reducible apply switchEpoch_keeps | with_reducible apply answerEpoch_keeps | (intro _ _ _) | (intro _ _) | (intro _) | split | with_reducible apply Keeps.upd)

theorem loseEvicted_keeps {z : State} (s : State) (p : EpochPlan) (lost : Nat) (hz : Keeps z s) :
    Keeps z (loseEvicted s p lost) := by
  unfold loseEvicted; try dsimp only
  repeat' (first | with_reducible assumption | with_reducible apply loseRequests_keeps | (intro _ _ _) | (intro _ _) | (intro _) | split | with_reducible apply Keeps.upd)

theorem startEpoch_keeps {z : State} (s : State) (p : EpochPlan) (lost : Nat) (command : Bool) (hz : Keeps z s) :
    Keeps z (startEpoch s p lost command) := by
  unfold startEpoch; try dsimp only
  repeat' (first | with_reducible assumption | with_reducible apply writeRoutes_keeps | with_reducible apply loseEvicted_keeps | with_reducible apply commitIfReady_keeps | with_reducible apply sendPeers_keeps | (intro _ _ _) | (intro _ _) | (intro _) | split | with_reducible apply Keeps.upd)

theorem judgeLoss_keeps {z : State} (s : State) (hz : Keeps z s) :
    Keeps z (judgeLoss s) := by
  unfold judgeLoss; try dsimp only
  repeat' (first | with_reducible assumption | with_reducible apply isolate_keeps | with_reducible apply startEpoch_keeps | (intro _ _ _) | (intro _ _) | (intro _) | split | with_reducible apply Keeps.upd)

theorem beginMoves_keeps {z : State} (s : State) (k : Nat) (hz : Keeps z s) :
    Keeps z (beginMoves s k) := by
  unfold beginMoves; try dsimp only
  repeat' (first | with_reducible assumption | with_reducible apply Keeps.foldl | with_reducible apply Keeps.foldl_snd | with_reducible apply Keeps.foldl_fst | with_reducible apply Keeps.foldl_snd_snd | (intro _ _ _) | (intro _ _) | (intro _) | split | with_reducible apply Keeps.upd)

theorem linkDown_keeps {z : State} (s : State) (k : Nat) (hz : Keeps z s) :
    Keeps z (linkDown s k) := by
  unfold linkDown; try dsimp only
  repeat' (first | with_reducible assumption | with_reducible apply linkSet_keeps | with_reducible apply regPutF_keeps | with_reducible apply setLinkState_keeps | with_reducible apply beginMoves_keeps | with_reducible apply judgeLoss_keeps | with_reducible apply broadcast_keeps | (intro _ _ _) | (intro _ _) | (intro _) | split | with_reducible apply Keeps.upd)

theorem linkEnable_keeps {z : State} (s : State) (k : Nat) (hz : Keeps z s) :
    Keeps z (linkEnable s k) := by
  unfold linkEnable; try dsimp only
  repeat' (first | with_reducible assumption | with_reducible apply regPutF_keeps | with_reducible apply setLinkState_keeps | (intro _ _ _) | (intro _ _) | (intro _) | split | with_reducible apply Keeps.upd)

theorem replayLink_keeps {z : State} (s : State) (k : Nat) (hz : Keeps z s) :
    Keeps z (replayLink s k) := by
  unfold replayLink; try dsimp only
  repeat' (first | with_reducible assumption | with_reducible apply emitFlit_keeps | with_reducible apply Keeps.foldl | with_reducible apply Keeps.foldl_snd | with_reducible apply Keeps.foldl_fst | with_reducible apply Keeps.foldl_snd_snd | (intro _ _ _) | (intro _ _) | (intro _) | split | with_reducible apply Keeps.upd)

theorem routesBack_keeps {z : State} (s : State) (k : Nat) (hz : Keeps z s) :
    Keeps z (routesBack s k) := by
  unfold routesBack; try dsimp only
  repeat' (first | with_reducible assumption | (intro _ _ _) | (intro _ _) | (intro _) | split | with_reducible apply Keeps.upd)

theorem trained_keeps {z : State} (s : State) (k peer : Nat) (three : Bool) (hz : Keeps z s) :
    Keeps z (trained s k peer three) := by
  unfold trained; try dsimp only
  repeat' (first | with_reducible assumption | with_reducible apply routesBack_keeps | with_reducible apply regPutF_keeps | with_reducible apply setLinkState_keeps | with_reducible apply replayLink_keeps | with_reducible apply linkSet_keeps | with_reducible apply sendHeld_keeps | with_reducible apply linkPump_keeps | (intro _ _ _) | (intro _ _) | (intro _) | split | with_reducible apply Keeps.upd)

theorem linkTrained_keeps {z : State} (s : State) (k peer : Nat) (badLane : Option (Fin 4)) (hz : Keeps z s) :
    Keeps z (linkTrained s k peer badLane) := by
  unfold linkTrained; try dsimp only
  repeat' (first | with_reducible assumption | with_reducible apply regPutF_keeps | with_reducible apply bump_keeps | with_reducible apply trained_keeps | (intro _ _ _) | (intro _ _) | (intro _) | split | with_reducible apply Keeps.upd)

theorem laneFault_keeps {z : State} (s : State) (k : Nat) (lane : Fin 4) (hz : Keeps z s) :
    Keeps z (laneFault s k lane) := by
  unfold laneFault; try dsimp only
  repeat' (first | with_reducible assumption | with_reducible apply regPutF_keeps | with_reducible apply linkDown_keeps | with_reducible apply recovery_keeps | with_reducible apply linkMod_keeps | with_reducible apply setLinkState_keeps | (intro _ _ _) | (intro _ _) | (intro _) | split | with_reducible apply Keeps.upd)

theorem retrainComplete_keeps {z : State} (s : State) (k : Nat) (ok : Bool) (hz : Keeps z s) :
    Keeps z (retrainComplete s k ok) := by
  unfold retrainComplete; try dsimp only
  repeat' (first | with_reducible assumption | with_reducible apply trained_keeps | with_reducible apply bump_keeps | with_reducible apply linkDown_keeps | (intro _ _ _) | (intro _ _) | (intro _) | split | with_reducible apply Keeps.upd)

theorem linkRetrain_keeps {z : State} (s : State) (k : Nat) (hz : Keeps z s) :
    Keeps z (linkRetrain s k) := by
  unfold linkRetrain; try dsimp only
  repeat' (first | with_reducible assumption | with_reducible apply setLinkState_keeps | with_reducible apply regPutF_keeps | with_reducible apply linkMod_keeps | (intro _ _ _) | (intro _ _) | (intro _) | split | with_reducible apply Keeps.upd)

theorem linkDisable_keeps {z : State} (s : State) (k : Nat) (hz : Keeps z s) :
    Keeps z (linkDisable s k) := by
  unfold linkDisable; try dsimp only
  repeat' (first | with_reducible assumption | with_reducible apply regPutF_keeps | with_reducible apply linkDown_keeps | (intro _ _ _) | (intro _ _) | (intro _) | split | with_reducible apply Keeps.upd)

theorem linkSilence_keeps {z : State} (s : State) (k : Nat) (hz : Keeps z s) :
    Keeps z (linkSilence s k) := by
  unfold linkSilence; try dsimp only
  repeat' (first | with_reducible assumption | with_reducible apply linkDown_keeps | (intro _ _ _) | (intro _ _) | (intro _) | split | with_reducible apply Keeps.upd)

theorem retryReq_keeps {z : State} (s : State) (k seq : Nat) (hz : Keeps z s) :
    Keeps z (retryReq s k seq) := by
  unfold retryReq; try dsimp only
  repeat' (first | with_reducible assumption | with_reducible apply bump_keeps | with_reducible apply linkSet_keeps | with_reducible apply linkDown_keeps | with_reducible apply replayLink_keeps | (intro _ _ _) | (intro _ _) | (intro _) | split | with_reducible apply Keeps.upd)

theorem flitFailure_keeps {z : State} (s : State) (k : Nat) (hz : Keeps z s) :
    Keeps z (flitFailure s k) := by
  unfold flitFailure; try dsimp only
  repeat' (first | with_reducible assumption | with_reducible apply linkMod_keeps | with_reducible apply emitFlit_keeps | (intro _ _ _) | (intro _ _) | (intro _) | split | with_reducible apply Keeps.upd)

theorem ackAndCredit_keeps {z : State} (s : State) (k : Nat) (ack : Option Nat) (vc n : Nat) (hz : Keeps z s) :
    Keeps z (ackAndCredit s k ack vc n) := by
  unfold ackAndCredit; try dsimp only
  repeat' (first | with_reducible assumption | with_reducible apply linkSet_keeps | with_reducible apply sendHeld_keeps | with_reducible apply linkPump_keeps | (intro _ _ _) | (intro _ _) | (intro _) | split | with_reducible apply Keeps.upd)

theorem forward_keeps {z : State} (s : State) (vc : Nat) (m : SpanMsg) (hz : Keeps z s) :
    Keeps z (forward s vc m) := by
  unfold forward; try dsimp only
  repeat' (first | with_reducible assumption | with_reducible apply sendOver_keeps | (intro _ _ _) | (intro _ _) | (intro _) | split | with_reducible apply Keeps.upd)

theorem translatePieces_keeps {z : State} (s : State) (u ctx : Nat) (need : Need) (ps : List (Nat × Nat)) (hz : Keeps z s) :
    Keeps z (translatePieces s u ctx need ps).2 := by
  induction ps generalizing s u ctx need with
  | nil =>
    unfold translatePieces; try dsimp only
    repeat' (first | (cases ‹_ + 1 = _ + 1›) | with_reducible assumption | with_reducible apply translate_keeps | with_reducible apply ih | with_reducible refine Keeps.of_snd (by with_reducible assumption) ?_ | (dsimp only) | (intro _ _ _) | (intro _ _) | (intro _) | split | with_reducible apply Keeps.upd)
  | cons x l ih =>
    unfold translatePieces; try dsimp only
    repeat' (first | (cases ‹_ + 1 = _ + 1›) | with_reducible assumption | with_reducible apply translate_keeps | with_reducible apply ih | with_reducible refine Keeps.of_snd (by with_reducible assumption) ?_ | (dsimp only) | (intro _ _ _) | (intro _ _) | (intro _) | split | with_reducible apply Keeps.upd)

theorem translateRanges_keeps {z : State} (s : State) (ctx : Nat) (need : Need) (rs : List SpanRange) (hz : Keeps z s) :
    Keeps z (translateRanges s ctx need rs).2 := by
  induction rs generalizing s ctx need with
  | nil =>
    unfold translateRanges; try dsimp only
    repeat' (first | (cases ‹_ + 1 = _ + 1›) | with_reducible assumption | with_reducible apply translatePieces_keeps | with_reducible apply ih | with_reducible refine Keeps.of_snd (by with_reducible assumption) ?_ | (dsimp only) | (intro _ _ _) | (intro _ _) | (intro _) | split | with_reducible apply Keeps.upd)
  | cons x l ih =>
    unfold translateRanges; try dsimp only
    repeat' (first | (cases ‹_ + 1 = _ + 1›) | with_reducible assumption | with_reducible apply translatePieces_keeps | with_reducible apply ih | with_reducible refine Keeps.of_snd (by with_reducible assumption) ?_ | (dsimp only) | (intro _ _ _) | (intro _ _) | (intro _) | split | with_reducible apply Keeps.upd)

theorem respond_keeps {z : State} (s : State) (m : SpanMsg) (mtype status : Nat) (data : Bytes) (hz : Keeps z s) :
    Keeps z (respond s m mtype status data) := by
  unfold respond; try dsimp only
  repeat' (first | with_reducible assumption | with_reducible apply bump_keeps | with_reducible apply sendMsg_keeps | (intro _ _ _) | (intro _ _) | (intro _) | split | with_reducible apply Keeps.upd)

theorem writePieces_keeps {z : State} (s : State) (bs : Bytes) (bad : Bool) (ps : List (Nat × Nat)) (hz : Keeps z s) :
    Keeps z (writePieces s bs bad ps) := by
  induction ps generalizing s bs bad with
  | nil =>
    unfold writePieces; try dsimp only
    repeat' (first | (cases ‹_ + 1 = _ + 1›) | with_reducible assumption | with_reducible apply busWrite_keeps | with_reducible apply ih | (intro _ _ _) | (intro _ _) | (intro _) | split | with_reducible apply Keeps.upd)
  | cons x l ih =>
    unfold writePieces; try dsimp only
    repeat' (first | (cases ‹_ + 1 = _ + 1›) | with_reducible assumption | with_reducible apply busWrite_keeps | with_reducible apply ih | (intro _ _ _) | (intro _ _) | (intro _) | split | with_reducible apply Keeps.upd)

theorem readPieces_keeps {z : State} (s : State) (ps : List (Nat × Nat)) (hz : Keeps z s) :
    Keeps z (readPieces s ps).2.2 := by
  induction ps generalizing s with
  | nil =>
    unfold readPieces; try dsimp only
    repeat' (first | (cases ‹_ + 1 = _ + 1›) | with_reducible assumption | with_reducible apply busRead_keeps | with_reducible apply ih | with_reducible refine Keeps.of_snd_snd (by with_reducible assumption) ?_ | (dsimp only) | (intro _ _ _) | (intro _ _) | (intro _) | split | with_reducible apply Keeps.upd)
  | cons x l ih =>
    unfold readPieces; try dsimp only
    repeat' (first | (cases ‹_ + 1 = _ + 1›) | with_reducible assumption | with_reducible apply busRead_keeps | with_reducible apply ih | with_reducible refine Keeps.of_snd_snd (by with_reducible assumption) ?_ | (dsimp only) | (intro _ _ _) | (intro _ _) | (intro _) | split | with_reducible apply Keeps.upd)

theorem writeRange_keeps {z : State} (s : State) (r : SpanRange) (ps : List (Nat × Nat)) (hz : Keeps z s) :
    Keeps z (writeRange s r ps) := by
  unfold writeRange; try dsimp only
  repeat' (first | with_reducible assumption | with_reducible apply writePieces_keeps | with_reducible apply busWrite_keeps | with_reducible apply Keeps.foldl | with_reducible apply Keeps.foldl_snd | with_reducible apply Keeps.foldl_fst | with_reducible apply Keeps.foldl_snd_snd | (intro _ _ _) | (intro _ _) | (intro _) | split | with_reducible apply Keeps.upd)

theorem serveWrite_keeps {z : State} (s : State) (m : SpanMsg) (hz : Keeps z s) :
    Keeps z (serveWrite s m) := by
  unfold serveWrite; try dsimp only
  repeat' (first | with_reducible assumption | with_reducible apply respond_keeps | with_reducible apply translateRanges_keeps | with_reducible apply writeRange_keeps | with_reducible refine Keeps.of_snd (by with_reducible assumption) ?_ | with_reducible apply Keeps.foldl | with_reducible apply Keeps.foldl_snd | with_reducible apply Keeps.foldl_fst | with_reducible apply Keeps.foldl_snd_snd | (dsimp only) | (intro _ _ _) | (intro _ _) | (intro _) | split | with_reducible apply Keeps.upd)

theorem serveRead_keeps {z : State} (s : State) (m : SpanMsg) (hz : Keeps z s) :
    Keeps z (serveRead s m) := by
  unfold serveRead; try dsimp only
  repeat' (first | with_reducible assumption | with_reducible apply respond_keeps | with_reducible apply translateRanges_keeps | with_reducible apply readPieces_keeps | with_reducible refine Keeps.of_snd (by with_reducible assumption) ?_ | with_reducible refine Keeps.of_snd_snd (by with_reducible assumption) ?_ | (dsimp only) | (intro _ _ _) | (intro _ _) | (intro _) | split | with_reducible apply Keeps.upd)

theorem requestArrives_keeps {z : State} (s : State) (k : Nat) (vc : Nat) (m : SpanMsg) (hz : Keeps z s) :
    Keeps z (requestArrives s k vc m) := by
  unfold requestArrives; try dsimp only
  repeat' (first | with_reducible assumption | with_reducible apply linkReceive_keeps | with_reducible apply forward_keeps | with_reducible apply spanEvent_keeps | with_reducible apply serveWrite_keeps | with_reducible apply serveRead_keeps | (intro _ _ _) | (intro _ _) | (intro _) | split | with_reducible apply Keeps.upd)

theorem writeReq_keeps {z : State} (s : State) (k vc : Nat) (m : SpanMsg) (hz : Keeps z s) :
    Keeps z (writeReq s k vc m) := by
  unfold writeReq; try dsimp only
  repeat' (first | with_reducible assumption | with_reducible apply requestArrives_keeps | (intro _ _ _) | (intro _ _) | (intro _) | split | with_reducible apply Keeps.upd)

theorem readReq_keeps {z : State} (s : State) (k vc : Nat) (m : SpanMsg) (hz : Keeps z s) :
    Keeps z (readReq s k vc m) := by
  unfold readReq; try dsimp only
  repeat' (first | with_reducible assumption | with_reducible apply requestArrives_keeps | (intro _ _ _) | (intro _ _) | (intro _) | split | with_reducible apply Keeps.upd)

theorem takeResponse_keeps {z : State} (s : State) (m : SpanMsg) (hz : Keeps z s) :
    Keeps z (takeResponse s m) := by
  unfold takeResponse; try dsimp only
  repeat' (first | with_reducible assumption | with_reducible apply endRequest_keeps | with_reducible apply xferKick_keeps | with_reducible apply unitDone_keeps | with_reducible apply getArrive_keeps | with_reducible apply xferEnd_keeps | with_reducible refine Keeps.of_snd (by with_reducible assumption) ?_ | with_reducible apply Keeps.foldl | with_reducible apply Keeps.foldl_snd | with_reducible apply Keeps.foldl_fst | with_reducible apply Keeps.foldl_snd_snd | (dsimp only) | (intro _ _ _) | (intro _ _) | (intro _) | split | with_reducible apply Keeps.upd)

theorem responseArrives_keeps {z : State} (s : State) (k vc : Nat) (m : SpanMsg) (hz : Keeps z s) :
    Keeps z (responseArrives s k vc m) := by
  unfold responseArrives; try dsimp only
  repeat' (first | with_reducible assumption | with_reducible apply linkReceive_keeps | with_reducible apply forward_keeps | with_reducible apply takeResponse_keeps | with_reducible apply spanEvent_keeps | (intro _ _ _) | (intro _ _) | (intro _) | split | with_reducible apply Keeps.upd)

theorem writeRsp_keeps {z : State} (s : State) (k vc : Nat) (m : SpanMsg) (hz : Keeps z s) :
    Keeps z (writeRsp s k vc m) := by
  unfold writeRsp; try dsimp only
  repeat' (first | with_reducible assumption | with_reducible apply responseArrives_keeps | (intro _ _ _) | (intro _ _) | (intro _) | split | with_reducible apply Keeps.upd)

theorem readRsp_keeps {z : State} (s : State) (k vc : Nat) (m : SpanMsg) (hz : Keeps z s) :
    Keeps z (readRsp s k vc m) := by
  unfold readRsp; try dsimp only
  repeat' (first | with_reducible assumption | with_reducible apply responseArrives_keeps | (intro _ _ _) | (intro _ _) | (intro _) | split | with_reducible apply Keeps.upd)

theorem requestTimeout_keeps {z : State} (s : State) (xid : Nat) (hz : Keeps z s) :
    Keeps z (requestTimeout s xid) := by
  unfold requestTimeout; try dsimp only
  repeat' (first | with_reducible assumption | with_reducible apply bump_keeps | with_reducible apply endRequest_keeps | (intro _ _ _) | (intro _ _) | (intro _) | split | with_reducible apply Keeps.upd)

theorem routeMove_keeps {z : State} (s : State) (m par : Nat) (hz : Keeps z s) :
    Keeps z (routeMove s m par) := by
  unfold routeMove; try dsimp only
  repeat' (first | with_reducible assumption | with_reducible apply sendHeld_keeps | (intro _ _ _) | (intro _ _) | (intro _) | split | with_reducible apply Keeps.upd)

theorem controlArrives_keeps {z : State} (s : State) (k : Nat) (h : CtlHead) (data : Bytes) (act : State → State) (hz : Keeps z s) (hf : ∀ t, Keeps z t → Keeps z (act t)) :
    Keeps z (controlArrives s k h data act) := by
  unfold controlArrives; try dsimp only
  repeat' (first | with_reducible assumption | with_reducible apply linkReceive_keeps | with_reducible apply forward_keeps | with_reducible apply spanEvent_keeps | with_reducible refine Keeps.of_snd (by with_reducible assumption) ?_ | with_reducible apply hf | (intro _ _ _) | (intro _ _) | (intro _) | split | with_reducible apply Keeps.upd)

theorem reportDown_keeps {z : State} (s : State) (src neigh : Nat) (hz : Keeps z s) :
    Keeps z (reportDown s src neigh) := by
  unfold reportDown; try dsimp only
  repeat' (first | with_reducible assumption | with_reducible apply judgeLoss_keeps | (intro _ _ _) | (intro _ _) | (intro _) | split | with_reducible apply Keeps.upd)

theorem linkDownMsg_keeps {z : State} (s : State) (k : Nat) (h : CtlHead) (neigh : Nat) (hz : Keeps z s) :
    Keeps z (linkDownMsg s k h neigh) := by
  unfold linkDownMsg; try dsimp only
  repeat' (first | with_reducible assumption | with_reducible apply controlArrives_keeps | with_reducible apply reportDown_keeps | (intro _ _ _) | (intro _ _) | (intro _) | split | with_reducible apply Keeps.upd)

theorem pauseTimeouts_keeps {z : State} (s : State) (src : Nat) (hz : Keeps z s) :
    Keeps z (pauseTimeouts s src) := by
  unfold pauseTimeouts; try dsimp only
  repeat' (first | with_reducible assumption | with_reducible apply requestStop_keeps | (intro _ _ _) | (intro _ _) | (intro _) | split | with_reducible apply Keeps.upd)

theorem spanHalt_keeps {z : State} (s : State) (k : Nat) (h : CtlHead) (hz : Keeps z s) :
    Keeps z (spanHalt s k h) := by
  unfold spanHalt; try dsimp only
  repeat' (first | with_reducible assumption | with_reducible apply controlArrives_keeps | with_reducible apply pauseTimeouts_keeps | (intro _ _ _) | (intro _ _) | (intro _) | split | with_reducible apply Keeps.upd)

theorem runTimeouts_keeps {z : State} (s : State) (src : Nat) (hz : Keeps z s) :
    Keeps z (runTimeouts s src) := by
  unfold runTimeouts; try dsimp only
  repeat' (first | with_reducible assumption | (intro _ _ _) | (intro _ _) | (intro _) | split | with_reducible apply Keeps.upd)

theorem spanResume_keeps {z : State} (s : State) (k : Nat) (h : CtlHead) (hz : Keeps z s) :
    Keeps z (spanResume s k h) := by
  unfold spanResume; try dsimp only
  repeat' (first | with_reducible assumption | with_reducible apply controlArrives_keeps | with_reducible apply runTimeouts_keeps | (intro _ _ _) | (intro _ _) | (intro _) | split | with_reducible apply Keeps.upd)

theorem takePrepare_keeps {z : State} (s : State) (p : EpochPlan) (lost : Nat) (hz : Keeps z s) :
    Keeps z (takePrepare s p lost) := by
  unfold takePrepare; try dsimp only
  repeat' (first | with_reducible assumption | with_reducible apply sendPlan_keeps | with_reducible apply loseEvicted_keeps | with_reducible apply writeRoutes_keeps | with_reducible apply regPutF_keeps | (intro _ _ _) | (intro _ _) | (intro _) | split | with_reducible apply Keeps.upd)

theorem prepareMsg_keeps {z : State} (s : State) (k : Nat) (h : CtlHead) (p : EpochPlan) (lost : Nat) (hz : Keeps z s) :
    Keeps z (prepareMsg s k h p lost) := by
  unfold prepareMsg; try dsimp only
  repeat' (first | with_reducible assumption | with_reducible apply controlArrives_keeps | with_reducible apply takePrepare_keeps | (intro _ _ _) | (intro _ _) | (intro _) | split | with_reducible apply Keeps.upd)

theorem takeReady_keeps {z : State} (s : State) (src epoch : Nat) (hz : Keeps z s) :
    Keeps z (takeReady s src epoch) := by
  unfold takeReady; try dsimp only
  repeat' (first | with_reducible assumption | with_reducible apply commitIfReady_keeps | (intro _ _ _) | (intro _ _) | (intro _) | split | with_reducible apply Keeps.upd)

theorem epochReady_keeps {z : State} (s : State) (k : Nat) (h : CtlHead) (hz : Keeps z s) :
    Keeps z (epochReady s k h) := by
  unfold epochReady; try dsimp only
  repeat' (first | with_reducible assumption | with_reducible apply controlArrives_keeps | with_reducible apply takeReady_keeps | (intro _ _ _) | (intro _ _) | (intro _) | split | with_reducible apply Keeps.upd)

theorem abortRun_keeps {z : State} (s : State) (status : Nat) (hz : Keeps z s) :
    Keeps z (abortRun s status) := by
  unfold abortRun; try dsimp only
  repeat' (first | with_reducible assumption | with_reducible apply sendPeers_keeps | with_reducible apply judgeLoss_keeps | with_reducible apply answerEpoch_keeps | (intro _ _ _) | (intro _ _) | (intro _) | split | with_reducible apply Keeps.upd)

theorem epochRefuse_keeps {z : State} (s : State) (k : Nat) (h : CtlHead) (hz : Keeps z s) :
    Keeps z (epochRefuse s k h) := by
  unfold epochRefuse; try dsimp only
  repeat' (first | with_reducible assumption | with_reducible apply controlArrives_keeps | with_reducible apply abortRun_keeps | (intro _ _ _) | (intro _ _) | (intro _) | split | with_reducible apply Keeps.upd)

theorem epochReadyTimeout_keeps {z : State} (s : State) (hz : Keeps z s) :
    Keeps z (epochReadyTimeout s) := by
  unfold epochReadyTimeout; try dsimp only
  repeat' (first | with_reducible assumption | with_reducible apply abortRun_keeps | (intro _ _ _) | (intro _ _) | (intro _) | split | with_reducible apply Keeps.upd)

theorem takeCommit_keeps {z : State} (s : State) (epoch : Nat) (hz : Keeps z s) :
    Keeps z (takeCommit s epoch) := by
  unfold takeCommit; try dsimp only
  repeat' (first | with_reducible assumption | with_reducible apply switchEpoch_keeps | (intro _ _ _) | (intro _ _) | (intro _) | split | with_reducible apply Keeps.upd)

theorem epochCommit_keeps {z : State} (s : State) (k : Nat) (h : CtlHead) (hz : Keeps z s) :
    Keeps z (epochCommit s k h) := by
  unfold epochCommit; try dsimp only
  repeat' (first | with_reducible assumption | with_reducible apply controlArrives_keeps | with_reducible apply takeCommit_keeps | (intro _ _ _) | (intro _ _) | (intro _) | split | with_reducible apply Keeps.upd)

theorem takeAbort_keeps {z : State} (s : State) (epoch : Nat) (hz : Keeps z s) :
    Keeps z (takeAbort s epoch) := by
  unfold takeAbort; try dsimp only
  repeat' (first | with_reducible assumption | with_reducible apply regPutF_keeps | (intro _ _ _) | (intro _ _) | (intro _) | split | with_reducible apply Keeps.upd)

theorem epochAbort_keeps {z : State} (s : State) (k : Nat) (h : CtlHead) (hz : Keeps z s) :
    Keeps z (epochAbort s k h) := by
  unfold epochAbort; try dsimp only
  repeat' (first | with_reducible assumption | with_reducible apply controlArrives_keeps | with_reducible apply takeAbort_keeps | (intro _ _ _) | (intro _ _) | (intro _) | split | with_reducible apply Keeps.upd)

theorem endEpochXfers_keeps {z : State} (s : State) (k h e : Nat) (hz : Keeps z s) :
    Keeps z (endEpochXfers s k h e) := by
  unfold endEpochXfers; try dsimp only
  repeat' (first | with_reducible assumption | with_reducible apply bump_keeps | with_reducible apply xferEnd_keeps | with_reducible apply Keeps.foldl | with_reducible apply Keeps.foldl_snd | with_reducible apply Keeps.foldl_fst | with_reducible apply Keeps.foldl_snd_snd | (intro _ _ _) | (intro _ _) | (intro _) | split | with_reducible apply Keeps.upd)

theorem epochClose_keeps {z : State} (s : State) (hz : Keeps z s) :
    Keeps z (epochClose s) := by
  unfold epochClose; try dsimp only
  repeat' (first | with_reducible assumption | with_reducible apply regPutF_keeps | with_reducible apply endEpochXfers_keeps | with_reducible apply judgeLoss_keeps | with_reducible apply Keeps.foldl | with_reducible apply Keeps.foldl_snd | with_reducible apply Keeps.foldl_fst | with_reducible apply Keeps.foldl_snd_snd | (intro _ _ _) | (intro _ _) | (intro _) | split | with_reducible apply Keeps.upd)

end Sys2Proof.Machine
end

