-- ==== Sys2Proof/Laws/KeepsCrown.lean ====
section
/-!
SUPPORT. The operations of Crown keep the queue and the canonical form of the tables.
-/

namespace Sys2Proof.Machine
theorem whileCrown_keeps {z : State} (s t : State) (hz : Keeps z s) (hz1 : Keeps z t) :
    Keeps z (whileCrown s t) := by
  unfold whileCrown; try dsimp only
  repeat' (first | with_reducible assumption | (intro _ _ _) | (intro _ _) | (intro _) | split | with_reducible apply Keeps.upd)

theorem portStatus_keeps {z : State} (s : State) (c q : Nat) (w : Word) (hz : Keeps z s) :
    Keeps z (portStatus s c q w) := by
  unfold portStatus; try dsimp only
  repeat' (first | with_reducible assumption | (intro _ _ _) | (intro _ _) | (intro _) | split | with_reducible apply Keeps.upd)

theorem portRefuse_keeps {z : State} (s : State) (c q : Nat) (hz : Keeps z s) :
    Keeps z (portRefuse s c q) := by
  unfold portRefuse; try dsimp only
  repeat' (first | with_reducible assumption | with_reducible apply portStatus_keeps | (intro _ _ _) | (intro _ _) | (intro _) | split | with_reducible apply Keeps.upd)

theorem portDone_keeps {z : State} (d : QDone) (c q : Nat) (hz : Keeps z d.s) :
    Keeps z (portDone d c q) := by
  unfold portDone; try dsimp only
  repeat' (first | with_reducible assumption | with_reducible apply portStatus_keeps | (intro _ _ _) | (intro _ _) | (intro _) | split | with_reducible apply Keeps.upd)

theorem portProduce_keeps {z : State} (s : State) (c q : Nat) (f : State → State) (hz : Keeps z s) (hf : ∀ t, Keeps z t → Keeps z (f t)) :
    Keeps z (portProduce s c q f) := by
  unfold portProduce; try dsimp only
  repeat' (first | with_reducible assumption | with_reducible apply portRefuse_keeps | with_reducible refine Keeps.of_snd (by with_reducible assumption) ?_ | with_reducible apply hf | (intro _ _ _) | (intro _ _) | (intro _) | split | with_reducible apply Keeps.upd)

theorem portConsume_keeps {z : State} (s : State) (c q : Nat) (f : State → State) (hz : Keeps z s) (hf : ∀ t, Keeps z t → Keeps z (f t)) :
    Keeps z (portConsume s c q f) := by
  unfold portConsume; try dsimp only
  repeat' (first | with_reducible assumption | with_reducible apply portRefuse_keeps | with_reducible refine Keeps.of_snd (by with_reducible assumption) ?_ | with_reducible apply hf | (intro _ _ _) | (intro _ _) | (intro _) | split | with_reducible apply Keeps.upd)

theorem openDone_keeps {z : State} (d : QDone) (c q : Nat) (hz : Keeps z d.s) :
    Keeps z (openDone d c q) := by
  unfold openDone; try dsimp only
  repeat' (first | with_reducible assumption | with_reducible apply portDone_keeps | (intro _ _ _) | (intro _ _) | (intro _) | split | with_reducible apply Keeps.upd)

theorem portOpen_keeps {z : State} (s : State) (c q v : Nat) (hz : Keeps z s) :
    Keeps z (portOpen s c q v) := by
  unfold portOpen; try dsimp only
  repeat' (first | with_reducible assumption | with_reducible apply portProduce_keeps | with_reducible apply portRefuse_keeps | with_reducible apply qOpen_keeps | with_reducible apply queueRewindPacket_keeps | with_reducible apply openDone_keeps | with_reducible refine Keeps.of_qdone (by with_reducible assumption) ?_ | (dsimp only) | (intro _ _ _) | (intro _ _) | (intro _) | split | with_reducible apply Keeps.upd)

theorem openRetry_keeps {z : State} (s : State) (q : Nat) (hz : Keeps z s) :
    Keeps z (openRetry s q) := by
  unfold openRetry; try dsimp only
  repeat' (first | with_reducible assumption | with_reducible apply qOpen_keeps | with_reducible apply openDone_keeps | with_reducible refine Keeps.of_qdone (by with_reducible assumption) ?_ | (dsimp only) | (intro _ _ _) | (intro _ _) | (intro _) | split | with_reducible apply Keeps.upd)

theorem portPush_keeps {z : State} (s : State) (c q : Nat) (stage : Bool) (v : Word) (flip : Bool) (hz : Keeps z s) :
    Keeps z (portPush s c q stage v flip) := by
  unfold portPush; try dsimp only
  repeat' (first | with_reducible assumption | with_reducible apply portProduce_keeps | with_reducible apply portStatus_keeps | with_reducible apply portDone_keeps | with_reducible apply qPush_keeps | (dsimp only) | (intro _ _ _) | (intro _ _) | (intro _) | split | with_reducible apply Keeps.upd)

theorem portCommit_keeps {z : State} (s : State) (c q : Nat) (hz : Keeps z s) :
    Keeps z (portCommit s c q) := by
  unfold portCommit; try dsimp only
  repeat' (first | with_reducible assumption | with_reducible apply portProduce_keeps | with_reducible apply portDone_keeps | with_reducible apply qSimple_keeps | with_reducible apply queueCommit_keeps | with_reducible refine Keeps.of_snd (by with_reducible assumption) ?_ | (dsimp only) | (intro _ _ _) | (intro _ _) | (intro _) | split | with_reducible apply Keeps.upd)

theorem portAbort_keeps {z : State} (s : State) (c q : Nat) (hz : Keeps z s) :
    Keeps z (portAbort s c q) := by
  unfold portAbort; try dsimp only
  repeat' (first | with_reducible assumption | with_reducible apply portProduce_keeps | with_reducible apply portDone_keeps | with_reducible apply qSimple_keeps | with_reducible apply queueAbort_keeps | with_reducible refine Keeps.of_snd (by with_reducible assumption) ?_ | (dsimp only) | (intro _ _ _) | (intro _ _) | (intro _) | split | with_reducible apply Keeps.upd)

theorem portFlag_keeps {z : State} (s : State) (c q : Nat) (b : Bool) (hz : Keeps z s) :
    Keeps z (portFlag s c q b) := by
  unfold portFlag; try dsimp only
  repeat' (first | with_reducible assumption | (intro _ _ _) | (intro _ _) | (intro _) | split | with_reducible apply Keeps.upd)

theorem spoilHead_keeps {z : State} (s : State) (q : Nat) (hz : Keeps z s) :
    Keeps z (spoilHead s q) := by
  unfold spoilHead; try dsimp only
  repeat' (first | with_reducible assumption | with_reducible apply loadHead_keeps | with_reducible apply queueSet_keeps | (intro _ _ _) | (intro _ _) | (intro _) | split | with_reducible apply Keeps.upd)

theorem portRead_keeps {z : State} (s : State) (c q : Nat) (flag : Option Bool) (flip : Bool) (hz : Keeps z s) :
    Keeps z (portRead s c q flag flip) := by
  unfold portRead; try dsimp only
  repeat' (first | with_reducible assumption | with_reducible apply portConsume_keeps | with_reducible apply portFlag_keeps | with_reducible apply portRefuse_keeps | with_reducible apply queueRead_keeps | with_reducible apply spoilHead_keeps | with_reducible apply portStatus_keeps | with_reducible refine Keeps.of_snd (by with_reducible assumption) ?_ | (dsimp only) | (intro _ _ _) | (intro _ _) | (intro _) | split | with_reducible apply Keeps.upd)

theorem portMark_keeps {z : State} (s : State) (c q : Nat) (hz : Keeps z s) :
    Keeps z (portMark s c q) := by
  unfold portMark; try dsimp only
  repeat' (first | with_reducible assumption | with_reducible apply portConsume_keeps | with_reducible apply portDone_keeps | with_reducible apply qSimple_keeps | with_reducible apply queueMark_keeps | with_reducible apply portFlag_keeps | with_reducible refine Keeps.of_snd (by with_reducible assumption) ?_ | (dsimp only) | (intro _ _ _) | (intro _ _) | (intro _) | split | with_reducible apply Keeps.upd)

theorem portRewind_keeps {z : State} (s : State) (c q : Nat) (hz : Keeps z s) :
    Keeps z (portRewind s c q) := by
  unfold portRewind; try dsimp only
  repeat' (first | with_reducible assumption | with_reducible apply portConsume_keeps | with_reducible apply portDone_keeps | with_reducible apply qSimple_keeps | with_reducible apply queueRewind_keeps | with_reducible apply portFlag_keeps | with_reducible refine Keeps.of_snd (by with_reducible assumption) ?_ | (dsimp only) | (intro _ _ _) | (intro _ _) | (intro _) | split | with_reducible apply Keeps.upd)

theorem portRelease_keeps {z : State} (s : State) (c q : Nat) (hz : Keeps z s) :
    Keeps z (portRelease s c q) := by
  unfold portRelease; try dsimp only
  repeat' (first | with_reducible assumption | with_reducible apply portConsume_keeps | with_reducible apply portDone_keeps | with_reducible apply qSimple_keeps | with_reducible apply queueRelease_keeps | with_reducible apply portFlag_keeps | with_reducible refine Keeps.of_snd (by with_reducible assumption) ?_ | (dsimp only) | (intro _ _ _) | (intro _ _) | (intro _) | split | with_reducible apply Keeps.upd)

theorem appendExc_keeps {z : State} (s : State) (page addr : Nat) (hz : Keeps z s) :
    Keeps z (appendExc s page addr) := by
  unfold appendExc; try dsimp only
  repeat' (first | with_reducible assumption | with_reducible apply crownStore_keeps | (intro _ _ _) | (intro _ _) | (intro _) | split | with_reducible apply Keeps.upd)

theorem handleEvent_keeps {z : State} (s : State) (n : Nat) (hz : Keeps z s) :
    Keeps z (handleEvent s n) := by
  unfold handleEvent; try dsimp only
  repeat' (first | with_reducible assumption | with_reducible apply appendExc_keeps | (intro _ _ _) | (intro _ _) | (intro _) | split | with_reducible apply Keeps.upd)

theorem evqRd_keeps {z : State} (s : State) (rd : Nat) (hz : Keeps z s) :
    Keeps z (evqRd s rd) := by
  unfold evqRd; try dsimp only
  repeat' (first | with_reducible assumption | with_reducible apply handleEvent_keeps | with_reducible apply drainEvents_keeps | with_reducible apply regPutF_keeps | with_reducible apply Keeps.foldl | with_reducible apply Keeps.foldl_snd | with_reducible apply Keeps.foldl_fst | with_reducible apply Keeps.foldl_snd_snd | (intro _ _ _) | (intro _ _) | (intro _) | split | with_reducible apply Keeps.upd)

theorem kick_keeps {z : State} (s : State) (c : Nat) (hz : Keeps z s) :
    Keeps z (kick s c) := by
  unfold kick; try dsimp only
  repeat' (first | with_reducible assumption | (intro _ _ _) | (intro _ _) | (intro _) | split | with_reducible apply Keeps.upd)

theorem leaveApp_keeps {z : State} (s : State) (c : Nat) (hz : Keeps z s) :
    Keeps z (leaveApp s c) := by
  unfold leaveApp; try dsimp only
  repeat' (first | with_reducible assumption | with_reducible apply regPutF_keeps | with_reducible apply Keeps.foldl | with_reducible apply Keeps.foldl_snd | with_reducible apply Keeps.foldl_fst | with_reducible apply Keeps.foldl_snd_snd | (intro _ _ _) | (intro _ _) | (intro _) | split | with_reducible apply Keeps.upd)

theorem keepTwo_keeps {z : State} (s : State) (hz : Keeps z s) :
    Keeps z (keepTwo s) := by
  unfold keepTwo; try dsimp only
  repeat' (first | with_reducible assumption | with_reducible apply kick_keeps | with_reducible apply regPutF_keeps | with_reducible apply leaveApp_keeps | (intro _ _ _) | (intro _ _) | (intro _) | split | with_reducible apply Keeps.upd)

theorem rewindCrown_keeps {z : State} (s : State) (c : Nat) (hz : Keeps z s) :
    Keeps z (rewindCrown s c) := by
  unfold rewindCrown; try dsimp only
  repeat' (first | with_reducible assumption | with_reducible apply queueRewindPacket_keeps | with_reducible apply Keeps.foldl | with_reducible apply Keeps.foldl_snd | with_reducible apply Keeps.foldl_fst | with_reducible apply Keeps.foldl_snd_snd | (intro _ _ _) | (intro _ _) | (intro _) | split | with_reducible apply Keeps.upd)

theorem holdCore_keeps {z : State} (s : State) (c replays : Nat) (hz : Keeps z s) :
    Keeps z (holdCore s c replays) := by
  unfold holdCore; try dsimp only
  repeat' (first | with_reducible assumption | with_reducible apply rewindCrown_keeps | with_reducible apply regPutF_keeps | with_reducible apply recovery_keeps | with_reducible apply bump_keeps | with_reducible apply crownEvent_keeps | with_reducible apply bumpBy_keeps | with_reducible apply enterFaulted_keeps | with_reducible apply keepTwo_keeps | (intro _ _ _) | (intro _ _) | (intro _) | split | with_reducible apply Keeps.upd)

theorem watchdog_keeps {z : State} (s : State) (c replays : Nat) (hz : Keeps z s) :
    Keeps z (watchdog s c replays) := by
  unfold watchdog; try dsimp only
  repeat' (first | with_reducible assumption | with_reducible apply holdCore_keeps | (intro _ _ _) | (intro _ _) | (intro _) | split | with_reducible apply Keeps.upd)

theorem appEnds_keeps {z : State} (s : State) (c : Nat) (hz : Keeps z s) :
    Keeps z (appEnds s c) := by
  unfold appEnds; try dsimp only
  repeat' (first | with_reducible assumption | with_reducible apply bump_keeps | with_reducible apply regPutF_keeps | with_reducible apply Keeps.foldl | with_reducible apply Keeps.foldl_snd | with_reducible apply Keeps.foldl_fst | with_reducible apply Keeps.foldl_snd_snd | (intro _ _ _) | (intro _ _) | (intro _) | split | with_reducible apply Keeps.upd)

theorem machineCheck_keeps {z : State} (s : State) (c replays : Nat) (hz : Keeps z s) :
    Keeps z (machineCheck s c replays) := by
  unfold machineCheck; try dsimp only
  repeat' (first | with_reducible assumption | with_reducible apply holdCore_keeps | with_reducible apply appEnds_keeps | (intro _ _ _) | (intro _ _) | (intro _) | split | with_reducible apply Keeps.upd)

theorem coreRelease_keeps {z : State} (s : State) (c : Nat) (hz : Keeps z s) :
    Keeps z (coreRelease s c) := by
  unfold coreRelease; try dsimp only
  repeat' (first | with_reducible assumption | with_reducible apply regPutF_keeps | with_reducible apply kick_keeps | (intro _ _ _) | (intro _ _) | (intro _) | split | with_reducible apply Keeps.upd)

theorem spoilTrace_keeps {z : State} (s : State) (g : Nat) (hz : Keeps z s) :
    Keeps z (spoilTrace s g) := by
  unfold spoilTrace; try dsimp only
  repeat' (first | with_reducible assumption | (intro _ _ _) | (intro _ _) | (intro _) | split | with_reducible apply Keeps.upd)

theorem scrubHeart_keeps {z : State} (s : State) (g : Nat) (hz : Keeps z s) :
    Keeps z (scrubHeart s g) := by
  unfold scrubHeart; try dsimp only
  repeat' (first | with_reducible assumption | with_reducible apply touchGranule_keeps | with_reducible apply bump_keeps | (intro _ _ _) | (intro _ _) | (intro _) | split | with_reducible apply Keeps.upd)

theorem heartwoodScrub_keeps {z : State} (s : State) (ce ue : List Nat) (hz : Keeps z s) :
    Keeps z (heartwoodScrub s ce ue) := by
  unfold heartwoodScrub; try dsimp only
  repeat' (first | with_reducible assumption | with_reducible apply spoilTrace_keeps | with_reducible apply upsetGranules_keeps | with_reducible apply scrubPass_keeps | with_reducible apply scrubHeart_keeps | with_reducible refine Keeps.of_snd (by with_reducible assumption) ?_ | with_reducible apply Keeps.foldl | with_reducible apply Keeps.foldl_snd | with_reducible apply Keeps.foldl_fst | with_reducible apply Keeps.foldl_snd_snd | (dsimp only) | (intro _ _ _) | (intro _ _) | (intro _) | split | with_reducible apply Keeps.upd)

theorem flush_keeps {z : State} (s : State) (q : Nat) (hz : Keeps z s) :
    Keeps z (flush s q) := by
  unfold flush; try dsimp only
  repeat' (first | with_reducible assumption | with_reducible apply queueFlush_keeps | (intro _ _ _) | (intro _ _) | (intro _) | split | with_reducible apply Keeps.upd)

end Sys2Proof.Machine
end

