-- ==== Sys2Proof/Laws/KeepsSend.lean ====
section
/-!
SUPPORT. The operations of Send keep the queue and the canonical form of the tables.
-/

namespace Sys2Proof.Machine
theorem countTx_keeps {z : State} (s : State) (p : PortId) (f : Bytes) (hz : Keeps z s) :
    Keeps z (countTx s p f) := by
  unfold countTx; try dsimp only
  repeat' (first | with_reducible assumption | with_reducible apply bumpBy_keeps | with_reducible apply bump_keeps | (intro _ _ _) | (intro _ _) | (intro _) | split | with_reducible apply Keeps.upd)

theorem buildOut_keeps {z : State} (s : State) (f : Bytes) (hz : Keeps z s) :
    Keeps z (buildOut s f).2 := by
  unfold buildOut; try dsimp only
  repeat' (first | with_reducible assumption | with_reducible apply takeSlice_keeps | with_reducible refine Keeps.of_snd (by with_reducible assumption) ?_ | (dsimp only) | (intro _ _ _) | (intro _ _) | (intro _) | split | with_reducible apply Keeps.upd)

theorem sendOut_keeps {z : State} (s : State) (p : PortId) (f : Bytes) (hz : Keeps z s) :
    Keeps z (sendOut s p f) := by
  unfold sendOut; try dsimp only
  repeat' (first | with_reducible assumption | with_reducible apply buildOut_keeps | with_reducible apply countTx_keeps | with_reducible apply freeCells_keeps | with_reducible refine Keeps.of_snd (by with_reducible assumption) ?_ | (dsimp only) | (intro _ _ _) | (intro _ _) | (intro _) | split | with_reducible apply Keeps.upd)

theorem leaveOut_keeps {z : State} (s : State) (e : OutFrame) (hz : Keeps z s) :
    Keeps z (leaveOut s e) := by
  unfold leaveOut; try dsimp only
  repeat' (first | with_reducible assumption | with_reducible apply readCells_keeps | with_reducible apply writeCells_keeps | with_reducible apply countTx_keeps | with_reducible apply freeCells_keeps | (intro _ _ _) | (intro _ _) | (intro _) | split | with_reducible apply Keeps.upd)

theorem flushOut_keeps {z : State} (s : State) (p : PortId) (hz : Keeps z s) :
    Keeps z (flushOut s p) := by
  unfold flushOut; try dsimp only
  repeat' (first | with_reducible assumption | with_reducible apply leaveOut_keeps | with_reducible apply Keeps.foldl | with_reducible apply Keeps.foldl_snd | with_reducible apply Keeps.foldl_fst | with_reducible apply Keeps.foldl_snd_snd | (intro _ _ _) | (intro _ _) | (intro _) | split | with_reducible apply Keeps.upd)

end Sys2Proof.Machine
end

