-- ==== Sys2Proof/Laws/KeepsDebug.lean ====
section
/-!
SUPPORT. The operations of Debug keep the queue and the canonical form of the tables.
-/

namespace Sys2Proof.Machine

theorem dbgStatus_keeps {z : State} (s : State) (st : Nat) (hz : Keeps z s) :
    Keeps z (dbgStatus s st) := by
  unfold dbgStatus; try dsimp only
  repeat' (first | with_reducible assumption | with_reducible apply regPutF_keeps | (intro _ _ _) | (intro _ _) | (intro _) | split | with_reducible apply Keeps.upd)

theorem dumpPieces_keeps {z : State} (s : State) (k ctx : Nat) (bs : Bytes) (ps : List (Nat × Nat)) (hz : Keeps z s) :
    Keeps z (dumpPieces s k ctx bs ps).2 := by
  induction ps generalizing s k ctx bs with
  | nil =>
    unfold dumpPieces; try dsimp only
    repeat' (first | (cases ‹_ + 1 = _ + 1›) | with_reducible assumption | with_reducible apply translate_keeps | with_reducible apply busWrite_keeps | with_reducible apply ih | with_reducible refine Keeps.of_snd (by with_reducible assumption) ?_ | (dsimp only) | (intro _ _ _) | (intro _ _) | (intro _) | split | with_reducible apply Keeps.upd)
  | cons x l ih =>
    unfold dumpPieces; try dsimp only
    repeat' (first | (cases ‹_ + 1 = _ + 1›) | with_reducible assumption | with_reducible apply translate_keeps | with_reducible apply busWrite_keeps | with_reducible apply ih | with_reducible refine Keeps.of_snd (by with_reducible assumption) ?_ | (dsimp only) | (intro _ _ _) | (intro _ _) | (intro _) | split | with_reducible apply Keeps.upd)

theorem dumpContext_keeps {z : State} (s : State) (k h va : Nat) (x : Hc) (hz : Keeps z s) :
    Keeps z (dumpContext s k h va x) := by
  unfold dumpContext; try dsimp only
  repeat' (first | with_reducible assumption | with_reducible apply dumpPieces_keeps | with_reducible apply dbgStatus_keeps | with_reducible refine Keeps.of_snd (by with_reducible assumption) ?_ | (dsimp only) | (intro _ _ _) | (intro _ _) | (intro _) | split | with_reducible apply Keeps.upd)

theorem debugOp_keeps {z : State} (s : State) (k h op : Nat) (hz : Keeps z s) :
    Keeps z (debugOp s k h op) := by
  unfold debugOp; try dsimp only
  repeat' (first | with_reducible assumption | with_reducible apply dbgStatus_keeps | with_reducible apply hcSet_keeps | with_reducible apply regPutF_keeps | with_reducible apply dumpContext_keeps | (intro _ _ _) | (intro _ _) | (intro _) | split | with_reducible apply Keeps.upd)

theorem obsDbgWrite_keeps {z : State} (s : State) (v : Nat) (hz : Keeps z s) :
    Keeps z (obsDbgWrite s v) := by
  unfold obsDbgWrite; try dsimp only
  repeat' (first | with_reducible assumption | with_reducible apply regPutF_keeps | with_reducible apply debugOp_keeps | (intro _ _ _) | (intro _ _) | (intro _) | split | with_reducible apply Keeps.upd)

theorem debugRow_keeps {z : State} (s : State) (k h op : Nat) (hz : Keeps z s) :
    Keeps z (debugRow s k h op) := by
  unfold debugRow; try dsimp only
  repeat' (first | with_reducible assumption | with_reducible apply whileRunning_keeps | with_reducible apply obsDbgWrite_keeps | (intro _ _ _) | (intro _ _) | (intro _) | split | with_reducible apply Keeps.upd)

end Sys2Proof.Machine
end

