-- ==== Sys2Proof/Laws/KeepsFlash.lean ====
section
/-!
SUPPORT. The operations of Flash keep the queue and the canonical form of the tables.
-/

namespace Sys2Proof.Machine
theorem refuse_keeps {z : State} (s : State) (status : Nat) (hz : Keeps z s) :
    Keeps z (refuse s status).2 := by
  unfold refuse; try dsimp only
  repeat' (first | with_reducible assumption | (dsimp only) | (intro _ _ _) | (intro _ _) | (intro _) | split | with_reducible apply Keeps.upd)

theorem flashMod_keeps {z : State} (s : State) (f : Flash → Flash) (hz : Keeps z s) :
    Keeps z (flashMod s f) := by
  unfold flashMod; try dsimp only
  repeat' (first | with_reducible assumption | (intro _ _ _) | (intro _ _) | (intro _) | split | with_reducible apply Keeps.upd)

theorem mediaCount_keeps {z : State} (s : State) (m : Media) (hz : Keeps z s) :
    Keeps z (mediaCount s m) := by
  unfold mediaCount; try dsimp only
  repeat' (first | with_reducible assumption | with_reducible apply bumpBy_keeps | (intro _ _ _) | (intro _ _) | (intro _) | split | with_reducible apply Keeps.upd)

theorem mediaTake_keeps {z : State} (s : State) (f : CmdFrame) (hz : Keeps z s) :
    Keeps z (mediaTake s f).2 := by
  unfold mediaTake; try dsimp only
  repeat' (first | with_reducible assumption | with_reducible apply flashMod_keeps | (dsimp only) | (intro _ _ _) | (intro _ _) | (intro _) | split | with_reducible apply Keeps.upd)

theorem mediaLost_keeps {z : State} (s : State) (part : Nat) (secs : List Nat) (ue : Nat) (hz : Keeps z s) :
    Keeps z (mediaLost s part secs ue) := by
  unfold mediaLost; try dsimp only
  repeat' (first | with_reducible assumption | with_reducible apply bumpBy_keeps | with_reducible apply flashMod_keeps | with_reducible apply Keeps.foldl | with_reducible apply Keeps.foldl_snd | with_reducible apply Keeps.foldl_fst | with_reducible apply Keeps.foldl_snd_snd | (intro _ _ _) | (intro _ _) | (intro _) | split | with_reducible apply Keeps.upd)

theorem flashReadAt_keeps {z : State} (s : State) (f : CmdFrame) (part off n : Nat) (hz : Keeps z s) :
    Keeps z (flashReadAt s f part off n).2 := by
  unfold flashReadAt; try dsimp only
  repeat' (first | with_reducible assumption | with_reducible apply mediaTake_keeps | with_reducible apply mediaLost_keeps | with_reducible apply mediaCount_keeps | with_reducible apply refuse_keeps | with_reducible refine Keeps.of_snd (by with_reducible assumption) ?_ | (dsimp only) | (intro _ _ _) | (intro _ _) | (intro _) | split | with_reducible apply Keeps.upd)

theorem flashRead_keeps {z : State} (s : State) (f : CmdFrame) (hz : Keeps z s) :
    Keeps z (flashRead s f).2 := by
  unfold flashRead; try dsimp only
  repeat' (first | with_reducible assumption | with_reducible apply refuse_keeps | with_reducible apply flashReadAt_keeps | with_reducible refine Keeps.of_snd (by with_reducible assumption) ?_ | (dsimp only) | (intro _ _ _) | (intro _ _) | (intro _) | split | with_reducible apply Keeps.upd)

theorem flashWrite_keeps {z : State} (s : State) (f : CmdFrame) (hz : Keeps z s) :
    Keeps z (flashWrite s f).2 := by
  unfold flashWrite; try dsimp only
  repeat' (first | with_reducible assumption | with_reducible apply refuse_keeps | with_reducible apply mediaTake_keeps | with_reducible apply mediaCount_keeps | with_reducible apply flashMod_keeps | with_reducible refine Keeps.of_snd (by with_reducible assumption) ?_ | (dsimp only) | (intro _ _ _) | (intro _ _) | (intro _) | split | with_reducible apply Keeps.upd)

theorem flashErase_keeps {z : State} (s : State) (f : CmdFrame) (hz : Keeps z s) :
    Keeps z (flashErase s f).2 := by
  unfold flashErase; try dsimp only
  repeat' (first | with_reducible assumption | with_reducible apply refuse_keeps | with_reducible apply flashMod_keeps | with_reducible refine Keeps.of_snd (by with_reducible assumption) ?_ | (dsimp only) | (intro _ _ _) | (intro _ _) | (intro _) | split | with_reducible apply Keeps.upd)

theorem dropSegment_keeps {z : State} (s : State) (hz : Keeps z s) :
    Keeps z (dropSegment s) := by
  unfold dropSegment; try dsimp only
  repeat' (first | with_reducible assumption | with_reducible apply flashMod_keeps | (intro _ _ _) | (intro _ _) | (intro _) | split | with_reducible apply Keeps.upd)

theorem drainAppends_keeps {z : State} (s : State) (fuel : Nat) (hz : Keeps z s) :
    Keeps z (drainAppends s fuel) := by
  induction fuel generalizing s with
  | zero =>
    unfold drainAppends; try dsimp only
    repeat' (first | (cases ‹_ + 1 = _ + 1›) | with_reducible assumption | with_reducible apply dropSegment_keeps | with_reducible apply flashMod_keeps | with_reducible apply ih | (intro _ _ _) | (intro _ _) | (intro _) | split | with_reducible apply Keeps.upd)
  | succ n ih =>
    unfold drainAppends; try dsimp only
    repeat' (first | (cases ‹_ + 1 = _ + 1›) | with_reducible assumption | with_reducible apply dropSegment_keeps | with_reducible apply flashMod_keeps | with_reducible apply ih | (intro _ _ _) | (intro _ _) | (intro _) | split | with_reducible apply Keeps.upd)

theorem drainAll_keeps {z : State} (s : State) (hz : Keeps z s) :
    Keeps z (drainAll s) := by
  unfold drainAll; try dsimp only
  repeat' (first | with_reducible assumption | with_reducible apply drainAppends_keeps | (intro _ _ _) | (intro _ _) | (intro _) | split | with_reducible apply Keeps.upd)

theorem appendStatus_keeps {z : State} (s : State) (c : Nat) (dropped : Bool) (hz : Keeps z s) :
    Keeps z (appendStatus s c dropped) := by
  unfold appendStatus; try dsimp only
  repeat' (first | with_reducible assumption | (intro _ _ _) | (intro _ _) | (intro _) | split | with_reducible apply Keeps.upd)

theorem captureAppend_keeps {z : State} (s : State) (c : Nat) (bs : Bytes) (hz : Keeps z s) :
    Keeps z (captureAppend s c bs) := by
  unfold captureAppend; try dsimp only
  repeat' (first | with_reducible assumption | with_reducible apply flashMod_keeps | with_reducible apply appendStatus_keeps | with_reducible apply bump_keeps | with_reducible apply drainAll_keeps | with_reducible apply Keeps.foldl | with_reducible apply Keeps.foldl_snd | with_reducible apply Keeps.foldl_fst | with_reducible apply Keeps.foldl_snd_snd | (intro _ _ _) | (intro _ _) | (intro _) | split | with_reducible apply Keeps.upd)

theorem dieLoss_keeps {z : State} (s : State) (d : Nat) (hz : Keeps z s) :
    Keeps z (dieLoss s d) := by
  unfold dieLoss; try dsimp only
  repeat' (first | with_reducible assumption | with_reducible apply recovery_keeps | with_reducible apply flashMod_keeps | (intro _ _ _) | (intro _ _) | (intro _) | split | with_reducible apply Keeps.upd)

theorem stripeRebuildComplete_keeps {z : State} (s : State) (hz : Keeps z s) :
    Keeps z (stripeRebuildComplete s) := by
  unfold stripeRebuildComplete; try dsimp only
  repeat' (first | with_reducible assumption | with_reducible apply flashMod_keeps | (intro _ _ _) | (intro _ _) | (intro _) | split | with_reducible apply Keeps.upd)

theorem flashScrub_keeps {z : State} (s : State) (m : Media) (ue : List Nat) (reloc : Nat) (hz : Keeps z s) :
    Keeps z (flashScrub s m ue reloc) := by
  unfold flashScrub; try dsimp only
  repeat' (first | with_reducible assumption | with_reducible apply scrubPassOf_keeps | with_reducible apply bumpBy_keeps | with_reducible apply mediaCount_keeps | with_reducible apply flashMod_keeps | with_reducible refine Keeps.of_snd (by with_reducible assumption) ?_ | with_reducible apply Keeps.foldl | with_reducible apply Keeps.foldl_snd | with_reducible apply Keeps.foldl_fst | with_reducible apply Keeps.foldl_snd_snd | (dsimp only) | (intro _ _ _) | (intro _ _) | (intro _) | split | with_reducible apply Keeps.upd)

theorem wearLevelling_keeps {z : State} (s : State) (avg max spread : Nat) (spent : Bool) (hz : Keeps z s) :
    Keeps z (wearLevelling s avg max spread spent) := by
  unfold wearLevelling; try dsimp only
  repeat' (first | with_reducible assumption | with_reducible apply flashMod_keeps | (intro _ _ _) | (intro _ _) | (intro _) | split | with_reducible apply Keeps.upd)

theorem sigBad_keeps {z : State} (s : State) (hz : Keeps z s) :
    Keeps z (sigBad s) := by
  unfold sigBad; try dsimp only
  repeat' (first | with_reducible assumption | with_reducible apply bump_keeps | (intro _ _ _) | (intro _ _) | (intro _) | split | with_reducible apply Keeps.upd)

theorem imageUsed_keeps {z : State} (s : State) (id : Nat) (hz : Keeps z s) :
    Keeps z (imageUsed s id) := by
  unfold imageUsed; try dsimp only
  repeat' (first | with_reducible assumption | with_reducible apply flashMod_keeps | (intro _ _ _) | (intro _ _) | (intro _) | split | with_reducible apply Keeps.upd)

theorem imageStage_keeps {z : State} (s : State) (f : CmdFrame) (hz : Keeps z s) :
    Keeps z (imageStage s f).2 := by
  unfold imageStage; try dsimp only
  repeat' (first | with_reducible assumption | with_reducible apply refuse_keeps | with_reducible apply flashMod_keeps | with_reducible apply mediaTake_keeps | with_reducible apply mediaCount_keeps | with_reducible apply sigBad_keeps | with_reducible refine Keeps.of_snd (by with_reducible assumption) ?_ | (dsimp only) | (intro _ _ _) | (intro _ _) | (intro _) | split | with_reducible apply Keeps.upd)

theorem firmwareStage_keeps {z : State} (s : State) (f : CmdFrame) (hz : Keeps z s) :
    Keeps z (firmwareStage s f).2 := by
  unfold firmwareStage; try dsimp only
  repeat' (first | with_reducible assumption | with_reducible apply flashMod_keeps | with_reducible apply refuse_keeps | with_reducible apply mediaTake_keeps | with_reducible apply mediaCount_keeps | with_reducible apply sigBad_keeps | with_reducible refine Keeps.of_snd (by with_reducible assumption) ?_ | (dsimp only) | (intro _ _ _) | (intro _ _) | (intro _) | split | with_reducible apply Keeps.upd)

end Sys2Proof.Machine
end

