-- ==== Sys2Proof/Laws/KeepsModes.lean ====
section
/-!
SUPPORT. The operations of Modes keep the queue and the canonical form of the tables.
-/

namespace Sys2Proof.Machine
theorem modeSet_keeps {z : State} (s : State) (f : CmdFrame) (hz : Keeps z s) :
    Keeps z (modeSet s f).2 := by
  unfold modeSet; try dsimp only
  repeat' (first | with_reducible assumption | with_reducible apply refuse_keeps | with_reducible apply modesMod_keeps | with_reducible refine Keeps.of_snd (by with_reducible assumption) ?_ | with_reducible apply Keeps.foldl | with_reducible apply Keeps.foldl_snd | with_reducible apply Keeps.foldl_fst | with_reducible apply Keeps.foldl_snd_snd | (dsimp only) | (intro _ _ _) | (intro _ _) | (intro _) | split | with_reducible apply Keeps.upd)

theorem modeTakesEffect_keeps {z : State} (s : State) (code : Nat) (hz : Keeps z s) :
    Keeps z (modeTakesEffect s code) := by
  unfold modeTakesEffect; try dsimp only
  repeat' (first | with_reducible assumption | with_reducible apply modesMod_keeps | (intro _ _ _) | (intro _ _) | (intro _) | split | with_reducible apply Keeps.upd)

end Sys2Proof.Machine
end

