-- ==== Sys2Proof/Laws/KeepsFlowTable.lean ====
section
/-!
SUPPORT. The operations of FlowTable keep the queue and the canonical form of the tables.
-/

namespace Sys2Proof.Machine

theorem writeBucket_keeps {z : State} (s : State) (i b off : Nat) (bs : Bytes) (hz : Keeps z s) :
    Keeps z (writeBucket s i b off bs) := by
  unfold writeBucket; try dsimp only
  repeat' (first | with_reducible assumption | with_reducible apply memWr_keeps | (intro _ _ _) | (intro _ _) | (intro _) | split | with_reducible apply Keeps.upd)

theorem putCtl_keeps {z : State} (s : State) (i b k ctl : Nat) (hz : Keeps z s) :
    Keeps z (putCtl s i b k ctl) := by
  unfold putCtl; try dsimp only
  repeat' (first | with_reducible assumption | with_reducible apply writeBucket_keeps | (intro _ _ _) | (intro _ _) | (intro _) | split | with_reducible apply Keeps.upd)

theorem refreshHit_keeps {z : State} (s : State) (i b k : Nat) (hz : Keeps z s) :
    Keeps z (refreshHit s i b k) := by
  unfold refreshHit; try dsimp only
  repeat' (first | with_reducible assumption | (intro _ _ _) | (intro _ _) | (intro _) | split | with_reducible apply Keeps.upd)

theorem evictLine_keeps {z : State} (s : State) (i key : Nat) (hz : Keeps z s) :
    Keeps z (evictLine s i key) := by
  unfold evictLine; try dsimp only
  repeat' (first | with_reducible assumption | with_reducible apply memWr_keeps | (intro _ _ _) | (intro _ _) | (intro _) | split | with_reducible apply Keeps.upd)

theorem fetchLine_keeps {z : State} (s : State) (i b : Nat) (hz : Keeps z s) :
    Keeps z (fetchLine s i b) := by
  unfold fetchLine; try dsimp only
  repeat' (first | with_reducible assumption | with_reducible apply freeBits_keeps | with_reducible apply evictLine_keeps | with_reducible apply memTouch_keeps | with_reducible refine Keeps.of_snd (by with_reducible assumption) ?_ | (dsimp only) | (intro _ _ _) | (intro _ _) | (intro _) | split | with_reducible apply Keeps.upd)

theorem flushTable_keeps {z : State} (s : State) (i : Nat) (hz : Keeps z s) :
    Keeps z (flushTable s i) := by
  unfold flushTable; try dsimp only
  repeat' (first | with_reducible assumption | with_reducible apply evictLine_keeps | with_reducible apply Keeps.foldl | with_reducible apply Keeps.foldl_snd | with_reducible apply Keeps.foldl_fst | with_reducible apply Keeps.foldl_snd_snd | (intro _ _ _) | (intro _ _) | (intro _) | split | with_reducible apply Keeps.upd)


theorem putDigest_keeps {z : State} (s : State) (i b d : Nat) (hz : Keeps z s) :
    Keeps z (putDigest s i b d) := by
  unfold putDigest; try dsimp only
  repeat' (first | with_reducible assumption | with_reducible apply memWr_keeps | (intro _ _ _) | (intro _ _) | (intro _) | split | with_reducible apply Keeps.upd)

theorem bumpEntries_keeps {z : State} (s : State) (i : Nat) (up : Bool) (hz : Keeps z s) :
    Keeps z (bumpEntries s i up) := by
  unfold bumpEntries; try dsimp only
  repeat' (first | with_reducible assumption | (intro _ _ _) | (intro _ _) | (intro _) | split | with_reducible apply Keeps.upd)

theorem sendNote_keeps {z : State} (s : State) (i : Nat) (body : Bytes) (discard : Bool) (hz : Keeps z s) :
    Keeps z (sendNote s i body discard).2 := by
  unfold sendNote; try dsimp only
  repeat' (first | with_reducible assumption | with_reducible apply queueSend_keeps | with_reducible refine Keeps.of_snd (by with_reducible assumption) ?_ | (dsimp only) | (intro _ _ _) | (intro _ _) | (intro _) | split | with_reducible apply Keeps.upd)

theorem raiseNote_keeps {z : State} (s : State) (i : Nat) (body : Bytes) (hz : Keeps z s) :
    Keeps z (raiseNote s i body) := by
  unfold raiseNote; try dsimp only
  repeat' (first | with_reducible assumption | with_reducible apply sendNote_keeps | with_reducible refine Keeps.of_snd (by with_reducible assumption) ?_ | (dsimp only) | (intro _ _ _) | (intro _ _) | (intro _) | split | with_reducible apply Keeps.upd)

theorem drainNotes_keeps {z : State} (s : State) (i fuel : Nat) (hz : Keeps z s) :
    Keeps z (drainNotes s i fuel) := by
  induction fuel generalizing s i with
  | zero =>
    unfold drainNotes; try dsimp only
    repeat' (first | (cases ‹_ + 1 = _ + 1›) | with_reducible assumption | with_reducible apply sendNote_keeps | with_reducible apply ih | with_reducible refine Keeps.of_snd (by with_reducible assumption) ?_ | (dsimp only) | (intro _ _ _) | (intro _ _) | (intro _) | split | with_reducible apply Keeps.upd)
  | succ n ih =>
    unfold drainNotes; try dsimp only
    repeat' (first | (cases ‹_ + 1 = _ + 1›) | with_reducible assumption | with_reducible apply sendNote_keeps | with_reducible apply ih | with_reducible refine Keeps.of_snd (by with_reducible assumption) ?_ | (dsimp only) | (intro _ _ _) | (intro _ _) | (intro _) | split | with_reducible apply Keeps.upd)

theorem removeEntry_keeps {z : State} (s : State) (i b k type : Nat) (hz : Keeps z s) :
    Keeps z (removeEntry s i b k type).1 := by
  unfold removeEntry; try dsimp only
  repeat' (first | with_reducible assumption | with_reducible apply putCtl_keeps | with_reducible apply bumpEntries_keeps | with_reducible apply putDigest_keeps | with_reducible apply raiseNote_keeps | (dsimp only) | (intro _ _ _) | (intro _ _) | (intro _) | split | with_reducible apply Keeps.upd)

theorem reachBucket_keeps {z : State} (s : State) (i b : Nat) (hz : Keeps z s) :
    Keeps z (reachBucket s i b) := by
  unfold reachBucket; try dsimp only
  repeat' (first | with_reducible assumption | with_reducible apply fetchLine_keeps | with_reducible apply memTouch_keeps | with_reducible apply raiseNote_keeps | with_reducible apply bump_keeps | (intro _ _ _) | (intro _ _) | (intro _) | split | with_reducible apply Keeps.upd)

theorem refetchLine_keeps {z : State} (s : State) (i b : Nat) (hz : Keeps z s) :
    Keeps z (refetchLine s i b) := by
  unfold refetchLine; try dsimp only
  repeat' (first | with_reducible assumption | with_reducible apply reachBucket_keeps | with_reducible apply refreshHit_keeps | with_reducible apply Keeps.foldl | with_reducible apply Keeps.foldl_snd | with_reducible apply Keeps.foldl_fst | with_reducible apply Keeps.foldl_snd_snd | (intro _ _ _) | (intro _ _) | (intro _) | split | with_reducible apply Keeps.upd)

theorem evictOrd_keeps {z : State} (s : State) (key : Nat) (hz : Keeps z s) :
    Keeps z (evictOrd s key) := by
  unfold evictOrd; try dsimp only
  repeat' (first | with_reducible assumption | with_reducible apply memWr_keeps | (intro _ _ _) | (intro _ _) | (intro _) | split | with_reducible apply Keeps.upd)

theorem flushOrds_keeps {z : State} (s : State) (i : Nat) (hz : Keeps z s) :
    Keeps z (flushOrds s i) := by
  unfold flushOrds; try dsimp only
  repeat' (first | with_reducible assumption | with_reducible apply evictOrd_keeps | with_reducible apply Keeps.foldl | with_reducible apply Keeps.foldl_snd | with_reducible apply Keeps.foldl_fst | with_reducible apply Keeps.foldl_snd_snd | (intro _ _ _) | (intro _ _) | (intro _) | split | with_reducible apply Keeps.upd)

theorem putOrd_keeps {z : State} (s : State) (key w : Nat) (hz : Keeps z s) :
    Keeps z (putOrd s key w) := by
  unfold putOrd; try dsimp only
  repeat' (first | with_reducible assumption | with_reducible apply freeBits_keeps | with_reducible apply evictOrd_keeps | with_reducible refine Keeps.of_snd (by with_reducible assumption) ?_ | (dsimp only) | (intro _ _ _) | (intro _ _) | (intro _) | split | with_reducible apply Keeps.upd)

theorem ordinalUpdate_keeps {z : State} (s : State) (i b k gen : Nat) (hz : Keeps z s) :
    Keeps z (ordinalUpdate s i b k gen).2 := by
  unfold ordinalUpdate; try dsimp only
  repeat' (first | with_reducible assumption | with_reducible apply putOrd_keeps | with_reducible apply memTouch_keeps | with_reducible apply memWr_keeps | with_reducible apply bumpUe_keeps | (dsimp only) | (intro _ _ _) | (intro _ _) | (intro _) | split | with_reducible apply Keeps.upd)

theorem learnMiss_keeps {z : State} (s : State) (i : Nat) (p : Packet) (r : ParseRec) (hz : Keeps z s) :
    Keeps z (learnMiss s i p r).2 := by
  unfold learnMiss; try dsimp only
  repeat' (first | with_reducible assumption | with_reducible apply bump_keeps | with_reducible apply sendNote_keeps | with_reducible refine Keeps.of_snd (by with_reducible assumption) ?_ | (dsimp only) | (intro _ _ _) | (intro _ _) | (intro _) | split | with_reducible apply Keeps.upd)

theorem filterExpiry_keeps {z : State} (s : State) (i : Nat) (hz : Keeps z s) :
    Keeps z (filterExpiry s i) := by
  unfold filterExpiry; try dsimp only
  repeat' (first | with_reducible assumption | (intro _ _ _) | (intro _ _) | (intro _) | split | with_reducible apply Keeps.upd)

theorem lookupHit_keeps {z : State} (s : State) (i b k : Nat) (hz : Keeps z s) :
    Keeps z (lookupHit s i b k).2 := by
  unfold lookupHit; try dsimp only
  repeat' (first | with_reducible assumption | with_reducible apply refreshHit_keeps | with_reducible apply ordinalUpdate_keeps | with_reducible apply bump_keeps | with_reducible refine Keeps.of_snd (by with_reducible assumption) ?_ | (dsimp only) | (intro _ _ _) | (intro _ _) | (intro _) | split | with_reducible apply Keeps.upd)

theorem issuePrefetch_keeps {z : State} (s : State) (i : Nat) (x : Prefetch) (hz : Keeps z s) :
    Keeps z (issuePrefetch s i x) := by
  unfold issuePrefetch; try dsimp only
  repeat' (first | with_reducible assumption | with_reducible apply bump_keeps | (intro _ _ _) | (intro _ _) | (intro _) | split | with_reducible apply Keeps.upd)

theorem packetPrefetch_keeps {z : State} (s : State) (i : Nat) (r : ParseRec) (a : FlowAns) (learned : Bool) (hz : Keeps z s) :
    Keeps z (packetPrefetch s i r a learned) := by
  unfold packetPrefetch; try dsimp only
  repeat' (first | with_reducible assumption | with_reducible apply issuePrefetch_keeps | (intro _ _ _) | (intro _ _) | (intro _) | split | with_reducible apply Keeps.upd)

theorem flowLookupAnswer_keeps {z : State} (s : State) (k : Nat) (bad1 bad2 : Bool) (hz : Keeps z s) :
    Keeps z (flowLookupAnswer s k bad1 bad2) := by
  unfold flowLookupAnswer; try dsimp only
  repeat' (first | with_reducible assumption | with_reducible apply refetchLine_keeps | with_reducible apply reachBucket_keeps | with_reducible apply lookupHit_keeps | with_reducible apply packetPrefetch_keeps | with_reducible apply pktSet_keeps | with_reducible apply learnMiss_keeps | with_reducible apply bump_keeps | with_reducible refine Keeps.of_snd (by with_reducible assumption) ?_ | (dsimp only) | (intro _ _ _) | (intro _ _) | (intro _) | split | with_reducible apply Keeps.upd)

theorem dmaAnswer_keeps {z : State} (s : State) (core code token : Nat) (data : Bytes) (hz : Keeps z s) :
    Keeps z (dmaAnswer s core code token data) := by
  unfold dmaAnswer; try dsimp only
  repeat' (first | with_reducible assumption | (intro _ _ _) | (intro _ _) | (intro _) | split | with_reducible apply Keeps.upd)

theorem putLockBits_keeps {z : State} (s : State) (i b : Nat) (tok : Option Nat) (hz : Keeps z s) :
    Keeps z (putLockBits s i b tok) := by
  unfold putLockBits; try dsimp only
  repeat' (first | with_reducible assumption | with_reducible apply putCtl_keeps | (intro _ _ _) | (intro _ _) | (intro _) | split | with_reducible apply Keeps.upd)

theorem setLock_keeps {z : State} (s : State) (i b : Nat) (l : Option BucketLock) (hz : Keeps z s) :
    Keeps z (setLock s i b l) := by
  unfold setLock; try dsimp only
  repeat' (first | with_reducible assumption | with_reducible apply putLockBits_keeps | (intro _ _ _) | (intro _ _) | (intro _) | split | with_reducible apply Keeps.upd)

theorem lockRead_keeps {z : State} (s0 : State) (core i b1 b2 : Nat) (hz : Keeps z s0) :
    Keeps z (lockRead s0 core i b1 b2) := by
  unfold lockRead; try dsimp only
  repeat' (first | with_reducible assumption | with_reducible apply reachBucket_keeps | with_reducible apply dmaAnswer_keeps | with_reducible apply setLock_keeps | (intro _ _ _) | (intro _ _) | (intro _) | split | with_reducible apply Keeps.upd)

theorem dmaRead_keeps {z : State} (s : State) (core i b : Nat) (hz : Keeps z s) :
    Keeps z (dmaRead s core i b) := by
  unfold dmaRead; try dsimp only
  repeat' (first | with_reducible assumption | with_reducible apply reachBucket_keeps | with_reducible apply dmaAnswer_keeps | (intro _ _ _) | (intro _ _) | (intro _) | split | with_reducible apply Keeps.upd)

theorem writeSlot_keeps {z : State} (s0 : State) (core i b k tok : Nat) (lowBytes highBytes : Bytes) (hz : Keeps z s0) :
    Keeps z (writeSlot s0 core i b k tok lowBytes highBytes) := by
  unfold writeSlot; try dsimp only
  repeat' (first | with_reducible assumption | with_reducible apply reachBucket_keeps | with_reducible apply dmaAnswer_keeps | with_reducible apply writeBucket_keeps | (intro _ _ _) | (intro _ _) | (intro _) | split | with_reducible apply Keeps.upd)

theorem publish_keeps {z : State} (s0 : State) (core i b k tok : Nat) (hz : Keeps z s0) :
    Keeps z (publish s0 core i b k tok) := by
  unfold publish; try dsimp only
  repeat' (first | with_reducible assumption | with_reducible apply reachBucket_keeps | with_reducible apply dmaAnswer_keeps | with_reducible apply bumpEntries_keeps | with_reducible apply putCtl_keeps | (intro _ _ _) | (intro _ _) | (intro _) | split | with_reducible apply Keeps.upd)

theorem invalidate_keeps {z : State} (s0 : State) (core i b k tok : Nat) (hz : Keeps z s0) :
    Keeps z (invalidate s0 core i b k tok) := by
  unfold invalidate; try dsimp only
  repeat' (first | with_reducible assumption | with_reducible apply reachBucket_keeps | with_reducible apply dmaAnswer_keeps | with_reducible apply bumpEntries_keeps | with_reducible apply putCtl_keeps | (intro _ _ _) | (intro _ _) | (intro _) | split | with_reducible apply Keeps.upd)

theorem mendBucket_keeps {z : State} (s : State) (i b : Nat) (hz : Keeps z s) :
    Keeps z (mendBucket s i b) := by
  unfold mendBucket; try dsimp only
  repeat' (first | with_reducible assumption | with_reducible apply Keeps.upd_clear | with_reducible apply Keeps.upd_set | (intro _ _ _) | (intro _ _) | (intro _) | split | with_reducible apply Keeps.upd)

theorem unlock_keeps {z : State} (s : State) (core i b1 b2 tok d1 d2 : Nat) (hz : Keeps z s) :
    Keeps z (unlock s core i b1 b2 tok d1 d2) := by
  unfold unlock; try dsimp only
  repeat' (first | with_reducible assumption | with_reducible apply dmaAnswer_keeps | with_reducible apply putDigest_keeps | with_reducible apply setLock_keeps | with_reducible apply mendBucket_keeps | (intro _ _ _) | (intro _ _) | (intro _) | split | with_reducible apply Keeps.upd)

theorem leaseExpiry_keeps {z : State} (s : State) (i : Nat) (hz : Keeps z s) :
    Keeps z (leaseExpiry s i) := by
  unfold leaseExpiry; try dsimp only
  repeat' (first | with_reducible assumption | with_reducible apply setLock_keeps | with_reducible apply bumpBy_keeps | with_reducible apply Keeps.foldl | with_reducible apply Keeps.foldl_snd | with_reducible apply Keeps.foldl_fst | with_reducible apply Keeps.foldl_snd_snd | (intro _ _ _) | (intro _ _) | (intro _) | split | with_reducible apply Keeps.upd)

theorem agingVisit_keeps {z : State} (s : State) (i b : Nat) (hz : Keeps z s) :
    Keeps z (agingVisit s i b) := by
  unfold agingVisit; try dsimp only
  repeat' (first | with_reducible assumption | with_reducible apply reachBucket_keeps | with_reducible apply bump_keeps | with_reducible apply removeEntry_keeps | with_reducible refine Keeps.of_fst (by with_reducible assumption) ?_ | with_reducible apply Keeps.foldl | with_reducible apply Keeps.foldl_snd | with_reducible apply Keeps.foldl_fst | with_reducible apply Keeps.foldl_snd_snd | (dsimp only) | (intro _ _ _) | (intro _ _) | (intro _) | split | with_reducible apply Keeps.upd)

theorem shadowCompare_keeps {z : State} (s : State) (i b : Nat) (hz : Keeps z s) :
    Keeps z (shadowCompare s i b) := by
  unfold shadowCompare; try dsimp only
  repeat' (first | with_reducible assumption | with_reducible apply memTouch_keeps | with_reducible apply reachBucket_keeps | with_reducible apply raiseNote_keeps | with_reducible apply bump_keeps | (intro _ _ _) | (intro _ _) | (intro _) | split | with_reducible apply Keeps.upd)

theorem reachKey_keeps {z : State} (s : State) (i : Nat) (c : Nat × Nat) (hz : Keeps z s) :
    Keeps z (reachKey s i c) := by
  unfold reachKey; try dsimp only
  repeat' (first | with_reducible assumption | with_reducible apply reachBucket_keeps | (intro _ _ _) | (intro _ _) | (intro _) | split | with_reducible apply Keeps.upd)

theorem flowRead_keeps {z : State} (s : State) (b : Bytes) (hz : Keeps z s) :
    Keeps z (flowRead s b).2 := by
  unfold flowRead; try dsimp only
  repeat' (first | with_reducible assumption | with_reducible apply reachBucket_keeps | with_reducible apply reachKey_keeps | (dsimp only) | (intro _ _ _) | (intro _ _) | (intro _) | split | with_reducible apply Keeps.upd)

theorem flowDelete_keeps {z : State} (s : State) (b : Bytes) (hz : Keeps z s) :
    Keeps z (flowDelete s b).2 := by
  unfold flowDelete; try dsimp only
  repeat' (first | with_reducible assumption | with_reducible apply reachKey_keeps | with_reducible apply removeEntry_keeps | with_reducible refine Keeps.of_fst (by with_reducible assumption) ?_ | (dsimp only) | (intro _ _ _) | (intro _ _) | (intro _) | split | with_reducible apply Keeps.upd)

end Sys2Proof.Machine
end

