-- ==== Sys2Proof/Laws/KeepsGrove.lean ====
section
/-!
SUPPORT. The operations of Grove keep the queue and the canonical form of the tables.
-/

namespace Sys2Proof.Machine

theorem groveLoad_keeps {z : State} (s : State) (slot : Nat) (b : Bytes) (image sect : Nat) (hz : Keeps z s) :
    Keeps z (groveLoad s slot b image sect).2 := by
  unfold groveLoad; try dsimp only
  repeat' (first | with_reducible assumption | with_reducible apply Keeps.foldl | with_reducible apply Keeps.foldl_snd | with_reducible apply Keeps.foldl_fst | with_reducible apply Keeps.foldl_snd_snd | (dsimp only) | (intro _ _ _) | (intro _ _) | (intro _) | split | with_reducible apply Keeps.upd)

theorem groveFree_keeps {z : State} (s : State) (slot : Nat) (hz : Keeps z s) :
    Keeps z (groveFree s slot) := by
  unfold groveFree; try dsimp only
  repeat' (first | with_reducible assumption | (intro _ _ _) | (intro _ _) | (intro _) | split | with_reducible apply Keeps.upd)

theorem writeLeaf_keeps {z : State} (s : State) (slot part off val : Nat) (hz : Keeps z s) :
    Keeps z (writeLeaf s slot part off val) := by
  unfold writeLeaf; try dsimp only
  repeat' (first | with_reducible assumption | (intro _ _ _) | (intro _ _) | (intro _) | split | with_reducible apply Keeps.upd)

theorem writeWord_keeps {z : State} (s : State) (u off : Nat) (v : Nat) (hz : Keeps z s) :
    Keeps z (writeWord s u off v) := by
  unfold writeWord; try dsimp only
  repeat' (first | with_reducible assumption | (intro _ _ _) | (intro _ _) | (intro _) | split | with_reducible apply Keeps.upd)

theorem nodeError_keeps {z : State} (s : State) (u unit : Nat) (hz : Keeps z s) :
    Keeps z (nodeError s u unit) := by
  unfold nodeError; try dsimp only
  repeat' (first | with_reducible assumption | with_reducible apply crownEvent_keeps | with_reducible apply bumpUe_keeps | (intro _ _ _) | (intro _ _) | (intro _) | split | with_reducible apply Keeps.upd)

theorem wordErrorArises_keeps {z : State} (s : State) (u unit : Nat) (uncorrectable : Bool) (hz : Keeps z s) :
    Keeps z (wordErrorArises s u unit uncorrectable) := by
  unfold wordErrorArises; try dsimp only
  repeat' (first | with_reducible assumption | with_reducible apply bump_keeps | (intro _ _ _) | (intro _ _) | (intro _) | split | with_reducible apply Keeps.upd)

theorem groveScrub_keeps {z : State} (s : State) (ce ue : List Nat) (hz : Keeps z s) : Keeps z (groveScrub s ce ue) := by
  have word : ∀ (b : Bool) (l : List Nat) (t : State), Keeps z t →
      Keeps z (l.foldl (fun t w => wordErrorArises t (w / 2 ^ 18) (w % 2 ^ 18) b) t) :=
    fun b l t ht => Keeps.foldl ht (fun t w h => wordErrorArises_keeps t _ _ b h)
  have node : ∀ (l : List Nat) (t : State), Keeps z t → Keeps z (l.foldl (fun t w => nodeError t (w / 2 ^ 18) (w % 2 ^ 18)) t) :=
    fun l t ht => Keeps.foldl ht (fun t w h => nodeError_keeps t _ _ h)
  unfold groveScrub
  generalize e : scrubPass s 1 (mkReg .grvScrub 0 0) (fun v => msTicks (bitsN v 0 16)) = r
  have h : Keeps z r.2 := e ▸ scrubPass_keeps s 1 _ _ hz
  obtain ⟨o, s1⟩ := r
  cases o with
  | none => exact h
  | some v =>
    dsimp only
    split
    · exact h
    · exact node _ _ (word true ue _ (word false ce _ h))

end Sys2Proof.Machine
end

