-- ==== Sys2Proof/Laws/KeepsTiers.lean ====
section
/-!
SUPPORT. The operations of Tiers keep the queue and the canonical form of the tables.
-/

namespace Sys2Proof.Machine

theorem holdCreate_keeps {z : State} (s : State) (k : Nat) (h : HoldEntry) (hz : Keeps z s) :
    Keeps z (holdCreate s k h) := by
  unfold holdCreate; try dsimp only
  repeat' (first | with_reducible assumption | (intro _ _ _) | (intro _ _) | (intro _) | split | with_reducible apply Keeps.upd)

theorem holdRelease_keeps {z : State} (s : State) (k : Nat) (hz : Keeps z s) :
    Keeps z (holdRelease s k) := by
  unfold holdRelease; try dsimp only
  repeat' (first | with_reducible assumption | (intro _ _ _) | (intro _ _) | (intro _) | split | with_reducible apply Keeps.upd)

theorem holdAdvance_keeps {z : State} (s : State) (ns : Nat) (hz : Keeps z s) :
    Keeps z (holdAdvance s ns) := by
  unfold holdAdvance; try dsimp only
  repeat' (first | with_reducible assumption | (intro _ _ _) | (intro _ _) | (intro _) | split | with_reducible apply Keeps.upd)

theorem releasePacket_keeps {z : State} (s : State) (k : Nat) (f : Packet → Packet) (hz : Keeps z s) :
    Keeps z (releasePacket s k f) := by
  unfold releasePacket; try dsimp only
  repeat' (first | with_reducible assumption | with_reducible apply pktSet_keeps | (intro _ _ _) | (intro _ _) | (intro _) | split | with_reducible apply Keeps.upd)

theorem deadlineTest_keeps {z : State} (s : State) (k : Nat) (hz : Keeps z s) :
    Keeps z (deadlineTest s k) := by
  unfold deadlineTest; try dsimp only
  repeat' (first | with_reducible assumption | with_reducible apply releasePacket_keeps | with_reducible apply bump_keeps | with_reducible apply holdRelease_keeps | (intro _ _ _) | (intro _ _) | (intro _) | split | with_reducible apply Keeps.upd)

theorem tendArm_keeps {z : State} (s : State) (hz : Keeps z s) :
    Keeps z (tendArm s) := by
  unfold tendArm; try dsimp only
  repeat' (first | with_reducible assumption | with_reducible apply bump_keeps | (intro _ _ _) | (intro _ _) | (intro _) | split | with_reducible apply Keeps.upd)

theorem tendReady_keeps {z : State} (s : State) (hz : Keeps z s) :
    Keeps z (tendReady s) := by
  unfold tendReady; try dsimp only
  repeat' (first | with_reducible assumption | with_reducible apply regPutF_keeps | (intro _ _ _) | (intro _ _) | (intro _) | split | with_reducible apply Keeps.upd)

theorem tendBoundary_keeps {z : State} (s : State) (hz : Keeps z s) :
    Keeps z (tendBoundary s) := by
  unfold tendBoundary; try dsimp only
  repeat' (first | with_reducible assumption | with_reducible apply modesMod_keeps | with_reducible apply regPutF_keeps | (intro _ _ _) | (intro _ _) | (intro _) | split | with_reducible apply Keeps.upd)

theorem watermark_keeps {z : State} (s : State) (i : Nat) (hz : Keeps z s) :
    Keeps z (watermark s i) := by
  unfold watermark; try dsimp only
  repeat' (first | with_reducible assumption | with_reducible apply regPut_keeps | with_reducible apply queueSend_keeps | with_reducible apply bump_keeps | with_reducible refine Keeps.of_snd (by with_reducible assumption) ?_ | (dsimp only) | (intro _ _ _) | (intro _ _) | (intro _) | split | with_reducible apply Keeps.upd)

theorem tier1Record_keeps {z : State} (s : State) (p : Packet) (hz : Keeps z s) :
    Keeps z (tier1Record s p) := by
  unfold tier1Record; try dsimp only
  repeat' (first | with_reducible assumption | with_reducible apply pushRecord_keeps | (intro _ _ _) | (intro _ _) | (intro _) | split | with_reducible apply Keeps.upd)

theorem nextUse_keeps {z : State} (s : State) (hz : Keeps z s) :
    Keeps z (nextUse s).2 := by
  unfold nextUse; try dsimp only
  repeat' (first | with_reducible assumption | (dsimp only) | (intro _ _ _) | (intro _ _) | (intro _) | split | with_reducible apply Keeps.upd)

theorem frameSet_keeps {z : State} (s : State) (n : Nat) (f : Option CtxFrame) (hz : Keeps z s) :
    Keeps z (frameSet s n f) := by
  unfold frameSet; try dsimp only
  repeat' (first | with_reducible assumption | (intro _ _ _) | (intro _ _) | (intro _) | split | with_reducible apply Keeps.upd)

theorem reachTag_keeps {z : State} (s : State) (t : FrameTag) (hz : Keeps z s) :
    Keeps z (reachTag s t) := by
  unfold reachTag; try dsimp only
  repeat' (first | with_reducible assumption | with_reducible apply reachBucket_keeps | (intro _ _ _) | (intro _ _) | (intro _) | split | with_reducible apply Keeps.upd)

theorem copyPage_keeps {z : State} (s : State) (dst src : Nat) (hz : Keeps z s) :
    Keeps z (copyPage s dst src) := by
  unfold copyPage; try dsimp only
  repeat' (first | with_reducible assumption | with_reducible apply memTouch_keeps | with_reducible apply memWr_keeps | with_reducible apply memTaint_keeps | (intro _ _ _) | (intro _ _) | (intro _) | split | with_reducible apply Keeps.upd)

theorem evictFrame_keeps {z : State} (s : State) (n : Nat) (hz : Keeps z s) :
    Keeps z (evictFrame s n) := by
  unfold evictFrame; try dsimp only
  repeat' (first | with_reducible assumption | with_reducible apply reachTag_keeps | with_reducible apply frameSet_keeps | with_reducible apply copyPage_keeps | (intro _ _ _) | (intro _ _) | (intro _) | split | with_reducible apply Keeps.upd)

theorem fillFrame_keeps {z : State} {s : State} {t : FrameTag} {addr : Nat} (hz : Keeps z s) {r : Nat × State}
    (e : fillFrame s t addr = some r) : Keeps z r.2 := by
  unfold fillFrame at e
  split at e
  · cases e
  · cases e
    exact frameSet_keeps _ _ _ (nextUse_keeps _ (copyPage_keeps _ _ _ (evictFrame_keeps _ _ hz)))

theorem prefetchLand_keeps {z : State} (s : State) (i : Nat) (hz : Keeps z s) :
    Keeps z (prefetchLand s i) := by
  unfold prefetchLand; try dsimp only
  repeat' (first | with_reducible assumption | with_reducible refine fillFrame_keeps ?_ (by with_reducible assumption) | (intro _ _ _) | (intro _ _) | (intro _) | split | with_reducible apply Keeps.upd)

theorem pinFrame_keeps {z : State} (s : State) (n : Nat) (hz : Keeps z s) :
    Keeps z (pinFrame s n) := by
  unfold pinFrame; try dsimp only
  repeat' (first | with_reducible assumption | with_reducible apply nextUse_keeps | with_reducible refine Keeps.of_snd (by with_reducible assumption) ?_ | (dsimp only) | (intro _ _ _) | (intro _ _) | (intro _) | split | with_reducible apply Keeps.upd)

theorem unpinFrame_keeps {z : State} (s : State) (n : Nat) (stateless : Bool) (hz : Keeps z s) :
    Keeps z (unpinFrame s n stateless) := by
  unfold unpinFrame; try dsimp only
  repeat' (first | with_reducible assumption | (intro _ _ _) | (intro _ _) | (intro _) | split | with_reducible apply Keeps.upd)

theorem popToken_keeps {z : State} (s : State) (i : Nat) (hz : Keeps z s) :
    Keeps z (popToken s i) := by
  unfold popToken; try dsimp only
  repeat' (first | with_reducible assumption | (intro _ _ _) | (intro _ _) | (intro _) | split | with_reducible apply Keeps.upd)

theorem dropToken_keeps {z : State} (s : State) (i q : Nat) (r : TokenReq) (hz : Keeps z s) :
    Keeps z (dropToken s i q r) := by
  unfold dropToken; try dsimp only
  repeat' (first | with_reducible assumption | with_reducible apply bump_keeps | with_reducible apply popToken_keeps | with_reducible apply releasePacket_keeps | with_reducible apply holdRelease_keeps | (intro _ _ _) | (intro _ _) | (intro _) | split | with_reducible apply Keeps.upd)

theorem copyFrame_keeps {z : State} {s : State} {tag : FrameTag} {page : Nat} (hz : Keeps z s) {r : Nat × State}
    (e : copyFrame s tag page = some r) : Keeps z r.2 := by
  unfold copyFrame at e
  split at e
  · exact fillFrame_keeps hz e
  · extract_lets s1 stale at e
    clear_value stale
    have h1 : Keeps z s1 := reachTag_keeps _ _ hz
    split at e
    · exact fillFrame_keeps (evictFrame_keeps _ _ h1) e
    · cases e
      exact h1

theorem contextFrame_keeps {z : State} {s : State} {m : Tier2Model} {p : Packet} (hz : Keeps z s) {n : Nat} {tz : State} {b : Bool}
    (e : contextFrame s m p = (some (n, tz), b)) : Keeps z tz := by
  unfold contextFrame at e
  dsimp only at e
  exact copyFrame_keeps hz (congrArg Prod.fst e)

theorem tokenDispatch_keeps {z : State} (s : State) (i : Nat) (hz : Keeps z s) :
    Keeps z (tokenDispatch s i) := by
  unfold tokenDispatch; try dsimp only
  repeat' (first | with_reducible assumption | with_reducible apply dropToken_keeps | with_reducible apply bump_keeps | with_reducible apply queueOpen_keeps | with_reducible refine contextFrame_keeps ?_ (by with_reducible assumption) | with_reducible apply queueSend_keeps | with_reducible apply popToken_keeps | with_reducible apply pinFrame_keeps | with_reducible apply pktSet_keeps | with_reducible refine Keeps.of_snd (by with_reducible assumption) ?_ | (dsimp only) | (intro _ _ _) | (intro _ _) | (intro _) | split | with_reducible apply Keeps.upd)

theorem verdictMark_keeps {z : State} (s : State) (tq qpos : Nat) (hz : Keeps z s) :
    Keeps z (verdictMark s tq qpos) := by
  unfold verdictMark; try dsimp only
  repeat' (first | with_reducible assumption | (intro _ _ _) | (intro _ _) | (intro _) | split | with_reducible apply Keeps.upd)

theorem escalateFlow_keeps {z : State} (s : State) (e : Escalation) (hz : Keeps z s) :
    Keeps z (escalateFlow s e) := by
  unfold escalateFlow; try dsimp only
  repeat' (first | with_reducible assumption | (intro _ _ _) | (intro _ _) | (intro _) | split | with_reducible apply Keeps.upd)

theorem settleVerdict_keeps {z : State} (s : State) (i key : Nat) (taken late : Bool) (f : Packet → Packet) (hz : Keeps z s) :
    Keeps z (settleVerdict s i key taken late f) := by
  unfold settleVerdict; try dsimp only
  repeat' (first | with_reducible assumption | with_reducible apply releasePacket_keeps | with_reducible apply holdRelease_keeps | with_reducible apply bump_keeps | (intro _ _ _) | (intro _ _) | (intro _) | split | with_reducible apply Keeps.upd)

theorem takeVerdict_keeps {z : State} (s : State) (q : Nat) (w0 w1 w2 : Nat) (hz : Keeps z s) :
    Keeps z (takeVerdict s q w0 w1 w2) := by
  unfold takeVerdict
  extract_lets i lport bucket slot gen qpos tflags stamp hold tag cls score model vf tq s0 s1 s2 key entry taken late s3 flags s4
  have h0 : Keeps z s0 := by
    simp only [s0]
    split
    · exact bump_keeps _ _ _ _ hz
    · exact hz
  have h1 : Keeps z s1 := by
    simp only [s1]
    split
    · exact bump_keeps _ _ _ _ h0
    · exact h0
  clear_value s1
  split
  · exact h1
  · have h2 : Keeps z s2 := by
      simp only [s2]
      split
      · exact unpinFrame_keeps _ _ _ (verdictMark_keeps _ _ _ h1)
      · exact verdictMark_keeps _ _ _ h1
    have h3 : Keeps z s3 := by
      simp only [s3]
      exact settleVerdict_keeps _ _ _ _ _ _ h2
    have h4 : Keeps z s4 := by
      simp only [s4]
      split
      · exact pushRecord_keeps _ _ _ h3
      · exact h3
    split
    · exact escalateFlow_keeps _ _ h4
    · exact h4

theorem verdictRead_keeps {z : State} (s : State) (q : Nat) (hz : Keeps z s) :
    Keeps z (verdictRead s q) := by
  unfold verdictRead; try dsimp only
  repeat' (first | with_reducible assumption | with_reducible apply queueRead_keeps | with_reducible apply queueRelease_keeps | with_reducible apply bump_keeps | with_reducible apply takeVerdict_keeps | with_reducible refine Keeps.of_snd (by with_reducible assumption) ?_ | (dsimp only) | (intro _ _ _) | (intro _ _) | (intro _) | split | with_reducible apply Keeps.upd)

theorem gateQueues_keeps {z : State} (s : State) (i x : Nat) (hz : Keeps z s) :
    Keeps z (gateQueues s i x) := by
  unfold gateQueues; try dsimp only
  repeat' (first | with_reducible assumption | with_reducible apply Keeps.foldl | with_reducible apply Keeps.foldl_snd | with_reducible apply Keeps.foldl_fst | with_reducible apply Keeps.foldl_snd_snd | (intro _ _ _) | (intro _ _) | (intro _) | split | with_reducible apply Keeps.upd)

theorem gateRelease_keeps {z : State} (s : State) (i j : Nat) (hz : Keeps z s) :
    Keeps z (gateRelease s i j) := by
  unfold gateRelease; try dsimp only
  repeat' (first | with_reducible assumption | (intro _ _ _) | (intro _ _) | (intro _) | split | with_reducible apply Keeps.upd)

theorem tier3Result_keeps {z : State} (s : State) (i bucket slot cls score : Nat) (hz : Keeps z s) :
    Keeps z (tier3Result s i bucket slot cls score) := by
  unfold tier3Result; try dsimp only
  repeat' (first | with_reducible assumption | with_reducible apply pushRecord_keeps | (intro _ _ _) | (intro _ _) | (intro _) | split | with_reducible apply Keeps.upd)

end Sys2Proof.Machine
end

