-- ==== Sys2Proof/Laws/KeepsPacketPath.lean ====
section
/-!
SUPPORT. The operations of PacketPath keep the queue and the canonical form of the tables.
-/

namespace Sys2Proof.Machine
theorem countParse_keeps {z : State} (s : State) (i stop : Nat) (hz : Keeps z s) :
    Keeps z (countParse s i stop) := by
  unfold countParse; try dsimp only
  repeat' (first | with_reducible assumption | with_reducible apply bump_keeps | (intro _ _ _) | (intro _ _) | (intro _) | split | with_reducible apply Keeps.upd)

theorem parseAccept_keeps {z : State} (s : State) (i : Nat) (hz : Keeps z s) :
    Keeps z (parseAccept s i) := by
  unfold parseAccept; try dsimp only
  repeat' (first | with_reducible assumption | with_reducible apply pktSet_keeps | with_reducible apply obsAdd_keeps | with_reducible apply countParse_keeps | (intro _ _ _) | (intro _ _) | (intro _) | split | with_reducible apply Keeps.upd)

theorem flowKeyComplete_keeps {z : State} (s : State) (i : Nat) (hz : Keeps z s) :
    Keeps z (flowKeyComplete s i) := by
  unfold flowKeyComplete; try dsimp only
  repeat' (first | with_reducible assumption | with_reducible apply pktSet_keeps | with_reducible apply packetPrefetch_keeps | (intro _ _ _) | (intro _ _) | (intro _) | split | with_reducible apply Keeps.upd)

theorem runFromT2_keeps {z : State} (s : State) (k : Nat) (p : Packet) (hz : Keeps z s) :
    Keeps z (runFromT2 s k p) := by
  unfold runFromT2; try dsimp only
  repeat' (first | with_reducible assumption | with_reducible apply runStages_keeps | with_reducible apply pktSet_keeps | with_reducible refine Keeps.of_fst (by with_reducible assumption) ?_ | (dsimp only) | (intro _ _ _) | (intro _ _) | (intro _) | split | with_reducible apply Keeps.upd)

theorem firstPassEntry_keeps {z : State} (s : State) (i : Nat) (hz : Keeps z s) :
    Keeps z (firstPassEntry s i) := by
  unfold firstPassEntry; try dsimp only
  repeat' (first | with_reducible assumption | with_reducible apply runStages_keeps | with_reducible apply runFromT2_keeps | with_reducible apply pktSet_keeps | with_reducible apply bump_keeps | with_reducible refine Keeps.of_fst (by with_reducible assumption) ?_ | (dsimp only) | (intro _ _ _) | (intro _ _) | (intro _) | split | with_reducible apply Keeps.upd)

theorem t2Admit_keeps {z : State} (s : State) (i : Nat) (hz : Keeps z s) :
    Keeps z (t2Admit s i) := by
  unfold t2Admit; try dsimp only
  repeat' (first | with_reducible assumption | with_reducible apply runFromT2_keeps | (intro _ _ _) | (intro _ _) | (intro _) | split | with_reducible apply Keeps.upd)

theorem readService_keeps {z : State} (s : State) (p : Packet) (hz : Keeps z s) :
    Keeps z (readService s p).2 := by
  unfold readService; try dsimp only
  repeat' (first | with_reducible assumption | with_reducible apply freeBits_keeps | with_reducible refine Keeps.of_snd (by with_reducible assumption) ?_ | (dsimp only) | (intro _ _ _) | (intro _ _) | (intro _) | split | with_reducible apply Keeps.upd)

theorem readTier_keeps {z : State} (s : State) (p : Packet) (hz : Keeps z s) :
    Keeps z (readTier s p).2 := by
  unfold readTier; try dsimp only
  repeat' (first | with_reducible assumption | with_reducible apply freeBits_keeps | with_reducible refine Keeps.of_snd (by with_reducible assumption) ?_ | (dsimp only) | (intro _ _ _) | (intro _ _) | (intro _) | split | with_reducible apply Keeps.upd)

theorem endFirst_keeps {z : State} (s : State) (k : Nat) (p0 : Packet) (hz : Keeps z s) :
    Keeps z (endFirst s k p0) := by
  unfold endFirst; try dsimp only
  repeat' (first | with_reducible assumption | with_reducible apply readService_keeps | with_reducible apply readTier_keeps | with_reducible apply mirrorCopies_keeps | with_reducible apply pktLeave_keeps | with_reducible apply bump_keeps | with_reducible apply pktSet_keeps | with_reducible refine Keeps.of_snd (by with_reducible assumption) ?_ | (dsimp only) | (intro _ _ _) | (intro _ _) | (intro _) | split | with_reducible apply Keeps.upd)

theorem endSecond_keeps {z : State} (s : State) (k : Nat) (p0 : Packet) (hz : Keeps z s) :
    Keeps z (endSecond s k p0) := by
  unfold endSecond; try dsimp only
  repeat' (first | with_reducible assumption | with_reducible apply mirrorCopies_keeps | with_reducible apply pktLeave_keeps | with_reducible apply bump_keeps | with_reducible apply pktSet_keeps | (intro _ _ _) | (intro _ _) | (intro _) | split | with_reducible apply Keeps.upd)

theorem passEnd_keeps {z : State} (s : State) (i : Nat) (second : Bool) (hz : Keeps z s) :
    Keeps z (passEnd s i second) := by
  unfold passEnd; try dsimp only
  repeat' (first | with_reducible assumption | with_reducible apply endSecond_keeps | with_reducible apply endFirst_keeps | (intro _ _ _) | (intro _ _) | (intro _) | split | with_reducible apply Keeps.upd)

theorem groveEntry_keeps {z : State} (s : State) (i : Nat) (hz : Keeps z s) :
    Keeps z (groveEntry s i) := by
  unfold groveEntry; try dsimp only
  repeat' (first | with_reducible assumption | with_reducible apply bump_keeps | with_reducible apply pktSet_keeps | (intro _ _ _) | (intro _ _) | (intro _) | split | with_reducible apply Keeps.upd)

theorem reportEntries_keeps {z : State} (s : State) (rs : List EntryResult) (hz : Keeps z s) :
    Keeps z (reportEntries s rs) := by
  unfold reportEntries; try dsimp only
  repeat' (first | with_reducible assumption | with_reducible apply nodeError_keeps | with_reducible apply bump_keeps | with_reducible apply obsAdd_keeps | with_reducible apply Keeps.foldl | with_reducible apply Keeps.foldl_snd | with_reducible apply Keeps.foldl_fst | with_reducible apply Keeps.foldl_snd_snd | (intro _ _ _) | (intro _ _) | (intro _) | split | with_reducible apply Keeps.upd)

theorem goOn_keeps {z : State} (s : State) (k : Nat) (p : Packet) (verdict : Bool) (hz : Keeps z s) :
    Keeps z (goOn s k p verdict) := by
  unfold goOn; try dsimp only
  repeat' (first | with_reducible assumption | with_reducible apply pktSet_keeps | (intro _ _ _) | (intro _ _) | (intro _) | split | with_reducible apply Keeps.upd)

theorem queueToken_keeps {z : State} (s : State) (i : Nat) (r : TokenReq) (hz : Keeps z s) :
    Keeps z (queueToken s i r) := by
  unfold queueToken; try dsimp only
  repeat' (first | with_reducible assumption | (intro _ _ _) | (intro _ _) | (intro _) | split | with_reducible apply Keeps.upd)

theorem groveDone_keeps {z : State} (s : State) (k : Nat) (p0 : Packet) (rs : List EntryResult) (hz : Keeps z s) :
    Keeps z (groveDone s k p0 rs) := by
  unfold groveDone; try dsimp only
  repeat' (first | with_reducible assumption | with_reducible apply tier1Record_keeps | with_reducible apply holdCreate_keeps | with_reducible apply pktSet_keeps | with_reducible apply queueToken_keeps | with_reducible apply holdRelease_keeps | with_reducible apply goOn_keeps | with_reducible apply bump_keeps | (intro _ _ _) | (intro _ _) | (intro _) | split | with_reducible apply Keeps.upd)

theorem groveVerdict_keeps {z : State} (s : State) (k : Nat) (err : Option (Nat × Nat × Bool)) (hz : Keeps z s) :
    Keeps z (groveVerdict s k err) := by
  unfold groveVerdict; try dsimp only
  repeat' (first | with_reducible assumption | with_reducible apply wordErrorArises_keeps | with_reducible apply groveDone_keeps | with_reducible apply reportEntries_keeps | (intro _ _ _) | (intro _ _) | (intro _) | split | with_reducible apply Keeps.upd)

theorem secondPassEntry_keeps {z : State} (s : State) (k : Nat) (hz : Keeps z s) :
    Keeps z (secondPassEntry s k) := by
  unfold secondPassEntry; try dsimp only
  repeat' (first | with_reducible assumption | with_reducible apply runStages_keeps | with_reducible apply pktSet_keeps | with_reducible refine Keeps.of_fst (by with_reducible assumption) ?_ | (dsimp only) | (intro _ _ _) | (intro _ _) | (intro _) | split | with_reducible apply Keeps.upd)

theorem transmit_keeps {z : State} (s : State) (k : Nat) (p : Packet) (port trunc : Nat) (copy : Bool) (hz : Keeps z s) :
    Keeps z (transmit s k p port trunc copy) := by
  unfold transmit; try dsimp only
  repeat' (first | with_reducible assumption | with_reducible apply pktLeave_keeps | with_reducible apply bump_keeps | with_reducible apply readCells_keeps | with_reducible apply bumpBy_keeps | (intro _ _ _) | (intro _ _) | (intro _) | split | with_reducible apply Keeps.upd)

theorem egress_keeps {z : State} (s : State) (k : Nat) (hz : Keeps z s) :
    Keeps z (egress s k) := by
  unfold egress; try dsimp only
  repeat' (first | with_reducible assumption | with_reducible apply transmit_keeps | (intro _ _ _) | (intro _ _) | (intro _) | split | with_reducible apply Keeps.upd)

end Sys2Proof.Machine
end

