-- ==== Sys2Proof/Laws/KeepsTrust.lean ====
section
/-!
SUPPORT. The operations of Trust keep the queue and the canonical form of the tables.
-/

namespace Sys2Proof.Machine
theorem trustMod_keeps {z : State} (s : State) (f : Trust → Trust) (hz : Keeps z s) :
    Keeps z (trustMod s f) := by
  unfold trustMod; try dsimp only
  repeat' (first | with_reducible assumption | (intro _ _ _) | (intro _ _) | (intro _) | split | with_reducible apply Keeps.upd)

theorem measPut_keeps {z : State} (s : State) (m : Nat) (b : Bytes) (hz : Keeps z s) :
    Keeps z (measPut s m b) := by
  unfold measPut; try dsimp only
  repeat' (first | with_reducible assumption | with_reducible apply regPut_keeps | with_reducible apply Keeps.foldl | with_reducible apply Keeps.foldl_snd | with_reducible apply Keeps.foldl_fst | with_reducible apply Keeps.foldl_snd_snd | (intro _ _ _) | (intro _ _) | (intro _) | split | with_reducible apply Keeps.upd)

theorem measExtend_keeps {z : State} (s : State) (m : Nat) (x : Bytes) (hz : Keeps z s) :
    Keeps z (measExtend s m x) := by
  unfold measExtend; try dsimp only
  repeat' (first | with_reducible assumption | with_reducible apply measPut_keeps | (intro _ _ _) | (intro _ _) | (intro _) | split | with_reducible apply Keeps.upd)

theorem extendIdentity_keeps {z : State} (s : State) (hz : Keeps z s) :
    Keeps z (extendIdentity s) := by
  unfold extendIdentity; try dsimp only
  repeat' (first | with_reducible assumption | with_reducible apply measExtend_keeps | (intro _ _ _) | (intro _ _) | (intro _) | split | with_reducible apply Keeps.upd)

theorem dropSession_keeps {z : State} (s : State) (i : Nat) (hz : Keeps z s) :
    Keeps z (dropSession s i) := by
  unfold dropSession; try dsimp only
  repeat' (first | with_reducible assumption | (intro _ _ _) | (intro _ _) | (intro _) | split | with_reducible apply Keeps.upd)

theorem closeSession_keeps {z : State} (s : State) (i : Nat) (hz : Keeps z s) :
    Keeps z (closeSession s i) := by
  unfold closeSession; try dsimp only
  repeat' (first | with_reducible assumption | with_reducible apply sessionMod_keeps | with_reducible apply dropSession_keeps | with_reducible apply auditEvent_keeps | (intro _ _ _) | (intro _ _) | (intro _) | split | with_reducible apply Keeps.upd)

theorem closeWhere_keeps {z : State} (s : State) (p : Session → Bool) (hz : Keeps z s) :
    Keeps z (closeWhere s p) := by
  unfold closeWhere; try dsimp only
  repeat' (first | with_reducible assumption | with_reducible apply closeSession_keeps | with_reducible apply Keeps.foldl | with_reducible apply Keeps.foldl_snd | with_reducible apply Keeps.foldl_fst | with_reducible apply Keeps.foldl_snd_snd | (intro _ _ _) | (intro _ _) | (intro _) | split | with_reducible apply Keeps.upd)

theorem openSession_keeps {z : State} (s : State) (role slot : Nat) (roleKey hnonce : Bytes) (hz : Keeps z s) :
    Keeps z (openSession s role slot roleKey hnonce).2.2 := by
  unfold openSession; try dsimp only
  repeat' (first | with_reducible assumption | with_reducible apply freeBits_keeps | with_reducible refine Keeps.of_snd (by with_reducible assumption) ?_ | (dsimp only) | (intro _ _ _) | (intro _ _) | (intro _) | split | with_reducible apply Keeps.upd)

theorem openFails_keeps {z : State} (s : State) (hz : Keeps z s) :
    Keeps z (openFails s).2.2 := by
  unfold openFails; try dsimp only
  repeat' (first | with_reducible assumption | with_reducible apply bump_keeps | (dsimp only) | (intro _ _ _) | (intro _ _) | (intro _) | split | with_reducible apply Keeps.upd)

theorem openRefused_keeps {z : State} (s : State) (status : Nat) (hz : Keeps z s) :
    Keeps z (openRefused s status).2.2 := by
  unfold openRefused; try dsimp only
  repeat' (first | with_reducible assumption | (dsimp only) | (intro _ _ _) | (intro _ _) | (intro _) | split | with_reducible apply Keeps.upd)

theorem takeCounter_keeps {z : State} (s : State) (role slot seq : Nat) (hz : Keeps z s) :
    Keeps z (takeCounter s role slot seq) := by
  unfold takeCounter; try dsimp only
  repeat' (first | with_reducible assumption | with_reducible apply trustMod_keeps | (intro _ _ _) | (intro _ _) | (intro _) | split | with_reducible apply Keeps.upd)

theorem claimDone_keeps {z : State} (s : State) (root hnonce : Bytes) (seq : Nat) (hz : Keeps z s) :
    Keeps z (claimDone s root hnonce seq).2.2 := by
  unfold claimDone; try dsimp only
  repeat' (first | with_reducible assumption | with_reducible apply trustMod_keeps | with_reducible apply takeCounter_keeps | with_reducible apply openSession_keeps | with_reducible apply extendIdentity_keeps | with_reducible apply auditEvent_keeps | with_reducible refine Keeps.of_snd_snd (by with_reducible assumption) ?_ | (dsimp only) | (intro _ _ _) | (intro _ _) | (intro _) | split | with_reducible apply Keeps.upd)

theorem sessionClaim_keeps {z : State} (s : State) (f : CmdFrame) (hz : Keeps z s) :
    Keeps z (sessionClaim s f).2.2 := by
  unfold sessionClaim; try dsimp only
  repeat' (first | with_reducible assumption | with_reducible apply openFails_keeps | with_reducible apply openRefused_keeps | with_reducible apply claimDone_keeps | with_reducible refine Keeps.of_snd_snd (by with_reducible assumption) ?_ | (dsimp only) | (intro _ _ _) | (intro _ _) | (intro _) | split | with_reducible apply Keeps.upd)

theorem sessionOpen_keeps {z : State} (s : State) (f : CmdFrame) (hz : Keeps z s) :
    Keeps z (sessionOpen s f).2.2 := by
  unfold sessionOpen; try dsimp only
  repeat' (first | with_reducible assumption | with_reducible apply openFails_keeps | with_reducible apply openRefused_keeps | with_reducible apply openSession_keeps | with_reducible apply takeCounter_keeps | with_reducible refine Keeps.of_snd_snd (by with_reducible assumption) ?_ | (dsimp only) | (intro _ _ _) | (intro _ _) | (intro _) | split | with_reducible apply Keeps.upd)

theorem sessionStart_keeps {z : State} (s : State) (f : CmdFrame) (hz : Keeps z s) :
    Keeps z (sessionStart s f).2.2 := by
  unfold sessionStart; try dsimp only
  repeat' (first | with_reducible assumption | with_reducible apply sessionClaim_keeps | with_reducible apply sessionOpen_keeps | with_reducible refine Keeps.of_snd_snd (by with_reducible assumption) ?_ | (dsimp only) | (intro _ _ _) | (intro _ _) | (intro _) | split | with_reducible apply Keeps.upd)

theorem trsRelease_keeps {z : State} (s : State) (hz : Keeps z s) :
    Keeps z (trsRelease s) := by
  unfold trsRelease; try dsimp only
  repeat' (first | with_reducible assumption | with_reducible apply trustMod_keeps | with_reducible apply closeWhere_keeps | with_reducible apply extendIdentity_keeps | with_reducible apply auditEvent_keeps | (intro _ _ _) | (intro _ _) | (intro _) | split | with_reducible apply Keeps.upd)

theorem trsRotate_keeps {z : State} (s : State) (j : Nat) (hz : Keeps z s) :
    Keeps z (trsRotate s j) := by
  unfold trsRotate; try dsimp only
  repeat' (first | with_reducible assumption | with_reducible apply trustMod_keeps | with_reducible apply closeWhere_keeps | with_reducible apply extendIdentity_keeps | (intro _ _ _) | (intro _ _) | (intro _) | split | with_reducible apply Keeps.upd)

theorem opkeyEnable_keeps {z : State} (s : State) (j : Nat) (en : Bool) (hz : Keeps z s) :
    Keeps z (opkeyEnable s j en) := by
  unfold opkeyEnable; try dsimp only
  repeat' (first | with_reducible assumption | with_reducible apply trustMod_keeps | with_reducible apply extendIdentity_keeps | with_reducible apply closeWhere_keeps | (intro _ _ _) | (intro _ _) | (intro _) | split | with_reducible apply Keeps.upd)

theorem signerEnable_keeps {z : State} (s : State) (v : Nat) (hz : Keeps z s) :
    Keeps z (signerEnable s v) := by
  unfold signerEnable; try dsimp only
  repeat' (first | with_reducible assumption | with_reducible apply extendIdentity_keeps | with_reducible apply trustMod_keeps | (intro _ _ _) | (intro _ _) | (intro _) | split | with_reducible apply Keeps.upd)

theorem signerWrite_keeps {z : State} {s : State} {k w v : Nat} (hz : Keeps z s) {tz : State} (e : signerWrite s k w v = some tz) :
    Keeps z tz := by
  unfold signerWrite at e; try dsimp only at e
  repeat' (first | (cases e; done) | (injection e with e; subst e) | split at e | with_reducible assumption | with_reducible apply extendIdentity_keeps | with_reducible apply trustMod_keeps | (dsimp only) | (intro _ _ _) | (intro _ _) | (intro _) | split | with_reducible apply Keeps.upd)

theorem firmwareActivate_keeps {z : State} (s : State) (f : CmdFrame) (hz : Keeps z s) :
    Keeps z (firmwareActivate s f).2 := by
  unfold firmwareActivate; try dsimp only
  repeat' (first | with_reducible assumption | with_reducible apply refuse_keeps | with_reducible apply sigBad_keeps | with_reducible apply trustMod_keeps | with_reducible refine Keeps.of_snd (by with_reducible assumption) ?_ | (dsimp only) | (intro _ _ _) | (intro _ _) | (intro _) | split | with_reducible apply Keeps.upd)

theorem loadPairs_keeps {z : State} (s : State) (pairs : List (Nat × Nat)) (hz : Keeps z s) :
    Keeps z (loadPairs s pairs) := by
  unfold loadPairs; try dsimp only
  repeat' (first | with_reducible assumption | with_reducible apply regPut_keeps | with_reducible apply Keeps.foldl | with_reducible apply Keeps.foldl_snd | with_reducible apply Keeps.foldl_fst | with_reducible apply Keeps.foldl_snd_snd | (intro _ _ _) | (intro _ _) | (intro _) | split | with_reducible apply Keeps.upd)

theorem trsSave_keeps {z : State} (s : State) (hz : Keeps z s) :
    Keeps z (trsSave s) := by
  unfold trsSave; try dsimp only
  repeat' (first | with_reducible assumption | with_reducible apply flashMod_keeps | (intro _ _ _) | (intro _ _) | (intro _) | split | with_reducible apply Keeps.upd)

theorem trsFactory_keeps {z : State} (s : State) (hz : Keeps z s) :
    Keeps z (trsFactory s) := by
  unfold trsFactory; try dsimp only
  repeat' (first | with_reducible assumption | with_reducible apply trustMod_keeps | (intro _ _ _) | (intro _ _) | (intro _) | split | with_reducible apply Keeps.upd)

theorem bootTables_keeps {z : State} (s : State) (hz : Keeps z s) :
    Keeps z (bootTables s) := by
  unfold bootTables; try dsimp only
  repeat' (first | with_reducible assumption | with_reducible apply regPutF_keeps | with_reducible apply regPut_keeps | with_reducible apply coreMod_keeps | with_reducible apply Keeps.foldl | with_reducible apply Keeps.foldl_snd | with_reducible apply Keeps.foldl_fst | with_reducible apply Keeps.foldl_snd_snd | (intro _ _ _) | (intro _ _) | (intro _) | split | with_reducible apply Keeps.upd)

theorem crownStart_keeps {z : State} (s : State) (hz : Keeps z s) :
    Keeps z (crownStart s) := by
  unfold crownStart; try dsimp only
  repeat' (first | with_reducible assumption | (intro _ _ _) | (intro _ _) | (intro _) | split | with_reducible apply Keeps.upd)

theorem bootWith_keeps {z : State} (s : State) (slot : Nat) (img : Bytes) (fallback : Bool) (hz : Keeps z s) :
    Keeps z (bootWith s slot img fallback) := by
  unfold bootWith; try dsimp only
  repeat' (first | with_reducible assumption | with_reducible apply measExtend_keeps | with_reducible apply trustMod_keeps | with_reducible apply modesMod_keeps | with_reducible apply loadPairs_keeps | with_reducible apply enterState_keeps | with_reducible apply crownStart_keeps | with_reducible apply extendIdentity_keeps | with_reducible apply auditEvent_keeps | (intro _ _ _) | (intro _ _) | (intro _) | split | with_reducible apply Keeps.upd)

theorem secureBoot_keeps {z : State} (s : State) (hz : Keeps z s) :
    Keeps z (secureBoot s) := by
  unfold secureBoot; try dsimp only
  repeat' (first | with_reducible assumption | with_reducible apply trustMod_keeps | with_reducible apply bootTables_keeps | with_reducible apply measPut_keeps | with_reducible apply measExtend_keeps | with_reducible apply bootWith_keeps | with_reducible apply sigBad_keeps | with_reducible apply enterFaulted_keeps | with_reducible apply Keeps.foldl | with_reducible apply Keeps.foldl_snd | with_reducible apply Keeps.foldl_fst | with_reducible apply Keeps.foldl_snd_snd | (intro _ _ _) | (intro _ _) | (intro _) | split | with_reducible apply Keeps.upd)

theorem attestQuote_keeps {z : State} (s : State) (i : Nat) (f : CmdFrame) (hz : Keeps z s) :
    Keeps z (attestQuote s i f).2 := by
  unfold attestQuote; try dsimp only
  repeat' (first | with_reducible assumption | with_reducible apply refuse_keeps | with_reducible apply freeBits_keeps | with_reducible apply trustMod_keeps | with_reducible refine Keeps.of_snd (by with_reducible assumption) ?_ | (dsimp only) | (intro _ _ _) | (intro _ _) | (intro _) | split | with_reducible apply Keeps.upd)

theorem countSummary_keeps {z : State} (s : State) (role slot opcode status port session : Nat) (body : Bytes) (hz : Keeps z s) :
    Keeps z (countSummary s role slot opcode status port session body) := by
  unfold countSummary; try dsimp only
  repeat' (first | with_reducible assumption | with_reducible apply trustMod_keeps | (intro _ _ _) | (intro _ _) | (intro _) | split | with_reducible apply Keeps.upd)

theorem addSummaries_keeps {z : State} (s : State) (fuel : Nat) (hz : Keeps z s) :
    Keeps z (addSummaries s fuel) := by
  induction fuel generalizing s with
  | zero =>
    unfold addSummaries; try dsimp only
    repeat' (first | (cases ‹_ + 1 = _ + 1›) | with_reducible assumption | with_reducible apply trustMod_keeps | with_reducible apply auditAdd_keeps | with_reducible apply ih | (intro _ _ _) | (intro _ _) | (intro _) | split | with_reducible apply Keeps.upd)
  | succ n ih =>
    unfold addSummaries; try dsimp only
    repeat' (first | (cases ‹_ + 1 = _ + 1›) | with_reducible assumption | with_reducible apply trustMod_keeps | with_reducible apply auditAdd_keeps | with_reducible apply ih | (intro _ _ _) | (intro _ _) | (intro _) | split | with_reducible apply Keeps.upd)

theorem auditSummary_keeps {z : State} (s : State) (hz : Keeps z s) :
    Keeps z (auditSummary s) := by
  unfold auditSummary; try dsimp only
  repeat' (first | with_reducible assumption | with_reducible apply addSummaries_keeps | with_reducible apply trustMod_keeps | (intro _ _ _) | (intro _ _) | (intro _) | split | with_reducible apply Keeps.upd)

theorem auditDrain_keeps {z : State} (s : State) (hz : Keeps z s) :
    Keeps z (auditDrain s) := by
  unfold auditDrain; try dsimp only
  repeat' (first | with_reducible assumption | with_reducible apply flashMod_keeps | with_reducible apply trustMod_keeps | with_reducible apply Keeps.foldl | with_reducible apply Keeps.foldl_snd | with_reducible apply Keeps.foldl_fst | with_reducible apply Keeps.foldl_snd_snd | (intro _ _ _) | (intro _ _) | (intro _) | split | with_reducible apply Keeps.upd)

theorem auditRead_keeps {z : State} (s : State) (f : CmdFrame) (hz : Keeps z s) :
    Keeps z (auditRead s f).2 := by
  unfold auditRead; try dsimp only
  repeat' (first | with_reducible assumption | with_reducible apply refuse_keeps | with_reducible refine Keeps.of_snd (by with_reducible assumption) ?_ | (dsimp only) | (intro _ _ _) | (intro _ _) | (intro _) | split | with_reducible apply Keeps.upd)

end Sys2Proof.Machine
end

