-- ==== Sys2Proof/Laws/KeepsRegView.lean ====
section
/-!
SUPPORT. The operations of RegView keep the queue and the canonical form of the tables.
-/

namespace Sys2Proof.Machine

theorem readClear_keeps {z : State} (s : State) (a : Nat) (hz : Keeps z s) :
    Keeps z (readClear s a) := by
  unfold readClear; try dsimp only
  repeat' (first | with_reducible assumption | with_reducible apply regSet_keeps | with_reducible apply heatSettle_keeps | with_reducible apply throttleSettle_keeps | (intro _ _ _) | (intro _ _) | (intro _) | split | with_reducible apply Keeps.upd)

end Sys2Proof.Machine
end

