-- ==== Sys2Proof/Laws/KeepsObsRows.lean ====
section
/-!
SUPPORT. The operations of ObsRows keep the queue and the canonical form of the tables.
-/

namespace Sys2Proof.Machine
theorem counterValues_keeps {z : State} (s : State) (cls : Nat) (get : Nat → Nat) (is_ : List Nat) (hz : Keeps z s) :
    Keeps z (counterValues s cls get is_).2 := by
  induction is_ generalizing s cls get with
  | nil =>
    unfold counterValues; try dsimp only
    repeat' (first | (cases ‹_ + 1 = _ + 1›) | with_reducible assumption | with_reducible apply freeBits_keeps | with_reducible apply ih | with_reducible refine Keeps.of_snd (by with_reducible assumption) ?_ | (dsimp only) | (intro _ _ _) | (intro _ _) | (intro _) | split | with_reducible apply Keeps.upd)
  | cons x l ih =>
    unfold counterValues; try dsimp only
    repeat' (first | (cases ‹_ + 1 = _ + 1›) | with_reducible assumption | with_reducible apply freeBits_keeps | with_reducible apply ih | with_reducible refine Keeps.of_snd (by with_reducible assumption) ?_ | (dsimp only) | (intro _ _ _) | (intro _ _) | (intro _) | split | with_reducible apply Keeps.upd)

theorem bankValues_keeps {z : State} (s : State) (bank : FMap Nat) (is_ : List Nat) (hz : Keeps z s) :
    Keeps z (bankValues s bank is_).2 := by
  unfold bankValues; try dsimp only
  repeat' (first | with_reducible assumption | with_reducible apply counterValues_keeps | with_reducible refine Keeps.of_snd (by with_reducible assumption) ?_ | (dsimp only) | (intro _ _ _) | (intro _ _) | (intro _) | split | with_reducible apply Keeps.upd)

theorem counterRead_keeps {z : State} (s : State) (role : Role) (f : CmdFrame) (hz : Keeps z s) :
    Keeps z (counterRead s role f).2 := by
  unfold counterRead; try dsimp only
  repeat' (first | with_reducible assumption | with_reducible apply refuse_keeps | with_reducible apply bankValues_keeps | with_reducible apply counterValues_keeps | with_reducible refine Keeps.of_snd (by with_reducible assumption) ?_ | (dsimp only) | (intro _ _ _) | (intro _ _) | (intro _) | split | with_reducible apply Keeps.upd)

theorem traceEnable_keeps {z : State} (s : State) (f : CmdFrame) (hz : Keeps z s) :
    Keeps z (traceEnable s f).2 := by
  unfold traceEnable; try dsimp only
  repeat' (first | with_reducible assumption | with_reducible apply refuse_keeps | with_reducible apply regPutF_keeps | with_reducible apply measExtend_keeps | with_reducible refine Keeps.of_snd (by with_reducible assumption) ?_ | (dsimp only) | (intro _ _ _) | (intro _ _) | (intro _) | split | with_reducible apply Keeps.upd)

theorem traceDisable_keeps {z : State} (s : State) (f : CmdFrame) (hz : Keeps z s) :
    Keeps z (traceDisable s f).2 := by
  unfold traceDisable; try dsimp only
  repeat' (first | with_reducible assumption | with_reducible apply refuse_keeps | with_reducible apply regPutF_keeps | with_reducible refine Keeps.of_snd (by with_reducible assumption) ?_ | (dsimp only) | (intro _ _ _) | (intro _ _) | (intro _) | split | with_reducible apply Keeps.upd)

theorem traceMarker_keeps {z : State} (s : State) (f : CmdFrame) (hz : Keeps z s) :
    Keeps z (traceMarker s f).2 := by
  unfold traceMarker; try dsimp only
  repeat' (first | with_reducible assumption | with_reducible apply refuse_keeps | with_reducible apply traceEmit_keeps | with_reducible refine Keeps.of_snd (by with_reducible assumption) ?_ | (dsimp only) | (intro _ _ _) | (intro _ _) | (intro _) | split | with_reducible apply Keeps.upd)

theorem traceCtl_keeps {z : State} (s : State) (f : CmdFrame) (hz : Keeps z s) :
    Keeps z (traceCtl s f).2 := by
  unfold traceCtl; try dsimp only
  repeat' (first | with_reducible assumption | with_reducible apply traceEnable_keeps | with_reducible apply traceDisable_keeps | with_reducible apply traceMarker_keeps | with_reducible apply refuse_keeps | with_reducible refine Keeps.of_snd (by with_reducible assumption) ?_ | (dsimp only) | (intro _ _ _) | (intro _ _) | (intro _) | split | with_reducible apply Keeps.upd)

theorem pcSample_keeps {z : State} (s : State) (k h : Nat) (issued : Bool) (hz : Keeps z s) :
    Keeps z (pcSample s k h issued) := by
  unfold pcSample; try dsimp only
  repeat' (first | with_reducible assumption | with_reducible apply traceEmit_keeps | (intro _ _ _) | (intro _ _) | (intro _) | split | with_reducible apply Keeps.upd)

theorem dropBad_keeps {z : State} (s : State) (rs : List TraceRec) (hz : Keeps z s) :
    Keeps z (dropBad s rs) := by
  unfold dropBad; try dsimp only
  repeat' (first | with_reducible assumption | with_reducible apply bump_keeps | with_reducible apply bumpUe_keeps | with_reducible apply Keeps.foldl | with_reducible apply Keeps.foldl_snd | with_reducible apply Keeps.foldl_fst | with_reducible apply Keeps.foldl_snd_snd | (intro _ _ _) | (intro _ _) | (intro _) | split | with_reducible apply Keeps.upd)

theorem chaifFrameSend_keeps {z : State} (s0 : State) (n : Nat) (hz : Keeps z s0) :
    Keeps z (chaifFrameSend s0 n) := by
  unfold chaifFrameSend; try dsimp only
  repeat' (first | with_reducible assumption | with_reducible apply dropBad_keeps | with_reducible apply bumpBy_keeps | (intro _ _ _) | (intro _ _) | (intro _) | split | with_reducible apply Keeps.upd)

theorem chaifLink_keeps {z : State} (s : State) (up : Bool) (hz : Keeps z s) :
    Keeps z (chaifLink s up) := by
  unfold chaifLink; try dsimp only
  repeat' (first | with_reducible assumption | with_reducible apply regPutF_keeps | (intro _ _ _) | (intro _ _) | (intro _) | split | with_reducible apply Keeps.upd)

theorem sendTrace_keeps {z : State} (s : State) (e : PortId × Bytes) (hz : Keeps z s) :
    Keeps z (sendTrace s e) := by
  unfold sendTrace; try dsimp only
  repeat' (first | with_reducible assumption | with_reducible apply sendOut_keeps | (intro _ _ _) | (intro _ _) | (intro _) | split | with_reducible apply Keeps.upd)

theorem traceFallbackSend_keeps {z : State} (s : State) (hz : Keeps z s) :
    Keeps z (traceFallbackSend s) := by
  unfold traceFallbackSend; try dsimp only
  repeat' (first | with_reducible assumption | with_reducible apply bump_keeps | with_reducible apply dropBad_keeps | with_reducible apply sendTrace_keeps | with_reducible apply Keeps.foldl | with_reducible apply Keeps.foldl_snd | with_reducible apply Keeps.foldl_fst | with_reducible apply Keeps.foldl_snd_snd | (intro _ _ _) | (intro _ _) | (intro _) | split | with_reducible apply Keeps.upd)

theorem countSendRow_keeps {z : State} (s : State) (k : Nat) (hz : Keeps z s) :
    Keeps z (countSendRow s k) := by
  unfold countSendRow; try dsimp only
  repeat' (first | with_reducible assumption | with_reducible apply whileRunning_keeps | with_reducible apply countSend_keeps | (intro _ _ _) | (intro _ _) | (intro _) | split | with_reducible apply Keeps.upd)

theorem commandBoundary_keeps {z : State} (s : State) (set : Nat) (go : Bool) (hz : Keeps z s) :
    Keeps z (commandBoundary s set go) := by
  unfold commandBoundary; try dsimp only
  repeat' (first | with_reducible assumption | with_reducible apply setBoundary_keeps | with_reducible apply countSend_keeps | with_reducible apply Keeps.foldl | with_reducible apply Keeps.foldl_snd | with_reducible apply Keeps.foldl_fst | with_reducible apply Keeps.foldl_snd_snd | (intro _ _ _) | (intro _ _) | (intro _) | split | with_reducible apply Keeps.upd)

theorem globalStop_keeps {z : State} (s : State) (hz : Keeps z s) :
    Keeps z (globalStop s) := by
  unfold globalStop; try dsimp only
  repeat' (first | with_reducible assumption | (intro _ _ _) | (intro _ _) | (intro _) | split | with_reducible apply Keeps.upd)

theorem enterHalted_keeps {z : State} (s : State) (hz : Keeps z s) :
    Keeps z (enterHalted s) := by
  unfold enterHalted; try dsimp only
  repeat' (first | with_reducible assumption | with_reducible apply appsFollow_keeps | with_reducible apply auditEvent_keeps | with_reducible apply stateEvent_keeps | (intro _ _ _) | (intro _ _) | (intro _) | split | with_reducible apply Keeps.upd)

theorem cutComplete_keeps {z : State} (s : State) (hz : Keeps z s) :
    Keeps z (cutComplete s) := by
  unfold cutComplete; try dsimp only
  repeat' (first | with_reducible assumption | with_reducible apply regPut_keeps | with_reducible apply enterHalted_keeps | with_reducible apply broadcast_keeps | with_reducible apply answerWait_keeps | (intro _ _ _) | (intro _ _) | (intro _) | split | with_reducible apply Keeps.upd)

theorem scanOut_keeps {z : State} (s : State) (f : CmdFrame) (hz : Keeps z s) :
    Keeps z (scanOut s f).2 := by
  unfold scanOut; try dsimp only
  repeat' (first | with_reducible assumption | with_reducible apply refuse_keeps | with_reducible apply measExtend_keeps | with_reducible refine Keeps.of_snd (by with_reducible assumption) ?_ | (dsimp only) | (intro _ _ _) | (intro _ _) | (intro _) | split | with_reducible apply Keeps.upd)

theorem scanRead_keeps {z : State} (s : State) (body : Bytes) (hz : Keeps z s) :
    Keeps z (scanRead s body) := by
  unfold scanRead; try dsimp only
  repeat' (first | with_reducible assumption | with_reducible apply auditAdd_keeps | (intro _ _ _) | (intro _ _) | (intro _) | split | with_reducible apply Keeps.upd)

end Sys2Proof.Machine
end

