-- ==== Sys2Proof/Laws/KeepsPower.lean ====
section
/-!
SUPPORT. The operations of Power keep the queue and the canonical form of the tables.
-/

namespace Sys2Proof.Machine
theorem pwrMod_keeps {z : State} (s : State) (f : Pwr → Pwr) (hz : Keeps z s) :
    Keeps z (pwrMod s f) := by
  unfold pwrMod; try dsimp only
  repeat' (first | with_reducible assumption | (intro _ _ _) | (intro _ _) | (intro _) | split | with_reducible apply Keeps.upd)

theorem moduleReset_keeps {z : State} (s : State) (hz : Keeps z s) : Keeps z (moduleReset s) :=
  regSet_keeps _ _ _ ⟨hz.1, fun _ => rfl, fun _ => rfl, fun _ => rfl⟩

theorem powerLost_keeps {z : State} (s : State) (hz : Keeps z s) :
    Keeps z (powerLost s) := by
  unfold powerLost; try dsimp only
  repeat' (first | with_reducible assumption | with_reducible apply pwrMod_keeps | with_reducible apply moduleReset_keeps | (intro _ _ _) | (intro _ _) | (intro _) | split | with_reducible apply Keeps.upd)

theorem powerGoodLoss_keeps {z : State} (s : State) (c : PowerLoss) (hz : Keeps z s) :
    Keeps z (powerGoodLoss s c) := by
  unfold powerGoodLoss; try dsimp only
  repeat' (first | with_reducible assumption | with_reducible apply powerLost_keeps | with_reducible apply pwrMod_keeps | (intro _ _ _) | (intro _ _) | (intro _) | split | with_reducible apply Keeps.upd)

theorem pinReset_keeps {z : State} (s : State) (hz : Keeps z s) :
    Keeps z (pinReset s) := by
  unfold pinReset; try dsimp only
  repeat' (first | with_reducible assumption | with_reducible apply pwrMod_keeps | with_reducible apply moduleReset_keeps | (intro _ _ _) | (intro _ _) | (intro _) | split | with_reducible apply Keeps.upd)

theorem moduleResetRow_keeps {z : State} (s : State) (c : ResetCause) (hz : Keeps z s) :
    Keeps z (moduleResetRow s c) := by
  unfold moduleResetRow; try dsimp only
  repeat' (first | with_reducible assumption | with_reducible apply freeBits_keeps | with_reducible apply pinReset_keeps | with_reducible apply moduleReset_keeps | with_reducible apply powerGoodLoss_keeps | with_reducible refine Keeps.of_snd (by with_reducible assumption) ?_ | (dsimp only) | (intro _ _ _) | (intro _ _) | (intro _) | split | with_reducible apply Keeps.upd)

theorem powerUp_keeps {z : State} (s : State) (mv : Nat) (hz : Keeps z s) :
    Keeps z (powerUp s mv) := by
  unfold powerUp; try dsimp only
  repeat' (first | with_reducible assumption | with_reducible apply pwrMod_keeps | with_reducible apply regPut_keeps | (intro _ _ _) | (intro _ _) | (intro _) | split | with_reducible apply Keeps.upd)

theorem resetRelease_keeps {z : State} (s : State) (hz : Keeps z s) :
    Keeps z (resetRelease s) := by
  unfold resetRelease; try dsimp only
  repeat' (first | with_reducible assumption | with_reducible apply pwrMod_keeps | with_reducible apply enterState_keeps | (intro _ _ _) | (intro _ _) | (intro _) | split | with_reducible apply Keeps.upd)

theorem inputRange_keeps {z : State} (s : State) (mv : Nat) (hz : Keeps z s) :
    Keeps z (inputRange s mv) := by
  unfold inputRange; try dsimp only
  repeat' (first | with_reducible assumption | with_reducible apply bump_keeps | with_reducible apply regPutF_keeps | with_reducible apply pwrMod_keeps | (intro _ _ _) | (intro _ _) | (intro _) | split | with_reducible apply Keeps.upd)

theorem phaseShed_keeps {z : State} (s : State) (r : Nat) (hz : Keeps z s) :
    Keeps z (phaseShed s r) := by
  unfold phaseShed; try dsimp only
  repeat' (first | with_reducible assumption | with_reducible apply bump_keeps | with_reducible apply regPutF_keeps | with_reducible apply enterFaulted_keeps | (intro _ _ _) | (intro _ _) | (intro _) | split | with_reducible apply Keeps.upd)

theorem capControl_keeps {z : State} (s : State) (mv ca dw : Nat) (hz : Keeps z s) :
    Keeps z (capControl s mv ca dw) := by
  unfold capControl; try dsimp only
  repeat' (first | with_reducible assumption | with_reducible apply pwrMod_keeps | (intro _ _ _) | (intro _ _) | (intro _) | split | with_reducible apply Keeps.upd)

theorem limbThrottle_keeps {z : State} (s : State) (n temp : Nat) (hz : Keeps z s) :
    Keeps z (limbThrottle s n temp) := by
  unfold limbThrottle; try dsimp only
  repeat' (first | with_reducible assumption | with_reducible apply pwrMod_keeps | with_reducible apply throttleSettle_keeps | with_reducible apply regPutF_keeps | (intro _ _ _) | (intro _ _) | (intro _) | split | with_reducible apply Keeps.upd)

theorem thermalShutdown_keeps {z : State} (s : State) (sensor temp : Nat) (hz : Keeps z s) :
    Keeps z (thermalShutdown s sensor temp) := by
  unfold thermalShutdown; try dsimp only
  repeat' (first | with_reducible assumption | with_reducible apply enterFaulted_keeps | with_reducible apply pwrMod_keeps | with_reducible apply hbmThermal_keeps | (intro _ _ _) | (intro _ _) | (intro _) | split | with_reducible apply Keeps.upd)

theorem smbusRead_keeps {z : State} (s : State) (num den : Nat) (hz : Keeps z s) :
    Keeps z (smbusRead s num den) := by
  unfold smbusRead; try dsimp only
  repeat' (first | with_reducible assumption | (intro _ _ _) | (intro _ _) | (intro _) | split | with_reducible apply Keeps.upd)

theorem readVin_keeps {z : State} (s : State) (hz : Keeps z s) :
    Keeps z (readVin s) := by
  unfold readVin; try dsimp only
  repeat' (first | with_reducible assumption | with_reducible apply smbusRead_keeps | (intro _ _ _) | (intro _ _) | (intro _) | split | with_reducible apply Keeps.upd)

theorem readIin_keeps {z : State} (s : State) (hz : Keeps z s) :
    Keeps z (readIin s) := by
  unfold readIin; try dsimp only
  repeat' (first | with_reducible assumption | with_reducible apply smbusRead_keeps | (intro _ _ _) | (intro _ _) | (intro _) | split | with_reducible apply Keeps.upd)

theorem readPin_keeps {z : State} (s : State) (hz : Keeps z s) :
    Keeps z (readPin s) := by
  unfold readPin; try dsimp only
  repeat' (first | with_reducible assumption | with_reducible apply smbusRead_keeps | (intro _ _ _) | (intro _ _) | (intro _) | split | with_reducible apply Keeps.upd)

theorem readTemperature_keeps {z : State} (s : State) (hz : Keeps z s) :
    Keeps z (readTemperature s) := by
  unfold readTemperature; try dsimp only
  repeat' (first | with_reducible assumption | with_reducible apply smbusRead_keeps | with_reducible apply Keeps.foldl | with_reducible apply Keeps.foldl_snd | with_reducible apply Keeps.foldl_fst | with_reducible apply Keeps.foldl_snd_snd | (intro _ _ _) | (intro _ _) | (intro _) | split | with_reducible apply Keeps.upd)

theorem tapAnswer_keeps {z : State} (s : State) (ir data : Nat) (hz : Keeps z s) :
    Keeps z (tapAnswer s ir data) := by
  unfold tapAnswer; try dsimp only
  repeat' (first | with_reducible assumption | with_reducible apply pwrMod_keeps | (intro _ _ _) | (intro _ _) | (intro _) | split | with_reducible apply Keeps.upd)

theorem tapBypass_keeps {z : State} (s : State) (code data : Nat) (hz : Keeps z s) :
    Keeps z (tapBypass s code data) := by
  unfold tapBypass; try dsimp only
  repeat' (first | with_reducible assumption | with_reducible apply tapAnswer_keeps | (intro _ _ _) | (intro _ _) | (intro _) | split | with_reducible apply Keeps.upd)

theorem tapIdcode_keeps {z : State} (s : State) (hz : Keeps z s) :
    Keeps z (tapIdcode s) := by
  unfold tapIdcode; try dsimp only
  repeat' (first | with_reducible assumption | with_reducible apply tapAnswer_keeps | (intro _ _ _) | (intro _ _) | (intro _) | split | with_reducible apply Keeps.upd)

theorem tapSample_keeps {z : State} (s : State) (data : Nat) (hz : Keeps z s) :
    Keeps z (tapSample s data) := by
  unfold tapSample; try dsimp only
  repeat' (first | with_reducible assumption | with_reducible apply freeBits_keeps | with_reducible apply pwrMod_keeps | with_reducible apply tapAnswer_keeps | with_reducible refine Keeps.of_snd (by with_reducible assumption) ?_ | (dsimp only) | (intro _ _ _) | (intro _ _) | (intro _) | split | with_reducible apply Keeps.upd)

theorem tapExtest_keeps {z : State} (s : State) (data : Nat) (hz : Keeps z s) :
    Keeps z (tapExtest s data) := by
  unfold tapExtest; try dsimp only
  repeat' (first | with_reducible assumption | with_reducible apply tapAnswer_keeps | with_reducible apply freeBits_keeps | with_reducible apply pwrMod_keeps | with_reducible refine Keeps.of_snd (by with_reducible assumption) ?_ | (dsimp only) | (intro _ _ _) | (intro _ _) | (intro _) | split | with_reducible apply Keeps.upd)

theorem tapScan_keeps {z : State} (s : State) (body : Bytes) (hz : Keeps z s) :
    Keeps z (tapScan s body) := by
  unfold tapScan; try dsimp only
  repeat' (first | with_reducible assumption | with_reducible apply pwrMod_keeps | with_reducible apply scanRead_keeps | (intro _ _ _) | (intro _ _) | (intro _) | split | with_reducible apply Keeps.upd)

end Sys2Proof.Machine
end

