-- ==== Sys2Proof/Laws/KeepsRegWrite.lean ====
section
/-!
SUPPORT. The operations of RegWrite keep the queue and the canonical form of the tables.
-/

namespace Sys2Proof.Machine
theorem lockBlock_keeps {z : State} (s : State) (b : Block) (inst : Nat) (hz : Keeps z s) :
    Keeps z (lockBlock s b inst) := by
  unfold lockBlock; try dsimp only
  repeat' (first | with_reducible assumption | with_reducible apply regPutF_keeps | (intro _ _ _) | (intro _ _) | (intro _) | split | with_reducible apply Keeps.upd)

theorem plainWrite_keeps {z : State} (s : State) (row : RegRow) (r : Reg) (v : Nat) (hz : Keeps z s) :
    Keeps z (plainWrite s row r v) := by
  unfold plainWrite; try dsimp only
  repeat' (first | with_reducible assumption | with_reducible apply regSet_keeps | (intro _ _ _) | (intro _ _) | (intro _) | split | with_reducible apply Keeps.upd)

theorem afterPrtCfg_keeps {z : State} (s : State) (n : Nat) (hz : Keeps z s) :
    Keeps z (afterPrtCfg s n) := by
  unfold afterPrtCfg; try dsimp only
  repeat' (first | with_reducible assumption | with_reducible apply portLinkChange_keeps | with_reducible apply Keeps.foldl | with_reducible apply Keeps.foldl_snd | with_reducible apply Keeps.foldl_fst | with_reducible apply Keeps.foldl_snd_snd | (intro _ _ _) | (intro _ _) | (intro _) | split | with_reducible apply Keeps.upd)

theorem afterSqCfg_keeps {z : State} (s : State) (q v : Nat) (hz : Keeps z s) :
    Keeps z (afterSqCfg s q v) := by
  unfold afterSqCfg; try dsimp only
  repeat' (first | with_reducible assumption | with_reducible apply queueRewindPacket_keeps | with_reducible apply queueFlush_keeps | (intro _ _ _) | (intro _ _) | (intro _) | split | with_reducible apply Keeps.upd)

theorem afterCtxc_keeps {z : State} (s : State) (hz : Keeps z s) :
    Keeps z (afterCtxc s) := by
  unfold afterCtxc; try dsimp only
  repeat' (first | with_reducible assumption | with_reducible apply evictFrame_keeps | with_reducible apply Keeps.foldl | with_reducible apply Keeps.foldl_snd | with_reducible apply Keeps.foldl_fst | with_reducible apply Keeps.foldl_snd_snd | (intro _ _ _) | (intro _ _) | (intro _) | split | with_reducible apply Keeps.upd)

theorem afterFctCtl_keeps {z : State} (s : State) (was : Bool) (r : Reg) (v : Nat) (hz : Keeps z s) :
    Keeps z (afterFctCtl s was r v) := by
  unfold afterFctCtl; try dsimp only
  repeat' (first | with_reducible assumption | with_reducible apply measExtend_keeps | (intro _ _ _) | (intro _ _) | (intro _) | split | with_reducible apply Keeps.upd)

theorem afterSpnLink_keeps {z : State} (s : State) (k v : Nat) (hz : Keeps z s) :
    Keeps z (afterSpnLink s k v) := by
  unfold afterSpnLink; try dsimp only
  repeat' (first | with_reducible assumption | with_reducible apply linkEnable_keeps | with_reducible apply linkDisable_keeps | with_reducible apply linkRetrain_keeps | (intro _ _ _) | (intro _ _) | (intro _) | split | with_reducible apply Keeps.upd)

theorem afterCrnCtl_keeps {z : State} (s : State) (old v : Nat) (hz : Keeps z s) :
    Keeps z (afterCrnCtl s old v) := by
  unfold afterCrnCtl; try dsimp only
  repeat' (first | with_reducible assumption | with_reducible apply kick_keeps | with_reducible apply Keeps.foldl | with_reducible apply Keeps.foldl_snd | with_reducible apply Keeps.foldl_fst | with_reducible apply Keeps.foldl_snd_snd | (intro _ _ _) | (intro _ _) | (intro _) | split | with_reducible apply Keeps.upd)

theorem writeOpkey_keeps {z : State} (s : State) (j v : Nat) (hz : Keeps z s) :
    Keeps z (writeOpkey s j v) := by
  unfold writeOpkey; try dsimp only
  repeat' (first | with_reducible assumption | with_reducible apply opkeyEnable_keeps | with_reducible apply trsRotate_keeps | (intro _ _ _) | (intro _ _) | (intro _) | split | with_reducible apply Keeps.upd)

theorem writeTrsCtl_keeps {z : State} (s : State) (v : Nat) (hz : Keeps z s) :
    Keeps z (writeTrsCtl s v) := by
  unfold writeTrsCtl; try dsimp only
  repeat' (first | with_reducible assumption | with_reducible apply signerEnable_keeps | with_reducible apply trsRelease_keeps | (intro _ _ _) | (intro _ _) | (intro _) | split | with_reducible apply Keeps.upd)

theorem writeTrsCfg_keeps {z : State} (s : State) (v : Nat) (hz : Keeps z s) :
    Keeps z (writeTrsCfg s v) := by
  unfold writeTrsCfg; try dsimp only
  repeat' (first | with_reducible assumption | with_reducible apply trsSave_keeps | with_reducible apply trsFactory_keeps | (intro _ _ _) | (intro _ _) | (intro _) | split | with_reducible apply Keeps.upd)

theorem applyWrite_keeps {z : State} (s : State) (row : RegRow) (r : Reg) (v : Nat) (hz : Keeps z s) :
    Keeps z (applyWrite s row r v) := by
  unfold applyWrite; try dsimp only
  repeat' (first | with_reducible assumption | with_reducible apply afterPrtCfg_keeps | with_reducible apply plainWrite_keeps | with_reducible apply flushTable_keeps | with_reducible apply flushOrds_keeps | with_reducible apply afterSqCfg_keeps | with_reducible apply afterCtxc_keeps | with_reducible apply afterFctCtl_keeps | with_reducible apply bistRequest_keeps | with_reducible apply mirWrite_keeps | with_reducible apply afterSpnLink_keeps | with_reducible apply afterCrnCtl_keeps | with_reducible apply flashMod_keeps | with_reducible apply writeTrsCtl_keeps | with_reducible apply writeTrsCfg_keeps | with_reducible apply writeOpkey_keeps | with_reducible refine Keeps.getD (fun t e => signerWrite_keeps ?_ e) ?_ | with_reducible apply obsDbgWrite_keeps | (intro _ _ _) | (intro _ _) | (intro _) | split | with_reducible apply Keeps.upd)

theorem writeReg_keeps {z : State} (s : State) (a v : Nat) (hz : Keeps z s) :
    Keeps z (writeReg s a v) := by
  unfold writeReg; try dsimp only
  repeat' (first | with_reducible assumption | with_reducible apply applyWrite_keeps | (intro _ _ _) | (intro _ _) | (intro _) | split | with_reducible apply Keeps.upd)

theorem rowWrite_keeps {z : State} (s : State) (r : Reg) (v : Nat) (hz : Keeps z s) :
    Keeps z (rowWrite s r v) := by
  unfold rowWrite; try dsimp only
  repeat' (first | with_reducible assumption | with_reducible apply applyWrite_keeps | (intro _ _ _) | (intro _ _) | (intro _) | split | with_reducible apply Keeps.upd)

theorem regRead_keeps {z : State} (s : State) (role : Role) (f : CmdFrame) (hz : Keeps z s) :
    Keeps z (regRead s role f).2 := by
  unfold regRead; try dsimp only
  repeat' (first | with_reducible assumption | with_reducible apply refuse_keeps | with_reducible apply readClear_keeps | with_reducible refine Keeps.of_snd (by with_reducible assumption) ?_ | with_reducible apply Keeps.foldl | with_reducible apply Keeps.foldl_snd | with_reducible apply Keeps.foldl_fst | with_reducible apply Keeps.foldl_snd_snd | (dsimp only) | (intro _ _ _) | (intro _ _) | (intro _) | split | with_reducible apply Keeps.upd)

theorem writeRegs_keeps {z : State} (s : State) (role : Role) (l : List (Nat × Nat)) (hz : Keeps z s) :
    Keeps z (writeRegs s role l).2 := by
  induction l generalizing s role with
  | nil =>
    unfold writeRegs; try dsimp only
    repeat' (first | (cases ‹_ + 1 = _ + 1›) | with_reducible assumption | with_reducible apply writeReg_keeps | with_reducible apply ih | with_reducible refine Keeps.of_snd (by with_reducible assumption) ?_ | (dsimp only) | (intro _ _ _) | (intro _ _) | (intro _) | split | with_reducible apply Keeps.upd)
  | cons x l ih =>
    unfold writeRegs; try dsimp only
    repeat' (first | (cases ‹_ + 1 = _ + 1›) | with_reducible assumption | with_reducible apply writeReg_keeps | with_reducible apply ih | with_reducible refine Keeps.of_snd (by with_reducible assumption) ?_ | (dsimp only) | (intro _ _ _) | (intro _ _) | (intro _) | split | with_reducible apply Keeps.upd)

theorem regWrite_keeps {z : State} (s : State) (role : Role) (f : CmdFrame) (hz : Keeps z s) :
    Keeps z (regWrite s role f).2 := by
  unfold regWrite; try dsimp only
  repeat' (first | with_reducible assumption | with_reducible apply refuse_keeps | with_reducible apply writeRegs_keeps | with_reducible refine Keeps.of_snd (by with_reducible assumption) ?_ | (dsimp only) | (intro _ _ _) | (intro _ _) | (intro _) | split | with_reducible apply Keeps.upd)

theorem flushRow_keeps {z : State} (s : State) (q : Nat) (hz : Keeps z s) :
    Keeps z (flushRow s q) := by
  unfold flushRow; try dsimp only
  repeat' (first | with_reducible assumption | with_reducible apply rowWrite_keeps | (intro _ _ _) | (intro _ _) | (intro _) | split | with_reducible apply Keeps.upd)

theorem routeWriteRow_keeps {z : State} (s : State) (i v : Nat) (hz : Keeps z s) :
    Keeps z (routeWriteRow s i v) := by
  unfold routeWriteRow; try dsimp only
  repeat' (first | with_reducible assumption | with_reducible apply rowWrite_keeps | (intro _ _ _) | (intro _ _) | (intro _) | split | with_reducible apply Keeps.upd)

theorem bistRequestRow_keeps {z : State} (s : State) (k : Nat) (hz : Keeps z s) :
    Keeps z (bistRequestRow s k) := by
  unfold bistRequestRow; try dsimp only
  repeat' (first | with_reducible assumption | with_reducible apply rowWrite_keeps | (intro _ _ _) | (intro _ _) | (intro _) | split | with_reducible apply Keeps.upd)

theorem mirrorEnableRow_keeps {z : State} (s : State) (st i base size : Nat) (hz : Keeps z s) :
    Keeps z (mirrorEnableRow s st i base size) := by
  unfold mirrorEnableRow; try dsimp only
  repeat' (first | with_reducible assumption | with_reducible apply rowWrite_keeps | (intro _ _ _) | (intro _ _) | (intro _) | split | with_reducible apply Keeps.upd)

theorem linkEnableRow_keeps {z : State} (s : State) (k : Nat) (hz : Keeps z s) :
    Keeps z (linkEnableRow s k) := by
  unfold linkEnableRow; try dsimp only
  repeat' (first | with_reducible assumption | with_reducible apply rowWrite_keeps | (intro _ _ _) | (intro _ _) | (intro _) | split | with_reducible apply Keeps.upd)

theorem linkRetrainRow_keeps {z : State} (s : State) (k : Nat) (hz : Keeps z s) :
    Keeps z (linkRetrainRow s k) := by
  unfold linkRetrainRow; try dsimp only
  repeat' (first | with_reducible assumption | with_reducible apply rowWrite_keeps | (intro _ _ _) | (intro _ _) | (intro _) | split | with_reducible apply Keeps.upd)

theorem releaseRow_keeps {z : State} (s : State) (hz : Keeps z s) :
    Keeps z (releaseRow s) := by
  unfold releaseRow; try dsimp only
  repeat' (first | with_reducible assumption | with_reducible apply rowWrite_keeps | (intro _ _ _) | (intro _ _) | (intro _) | split | with_reducible apply Keeps.upd)

theorem rotateRow_keeps {z : State} (s : State) (j : Nat) (hz : Keeps z s) :
    Keeps z (rotateRow s j) := by
  unfold rotateRow; try dsimp only
  repeat' (first | with_reducible assumption | with_reducible apply rowWrite_keeps | (intro _ _ _) | (intro _ _) | (intro _) | split | with_reducible apply Keeps.upd)

theorem opkeyRow_keeps {z : State} (s : State) (j : Nat) (en : Bool) (hz : Keeps z s) :
    Keeps z (opkeyRow s j en) := by
  unfold opkeyRow; try dsimp only
  repeat' (first | with_reducible assumption | with_reducible apply rowWrite_keeps | (intro _ _ _) | (intro _ _) | (intro _) | split | with_reducible apply Keeps.upd)

theorem saveRow_keeps {z : State} (s : State) (hz : Keeps z s) :
    Keeps z (saveRow s) := by
  unfold saveRow; try dsimp only
  repeat' (first | with_reducible assumption | with_reducible apply rowWrite_keeps | (intro _ _ _) | (intro _ _) | (intro _) | split | with_reducible apply Keeps.upd)

theorem factoryRow_keeps {z : State} (s : State) (hz : Keeps z s) :
    Keeps z (factoryRow s) := by
  unfold factoryRow; try dsimp only
  repeat' (first | with_reducible assumption | with_reducible apply rowWrite_keeps | (intro _ _ _) | (intro _ _) | (intro _) | split | with_reducible apply Keeps.upd)

theorem armRow_keeps {z : State} (s : State) (at_ flips : Nat) (t2 : Bool) (hz : Keeps z s) :
    Keeps z (armRow s at_ flips t2) := by
  unfold armRow; try dsimp only
  repeat' (first | with_reducible assumption | with_reducible apply regPut_keeps | with_reducible apply tendArm_keeps | with_reducible apply regPutF_keeps | (intro _ _ _) | (intro _ _) | (intro _) | split | with_reducible apply Keeps.upd)

theorem evacRow_keeps {z : State} (s : State) (k base : Nat) (done : Bool) (hz : Keeps z s) :
    Keeps z (evacRow s k base done) := by
  unfold evacRow; try dsimp only
  repeat' (first | with_reducible assumption | with_reducible apply regPutF_keeps | with_reducible apply evacDone_keeps | (intro _ _ _) | (intro _ _) | (intro _) | split | with_reducible apply Keeps.upd)

end Sys2Proof.Machine
end

