-- ==== Sys2Proof/Laws/KeepsGctRun.lean ====
section
/-!
SUPPORT. The operations of GctRun keep the queue and the canonical form of the tables.
-/

namespace Sys2Proof.Machine

theorem handled_keeps {z : State} (a : Answer) (hz : Keeps z a.2) :
    Keeps z (handled a).2 := by
  unfold handled; try dsimp only
  repeat' (first | with_reducible assumption | (dsimp only) | (intro _ _ _) | (intro _ _) | (intro _) | split | with_reducible apply Keeps.upd)

theorem refused_keeps {z : State} (s : State) (status : Nat) (hz : Keeps z s) :
    Keeps z (refused s status).2 := by
  unfold refused; try dsimp only
  repeat' (first | with_reducible assumption | (dsimp only) | (intro _ _ _) | (intro _ _) | (intro _) | split | with_reducible apply Keeps.upd)

theorem bare_keeps {z : State} (s : State) (f : CmdFrame) (h : Handled) (hz : Keeps z s) (hz1 : Keeps z h.2) :
    Keeps z (bare s f h).2 := by
  unfold bare; try dsimp only
  repeat' (first | with_reducible assumption | with_reducible apply refused_keeps | with_reducible refine Keeps.of_snd (by with_reducible assumption) ?_ | (dsimp only) | (intro _ _ _) | (intro _ _) | (intro _) | split | with_reducible apply Keeps.upd)

theorem moveTo_keeps {z : State} (s : State) (f : CmdFrame) (d : DevState) (hz : Keeps z s) :
    Keeps z (moveTo s f d).2 := by
  unfold moveTo; try dsimp only
  repeat' (first | with_reducible assumption | with_reducible apply bare_keeps | with_reducible apply handled_keeps | with_reducible apply enterState_keeps | with_reducible refine Keeps.of_snd (by with_reducible assumption) ?_ | (dsimp only) | (intro _ _ _) | (intro _ _) | (intro _) | split | with_reducible apply Keeps.upd)

theorem stopCmd_keeps {z : State} (s : State) (f : CmdFrame) (hz : Keeps z s) :
    Keeps z (stopCmd s f).2 := by
  unfold stopCmd; try dsimp only
  repeat' (first | with_reducible assumption | with_reducible apply bare_keeps | with_reducible apply requestStop_keeps | with_reducible refine Keeps.of_snd (by with_reducible assumption) ?_ | (dsimp only) | (intro _ _ _) | (intro _ _) | (intro _) | split | with_reducible apply Keeps.upd)

theorem freeSlot_keeps {z : State} (s : State) (n : Nat) (hz : Keeps z s) :
    Keeps z (freeSlot s n) := by
  unfold freeSlot; try dsimp only
  repeat' (first | with_reducible assumption | (intro _ _ _) | (intro _ _) | (intro _) | split | with_reducible apply Keeps.upd)

theorem dropSlot_keeps {z : State} (s : State) (n : Nat) (hz : Keeps z s) :
    Keeps z (dropSlot s n) := by
  unfold dropSlot; try dsimp only
  repeat' (first | with_reducible assumption | with_reducible apply freeSlot_keeps | with_reducible apply cancelContext_keeps | (intro _ _ _) | (intro _ _) | (intro _) | split | with_reducible apply Keeps.upd)

theorem tellGroup_keeps {z : State} (s : State) (kind : Nat) (hz : Keeps z s) :
    Keeps z (tellGroup s kind) := by
  unfold tellGroup; try dsimp only
  repeat' (first | with_reducible assumption | with_reducible apply broadcast_keeps | (intro _ _ _) | (intro _ _) | (intro _) | split | with_reducible apply Keeps.upd)

theorem applyReleases_keeps {z : State} (s : State) (hz : Keeps z s) :
    Keeps z (applyReleases s) := by
  unfold applyReleases; try dsimp only
  repeat' (first | with_reducible assumption | with_reducible apply dropSlot_keeps | with_reducible apply Keeps.foldl | with_reducible apply Keeps.foldl_snd | with_reducible apply Keeps.foldl_fst | with_reducible apply Keeps.foldl_snd_snd | (intro _ _ _) | (intro _ _) | (intro _) | split | with_reducible apply Keeps.upd)

theorem resumeNow_keeps {z : State} (s : State) (hz : Keeps z s) :
    Keeps z (resumeNow s) := by
  unfold resumeNow; try dsimp only
  repeat' (first | with_reducible assumption | with_reducible apply applyReleases_keeps | with_reducible apply enterState_keeps | with_reducible apply settleLate_keeps | with_reducible apply holdAdvance_keeps | with_reducible apply retryStateEvents_keeps | with_reducible apply tellGroup_keeps | (intro _ _ _) | (intro _ _) | (intro _) | split | with_reducible apply Keeps.upd)

theorem keepLocks_keeps {z : State} (s t : State) (hz : Keeps z s) (hz1 : Keeps z t) :
    Keeps z (keepLocks s t) := by
  unfold keepLocks; try dsimp only
  repeat' (first | with_reducible assumption | with_reducible apply lockBlock_keeps | with_reducible apply Keeps.foldl | with_reducible apply Keeps.foldl_snd | with_reducible apply Keeps.foldl_fst | with_reducible apply Keeps.foldl_snd_snd | (intro _ _ _) | (intro _ _) | (intro _) | split | with_reducible apply Keeps.upd)

theorem resetStopped_keeps {z : State} (s : State) (hz : Keeps z s) : Keeps z (resetStopped s) := by
  have h : Keeps z { s with regs := s.regs.filter (fun e => !addressStops e.1 || fringAddress e.1) } :=
    hz.setReg (fun h => fsorted_filter h _)
  unfold resetStopped
  dsimp only
  refine keepLocks_keeps _ _ hz ?_
  split
  · exact loadPairs_keeps _ _ h
  · exact h

theorem subscribe_keeps {z : State} (s : State) (i : Nat) (f : CmdFrame) (hz : Keeps z s) :
    Keeps z (subscribe s i f).2 := by
  unfold subscribe; try dsimp only
  repeat' (first | with_reducible assumption | with_reducible apply refuse_keeps | with_reducible refine Keeps.of_snd (by with_reducible assumption) ?_ | (dsimp only) | (intro _ _ _) | (intro _ _) | (intro _) | split | with_reducible apply Keeps.upd)

theorem runNew_keeps {z : State} (s : State) (x : Session) (f : CmdFrame) (hz : Keeps z s) :
    Keeps z (runNew s x f).2 := by
  unfold runNew; try dsimp only
  repeat' (first | with_reducible assumption | with_reducible apply refuse_keeps | with_reducible apply freeBits_keeps | with_reducible apply placeRun_keeps | with_reducible refine Keeps.of_snd (by with_reducible assumption) ?_ | (dsimp only) | (intro _ _ _) | (intro _ _) | (intro _) | split | with_reducible apply Keeps.upd)

theorem slotRead_keeps {z : State} (s : State) (role : Role) (f : CmdFrame) (hz : Keeps z s) :
    Keeps z (slotRead s role f).2 := by
  unfold slotRead; try dsimp only
  repeat' (first | with_reducible assumption | with_reducible apply refuse_keeps | with_reducible apply readCells_keeps | with_reducible refine Keeps.of_snd (by with_reducible assumption) ?_ | (dsimp only) | (intro _ _ _) | (intro _ _) | (intro _) | split | with_reducible apply Keeps.upd)

theorem slotRelease_keeps {z : State} (s : State) (role : Role) (f : CmdFrame) (hz : Keeps z s) :
    Keeps z (slotRelease s role f).2 := by
  unfold slotRelease; try dsimp only
  repeat' (first | with_reducible assumption | with_reducible apply refused_keeps | with_reducible apply freeSlot_keeps | with_reducible refine Keeps.of_snd (by with_reducible assumption) ?_ | (dsimp only) | (intro _ _ _) | (intro _ _) | (intro _) | split | with_reducible apply Keeps.upd)

theorem cancelComplete_keeps {z : State} (s : State) (n : Nat) (hz : Keeps z s) :
    Keeps z (cancelComplete s n) := by
  unfold cancelComplete; try dsimp only
  repeat' (first | with_reducible assumption | with_reducible apply answerWait_keeps | with_reducible apply dropSlot_keeps | (intro _ _ _) | (intro _ _) | (intro _) | split | with_reducible apply Keeps.upd)

theorem slotTtlExpiry_keeps {z : State} (s : State) (n : Nat) (hz : Keeps z s) :
    Keeps z (slotTtlExpiry s n) := by
  unfold slotTtlExpiry; try dsimp only
  repeat' (first | with_reducible assumption | with_reducible apply freeSlot_keeps | (intro _ _ _) | (intro _ _) | (intro _) | split | with_reducible apply Keeps.upd)

theorem memTranslate_keeps {z : State} (s : State) (f : CmdFrame) (need : Need) (hz : Keeps z s) :
    Keeps z (memTranslate s f need).2 := by
  unfold memTranslate; try dsimp only
  repeat' (first | with_reducible assumption | with_reducible apply unitSet_keeps | with_reducible apply translatePieces_keeps | with_reducible refine Keeps.of_snd (by with_reducible assumption) ?_ | (dsimp only) | (intro _ _ _) | (intro _ _) | (intro _) | split | with_reducible apply Keeps.upd)

theorem memRead_keeps {z : State} (s : State) (f : CmdFrame) (hz : Keeps z s) :
    Keeps z (memRead s f).2 := by
  unfold memRead; try dsimp only
  repeat' (first | with_reducible assumption | with_reducible apply refuse_keeps | with_reducible apply memTranslate_keeps | with_reducible apply bump_keeps | with_reducible apply readPieces_keeps | with_reducible refine Keeps.of_snd (by with_reducible assumption) ?_ | with_reducible refine Keeps.of_snd_snd (by with_reducible assumption) ?_ | (dsimp only) | (intro _ _ _) | (intro _ _) | (intro _) | split | with_reducible apply Keeps.upd)

theorem memWriteCmd_keeps {z : State} (s : State) (f : CmdFrame) (hz : Keeps z s) :
    Keeps z (memWriteCmd s f).2 := by
  unfold memWriteCmd; try dsimp only
  repeat' (first | with_reducible assumption | with_reducible apply refuse_keeps | with_reducible apply memTranslate_keeps | with_reducible apply bump_keeps | with_reducible apply writePieces_keeps | with_reducible refine Keeps.of_snd (by with_reducible assumption) ?_ | (dsimp only) | (intro _ _ _) | (intro _ _) | (intro _) | split | with_reducible apply Keeps.upd)

end Sys2Proof.Machine
end

