-- ==== Sys2Proof/Laws/KeepsGctModel.lean ====
section
/-!
SUPPORT. The operations of GctModel keep the queue and the canonical form of the tables.
-/

namespace Sys2Proof.Machine
theorem answerSession_keeps {z : State} (s : State) (i : Nat) (c : Completion) (hz : Keeps z s) :
    Keeps z (answerSession s i c) := by
  unfold answerSession; try dsimp only
  repeat' (first | with_reducible assumption | with_reducible apply sessionMod_keeps | (intro _ _ _) | (intro _ _) | (intro _) | split | with_reducible apply Keeps.upd)

theorem rewait_keeps {z : State} (s : State) (i : Nat) (w : ExecWait) (hz : Keeps z s) :
    Keeps z (rewait s i w) := by
  unfold rewait; try dsimp only
  repeat' (first | with_reducible assumption | with_reducible apply sessionMod_keeps | (intro _ _ _) | (intro _ _) | (intro _) | split | with_reducible apply Keeps.upd)

theorem ruleWriteCmd_keeps {z : State} (s : State) (f : CmdFrame) (hz : Keeps z s) :
    Keeps z (ruleWriteCmd s f).2 := by
  unfold ruleWriteCmd; try dsimp only
  repeat' (first | with_reducible assumption | with_reducible apply refused_keeps | with_reducible apply ruleWrite_keeps | with_reducible refine Keeps.of_snd (by with_reducible assumption) ?_ | (dsimp only) | (intro _ _ _) | (intro _ _) | (intro _) | split | with_reducible apply Keeps.upd)

theorem ruleSwapCmd_keeps {z : State} (s : State) (f : CmdFrame) (hz : Keeps z s) :
    Keeps z (ruleSwapCmd s f).2 := by
  unfold ruleSwapCmd; try dsimp only
  repeat' (first | with_reducible assumption | with_reducible apply refused_keeps | with_reducible apply ruleSwap_keeps | with_reducible refine Keeps.of_snd (by with_reducible assumption) ?_ | (dsimp only) | (intro _ _ _) | (intro _ _) | (intro _) | split | with_reducible apply Keeps.upd)

theorem retrySwaps_keeps {z : State} (s : State) (hz : Keeps z s) :
    Keeps z (retrySwaps s) := by
  unfold retrySwaps; try dsimp only
  repeat' (first | with_reducible assumption | with_reducible apply answerSession_keeps | with_reducible apply ruleSwap_keeps | with_reducible apply Keeps.foldl | with_reducible apply Keeps.foldl_snd | with_reducible apply Keeps.foldl_fst | with_reducible apply Keeps.foldl_snd_snd | (intro _ _ _) | (intro _ _) | (intro _) | split | with_reducible apply Keeps.upd)

theorem pinnedWriteApply_keeps {z : State} (s : State) (t : Nat) (hz : Keeps z s) :
    Keeps z (pinnedWriteApply s t) := by
  unfold pinnedWriteApply; try dsimp only
  repeat' (first | with_reducible assumption | with_reducible apply ruleWrite_keeps | with_reducible apply retrySwaps_keeps | with_reducible apply answerSession_keeps | with_reducible refine Keeps.of_snd (by with_reducible assumption) ?_ | (dsimp only) | (intro _ _ _) | (intro _ _) | (intro _) | split | with_reducible apply Keeps.upd)

theorem flowReadCmd_keeps {z : State} (s : State) (f : CmdFrame) (hz : Keeps z s) :
    Keeps z (flowReadCmd s f).2 := by
  unfold flowReadCmd; try dsimp only
  repeat' (first | with_reducible assumption | with_reducible apply flowRead_keeps | with_reducible apply refuse_keeps | with_reducible refine Keeps.of_snd (by with_reducible assumption) ?_ | (dsimp only) | (intro _ _ _) | (intro _ _) | (intro _) | split | with_reducible apply Keeps.upd)

theorem deleteNow_keeps {z : State} (s : State) (f : CmdFrame) (hz : Keeps z s) :
    Keeps z (deleteNow s f).2 := by
  unfold deleteNow; try dsimp only
  repeat' (first | with_reducible assumption | with_reducible apply flowDelete_keeps | with_reducible apply refused_keeps | with_reducible refine Keeps.of_snd (by with_reducible assumption) ?_ | (dsimp only) | (intro _ _ _) | (intro _ _) | (intro _) | split | with_reducible apply Keeps.upd)

theorem flowDeleteCmd_keeps {z : State} (s : State) (f : CmdFrame) (hz : Keeps z s) :
    Keeps z (flowDeleteCmd s f).2 := by
  unfold flowDeleteCmd; try dsimp only
  repeat' (first | with_reducible assumption | with_reducible apply refused_keeps | with_reducible apply deleteNow_keeps | with_reducible refine Keeps.of_snd (by with_reducible assumption) ?_ | (dsimp only) | (intro _ _ _) | (intro _ _) | (intro _) | split | with_reducible apply Keeps.upd)

theorem retryDeletes_keeps {z : State} (s : State) (hz : Keeps z s) :
    Keeps z (retryDeletes s) := by
  unfold retryDeletes; try dsimp only
  repeat' (first | with_reducible assumption | with_reducible apply deleteNow_keeps | with_reducible apply rewait_keeps | with_reducible refine Keeps.of_snd (by with_reducible assumption) ?_ | with_reducible apply Keeps.foldl | with_reducible apply Keeps.foldl_snd | with_reducible apply Keeps.foldl_fst | with_reducible apply Keeps.foldl_snd_snd | (dsimp only) | (intro _ _ _) | (intro _ _) | (intro _) | split | with_reducible apply Keeps.upd)

theorem notesSent_keeps {z : State} (s : State) (hz : Keeps z s) :
    Keeps z (notesSent s) := by
  unfold notesSent; try dsimp only
  repeat' (first | with_reducible assumption | with_reducible apply answerWait_keeps | (intro _ _ _) | (intro _ _) | (intro _) | split | with_reducible apply Keeps.upd)

theorem flowRecordEnqueue_keeps {z : State} (s : State) (i : Nat) (hz : Keeps z s) :
    Keeps z (flowRecordEnqueue s i) := by
  unfold flowRecordEnqueue; try dsimp only
  repeat' (first | with_reducible assumption | with_reducible apply notesSent_keeps | with_reducible apply drainNotes_keeps | (intro _ _ _) | (intro _ _) | (intro _) | split | with_reducible apply Keeps.upd)

theorem measureModel_keeps {z : State} (s : State) (head b : Bytes) (hz : Keeps z s) :
    Keeps z (measureModel s head b) := by
  unfold measureModel; try dsimp only
  repeat' (first | with_reducible assumption | with_reducible apply measExtend_keeps | (intro _ _ _) | (intro _ _) | (intro _) | split | with_reducible apply Keeps.upd)

theorem activated_keeps {z : State} (s : State) (f : CmdFrame) (img : Bytes) (hz : Keeps z s) :
    Keeps z (activated s f img) := by
  unfold activated; try dsimp only
  repeat' (first | with_reducible assumption | with_reducible apply measureModel_keeps | with_reducible apply imageUsed_keeps | (intro _ _ _) | (intro _ _) | (intro _) | split | with_reducible apply Keeps.upd)

theorem activateGrove_keeps {z : State} (s : State) (f : CmdFrame) (img sec : Bytes) (hz : Keeps z s) :
    Keeps z (activateGrove s f img sec).2 := by
  unfold activateGrove; try dsimp only
  repeat' (first | with_reducible assumption | with_reducible apply groveLoad_keeps | with_reducible apply activated_keeps | with_reducible apply refused_keeps | with_reducible refine Keeps.of_snd (by with_reducible assumption) ?_ | (dsimp only) | (intro _ _ _) | (intro _ _) | (intro _) | split | with_reducible apply Keeps.upd)

theorem switchPipe_keeps {z : State} (s : State) (i : Nat) (m : Tier2Model) (hz : Keeps z s) :
    Keeps z (switchPipe s i m) := by
  unfold switchPipe; try dsimp only
  repeat' (first | with_reducible assumption | with_reducible apply gateQueues_keeps | with_reducible apply regPutF_keeps | (intro _ _ _) | (intro _ _) | (intro _) | split | with_reducible apply Keeps.upd)

theorem tendWith_keeps {z : State} (s : State) (img : Bytes) (hz : Keeps z s) :
    Keeps z (tendWith s img) := by
  unfold tendWith; try dsimp only
  repeat' (first | with_reducible assumption | (intro _ _ _) | (intro _ _) | (intro _) | split | with_reducible apply Keeps.upd)

theorem activateTier2_keeps {z : State} (s : State) (f : CmdFrame) (img sec : Bytes) (hz : Keeps z s) :
    Keeps z (activateTier2 s f img sec).2 := by
  unfold activateTier2; try dsimp only
  repeat' (first | with_reducible assumption | with_reducible apply refused_keeps | with_reducible apply switchPipe_keeps | with_reducible apply activated_keeps | with_reducible apply tendWith_keeps | with_reducible refine Keeps.of_snd (by with_reducible assumption) ?_ | with_reducible apply Keeps.foldl | with_reducible apply Keeps.foldl_snd | with_reducible apply Keeps.foldl_fst | with_reducible apply Keeps.foldl_snd_snd | (dsimp only) | (intro _ _ _) | (intro _ _) | (intro _) | split | with_reducible apply Keeps.upd)

theorem placeTier3_keeps {z : State} (s : State) (f : CmdFrame) (img sec : Bytes) (hz : Keeps z s) :
    Keeps z (placeTier3 s f img sec) := by
  unfold placeTier3; try dsimp only
  repeat' (first | with_reducible assumption | with_reducible apply activated_keeps | (intro _ _ _) | (intro _ _) | (intro _) | split | with_reducible apply Keeps.upd)

theorem activateTier3_keeps {z : State} (s : State) (f : CmdFrame) (img sec : Bytes) (hz : Keeps z s) :
    Keeps z (activateTier3 s f img sec).2 := by
  unfold activateTier3; try dsimp only
  repeat' (first | with_reducible assumption | with_reducible apply refused_keeps | with_reducible apply placeTier3_keeps | with_reducible refine Keeps.of_snd (by with_reducible assumption) ?_ | (dsimp only) | (intro _ _ _) | (intro _ _) | (intro _) | split | with_reducible apply Keeps.upd)

theorem activateUnload_keeps {z : State} (s : State) (f : CmdFrame) (hz : Keeps z s) :
    Keeps z (activateUnload s f).2 := by
  unfold activateUnload; try dsimp only
  repeat' (first | with_reducible assumption | with_reducible apply refused_keeps | with_reducible refine Keeps.of_snd (by with_reducible assumption) ?_ | (dsimp only) | (intro _ _ _) | (intro _ _) | (intro _) | split | with_reducible apply Keeps.upd)

theorem modelActivate_keeps {z : State} (s : State) (f : CmdFrame) (hz : Keeps z s) :
    Keeps z (modelActivate s f).2 := by
  unfold modelActivate; try dsimp only
  repeat' (first | with_reducible assumption | with_reducible apply refused_keeps | with_reducible apply activateUnload_keeps | with_reducible apply sigBad_keeps | with_reducible apply activateGrove_keeps | with_reducible apply activateTier2_keeps | with_reducible apply activateTier3_keeps | with_reducible refine Keeps.of_snd (by with_reducible assumption) ?_ | (dsimp only) | (intro _ _ _) | (intro _ _) | (intro _) | split | with_reducible apply Keeps.upd)

theorem unloaded_keeps {z : State} (s : State) (n : Nat) (hz : Keeps z s) :
    Keeps z (unloaded s n) := by
  unfold unloaded; try dsimp only
  repeat' (first | with_reducible assumption | with_reducible apply measureModel_keeps | with_reducible apply answerWait_keeps | with_reducible apply Keeps.foldl | with_reducible apply Keeps.foldl_snd | with_reducible apply Keeps.foldl_fst | with_reducible apply Keeps.foldl_snd_snd | (intro _ _ _) | (intro _ _) | (intro _) | split | with_reducible apply Keeps.upd)

theorem unloadComplete_keeps {z : State} (s : State) (n : Nat) (hz : Keeps z s) :
    Keeps z (unloadComplete s n) := by
  unfold unloadComplete; try dsimp only
  repeat' (first | with_reducible assumption | with_reducible apply unloaded_keeps | with_reducible apply groveFree_keeps | (intro _ _ _) | (intro _ _) | (intro _) | split | with_reducible apply Keeps.upd)

theorem retryPlaces_keeps {z : State} (s : State) (hz : Keeps z s) :
    Keeps z (retryPlaces s) := by
  unfold retryPlaces; try dsimp only
  repeat' (first | with_reducible assumption | with_reducible apply answerSession_keeps | with_reducible apply placeTier3_keeps | with_reducible apply Keeps.foldl | with_reducible apply Keeps.foldl_snd | with_reducible apply Keeps.foldl_fst | with_reducible apply Keeps.foldl_snd_snd | (intro _ _ _) | (intro _ _) | (intro _) | split | with_reducible apply Keeps.upd)

theorem settleWaits_keeps {z : State} (s : State) (hz : Keeps z s) :
    Keeps z (settleWaits s) := by
  unfold settleWaits; try dsimp only
  repeat' (first | with_reducible assumption | with_reducible apply unloadComplete_keeps | with_reducible apply pinnedWriteApply_keeps | with_reducible apply retryPlaces_keeps | with_reducible apply retryDeletes_keeps | with_reducible apply notesSent_keeps | with_reducible apply Keeps.foldl | with_reducible apply Keeps.foldl_snd | with_reducible apply Keeps.foldl_fst | with_reducible apply Keeps.foldl_snd_snd | (intro _ _ _) | (intro _ _) | (intro _) | split | with_reducible apply Keeps.upd)

theorem maintEnter_keeps {z : State} (s : State) (f : CmdFrame) (hz : Keeps z s) :
    Keeps z (maintEnter s f).2 := by
  unfold maintEnter; try dsimp only
  repeat' (first | with_reducible assumption | with_reducible apply settleWaits_keeps | with_reducible apply applyReleases_keeps | with_reducible apply resetStopped_keeps | with_reducible apply enterState_keeps | with_reducible apply bare_keeps | with_reducible apply handled_keeps | with_reducible apply retryStateEvents_keeps | with_reducible refine Keeps.of_snd (by with_reducible assumption) ?_ | (dsimp only) | (intro _ _ _) | (intro _ _) | (intro _) | split | with_reducible apply Keeps.upd)

theorem appCores_keeps {z : State} (s : State) (hz : Keeps z s) :
    Keeps z (appCores s) := by
  unfold appCores; try dsimp only
  repeat' (first | with_reducible assumption | with_reducible apply regPutF_keeps | with_reducible apply Keeps.foldl | with_reducible apply Keeps.foldl_snd | with_reducible apply Keeps.foldl_fst | with_reducible apply Keeps.foldl_snd_snd | (intro _ _ _) | (intro _ _) | (intro _) | split | with_reducible apply Keeps.upd)

theorem appLoad_keeps {z : State} (s : State) (f : CmdFrame) (hz : Keeps z s) :
    Keeps z (appLoad s f).2 := by
  unfold appLoad; try dsimp only
  repeat' (first | with_reducible assumption | with_reducible apply refuse_keeps | with_reducible apply sigBad_keeps | with_reducible apply regPut_keeps | with_reducible apply measExtend_keeps | with_reducible apply appCores_keeps | with_reducible apply imageUsed_keeps | with_reducible refine Keeps.of_snd (by with_reducible assumption) ?_ | (dsimp only) | (intro _ _ _) | (intro _ _) | (intro _) | split | with_reducible apply Keeps.upd)

theorem appUnload_keeps {z : State} (s : State) (f : CmdFrame) (hz : Keeps z s) :
    Keeps z (appUnload s f).2 := by
  unfold appUnload; try dsimp only
  repeat' (first | with_reducible assumption | with_reducible apply regPut_keeps | with_reducible apply runReady_keeps | with_reducible apply cancelContext_keeps | with_reducible apply appCores_keeps | with_reducible apply Keeps.foldl | with_reducible apply Keeps.foldl_snd | with_reducible apply Keeps.foldl_fst | with_reducible apply Keeps.foldl_snd_snd | (dsimp only) | (intro _ _ _) | (intro _ _) | (intro _) | split | with_reducible apply Keeps.upd)

theorem appCmd_keeps {z : State} (s : State) (f : CmdFrame) (hz : Keeps z s) :
    Keeps z (appCmd s f).2 := by
  unfold appCmd; try dsimp only
  repeat' (first | with_reducible assumption | with_reducible apply refuse_keeps | with_reducible apply appLoad_keeps | with_reducible apply appUnload_keeps | with_reducible refine Keeps.of_snd (by with_reducible assumption) ?_ | (dsimp only) | (intro _ _ _) | (intro _ _) | (intro _) | split | with_reducible apply Keeps.upd)

theorem trainEnabled_keeps {z : State} (s : State) (hz : Keeps z s) :
    Keeps z (trainEnabled s) := by
  unfold trainEnabled; try dsimp only
  repeat' (first | with_reducible assumption | with_reducible apply linkEnable_keeps | with_reducible apply Keeps.foldl | with_reducible apply Keeps.foldl_snd | with_reducible apply Keeps.foldl_fst | with_reducible apply Keeps.foldl_snd_snd | (intro _ _ _) | (intro _ _) | (intro _) | split | with_reducible apply Keeps.upd)

theorem spanAttach_keeps {z : State} (s : State) (f : CmdFrame) (hz : Keeps z s) :
    Keeps z (spanAttach s f).2 := by
  unfold spanAttach; try dsimp only
  repeat' (first | with_reducible assumption | with_reducible apply refuse_keeps | with_reducible apply regPut_keeps | with_reducible apply measureSpan_keeps | with_reducible apply trainEnabled_keeps | with_reducible refine Keeps.of_snd (by with_reducible assumption) ?_ | with_reducible apply Keeps.foldl | with_reducible apply Keeps.foldl_snd | with_reducible apply Keeps.foldl_fst | with_reducible apply Keeps.foldl_snd_snd | (dsimp only) | (intro _ _ _) | (intro _ _) | (intro _) | split | with_reducible apply Keeps.upd)

theorem spanEpoch_keeps {z : State} (s : State) (f : CmdFrame) (hz : Keeps z s) :
    Keeps z (spanEpoch s f).2 := by
  unfold spanEpoch; try dsimp only
  repeat' (first | with_reducible assumption | with_reducible apply refused_keeps | with_reducible apply startEpoch_keeps | with_reducible refine Keeps.of_snd (by with_reducible assumption) ?_ | (dsimp only) | (intro _ _ _) | (intro _ _) | (intro _) | split | with_reducible apply Keeps.upd)

theorem spanDetach_keeps {z : State} (s : State) (f : CmdFrame) (hz : Keeps z s) :
    Keeps z (spanDetach s f).2 := by
  unfold spanDetach; try dsimp only
  repeat' (first | with_reducible assumption | with_reducible apply refuse_keeps | with_reducible apply regPut_keeps | with_reducible apply setLinkState_keeps | with_reducible refine Keeps.of_snd (by with_reducible assumption) ?_ | with_reducible apply Keeps.foldl | with_reducible apply Keeps.foldl_snd | with_reducible apply Keeps.foldl_fst | with_reducible apply Keeps.foldl_snd_snd | (dsimp only) | (intro _ _ _) | (intro _ _) | (intro _) | split | with_reducible apply Keeps.upd)

theorem spanQuery_keeps {z : State} (s : State) (f : CmdFrame) (hz : Keeps z s) :
    Keeps z (spanQuery s f).2 := by
  unfold spanQuery; try dsimp only
  repeat' (first | with_reducible assumption | with_reducible apply refuse_keeps | with_reducible refine Keeps.of_snd (by with_reducible assumption) ?_ | (dsimp only) | (intro _ _ _) | (intro _ _) | (intro _) | split | with_reducible apply Keeps.upd)

theorem spanMember_keeps {z : State} (s : State) (f : CmdFrame) (hz : Keeps z s) :
    Keeps z (spanMember s f).2 := by
  unfold spanMember; try dsimp only
  repeat' (first | with_reducible assumption | with_reducible apply refused_keeps | with_reducible apply handled_keeps | with_reducible apply spanAttach_keeps | with_reducible apply spanEpoch_keeps | with_reducible apply spanDetach_keeps | with_reducible apply spanQuery_keeps | with_reducible refine Keeps.of_snd (by with_reducible assumption) ?_ | (dsimp only) | (intro _ _ _) | (intro _ _) | (intro _) | split | with_reducible apply Keeps.upd)

end Sys2Proof.Machine
end

