-- ==== Sys2Proof/Laws/KeepsGct.lean ====
section
/-!
SUPPORT. The operations of Gct keep the queue and the canonical form of the tables.
-/

namespace Sys2Proof.Machine
theorem runOpcode_keeps {z : State} (s : State) (i : Nat) (x : Session) (f : CmdFrame) (hz : Keeps z s) :
    Keeps z (runOpcode s i x f).2 := by
  unfold runOpcode; try dsimp only
  repeat' (first | with_reducible assumption | with_reducible apply bare_keeps | with_reducible apply handled_keeps | with_reducible apply regRead_keeps | with_reducible apply regWrite_keeps | with_reducible apply memRead_keeps | with_reducible apply memWriteCmd_keeps | with_reducible apply moveTo_keeps | with_reducible apply stopCmd_keeps | with_reducible apply resumeNow_keeps | with_reducible apply maintEnter_keeps | with_reducible apply modeSet_keeps | with_reducible apply subscribe_keeps | with_reducible apply ruleWriteCmd_keeps | with_reducible apply ruleSwapCmd_keeps | with_reducible apply flowReadCmd_keeps | with_reducible apply flowDeleteCmd_keeps | with_reducible apply runNew_keeps | with_reducible apply slotRead_keeps | with_reducible apply slotRelease_keeps | with_reducible apply imageStage_keeps | with_reducible apply modelActivate_keeps | with_reducible apply firmwareStage_keeps | with_reducible apply firmwareActivate_keeps | with_reducible apply flashRead_keeps | with_reducible apply flashWrite_keeps | with_reducible apply flashErase_keeps | with_reducible apply attestQuote_keeps | with_reducible apply auditRead_keeps | with_reducible apply counterRead_keeps | with_reducible apply traceCtl_keeps | with_reducible apply scanOut_keeps | with_reducible apply spanMember_keeps | with_reducible apply appCmd_keeps | with_reducible apply refused_keeps | with_reducible refine Keeps.of_snd (by with_reducible assumption) ?_ | (dsimp only) | (intro _ _ _) | (intro _ _) | (intro _) | split | with_reducible apply Keeps.upd)

theorem execute_keeps {z : State} (s : State) (i : Nat) (x : Session) (f : CmdFrame) (hz : Keeps z s) :
    Keeps z (execute s i x f).2 := by
  unfold execute; try dsimp only
  repeat' (first | with_reducible assumption | with_reducible apply refused_keeps | with_reducible apply runOpcode_keeps | with_reducible refine Keeps.of_snd (by with_reducible assumption) ?_ | (dsimp only) | (intro _ _ _) | (intro _ _) | (intro _) | split | with_reducible apply Keeps.upd)

theorem setExec_keeps {z : State} (s : State) (i : Nat) (x : Session) (f : CmdFrame) (w : ExecWait) (hz : Keeps z s) :
    Keeps z (setExec s i x f w) := by
  unfold setExec; try dsimp only
  repeat' (first | with_reducible assumption | with_reducible apply sessionMod_keeps | (intro _ _ _) | (intro _ _) | (intro _) | split | with_reducible apply Keeps.upd)

theorem beginCmd_keeps {z : State} (s : State) (i : Nat) (f : CmdFrame) (hz : Keeps z s) :
    Keeps z (beginCmd s i f) := by
  unfold beginCmd; try dsimp only
  repeat' (first | with_reducible assumption | with_reducible apply setExec_keeps | with_reducible apply execute_keeps | with_reducible apply takeFault_keeps | with_reducible apply rewait_keeps | with_reducible refine Keeps.of_snd (by with_reducible assumption) ?_ | (dsimp only) | (intro _ _ _) | (intro _ _) | (intro _) | split | with_reducible apply Keeps.upd)

theorem suppress_keeps {z : State} (s : State) (session : Nat) (muted : Bool) (hz : Keeps z s) :
    Keeps z (suppress s session muted) := by
  unfold suppress; try dsimp only
  repeat' (first | with_reducible assumption | with_reducible apply bump_keeps | with_reducible apply auditEvent_keeps | (intro _ _ _) | (intro _ _) | (intro _) | split | with_reducible apply Keeps.upd)

theorem authFail_keeps {z : State} (s : State) (i : Nat) (x : Session) (f : CmdFrame) (hz : Keeps z s) :
    Keeps z (authFail s i x f) := by
  unfold authFail; try dsimp only
  repeat' (first | with_reducible assumption | with_reducible apply sessionMod_keeps | with_reducible apply suppress_keeps | with_reducible apply answerNow_keeps | (intro _ _ _) | (intro _ _) | (intro _) | split | with_reducible apply Keeps.upd)

theorem openFail_keeps {z : State} (s : State) (f : CmdFrame) (w : ExecWait) (hz : Keeps z s) :
    Keeps z (openFail s f w) := by
  unfold openFail; try dsimp only
  repeat' (first | with_reducible assumption | with_reducible apply suppress_keeps | with_reducible apply answerNow_keeps | (intro _ _ _) | (intro _ _) | (intro _) | split | with_reducible apply Keeps.upd)

theorem openCmd_keeps {z : State} (s : State) (f : CmdFrame) (hz : Keeps z s) :
    Keeps z (openCmd s f) := by
  unfold openCmd; try dsimp only
  repeat' (first | with_reducible assumption | with_reducible apply sessionStart_keeps | with_reducible apply openFail_keeps | with_reducible apply answerNow_keeps | with_reducible refine Keeps.of_snd_snd (by with_reducible assumption) ?_ | (dsimp only) | (intro _ _ _) | (intro _ _) | (intro _) | split | with_reducible apply Keeps.upd)

theorem duplicateCmd_keeps {z : State} (s : State) (x : Session) (f : CmdFrame) (hz : Keeps z s) :
    Keeps z (duplicateCmd s x f) := by
  unfold duplicateCmd; try dsimp only
  repeat' (first | with_reducible assumption | with_reducible apply answerNow_keeps | (intro _ _ _) | (intro _ _) | (intro _) | split | with_reducible apply Keeps.upd)

theorem acceptCmd_keeps {z : State} (s : State) (i : Nat) (x : Session) (f : CmdFrame) (hz : Keeps z s) :
    Keeps z (acceptCmd s i x f) := by
  unfold acceptCmd; try dsimp only
  repeat' (first | with_reducible assumption | with_reducible apply sessionMod_keeps | with_reducible apply answerNow_keeps | with_reducible apply beginCmd_keeps | (intro _ _ _) | (intro _ _) | (intro _) | split | with_reducible apply Keeps.upd)

theorem sessionCmd_keeps {z : State} (s : State) (i : Nat) (x : Session) (f : CmdFrame) (hz : Keeps z s) :
    Keeps z (sessionCmd s i x f) := by
  unfold sessionCmd; try dsimp only
  repeat' (first | with_reducible assumption | with_reducible apply answerNow_keeps | with_reducible apply authFail_keeps | with_reducible apply duplicateCmd_keeps | with_reducible apply acceptCmd_keeps | (intro _ _ _) | (intro _ _) | (intro _) | split | with_reducible apply Keeps.upd)

theorem admitFrame_keeps {z : State} (s : State) (f : CmdFrame) (hz : Keeps z s) :
    Keeps z (admitFrame s f) := by
  unfold admitFrame; try dsimp only
  repeat' (first | with_reducible assumption | with_reducible apply takeSlice_keeps | with_reducible refine Keeps.of_snd (by with_reducible assumption) ?_ | (dsimp only) | (intro _ _ _) | (intro _ _) | (intro _) | split | with_reducible apply Keeps.upd)

theorem settleSlice_keeps {z : State} (s : State) (hz : Keeps z s) :
    Keeps z (settleSlice s) := by
  unfold settleSlice; try dsimp only
  repeat' (first | with_reducible assumption | with_reducible apply freeCells_keeps | (intro _ _ _) | (intro _ _) | (intro _) | split | with_reducible apply Keeps.upd)

theorem routeCmd_keeps {z : State} (s : State) (f : CmdFrame) (hz : Keeps z s) :
    Keeps z (routeCmd s f) := by
  unfold routeCmd; try dsimp only
  repeat' (first | with_reducible assumption | with_reducible apply bump_keeps | with_reducible apply openCmd_keeps | with_reducible apply sessionCmd_keeps | (intro _ _ _) | (intro _ _) | (intro _) | split | with_reducible apply Keeps.upd)

theorem receiveCmd_keeps {z : State} (s : State) (f : CmdFrame) (hz : Keeps z s) :
    Keeps z (receiveCmd s f) := by
  unfold receiveCmd; try dsimp only
  repeat' (first | with_reducible assumption | with_reducible apply bump_keeps | with_reducible apply settleSlice_keeps | with_reducible apply routeCmd_keeps | with_reducible apply admitFrame_keeps | (intro _ _ _) | (intro _ _) | (intro _) | split | with_reducible apply Keeps.upd)

theorem stompedCmd_keeps {z : State} (s : State) (f : CmdFrame) (hz : Keeps z s) :
    Keeps z (stompedCmd s f) := by
  unfold stompedCmd; try dsimp only
  repeat' (first | with_reducible assumption | with_reducible apply bump_keeps | with_reducible apply takeSlice_keeps | with_reducible apply countUe_keeps | with_reducible apply taintGranule_keeps | with_reducible apply freeCells_keeps | with_reducible refine Keeps.of_snd (by with_reducible assumption) ?_ | (dsimp only) | (intro _ _ _) | (intro _ _) | (intro _) | split | with_reducible apply Keeps.upd)

theorem receiveOp_keeps {z : State} (s : State) (op : Nat) (f : CmdFrame) (hz : Keeps z s) :
    Keeps z (receiveOp s op f) := by
  unfold receiveOp; try dsimp only
  repeat' (first | with_reducible assumption | with_reducible apply receiveCmd_keeps | (intro _ _ _) | (intro _ _) | (intro _) | split | with_reducible apply Keeps.upd)

theorem receiveSub_keeps {z : State} (s : State) (op n v : Nat) (f : CmdFrame) (hz : Keeps z s) :
    Keeps z (receiveSub s op n v f) := by
  unfold receiveSub; try dsimp only
  repeat' (first | with_reducible assumption | with_reducible apply receiveCmd_keeps | (intro _ _ _) | (intro _ _) | (intro _) | split | with_reducible apply Keeps.upd)

theorem unknownOpcode_keeps {z : State} (s : State) (f : CmdFrame) (hz : Keeps z s) :
    Keeps z (unknownOpcode s f) := by
  unfold unknownOpcode; try dsimp only
  repeat' (first | with_reducible assumption | with_reducible apply receiveCmd_keeps | (intro _ _ _) | (intro _ _) | (intro _) | split | with_reducible apply Keeps.upd)

theorem recordCommand_keeps {z : State} (s : State) (e : ExecCmd) (c : Completion) (hz : Keeps z s) :
    Keeps z (recordCommand s e c) := by
  unfold recordCommand; try dsimp only
  repeat' (first | with_reducible assumption | with_reducible apply countSummary_keeps | with_reducible apply auditAdd_keeps | (intro _ _ _) | (intro _ _) | (intro _) | split | with_reducible apply Keeps.upd)

theorem sendCompletion_keeps {z : State} (s : State) (e : ExecCmd) (c : Completion) (hz : Keeps z s) :
    Keeps z (sendCompletion s e c) := by
  unfold sendCompletion; try dsimp only
  repeat' (first | with_reducible assumption | with_reducible apply bump_keeps | with_reducible apply sendOut_keeps | (intro _ _ _) | (intro _ _) | (intro _) | split | with_reducible apply Keeps.upd)

theorem storeDone_keeps {z : State} (s : State) (e : ExecCmd) (c : Completion) (hz : Keeps z s) :
    Keeps z (storeDone s e c) := by
  unfold storeDone; try dsimp only
  repeat' (first | with_reducible assumption | with_reducible apply sessionMod_keeps | (intro _ _ _) | (intro _ _) | (intro _) | split | with_reducible apply Keeps.upd)

theorem countAuditWait_keeps {z : State} (s : State) (waited : Bool) (hz : Keeps z s) :
    Keeps z (countAuditWait s waited) := by
  unfold countAuditWait; try dsimp only
  repeat' (first | with_reducible assumption | with_reducible apply bump_keeps | (intro _ _ _) | (intro _ _) | (intro _) | split | with_reducible apply Keeps.upd)

theorem sendAnon_keeps {z : State} (s : State) (hz : Keeps z s) :
    Keeps z (sendAnon s) := by
  unfold sendAnon; try dsimp only
  repeat' (first | with_reducible assumption | with_reducible apply sendCompletion_keeps | with_reducible apply storeDone_keeps | with_reducible apply recordCommand_keeps | with_reducible apply countAuditWait_keeps | with_reducible apply Keeps.foldl | with_reducible apply Keeps.foldl_snd | with_reducible apply Keeps.foldl_fst | with_reducible apply Keeps.foldl_snd_snd | (intro _ _ _) | (intro _ _) | (intro _) | split | with_reducible apply Keeps.upd)

theorem afterCompletion_keeps {z : State} (s : State) (i : Nat) (f : CmdFrame) (c : Completion) (hz : Keeps z s) :
    Keeps z (afterCompletion s i f c) := by
  unfold afterCompletion; try dsimp only
  repeat' (first | with_reducible assumption | with_reducible apply dropSession_keeps | with_reducible apply drainAll_keeps | (intro _ _ _) | (intro _ _) | (intro _) | split | with_reducible apply Keeps.upd)

theorem dropStomped_keeps {z : State} (s : State) (i fuel : Nat) (hz : Keeps z s) :
    Keeps z (dropStomped s i fuel) := by
  induction fuel generalizing s i with
  | zero =>
    unfold dropStomped; try dsimp only
    repeat' (first | (cases ‹_ + 1 = _ + 1›) | with_reducible assumption | with_reducible apply readCells_keeps | with_reducible apply bump_keeps | with_reducible apply sessionMod_keeps | with_reducible apply ih | (intro _ _ _) | (intro _ _) | (intro _) | split | with_reducible apply Keeps.upd)
  | succ n ih =>
    unfold dropStomped; try dsimp only
    repeat' (first | (cases ‹_ + 1 = _ + 1›) | with_reducible assumption | with_reducible apply readCells_keeps | with_reducible apply bump_keeps | with_reducible apply sessionMod_keeps | with_reducible apply ih | (intro _ _ _) | (intro _ _) | (intro _) | split | with_reducible apply Keeps.upd)

theorem nextCmd_keeps {z : State} (s : State) (i : Nat) (hz : Keeps z s) :
    Keeps z (nextCmd s i) := by
  unfold nextCmd; try dsimp only
  repeat' (first | with_reducible assumption | with_reducible apply dropStomped_keeps | with_reducible apply dropSession_keeps | with_reducible apply auditEvent_keeps | with_reducible apply beginCmd_keeps | with_reducible apply sessionMod_keeps | (intro _ _ _) | (intro _ _) | (intro _) | split | with_reducible apply Keeps.upd)

theorem sendSession_keeps {z : State} (s : State) (i : Nat) (hz : Keeps z s) :
    Keeps z (sendSession s i) := by
  unfold sendSession; try dsimp only
  repeat' (first | with_reducible assumption | with_reducible apply sessionMod_keeps | with_reducible apply countAuditWait_keeps | with_reducible apply storeDone_keeps | with_reducible apply sendCompletion_keeps | with_reducible apply recordCommand_keeps | with_reducible apply nextCmd_keeps | with_reducible apply afterCompletion_keeps | (intro _ _ _) | (intro _ _) | (intro _) | split | with_reducible apply Keeps.upd)

theorem completionSend_keeps {z : State} (s : State) (who : Nat) (hz : Keeps z s) :
    Keeps z (completionSend s who) := by
  unfold completionSend; try dsimp only
  repeat' (first | with_reducible assumption | with_reducible apply settleSlice_keeps | with_reducible apply sendAnon_keeps | with_reducible apply sendSession_keeps | (intro _ _ _) | (intro _ _) | (intro _) | split | with_reducible apply Keeps.upd)

theorem sendRecord_keeps {z : State} (s : State) (r : PushRecord) (hz : Keeps z s) :
    Keeps z (sendRecord s r) := by
  unfold sendRecord; try dsimp only
  repeat' (first | with_reducible assumption | with_reducible apply sendOut_keeps | with_reducible apply Keeps.foldl | with_reducible apply Keeps.foldl_snd | with_reducible apply Keeps.foldl_fst | with_reducible apply Keeps.foldl_snd_snd | (intro _ _ _) | (intro _ _) | (intro _) | split | with_reducible apply Keeps.upd)

theorem takeWords_keeps {z : State} (s : State) (q n : Nat) (hz : Keeps z s) :
    Keeps z (takeWords s q n) := by
  unfold takeWords; try dsimp only
  repeat' (first | with_reducible assumption | with_reducible apply queueRelease_keeps | with_reducible apply queueRead_keeps | with_reducible refine Keeps.of_snd (by with_reducible assumption) ?_ | with_reducible apply Keeps.foldl | with_reducible apply Keeps.foldl_snd | with_reducible apply Keeps.foldl_fst | with_reducible apply Keeps.foldl_snd_snd | (dsimp only) | (intro _ _ _) | (intro _ _) | (intro _) | split | with_reducible apply Keeps.upd)

theorem sendQueued_keeps {z : State} (s : State) (cls : Nat) (hz : Keeps z s) :
    Keeps z (sendQueued s cls) := by
  unfold sendQueued; try dsimp only
  repeat' (first | with_reducible assumption | with_reducible apply takeWords_keeps | with_reducible apply sendRecord_keeps | (intro _ _ _) | (intro _ _) | (intro _) | split | with_reducible apply Keeps.upd)

theorem recordSend_keeps {z : State} (s : State) (cls : Nat) (hz : Keeps z s) :
    Keeps z (recordSend s cls) := by
  unfold recordSend; try dsimp only
  repeat' (first | with_reducible assumption | with_reducible apply retryStateEvents_keeps | with_reducible apply sendQueued_keeps | (intro _ _ _) | (intro _ _) | (intro _) | split | with_reducible apply Keeps.upd)

theorem sessionTimeout_keeps {z : State} (s : State) (i : Nat) (hz : Keeps z s) :
    Keeps z (sessionTimeout s i) := by
  unfold sessionTimeout; try dsimp only
  repeat' (first | with_reducible assumption | with_reducible apply dropSession_keeps | with_reducible apply auditEvent_keeps | (intro _ _ _) | (intro _ _) | (intro _) | split | with_reducible apply Keeps.upd)

theorem drainComplete_keeps {z : State} (s : State) (hz : Keeps z s) :
    Keeps z (drainComplete s) := by
  unfold drainComplete; try dsimp only
  repeat' (first | with_reducible assumption | with_reducible apply enterState_keeps | (intro _ _ _) | (intro _ _) | (intro _) | split | with_reducible apply Keeps.upd)

theorem countRx_keeps {z : State} (s : State) (m : Nat) (b : Bytes) (hz : Keeps z s) :
    Keeps z (countRx s m b) := by
  unfold countRx; try dsimp only
  repeat' (first | with_reducible assumption | with_reducible apply bumpBy_keeps | with_reducible apply bump_keeps | (intro _ _ _) | (intro _ _) | (intro _) | split | with_reducible apply Keeps.upd)

theorem inbandFrame_keeps {z : State} (s : State) (m : Nat) (b : Bytes) (f : CmdFrame) (ecc : Bool) (hz : Keeps z s) :
    Keeps z (inbandFrame s m b f ecc) := by
  unfold inbandFrame; try dsimp only
  repeat' (first | with_reducible assumption | with_reducible apply countRx_keeps | with_reducible apply stompedCmd_keeps | with_reducible apply receiveCmd_keeps | (intro _ _ _) | (intro _ _) | (intro _) | split | with_reducible apply Keeps.upd)

theorem stompedData_keeps {z : State} (s : State) (hz : Keeps z s) :
    Keeps z (stompedData s) := by
  unfold stompedData; try dsimp only
  repeat' (first | with_reducible assumption | with_reducible apply countUe_keeps | with_reducible apply taintGranule_keeps | (intro _ _ _) | (intro _ _) | (intro _) | split | with_reducible apply Keeps.upd)

theorem frameEnd_keeps {z : State} (s : State) (m : Fin 64) (b : Bytes) (fcsOk truncated ecc : Bool) (hz : Keeps z s) :
    Keeps z (frameEnd s m b fcsOk truncated ecc) := by
  unfold frameEnd; try dsimp only
  repeat' (first | with_reducible assumption | with_reducible apply rxSet_keeps | with_reducible apply bump_keeps | with_reducible apply dropReservation_keeps | with_reducible apply inbandFrame_keeps | with_reducible apply admitData_keeps | with_reducible apply countRx_keeps | with_reducible apply stompedData_keeps | (intro _ _ _) | (intro _ _) | (intro _) | split | with_reducible apply Keeps.upd)

theorem commandPortFrame_keeps {z : State} (s : State) (n : Fin 2) (b : Bytes) (fcsOk truncated ecc : Bool) (hz : Keeps z s) :
    Keeps z (commandPortFrame s n b fcsOk truncated ecc) := by
  unfold commandPortFrame; try dsimp only
  repeat' (first | with_reducible assumption | with_reducible apply bump_keeps | with_reducible apply stompedCmd_keeps | with_reducible apply receiveCmd_keeps | (intro _ _ _) | (intro _ _) | (intro _) | split | with_reducible apply Keeps.upd)

theorem portFlushes_keeps {z : State} (s : State) (p : PortId) (hz : Keeps z s) :
    Keeps z (portFlushes s p) := by
  unfold portFlushes; try dsimp only
  repeat' (first | with_reducible assumption | with_reducible apply flushOut_keeps | (intro _ _ _) | (intro _ _) | (intro _) | split | with_reducible apply Keeps.upd)

theorem commandPortLink_keeps {z : State} (s : State) (n : Fin 2) (up : Bool) (hz : Keeps z s) :
    Keeps z (commandPortLink s n up) := by
  unfold commandPortLink; try dsimp only
  repeat' (first | with_reducible assumption | with_reducible apply portFlushes_keeps | (intro _ _ _) | (intro _ _) | (intro _) | split | with_reducible apply Keeps.upd)

theorem portLinkRow_keeps {z : State} (s : State) (m : Fin 64) (up : Bool) (hz : Keeps z s) :
    Keeps z (portLinkRow s m up) := by
  unfold portLinkRow; try dsimp only
  repeat' (first | with_reducible assumption | with_reducible apply portFlushes_keeps | with_reducible apply portLinkChange_keeps | (intro _ _ _) | (intro _ _) | (intro _) | split | with_reducible apply Keeps.upd)

end Sys2Proof.Machine
end

