-- ==== Sys2Proof/Laws/KeepsRows.lean ====
section
/-!
SUPPORT. The operations of Rows keep the queue and the canonical form of the tables.
-/

namespace Sys2Proof.Machine
theorem lockRow_keeps {z : State} (s : State) (b : Block) (inst : Nat) (hz : Keeps z s) :
    Keeps z (lockRow s b inst) := by
  unfold lockRow; try dsimp only
  repeat' (first | with_reducible assumption | with_reducible apply lockBlock_keeps | (intro _ _ _) | (intro _ _) | (intro _) | split | with_reducible apply Keeps.upd)

theorem mediaPut_keeps {z : State} (s : State) (f : CmdFrame) (m : Media) (hz : Keeps z s) :
    Keeps z (mediaPut s f m) := by
  unfold mediaPut; try dsimp only
  repeat' (first | with_reducible assumption | with_reducible apply flashMod_keeps | (intro _ _ _) | (intro _ _) | (intro _) | split | with_reducible apply Keeps.upd)

theorem mediaDrop_keeps {z : State} (s : State) (f : CmdFrame) (hz : Keeps z s) :
    Keeps z (mediaDrop s f) := by
  unfold mediaDrop; try dsimp only
  repeat' (first | with_reducible assumption | with_reducible apply flashMod_keeps | (intro _ _ _) | (intro _ _) | (intro _) | split | with_reducible apply Keeps.upd)

theorem receiveMedia_keeps {z : State} (s : State) (f : CmdFrame) (m : Media) (hz : Keeps z s) :
    Keeps z (receiveMedia s f m) := by
  unfold receiveMedia; try dsimp only
  repeat' (first | with_reducible assumption | with_reducible apply mediaDrop_keeps | with_reducible apply receiveCmd_keeps | with_reducible apply mediaPut_keeps | (intro _ _ _) | (intro _ _) | (intro _) | split | with_reducible apply Keeps.upd)

theorem tierResult_keeps {z : State} (s : State) (i bucket slot : Nat) (result : Option (Nat × Nat)) (hz : Keeps z s) :
    Keeps z (tierResult s i bucket slot result) := by
  unfold tierResult; try dsimp only
  repeat' (first | with_reducible assumption | with_reducible apply retryPlaces_keeps | with_reducible apply tier3Result_keeps | (intro _ _ _) | (intro _ _) | (intro _) | split | with_reducible apply Keeps.upd)

theorem dumpRow_keeps {z : State} (s : State) (k h va : Nat) (hz : Keeps z s) :
    Keeps z (dumpRow s k h va) := by
  unfold dumpRow; try dsimp only
  repeat' (first | with_reducible assumption | with_reducible apply whileRunning_keeps | with_reducible apply debugRow_keeps | with_reducible apply regPutF_keeps | (intro _ _ _) | (intro _ _) | (intro _) | split | with_reducible apply Keeps.upd)

theorem idle_keeps {z : State} (s : State) (hz : Keeps z s) :
    Keeps z (idle s) := by
  unfold idle; try dsimp only
  repeat' (first | with_reducible assumption | (intro _ _ _) | (intro _ _) | (intro _) | split | with_reducible apply Keeps.upd)

end Sys2Proof.Machine
end

