-- ==== Sys2Proof/Laws/KeepsExecCommand.lean ====
section
/-!
SUPPORT. The meanings of RowsCommand keep the queue and the canonical form of the tables.
-/

namespace Sys2Proof.Machine

theorem execCompletionSend_keeps {session : Nat} {s t : State}
    (h : execCompletionSend session s = .next t) : Keeps s t := by
  unfold execCompletionSend at h; injection h with h; subst h; try dsimp only
  repeat' (first | with_reducible exact Keeps.refl _ | with_reducible apply completionSend_keeps | split)

theorem execRecordSend_keeps {cls : Fin 2} {s t : State}
    (h : execRecordSend cls s = .next t) : Keeps s t := by
  unfold execRecordSend at h; injection h with h; subst h; try dsimp only
  repeat' (first | with_reducible exact Keeps.refl _ | with_reducible apply recordSend_keeps | split)

theorem execNop_keeps {f : CmdFrame} {s t : State}
    (h : execNop f s = .next t) : Keeps s t := by
  unfold execNop at h; injection h with h; subst h; try dsimp only
  repeat' (first | with_reducible exact Keeps.refl _ | with_reducible apply receiveOp_keeps | split)

theorem execSessionOpen_keeps {f : CmdFrame} {s t : State}
    (h : execSessionOpen f s = .next t) : Keeps s t := by
  unfold execSessionOpen at h; injection h with h; subst h; try dsimp only
  repeat' (first | with_reducible exact Keeps.refl _ | with_reducible apply receiveSub_keeps | split)

theorem execSessionClaim_keeps {f : CmdFrame} {s t : State}
    (h : execSessionClaim f s = .next t) : Keeps s t := by
  unfold execSessionClaim at h; injection h with h; subst h; try dsimp only
  repeat' (first | with_reducible exact Keeps.refl _ | with_reducible apply receiveSub_keeps | split)

theorem execSessionClose_keeps {f : CmdFrame} {s t : State}
    (h : execSessionClose f s = .next t) : Keeps s t := by
  unfold execSessionClose at h; injection h with h; subst h; try dsimp only
  repeat' (first | with_reducible exact Keeps.refl _ | with_reducible apply receiveOp_keeps | split)

theorem execSessionTimeout_keeps {session : Nat} {s t : State}
    (h : execSessionTimeout session s = .next t) : Keeps s t := by
  unfold execSessionTimeout at h; injection h with h; subst h; try dsimp only
  repeat' (first | with_reducible exact Keeps.refl _ | with_reducible apply sessionTimeout_keeps | split)

theorem execStateGet_keeps {f : CmdFrame} {s t : State}
    (h : execStateGet f s = .next t) : Keeps s t := by
  unfold execStateGet at h; injection h with h; subst h; try dsimp only
  repeat' (first | with_reducible exact Keeps.refl _ | with_reducible apply receiveOp_keeps | split)

theorem execRegRead_keeps {f : CmdFrame} {s t : State}
    (h : execRegRead f s = .next t) : Keeps s t := by
  unfold execRegRead at h; injection h with h; subst h; try dsimp only
  repeat' (first | with_reducible exact Keeps.refl _ | with_reducible apply receiveOp_keeps | split)

theorem execRegWrite_keeps {f : CmdFrame} {s t : State}
    (h : execRegWrite f s = .next t) : Keeps s t := by
  unfold execRegWrite at h; injection h with h; subst h; try dsimp only
  repeat' (first | with_reducible exact Keeps.refl _ | with_reducible apply receiveOp_keeps | split)

theorem execLock_keeps {block : Block} {inst : Nat} {s t : State}
    (h : execLock block inst s = .next t) : Keeps s t := by
  unfold execLock at h; injection h with h; subst h; try dsimp only
  repeat' (first | with_reducible exact Keeps.refl _ | with_reducible apply lockRow_keeps | split)

theorem execMemRead_keeps {f : CmdFrame} {s t : State}
    (h : execMemRead f s = .next t) : Keeps s t := by
  unfold execMemRead at h; injection h with h; subst h; try dsimp only
  repeat' (first | with_reducible exact Keeps.refl _ | with_reducible apply receiveOp_keeps | split)

theorem execMemWrite_keeps {f : CmdFrame} {s t : State}
    (h : execMemWrite f s = .next t) : Keeps s t := by
  unfold execMemWrite at h; injection h with h; subst h; try dsimp only
  repeat' (first | with_reducible exact Keeps.refl _ | with_reducible apply receiveOp_keeps | split)

theorem execStart_keeps {f : CmdFrame} {s t : State}
    (h : execStart f s = .next t) : Keeps s t := by
  unfold execStart at h; injection h with h; subst h; try dsimp only
  repeat' (first | with_reducible exact Keeps.refl _ | with_reducible apply receiveOp_keeps | split)

theorem execDrain_keeps {f : CmdFrame} {s t : State}
    (h : execDrain f s = .next t) : Keeps s t := by
  unfold execDrain at h; injection h with h; subst h; try dsimp only
  repeat' (first | with_reducible exact Keeps.refl _ | with_reducible apply receiveOp_keeps | split)

theorem execDrainComplete_keeps {s t : State}
    (h : execDrainComplete s = .next t) : Keeps s t := by
  unfold execDrainComplete at h; injection h with h; subst h; try dsimp only
  repeat' (first | with_reducible exact Keeps.refl _ | with_reducible apply drainComplete_keeps | split)

theorem execStop_keeps {f : CmdFrame} {s t : State}
    (h : execStop f s = .next t) : Keeps s t := by
  unfold execStop at h; injection h with h; subst h; try dsimp only
  repeat' (first | with_reducible exact Keeps.refl _ | with_reducible apply receiveOp_keeps | split)

theorem execResume_keeps {f : CmdFrame} {s t : State}
    (h : execResume f s = .next t) : Keeps s t := by
  unfold execResume at h; injection h with h; subst h; try dsimp only
  repeat' (first | with_reducible exact Keeps.refl _ | with_reducible apply receiveOp_keeps | split)

theorem execMaintEnter_keeps {f : CmdFrame} {s t : State}
    (h : execMaintEnter f s = .next t) : Keeps s t := by
  unfold execMaintEnter at h; injection h with h; subst h; try dsimp only
  repeat' (first | with_reducible exact Keeps.refl _ | with_reducible apply receiveOp_keeps | split)

theorem execMaintExit_keeps {f : CmdFrame} {s t : State}
    (h : execMaintExit f s = .next t) : Keeps s t := by
  unfold execMaintExit at h; injection h with h; subst h; try dsimp only
  repeat' (first | with_reducible exact Keeps.refl _ | with_reducible apply receiveOp_keeps | split)

theorem execReset_keeps {f : CmdFrame} {s t : State}
    (h : execReset f s = .next t) : Keeps s t := by
  unfold execReset at h; injection h with h; subst h; try dsimp only
  repeat' (first | with_reducible exact Keeps.refl _ | with_reducible apply receiveOp_keeps | split)

theorem execModuleReset_keeps {cause : ResetCause} {s t : State}
    (h : execModuleReset cause s = .next t) : Keeps s t := by
  unfold execModuleReset at h; injection h with h; subst h; try dsimp only
  repeat' (first | with_reducible exact Keeps.refl _ | with_reducible apply moduleResetRow_keeps | split)

theorem execModeSet_keeps {f : CmdFrame} {s t : State}
    (h : execModeSet f s = .next t) : Keeps s t := by
  unfold execModeSet at h; injection h with h; subst h; try dsimp only
  repeat' (first | with_reducible exact Keeps.refl _ | with_reducible apply receiveOp_keeps | split)

theorem execModeTakesEffect_keeps {mode : Nat} {s t : State}
    (h : execModeTakesEffect mode s = .next t) : Keeps s t := by
  unfold execModeTakesEffect at h; injection h with h; subst h; try dsimp only
  repeat' (first | with_reducible exact Keeps.refl _ | with_reducible apply modeTakesEffect_keeps | split)

theorem execModeGet_keeps {f : CmdFrame} {s t : State}
    (h : execModeGet f s = .next t) : Keeps s t := by
  unfold execModeGet at h; injection h with h; subst h; try dsimp only
  repeat' (first | with_reducible exact Keeps.refl _ | with_reducible apply receiveOp_keeps | split)

theorem execSubscribe_keeps {f : CmdFrame} {s t : State}
    (h : execSubscribe f s = .next t) : Keeps s t := by
  unfold execSubscribe at h; injection h with h; subst h; try dsimp only
  repeat' (first | with_reducible exact Keeps.refl _ | with_reducible apply receiveOp_keeps | split)

theorem execRuleDefine_keeps {f : CmdFrame} {s t : State}
    (h : execRuleDefine f s = .next t) : Keeps s t := by
  unfold execRuleDefine at h; injection h with h; subst h; try dsimp only
  repeat' (first | with_reducible exact Keeps.refl _ | with_reducible apply receiveSub_keeps | split)

theorem execRuleInsert_keeps {f : CmdFrame} {s t : State}
    (h : execRuleInsert f s = .next t) : Keeps s t := by
  unfold execRuleInsert at h; injection h with h; subst h; try dsimp only
  repeat' (first | with_reducible exact Keeps.refl _ | with_reducible apply receiveSub_keeps | split)

theorem execRuleDelete_keeps {f : CmdFrame} {s t : State}
    (h : execRuleDelete f s = .next t) : Keeps s t := by
  unfold execRuleDelete at h; injection h with h; subst h; try dsimp only
  repeat' (first | with_reducible exact Keeps.refl _ | with_reducible apply receiveSub_keeps | split)

theorem execRuleSetDefault_keeps {f : CmdFrame} {s t : State}
    (h : execRuleSetDefault f s = .next t) : Keeps s t := by
  unfold execRuleSetDefault at h; injection h with h; subst h; try dsimp only
  repeat' (first | with_reducible exact Keeps.refl _ | with_reducible apply receiveSub_keeps | split)

theorem execRuleUndefine_keeps {f : CmdFrame} {s t : State}
    (h : execRuleUndefine f s = .next t) : Keeps s t := by
  unfold execRuleUndefine at h; injection h with h; subst h; try dsimp only
  repeat' (first | with_reducible exact Keeps.refl _ | with_reducible apply receiveSub_keeps | split)

theorem execRuleSwap_keeps {f : CmdFrame} {s t : State}
    (h : execRuleSwap f s = .next t) : Keeps s t := by
  unfold execRuleSwap at h; injection h with h; subst h; try dsimp only
  repeat' (first | with_reducible exact Keeps.refl _ | with_reducible apply receiveOp_keeps | split)

theorem execFlowRead_keeps {f : CmdFrame} {s t : State}
    (h : execFlowRead f s = .next t) : Keeps s t := by
  unfold execFlowRead at h; injection h with h; subst h; try dsimp only
  repeat' (first | with_reducible exact Keeps.refl _ | with_reducible apply receiveOp_keeps | split)

theorem execFlowDelete_keeps {f : CmdFrame} {s t : State}
    (h : execFlowDelete f s = .next t) : Keeps s t := by
  unfold execFlowDelete at h; injection h with h; subst h; try dsimp only
  repeat' (first | with_reducible exact Keeps.refl _ | with_reducible apply receiveOp_keeps | split)

theorem execRun_keeps {f : CmdFrame} {s t : State}
    (h : execRun f s = .next t) : Keeps s t := by
  unfold execRun at h; injection h with h; subst h; try dsimp only
  repeat' (first | with_reducible exact Keeps.refl _ | with_reducible apply receiveOp_keeps | split)

theorem execSlotRead_keeps {f : CmdFrame} {s t : State}
    (h : execSlotRead f s = .next t) : Keeps s t := by
  unfold execSlotRead at h; injection h with h; subst h; try dsimp only
  repeat' (first | with_reducible exact Keeps.refl _ | with_reducible apply receiveOp_keeps | split)

theorem execSlotRelease_keeps {f : CmdFrame} {s t : State}
    (h : execSlotRelease f s = .next t) : Keeps s t := by
  unfold execSlotRelease at h; injection h with h; subst h; try dsimp only
  repeat' (first | with_reducible exact Keeps.refl _ | with_reducible apply receiveOp_keeps | split)

theorem execCancelComplete_keeps {slot : Fin 4096} {s t : State}
    (h : execCancelComplete slot s = .next t) : Keeps s t := by
  unfold execCancelComplete at h; injection h with h; subst h; try dsimp only
  repeat' (first | with_reducible exact Keeps.refl _ | with_reducible apply cancelComplete_keeps | split)

theorem execSlotTtlExpiry_keeps {slot : Fin 4096} {s t : State}
    (h : execSlotTtlExpiry slot s = .next t) : Keeps s t := by
  unfold execSlotTtlExpiry at h; injection h with h; subst h; try dsimp only
  repeat' (first | with_reducible exact Keeps.refl _ | with_reducible apply slotTtlExpiry_keeps | split)

theorem execUnknownOpcode_keeps {f : CmdFrame} {s t : State}
    (h : execUnknownOpcode f s = .next t) : Keeps s t := by
  unfold execUnknownOpcode at h; injection h with h; subst h; try dsimp only
  repeat' (first | with_reducible exact Keeps.refl _ | with_reducible apply unknownOpcode_keeps | split)

theorem execImageBegin_keeps {f : CmdFrame} {s t : State}
    (h : execImageBegin f s = .next t) : Keeps s t := by
  unfold execImageBegin at h; injection h with h; subst h; try dsimp only
  repeat' (first | with_reducible exact Keeps.refl _ | with_reducible apply receiveSub_keeps | split)

theorem execImageData_keeps {f : CmdFrame} {media : Media} {s t : State}
    (h : execImageData f media s = .next t) : Keeps s t := by
  unfold execImageData at h; injection h with h; subst h; try dsimp only
  repeat' (first | with_reducible exact Keeps.refl _ | with_reducible apply receiveMedia_keeps | split)

theorem execImageFinish_keeps {f : CmdFrame} {s t : State}
    (h : execImageFinish f s = .next t) : Keeps s t := by
  unfold execImageFinish at h; injection h with h; subst h; try dsimp only
  repeat' (first | with_reducible exact Keeps.refl _ | with_reducible apply receiveSub_keeps | split)

theorem execImageDelete_keeps {f : CmdFrame} {s t : State}
    (h : execImageDelete f s = .next t) : Keeps s t := by
  unfold execImageDelete at h; injection h with h; subst h; try dsimp only
  repeat' (first | with_reducible exact Keeps.refl _ | with_reducible apply receiveSub_keeps | split)

theorem execActivateGrove_keeps {f : CmdFrame} {s t : State}
    (h : execActivateGrove f s = .next t) : Keeps s t := by
  unfold execActivateGrove at h; injection h with h; subst h; try dsimp only
  repeat' (first | with_reducible exact Keeps.refl _ | with_reducible apply receiveSub_keeps | split)

theorem execActivateTier2_keeps {f : CmdFrame} {s t : State}
    (h : execActivateTier2 f s = .next t) : Keeps s t := by
  unfold execActivateTier2 at h; injection h with h; subst h; try dsimp only
  repeat' (first | with_reducible exact Keeps.refl _ | with_reducible apply receiveSub_keeps | split)

theorem execActivateTier3_keeps {f : CmdFrame} {s t : State}
    (h : execActivateTier3 f s = .next t) : Keeps s t := by
  unfold execActivateTier3 at h; injection h with h; subst h; try dsimp only
  repeat' (first | with_reducible exact Keeps.refl _ | with_reducible apply receiveSub_keeps | split)

theorem execActivateUnload_keeps {f : CmdFrame} {s t : State}
    (h : execActivateUnload f s = .next t) : Keeps s t := by
  unfold execActivateUnload at h; injection h with h; subst h; try dsimp only
  repeat' (first | with_reducible exact Keeps.refl _ | with_reducible apply receiveSub_keeps | split)

theorem execUnloadComplete_keeps {slot : Fin 16} {s t : State}
    (h : execUnloadComplete slot s = .next t) : Keeps s t := by
  unfold execUnloadComplete at h; injection h with h; subst h; try dsimp only
  repeat' (first | with_reducible exact Keeps.refl _ | with_reducible apply whileRunning_keeps | with_reducible apply unloadComplete_keeps | split)

theorem execGateRelease_keeps {pipe : Fin 8} {queue : Fin 1024} {s t : State}
    (h : execGateRelease pipe queue s = .next t) : Keeps s t := by
  unfold execGateRelease at h; injection h with h; subst h; try dsimp only
  repeat' (first | with_reducible exact Keeps.refl _ | with_reducible apply whileRunning_keeps | with_reducible apply gateRelease_keeps | split)

theorem execFirmwareBegin_keeps {f : CmdFrame} {s t : State}
    (h : execFirmwareBegin f s = .next t) : Keeps s t := by
  unfold execFirmwareBegin at h; injection h with h; subst h; try dsimp only
  repeat' (first | with_reducible exact Keeps.refl _ | with_reducible apply receiveSub_keeps | split)

theorem execFirmwareData_keeps {f : CmdFrame} {media : Media} {s t : State}
    (h : execFirmwareData f media s = .next t) : Keeps s t := by
  unfold execFirmwareData at h; injection h with h; subst h; try dsimp only
  repeat' (first | with_reducible exact Keeps.refl _ | with_reducible apply receiveMedia_keeps | split)

theorem execFirmwareFinish_keeps {f : CmdFrame} {s t : State}
    (h : execFirmwareFinish f s = .next t) : Keeps s t := by
  unfold execFirmwareFinish at h; injection h with h; subst h; try dsimp only
  repeat' (first | with_reducible exact Keeps.refl _ | with_reducible apply receiveSub_keeps | split)

theorem execFirmwareActivate_keeps {f : CmdFrame} {s t : State}
    (h : execFirmwareActivate f s = .next t) : Keeps s t := by
  unfold execFirmwareActivate at h; injection h with h; subst h; try dsimp only
  repeat' (first | with_reducible exact Keeps.refl _ | with_reducible apply receiveOp_keeps | split)

theorem execFlashRead_keeps {f : CmdFrame} {media : Media} {s t : State}
    (h : execFlashRead f media s = .next t) : Keeps s t := by
  unfold execFlashRead at h; injection h with h; subst h; try dsimp only
  repeat' (first | with_reducible exact Keeps.refl _ | with_reducible apply receiveMedia_keeps | split)

theorem execFlashWrite_keeps {f : CmdFrame} {media : Media} {s t : State}
    (h : execFlashWrite f media s = .next t) : Keeps s t := by
  unfold execFlashWrite at h; injection h with h; subst h; try dsimp only
  repeat' (first | with_reducible exact Keeps.refl _ | with_reducible apply receiveMedia_keeps | split)

theorem execFlashErase_keeps {f : CmdFrame} {s t : State}
    (h : execFlashErase f s = .next t) : Keeps s t := by
  unfold execFlashErase at h; injection h with h; subst h; try dsimp only
  repeat' (first | with_reducible exact Keeps.refl _ | with_reducible apply receiveOp_keeps | split)

theorem execAttestQuote_keeps {f : CmdFrame} {s t : State}
    (h : execAttestQuote f s = .next t) : Keeps s t := by
  unfold execAttestQuote at h; injection h with h; subst h; try dsimp only
  repeat' (first | with_reducible exact Keeps.refl _ | with_reducible apply receiveOp_keeps | split)

theorem execAuditRead_keeps {f : CmdFrame} {s t : State}
    (h : execAuditRead f s = .next t) : Keeps s t := by
  unfold execAuditRead at h; injection h with h; subst h; try dsimp only
  repeat' (first | with_reducible exact Keeps.refl _ | with_reducible apply receiveOp_keeps | split)

theorem execCounterRead_keeps {f : CmdFrame} {s t : State}
    (h : execCounterRead f s = .next t) : Keeps s t := by
  unfold execCounterRead at h; injection h with h; subst h; try dsimp only
  repeat' (first | with_reducible exact Keeps.refl _ | with_reducible apply receiveOp_keeps | split)

theorem execTraceEnable_keeps {f : CmdFrame} {s t : State}
    (h : execTraceEnable f s = .next t) : Keeps s t := by
  unfold execTraceEnable at h; injection h with h; subst h; try dsimp only
  repeat' (first | with_reducible exact Keeps.refl _ | with_reducible apply receiveSub_keeps | split)

theorem execTraceDisable_keeps {f : CmdFrame} {s t : State}
    (h : execTraceDisable f s = .next t) : Keeps s t := by
  unfold execTraceDisable at h; injection h with h; subst h; try dsimp only
  repeat' (first | with_reducible exact Keeps.refl _ | with_reducible apply receiveSub_keeps | split)

theorem execTraceMarker_keeps {f : CmdFrame} {s t : State}
    (h : execTraceMarker f s = .next t) : Keeps s t := by
  unfold execTraceMarker at h; injection h with h; subst h; try dsimp only
  repeat' (first | with_reducible exact Keeps.refl _ | with_reducible apply receiveSub_keeps | split)

theorem execScanOut_keeps {f : CmdFrame} {s t : State}
    (h : execScanOut f s = .next t) : Keeps s t := by
  unfold execScanOut at h; injection h with h; subst h; try dsimp only
  repeat' (first | with_reducible exact Keeps.refl _ | with_reducible apply receiveOp_keeps | split)

theorem execSpanAttach_keeps {f : CmdFrame} {s t : State}
    (h : execSpanAttach f s = .next t) : Keeps s t := by
  unfold execSpanAttach at h; injection h with h; subst h; try dsimp only
  repeat' (first | with_reducible exact Keeps.refl _ | with_reducible apply receiveSub_keeps | split)

theorem execSpanEpoch_keeps {f : CmdFrame} {s t : State}
    (h : execSpanEpoch f s = .next t) : Keeps s t := by
  unfold execSpanEpoch at h; injection h with h; subst h; try dsimp only
  repeat' (first | with_reducible exact Keeps.refl _ | with_reducible apply receiveSub_keeps | split)

theorem execSpanDetach_keeps {f : CmdFrame} {s t : State}
    (h : execSpanDetach f s = .next t) : Keeps s t := by
  unfold execSpanDetach at h; injection h with h; subst h; try dsimp only
  repeat' (first | with_reducible exact Keeps.refl _ | with_reducible apply receiveSub_keeps | split)

theorem execSpanQuery_keeps {f : CmdFrame} {s t : State}
    (h : execSpanQuery f s = .next t) : Keeps s t := by
  unfold execSpanQuery at h; injection h with h; subst h; try dsimp only
  repeat' (first | with_reducible exact Keeps.refl _ | with_reducible apply receiveSub_keeps | split)

theorem execAppLoad_keeps {f : CmdFrame} {s t : State}
    (h : execAppLoad f s = .next t) : Keeps s t := by
  unfold execAppLoad at h; injection h with h; subst h; try dsimp only
  repeat' (first | with_reducible exact Keeps.refl _ | with_reducible apply receiveSub_keeps | split)

theorem execAppUnload_keeps {f : CmdFrame} {s t : State}
    (h : execAppUnload f s = .next t) : Keeps s t := by
  unfold execAppUnload at h; injection h with h; subst h; try dsimp only
  repeat' (first | with_reducible exact Keeps.refl _ | with_reducible apply receiveSub_keeps | split)

end Sys2Proof.Machine
end

