-- ==== Sys2Proof/Laws/KeepsExecContext.lean ====
section
/-!
SUPPORT. The meanings of RowsContext keep the queue and the canonical form of the tables.
-/

namespace Sys2Proof.Machine

theorem execRunAheadEntry_keeps {core : Fin 1280} {hc : Fin 8} {bundles : Nat} {s t : State}
    (h : execRunAheadEntry core hc bundles s = .next t) : Keeps s t := by
  unfold execRunAheadEntry at h; injection h with h; subst h; try dsimp only
  repeat' (first | with_reducible exact Keeps.refl _ | with_reducible apply runAheadEntry_keeps | split)

theorem execRunAheadExit_keeps {core : Fin 1280} {hc : Fin 8} {s t : State}
    (h : execRunAheadExit core hc s = .next t) : Keeps s t := by
  unfold execRunAheadExit at h; injection h with h; subst h; try dsimp only
  repeat' (first | with_reducible exact Keeps.refl _ | with_reducible apply whileRunning_keeps | with_reducible apply runAheadExit_keeps | split)

theorem execQuantumExpiry_keeps {core : Fin 1280} {waiter : Option (Fin 8)} {s t : State}
    (h : execQuantumExpiry core waiter s = .next t) : Keeps s t := by
  unfold execQuantumExpiry at h; injection h with h; subst h; try dsimp only
  repeat' (first | with_reducible exact Keeps.refl _ | with_reducible apply quantumExpiry_keeps | split)

theorem execPreemptionComplete_keeps {core : Fin 1280} {hc : Fin 8} {units : List Nat} {s t : State}
    (h : execPreemptionComplete core hc units s = .next t) : Keeps s t := by
  unfold execPreemptionComplete at h; injection h with h; subst h; try dsimp only
  repeat' (first | with_reducible exact Keeps.refl _ | with_reducible apply preemptionComplete_keeps | split)

theorem execRestore_keeps {core : Fin 1280} {tables : List PeerTable} {s t : State}
    (h : execRestore core tables s = .next t) : Keeps s t := by
  unfold execRestore at h; injection h with h; subst h; try dsimp only
  repeat' (first | with_reducible exact Keeps.refl _ | with_reducible apply restoreRow_keeps | split)

theorem execRingScrub_keeps {core : Fin 1280} {ce : List Nat} {ue : List Nat} {s t : State}
    (h : execRingScrub core ce ue s = .next t) : Keeps s t := by
  unfold execRingScrub at h; injection h with h; subst h; try dsimp only
  repeat' (first | with_reducible exact Keeps.refl _ | with_reducible apply ringScrub_keeps | split)

theorem execPlace_keeps {core : Fin 1280} {frame : Fin 6} {image : Bytes} {stores : List (Nat × Bytes)} {set : Option (Fin 32)} {born : Option NewContext} {tables : List PeerTable} {s t : State}
    (h : execPlace core frame image stores set born tables s = .next t) : Keeps s t := by
  unfold execPlace at h; injection h with h; subst h; try dsimp only
  repeat' (first | with_reducible exact Keeps.refl _ | with_reducible apply whileCrown_keeps | with_reducible apply placeRow_keeps | split)

theorem execExportFrame_keeps {core : Fin 1280} {frame : Fin 6} {s t : State}
    (h : execExportFrame core frame s = .next t) : Keeps s t := by
  unfold execExportFrame at h; injection h with h; subst h; try dsimp only
  repeat' (first | with_reducible exact Keeps.refl _ | with_reducible apply whileCrown_keeps | with_reducible apply exportRow_keeps | split)

theorem execFreeFrame_keeps {core : Fin 1280} {frame : Fin 6} {s t : State}
    (h : execFreeFrame core frame s = .next t) : Keeps s t := by
  unfold execFreeFrame at h; injection h with h; subst h; try dsimp only
  repeat' (first | with_reducible exact Keeps.refl _ | with_reducible apply whileCrown_keeps | with_reducible apply freeRow_keeps | split)

theorem execEvacDone_keeps {core : Fin 1280} {base : Nat} {done : Bool} {s t : State}
    (h : execEvacDone core base done s = .next t) : Keeps s t := by
  unfold execEvacDone at h; injection h with h; subst h; try dsimp only
  repeat' (first | with_reducible exact Keeps.refl _ | with_reducible apply whileCrown_keeps | with_reducible apply evacRow_keeps | split)

theorem execFaultRingRd_keeps {core : Fin 1280} {rd : Nat} {s t : State}
    (h : execFaultRingRd core rd s = .next t) : Keeps s t := by
  unfold execFaultRingRd at h; injection h with h; subst h; try dsimp only
  repeat' (first | with_reducible exact Keeps.refl _ | with_reducible apply whileCrown_keeps | with_reducible apply faultRingRd_keeps | split)

theorem execRetry_keeps {core : Fin 1280} {fseq : Nat} {stores : List (Nat × Bytes)} {table : PeerTable} {s t : State}
    (h : execRetry core fseq stores table s = .next t) : Keeps s t := by
  unfold execRetry at h; injection h with h; subst h; try dsimp only
  repeat' (first | with_reducible exact Keeps.refl _ | with_reducible apply whileCrown_keeps | with_reducible apply resolveRetry_keeps | split)

theorem execRefuseXlate_keeps {core : Fin 1280} {fseq : Nat} {s t : State}
    (h : execRefuseXlate core fseq s = .next t) : Keeps s t := by
  unfold execRefuseXlate at h; injection h with h; subst h; try dsimp only
  repeat' (first | with_reducible exact Keeps.refl _ | with_reducible apply whileCrown_keeps | with_reducible apply resolveFault_keeps | split)

theorem execRefuseProt_keeps {core : Fin 1280} {fseq : Nat} {s t : State}
    (h : execRefuseProt core fseq s = .next t) : Keeps s t := by
  unfold execRefuseProt at h; injection h with h; subst h; try dsimp only
  repeat' (first | with_reducible exact Keeps.refl _ | with_reducible apply whileCrown_keeps | with_reducible apply resolveFault_keeps | split)

theorem execInvalAddress_keeps {ctx : Nat} {va : Nat} {stores : List (Nat × Bytes)} {s t : State}
    (h : execInvalAddress ctx va stores s = .next t) : Keeps s t := by
  unfold execInvalAddress at h; injection h with h; subst h; try dsimp only
  repeat' (first | with_reducible exact Keeps.refl _ | with_reducible apply whileCrown_keeps | with_reducible apply xltInvalidate_keeps | with_reducible apply runtimeStores_keeps | split)

theorem execInvalContext_keeps {ctx : Nat} {stores : List (Nat × Bytes)} {born : Option NewContext} {s t : State}
    (h : execInvalContext ctx stores born s = .next t) : Keeps s t := by
  unfold execInvalContext at h; injection h with h; subst h; try dsimp only
  repeat' (first | with_reducible exact Keeps.refl _ | with_reducible apply whileCrown_keeps | with_reducible apply xltInvalidate_keeps | with_reducible apply createContext_keeps | with_reducible apply runtimeStores_keeps | split)

theorem execInvalAll_keeps {stores : List (Nat × Bytes)} {s t : State}
    (h : execInvalAll stores s = .next t) : Keeps s t := by
  unfold execInvalAll at h; injection h with h; subst h; try dsimp only
  repeat' (first | with_reducible exact Keeps.refl _ | with_reducible apply whileCrown_keeps | with_reducible apply xltInvalidate_keeps | with_reducible apply runtimeStores_keeps | split)

theorem execInvalidationComplete_keeps {s t : State}
    (h : execInvalidationComplete s = .next t) : Keeps s t := by
  unfold execInvalidationComplete at h; injection h with h; subst h; try dsimp only
  repeat' (first | with_reducible exact Keeps.refl _ | with_reducible apply whileRunning_keeps | with_reducible apply invalidationComplete_keeps | split)

end Sys2Proof.Machine
end

