-- ==== Sys2Proof/Laws/KeepsExecControl.lean ====
section
/-!
SUPPORT. The meanings of RowsControl keep the queue and the canonical form of the tables.
-/

namespace Sys2Proof.Machine

theorem execWBr_keeps {core : Fin 1280} {hc : Fin 8} {s t : State}
    (h : execWBr core hc s = .next t) : Keeps s t := by
  unfold execWBr at h; injection h with h; subst h; try dsimp only
  repeat' (first | with_reducible exact Keeps.refl _ | with_reducible apply issueRow_keeps | split)

theorem execWJr_keeps {core : Fin 1280} {hc : Fin 8} {s t : State}
    (h : execWJr core hc s = .next t) : Keeps s t := by
  unfold execWJr at h; injection h with h; subst h; try dsimp only
  repeat' (first | with_reducible exact Keeps.refl _ | with_reducible apply issueRow_keeps | split)

theorem execWCall_keeps {core : Fin 1280} {hc : Fin 8} {s t : State}
    (h : execWCall core hc s = .next t) : Keeps s t := by
  unfold execWCall at h; injection h with h; subst h; try dsimp only
  repeat' (first | with_reducible exact Keeps.refl _ | with_reducible apply issueRow_keeps | split)

theorem execWCallr_keeps {core : Fin 1280} {hc : Fin 8} {s t : State}
    (h : execWCallr core hc s = .next t) : Keeps s t := by
  unfold execWCallr at h; injection h with h; subst h; try dsimp only
  repeat' (first | with_reducible exact Keeps.refl _ | with_reducible apply issueRow_keeps | split)

theorem execWLoop_keeps {core : Fin 1280} {hc : Fin 8} {s t : State}
    (h : execWLoop core hc s = .next t) : Keeps s t := by
  unfold execWLoop at h; injection h with h; subst h; try dsimp only
  repeat' (first | with_reducible exact Keeps.refl _ | with_reducible apply issueRow_keeps | split)

theorem execWExit_keeps {core : Fin 1280} {hc : Fin 8} {s t : State}
    (h : execWExit core hc s = .next t) : Keeps s t := by
  unfold execWExit at h; injection h with h; subst h; try dsimp only
  repeat' (first | with_reducible exact Keeps.refl _ | with_reducible apply issueRow_keeps | split)

theorem execWTrap_keeps {core : Fin 1280} {hc : Fin 8} {s t : State}
    (h : execWTrap core hc s = .next t) : Keeps s t := by
  unfold execWTrap at h; injection h with h; subst h; try dsimp only
  repeat' (first | with_reducible exact Keeps.refl _ | with_reducible apply issueRow_keeps | split)

theorem execWBreak_keeps {core : Fin 1280} {hc : Fin 8} {s t : State}
    (h : execWBreak core hc s = .next t) : Keeps s t := by
  unfold execWBreak at h; injection h with h; subst h; try dsimp only
  repeat' (first | with_reducible exact Keeps.refl _ | with_reducible apply issueRow_keeps | split)

theorem execWFence_keeps {core : Fin 1280} {hc : Fin 8} {s t : State}
    (h : execWFence core hc s = .next t) : Keeps s t := by
  unfold execWFence at h; injection h with h; subst h; try dsimp only
  repeat' (first | with_reducible exact Keeps.refl _ | with_reducible apply issueRow_keeps | split)

theorem execWIfence_keeps {core : Fin 1280} {hc : Fin 8} {s t : State}
    (h : execWIfence core hc s = .next t) : Keeps s t := by
  unfold execWIfence at h; injection h with h; subst h; try dsimp only
  repeat' (first | with_reducible exact Keeps.refl _ | with_reducible apply issueRow_keeps | split)

theorem execWCrd_keeps {core : Fin 1280} {hc : Fin 8} {s t : State}
    (h : execWCrd core hc s = .next t) : Keeps s t := by
  unfold execWCrd at h; injection h with h; subst h; try dsimp only
  repeat' (first | with_reducible exact Keeps.refl _ | with_reducible apply issueRow_keeps | split)

theorem execWCwr_keeps {core : Fin 1280} {hc : Fin 8} {s t : State}
    (h : execWCwr core hc s = .next t) : Keeps s t := by
  unfold execWCwr at h; injection h with h; subst h; try dsimp only
  repeat' (first | with_reducible exact Keeps.refl _ | with_reducible apply issueRow_keeps | split)

theorem execWSettag_keeps {core : Fin 1280} {hc : Fin 8} {s t : State}
    (h : execWSettag core hc s = .next t) : Keeps s t := by
  unfold execWSettag at h; injection h with h; subst h; try dsimp only
  repeat' (first | with_reducible exact Keeps.refl _ | with_reducible apply issueRow_keeps | split)

theorem execWClaim_keeps {core : Fin 1280} {hc : Fin 8} {s t : State}
    (h : execWClaim core hc s = .next t) : Keeps s t := by
  unfold execWClaim at h; injection h with h; subst h; try dsimp only
  repeat' (first | with_reducible exact Keeps.refl _ | with_reducible apply issueRow_keeps | split)

theorem execWRelease_keeps {core : Fin 1280} {hc : Fin 8} {s t : State}
    (h : execWRelease core hc s = .next t) : Keeps s t := by
  unfold execWRelease at h; injection h with h; subst h; try dsimp only
  repeat' (first | with_reducible exact Keeps.refl _ | with_reducible apply issueRow_keeps | split)

theorem execClaimGrant_keeps {core : Fin 1280} {s t : State}
    (h : execClaimGrant core s = .next t) : Keeps s t := by
  unfold execClaimGrant at h; injection h with h; subst h; try dsimp only
  repeat' (first | with_reducible exact Keeps.refl _ | with_reducible apply claimGrant_keeps | split)

theorem execWQsel_keeps {core : Fin 1280} {hc : Fin 8} {s t : State}
    (h : execWQsel core hc s = .next t) : Keeps s t := by
  unfold execWQsel at h; injection h with h; subst h; try dsimp only
  repeat' (first | with_reducible exact Keeps.refl _ | with_reducible apply issueRow_keeps | split)

theorem execWQopen_keeps {core : Fin 1280} {hc : Fin 8} {s t : State}
    (h : execWQopen core hc s = .next t) : Keeps s t := by
  unfold execWQopen at h; injection h with h; subst h; try dsimp only
  repeat' (first | with_reducible exact Keeps.refl _ | with_reducible apply issueRow_keeps | split)

theorem execWQpush_keeps {core : Fin 1280} {hc : Fin 8} {s t : State}
    (h : execWQpush core hc s = .next t) : Keeps s t := by
  unfold execWQpush at h; injection h with h; subst h; try dsimp only
  repeat' (first | with_reducible exact Keeps.refl _ | with_reducible apply issueRow_keeps | split)

theorem execWQpushv_keeps {core : Fin 1280} {hc : Fin 8} {s t : State}
    (h : execWQpushv core hc s = .next t) : Keeps s t := by
  unfold execWQpushv at h; injection h with h; subst h; try dsimp only
  repeat' (first | with_reducible exact Keeps.refl _ | with_reducible apply issueRow_keeps | split)

theorem execWQcommit_keeps {core : Fin 1280} {hc : Fin 8} {s t : State}
    (h : execWQcommit core hc s = .next t) : Keeps s t := by
  unfold execWQcommit at h; injection h with h; subst h; try dsimp only
  repeat' (first | with_reducible exact Keeps.refl _ | with_reducible apply issueRow_keeps | split)

theorem execWQabort_keeps {core : Fin 1280} {hc : Fin 8} {s t : State}
    (h : execWQabort core hc s = .next t) : Keeps s t := by
  unfold execWQabort at h; injection h with h; subst h; try dsimp only
  repeat' (first | with_reducible exact Keeps.refl _ | with_reducible apply issueRow_keeps | split)

theorem execWQread_keeps {core : Fin 1280} {hc : Fin 8} {s t : State}
    (h : execWQread core hc s = .next t) : Keeps s t := by
  unfold execWQread at h; injection h with h; subst h; try dsimp only
  repeat' (first | with_reducible exact Keeps.refl _ | with_reducible apply issueRow_keeps | split)

theorem execWQreadv_keeps {core : Fin 1280} {hc : Fin 8} {s t : State}
    (h : execWQreadv core hc s = .next t) : Keeps s t := by
  unfold execWQreadv at h; injection h with h; subst h; try dsimp only
  repeat' (first | with_reducible exact Keeps.refl _ | with_reducible apply issueRow_keeps | split)

theorem execWQmark_keeps {core : Fin 1280} {hc : Fin 8} {s t : State}
    (h : execWQmark core hc s = .next t) : Keeps s t := by
  unfold execWQmark at h; injection h with h; subst h; try dsimp only
  repeat' (first | with_reducible exact Keeps.refl _ | with_reducible apply issueRow_keeps | split)

theorem execWQrewind_keeps {core : Fin 1280} {hc : Fin 8} {s t : State}
    (h : execWQrewind core hc s = .next t) : Keeps s t := by
  unfold execWQrewind at h; injection h with h; subst h; try dsimp only
  repeat' (first | with_reducible exact Keeps.refl _ | with_reducible apply issueRow_keeps | split)

theorem execWQrelease_keeps {core : Fin 1280} {hc : Fin 8} {s t : State}
    (h : execWQrelease core hc s = .next t) : Keeps s t := by
  unfold execWQrelease at h; injection h with h; subst h; try dsimp only
  repeat' (first | with_reducible exact Keeps.refl _ | with_reducible apply issueRow_keeps | split)

end Sys2Proof.Machine
end

