-- ==== Sys2Proof/Laws/KeepsExecFlow.lean ====
section
/-!
SUPPORT. The meanings of RowsFlow keep the queue and the canonical form of the tables.
-/

namespace Sys2Proof.Machine

theorem execLockRead_keeps {crown : Fin 16} {pipe : Fin 8} {bucket1 : Fin 2097152} {bucket2 : Fin 2097152} {s t : State}
    (h : execLockRead crown pipe bucket1 bucket2 s = .next t) : Keeps s t := by
  unfold execLockRead at h; injection h with h; subst h; try dsimp only
  repeat' (first | with_reducible exact Keeps.refl _ | with_reducible apply whileCrown_keeps | with_reducible apply takeFault_keeps | with_reducible apply lockRead_keeps | split)

theorem execFlowDmaRead_keeps {crown : Fin 16} {pipe : Fin 8} {bucket : Fin 2097152} {s t : State}
    (h : execFlowDmaRead crown pipe bucket s = .next t) : Keeps s t := by
  unfold execFlowDmaRead at h; injection h with h; subst h; try dsimp only
  repeat' (first | with_reducible exact Keeps.refl _ | with_reducible apply whileCrown_keeps | with_reducible apply takeFault_keeps | with_reducible apply dmaRead_keeps | split)

theorem execWriteSlot_keeps {crown : Fin 16} {pipe : Fin 8} {bucket : Fin 2097152} {slot : Fin 4} {token : Nat} {low : Bytes} {high : Bytes} {result : Option (Nat × Nat)} {s t : State}
    (h : execWriteSlot crown pipe bucket slot token low high result s = .next t) : Keeps s t := by
  unfold execWriteSlot at h; injection h with h; subst h; try dsimp only
  repeat' (first | with_reducible exact Keeps.refl _ | with_reducible apply whileCrown_keeps | with_reducible apply takeFault_keeps | with_reducible apply writeSlot_keeps | with_reducible apply tierResult_keeps | split)

theorem execPublish_keeps {crown : Fin 16} {pipe : Fin 8} {bucket : Fin 2097152} {slot : Fin 4} {token : Nat} {s t : State}
    (h : execPublish crown pipe bucket slot token s = .next t) : Keeps s t := by
  unfold execPublish at h; injection h with h; subst h; try dsimp only
  repeat' (first | with_reducible exact Keeps.refl _ | with_reducible apply whileCrown_keeps | with_reducible apply takeFault_keeps | with_reducible apply publish_keeps | split)

theorem execInvalidate_keeps {crown : Fin 16} {pipe : Fin 8} {bucket : Fin 2097152} {slot : Fin 4} {token : Nat} {s t : State}
    (h : execInvalidate crown pipe bucket slot token s = .next t) : Keeps s t := by
  unfold execInvalidate at h; injection h with h; subst h; try dsimp only
  repeat' (first | with_reducible exact Keeps.refl _ | with_reducible apply whileCrown_keeps | with_reducible apply takeFault_keeps | with_reducible apply invalidate_keeps | split)

theorem execUnlock_keeps {crown : Fin 16} {pipe : Fin 8} {bucket1 : Fin 2097152} {bucket2 : Fin 2097152} {token : Nat} {digest1 : Nat} {digest2 : Nat} {s t : State}
    (h : execUnlock crown pipe bucket1 bucket2 token digest1 digest2 s = .next t) : Keeps s t := by
  unfold execUnlock at h; injection h with h; subst h; try dsimp only
  repeat' (first | with_reducible exact Keeps.refl _ | with_reducible apply whileCrown_keeps | with_reducible apply takeFault_keeps | with_reducible apply retryDeletes_keeps | with_reducible apply unlock_keeps | split)

theorem execLeaseExpiry_keeps {pipe : Fin 8} {s t : State}
    (h : execLeaseExpiry pipe s = .next t) : Keeps s t := by
  unfold execLeaseExpiry at h; injection h with h; subst h; try dsimp only
  repeat' (first | with_reducible exact Keeps.refl _ | with_reducible apply whileRunning_keeps | with_reducible apply takeFault_keeps | with_reducible apply retryDeletes_keeps | with_reducible apply leaseExpiry_keeps | split)

theorem execAgingVisit_keeps {pipe : Fin 8} {bucket : Fin 2097152} {s t : State}
    (h : execAgingVisit pipe bucket s = .next t) : Keeps s t := by
  unfold execAgingVisit at h; injection h with h; subst h; try dsimp only
  repeat' (first | with_reducible exact Keeps.refl _ | with_reducible apply whileRunning_keeps | with_reducible apply takeFault_keeps | with_reducible apply agingVisit_keeps | split)

theorem execShadowCompare_keeps {pipe : Fin 8} {bucket : Fin 2097152} {s t : State}
    (h : execShadowCompare pipe bucket s = .next t) : Keeps s t := by
  unfold execShadowCompare at h; injection h with h; subst h; try dsimp only
  repeat' (first | with_reducible exact Keeps.refl _ | with_reducible apply whileRunning_keeps | with_reducible apply takeFault_keeps | with_reducible apply shadowCompare_keeps | split)

theorem execRouteWrite_keeps {route : Fin 16} {v : Nat} {s t : State}
    (h : execRouteWrite route v s = .next t) : Keeps s t := by
  unfold execRouteWrite at h; injection h with h; subst h; try dsimp only
  repeat' (first | with_reducible exact Keeps.refl _ | with_reducible apply routeWriteRow_keeps | split)

theorem execGroveScrub_keeps {ce : List Nat} {ue : List Nat} {s t : State}
    (h : execGroveScrub ce ue s = .next t) : Keeps s t := by
  unfold execGroveScrub at h; injection h with h; subst h; try dsimp only
  repeat' (first | with_reducible exact Keeps.refl _ | with_reducible apply whileRunning_keeps | with_reducible apply groveScrub_keeps | split)

theorem execWriteLeaf_keeps {slot : Fin 16} {part : Fin 16} {off : Nat} {v : Nat} {s t : State}
    (h : execWriteLeaf slot part off v s = .next t) : Keeps s t := by
  unfold execWriteLeaf at h; injection h with h; subst h; try dsimp only
  repeat' (first | with_reducible exact Keeps.refl _ | with_reducible apply whileCrown_keeps | with_reducible apply writeLeaf_keeps | split)

theorem execWriteWord_keeps {slice : Fin 16} {off : Nat} {v : Nat} {s t : State}
    (h : execWriteWord slice off v s = .next t) : Keeps s t := by
  unfold execWriteWord at h; injection h with h; subst h; try dsimp only
  repeat' (first | with_reducible exact Keeps.refl _ | with_reducible apply whileCrown_keeps | with_reducible apply writeWord_keeps | split)

theorem execArm_keeps {stamp : Nat} {flips : Nat} {t2 : Bool} {s t : State}
    (h : execArm stamp flips t2 s = .next t) : Keeps s t := by
  unfold execArm at h; injection h with h; subst h; try dsimp only
  repeat' (first | with_reducible exact Keeps.refl _ | with_reducible apply whileCrown_keeps | with_reducible apply armRow_keeps | split)

theorem execTendReady_keeps {s t : State}
    (h : execTendReady s = .next t) : Keeps s t := by
  unfold execTendReady at h; injection h with h; subst h; try dsimp only
  repeat' (first | with_reducible exact Keeps.refl _ | with_reducible apply whileCrown_keeps | with_reducible apply tendReady_keeps | split)

theorem execTendingBoundary_keeps {s t : State}
    (h : execTendingBoundary s = .next t) : Keeps s t := by
  unfold execTendingBoundary at h; injection h with h; subst h; try dsimp only
  repeat' (first | with_reducible exact Keeps.refl _ | with_reducible apply whileRunning_keeps | with_reducible apply tendBoundary_keeps | split)

theorem execWatermark_keeps {pipe : Fin 8} {s t : State}
    (h : execWatermark pipe s = .next t) : Keeps s t := by
  unfold execWatermark at h; injection h with h; subst h; try dsimp only
  repeat' (first | with_reducible exact Keeps.refl _ | with_reducible apply whileRunning_keeps | with_reducible apply watermark_keeps | split)

end Sys2Proof.Machine
end

