-- ==== Sys2Proof/Laws/KeepsExecMatrix.lean ====
section
/-!
SUPPORT. The meanings of RowsMatrix keep the queue and the canonical form of the tables.
-/

namespace Sys2Proof.Machine

theorem execWMshape_keeps {core : Fin 1280} {hc : Fin 8} {s t : State}
    (h : execWMshape core hc s = .next t) : Keeps s t := by
  unfold execWMshape at h; injection h with h; subst h; try dsimp only
  repeat' (first | with_reducible exact Keeps.refl _ | with_reducible apply issueRow_keeps | split)

theorem execWMlw_keeps {core : Fin 1280} {hc : Fin 8} {s t : State}
    (h : execWMlw core hc s = .next t) : Keeps s t := by
  unfold execWMlw at h; injection h with h; subst h; try dsimp only
  repeat' (first | with_reducible exact Keeps.refl _ | with_reducible apply issueRow_keeps | split)

theorem execWMmb_keeps {core : Fin 1280} {hc : Fin 8} {s t : State}
    (h : execWMmb core hc s = .next t) : Keeps s t := by
  unfold execWMmb at h; injection h with h; subst h; try dsimp only
  repeat' (first | with_reducible exact Keeps.refl _ | with_reducible apply issueRow_keeps | split)

theorem execWMms_keeps {core : Fin 1280} {hc : Fin 8} {s t : State}
    (h : execWMms core hc s = .next t) : Keeps s t := by
  unfold execWMms at h; injection h with h; subst h; try dsimp only
  repeat' (first | with_reducible exact Keeps.refl _ | with_reducible apply issueRow_keeps | split)

theorem execWMew_keeps {core : Fin 1280} {hc : Fin 8} {s t : State}
    (h : execWMew core hc s = .next t) : Keeps s t := by
  unfold execWMew at h; injection h with h; subst h; try dsimp only
  repeat' (first | with_reducible exact Keeps.refl _ | with_reducible apply issueRow_keeps | split)

theorem execWMst_keeps {core : Fin 1280} {hc : Fin 8} {s t : State}
    (h : execWMst core hc s = .next t) : Keeps s t := by
  unfold execWMst at h; injection h with h; subst h; try dsimp only
  repeat' (first | with_reducible exact Keeps.refl _ | with_reducible apply issueRow_keeps | split)

theorem execWMla_keeps {core : Fin 1280} {hc : Fin 8} {s t : State}
    (h : execWMla core hc s = .next t) : Keeps s t := by
  unfold execWMla at h; injection h with h; subst h; try dsimp only
  repeat' (first | with_reducible exact Keeps.refl _ | with_reducible apply issueRow_keeps | split)

theorem execWMzero_keeps {core : Fin 1280} {hc : Fin 8} {s t : State}
    (h : execWMzero core hc s = .next t) : Keeps s t := by
  unfold execWMzero at h; injection h with h; subst h; try dsimp only
  repeat' (first | with_reducible exact Keeps.refl _ | with_reducible apply issueRow_keeps | split)

theorem execWMxwait_keeps {core : Fin 1280} {hc : Fin 8} {s t : State}
    (h : execWMxwait core hc s = .next t) : Keeps s t := by
  unfold execWMxwait at h; injection h with h; subst h; try dsimp only
  repeat' (first | with_reducible exact Keeps.refl _ | with_reducible apply issueRow_keeps | split)

theorem execWMxtest_keeps {core : Fin 1280} {hc : Fin 8} {s t : State}
    (h : execWMxtest core hc s = .next t) : Keeps s t := by
  unfold execWMxtest at h; injection h with h; subst h; try dsimp only
  repeat' (first | with_reducible exact Keeps.refl _ | with_reducible apply issueRow_keeps | split)

theorem execWMxclr_keeps {core : Fin 1280} {hc : Fin 8} {s t : State}
    (h : execWMxclr core hc s = .next t) : Keeps s t := by
  unfold execWMxclr at h; injection h with h; subst h; try dsimp only
  repeat' (first | with_reducible exact Keeps.refl _ | with_reducible apply issueRow_keeps | split)

theorem execPassCheck_keeps {core : Fin 1280} {array : Fin 2} {slice : Nat} {errors : PassErrors} {s t : State}
    (h : execPassCheck core array slice errors s = .next t) : Keeps s t := by
  unfold execPassCheck at h; injection h with h; subst h; try dsimp only
  repeat' (first | with_reducible exact Keeps.refl _ | with_reducible apply whileRunning_keeps | with_reducible apply passCheck_keeps | split)

theorem execRecomputation_keeps {core : Fin 1280} {array : Fin 2} {slice : Nat} {errors : PassErrors} {s t : State}
    (h : execRecomputation core array slice errors s = .next t) : Keeps s t := by
  unfold execRecomputation at h; injection h with h; subst h; try dsimp only
  repeat' (first | with_reducible exact Keeps.refl _ | with_reducible apply whileRunning_keeps | with_reducible apply recomputePass_keeps | split)

theorem execSpareRecomputation_keeps {core : Fin 1280} {array : Fin 2} {slice : Nat} {errors : PassErrors} {s t : State}
    (h : execSpareRecomputation core array slice errors s = .next t) : Keeps s t := by
  unfold execSpareRecomputation at h; injection h with h; subst h; try dsimp only
  repeat' (first | with_reducible exact Keeps.refl _ | with_reducible apply whileRunning_keeps | with_reducible apply spareRecomputation_keeps | split)

theorem execRetirementRecordWrite_keeps {s t : State}
    (h : execRetirementRecordWrite s = .next t) : Keeps s t := by
  unfold execRetirementRecordWrite at h; injection h with h; subst h; try dsimp only
  repeat' (first | with_reducible exact Keeps.refl _ | with_reducible apply whileRunning_keeps | with_reducible apply retirementRecordWrite_keeps | split)

theorem execBistStart_keeps {core : Fin 1280} {array : Fin 2} {s t : State}
    (h : execBistStart core array s = .next t) : Keeps s t := by
  unfold execBistStart at h; injection h with h; subst h; try dsimp only
  repeat' (first | with_reducible exact Keeps.refl _ | with_reducible apply bistStart_keeps | split)

theorem execBistResult_keeps {core : Fin 1280} {array : Fin 2} {ok : Bool} {s t : State}
    (h : execBistResult core array ok s = .next t) : Keeps s t := by
  unfold execBistResult at h; injection h with h; subst h; try dsimp only
  repeat' (first | with_reducible exact Keeps.refl _ | with_reducible apply bistResult_keeps | split)

theorem execBistOverdue_keeps {core : Fin 1280} {array : Fin 2} {s t : State}
    (h : execBistOverdue core array s = .next t) : Keeps s t := by
  unfold execBistOverdue at h; injection h with h; subst h; try dsimp only
  repeat' (first | with_reducible exact Keeps.refl _ | with_reducible apply bistOverdue_keeps | split)

theorem execBistRequest_keeps {core : Fin 1280} {s t : State}
    (h : execBistRequest core s = .next t) : Keeps s t := by
  unfold execBistRequest at h; injection h with h; subst h; try dsimp only
  repeat' (first | with_reducible exact Keeps.refl _ | with_reducible apply bistRequestRow_keeps | split)

end Sys2Proof.Machine
end

