-- ==== Sys2Proof/Laws/KeepsExecMemory.lean ====
section
/-!
SUPPORT. The meanings of RowsMemory keep the queue and the canonical form of the tables.
-/

namespace Sys2Proof.Machine

theorem execRefresh_keeps {stack : Fin 8} {s t : State}
    (h : execRefresh stack s = .next t) : Keeps s t := by
  unfold execRefresh at h; injection h with h; subst h; try dsimp only
  repeat' (first | with_reducible exact Keeps.refl _ | with_reducible apply refresh_keeps | split)

theorem execHbmScrub_keeps {stack : Fin 8} {ce : List Nat} {ue : List Nat} {s t : State}
    (h : execHbmScrub stack ce ue s = .next t) : Keeps s t := by
  unfold execHbmScrub at h; injection h with h; subst h; try dsimp only
  repeat' (first | with_reducible exact Keeps.refl _ | with_reducible apply whileRunning_keeps | with_reducible apply hbmScrub_keeps | split)

theorem execPcRetirement_keeps {stack : Fin 8} {pc : Fin 32} {cause : Nat} {s t : State}
    (h : execPcRetirement stack pc cause s = .next t) : Keeps s t := by
  unfold execPcRetirement at h; injection h with h; subst h; try dsimp only
  repeat' (first | with_reducible exact Keeps.refl _ | with_reducible apply whileRunning_keeps | with_reducible apply pcRetirement_keeps | split)

theorem execHbmRetire_keeps {stack : Fin 8} {pc : Fin 32} {s t : State}
    (h : execHbmRetire stack pc s = .next t) : Keeps s t := by
  unfold execHbmRetire at h; injection h with h; subst h; try dsimp only
  repeat' (first | with_reducible exact Keeps.refl _ | with_reducible apply whileCrown_keeps | with_reducible apply hbmRetire_keeps | split)

theorem execRebuildComplete_keeps {stack : Fin 8} {lost : List Nat} {s t : State}
    (h : execRebuildComplete stack lost s = .next t) : Keeps s t := by
  unfold execRebuildComplete at h; injection h with h; subst h; try dsimp only
  repeat' (first | with_reducible exact Keeps.refl _ | with_reducible apply whileRunning_keeps | with_reducible apply rebuildComplete_keeps | split)

theorem execMirrorEnable_keeps {stack : Fin 8} {range : Fin 8} {base : Nat} {size : Nat} {s t : State}
    (h : execMirrorEnable stack range base size s = .next t) : Keeps s t := by
  unfold execMirrorEnable at h; injection h with h; subst h; try dsimp only
  repeat' (first | with_reducible exact Keeps.refl _ | with_reducible apply mirrorEnableRow_keeps | split)

theorem execMirrorSync_keeps {stack : Fin 8} {range : Fin 8} {s t : State}
    (h : execMirrorSync stack range s = .next t) : Keeps s t := by
  unfold execMirrorSync at h; injection h with h; subst h; try dsimp only
  repeat' (first | with_reducible exact Keeps.refl _ | with_reducible apply whileRunning_keeps | with_reducible apply mirrorSync_keeps | split)

end Sys2Proof.Machine
end

