-- ==== Sys2Proof/Laws/KeepsExecMover.lean ====
section
/-!
SUPPORT. The meanings of RowsMover keep the queue and the canonical form of the tables.
-/

namespace Sys2Proof.Machine

theorem execWMcopy_keeps {core : Fin 1280} {hc : Fin 8} {s t : State}
    (h : execWMcopy core hc s = .next t) : Keeps s t := by
  unfold execWMcopy at h; injection h with h; subst h; try dsimp only
  repeat' (first | with_reducible exact Keeps.refl _ | with_reducible apply issueRow_keeps | split)

theorem execWMtrans_keeps {core : Fin 1280} {hc : Fin 8} {s t : State}
    (h : execWMtrans core hc s = .next t) : Keeps s t := by
  unfold execWMtrans at h; injection h with h; subst h; try dsimp only
  repeat' (first | with_reducible exact Keeps.refl _ | with_reducible apply issueRow_keeps | split)

theorem execWMgather_keeps {core : Fin 1280} {hc : Fin 8} {s t : State}
    (h : execWMgather core hc s = .next t) : Keeps s t := by
  unfold execWMgather at h; injection h with h; subst h; try dsimp only
  repeat' (first | with_reducible exact Keeps.refl _ | with_reducible apply issueRow_keeps | split)

theorem execWMscatter_keeps {core : Fin 1280} {hc : Fin 8} {s t : State}
    (h : execWMscatter core hc s = .next t) : Keeps s t := by
  unfold execWMscatter at h; injection h with h; subst h; try dsimp only
  repeat' (first | with_reducible exact Keeps.refl _ | with_reducible apply issueRow_keeps | split)

theorem execWMfill_keeps {core : Fin 1280} {hc : Fin 8} {s t : State}
    (h : execWMfill core hc s = .next t) : Keeps s t := by
  unfold execWMfill at h; injection h with h; subst h; try dsimp only
  repeat' (first | with_reducible exact Keeps.refl _ | with_reducible apply issueRow_keeps | split)

theorem execWMput_keeps {core : Fin 1280} {hc : Fin 8} {table : PeerTable} {s t : State}
    (h : execWMput core hc table s = .next t) : Keeps s t := by
  unfold execWMput at h; injection h with h; subst h; try dsimp only
  repeat' (first | with_reducible exact Keeps.refl _ | with_reducible apply issueRow_keeps | split)

theorem execWMget_keeps {core : Fin 1280} {hc : Fin 8} {table : PeerTable} {s t : State}
    (h : execWMget core hc table s = .next t) : Keeps s t := by
  unfold execWMget at h; injection h with h; subst h; try dsimp only
  repeat' (first | with_reducible exact Keeps.refl _ | with_reducible apply issueRow_keeps | split)

theorem execWMwait_keeps {core : Fin 1280} {hc : Fin 8} {s t : State}
    (h : execWMwait core hc s = .next t) : Keeps s t := by
  unfold execWMwait at h; injection h with h; subst h; try dsimp only
  repeat' (first | with_reducible exact Keeps.refl _ | with_reducible apply issueRow_keeps | split)

theorem execWMtest_keeps {core : Fin 1280} {hc : Fin 8} {s t : State}
    (h : execWMtest core hc s = .next t) : Keeps s t := by
  unfold execWMtest at h; injection h with h; subst h; try dsimp only
  repeat' (first | with_reducible exact Keeps.refl _ | with_reducible apply issueRow_keeps | split)

theorem execWTld_keeps {core : Fin 1280} {hc : Fin 8} {s t : State}
    (h : execWTld core hc s = .next t) : Keeps s t := by
  unfold execWTld at h; injection h with h; subst h; try dsimp only
  repeat' (first | with_reducible exact Keeps.refl _ | with_reducible apply issueRow_keeps | split)

theorem execWTst_keeps {core : Fin 1280} {hc : Fin 8} {s t : State}
    (h : execWTst core hc s = .next t) : Keeps s t := by
  unfold execWTst at h; injection h with h; subst h; try dsimp only
  repeat' (first | with_reducible exact Keeps.refl _ | with_reducible apply issueRow_keeps | split)

theorem execWTmov_keeps {core : Fin 1280} {hc : Fin 8} {s t : State}
    (h : execWTmov core hc s = .next t) : Keeps s t := by
  unfold execWTmov at h; injection h with h; subst h; try dsimp only
  repeat' (first | with_reducible exact Keeps.refl _ | with_reducible apply issueRow_keeps | split)

theorem execWTaddb_keeps {core : Fin 1280} {hc : Fin 8} {s t : State}
    (h : execWTaddb core hc s = .next t) : Keeps s t := by
  unfold execWTaddb at h; injection h with h; subst h; try dsimp only
  repeat' (first | with_reducible exact Keeps.refl _ | with_reducible apply issueRow_keeps | split)

theorem execTransferEnd_keeps {core : Fin 1280} {hc : Fin 8} {tag : Fin 16} {s t : State}
    (h : execTransferEnd core hc tag s = .next t) : Keeps s t := by
  unfold execTransferEnd at h; injection h with h; subst h; try dsimp only
  repeat' (first | with_reducible exact Keeps.refl _ | with_reducible apply whileRunning_keeps | with_reducible apply transferEnd_keeps | split)

end Sys2Proof.Machine
end

