-- ==== Sys2Proof/Laws/KeepsExecPacket.lean ====
section
/-!
SUPPORT. The meanings of RowsPacket keep the queue and the canonical form of the tables.
-/

namespace Sys2Proof.Machine

theorem execFrameStart_keeps {lport : Fin 64} {s t : State}
    (h : execFrameStart lport s = .next t) : Keeps s t := by
  unfold execFrameStart at h; injection h with h; subst h; try dsimp only
  repeat' (first | with_reducible exact Keeps.refl _ | with_reducible apply frameStart_keeps | split)

theorem execOversizeDiscard_keeps {lport : Fin 64} {s t : State}
    (h : execOversizeDiscard lport s = .next t) : Keeps s t := by
  unfold execOversizeDiscard at h; injection h with h; subst h; try dsimp only
  repeat' (first | with_reducible exact Keeps.refl _ | with_reducible apply oversizeDiscard_keeps | split)

theorem execFrameEnd_keeps {lport : Fin 64} {frame : Bytes} {fcsOk : Bool} {truncated : Bool} {ecc : Bool} {s t : State}
    (h : execFrameEnd lport frame fcsOk truncated ecc s = .next t) : Keeps s t := by
  unfold execFrameEnd at h; injection h with h; subst h; try dsimp only
  repeat' (first | with_reducible exact Keeps.refl _ | with_reducible apply frameEnd_keeps | split)

theorem execCommandPortFrame_keeps {port : Fin 2} {frame : Bytes} {fcsOk : Bool} {truncated : Bool} {ecc : Bool} {s t : State}
    (h : execCommandPortFrame port frame fcsOk truncated ecc s = .next t) : Keeps s t := by
  unfold execCommandPortFrame at h; injection h with h; subst h; try dsimp only
  repeat' (first | with_reducible exact Keeps.refl _ | with_reducible apply commandPortFrame_keeps | split)

theorem execPortLinkChange_keeps {lport : Fin 64} {up : Bool} {s t : State}
    (h : execPortLinkChange lport up s = .next t) : Keeps s t := by
  unfold execPortLinkChange at h; injection h with h; subst h; try dsimp only
  repeat' (first | with_reducible exact Keeps.refl _ | with_reducible apply portLinkRow_keeps | split)

theorem execPortEnable_keeps {lport : Fin 64} {s t : State}
    (h : execPortEnable lport s = .next t) : Keeps s t := by
  unfold execPortEnable at h; injection h with h; subst h; try dsimp only
  repeat' (first | with_reducible exact Keeps.refl _ | with_reducible apply portEnable_keeps | split)

theorem execParseAccept_keeps {pipe : Fin 8} {s t : State}
    (h : execParseAccept pipe s = .next t) : Keeps s t := by
  unfold execParseAccept at h; injection h with h; subst h; try dsimp only
  repeat' (first | with_reducible exact Keeps.refl _ | with_reducible apply parseAccept_keeps | split)

theorem execFlowKeyComplete_keeps {pipe : Fin 8} {s t : State}
    (h : execFlowKeyComplete pipe s = .next t) : Keeps s t := by
  unfold execFlowKeyComplete at h; injection h with h; subst h; try dsimp only
  repeat' (first | with_reducible exact Keeps.refl _ | with_reducible apply flowKeyComplete_keeps | split)

theorem execPrefetchLand_keeps {pipe : Fin 8} {s t : State}
    (h : execPrefetchLand pipe s = .next t) : Keeps s t := by
  unfold execPrefetchLand at h; injection h with h; subst h; try dsimp only
  repeat' (first | with_reducible exact Keeps.refl _ | with_reducible apply whileRunning_keeps | with_reducible apply takeFault_keeps | with_reducible apply prefetchLand_keeps | split)

theorem execFlowLookupAnswer_keeps {packet : Nat} {bad1 : Bool} {bad2 : Bool} {s t : State}
    (h : execFlowLookupAnswer packet bad1 bad2 s = .next t) : Keeps s t := by
  unfold execFlowLookupAnswer at h; injection h with h; subst h; try dsimp only
  repeat' (first | with_reducible exact Keeps.refl _ | with_reducible apply whileRunning_keeps | with_reducible apply takeFault_keeps | with_reducible apply flowLookupAnswer_keeps | split)

theorem execFilterExpiry_keeps {pipe : Fin 8} {s t : State}
    (h : execFilterExpiry pipe s = .next t) : Keeps s t := by
  unfold execFilterExpiry at h; injection h with h; subst h; try dsimp only
  repeat' (first | with_reducible exact Keeps.refl _ | with_reducible apply whileRunning_keeps | with_reducible apply filterExpiry_keeps | split)

theorem execFlowRecordEnqueue_keeps {pipe : Fin 8} {s t : State}
    (h : execFlowRecordEnqueue pipe s = .next t) : Keeps s t := by
  unfold execFlowRecordEnqueue at h; injection h with h; subst h; try dsimp only
  repeat' (first | with_reducible exact Keeps.refl _ | with_reducible apply whileRunning_keeps | with_reducible apply flowRecordEnqueue_keeps | split)

theorem execFirstPassEntry_keeps {pipe : Fin 8} {s t : State}
    (h : execFirstPassEntry pipe s = .next t) : Keeps s t := by
  unfold execFirstPassEntry at h; injection h with h; subst h; try dsimp only
  repeat' (first | with_reducible exact Keeps.refl _ | with_reducible apply firstPassEntry_keeps | split)

theorem execT2Admit_keeps {pipe : Fin 8} {s t : State}
    (h : execT2Admit pipe s = .next t) : Keeps s t := by
  unfold execT2Admit at h; injection h with h; subst h; try dsimp only
  repeat' (first | with_reducible exact Keeps.refl _ | with_reducible apply t2Admit_keeps | split)

theorem execPassEnd_keeps {pipe : Fin 8} {second : Bool} {s t : State}
    (h : execPassEnd pipe second s = .next t) : Keeps s t := by
  unfold execPassEnd at h; injection h with h; subst h; try dsimp only
  repeat' (first | with_reducible exact Keeps.refl _ | with_reducible apply passEnd_keeps | split)

theorem execPinnedWriteApply_keeps {table : Fin 16} {s t : State}
    (h : execPinnedWriteApply table s = .next t) : Keeps s t := by
  unfold execPinnedWriteApply at h; injection h with h; subst h; try dsimp only
  repeat' (first | with_reducible exact Keeps.refl _ | with_reducible apply whileRunning_keeps | with_reducible apply pinnedWriteApply_keeps | split)

theorem execGroveEntry_keeps {pipe : Fin 8} {s t : State}
    (h : execGroveEntry pipe s = .next t) : Keeps s t := by
  unfold execGroveEntry at h; injection h with h; subst h; try dsimp only
  repeat' (first | with_reducible exact Keeps.refl _ | with_reducible apply groveEntry_keeps | split)

theorem execGroveVerdict_keeps {packet : Nat} {error : Option (Nat × Nat × Bool)} {s t : State}
    (h : execGroveVerdict packet error s = .next t) : Keeps s t := by
  unfold execGroveVerdict at h; injection h with h; subst h; try dsimp only
  repeat' (first | with_reducible exact Keeps.refl _ | with_reducible apply groveVerdict_keeps | split)

theorem execTokenDispatch_keeps {pipe : Fin 8} {s t : State}
    (h : execTokenDispatch pipe s = .next t) : Keeps s t := by
  unfold execTokenDispatch at h; injection h with h; subst h; try dsimp only
  repeat' (first | with_reducible exact Keeps.refl _ | with_reducible apply whileRunning_keeps | with_reducible apply takeFault_keeps | with_reducible apply tokenDispatch_keeps | split)

theorem execVerdictRead_keeps {queue : Fin 4096} {s t : State}
    (h : execVerdictRead queue s = .next t) : Keeps s t := by
  unfold execVerdictRead at h; injection h with h; subst h; try dsimp only
  repeat' (first | with_reducible exact Keeps.refl _ | with_reducible apply whileRunning_keeps | with_reducible apply verdictRead_keeps | split)

theorem execDeadlineTest_keeps {pipe : Fin 8} {entry : Fin 131072} {s t : State}
    (h : execDeadlineTest pipe entry s = .next t) : Keeps s t := by
  unfold execDeadlineTest at h; injection h with h; subst h; try dsimp only
  repeat' (first | with_reducible exact Keeps.refl _ | with_reducible apply whileRunning_keeps | with_reducible apply deadlineTest_keeps | split)

theorem execSecondPassEntry_keeps {packet : Nat} {s t : State}
    (h : execSecondPassEntry packet s = .next t) : Keeps s t := by
  unfold execSecondPassEntry at h; injection h with h; subst h; try dsimp only
  repeat' (first | with_reducible exact Keeps.refl _ | with_reducible apply secondPassEntry_keeps | split)

theorem execEgress_keeps {packet : Nat} {s t : State}
    (h : execEgress packet s = .next t) : Keeps s t := by
  unfold execEgress at h; injection h with h; subst h; try dsimp only
  repeat' (first | with_reducible exact Keeps.refl _ | with_reducible apply egress_keeps | split)

end Sys2Proof.Machine
end

