-- ==== Sys2Proof/Laws/KeepsExecPlatform.lean ====
section
/-!
SUPPORT. The meanings of RowsPlatform keep the queue and the canonical form of the tables.
-/

namespace Sys2Proof.Machine

theorem execEvqRd_keeps {rd : Nat} {s t : State}
    (h : execEvqRd rd s = .next t) : Keeps s t := by
  unfold execEvqRd at h; injection h with h; subst h; try dsimp only
  repeat' (first | with_reducible exact Keeps.refl _ | with_reducible apply whileCrown_keeps | with_reducible apply evqRd_keeps | split)

theorem execKick_keeps {crown : Fin 16} {s t : State}
    (h : execKick crown s = .next t) : Keeps s t := by
  unfold execKick at h; injection h with h; subst h; try dsimp only
  repeat' (first | with_reducible exact Keeps.refl _ | with_reducible apply whileCrown_keeps | with_reducible apply kick_keeps | split)

theorem execWatchdog_keeps {crown : Fin 16} {replays : Nat} {s t : State}
    (h : execWatchdog crown replays s = .next t) : Keeps s t := by
  unfold execWatchdog at h; injection h with h; subst h; try dsimp only
  repeat' (first | with_reducible exact Keeps.refl _ | with_reducible apply watchdog_keeps | split)

theorem execMachineCheck_keeps {crown : Fin 16} {replays : Nat} {s t : State}
    (h : execMachineCheck crown replays s = .next t) : Keeps s t := by
  unfold execMachineCheck at h; injection h with h; subst h; try dsimp only
  repeat' (first | with_reducible exact Keeps.refl _ | with_reducible apply machineCheck_keeps | split)

theorem execCoreRelease_keeps {crown : Fin 16} {s t : State}
    (h : execCoreRelease crown s = .next t) : Keeps s t := by
  unfold execCoreRelease at h; injection h with h; subst h; try dsimp only
  repeat' (first | with_reducible exact Keeps.refl _ | with_reducible apply coreRelease_keeps | split)

theorem execCaptureAppend_keeps {crown : Fin 16} {data : Bytes} {s t : State}
    (h : execCaptureAppend crown data s = .next t) : Keeps s t := by
  unfold execCaptureAppend at h; injection h with h; subst h; try dsimp only
  repeat' (first | with_reducible exact Keeps.refl _ | with_reducible apply whileCrown_keeps | with_reducible apply captureAppend_keeps | split)

theorem execDieLoss_keeps {die : Fin 16} {s t : State}
    (h : execDieLoss die s = .next t) : Keeps s t := by
  unfold execDieLoss at h; injection h with h; subst h; try dsimp only
  repeat' (first | with_reducible exact Keeps.refl _ | with_reducible apply dieLoss_keeps | split)

theorem execStripeRebuildComplete_keeps {s t : State}
    (h : execStripeRebuildComplete s = .next t) : Keeps s t := by
  unfold execStripeRebuildComplete at h; injection h with h; subst h; try dsimp only
  repeat' (first | with_reducible exact Keeps.refl _ | with_reducible apply stripeRebuildComplete_keeps | split)

theorem execFlashScrub_keeps {media : Media} {ue : List Nat} {reloc : Nat} {s t : State}
    (h : execFlashScrub media ue reloc s = .next t) : Keeps s t := by
  unfold execFlashScrub at h; injection h with h; subst h; try dsimp only
  repeat' (first | with_reducible exact Keeps.refl _ | with_reducible apply flashScrub_keeps | split)

theorem execWearLevelling_keeps {avg : Nat} {max : Nat} {spread : Nat} {spent : Bool} {s t : State}
    (h : execWearLevelling avg max spread spent s = .next t) : Keeps s t := by
  unfold execWearLevelling at h; injection h with h; subst h; try dsimp only
  repeat' (first | with_reducible exact Keeps.refl _ | with_reducible apply wearLevelling_keeps | split)

theorem execTrsRelease_keeps {s t : State}
    (h : execTrsRelease s = .next t) : Keeps s t := by
  unfold execTrsRelease at h; injection h with h; subst h; try dsimp only
  repeat' (first | with_reducible exact Keeps.refl _ | with_reducible apply releaseRow_keeps | split)

theorem execRotate_keeps {slot : Fin 16} {s t : State}
    (h : execRotate slot s = .next t) : Keeps s t := by
  unfold execRotate at h; injection h with h; subst h; try dsimp only
  repeat' (first | with_reducible exact Keeps.refl _ | with_reducible apply rotateRow_keeps | split)

theorem execOpkeyEnable_keeps {slot : Fin 16} {on : Bool} {s t : State}
    (h : execOpkeyEnable slot on s = .next t) : Keeps s t := by
  unfold execOpkeyEnable at h; injection h with h; subst h; try dsimp only
  repeat' (first | with_reducible exact Keeps.refl _ | with_reducible apply opkeyRow_keeps | split)

theorem execSave_keeps {s t : State}
    (h : execSave s = .next t) : Keeps s t := by
  unfold execSave at h; injection h with h; subst h; try dsimp only
  repeat' (first | with_reducible exact Keeps.refl _ | with_reducible apply saveRow_keeps | split)

theorem execFactory_keeps {s t : State}
    (h : execFactory s = .next t) : Keeps s t := by
  unfold execFactory at h; injection h with h; subst h; try dsimp only
  repeat' (first | with_reducible exact Keeps.refl _ | with_reducible apply factoryRow_keeps | split)

theorem execAuditDrain_keeps {s t : State}
    (h : execAuditDrain s = .next t) : Keeps s t := by
  unfold execAuditDrain at h; injection h with h; subst h; try dsimp only
  repeat' (first | with_reducible exact Keeps.refl _ | with_reducible apply auditDrain_keeps | split)

theorem execAuditSummary_keeps {s t : State}
    (h : execAuditSummary s = .next t) : Keeps s t := by
  unfold execAuditSummary at h; injection h with h; subst h; try dsimp only
  repeat' (first | with_reducible exact Keeps.refl _ | with_reducible apply auditSummary_keeps | split)

theorem execCountSend_keeps {core : Fin 1280} {s t : State}
    (h : execCountSend core s = .next t) : Keeps s t := by
  unfold execCountSend at h; injection h with h; subst h; try dsimp only
  repeat' (first | with_reducible exact Keeps.refl _ | with_reducible apply countSendRow_keeps | split)

theorem execCommandBoundary_keeps {set : Fin 32} {go : Bool} {s t : State}
    (h : execCommandBoundary set go s = .next t) : Keeps s t := by
  unfold execCommandBoundary at h; injection h with h; subst h; try dsimp only
  repeat' (first | with_reducible exact Keeps.refl _ | with_reducible apply whileCrown_keeps | with_reducible apply commandBoundary_keeps | split)

theorem execPcSample_keeps {core : Fin 1280} {hc : Fin 8} {issued : Bool} {s t : State}
    (h : execPcSample core hc issued s = .next t) : Keeps s t := by
  unfold execPcSample at h; injection h with h; subst h; try dsimp only
  repeat' (first | with_reducible exact Keeps.refl _ | with_reducible apply pcSample_keeps | split)

theorem execChaifFrameSend_keeps {records : Nat} {s t : State}
    (h : execChaifFrameSend records s = .next t) : Keeps s t := by
  unfold execChaifFrameSend at h; injection h with h; subst h; try dsimp only
  repeat' (first | with_reducible exact Keeps.refl _ | with_reducible apply chaifFrameSend_keeps | split)

theorem execTraceFallbackSend_keeps {s t : State}
    (h : execTraceFallbackSend s = .next t) : Keeps s t := by
  unfold execTraceFallbackSend at h; injection h with h; subst h; try dsimp only
  repeat' (first | with_reducible exact Keeps.refl _ | with_reducible apply traceFallbackSend_keeps | split)

theorem execGlobalStop_keeps {s t : State}
    (h : execGlobalStop s = .next t) : Keeps s t := by
  unfold execGlobalStop at h; injection h with h; subst h; try dsimp only
  repeat' (first | with_reducible exact Keeps.refl _ | with_reducible apply globalStop_keeps | split)

theorem execCutComplete_keeps {s t : State}
    (h : execCutComplete s = .next t) : Keeps s t := by
  unfold execCutComplete at h; injection h with h; subst h; try dsimp only
  repeat' (first | with_reducible exact Keeps.refl _ | with_reducible apply cutComplete_keeps | split)

theorem execDbgContinue_keeps {core : Fin 1280} {hc : Fin 8} {s t : State}
    (h : execDbgContinue core hc s = .next t) : Keeps s t := by
  unfold execDbgContinue at h; injection h with h; subst h; try dsimp only
  repeat' (first | with_reducible exact Keeps.refl _ | with_reducible apply debugRow_keeps | split)

theorem execDbgStep_keeps {core : Fin 1280} {hc : Fin 8} {s t : State}
    (h : execDbgStep core hc s = .next t) : Keeps s t := by
  unfold execDbgStep at h; injection h with h; subst h; try dsimp only
  repeat' (first | with_reducible exact Keeps.refl _ | with_reducible apply debugRow_keeps | split)

theorem execDbgDump_keeps {core : Fin 1280} {hc : Fin 8} {va : Nat} {s t : State}
    (h : execDbgDump core hc va s = .next t) : Keeps s t := by
  unfold execDbgDump at h; injection h with h; subst h; try dsimp only
  repeat' (first | with_reducible exact Keeps.refl _ | with_reducible apply dumpRow_keeps | split)

theorem execCommandPortLinkChange_keeps {port : Fin 2} {up : Bool} {s t : State}
    (h : execCommandPortLinkChange port up s = .next t) : Keeps s t := by
  unfold execCommandPortLinkChange at h; injection h with h; subst h; try dsimp only
  repeat' (first | with_reducible exact Keeps.refl _ | with_reducible apply commandPortLink_keeps | split)

theorem execChaifLinkChange_keeps {up : Bool} {s t : State}
    (h : execChaifLinkChange up s = .next t) : Keeps s t := by
  unfold execChaifLinkChange at h; injection h with h; subst h; try dsimp only
  repeat' (first | with_reducible exact Keeps.refl _ | with_reducible apply chaifLink_keeps | split)

theorem execHighSymbolErrorRate_keeps {lport : Fin 64} {on : Bool} {s t : State}
    (h : execHighSymbolErrorRate lport on s = .next t) : Keeps s t := by
  unfold execHighSymbolErrorRate at h; injection h with h; subst h; try dsimp only
  repeat' (first | with_reducible exact Keeps.refl _ | with_reducible apply setHiSer_keeps | split)

theorem execFlitCrcFailure_keeps {link : Fin 8} {s t : State}
    (h : execFlitCrcFailure link s = .next t) : Keeps s t := by
  unfold execFlitCrcFailure at h; injection h with h; subst h; try dsimp only
  repeat' (first | with_reducible exact Keeps.refl _ | with_reducible apply flitFailure_keeps | split)

theorem execAckAndCredit_keeps {link : Fin 8} {ack : Option Nat} {vc : Fin 5} {n : Nat} {s t : State}
    (h : execAckAndCredit link ack vc n s = .next t) : Keeps s t := by
  unfold execAckAndCredit at h; injection h with h; subst h; try dsimp only
  repeat' (first | with_reducible exact Keeps.refl _ | with_reducible apply ackAndCredit_keeps | split)

theorem execBundleCacheFill_keeps {core : Fin 1280} {hc : Fin 8} {s t : State}
    (h : execBundleCacheFill core hc s = .next t) : Keeps s t := by
  unfold execBundleCacheFill at h; injection h with h; subst h; try dsimp only
  repeat' (first | with_reducible exact Keeps.refl _ | with_reducible apply cacheFill_keeps | split)

theorem execSuspendedTransfer_keeps {core : Fin 1280} {hc : Fin 8} {tag : Fin 16} {s t : State}
    (h : execSuspendedTransfer core hc tag s = .next t) : Keeps s t := by
  unfold execSuspendedTransfer at h; injection h with h; subst h; try dsimp only
  repeat' (first | with_reducible exact Keeps.refl _ | with_reducible apply whileRunning_keeps | with_reducible apply suspendTransfer_keeps | split)

end Sys2Proof.Machine
end

