-- ==== Sys2Proof/Laws/KeepsExecPower.lean ====
section
/-!
SUPPORT. The meanings of RowsPower keep the queue and the canonical form of the tables.
-/

namespace Sys2Proof.Machine

theorem execPowerUp_keeps {mv : Nat} {s t : State}
    (h : execPowerUp mv s = .next t) : Keeps s t := by
  unfold execPowerUp at h; injection h with h; subst h; try dsimp only
  repeat' (first | with_reducible exact Keeps.refl _ | with_reducible apply powerUp_keeps | split)

theorem execResetRelease_keeps {s t : State}
    (h : execResetRelease s = .next t) : Keeps s t := by
  unfold execResetRelease at h; injection h with h; subst h; try dsimp only
  repeat' (first | with_reducible exact Keeps.refl _ | with_reducible apply resetRelease_keeps | split)

theorem execSecureBoot_keeps {s t : State}
    (h : execSecureBoot s = .next t) : Keeps s t := by
  unfold execSecureBoot at h; injection h with h; subst h; try dsimp only
  repeat' (first | with_reducible exact Keeps.refl _ | with_reducible apply secureBoot_keeps | split)

theorem execInputRange_keeps {mv : Nat} {s t : State}
    (h : execInputRange mv s = .next t) : Keeps s t := by
  unfold execInputRange at h; injection h with h; subst h; try dsimp only
  repeat' (first | with_reducible exact Keeps.refl _ | with_reducible apply inputRange_keeps | split)

theorem execPowerGoodLoss_keeps {cause : PowerLoss} {s t : State}
    (h : execPowerGoodLoss cause s = .next t) : Keeps s t := by
  unfold execPowerGoodLoss at h; injection h with h; subst h; try dsimp only
  repeat' (first | with_reducible exact Keeps.refl _ | with_reducible apply powerGoodLoss_keeps | split)

theorem execPhaseShed_keeps {rail : Nat} {s t : State}
    (h : execPhaseShed rail s = .next t) : Keeps s t := by
  unfold execPhaseShed at h; injection h with h; subst h; try dsimp only
  repeat' (first | with_reducible exact Keeps.refl _ | with_reducible apply phaseShed_keeps | split)

theorem execCapControl_keeps {mv : Nat} {ca : Nat} {dw : Nat} {s t : State}
    (h : execCapControl mv ca dw s = .next t) : Keeps s t := by
  unfold execCapControl at h; injection h with h; subst h; try dsimp only
  repeat' (first | with_reducible exact Keeps.refl _ | with_reducible apply capControl_keeps | split)

theorem execLimbThrottle_keeps {limb : Nat} {temp : Nat} {s t : State}
    (h : execLimbThrottle limb temp s = .next t) : Keeps s t := by
  unfold execLimbThrottle at h; injection h with h; subst h; try dsimp only
  repeat' (first | with_reducible exact Keeps.refl _ | with_reducible apply limbThrottle_keeps | split)

theorem execThermalShutdown_keeps {sensor : Nat} {temp : Nat} {s t : State}
    (h : execThermalShutdown sensor temp s = .next t) : Keeps s t := by
  unfold execThermalShutdown at h; injection h with h; subst h; try dsimp only
  repeat' (first | with_reducible exact Keeps.refl _ | with_reducible apply thermalShutdown_keeps | split)

theorem execHbmThermal_keeps {stack : Fin 8} {temp : Nat} {s t : State}
    (h : execHbmThermal stack temp s = .next t) : Keeps s t := by
  unfold execHbmThermal at h; injection h with h; subst h; try dsimp only
  repeat' (first | with_reducible exact Keeps.refl _ | with_reducible apply hbmThermal_keeps | split)

theorem execReadVin_keeps {s t : State}
    (h : execReadVin s = .next t) : Keeps s t := by
  unfold execReadVin at h; injection h with h; subst h; try dsimp only
  repeat' (first | with_reducible exact Keeps.refl _ | with_reducible apply readVin_keeps | split)

theorem execReadIin_keeps {s t : State}
    (h : execReadIin s = .next t) : Keeps s t := by
  unfold execReadIin at h; injection h with h; subst h; try dsimp only
  repeat' (first | with_reducible exact Keeps.refl _ | with_reducible apply readIin_keeps | split)

theorem execReadTemperature1_keeps {s t : State}
    (h : execReadTemperature1 s = .next t) : Keeps s t := by
  unfold execReadTemperature1 at h; injection h with h; subst h; try dsimp only
  repeat' (first | with_reducible exact Keeps.refl _ | with_reducible apply readTemperature_keeps | split)

theorem execReadPin_keeps {s t : State}
    (h : execReadPin s = .next t) : Keeps s t := by
  unfold execReadPin at h; injection h with h; subst h; try dsimp only
  repeat' (first | with_reducible exact Keeps.refl _ | with_reducible apply readPin_keeps | split)

theorem execExtest_keeps {data : Nat} {s t : State}
    (h : execExtest data s = .next t) : Keeps s t := by
  unfold execExtest at h; injection h with h; subst h; try dsimp only
  repeat' (first | with_reducible exact Keeps.refl _ | with_reducible apply tapExtest_keeps | split)

theorem execIdcode_keeps {s t : State}
    (h : execIdcode s = .next t) : Keeps s t := by
  unfold execIdcode at h; injection h with h; subst h; try dsimp only
  repeat' (first | with_reducible exact Keeps.refl _ | with_reducible apply tapIdcode_keeps | split)

theorem execSamplePreload_keeps {data : Nat} {s t : State}
    (h : execSamplePreload data s = .next t) : Keeps s t := by
  unfold execSamplePreload at h; injection h with h; subst h; try dsimp only
  repeat' (first | with_reducible exact Keeps.refl _ | with_reducible apply tapSample_keeps | split)

theorem execScanRead_keeps {body : Bytes} {s t : State}
    (h : execScanRead body s = .next t) : Keeps s t := by
  unfold execScanRead at h; injection h with h; subst h; try dsimp only
  repeat' (first | with_reducible exact Keeps.refl _ | with_reducible apply tapScan_keeps | split)

theorem execBypass_keeps {code : Nat} {data : Nat} {s t : State}
    (h : execBypass code data s = .next t) : Keeps s t := by
  unfold execBypass at h; injection h with h; subst h; try dsimp only
  repeat' (first | with_reducible exact Keeps.refl _ | with_reducible apply tapBypass_keeps | split)

end Sys2Proof.Machine
end

