-- ==== Sys2Proof/Laws/KeepsExecQueue.lean ====
section
/-!
SUPPORT. The meanings of RowsQueue keep the queue and the canonical form of the tables.
-/

namespace Sys2Proof.Machine

theorem execOpenRetry_keeps {queue : Fin 4096} {s t : State}
    (h : execOpenRetry queue s = .next t) : Keeps s t := by
  unfold execOpenRetry at h; injection h with h; subst h; try dsimp only
  repeat' (first | with_reducible exact Keeps.refl _ | with_reducible apply openRetry_keeps | split)

theorem execPortOpen_keeps {crown : Fin 16} {queue : Fin 4096} {v : Nat} {s t : State}
    (h : execPortOpen crown queue v s = .next t) : Keeps s t := by
  unfold execPortOpen at h; injection h with h; subst h; try dsimp only
  repeat' (first | with_reducible exact Keeps.refl _ | with_reducible apply portOpen_keeps | split)

theorem execPortPush_keeps {crown : Fin 16} {queue : Fin 4096} {stage : Bool} {v : Word} {flip : Bool} {s t : State}
    (h : execPortPush crown queue stage v flip s = .next t) : Keeps s t := by
  unfold execPortPush at h; injection h with h; subst h; try dsimp only
  repeat' (first | with_reducible exact Keeps.refl _ | with_reducible apply portPush_keeps | split)

theorem execPortCommit_keeps {crown : Fin 16} {queue : Fin 4096} {s t : State}
    (h : execPortCommit crown queue s = .next t) : Keeps s t := by
  unfold execPortCommit at h; injection h with h; subst h; try dsimp only
  repeat' (first | with_reducible exact Keeps.refl _ | with_reducible apply portCommit_keeps | split)

theorem execPortAbort_keeps {crown : Fin 16} {queue : Fin 4096} {s t : State}
    (h : execPortAbort crown queue s = .next t) : Keeps s t := by
  unfold execPortAbort at h; injection h with h; subst h; try dsimp only
  repeat' (first | with_reducible exact Keeps.refl _ | with_reducible apply portAbort_keeps | split)

theorem execPortRead_keeps {crown : Fin 16} {queue : Fin 4096} {flag : Option Bool} {flip : Bool} {s t : State}
    (h : execPortRead crown queue flag flip s = .next t) : Keeps s t := by
  unfold execPortRead at h; injection h with h; subst h; try dsimp only
  repeat' (first | with_reducible exact Keeps.refl _ | with_reducible apply portRead_keeps | split)

theorem execPortMark_keeps {crown : Fin 16} {queue : Fin 4096} {s t : State}
    (h : execPortMark crown queue s = .next t) : Keeps s t := by
  unfold execPortMark at h; injection h with h; subst h; try dsimp only
  repeat' (first | with_reducible exact Keeps.refl _ | with_reducible apply portMark_keeps | split)

theorem execPortRewind_keeps {crown : Fin 16} {queue : Fin 4096} {s t : State}
    (h : execPortRewind crown queue s = .next t) : Keeps s t := by
  unfold execPortRewind at h; injection h with h; subst h; try dsimp only
  repeat' (first | with_reducible exact Keeps.refl _ | with_reducible apply portRewind_keeps | split)

theorem execPortRelease_keeps {crown : Fin 16} {queue : Fin 4096} {s t : State}
    (h : execPortRelease crown queue s = .next t) : Keeps s t := by
  unfold execPortRelease at h; injection h with h; subst h; try dsimp only
  repeat' (first | with_reducible exact Keeps.refl _ | with_reducible apply portRelease_keeps | split)

theorem execFlush_keeps {queue : Fin 4096} {s t : State}
    (h : execFlush queue s = .next t) : Keeps s t := by
  unfold execFlush at h; injection h with h; subst h; try dsimp only
  repeat' (first | with_reducible exact Keeps.refl _ | with_reducible apply flushRow_keeps | split)

theorem execHeartwoodScrub_keeps {ce : List Nat} {ue : List Nat} {s t : State}
    (h : execHeartwoodScrub ce ue s = .next t) : Keeps s t := by
  unfold execHeartwoodScrub at h; injection h with h; subst h; try dsimp only
  repeat' (first | with_reducible exact Keeps.refl _ | with_reducible apply heartwoodScrub_keeps | split)

end Sys2Proof.Machine
end

