-- ==== Sys2Proof/Laws/KeepsExecScalar.lean ====
section
/-!
SUPPORT. The meanings of RowsScalar keep the queue and the canonical form of the tables.
-/

namespace Sys2Proof.Machine

theorem execWAdd_keeps {core : Fin 1280} {hc : Fin 8} {s t : State}
    (h : execWAdd core hc s = .next t) : Keeps s t := by
  unfold execWAdd at h; injection h with h; subst h; try dsimp only
  repeat' (first | with_reducible exact Keeps.refl _ | with_reducible apply issueRow_keeps | split)

theorem execWSub_keeps {core : Fin 1280} {hc : Fin 8} {s t : State}
    (h : execWSub core hc s = .next t) : Keeps s t := by
  unfold execWSub at h; injection h with h; subst h; try dsimp only
  repeat' (first | with_reducible exact Keeps.refl _ | with_reducible apply issueRow_keeps | split)

theorem execWAnd_keeps {core : Fin 1280} {hc : Fin 8} {s t : State}
    (h : execWAnd core hc s = .next t) : Keeps s t := by
  unfold execWAnd at h; injection h with h; subst h; try dsimp only
  repeat' (first | with_reducible exact Keeps.refl _ | with_reducible apply issueRow_keeps | split)

theorem execWOr_keeps {core : Fin 1280} {hc : Fin 8} {s t : State}
    (h : execWOr core hc s = .next t) : Keeps s t := by
  unfold execWOr at h; injection h with h; subst h; try dsimp only
  repeat' (first | with_reducible exact Keeps.refl _ | with_reducible apply issueRow_keeps | split)

theorem execWXor_keeps {core : Fin 1280} {hc : Fin 8} {s t : State}
    (h : execWXor core hc s = .next t) : Keeps s t := by
  unfold execWXor at h; injection h with h; subst h; try dsimp only
  repeat' (first | with_reducible exact Keeps.refl _ | with_reducible apply issueRow_keeps | split)

theorem execWShl_keeps {core : Fin 1280} {hc : Fin 8} {s t : State}
    (h : execWShl core hc s = .next t) : Keeps s t := by
  unfold execWShl at h; injection h with h; subst h; try dsimp only
  repeat' (first | with_reducible exact Keeps.refl _ | with_reducible apply issueRow_keeps | split)

theorem execWShr_keeps {core : Fin 1280} {hc : Fin 8} {s t : State}
    (h : execWShr core hc s = .next t) : Keeps s t := by
  unfold execWShr at h; injection h with h; subst h; try dsimp only
  repeat' (first | with_reducible exact Keeps.refl _ | with_reducible apply issueRow_keeps | split)

theorem execWSar_keeps {core : Fin 1280} {hc : Fin 8} {s t : State}
    (h : execWSar core hc s = .next t) : Keeps s t := by
  unfold execWSar at h; injection h with h; subst h; try dsimp only
  repeat' (first | with_reducible exact Keeps.refl _ | with_reducible apply issueRow_keeps | split)

theorem execWMin_keeps {core : Fin 1280} {hc : Fin 8} {s t : State}
    (h : execWMin core hc s = .next t) : Keeps s t := by
  unfold execWMin at h; injection h with h; subst h; try dsimp only
  repeat' (first | with_reducible exact Keeps.refl _ | with_reducible apply issueRow_keeps | split)

theorem execWMax_keeps {core : Fin 1280} {hc : Fin 8} {s t : State}
    (h : execWMax core hc s = .next t) : Keeps s t := by
  unfold execWMax at h; injection h with h; subst h; try dsimp only
  repeat' (first | with_reducible exact Keeps.refl _ | with_reducible apply issueRow_keeps | split)

theorem execWMinu_keeps {core : Fin 1280} {hc : Fin 8} {s t : State}
    (h : execWMinu core hc s = .next t) : Keeps s t := by
  unfold execWMinu at h; injection h with h; subst h; try dsimp only
  repeat' (first | with_reducible exact Keeps.refl _ | with_reducible apply issueRow_keeps | split)

theorem execWMaxu_keeps {core : Fin 1280} {hc : Fin 8} {s t : State}
    (h : execWMaxu core hc s = .next t) : Keeps s t := by
  unfold execWMaxu at h; injection h with h; subst h; try dsimp only
  repeat' (first | with_reducible exact Keeps.refl _ | with_reducible apply issueRow_keeps | split)

theorem execWClz_keeps {core : Fin 1280} {hc : Fin 8} {s t : State}
    (h : execWClz core hc s = .next t) : Keeps s t := by
  unfold execWClz at h; injection h with h; subst h; try dsimp only
  repeat' (first | with_reducible exact Keeps.refl _ | with_reducible apply issueRow_keeps | split)

theorem execWPopc_keeps {core : Fin 1280} {hc : Fin 8} {s t : State}
    (h : execWPopc core hc s = .next t) : Keeps s t := by
  unfold execWPopc at h; injection h with h; subst h; try dsimp only
  repeat' (first | with_reducible exact Keeps.refl _ | with_reducible apply issueRow_keeps | split)

theorem execWSel_keeps {core : Fin 1280} {hc : Fin 8} {s t : State}
    (h : execWSel core hc s = .next t) : Keeps s t := by
  unfold execWSel at h; injection h with h; subst h; try dsimp only
  repeat' (first | with_reducible exact Keeps.refl _ | with_reducible apply issueRow_keeps | split)

theorem execWMul_keeps {core : Fin 1280} {hc : Fin 8} {s t : State}
    (h : execWMul core hc s = .next t) : Keeps s t := by
  unfold execWMul at h; injection h with h; subst h; try dsimp only
  repeat' (first | with_reducible exact Keeps.refl _ | with_reducible apply issueRow_keeps | split)

theorem execWMulh_keeps {core : Fin 1280} {hc : Fin 8} {s t : State}
    (h : execWMulh core hc s = .next t) : Keeps s t := by
  unfold execWMulh at h; injection h with h; subst h; try dsimp only
  repeat' (first | with_reducible exact Keeps.refl _ | with_reducible apply issueRow_keeps | split)

theorem execWMulhu_keeps {core : Fin 1280} {hc : Fin 8} {s t : State}
    (h : execWMulhu core hc s = .next t) : Keeps s t := by
  unfold execWMulhu at h; injection h with h; subst h; try dsimp only
  repeat' (first | with_reducible exact Keeps.refl _ | with_reducible apply issueRow_keeps | split)

theorem execWDiv_keeps {core : Fin 1280} {hc : Fin 8} {s t : State}
    (h : execWDiv core hc s = .next t) : Keeps s t := by
  unfold execWDiv at h; injection h with h; subst h; try dsimp only
  repeat' (first | with_reducible exact Keeps.refl _ | with_reducible apply issueRow_keeps | split)

theorem execWDivu_keeps {core : Fin 1280} {hc : Fin 8} {s t : State}
    (h : execWDivu core hc s = .next t) : Keeps s t := by
  unfold execWDivu at h; injection h with h; subst h; try dsimp only
  repeat' (first | with_reducible exact Keeps.refl _ | with_reducible apply issueRow_keeps | split)

theorem execWRem_keeps {core : Fin 1280} {hc : Fin 8} {s t : State}
    (h : execWRem core hc s = .next t) : Keeps s t := by
  unfold execWRem at h; injection h with h; subst h; try dsimp only
  repeat' (first | with_reducible exact Keeps.refl _ | with_reducible apply issueRow_keeps | split)

theorem execWRemu_keeps {core : Fin 1280} {hc : Fin 8} {s t : State}
    (h : execWRemu core hc s = .next t) : Keeps s t := by
  unfold execWRemu at h; injection h with h; subst h; try dsimp only
  repeat' (first | with_reducible exact Keeps.refl _ | with_reducible apply issueRow_keeps | split)

theorem execWLi_keeps {core : Fin 1280} {hc : Fin 8} {s t : State}
    (h : execWLi core hc s = .next t) : Keeps s t := by
  unfold execWLi at h; injection h with h; subst h; try dsimp only
  repeat' (first | with_reducible exact Keeps.refl _ | with_reducible apply issueRow_keeps | split)

theorem execWLui_keeps {core : Fin 1280} {hc : Fin 8} {s t : State}
    (h : execWLui core hc s = .next t) : Keeps s t := by
  unfold execWLui at h; injection h with h; subst h; try dsimp only
  repeat' (first | with_reducible exact Keeps.refl _ | with_reducible apply issueRow_keeps | split)

theorem execWCeq_keeps {core : Fin 1280} {hc : Fin 8} {s t : State}
    (h : execWCeq core hc s = .next t) : Keeps s t := by
  unfold execWCeq at h; injection h with h; subst h; try dsimp only
  repeat' (first | with_reducible exact Keeps.refl _ | with_reducible apply issueRow_keeps | split)

theorem execWCne_keeps {core : Fin 1280} {hc : Fin 8} {s t : State}
    (h : execWCne core hc s = .next t) : Keeps s t := by
  unfold execWCne at h; injection h with h; subst h; try dsimp only
  repeat' (first | with_reducible exact Keeps.refl _ | with_reducible apply issueRow_keeps | split)

theorem execWClt_keeps {core : Fin 1280} {hc : Fin 8} {s t : State}
    (h : execWClt core hc s = .next t) : Keeps s t := by
  unfold execWClt at h; injection h with h; subst h; try dsimp only
  repeat' (first | with_reducible exact Keeps.refl _ | with_reducible apply issueRow_keeps | split)

theorem execWCltu_keeps {core : Fin 1280} {hc : Fin 8} {s t : State}
    (h : execWCltu core hc s = .next t) : Keeps s t := by
  unfold execWCltu at h; injection h with h; subst h; try dsimp only
  repeat' (first | with_reducible exact Keeps.refl _ | with_reducible apply issueRow_keeps | split)

theorem execWCle_keeps {core : Fin 1280} {hc : Fin 8} {s t : State}
    (h : execWCle core hc s = .next t) : Keeps s t := by
  unfold execWCle at h; injection h with h; subst h; try dsimp only
  repeat' (first | with_reducible exact Keeps.refl _ | with_reducible apply issueRow_keeps | split)

theorem execWCleu_keeps {core : Fin 1280} {hc : Fin 8} {s t : State}
    (h : execWCleu core hc s = .next t) : Keeps s t := by
  unfold execWCleu at h; injection h with h; subst h; try dsimp only
  repeat' (first | with_reducible exact Keeps.refl _ | with_reducible apply issueRow_keeps | split)

theorem execWPand_keeps {core : Fin 1280} {hc : Fin 8} {s t : State}
    (h : execWPand core hc s = .next t) : Keeps s t := by
  unfold execWPand at h; injection h with h; subst h; try dsimp only
  repeat' (first | with_reducible exact Keeps.refl _ | with_reducible apply issueRow_keeps | split)

theorem execWPor_keeps {core : Fin 1280} {hc : Fin 8} {s t : State}
    (h : execWPor core hc s = .next t) : Keeps s t := by
  unfold execWPor at h; injection h with h; subst h; try dsimp only
  repeat' (first | with_reducible exact Keeps.refl _ | with_reducible apply issueRow_keeps | split)

theorem execWPxor_keeps {core : Fin 1280} {hc : Fin 8} {s t : State}
    (h : execWPxor core hc s = .next t) : Keeps s t := by
  unfold execWPxor at h; injection h with h; subst h; try dsimp only
  repeat' (first | with_reducible exact Keeps.refl _ | with_reducible apply issueRow_keeps | split)

theorem execWPandn_keeps {core : Fin 1280} {hc : Fin 8} {s t : State}
    (h : execWPandn core hc s = .next t) : Keeps s t := by
  unfold execWPandn at h; injection h with h; subst h; try dsimp only
  repeat' (first | with_reducible exact Keeps.refl _ | with_reducible apply issueRow_keeps | split)

theorem execWPfirst_keeps {core : Fin 1280} {hc : Fin 8} {s t : State}
    (h : execWPfirst core hc s = .next t) : Keeps s t := by
  unfold execWPfirst at h; injection h with h; subst h; try dsimp only
  repeat' (first | with_reducible exact Keeps.refl _ | with_reducible apply issueRow_keeps | split)

theorem execWLd8u_keeps {core : Fin 1280} {hc : Fin 8} {s t : State}
    (h : execWLd8u core hc s = .next t) : Keeps s t := by
  unfold execWLd8u at h; injection h with h; subst h; try dsimp only
  repeat' (first | with_reducible exact Keeps.refl _ | with_reducible apply issueRow_keeps | split)

theorem execWLd16u_keeps {core : Fin 1280} {hc : Fin 8} {s t : State}
    (h : execWLd16u core hc s = .next t) : Keeps s t := by
  unfold execWLd16u at h; injection h with h; subst h; try dsimp only
  repeat' (first | with_reducible exact Keeps.refl _ | with_reducible apply issueRow_keeps | split)

theorem execWLd32u_keeps {core : Fin 1280} {hc : Fin 8} {s t : State}
    (h : execWLd32u core hc s = .next t) : Keeps s t := by
  unfold execWLd32u at h; injection h with h; subst h; try dsimp only
  repeat' (first | with_reducible exact Keeps.refl _ | with_reducible apply issueRow_keeps | split)

theorem execWLd64_keeps {core : Fin 1280} {hc : Fin 8} {s t : State}
    (h : execWLd64 core hc s = .next t) : Keeps s t := by
  unfold execWLd64 at h; injection h with h; subst h; try dsimp only
  repeat' (first | with_reducible exact Keeps.refl _ | with_reducible apply issueRow_keeps | split)

theorem execWLd8s_keeps {core : Fin 1280} {hc : Fin 8} {s t : State}
    (h : execWLd8s core hc s = .next t) : Keeps s t := by
  unfold execWLd8s at h; injection h with h; subst h; try dsimp only
  repeat' (first | with_reducible exact Keeps.refl _ | with_reducible apply issueRow_keeps | split)

theorem execWLd16s_keeps {core : Fin 1280} {hc : Fin 8} {s t : State}
    (h : execWLd16s core hc s = .next t) : Keeps s t := by
  unfold execWLd16s at h; injection h with h; subst h; try dsimp only
  repeat' (first | with_reducible exact Keeps.refl _ | with_reducible apply issueRow_keeps | split)

theorem execWLd32s_keeps {core : Fin 1280} {hc : Fin 8} {s t : State}
    (h : execWLd32s core hc s = .next t) : Keeps s t := by
  unfold execWLd32s at h; injection h with h; subst h; try dsimp only
  repeat' (first | with_reducible exact Keeps.refl _ | with_reducible apply issueRow_keeps | split)

theorem execWSt8_keeps {core : Fin 1280} {hc : Fin 8} {s t : State}
    (h : execWSt8 core hc s = .next t) : Keeps s t := by
  unfold execWSt8 at h; injection h with h; subst h; try dsimp only
  repeat' (first | with_reducible exact Keeps.refl _ | with_reducible apply issueRow_keeps | split)

theorem execWSt16_keeps {core : Fin 1280} {hc : Fin 8} {s t : State}
    (h : execWSt16 core hc s = .next t) : Keeps s t := by
  unfold execWSt16 at h; injection h with h; subst h; try dsimp only
  repeat' (first | with_reducible exact Keeps.refl _ | with_reducible apply issueRow_keeps | split)

theorem execWSt32_keeps {core : Fin 1280} {hc : Fin 8} {s t : State}
    (h : execWSt32 core hc s = .next t) : Keeps s t := by
  unfold execWSt32 at h; injection h with h; subst h; try dsimp only
  repeat' (first | with_reducible exact Keeps.refl _ | with_reducible apply issueRow_keeps | split)

theorem execWSt64_keeps {core : Fin 1280} {hc : Fin 8} {s t : State}
    (h : execWSt64 core hc s = .next t) : Keeps s t := by
  unfold execWSt64 at h; injection h with h; subst h; try dsimp only
  repeat' (first | with_reducible exact Keeps.refl _ | with_reducible apply issueRow_keeps | split)

theorem execLoadComplete_keeps {core : Fin 1280} {hc : Fin 8} {reg : RegRef} {s t : State}
    (h : execLoadComplete core hc reg s = .next t) : Keeps s t := by
  unfold execLoadComplete at h; injection h with h; subst h; try dsimp only
  repeat' (first | with_reducible exact Keeps.refl _ | with_reducible apply whileRunning_keeps | with_reducible apply loadComplete_keeps | split)

end Sys2Proof.Machine
end

