-- ==== Sys2Proof/Laws/KeepsExecSpan.lean ====
section
/-!
SUPPORT. The meanings of RowsSpan keep the queue and the canonical form of the tables.
-/

namespace Sys2Proof.Machine

theorem execLinkEnable_keeps {link : Fin 8} {s t : State}
    (h : execLinkEnable link s = .next t) : Keeps s t := by
  unfold execLinkEnable at h; injection h with h; subst h; try dsimp only
  repeat' (first | with_reducible exact Keeps.refl _ | with_reducible apply linkEnableRow_keeps | split)

theorem execLinkTrained_keeps {link : Fin 8} {peer : Nat} {badLane : Option (Fin 4)} {s t : State}
    (h : execLinkTrained link peer badLane s = .next t) : Keeps s t := by
  unfold execLinkTrained at h; injection h with h; subst h; try dsimp only
  repeat' (first | with_reducible exact Keeps.refl _ | with_reducible apply linkTrained_keeps | split)

theorem execLaneFault_keeps {link : Fin 8} {lane : Fin 4} {s t : State}
    (h : execLaneFault link lane s = .next t) : Keeps s t := by
  unfold execLaneFault at h; injection h with h; subst h; try dsimp only
  repeat' (first | with_reducible exact Keeps.refl _ | with_reducible apply laneFault_keeps | split)

theorem execRetrainComplete_keeps {link : Fin 8} {ok : Bool} {s t : State}
    (h : execRetrainComplete link ok s = .next t) : Keeps s t := by
  unfold execRetrainComplete at h; injection h with h; subst h; try dsimp only
  repeat' (first | with_reducible exact Keeps.refl _ | with_reducible apply retrainComplete_keeps | split)

theorem execLinkRetrain_keeps {link : Fin 8} {s t : State}
    (h : execLinkRetrain link s = .next t) : Keeps s t := by
  unfold execLinkRetrain at h; injection h with h; subst h; try dsimp only
  repeat' (first | with_reducible exact Keeps.refl _ | with_reducible apply linkRetrainRow_keeps | split)

theorem execLinkSilence_keeps {link : Fin 8} {s t : State}
    (h : execLinkSilence link s = .next t) : Keeps s t := by
  unfold execLinkSilence at h; injection h with h; subst h; try dsimp only
  repeat' (first | with_reducible exact Keeps.refl _ | with_reducible apply linkSilence_keeps | split)

theorem execRetryReq_keeps {link : Fin 8} {seq : Nat} {s t : State}
    (h : execRetryReq link seq s = .next t) : Keeps s t := by
  unfold execRetryReq at h; injection h with h; subst h; try dsimp only
  repeat' (first | with_reducible exact Keeps.refl _ | with_reducible apply retryReq_keeps | split)

theorem execWriteReq_keeps {link : Fin 8} {vc : Fin 5} {m : SpanMsg} {s t : State}
    (h : execWriteReq link vc m s = .next t) : Keeps s t := by
  unfold execWriteReq at h; injection h with h; subst h; try dsimp only
  repeat' (first | with_reducible exact Keeps.refl _ | with_reducible apply writeReq_keeps | split)

theorem execReadReq_keeps {link : Fin 8} {vc : Fin 5} {m : SpanMsg} {s t : State}
    (h : execReadReq link vc m s = .next t) : Keeps s t := by
  unfold execReadReq at h; injection h with h; subst h; try dsimp only
  repeat' (first | with_reducible exact Keeps.refl _ | with_reducible apply readReq_keeps | split)

theorem execWriteRsp_keeps {link : Fin 8} {vc : Fin 5} {m : SpanMsg} {s t : State}
    (h : execWriteRsp link vc m s = .next t) : Keeps s t := by
  unfold execWriteRsp at h; injection h with h; subst h; try dsimp only
  repeat' (first | with_reducible exact Keeps.refl _ | with_reducible apply writeRsp_keeps | split)

theorem execReadRsp_keeps {link : Fin 8} {vc : Fin 5} {m : SpanMsg} {s t : State}
    (h : execReadRsp link vc m s = .next t) : Keeps s t := by
  unfold execReadRsp at h; injection h with h; subst h; try dsimp only
  repeat' (first | with_reducible exact Keeps.refl _ | with_reducible apply readRsp_keeps | split)

theorem execRequestTimeout_keeps {xid : Nat} {s t : State}
    (h : execRequestTimeout xid s = .next t) : Keeps s t := by
  unfold execRequestTimeout at h; injection h with h; subst h; try dsimp only
  repeat' (first | with_reducible exact Keeps.refl _ | with_reducible apply whileRunning_keeps | with_reducible apply requestTimeout_keeps | split)

theorem execRouteMove_keeps {dst : Fin 64} {parity : Fin 2} {s t : State}
    (h : execRouteMove dst parity s = .next t) : Keeps s t := by
  unfold execRouteMove at h; injection h with h; subst h; try dsimp only
  repeat' (first | with_reducible exact Keeps.refl _ | with_reducible apply routeMove_keeps | split)

theorem execLinkDown_keeps {link : Fin 8} {head : CtlHead} {neighbour : Nat} {s t : State}
    (h : execLinkDown link head neighbour s = .next t) : Keeps s t := by
  unfold execLinkDown at h; injection h with h; subst h; try dsimp only
  repeat' (first | with_reducible exact Keeps.refl _ | with_reducible apply linkDownMsg_keeps | split)

theorem execSpanHalt_keeps {link : Fin 8} {head : CtlHead} {s t : State}
    (h : execSpanHalt link head s = .next t) : Keeps s t := by
  unfold execSpanHalt at h; injection h with h; subst h; try dsimp only
  repeat' (first | with_reducible exact Keeps.refl _ | with_reducible apply spanHalt_keeps | split)

theorem execSpanResume_keeps {link : Fin 8} {head : CtlHead} {s t : State}
    (h : execSpanResume link head s = .next t) : Keeps s t := by
  unfold execSpanResume at h; injection h with h; subst h; try dsimp only
  repeat' (first | with_reducible exact Keeps.refl _ | with_reducible apply spanResume_keeps | split)

theorem execPrepare_keeps {link : Fin 8} {head : CtlHead} {plan : EpochPlan} {lost : Nat} {s t : State}
    (h : execPrepare link head plan lost s = .next t) : Keeps s t := by
  unfold execPrepare at h; injection h with h; subst h; try dsimp only
  repeat' (first | with_reducible exact Keeps.refl _ | with_reducible apply prepareMsg_keeps | split)

theorem execEpochReady_keeps {link : Fin 8} {head : CtlHead} {s t : State}
    (h : execEpochReady link head s = .next t) : Keeps s t := by
  unfold execEpochReady at h; injection h with h; subst h; try dsimp only
  repeat' (first | with_reducible exact Keeps.refl _ | with_reducible apply epochReady_keeps | split)

theorem execEpochRefuse_keeps {link : Fin 8} {head : CtlHead} {s t : State}
    (h : execEpochRefuse link head s = .next t) : Keeps s t := by
  unfold execEpochRefuse at h; injection h with h; subst h; try dsimp only
  repeat' (first | with_reducible exact Keeps.refl _ | with_reducible apply epochRefuse_keeps | split)

theorem execEpochReadyTimeout_keeps {s t : State}
    (h : execEpochReadyTimeout s = .next t) : Keeps s t := by
  unfold execEpochReadyTimeout at h; injection h with h; subst h; try dsimp only
  repeat' (first | with_reducible exact Keeps.refl _ | with_reducible apply epochReadyTimeout_keeps | split)

theorem execEpochCommit_keeps {link : Fin 8} {head : CtlHead} {s t : State}
    (h : execEpochCommit link head s = .next t) : Keeps s t := by
  unfold execEpochCommit at h; injection h with h; subst h; try dsimp only
  repeat' (first | with_reducible exact Keeps.refl _ | with_reducible apply epochCommit_keeps | split)

theorem execEpochAbort_keeps {link : Fin 8} {head : CtlHead} {s t : State}
    (h : execEpochAbort link head s = .next t) : Keeps s t := by
  unfold execEpochAbort at h; injection h with h; subst h; try dsimp only
  repeat' (first | with_reducible exact Keeps.refl _ | with_reducible apply epochAbort_keeps | split)

theorem execEpochClose_keeps {s t : State}
    (h : execEpochClose s = .next t) : Keeps s t := by
  unfold execEpochClose at h; injection h with h; subst h; try dsimp only
  repeat' (first | with_reducible exact Keeps.refl _ | with_reducible apply whileRunning_keeps | with_reducible apply epochClose_keeps | split)

end Sys2Proof.Machine
end

