-- ==== Sys2Proof/Laws/KeepsExecVector.lean ====
section
/-!
SUPPORT. The meanings of RowsVector keep the queue and the canonical form of the tables.
-/

namespace Sys2Proof.Machine

theorem execWVadd_keeps {core : Fin 1280} {hc : Fin 8} {s t : State}
    (h : execWVadd core hc s = .next t) : Keeps s t := by
  unfold execWVadd at h; injection h with h; subst h; try dsimp only
  repeat' (first | with_reducible exact Keeps.refl _ | with_reducible apply issueRow_keeps | split)

theorem execWVsub_keeps {core : Fin 1280} {hc : Fin 8} {s t : State}
    (h : execWVsub core hc s = .next t) : Keeps s t := by
  unfold execWVsub at h; injection h with h; subst h; try dsimp only
  repeat' (first | with_reducible exact Keeps.refl _ | with_reducible apply issueRow_keeps | split)

theorem execWVmul_keeps {core : Fin 1280} {hc : Fin 8} {s t : State}
    (h : execWVmul core hc s = .next t) : Keeps s t := by
  unfold execWVmul at h; injection h with h; subst h; try dsimp only
  repeat' (first | with_reducible exact Keeps.refl _ | with_reducible apply issueRow_keeps | split)

theorem execWVfma_keeps {core : Fin 1280} {hc : Fin 8} {s t : State}
    (h : execWVfma core hc s = .next t) : Keeps s t := by
  unfold execWVfma at h; injection h with h; subst h; try dsimp only
  repeat' (first | with_reducible exact Keeps.refl _ | with_reducible apply issueRow_keeps | split)

theorem execWVmin_keeps {core : Fin 1280} {hc : Fin 8} {s t : State}
    (h : execWVmin core hc s = .next t) : Keeps s t := by
  unfold execWVmin at h; injection h with h; subst h; try dsimp only
  repeat' (first | with_reducible exact Keeps.refl _ | with_reducible apply issueRow_keeps | split)

theorem execWVmax_keeps {core : Fin 1280} {hc : Fin 8} {s t : State}
    (h : execWVmax core hc s = .next t) : Keeps s t := by
  unfold execWVmax at h; injection h with h; subst h; try dsimp only
  repeat' (first | with_reducible exact Keeps.refl _ | with_reducible apply issueRow_keeps | split)

theorem execWVabs_keeps {core : Fin 1280} {hc : Fin 8} {s t : State}
    (h : execWVabs core hc s = .next t) : Keeps s t := by
  unfold execWVabs at h; injection h with h; subst h; try dsimp only
  repeat' (first | with_reducible exact Keeps.refl _ | with_reducible apply issueRow_keeps | split)

theorem execWVneg_keeps {core : Fin 1280} {hc : Fin 8} {s t : State}
    (h : execWVneg core hc s = .next t) : Keeps s t := by
  unfold execWVneg at h; injection h with h; subst h; try dsimp only
  repeat' (first | with_reducible exact Keeps.refl _ | with_reducible apply issueRow_keeps | split)

theorem execWVand_keeps {core : Fin 1280} {hc : Fin 8} {s t : State}
    (h : execWVand core hc s = .next t) : Keeps s t := by
  unfold execWVand at h; injection h with h; subst h; try dsimp only
  repeat' (first | with_reducible exact Keeps.refl _ | with_reducible apply issueRow_keeps | split)

theorem execWVor_keeps {core : Fin 1280} {hc : Fin 8} {s t : State}
    (h : execWVor core hc s = .next t) : Keeps s t := by
  unfold execWVor at h; injection h with h; subst h; try dsimp only
  repeat' (first | with_reducible exact Keeps.refl _ | with_reducible apply issueRow_keeps | split)

theorem execWVxor_keeps {core : Fin 1280} {hc : Fin 8} {s t : State}
    (h : execWVxor core hc s = .next t) : Keeps s t := by
  unfold execWVxor at h; injection h with h; subst h; try dsimp only
  repeat' (first | with_reducible exact Keeps.refl _ | with_reducible apply issueRow_keeps | split)

theorem execWVshl_keeps {core : Fin 1280} {hc : Fin 8} {s t : State}
    (h : execWVshl core hc s = .next t) : Keeps s t := by
  unfold execWVshl at h; injection h with h; subst h; try dsimp only
  repeat' (first | with_reducible exact Keeps.refl _ | with_reducible apply issueRow_keeps | split)

theorem execWVshr_keeps {core : Fin 1280} {hc : Fin 8} {s t : State}
    (h : execWVshr core hc s = .next t) : Keeps s t := by
  unfold execWVshr at h; injection h with h; subst h; try dsimp only
  repeat' (first | with_reducible exact Keeps.refl _ | with_reducible apply issueRow_keeps | split)

theorem execWVsar_keeps {core : Fin 1280} {hc : Fin 8} {s t : State}
    (h : execWVsar core hc s = .next t) : Keeps s t := by
  unfold execWVsar at h; injection h with h; subst h; try dsimp only
  repeat' (first | with_reducible exact Keeps.refl _ | with_reducible apply issueRow_keeps | split)

theorem execWVceq_keeps {core : Fin 1280} {hc : Fin 8} {s t : State}
    (h : execWVceq core hc s = .next t) : Keeps s t := by
  unfold execWVceq at h; injection h with h; subst h; try dsimp only
  repeat' (first | with_reducible exact Keeps.refl _ | with_reducible apply issueRow_keeps | split)

theorem execWVclt_keeps {core : Fin 1280} {hc : Fin 8} {s t : State}
    (h : execWVclt core hc s = .next t) : Keeps s t := by
  unfold execWVclt at h; injection h with h; subst h; try dsimp only
  repeat' (first | with_reducible exact Keeps.refl _ | with_reducible apply issueRow_keeps | split)

theorem execWVcle_keeps {core : Fin 1280} {hc : Fin 8} {s t : State}
    (h : execWVcle core hc s = .next t) : Keeps s t := by
  unfold execWVcle at h; injection h with h; subst h; try dsimp only
  repeat' (first | with_reducible exact Keeps.refl _ | with_reducible apply issueRow_keeps | split)

theorem execWVsel_keeps {core : Fin 1280} {hc : Fin 8} {s t : State}
    (h : execWVsel core hc s = .next t) : Keeps s t := by
  unfold execWVsel at h; injection h with h; subst h; try dsimp only
  repeat' (first | with_reducible exact Keeps.refl _ | with_reducible apply issueRow_keeps | split)

theorem execWVcvt_keeps {core : Fin 1280} {hc : Fin 8} {s t : State}
    (h : execWVcvt core hc s = .next t) : Keeps s t := by
  unfold execWVcvt at h; injection h with h; subst h; try dsimp only
  repeat' (first | with_reducible exact Keeps.refl _ | with_reducible apply issueRow_keeps | split)

theorem execWVbcast_keeps {core : Fin 1280} {hc : Fin 8} {s t : State}
    (h : execWVbcast core hc s = .next t) : Keeps s t := by
  unfold execWVbcast at h; injection h with h; subst h; try dsimp only
  repeat' (first | with_reducible exact Keeps.refl _ | with_reducible apply issueRow_keeps | split)

theorem execWVext_keeps {core : Fin 1280} {hc : Fin 8} {s t : State}
    (h : execWVext core hc s = .next t) : Keeps s t := by
  unfold execWVext at h; injection h with h; subst h; try dsimp only
  repeat' (first | with_reducible exact Keeps.refl _ | with_reducible apply issueRow_keeps | split)

theorem execWVins_keeps {core : Fin 1280} {hc : Fin 8} {s t : State}
    (h : execWVins core hc s = .next t) : Keeps s t := by
  unfold execWVins at h; injection h with h; subst h; try dsimp only
  repeat' (first | with_reducible exact Keeps.refl _ | with_reducible apply issueRow_keeps | split)

theorem execWVperm_keeps {core : Fin 1280} {hc : Fin 8} {s t : State}
    (h : execWVperm core hc s = .next t) : Keeps s t := by
  unfold execWVperm at h; injection h with h; subst h; try dsimp only
  repeat' (first | with_reducible exact Keeps.refl _ | with_reducible apply issueRow_keeps | split)

theorem execWVrsum_keeps {core : Fin 1280} {hc : Fin 8} {s t : State}
    (h : execWVrsum core hc s = .next t) : Keeps s t := by
  unfold execWVrsum at h; injection h with h; subst h; try dsimp only
  repeat' (first | with_reducible exact Keeps.refl _ | with_reducible apply issueRow_keeps | split)

theorem execWVrmax_keeps {core : Fin 1280} {hc : Fin 8} {s t : State}
    (h : execWVrmax core hc s = .next t) : Keeps s t := by
  unfold execWVrmax at h; injection h with h; subst h; try dsimp only
  repeat' (first | with_reducible exact Keeps.refl _ | with_reducible apply issueRow_keeps | split)

theorem execWVrmin_keeps {core : Fin 1280} {hc : Fin 8} {s t : State}
    (h : execWVrmin core hc s = .next t) : Keeps s t := by
  unfold execWVrmin at h; injection h with h; subst h; try dsimp only
  repeat' (first | with_reducible exact Keeps.refl _ | with_reducible apply issueRow_keeps | split)

theorem execWVexp2_keeps {core : Fin 1280} {hc : Fin 8} {s t : State}
    (h : execWVexp2 core hc s = .next t) : Keeps s t := by
  unfold execWVexp2 at h; injection h with h; subst h; try dsimp only
  repeat' (first | with_reducible exact Keeps.refl _ | with_reducible apply issueRow_keeps | split)

theorem execWVlog2_keeps {core : Fin 1280} {hc : Fin 8} {s t : State}
    (h : execWVlog2 core hc s = .next t) : Keeps s t := by
  unfold execWVlog2 at h; injection h with h; subst h; try dsimp only
  repeat' (first | with_reducible exact Keeps.refl _ | with_reducible apply issueRow_keeps | split)

theorem execWVrcp_keeps {core : Fin 1280} {hc : Fin 8} {s t : State}
    (h : execWVrcp core hc s = .next t) : Keeps s t := by
  unfold execWVrcp at h; injection h with h; subst h; try dsimp only
  repeat' (first | with_reducible exact Keeps.refl _ | with_reducible apply issueRow_keeps | split)

theorem execWVrsqrt_keeps {core : Fin 1280} {hc : Fin 8} {s t : State}
    (h : execWVrsqrt core hc s = .next t) : Keeps s t := by
  unfold execWVrsqrt at h; injection h with h; subst h; try dsimp only
  repeat' (first | with_reducible exact Keeps.refl _ | with_reducible apply issueRow_keeps | split)

theorem execWVtanh_keeps {core : Fin 1280} {hc : Fin 8} {s t : State}
    (h : execWVtanh core hc s = .next t) : Keeps s t := by
  unfold execWVtanh at h; injection h with h; subst h; try dsimp only
  repeat' (first | with_reducible exact Keeps.refl _ | with_reducible apply issueRow_keeps | split)

theorem execWVsigm_keeps {core : Fin 1280} {hc : Fin 8} {s t : State}
    (h : execWVsigm core hc s = .next t) : Keeps s t := by
  unfold execWVsigm at h; injection h with h; subst h; try dsimp only
  repeat' (first | with_reducible exact Keeps.refl _ | with_reducible apply issueRow_keeps | split)

theorem execWVld_keeps {core : Fin 1280} {hc : Fin 8} {s t : State}
    (h : execWVld core hc s = .next t) : Keeps s t := by
  unfold execWVld at h; injection h with h; subst h; try dsimp only
  repeat' (first | with_reducible exact Keeps.refl _ | with_reducible apply issueRow_keeps | split)

theorem execWVst_keeps {core : Fin 1280} {hc : Fin 8} {s t : State}
    (h : execWVst core hc s = .next t) : Keeps s t := by
  unfold execWVst at h; injection h with h; subst h; try dsimp only
  repeat' (first | with_reducible exact Keeps.refl _ | with_reducible apply issueRow_keeps | split)

end Sys2Proof.Machine
end

