-- ==== Sys2Proof/Laws/Memory.lean ====
section
/-!
SUPPORT. Physical memory: what a byte reads as after a byte string is stored, and what a store leaves.
-/

namespace Sys2Proof.Machine

/-- A byte of a memory after a byte string is written: the string's own byte inside its range, and the byte before outside it. -/
theorem memPut_get (m : FMap Byte) (a : Nat) (bs : Bytes) (x : Nat) :
    fgetD 0 (memPut m a bs) x = if a ≤ x ∧ x < a + bs.length then bs.getD (x - a) 0 else fgetD 0 m x := by
  induction bs generalizing m a with
  | nil =>
    simp only [memPut, List.length_nil, Nat.add_zero]
    rw [if_neg (by omega)]
  | cons b t ih =>
    simp only [memPut, ih, List.length_cons]
    by_cases hx : x = a
    · subst hx
      rw [if_neg (by omega), if_pos (by omega), fgetD_fsetD_self]
      simp
    · rw [fgetD_fsetD_ne _ _ hx]
      by_cases hr : a + 1 ≤ x ∧ x < a + 1 + t.length
      · rw [if_pos hr, if_pos (by omega), show x - a = (x - (a + 1)) + 1 by omega]
        simp
      · rw [if_neg hr, if_neg (by omega)]

/-- A memory keeps its canonical form when a byte string is written. -/
theorem memPut_wf {m : FMap Byte} (h : Memory.wf m = true) (a : Nat) (bs : Bytes) : Memory.wf (memPut m a bs) = true := by
  induction bs generalizing m a with
  | nil => exact h
  | cons b t ih => exact ih (fcanon_fsetD h a b) (a + 1)

@[simp] theorem notePc_mem (s : State) (g : Nat) (ue : Bool) : (notePc s g ue).mem = s.mem := rfl

@[simp] theorem countCe_mem (s : State) (g : Nat) : (countCe s g).mem = s.mem := by
  unfold countCe
  dsimp only
  split
  · rfl
  · split <;> rfl

/-- Meeting an upset changes no byte of memory. -/
@[simp] theorem meetUpset_mem (s : State) (g : Nat) : (meetUpset s g).mem = s.mem := by
  unfold meetUpset
  split
  · rfl
  · exact countCe_mem _ _
  · rfl

@[simp] theorem meetUpsets_mem (s : State) (gs : List Nat) : (gs.foldl meetUpset s).mem = s.mem := by
  induction gs generalizing s with
  | nil => rfl
  | cons g gs ih => exact (ih _).trans (meetUpset_mem _ _)

/-- A store in one place of the storage writes its bytes and no other. -/
@[simp] theorem storeAt_mem (s : State) (a : Nat) (bs : Bytes) : (storeAt s a bs).mem = memPut s.mem a bs := by
  unfold storeAt
  dsimp only
  rw [meetUpsets_mem]

@[simp] theorem rebuildLine_mem (s : State) (a : Nat) : (rebuildLine s a).mem = s.mem := by
  unfold rebuildLine
  dsimp only
  split <;> rfl

/-- A write in a line that is mapped, lies outside Heartwood and is not mirrored writes its bytes in their place. -/
theorem lineWr_plain {s : State} {a : Nat} (bs : Bytes) (c : inHeart a = false) (m : mirrorOf s a = none) (u : pcUnmapped s a = false) :
    lineWr s a bs = rebuildLine (storeAt s a bs) a := by
  unfold lineWr
  rw [c, m, u]
  rfl

/-- A write in an unmapped line that is not mirrored is dropped. -/
theorem lineWr_unmapped {s : State} {a : Nat} (bs : Bytes) (c : inHeart a = false) (m : mirrorOf s a = none) (u : pcUnmapped s a = true) :
    lineWr s a bs = s := by
  unfold lineWr
  rw [c, m, u]
  rfl

/-- A byte that no copy serves is read from its own place. -/
theorem memRd_own {s : State} {a : Nat} (h : copyServes s (a / 32) = false) : memRd s a = fgetD 0 s.mem a := by
  unfold memRd
  rw [h, Bool.and_false]
  rfl

@[simp] theorem memBytes_length (s : State) (a n : Nat) : (memBytes s a n).length = n := by
  simp only [memBytes, List.length_map, List.length_range]

end Sys2Proof.Machine
end

