-- ==== Sys2Proof/Laws/Queues.lean ====
section
/-!
SUPPORT. Stream queues: what each step of a queue operation leaves of the queue, and that it touches no other.
-/

namespace Sys2Proof.Machine

theorem queueGet_of_queues {s t : State} (h : t.heart.queues = s.heart.queues) (q : Nat) : queueGet t q = queueGet s q := by
  unfold queueGet
  rw [h]

@[simp] theorem freeCells_queues (s : State) (l : List Nat) : (freeCells s l).heart.queues = s.heart.queues := rfl

@[simp] theorem queueGet_bump (s : State) (n : RegName) (i k q : Nat) : queueGet (bump s n i k) q = queueGet s q := rfl

@[simp] theorem queueEnabled_queueSet (s : State) (q j : Nat) (v : SQueue) : queueEnabled (queueSet s j v) q = queueEnabled s q := rfl

/-- Fitting a queue's cells changes nothing of the queue but its list of tail cells. -/
theorem queueGet_queueFit_self (s : State) (q : Nat) (v : SQueue) (d : Nat) :
    ∃ l, queueGet (queueFit s q v d) q = { v with tail := l } := by
  unfold queueFit
  dsimp only
  split
  · exact ⟨_, queueGet_queueSet_self _ _ _⟩
  · exact ⟨_, queueGet_queueSet_self _ _ _⟩

theorem queueGet_queueFit_ne (s : State) {q j : Nat} (v : SQueue) (d : Nat) (h : j ≠ q) :
    queueGet (queueFit s q v d) j = queueGet s j := by
  unfold queueFit
  dsimp only
  split
  · rw [queueGet_queueSet_ne _ _ h]
    rfl
  · rw [queueGet_queueSet_ne _ _ h]
    apply queueGet_of_queues
    split <;> rfl

@[simp] theorem queueFit_mem (s : State) (q : Nat) (v : SQueue) (d : Nat) : (queueFit s q v d).mem = s.mem := by
  unfold queueFit
  dsimp only
  split
  · rfl
  · split <;> rfl

@[simp] theorem queueFit_regs (s : State) (q : Nat) (v : SQueue) (d : Nat) : (queueFit s q v d).regs = s.regs := by
  unfold queueFit
  dsimp only
  split
  · rfl
  · split <;> rfl

/-- A rewind of the open packet: the words up to CM stay, the open packet is gone. -/
theorem queueGet_queueRewindPacket_self (s : State) (q : Nat) (learn counted : Bool) (h : (queueGet s q).openN.isSome = true) :
    ∃ l, queueGet (queueRewindPacket s q learn counted) q =
      { queueGet s q with wr := (queueGet s q).cm, words := (queueGet s q).words.take ((queueGet s q).cm - (queueGet s q).rl).toNat,
                          openN := none, pushed := 0, rewound := learn, tail := l } := by
  unfold queueRewindPacket
  dsimp only
  rw [if_pos h]
  obtain ⟨l, hl⟩ := queueGet_queueFit_self s q
    { queueGet s q with wr := (queueGet s q).cm, words := (queueGet s q).words.take ((queueGet s q).cm - (queueGet s q).rl).toNat,
                        openN := none, pushed := 0, rewound := learn } 0
  refine ⟨l, ?_⟩
  split
  · rw [queueGet_bump, hl]
  · rw [hl]

/-- With no open packet a rewind does nothing. -/
theorem queueRewindPacket_none (s : State) (q : Nat) (learn counted : Bool) (h : (queueGet s q).openN = none) :
    queueRewindPacket s q learn counted = s := by
  unfold queueRewindPacket
  dsimp only
  rw [h]
  rfl

theorem queueGet_queueRewindPacket_ne (s : State) {q j : Nat} (learn counted : Bool) (h : j ≠ q) :
    queueGet (queueRewindPacket s q learn counted) j = queueGet s j := by
  unfold queueRewindPacket
  dsimp only
  split
  · split
    · rw [queueGet_bump, queueGet_queueFit_ne _ _ _ h]
    · rw [queueGet_queueFit_ne _ _ _ h]
  · rfl

/-- OPEN opens a packet of n words, or leaves the queue as it was. -/
theorem queueOpen_cases (s : State) (q n : Nat) (d : Bool) :
    (queueOpen s q n d = (.ok, queueSet s q { queueGet s q with openN := some n, pushed := 0, rewound := false }) ∧
      queueEnabled s q = true ∧ queueRoom s q n = true) ∨
    (queueGet (queueOpen s q n d).2 q = queueGet s q ∧ (queueOpen s q n d).1 ≠ .ok) := by
  unfold queueOpen
  split
  · exact .inr ⟨rfl, by simp⟩
  · next he =>
    split
    · next hr =>
      left
      exact ⟨rfl, by simpa using he, hr⟩
    · split
      · exact .inr ⟨rfl, by simp⟩
      · exact .inr ⟨rfl, by simp⟩

/-- The words that COMMIT moves into free stages of the head (06 R188). -/
def SQueue.committedHead (v : SQueue) : List QWord :=
  v.head ++ (v.words.drop (v.cm - v.rl).toNat).take (if (v.cm - v.rd).toNat = v.head.length then 16 - v.head.length else 0)

/-- COMMIT makes the whole packet readable, or changes nothing but the mark of a rewind that the producer had to learn of. -/
theorem queueCommit_cases (s : State) (q : Nat) :
    (queueCommit s q = (.ok,
        queueSet s q { queueGet s q with cm := (queueGet s q).wr, openN := none, pushed := 0, head := (queueGet s q).committedHead }) ∧
      (queueGet s q).openN = some (queueGet s q).pushed) ∨
    queueCommit s q = (.rewound, queueSet s q { queueGet s q with rewound := false }) ∨
    ((queueCommit s q).2 = s ∧ (queueCommit s q).1 ≠ .ok) := by
  unfold queueCommit
  dsimp only
  split
  · exact .inr (.inr ⟨rfl, by simp⟩)
  · split
    · exact .inr (.inl rfl)
    · split
      · exact .inr (.inr ⟨rfl, by simp⟩)
      · next n hn =>
        split
        · next hp => exact .inl ⟨rfl, by rw [hn, hp]⟩
        · exact .inr (.inr ⟨rfl, by simp⟩)

end Sys2Proof.Machine
end

