-- ==== Sys2Proof/Laws/Rows.lean ====
section
/-!
SUPPORT. What the shared forms of the rows are under the conditions that the statements name: a row that acts while the islands run, a row
that writes a register, a slot of a bundle that commits.
-/

namespace Sys2Proof.Machine

theorem whileRunning_running {s : State} (h : s.gct.stopped = false) (t : State) : whileRunning s t = t := by
  unfold whileRunning
  rw [h]
  rfl

theorem whileRunning_stopped {s : State} (h : s.gct.stopped = true) (t : State) : whileRunning s t = s := by
  unfold whileRunning
  rw [h]
  rfl

theorem whileCrown_runs {s : State} (h : crownRuns s = true) (t : State) : whileCrown s t = t := by
  unfold whileCrown
  rw [h]
  rfl

/-- A register write that the module takes has its effect. -/
theorem rowWrite_takes {s : State} {row : RegRow} {r : Reg} {v : Nat} (h : TakesWrite s row r v) :
    rowWrite s r v = applyWrite s row r v := by
  obtain ⟨h1, h2, h3, h4, h5, h6⟩ := h
  simp only [rowWrite, h1, h2, h3, h4, h5, h6, bne_self_eq_false, Bool.not_true, Bool.or_false, Bool.false_eq_true, if_false]

/-- The row of a slot that a committing bundle holds commits the bundle. -/
theorem issueRow_commits {s : State} {k h : Nat} {x : Hc} {b : Bundle} {table : PeerTable} {o : GOp} (hc : Commits s k h x b table)
    (ho : b.holds o = true) : issueRow s k h o table = committed s k h x b table := by
  obtain ⟨h1, ⟨l, h2, h3, h4⟩, h5, h6, h7, h8⟩ := hc
  unfold issueRow
  simp only [h1, h2, h3, h4, ho, issueBundle, h5, Option.map_none, Option.toList_none, List.nil_append, h6, h7, h8]
  rfl

theorem holds_scalar {b : Bundle} {sb : Bool} {i : SSlot} {o : SOp} (h : b.scalar sb = some i) (ho : i.op = o) :
    b.holds (.s o) = true := by
  cases sb <;> simp only [Bundle.scalar, if_true, Bool.false_eq_true, if_false] at h <;> simp [Bundle.holds, h, ho]

theorem holds_vector {b : Bundle} {i : VSlot} {o : VOp} (h : b.vx = some i) (ho : i.op = o) : b.holds (.v o) = true := by
  simp [Bundle.holds, h, ho]

theorem holds_matrix {b : Bundle} {i : MSlot} {o : MOp} (h : b.mx = some i) (ho : i.op = o) : b.holds (.m o) = true := by
  simp [Bundle.holds, h, ho]

theorem holds_mover {b : Bundle} {i : DSlot} {o : DOp} (h : b.dx = some i) (ho : i.op = o) : b.holds (.d o) = true := by
  simp [Bundle.holds, h, ho]

theorem holds_control {b : Bundle} {i : CSlot} {o : COp} (h : b.cx = some i) (ho : i.op = o) : b.holds (.c o) = true := by
  simp [Bundle.holds, h, ho]

/-- The answer of a scalar slot is that of its instruction, in the state that the slots before it leave. -/
theorem scalarAnswer_of {s : State} {k h : Nat} {x : Hc} {b : Bundle} {sb : Bool} {i : SSlot} (hs : b.scalar sb = some i) :
    scalarAnswer s k h x b sb = (scalarOut (beforeScalar s k x b sb) k x (scalarId sb) i).1 := by
  cases sb <;> simp only [Bundle.scalar, if_true, Bool.false_eq_true, if_false] at hs <;>
    simp [scalarAnswer, bundleOuts, slotOut, hs, beforeScalar, scalarId]

/-- The answer of the vector slot is that of its instruction. -/
theorem vectorAnswer_of {s : State} {k h : Nat} {x : Hc} {b : Bundle} {i : VSlot} (hs : b.vx = some i) :
    vectorAnswer s k h x b = (vectorOut (beforeVector s k x b) k x i).1 := by
  simp [vectorAnswer, bundleOuts, slotOut, hs, beforeVector, beforeScalar]

/-! ### Elements of vector results, by kind of element -/

theorem vElem_add (elt a b c : Nat) :
    vElem .add elt a b c = if eltFloat elt then fpBin (eltFmt elt) FVal.add a b else (a + b) % 2 ^ (8 * eltBytes elt) := rfl

theorem vElem_sub (elt a b c : Nat) :
    vElem .sub elt a b c = if eltFloat elt then fpBin (eltFmt elt) (fun p q => p.add q.neg) a b
      else (a + 2 ^ (8 * eltBytes elt) - b % 2 ^ (8 * eltBytes elt)) % 2 ^ (8 * eltBytes elt) := rfl

theorem vElem_mul (elt a b c : Nat) :
    vElem .mul elt a b c = if eltFloat elt then fpBin (eltFmt elt) FVal.mul a b else a * b % 2 ^ (8 * eltBytes elt) := rfl

theorem vElem_min (elt a b c : Nat) :
    vElem .min_ elt a b c = if eltFloat elt then fpMin (eltFmt elt) a b
      else if toInt (8 * eltBytes elt) a ≤ toInt (8 * eltBytes elt) b then a else b := rfl

theorem vElem_max (elt a b c : Nat) :
    vElem .max_ elt a b c = if eltFloat elt then fpMax (eltFmt elt) a b
      else if toInt (8 * eltBytes elt) a ≤ toInt (8 * eltBytes elt) b then b else a := rfl

end Sys2Proof.Machine
end

