-- ==== Sys2Proof/Tests/Slice0.lean ====
section
/-!
SUPPORT. Tests of the model: rows that are not well formed, single steps whose results are worked out by hand from the spec, and for each
statement with hypotheses concrete values that meet them together.
-/

namespace Sys2Proof.Tests

open Sys2Proof Sys2Proof.Machine

set_option Elab.async false

/-! ### Small states and frames -/

/-- The module after reset, in a device state. -/
def dev (d : DevState) : State := { State.reset with gct := { State.reset.gct with dev := d } }

/-- The module with its islands stopped. -/
def stopped (d : DevState) : State := { dev d with gct := { (dev d).gct with stopped := true } }

/-- A session that has just opened. -/
def sess (r : Role) : Session :=
  { role := r, key := zeros 32, next := 1, held := [], exec := none, stored := [], idleFrom := 0, authFails := [], keySlot := 0,
    closing := false, muted := false }

/-- A state with session 1 open for a role. -/
def withSession (s : State) (r : Role) : State := { s with gct := { s.gct with sessions := [(1, sess r)] } }

/-- A command frame of session 1 with the number 1, without its tag. -/
def bareCmd (op : Nat) (body : Bytes) : CmdFrame :=
  { port := .command 0, smac := 0x020000000001, vlan := none, udp := none, version := 1, kind := 1, flags := 0, session := 1, seq := 1,
    opcode := op, length := body.length, status := 0, resv := 0, rest := body }

/-- A command frame of session 1 with its right tag. -/
def cmd (op : Nat) (body : Bytes) : CmdFrame :=
  { bareCmd op body with rest := body ++ frameTag (zeros 32) (bareCmd op body) }

/-- A frame with a wrong tag. -/
def wrongCmd (op : Nat) (body : Bytes) : CmdFrame := { bareCmd op body with rest := body ++ zeros 16 }

/-- Whether the module takes a register write, as a Boolean. -/
def takes (s : State) (r : Reg) (v : Nat) : Bool :=
  match regAt (regAddr r) with
  | some (row, q) => q == r && writeLegal s && !setsReserved row v && valueOk s r v && !breaksLock s row r (regView s r) v && stateAccepts s r v
  | none => false

theorem takes_row {s : State} {r : Reg} {v : Nat} (h : takes s r v = true) : ∃ row, TakesWrite s row r v := by
  unfold takes at h
  split at h
  · next row q e =>
    simp only [Bool.and_eq_true, Bool.not_eq_true', beq_iff_eq] at h
    obtain ⟨⟨⟨⟨⟨rfl, h1⟩, h2⟩, h3⟩, h4⟩, h5⟩ := h
    exact ⟨row, e, h1, h2, h3, h4, h5⟩
  · cases h

/-! ### Rows that are not well formed -/

/-- Every row of a list is refused by the check. -/
def allRefused (l : List Instr) : Bool := l.all (fun i => !i.wf)

/-- A well-formed frame. -/
theorem test_wf_frame : (Instr.nop (wrongCmd 1 [])).wf = true := by decide +kernel

/-- Each header field one bit too wide (02 R60–R63), an IPv4 address that does not fit, and bytes beyond a frame. -/
theorem test_wf_frame_fields :
    (let f := wrongCmd 1 []
     let u : UdpInfo := { v6 := false, src := 0, dst := 0, sport := 0, extra := 0 }
     allRefused ([{ f with smac := 2 ^ 48 }, { f with vlan := some 65536 }, { f with version := 256 }, { f with kind := 256 },
       { f with flags := 65536 }, { f with session := 2 ^ 32 }, { f with seq := 2 ^ 64 }, { f with opcode := 65536 },
       { f with length := 65536 }, { f with status := 256 }, { f with resv := 2 ^ 24 }, { f with rest := zeros 9213 },
       { f with udp := some { u with src := 2 ^ 32 } }, { f with udp := some { u with v6 := true, dst := 2 ^ 128 } },
       { f with udp := some { u with sport := 65536 } }, { f with udp := some { u with extra := 16384 } }].map Instr.nop)) = true := by
  decide +kernel

/-- Every command row refuses a frame that is not well formed. -/
theorem test_wf_command_rows :
    (let f : CmdFrame := { wrongCmd 1 [] with version := 256 }
     let m : Media := Media.clean
     allRefused [.nop f, .sessionOpen f, .sessionClaim f, .sessionClose f, .stateGet f, .regRead f, .regWrite f, .memRead f, .memWrite f,
       .start f, .drain f, .stop f, .resume f, .maintEnter f, .maintExit f, .reset f, .modeSet f, .modeGet f, .subscribe f, .ruleDefine f,
       .ruleInsert f, .ruleDelete f, .ruleSetDefault f, .ruleUndefine f, .ruleSwap f, .flowRead f, .flowDelete f, .run f, .slotRead f,
       .slotRelease f, .unknownOpcode f, .imageBegin f, .imageData f m, .imageFinish f, .imageDelete f, .activateGrove f, .activateTier2 f,
       .activateTier3 f, .activateUnload f, .firmwareBegin f, .firmwareData f m, .firmwareFinish f, .firmwareActivate f, .flashRead f m,
       .flashWrite f m, .flashErase f, .attestQuote f, .auditRead f, .counterRead f, .traceEnable f, .traceDisable f, .traceMarker f,
       .scanOut f, .spanAttach f, .spanEpoch f, .spanDetach f, .spanQuery f, .appLoad f, .appUnload f]) = true := by decide +kernel

/-- Frames of the packet and command ports, packet numbers and sessions (03 R98). -/
theorem test_wf_packet_rows :
    allRefused [.frameEnd 0 (zeros 9213) true false false, .commandPortFrame 0 (zeros 9213) true false false,
      .flowLookupAnswer (2 ^ 64) false false, .groveVerdict (2 ^ 64) none, .groveVerdict 0 (some (16, 0, false)),
      .groveVerdict 0 (some (0, 2 ^ 18, false)), .secondPassEntry (2 ^ 64), .egress (2 ^ 64), .completionSend (2 ^ 32),
      .sessionTimeout (2 ^ 32), .lock .gct 8, .modeTakesEffect 256] = true := by decide +kernel

/-- Power, sensors and the TAP (23). -/
theorem test_wf_power_rows :
    allRefused [.powerUp 65536, .inputRange 65536, .powerGoodLoss (.input 65536), .powerGoodLoss (.rail 12), .phaseShed 12,
      .capControl 65536 0 0, .capControl 0 65536 0, .capControl 0 0 65536, .limbThrottle 4 0, .limbThrottle 0 256, .thermalShutdown 13 0,
      .thermalShutdown 0 256, .hbmThermal 0 256, .extest (2 ^ 64), .samplePreload (2 ^ 64), .scanRead (zeros 19), .bypass 256 0,
      .bypass 0 (2 ^ 64)] = true := by decide +kernel

/-- Queues, flow DMA, the Grove and Tending (05, 06, 07, 15). -/
theorem test_wf_queue_and_flow_rows :
    allRefused [.portOpen 0 0 (2 ^ 64), .heartwoodScrub [2 ^ 32] [], .heartwoodScrub [] [2 ^ 32], .writeSlot 0 0 0 0 4096 (zeros 48) (zeros 8) none,
      .writeSlot 0 0 0 0 0 (zeros 47) (zeros 8) none, .writeSlot 0 0 0 0 0 (zeros 48) (zeros 7) none,
      .writeSlot 0 0 0 0 0 (zeros 48) (zeros 8) (some (256, 0)), .writeSlot 0 0 0 0 0 (zeros 48) (zeros 8) (some (0, 2 ^ 32)),
      .publish 0 0 0 0 4096, .invalidate 0 0 0 0 4096, .unlock 0 0 0 0 4096 0 0, .unlock 0 0 0 0 0 (2 ^ 32) 0,
      .unlock 0 0 0 0 0 0 (2 ^ 32), .routeWrite 0 65536, .groveScrub [2 ^ 22] [], .groveScrub [] [2 ^ 22], .writeLeaf 0 0 (2 ^ 18) 0,
      .writeLeaf 0 0 0 (2 ^ 32), .writeWord 0 (2 ^ 18) 0, .writeWord 0 0 (2 ^ 128), .arm (2 ^ 64) 0 false, .arm 0 65536 false] = true := by
  decide +kernel

/-- Errors of a pass that no pass can have: a vector, a column or a block too high, an element too wide (10 R324); tables and contexts of no
size (12 R383, 17 R488). -/
theorem test_wf_pass_errors :
    (let sum (v b c : Nat) : PassErrors := { PassErrors.none_ with sums := [{ vec := v, blk := b, col := c, neg := true, mant := 1, exp := 0 }] }
     let cell (v c m : Nat) : PassErrors := { PassErrors.none_ with cells := [{ vec := v, col := c, mask := m }] }
     let t : PeerTable := { status := 1, bytes := [] }
     let log (a : Nat) : NewContext := { operator := false, app := none, log := some a }
     allRefused ([sum 32 0 0, sum 0 2 0, sum 0 0 128, cell 32 0 0, cell 0 128 0, cell 0 0 (2 ^ 32)].flatMap
       (fun e => [Instr.passCheck 0 0 0 e, .recomputation 0 0 0 e, .spareRecomputation 0 0 0 e]) ++
       [t, { PeerTable.empty with bytes := zeros 145 }].flatMap
         (fun p => [Instr.wMput 0 0 p, .wMget 0 0 p, .restore 0 [p], .retry 0 0 [] p, .place 0 0 [] [] none none [p]]) ++
       [log 65535, log (2 ^ 48)].flatMap (fun c => [Instr.place 0 0 [] [] none (some c) [], .invalContext 0 [] (some c)]))) = true := by
  decide +kernel

/-- The Facet cores, translation and HBM (08, 10, 13, 14). -/
theorem test_wf_facet_rows :
    allRefused [.loadComplete 0 0 (.s 64), .loadComplete 0 0 (.v 32), .loadComplete 0 0 (.t 16), .passCheck 0 0 64 PassErrors.none_,
      .recomputation 0 0 64 PassErrors.none_, .spareRecomputation 0 0 64 PassErrors.none_, .ringScrub 0 [65536] [], .ringScrub 0 [] [65536],
      .place 0 0 (zeros 0xA001) [] none none [], .place 0 0 [] [(2 ^ 48, [])] none none [], .evacDone 0 (2 ^ 32) false,
      .faultRingRd 0 (2 ^ 32), .retry 0 (2 ^ 32) [] PeerTable.empty, .retry 0 0 [(2 ^ 48, [])] PeerTable.empty, .refuseXlate 0 (2 ^ 32),
      .refuseProt 0 (2 ^ 32), .invalAddress 65536 0 [], .invalAddress 0 (2 ^ 48) [], .invalAddress 0 0 [(2 ^ 48, [])],
      .invalContext 65536 [] none, .invalContext 0 [(2 ^ 48, [])] none, .invalAll [(2 ^ 48, [])], .hbmScrub 0 [2 ^ 31] [],
      .hbmScrub 0 [] [2 ^ 31], .pcRetirement 0 0 3, .rebuildComplete 0 [2 ^ 28], .mirrorEnable 0 0 (2 ^ 15) 0,
      .mirrorEnable 0 0 0 (2 ^ 15)] = true := by decide +kernel

/-- A Span message and a plan of an epoch that are well formed. -/
def msg0 : SpanMsg := { mtype := 1, src := 0, epar := 0, dst := 0, status := 0, msgid := 0, ctx := 0, xid := 0, data := [] }

def plan0 : EpochPlan := { epoch := 1, coord := 0, mesh := [1, 1, 1], map := [0] }

/-- The header of a control message of epoch 1 from the module at position 0 to itself. -/
def head0 : CtlHead := { src := 0, dst := 0, epoch := 1, msgid := 0 }

theorem test_wf_span_message :
    ((Instr.writeReq 0 0 msg0).wf && (Instr.prepare 0 head0 plan0 0xFF).wf && (Instr.linkDown 0 head0 63).wf) = true := by decide +kernel

/-- Span messages, control headers, plans and events (16): a plan is its coordinator's, of the epoch that the header names. -/
theorem test_wf_span_rows :
    allRefused ([{ msg0 with mtype := 256 }, { msg0 with src := 64 }, { msg0 with epar := 2 }, { msg0 with dst := 64 }, { msg0 with status := 256 },
        { msg0 with msgid := 2 ^ 32 }, { msg0 with ctx := 65536 }, { msg0 with xid := 2 ^ 32 }, { msg0 with data := zeros 8193 }].flatMap
          (fun m => [Instr.writeReq 0 0 m, .readReq 0 0 m, .writeRsp 0 0 m, .readRsp 0 0 m]) ++
      [{ head0 with src := 64 }, { head0 with dst := 64 }, { head0 with epoch := 2 ^ 32 }, { head0 with msgid := 2 ^ 32 }].flatMap
          (fun h => [Instr.linkDown 0 h 0, .spanHalt 0 h, .spanResume 0 h, .prepare 0 h { plan0 with epoch := h.epoch, coord := h.src } 255,
            .epochReady 0 h, .epochRefuse 0 h, .epochCommit 0 h, .epochAbort 0 h]) ++
      [.linkTrained 0 64 none, .retryReq 0 4096, .ackAndCredit 0 (some 4096) 0 0, .ackAndCredit 0 none 0 256, .requestTimeout (2 ^ 32),
       .linkDown 0 head0 64, .prepare 0 head0 { plan0 with epoch := 2 } 255, .prepare 0 head0 { plan0 with coord := 1 } 255,
       .prepare 0 head0 { plan0 with mesh := [1, 1, 1, 1] } 255, .prepare 0 head0 { plan0 with map := List.replicate 65 0 } 255,
       .prepare 0 head0 plan0 256]) = true := by decide +kernel

/-- The Crown, flash and debug (17, 18, 21). -/
theorem test_wf_platform_rows :
    allRefused [.evqRd (2 ^ 32), .captureAppend 0 (zeros 4095), .flashScrub Media.clean [2 ^ 48] 0,
      .dbgDump 0 0 (2 ^ 64)] = true := by decide +kernel

/-- An append of more than 1 MiB (18 R503). -/
theorem test_wf_capture_append : (Instr.captureAppend 0 (zeros 1048577)).wf = false := by
  show (decide (4096 ≤ (zeros 1048577).length) && decide ((zeros 1048577).length ≤ 1048576)) = false
  rw [show (zeros 1048577).length = 1048577 from List.length_replicate]
  rfl

/-! ### Packets -/

/-- SERVING with packet port 0 enabled and its link up. -/
def portState (d : DevState) : State :=
  let s := regPutF (dev d) .prtCfg 0 0 2 1 1
  { s with ports := { s.ports with enabled := 1, link := 1 } }

/-- A port without room: its quota is held. -/
def fullPort : State := setPortHeld (portState .serving) 0 0x4000

theorem witness_FrameReception_start :
    (portLive (portState .serving) 0 && (rxGet (portState .serving) 0).isNone && reservationFits (portState .serving) 0) = true := by
  decide +kernel

theorem witness_FrameReception_full :
    (portLive fullPort 0 && (rxGet fullPort 0).isNone && !reservationFits fullPort 0) = true ∧ fullPort.gct.dev ≠ .halted := by decide +kernel

theorem witness_FrameReception_halted :
    (portLive (portState .halted) 0 && (rxGet (portState .halted) 0).isNone) = true ∧ (portState .halted).gct.dev = .halted := by decide +kernel

/-- A frame in reception on port 0. -/
def rx0 : RxFrame := { stamp := 0, reserved := true, discarded := false, maxFrame := 0x2400 }

def receiving (d : DevState) : State := rxSet (portState d) 0 (some rx0)

theorem witness_FrameReception_oversize : rxGet (receiving .serving) 0 = some rx0 ∧ rx0.discarded = false := by decide +kernel

/-- FRAME_START on a live port reserves 36 cells (03 R98). -/
theorem test_frame_start :
    (match exec (.frameStart 0) (portState .serving) with
      | .next t => portHeld t 0 == 36 && (rxGet t 0).isSome
      | _ => false) = true := by decide +kernel

/-- A UDP datagram over IPv4 to port 48200 of the address 0, in which the GCT frame has no bytes: a GCT frame where GCT_CTRL takes it. -/
def udpFrame : Bytes :=
  zeros 12 ++ [0x08, 0x00, 0x45, 0, 0, 46] ++ zeros 5 ++ [17] ++ zeros 12 ++ [0xBC, 0x48, 0, 26] ++ zeros 20

/-- FRAME_END at the boundary of each check: over MAX_FRAME, 9,216 bytes; under 64 bytes, 63 (03 R97, R101); a GCT frame and a data frame. -/
theorem witness_FrameEndDecides :
    rxGet (receiving .serving) 0 = some rx0 ∧ rx0.discarded = false ∧ rx0.maxFrame < (zeros 9213).length + 4 ∧
      (zeros 9212).length + 4 ≤ rx0.maxFrame ∧ (zeros 59).length + 4 < 64 ∧ 64 ≤ (zeros 60).length + 4 ∧ beAt (zeros 60) 12 2 ≠ 0x8808 ∧
      beAt (zeros 12 ++ [0x88, 0x08] ++ zeros 46) 12 2 = 0x8808 ∧ recogniseGct (receiving .serving) (.logical 0) (zeros 60) = none ∧
      (recogniseGct (regPut (receiving .serving) .gctCtrl 0 0 0x10001) (.logical 0) udpFrame).isSome = true ∧
      64 ≤ udpFrame.length + 4 := by
  decide +kernel

/-- A frame of 64 bytes with a good FCS is no GCT frame with ETHERTYPE 0, and is admitted in SERVING. -/
theorem test_frame_end_admits :
    (match exec (.frameEnd 0 (zeros 60) true false false) (receiving .serving) with
      | .next t => t.canopy.pkts.length == 1 && regN t .prtRxFrames 0 0 == 1
      | _ => false) = true := by decide +kernel

/-- A frame with a bad FCS counts in RX_FCS_ERR alone (R97). -/
theorem test_frame_end_bad_fcs :
    (match exec (.frameEnd 0 (zeros 60) false false false) (receiving .serving) with
      | .next t => t.canopy.pkts.isEmpty && regN t .prtRxFcsErr 0 0 == 1 && regN t .prtRxDiscard 0 0 == 0
      | _ => false) = true := by decide +kernel

/-- READY with command port 0's link up. -/
def cmdPort : State := { dev .ready with ports := { (dev .ready).ports with cmdLink := 1 } }

theorem witness_PortEvents_frame :
    cmdPort.gct.dev ≠ .powered ∧ bitN cmdPort.ports.cmdLink 0 = true ∧ (zeros 59).length + 4 < 64 ∧
      ¬ ((zeros 60).length + 4 < 64 ∨ 9216 < (zeros 60).length + 4 ∨ beAt (zeros 60) 12 2 = 0x8808) ∧
      recogniseGct cmdPort (.command 0) (zeros 60) = none ∧
      (recogniseGct cmdPort (.command 0) (zeros 12 ++ [0x88, 0xB5] ++ zeros 46)).isSome = true := by decide +kernel

theorem witness_PortEvents_links :
    linksForcedDown (portState .serving).gct.dev = false ∧ portUsed (portState .serving) 0 = true ∧ rxGet (portState .serving) 0 = none := by
  decide +kernel

theorem test_port_link_change :
    (match exec (.portLinkChange 63 true) (regPutF (dev .ready) .prtCfg 15 0 0 2 2) with
      | .next t => t.ports.link == 2 ^ 63
      | _ => false) = true := by decide +kernel

/-- A packet of port 0 at a stage, with the parse record of a frame of zeros. -/
def parsed : ParseRec := parseFrame (parseCfg (dev .serving)) (zeros 60)

def pkt (st : PktStage) : Packet :=
  { grp := 0, turn := 0, lport := 0, bytes := zeros 60, stamp := 0, cells := [], stage := st, prs := some parsed, lookup := none,
    keyCand := (0, 1), prefetched := false, metaw := 0, view := none, active := 0, pinned := false, shimType := 0, mirrors := [],
    egressMap := 0, svcMode := 0, dl1 := 0, dl2 := 0, service := 0, passMode := false, sample := none, outputs := [], hold := none,
    escalated := false, waited := false, badFcs := false }

/-- The bytes of an entry that is VALID, with the packet's key. -/
def entry0 : Bytes := parsed.key ++ zeros (48 - parsed.key.length) ++ [1] ++ zeros 15

/-- SERVING with one packet, number 5. -/
def withPkt (p : Packet) : State := pktSet (portState .serving) 5 p

theorem witness_ParsingAndLookup_parser :
    let s := withPkt (pkt .committed)
    s.gct.stopped = false ∧ pathBackPressure s 0 = false ∧ nextParsePort s 0 = some 0 ∧
      pktFirst s (fun q => q.lport == 0 && q.stage == .committed) = some (5, pkt .committed) := by decide +kernel

/-- The flow table of pipeline 0 at the start of stack 0, with that entry in slot 3 of the packet's first candidate bucket. -/
def withEntry (p : Packet) : State :=
  let s := regPut (withPkt p) .flwBase 0 0 hbmBase
  memWr s (bucketAddr s 0 (candidates s parsed.key).1 + 64 * 3) entry0

/-- The same, with the bucket in the flow cache. -/
def withLine (p : Packet) : State := reachBucket (withEntry p) 0 (candidates (withEntry p) parsed.key).1

theorem witness_ParsingAndLookup_key :
    let s := withEntry (pkt .accepted)
    s.gct.stopped = false ∧ pktFirst s (atStage 0 .accepted) = some (5, pkt .accepted) ∧ (pkt .accepted).prs = some parsed ∧
      tagHit s 0 (candidates s parsed.key) parsed.key = none := by decide +kernel

theorem witness_ParsingAndLookup_hit :
    let s := withLine (pkt .accepted)
    s.gct.stopped = false ∧ pktFirst s (atStage 0 .accepted) = some (5, pkt .accepted) ∧ (pkt .accepted).prs = some parsed ∧
      tagHit s 0 (candidates s parsed.key) parsed.key = some ((candidates s parsed.key).1, 3) := by decide +kernel

/-- A lookup that misses, and that has a line of the flow cache fetched again. -/
theorem witness_ParsingAndLookup_answer :
    let s := withPkt (pkt .keyed)
    let s1 := reachBucket (reachBucket s 0 (pkt .keyed).keyCand.1) 0 (pkt .keyed).keyCand.2
    let s2 := reachBucket (reachBucket (refetchLine s1 0 (pkt .keyed).keyCand.2) 0 (pkt .keyed).keyCand.1) 0 (pkt .keyed).keyCand.2
    s.gct.stopped = false ∧ pktGet s 5 = some (pkt .keyed) ∧ (pkt .keyed).prs = some parsed ∧ (pkt .keyed).lookup = none ∧
      findKey s1 0 (pkt .keyed).keyCand parsed.key = none ∧ pktGet s1 5 = some (pkt .keyed) ∧
      findKey s2 0 (pkt .keyed).keyCand parsed.key = none := by decide +kernel

theorem witness_ParsingAndLookup_answer_hit :
    let c := candidates (dev .serving) parsed.key
    let p := { pkt .keyed with keyCand := c }
    let s := withEntry p
    let s1 := reachBucket (reachBucket s 0 p.keyCand.1) 0 p.keyCand.2
    s.gct.stopped = false ∧ pktGet s 5 = some p ∧ p.prs = some parsed ∧ findKey s1 0 p.keyCand parsed.key = some (c.1, 3) := by decide +kernel

/-- SERVING with one prefetch in flight, of the page at the start of stack 0. -/
def prefetching : State :=
  let s := dev .serving
  { s with tiers := { s.tiers with prefetches := [(0, [{ tag := .initial 1, addr := hbmBase }])] } }

/-- A prefetch whose page no frame holds is filled, and one whose page a frame holds already is not. -/
theorem witness_ParsingAndLookup_prefetch :
    let s := prefetching
    let s1 := { s with tiers := { s.tiers with prefetches := fsetD [] s.tiers.prefetches 0 [] } }
    let held := { s with tiers := { s.tiers with frames := [(7, { tag := .initial 1, pins := 0, dirty := false, lastUse := 0, ctx := hbmBase })] } }
    s.gct.stopped = false ∧ prefetchList s 0 = [{ tag := .initial 1, addr := hbmBase }] ∧ frameOf s1 (.initial 1) = none ∧
      (fillFrame s1 (.initial 1) hbmBase).isSome = true ∧ prefetchList held 0 = [{ tag := .initial 1, addr := hbmBase }] ∧
      (frameOf held (.initial 1)).isSome = true := by decide +kernel

/-- A miss is counted, and the packet has its answer. -/
theorem test_flow_lookup_miss :
    (match exec (.flowLookupAnswer 5 false false) (withPkt (pkt .keyed)) with
      | .next t => regN t .flwMiss 0 0 == 1 && (pktGet t 5).any (fun p => p.lookup == some missAnswer)
      | _ => false) = true := by decide +kernel

/-- A hit refreshes LAST_HIT in the flow cache, and not in HBM (05 R158). -/
theorem test_flow_lookup_hit :
    (let c := candidates (dev .serving) parsed.key
     let s := { withEntry { pkt .keyed with keyCand := c } with clock := 2500000 }
     match exec (.flowLookupAnswer 5 false false) s with
      | .next t => entryLastHit (slotBytes t 0 c.1 3) == 2 && memBytes t (bucketAddr t 0 c.1) 256 == memBytes s (bucketAddr s 0 c.1) 256
      | _ => false) = true := by decide +kernel

/-- FLOW_WAIT has room; a packet with its answer goes on, and one without it parks. -/
theorem witness_CanopyPasses_first :
    let s := withPkt (pkt .keyed)
    let p := { pkt .keyed with lookup := some missAnswer }
    s.gct.stopped = false ∧ pktFirst s (atStage 0 .keyed) = some (5, pkt .keyed) ∧
      (runStages false (s, enterFirst s (pkt .keyed)) [0, 1]).2.lookup = none ∧ parkedCount s 0 < 2048 ∧
      pktFirst (withPkt p) (atStage 0 .keyed) = some (5, p) ∧
      (runStages false (withPkt p, enterFirst (withPkt p) p) [0, 1]).2.lookup.isSome = true ∧ parkedEligible (withPkt p) 0 = none := by
  decide +kernel

/-- The flow-wait buffer of pipeline 0 is full: 2,048 packets wait in it. -/
def fullWait : State :=
  let s := withPkt (pkt .keyed)
  { s with canopy := { s.canopy with pkts := s.canopy.pkts ++ List.replicate 2048 (6, pkt .parked) } }

theorem witness_CanopyPasses_full :
    fullWait.gct.stopped = false ∧ pktFirst fullWait (atStage 0 .keyed) = some (5, pkt .keyed) ∧ 2048 ≤ parkedCount fullWait 0 ∧
      (runStages false (fullWait, enterFirst fullWait (pkt .keyed)) [0, 1]).2.lookup = none := by decide +kernel

theorem witness_CanopyPasses_parked :
    let p := { pkt .parked with lookup := some missAnswer }
    (withPkt p).gct.stopped = false ∧ parkedEligible (withPkt p) 0 = some (5, p) := by decide +kernel

theorem witness_CanopyPasses_ends :
    pktFirst (withPkt (pkt .passOne)) (atStage 0 .passOne) = some (5, pkt .passOne) ∧
      pktFirst (withPkt (pkt .passTwo)) (atStage 0 .passTwo) = some (5, pkt .passTwo) := by decide +kernel

theorem witness_CanopyPasses_second :
    let p := pkt .released
    let s := withPkt p
    s.gct.stopped = false ∧ pktGet s 5 = some p ∧ p.stage = .released ∧
      behind s 5 p (fun q => metaF q 16 6 == metaF p 16 6 && (q.stage == .toDispatch || q.stage == .held || q.stage == .released)) = false := by
  decide +kernel

/-- A RULE_WRITE on table 15 that the pins held. -/
def heldWrite : ExecCmd :=
  { cmd := bareCmd 0x0040 [15, 5, 0, 0, 0, 0, 0, 0], wait := .rulePins 15, key := zeros 32, role := 2, slot := 0, order := 0, waited := false }

def pinned : State :=
  let s := dev .serving
  { s with gct := { s.gct with sessions := [(1, { sess .installer with exec := some heldWrite })] } }

theorem witness_CanopyPasses_pinned :
    pinned.gct.stopped = false ∧ waiting pinned (fun w => w == .rulePins 15) = [(1, heldWrite)] ∧
      pinCount pinned 15 (standbyBank pinned 15) = 0 := by
  refine ⟨by decide, ?_, by decide⟩
  simp [waiting, pinned, heldWrite]

/-- A packet whose second pass ends goes to egress. -/
theorem test_pass_end :
    (match exec (.passEnd 0 true) (withPkt (pkt .passTwo)) with
      | .next t => (pktGet t 5).any (fun p => p.stage == .toEgress)
      | _ => false) = true := by decide +kernel

/-- A packet that enters Grove, alone and behind another; one that a boundary holds. -/
theorem witness_GroveAndTiers_entry :
    let s := withPkt (pkt .toGrove)
    let s1 := pktSet s 4 (pkt .inGrove)
    let armed := regPut { s with tiers := { s.tiers with tend := { s.tiers.tend with pending := true } } } .sqTendAt 0 0 0
    s.gct.stopped = false ∧ pktFirst s (atStage 0 .toGrove) = some (5, pkt .toGrove) ∧ boundaryStalls s 0 = false ∧
      (s.canopy.pkts.filter (fun e => atStage 0 .inGrove e.2)).length = 0 ∧ pktFirst s1 (atStage 0 .toGrove) = some (5, pkt .toGrove) ∧
      (s1.canopy.pkts.filter (fun e => atStage 0 .inGrove e.2)).length = 1 ∧ boundaryStalls s1 0 = false ∧
      pktFirst armed (atStage 0 .toGrove) = some (5, pkt .toGrove) ∧ boundaryStalls armed 0 = true := by decide +kernel

theorem witness_GroveAndTiers_verdict :
    let p := { pkt .inGrove with sample := some { route := 0, phases := 0, ms := 0 } }
    (withPkt p).gct.stopped = false ∧ pktGet (withPkt p) 5 = some p ∧ p.stage = .inGrove ∧
      p.sample = some { route := 0, phases := 0, ms := 0 } := by decide +kernel

/-- A packet of a route without a model goes on, with no result. -/
theorem test_grove_verdict :
    (match exec (.groveVerdict 5 none) (withPkt { pkt .inGrove with sample := some { route := 0, phases := 0, ms := 0 } }) with
      | .next t => (pktGet t 5).any (fun p => p.outputs.all (fun o => o.isNone) && p.stage != .inGrove)
      | _ => false) = true := by decide +kernel

/-- A waiting token of pipeline 0. -/
def tokenReq : TokenReq := { pkt := 5, snap := pkt .toDispatch, hold := none, handle := 0 }

def tokenState (models : FMap Tier2Model) : State :=
  let s := withPkt (pkt .toDispatch)
  { s with tiers := { s.tiers with tokenWait := [(0, [tokenReq])], models := models } }

theorem witness_GroveAndTiers_no_model :
    let s := tokenState []
    s.gct.stopped = false ∧ fgetD [] s.tiers.tokenWait 0 = tokenReq :: [] ∧ tier2Model s 0 = none := by decide +kernel

def model0 : Tier2Model := { image := 1, modelId := 1, feats := [], missVal := 0, errClass := 0, initPage := hbmBase }

/-- The set of pipeline 0 is queue 8, which is enabled, has a limit, and is bound to the pipeline. -/
def tokenReady : State :=
  let s := regPut (tokenState [(0, model0)]) .sqT2Set 0 0 (8 + 1 * 2 ^ 16)
  let s1 := regPut s .sqBind 8 0 2
  let s2 := regPut s1 .sqCfg 8 0 (1 + 2 ^ 4)
  { s2 with tiers := { s2.tiers with
      frames := [(7, { tag := .initial 1, pins := 0, dirty := false, lastUse := 0, ctx := hbmBase })] } }

theorem witness_GroveAndTiers_token :
    let s := tokenReady
    let q := tokenQueue s 0 (tier2Set s 0) tokenReq.snap.keyCand.1
    let token : List QWord := (BitVec.ofNat 128 (tokenWord0 (4 * 1) 0 0 0 0 0 0 1 0) :: [BitVec.ofNat 128 (tokenWord1 0 0 7 0 0)]).map
      (fun w => mkWord w false)
    s.gct.stopped = false ∧ fgetD [] s.tiers.tokenWait 0 = tokenReq :: [] ∧ tier2Model s 0 = some model0 ∧
      boundaryStalls s tokenReq.snap.stamp = false ∧ isSample s tokenReq.snap.keyCand.1 = false ∧ q = 8 ∧ queueProducer s q = (2, 0) ∧
      queueEnabled s q = true ∧ queueRoom s q 2 = true ∧ (contextFrame s model0 tokenReq.snap).1.map Prod.fst = some 7 ∧
      (contextFrame s model0 tokenReq.snap).2 = true ∧ (queueSend s q token true).1 = .ok := by decide +kernel

/-- The token queue of the set is bound to another producer; it is disabled; a boundary holds the token. -/
theorem witness_GroveAndTiers_token_lost :
    let s := tokenReady
    let other := regPut s .sqBind 8 0 1
    let shut := regPut s .sqCfg 8 0 (2 ^ 4)
    let armed := regPut { s with tiers := { s.tiers with tend := { s.tiers.tend with pending := true } } } .sqTendAt 0 0 0
    tokenQueue other 0 (tier2Set other 0) 0 = 8 ∧ queueProducer other 8 ≠ (2, 0) ∧ boundaryStalls other 0 = false ∧
      tokenQueue shut 0 (tier2Set shut 0) 0 = 8 ∧ queueProducer shut 8 = (2, 0) ∧ queueEnabled shut 8 = false ∧
      tier2Model armed 0 = some model0 ∧ boundaryStalls armed 0 = true ∧ fgetD [] armed.tiers.tokenWait 0 = tokenReq :: [] := by decide +kernel

/-- A queue with a verdict record of three words. -/
def word (n : Nat) : QWord := mkWord (BitVec.ofNat 128 n) false

def verdictQueue : State :=
  let s := regPut (dev .serving) .sqCfg 9 0 (1 + 2 ^ 4)
  let s1 := regPut s .sqBind 9 0 (6 * 2 ^ 24)
  queueSet s1 9 { SQueue.empty with wr := 3, cm := 3, words := [word 1, word 2, word 3] }

theorem witness_GroveAndTiers_verdict_read :
    let s := verdictQueue
    s.gct.stopped = false ∧ (queueConsumer s 9).1 = 6 ∧ (queueRead s 9).1 = some (word 1) ∧
      (queueRead (queueRead s 9).2 9).1 = some (word 2) ∧ (queueRead (queueRead (queueRead s 9).2 9).2 9).1 = some (word 3) := by decide +kernel

/-- A hold entry at its deadline. -/
def holdState : State :=
  let s := withPkt { pkt .held with hold := some (holdKey 0 131071) }
  { s with tiers := { s.tiers with holds := [(holdKey 0 131071, { pkt := 5, deadline := 0, tier2 := true })] } }

theorem witness_GroveAndTiers_deadline :
    holdState.gct.stopped = false ∧ fget? holdState.tiers.holds (holdKey 0 131071) = some { pkt := 5, deadline := 0, tier2 := true } ∧
      0 ≤ stampNow holdState := by decide +kernel

/-- At its deadline a held packet leaves, counted in SQ_DEFERRED_i. -/
theorem test_deadline :
    (match exec (.deadlineTest 0 131071) holdState with
      | .next t => t.tiers.holds.isEmpty && regN t .sqDeferred 0 0 == 1 && (pktGet t 5).any (fun p => p.stage == .released)
      | _ => false) = true := by decide +kernel

theorem witness_EgressSendsOrCounts :
    let p := pkt .toEgress
    let s := withPkt p
    let port := metaF p 16 6
    let len := (markPassMode p.viewNow p.passMode).work.length + 4
    s.gct.stopped = false ∧ pktGet s 5 = some p ∧ p.stage = .toEgress ∧ behind s 5 p (orderBlocks p) = false ∧ portLive s port = true ∧
      len ≤ regF s .prtCfg (port / 4) 0 16 14 ∧ portLive (pktSet (dev .serving) 5 p) port = false ∧
      regF (regPutF s .prtCfg 0 0 16 14 63) .prtCfg (port / 4) 0 16 14 < len := by decide +kernel

theorem witness_EgressSendsOrCounts_mirror :
    let p := pkt (.mirror 0 20)
    let s := withPkt p
    s.gct.stopped = false ∧ pktGet s 5 = some p ∧ p.stage = .mirror 0 20 ∧ portLive s 0 = true ∧
      min (p.viewNow.work.length + 4) 20 ≤ regF s .prtCfg (0 / 4) 0 16 14 := by decide +kernel

/-- A frame of 60 bytes and its FCS leaves on port 0 (03 R123). -/
theorem test_egress :
    (match exec (.egress 5) (withPkt (pkt .toEgress)) with
      | .next t => t.sent == [.data 0 (zeros 60) true false] && t.canopy.pkts.isEmpty && regN t .prtTxBytes 0 0 == 64
      | _ => false) = true := by decide +kernel

/-! ### Commands -/

/-- A module with one session. -/
def ses (d : DevState) (r : Role) : State := withSession (dev d) r

/-- What makes a command of session 1 with its right tag admitted, as a Boolean that does not compute the tag. -/
def fits (s : State) (r : Role) (op : Nat) (body : Bytes) : Bool :=
  s.gct.dev != .powered && (inboundCmds s).isEmpty && decide (body.length ≤ 8192) && body.length % 8 == 0 && op != 2 &&
    sessionGet s 1 == some (sess r) && roleMay r op && (opcodeRoles op).isSome && legalIn s.gct.dev op

/-- A context of the operator role, numbered 1. -/
def ctx1 : NewContext := { operator := true, app := none, log := none }

theorem cmd_body (op : Nat) (body : Bytes) : (cmd op body).body = body := by simp [cmd, bareCmd, CmdFrame.body]

theorem cmd_tag (op : Nat) (body : Bytes) : frameTag (zeros 32) (cmd op body) = (cmd op body).tag := by
  have h : frameTag (zeros 32) (cmd op body) = frameTag (zeros 32) (bareCmd op body) :=
    frameTag_rest (zeros 32) (bareCmd op body) (body ++ frameTag (zeros 32) (bareCmd op body)) body (by simp [bareCmd])
  rw [h]
  exact (tag_of_rest (bareCmd op body) body (frameTag (zeros 32) (bareCmd op body)) rfl (by simp)).symm

theorem fits_admitted {s : State} {r : Role} {op : Nat} {body : Bytes} (h : fits s r op body = true) :
    Admitted s (sess r) (cmd op body) := by
  simp only [fits, Bool.and_eq_true, bne_iff_ne, beq_iff_eq, decide_eq_true_eq, List.isEmpty_iff] at h
  obtain ⟨⟨⟨⟨⟨⟨⟨⟨h1, h2⟩, h3⟩, h4⟩, h5⟩, h6⟩, h7⟩, h8⟩, h9⟩ := h
  have hl : (cmd op body).length = body.length := rfl
  have hr : (cmd op body).rest.length = body.length + 16 := by simp [cmd]
  refine ⟨h1, ?_, ?_, Nat.one_ne_zero, h6, cmd_tag op body, rfl, h7, rfl, rfl, rfl, h8, h9⟩
  · have : cmdFrameLen (cmd op body) = max 60 (14 + 24 + (cmd op body).rest.length) + 4 := rfl
    simp only [inboundFits, h2, List.foldl_nil, decide_eq_true_eq]
    unfold cellsFor ceilDiv
    omega
  · have hs : (cmd op body).session = 1 := rfl
    have ho : (cmd op body).opcode = op := rfl
    have hv : (cmd op body).version = 1 := rfl
    have hk : (cmd op body).kind = 1 := rfl
    simp [framingOk, hl, hr, h4, h3, hs, ho, hv, hk, h5, h6]

/-- A frame with its right tag under a key. -/
def signed (k : Bytes) (f : CmdFrame) : CmdFrame := { f with rest := f.rest ++ frameTag k f }

theorem signed_tag (k : Bytes) (f : CmdFrame) (hl : f.rest.length = f.length) : frameTag k (signed k f) = (signed k f).tag := by
  have h : frameTag k (signed k f) = frameTag k f :=
    frameTag_rest k f (f.rest ++ frameTag k f) f.rest (by simp [← hl])
  rw [h]
  exact (tag_of_rest f f.rest (frameTag k f) hl (by simp)).symm

/-- Setting a byte of the body to the value that it has changes nothing. -/
theorem withByte_signed {k : Bytes} {f : CmdFrame} {n v : Nat} (hl : f.rest.length = f.length) (h : f.rest[n]? = some (byteOf v)) :
    frameWithByte (frameWithOpcode (signed k f) f.opcode) n v = signed k f := by
  have hn : n < f.rest.length := by
    rcases Nat.lt_or_ge n f.rest.length with h1 | h1
    · exact h1
    · rw [List.getElem?_eq_none h1] at h; cases h
  have hf : frameWithOpcode (signed k f) f.opcode = signed k f := rfl
  have hs : (signed k f).length = f.length := rfl
  have hr : (signed k f).rest.set n (byteOf v) = (signed k f).rest := by
    apply List.ext_getElem?
    intro i
    rw [List.getElem?_set]
    split
    · next e => subst e; simp [signed, List.getElem?_append, hn, ← (List.getElem?_eq_some_iff.mp h).2]; omega
    · rfl
  rw [hf, frameWithByte, hs, if_pos (hl ▸ hn), hr]
  rfl

theorem withByte_cmd {op : Nat} {body : Bytes} {n v : Nat} (h : body[n]? = some (byteOf v)) :
    frameWithByte (frameWithOpcode (cmd op body) op) n v = cmd op body :=
  withByte_signed (f := bareCmd op body) (k := zeros 32) rfl h

theorem fits_op {s : State} {r : Role} {op : Nat} {body : Bytes} (h : fits s r op body = true) :
    Admitted s (sess r) (frameWithOpcode (cmd op body) op) := fits_admitted h

theorem fits_byte {s : State} {r : Role} {op : Nat} {body : Bytes} {n v : Nat}
    (h : (fits s r op body && body[n]? == some (byteOf v)) = true) :
    Admitted s (sess r) (frameWithByte (frameWithOpcode (cmd op body) op) n v) := by
  rw [Bool.and_eq_true, beq_iff_eq] at h
  rw [withByte_cmd h.2]
  exact fits_admitted h.1

theorem witness_AdmittedCommandExecutes : Admitted (ses .ready .operator) (sess .operator) (cmd 0x0001 []) :=
  fits_admitted (by decide +kernel)

theorem witness_AdmittedCommandExecutes_AcceptanceFrame :
    sessionGet (ses .ready .operator) (cmd 0x0001 []).session = some (sess .operator) := by decide +kernel

/-- ChecksInOrder: a wrong tag; a role without the right. -/
theorem witness_CommandChecks_ChecksInOrder :
    let s := ses .ready .maker
    let f := wrongCmd 0x0001 []
    let late := withSession (dev .ready) .maker
    s.gct.dev ≠ .powered ∧ inboundFits s f = true ∧ framingOk s f = true ∧ f.session ≠ 0 ∧ sessionGet s f.session = some (sess .maker) ∧
      frameTag (sess .maker).key f ≠ f.tag ∧ (recentFails s (sess .maker).authFails).length < 1024 ∧
      inboundFits late (cmd 0x0020 []) = true ∧ framingOk late (cmd 0x0020 []) = true ∧
      frameTag (zeros 32) (cmd 0x0020 []) = (cmd 0x0020 []).tag ∧ (sess .maker).next ≤ (cmd 0x0020 []).seq ∧
      roleMay .maker (cmd 0x0020 []).opcode = false :=
  ⟨by decide +kernel, by decide +kernel, by decide +kernel, by decide +kernel, by decide +kernel, by decide +kernel, by decide +kernel,
    by decide +kernel, by decide +kernel, cmd_tag _ _, by decide +kernel, by decide +kernel⟩

/-- ChecksInOrder: the number 1 at a session that expects 258 lies too far back, and 1 at one that expects 0 is after it. -/
theorem witness_CommandChecks_ChecksInOrder_numbers :
    let f := cmd 0x0001 []
    let old : Session := { sess .maker with next := 258 }
    let gap : Session := { sess .maker with next := 0 }
    let st (x : Session) : State := { dev .ready with gct := { (dev .ready).gct with sessions := [(1, x)] } }
    frameTag gap.key f = f.tag ∧ inboundFits (st old) f = true ∧ framingOk (st old) f = true ∧ sessionGet (st old) f.session = some old ∧
      f.seq + 256 < old.next ∧ (recentFails (st old) old.authFails).length < 1024 ∧
      inboundFits (st gap) f = true ∧ framingOk (st gap) f = true ∧ sessionGet (st gap) f.session = some gap ∧ gap.next < f.seq ∧
      roleMay gap.role f.opcode = true :=
  ⟨cmd_tag _ _, by decide +kernel⟩

/-- ChecksInOrder: a number that was accepted before, with its completion, without one, under another tag, and not kept. -/
theorem witness_CommandChecks_ChecksInOrder_duplicates :
    let f := cmd 0x0001 []
    let dup (l : List StoredCompletion) : Session := { sess .maker with next := 2, stored := l }
    let st (x : Session) : State := { dev .ready with gct := { (dev .ready).gct with sessions := [(1, x)] } }
    let e (t : Bytes) (c : Option Completion) : StoredCompletion := { seq := 1, tag := t, done := c }
    frameTag (zeros 32) f = f.tag ∧ (dup []).next ≤ f.seq + 256 ∧ f.seq < (dup []).next ∧
      inboundFits (st (dup [])) f = true ∧ framingOk (st (dup [])) f = true ∧ sessionGet (st (dup [])) f.session = some (dup []) ∧
      (dup []).stored.find? (fun x => x.seq == f.seq) = none ∧
      (∀ c : Option Completion, (dup [e f.tag c]).stored.find? (fun x => x.seq == f.seq) = some (e f.tag c)) ∧ f.tag ≠ [] ∧
      (dup [e [] none]).stored.find? (fun x => x.seq == f.seq) = some (e [] none) := by
  refine ⟨cmd_tag _ _, by decide +kernel, by decide +kernel, by decide +kernel, by decide +kernel, by decide +kernel, by decide +kernel,
    fun c => rfl, ?_, rfl⟩
  intro h
  have h1 := congrArg List.length (cmd_tag 0x0001 [])
  rw [h] at h1
  simp at h1

/-- An executing command that waits for a cut. -/
def busyExec : ExecCmd :=
  { cmd := cmd 0x0022 [], wait := .cut, key := zeros 32, role := 3, slot := 0, order := 0, waited := false }

/-- A session with a command in execution and `n` waiting. -/
def busySess (n : Nat) : Session := { sess .operator with exec := some busyExec, held := List.replicate n (cmd 0x0001 []) }

def busyState (n : Nat) : State := { dev .ready with gct := { (dev .ready).gct with sessions := [(1, busySess n)] } }

/-- SessionsHoldSixteen at 16 and at 15. -/
theorem witness_SessionsHoldSixteen :
    let f := cmd 0x0001 []
    let ok (s : State) (x : Session) : Bool := s.gct.dev != .powered && inboundFits s f && framingOk s f && f.session != 0 &&
      sessionGet s f.session == some x && x.next == f.seq && roleMay x.role f.opcode
    (frameTag (busySess 15).key f = f.tag ∧ frameTag (busySess 14).key f = f.tag ∧ frameTag (sess .operator).key f = f.tag) ∧
      ok (busyState 15) (busySess 15) = true ∧ (busySess 15).held.length + 1 = 16 ∧ ok (busyState 14) (busySess 14) = true ∧
      (busySess 14).held.length + 1 < 16 ∧ (busySess 14).exec.isSome = true ∧ ok (ses .ready .operator) (sess .operator) = true ∧
      (sess .operator).exec = none ∧ (sess .operator).held = [] :=
  ⟨⟨cmd_tag _ _, cmd_tag _ _, cmd_tag _ _⟩, by decide +kernel⟩

/-- A frame whose LENGTH exceeds what it carries. -/
def shortCmd : CmdFrame := { bareCmd 0x0001 [] with length := 16, rest := zeros 8 }

/-- A state whose inbound half is full: 128 commands wait in it. -/
def fullHalf : State :=
  { dev .ready with gct := { (dev .ready).gct with
      sessions := (List.range 8).map (fun i => (i + 1, { sess .operator with held := List.replicate 16 (bareCmd 0x0001 []) })) } }

theorem witness_CommandChecks_FramesNotTaken :
    (dev .powered).gct.dev = .powered ∧ (dev .ready).gct.dev ≠ .powered ∧ inboundFits fullHalf (bareCmd 0x0001 []) = false ∧
      inboundFits (dev .ready) shortCmd = true ∧ framingOk (dev .ready) shortCmd = false := by decide +kernel

/-- WrongStateIsRefused: START in SERVING, DRAIN and RESUME in READY, MAINT_EXIT in READY. -/
theorem witness_CommandChecks_WrongStateIsRefused :
    headOk (cmd 0x0020 []) = true ∧ (cmd 0x0020 []).length = 0 ∧ (cmd 0x0020 []).opcode ∈ [0x0020, 0x0021, 0x0022, 0x0023, 0x0024, 0x0025] ∧
      legalIn (dev .serving).gct.dev (cmd 0x0020 []).opcode = false ∧ legalIn (dev .ready).gct.dev (cmd 0x0021 []).opcode = false ∧
      legalIn (dev .halted).gct.dev (cmd 0x0022 []).opcode = false ∧ legalIn (dev .ready).gct.dev (cmd 0x0023 []).opcode = false ∧
      legalIn (dev .serving).gct.dev (cmd 0x0024 []).opcode = false ∧ legalIn (dev .ready).gct.dev (cmd 0x0025 []).opcode = false := by
  decide +kernel

theorem witness_SimpleCommands_CommandsWithoutArguments :
    (cmd 0x0001 []).length = 0 ∧
      Admitted (ses .secureBoot .maker) (sess .maker) (frameWithOpcode (cmd 0x0001 []) 0x0001) ∧
      Admitted (ses .faulted .operator) (sess .operator) (frameWithOpcode (cmd 0x0003 []) 0x0003) ∧
      Admitted (ses .halted .installer) (sess .installer) (frameWithOpcode (cmd 0x0004 []) 0x0004) ∧
      Admitted (ses .ready .operator) (sess .operator) (frameWithOpcode (cmd 0x0031 []) 0x0031) ∧
      Admitted (ses .ready .operator) (sess .operator) (frameWithOpcode (cmd 0x0020 []) 0x0020) ∧
      Admitted (ses .serving .installer) (sess .installer) (frameWithOpcode (cmd 0x0021 []) 0x0021) ∧
      Admitted (ses .maintenance .installer) (sess .installer) (frameWithOpcode (cmd 0x0025 []) 0x0025) ∧
      Admitted (ses .serving .maker) (sess .maker) (frameWithOpcode (cmd 0x0022 []) 0x0022) ∧
      Admitted (ses .halted .operator) (sess .operator) (frameWithOpcode (cmd 0x0023 []) 0x0023) ∧
      Admitted (ses .ready .installer) (sess .installer) (frameWithOpcode (cmd 0x0024 []) 0x0024) ∧
      Admitted (ses .faulted .maker) (sess .maker) (frameWithOpcode (cmd 0x0024 []) 0x0024) ∧
      Admitted (ses .ready .maker) (sess .maker) (frameWithOpcode (cmd 0x0026 []) 0x0026) := by
  refine ⟨rfl, ?_, ?_, ?_, ?_, ?_, ?_, ?_, ?_, ?_, ?_, ?_, ?_⟩ <;> exact fits_op (by decide +kernel)

/-- What a session waits on after a command, when its completion says only a status. -/
def status? (s : State) : Option Nat :=
  match (sessionGet s 1).bind (fun x => x.exec) with
  | some e => match e.wait with
    | .send c => some c.status
    | _ => none
  | none => none

/-- START moves READY to SERVING (02 R81). -/
theorem test_start :
    (match exec (.start (cmd 0x0020 [])) (ses .ready .operator) with
      | .next t => t.gct.dev == .serving && status? t == some 0
      | _ => false) = true := by decide +kernel

/-- DRAIN in READY is not legal: WRONG_STATE (02 R82). -/
theorem test_drain_wrong_state :
    (match exec (.drain (cmd 0x0021 [])) (ses .ready .operator) with
      | .next t => t.gct.dev == .ready && status? t == some 0x0C
      | _ => false) = true := by decide +kernel

/-- A maker may not start the module (02 "Opcodes"). -/
theorem test_start_role :
    (match exec (.start (cmd 0x0020 [])) (ses .ready .maker) with
      | .next t => t.gct.dev == .ready && t.gct.anon.length == 1
      | _ => false) = true := by decide +kernel

/-- REG_READ of two registers, and REG_WRITE of one, of the packet-port block. -/
def readBody (a n : Nat) : Bytes := beBytes 8 a ++ beBytes 8 n

theorem witness_RegisterAndMemoryCommands_RegisterCommands :
    let a := regAddr { name := .prtCfg, inst := 0, idx := 0 }
    let s := ses .ready .operator
    let f := cmd 0x0010 (readBody a 1)
    let g := cmd 0x0011 (readBody a 1 ++ zeros 8)
    Admitted s (sess .operator) (frameWithOpcode f 0x0010) ∧ Admitted s (sess .operator) (frameWithOpcode g 0x0011) ∧
      f.length = 16 ∧ a = beAt f.body 0 8 ∧ 1 = beAt f.body 8 8 ∧
      regArgsOk a 1 = true ∧ (∀ o ∈ regOffsets a 1, readStatus (commandStart s (sess .operator) f) .operator o = 0) ∧
      g.length = 16 + 8 * 1 ∧ a = beAt g.body 0 8 ∧ 1 = beAt g.body 8 8 :=
  ⟨fits_op (by decide +kernel), fits_op (by decide +kernel), by decide +kernel⟩

/-- A write to a register that does not exist, and one to a register that does. -/
theorem witness_RegisterAndMemoryCommands_RegisterCommands_status :
    writeStatus (dev .ready) .installer (regAddr { name := .prtCfg, inst := 0, idx := 0 })
        (resetVal { name := .prtCfg, inst := 0, idx := 0 }).toNat = 0 ∧
      writeStatus (dev .ready) .installer 4 0 ≠ 0 := by decide +kernel

/-- A cached leaf of context 1 in the translation unit of the GCT memory port: page 0, level 3, readable, writable, at the start of stack 0. -/
def leafEntry : Nat := hbmBase + 1 + 2 + 4 + 8 + 16

def mapped (s : State) : State :=
  let t := memWr (unitSet s unitGct { leaves := [{ ctx := 1, page := 0, level := 3, entry := leafEntry }], ptrs := [] })
    (regF s .xltSpaceBase 0 0 20 28 * 2 ^ 20 + 16) [1]
  { t with crown := { t.crown with contexts := [(1, ctx1)] } }

def memBody (n : Nat) : Bytes := beBytes 2 1 ++ zeros 6 ++ beBytes 8 0 ++ beBytes 8 n

theorem witness_RegisterAndMemoryCommands_ContextMemoryCommands_read :
    let s := mapped (ses .serving .operator)
    let f := cmd 0x0012 (memBody 8192)
    let t := commandStart s (sess .operator) f
    let r := memTranslate t f .r
    Admitted s (sess .operator) (frameWithOpcode f 0x0012) ∧ s.gct.stopped = false ∧ memArgsOk t f false = true ∧
      (match r.1 with | .ok _ => true | _ => false) = true :=
  ⟨fits_op (by decide +kernel), by decide +kernel⟩

theorem witness_RegisterAndMemoryCommands_ContextMemoryCommands_write :
    let s := mapped (ses .serving .operator)
    let f := cmd 0x0013 (memBody 8 ++ [1, 2, 3, 4, 5, 6, 7, 8])
    let t := commandStart s (sess .operator) f
    let r := memTranslate t f .w
    Admitted s (sess .operator) (frameWithOpcode f 0x0013) ∧ memArgsOk t f true = true ∧
      (match r.1 with | .ok _ => true | _ => false) = true :=
  ⟨fits_op (by decide +kernel), by decide +kernel⟩

/-- MEM_WRITE of a page that no table maps. -/
theorem witness_RegisterAndMemoryCommands_ContextMemoryCommands_unmapped :
    let s := unitSet (mapped (ses .serving .operator)) unitGct XltUnit.reset
    let f := cmd 0x0013 (memBody 8 ++ [1, 2, 3, 4, 5, 6, 7, 8])
    let t := commandStart s (sess .operator) f
    let r := memTranslate t f .w
    Admitted s (sess .operator) (frameWithOpcode f 0x0013) ∧ memArgsOk t f true = true ∧
      (match r.1 with | .error _ => true | _ => false) = true :=
  ⟨fits_op (by decide +kernel), by decide +kernel⟩

/-- MEM_WRITE stores its data at the translated address (13 R407). -/
theorem test_mem_write :
    (match exec (.memWrite (cmd 0x0013 (memBody 8 ++ [1, 2, 3, 4, 5, 6, 7, 8]))) (mapped (ses .serving .operator)) with
      | .next t => memBytes t hbmBase 8 == [1, 2, 3, 4, 5, 6, 7, 8] && status? t == some 0
      | _ => false) = true := by decide +kernel

/-- MODE_SET of one mode; SUBSCRIBE of class 0 at the module without a subscription. -/
theorem witness_ModesAndRuns_ModesAndSubscriptions :
    let s := ses .ready .operator
    let f := cmd 0x0030 (beBytes 2 1 ++ zeros 6 ++ [4, 0xFF, 0, 0] ++ beBytes 4 1 ++ zeros 8)
    let g := cmd 0x0032 [2, 0, 0, 0, 0, 0, 0, 0]
    Admitted s (sess .operator) (frameWithOpcode f 0x0030) ∧ Admitted s (sess .operator) (frameWithOpcode g 0x0032) ∧
      modeStatus (commandStart s (sess .operator) f) f = 0 ∧ g.length = 8 ∧ allZero (slice g.body 1 7) = true ∧
      byteAt g.body 0 ≤ 2 ∧ subOf s (byteAt g.body 0) g.session = none ∧
      (s.gct.subs.filter (fun y => y.cls == byteAt g.body 0)).length < 4 :=
  ⟨fits_op (by decide +kernel), fits_op (by decide +kernel), by decide +kernel⟩

theorem witness_ModesAndRuns_ModesAndSubscriptions_pending :
    let s := modesMod (dev .serving) (fun m => { m with pending := [(1, 1)] })
    modePending s.gct.modes 1 = some 1 ∧ s.gct.stopped = false ∧ modeDue s 1 = true ∧ modeDue s 3 = true := by decide +kernel

/-- SUBSCRIBE to class 2 with four subscriptions of others, and with one of its own. -/
theorem witness_ModesAndRuns_ModesAndSubscriptions_held :
    let u (i : Nat) : Subscription := { cls := 2, session := i, port := .command 0, smac := 0, vlan := none, udp := none, count := 0, lost := 0 }
    let s (l : List Subscription) : State := { ses .ready .operator with gct := { (ses .ready .operator).gct with subs := l } }
    let g := cmd 0x0032 [2, 0, 0, 0, 0, 0, 0, 0]
    let four := [u 2, u 3, u 4, u 5]
    Admitted (s four) (sess .operator) (frameWithOpcode g 0x0032) ∧ Admitted (s [u 1]) (sess .operator) (frameWithOpcode g 0x0032) ∧
      subOf (s four) 2 g.session = none ∧ 4 ≤ ((s four).gct.subs.filter (fun y => y.cls == 2)).length ∧
      subOf (s [u 1]) 2 g.session = some (u 1) :=
  ⟨fits_op (by decide +kernel), fits_op (by decide +kernel), by decide +kernel⟩

/-- RULE_WRITE of UNDEFINE on table 15, and of INSERT on a table that a write waits on. -/
theorem witness_RuleAndFlowCommands_RuleCommands :
    let s := ses .serving .operator
    let f := cmd 0x0040 [15, 5, 0, 0, 0, 0, 0, 0]
    let g := frameWithByte (frameWithOpcode f 0x0040) 1 5
    let t := commandStart s (sess .operator) g
    (5, Instr.ruleUndefine) ∈ [(1, Instr.ruleDefine), (2, Instr.ruleInsert), (3, Instr.ruleDelete), (4, Instr.ruleSetDefault), (5, Instr.ruleUndefine)] ∧
      Admitted s (sess .operator) g ∧ ruleWriteOk g.body = true ∧ ruleBlocked t (byteAt g.body 0) = false := by
  refine ⟨by simp, fits_byte (by decide +kernel), by decide +kernel⟩

/-- The pinned packet of table 15, and a write of that table. -/
def pinnedSes : State :=
  let s := pktSet (ses .serving .operator) 5 { pkt .passOne with pinned := true, active := 0xFFFF }
  s

theorem witness_RuleAndFlowCommands_RuleCommands_blocked :
    let s := pinnedSes
    let f := cmd 0x0040 [15, 5, 0, 0, 0, 0, 0, 0]
    let g := frameWithByte (frameWithOpcode f 0x0040) 1 5
    let t := commandStart s (sess .operator) g
    Admitted s (sess .operator) g ∧ ruleWriteOk g.body = true ∧ ruleBlocked t (byteAt g.body 0) = true :=
  ⟨fits_byte (by decide +kernel), by decide +kernel⟩

theorem witness_RuleAndFlowCommands_RuleCommands_swap :
    let s := ses .serving .operator
    let f := cmd 0x0041 [255, 255, 0, 0, 0, 0, 0, 0]
    let t := commandStart s (sess .operator) f
    Admitted s (sess .operator) (frameWithOpcode f 0x0041) ∧ f.length = 8 ∧ allZero (slice f.body 2 6) = true ∧
      swapBlocked t (beAt f.body 0 2) t.gct.begun = false := by
  refine ⟨fits_op (by decide +kernel), by decide +kernel, by decide +kernel, ?_⟩
  have h : (commandStart (ses .serving .operator) (sess .operator) (cmd 0x0041 [255, 255, 0, 0, 0, 0, 0, 0])).gct.sessions =
      [(1, { sess .operator with
          next := 2, stored := [{ seq := 1, tag := (cmd 0x0041 [255, 255, 0, 0, 0, 0, 0, 0]).tag, done := none }],
          exec := some { cmd := cmd 0x0041 [255, 255, 0, 0, 0, 0, 0, 0], wait := .send (complete 0 []), key := zeros 32, role := 3, slot := 0,
                         order := 0, waited := false } })] := rfl
  show swapBlocked (commandStart _ _ _) _ _ = false
  unfold swapBlocked waiting
  rw [h]
  simp

/-- RULE_SWAP after a RULE_WRITE of table 15 that the pins of that table hold. -/
theorem witness_RuleAndFlowCommands_RuleCommands_swap_blocked :
    let w : ExecCmd :=
      { cmd := bareCmd 0x0040 [], wait := .rulePins 15, key := zeros 32, role := 3, slot := 0, order := 0, waited := false }
    let s0 := ses .serving .operator
    let s := { s0 with gct := { s0.gct with sessions := s0.gct.sessions ++ [(2, { sess .operator with exec := some w })], begun := 1 } }
    let f := { cmd 0x0041 [255, 255, 0, 0, 0, 0, 0, 0] with rest := zeros 24 }
    let t := commandStart s (sess .operator) f
    sessionGet s f.session = some (sess .operator) ∧ inboundFits s f = true ∧ framingOk s f = true ∧ swapBlocked t 0xFFFF t.gct.begun = true := by
  refine ⟨by decide +kernel, by decide +kernel, by decide +kernel, ?_⟩
  unfold swapBlocked waiting
  rw [show (commandStart _ _ _).gct.sessions = [(1, _), (2, _)] from rfl]
  simp
  exact ⟨rfl, by decide +kernel⟩

/-- FLOW_READ of an absent key; FLOW_DELETE of the key of an entry. -/
def flowBody : Bytes := zeros 8 ++ parsed.key ++ zeros (48 - parsed.key.length)

theorem witness_RuleAndFlowCommands_FlowCommands :
    let s0 := withEntry (pkt .accepted)
    let s := { s0 with gct := { s0.gct with sessions := [(1, sess .operator)] } }
    let f := cmd 0x0042 flowBody
    let g := cmd 0x0043 flowBody
    let t := commandStart s (sess .operator) g
    Admitted s (sess .operator) (frameWithOpcode f 0x0042) ∧ Admitted s (sess .operator) (frameWithOpcode g 0x0043) ∧
      flowBodyOk f.body false = true ∧ flowBodyOk g.body true = true ∧ deleteBlocked t g.body = false ∧
      (flowDelete t g.body).1.isSome = true :=
  ⟨fits_op (by decide +kernel), fits_op (by decide +kernel), by decide +kernel⟩

/-- FLOW_DELETE of a key that no bucket holds, and of one whose bucket is locked. -/
theorem witness_RuleAndFlowCommands_FlowCommands_other :
    let s := ses .serving .operator
    let g := cmd 0x0043 flowBody
    let t := commandStart s (sess .operator) g
    let locked := { t with flow := { t.flow with locks := [(lockKey 0 (candidates t (slice g.body 8 44)).1, { token := 0, taken := 0, lease := 1 })] } }
    Admitted s (sess .operator) (frameWithOpcode g 0x0043) ∧ flowBodyOk g.body true = true ∧ deleteBlocked t g.body = false ∧
      (flowDelete t g.body).1 = none ∧ deleteBlocked locked g.body = true :=
  ⟨fits_op (by decide +kernel), by decide +kernel⟩

/-- RUN with a result of 4,096 bytes, on a module whose slots are all free. -/
def runBody : Bytes := beBytes 2 1 ++ zeros 22 ++ beBytes 8 4096

theorem witness_ModesAndRuns_RunAndResultSlots_run :
    let s := ses .serving .operator
    let f := cmd 0x0050 runBody
    let t := commandStart s (sess .operator) f
    Admitted s (sess .operator) (frameWithOpcode f 0x0050) ∧
      (f.length = 32 ∧ beAt f.body 6 2 = 0 ∧ beAt f.body 24 8 ≤ 4096 ∧ beAt f.body 24 8 % 8 = 0) ∧
      ∃ n, freeSlotFrom (freeBits t 12).2 (freeBits t 12).1 4096 = some n :=
  ⟨fits_op (by decide +kernel), by decide +kernel, _, rfl⟩

/-- A result slot of an operator. -/
def slotOf (ready : Option Nat) (read : Bool) : ResultSlot :=
  { role := .operator, ctx := 1, resultLen := 8, ready := ready, data := zeros 8, read := read, readyAt := 0 }

def withSlot (d : DevState) (r : ResultSlot) : State :=
  let s := ses d .operator
  { s with gct := { s.gct with slots := [(4095, r)] } }

def slotBody : Bytes := beBytes 4 4095 ++ zeros 4

theorem witness_ModesAndRuns_RunAndResultSlots_read :
    let s := withSlot .serving (slotOf none false)
    let v := withSlot .halted (slotOf (some 0) true)
    let f := cmd 0x0051 slotBody
    Admitted s (sess .operator) (frameWithOpcode f 0x0051) ∧ Admitted v (sess .operator) (frameWithOpcode f 0x0051) ∧
      slotArg (commandStart s (sess .operator) f) .operator f = .ok (4095, slotOf none false) ∧
      slotArg (commandStart v (sess .operator) f) .operator f = .ok (4095, slotOf (some 0) true) ∧
      (slotOf none false).ready = none ∧ (slotOf (some 0) true).ready = some 0 :=
  ⟨fits_op (by decide +kernel), fits_op (by decide +kernel), rfl, rfl, rfl, rfl⟩

theorem witness_ModesAndRuns_RunAndResultSlots_release :
    let s (d : DevState) (r : Option Nat) : State := withSlot d (slotOf r false)
    let f := cmd 0x0052 slotBody
    Admitted (s .halted none) (sess .operator) (frameWithOpcode f 0x0052) ∧
      Admitted (s .ready (some 0)) (sess .operator) (frameWithOpcode f 0x0052) ∧
      Admitted (s .serving none) (sess .operator) (frameWithOpcode f 0x0052) ∧
      slotArg (commandStart (s .halted none) (sess .operator) f) .operator f = .ok (4095, slotOf none false) ∧
      slotArg (commandStart (s .ready (some 0)) (sess .operator) f) .operator f = .ok (4095, slotOf (some 0) false) ∧
      slotArg (commandStart (s .serving none) (sess .operator) f) .operator f = .ok (4095, slotOf none false) :=
  ⟨fits_op (by decide +kernel), fits_op (by decide +kernel), fits_op (by decide +kernel), rfl, rfl, rfl⟩

theorem witness_ModesAndRuns_RunAndResultSlots_cancel :
    let s := withSlot .serving (slotOf none false)
    let e : ExecCmd := { cmd := bareCmd 0x0052 slotBody, wait := .cancel 4095, key := zeros 32, role := 3, slot := 0, order := 0, waited := false }
    let t : State := { s with gct := { s.gct with sessions := [(1, { sess .operator with exec := some e })] } }
    fget? t.gct.slots 4095 = some (slotOf none false) ∧ anyWait t (fun w => w == .cancel 4095) = true ∧ t.gct.stopped = false := by
  decide +kernel

theorem witness_ModesAndRuns_RunAndResultSlots_ttl :
    let s := { withSlot .serving (slotOf (some 0) true) with idleClock := 10 ^ 16 }
    fget? s.gct.slots 4095 = some (slotOf (some 0) true) ∧ s.gct.dev ≠ .halted ∧
      0 + msTicks (regF s .gctSlotTtl 0 0 0 32) ≤ s.idleClock := by decide +kernel

/-- SLOT_RELEASE of a ready slot frees it (02 R90). -/
theorem test_slot_release :
    (match exec (.slotRelease (cmd 0x0052 slotBody)) (withSlot .ready (slotOf (some 0) false)) with
      | .next t => t.gct.slots.isEmpty && status? t == some 0
      | _ => false) = true := by decide +kernel

theorem witness_SimpleCommands_UnknownOpcodeIsBadArgs :
    let s := ses .ready .operator
    let f := cmd 0xFFFF []
    s.gct.dev ≠ .powered ∧ inboundFits s f = true ∧ framingOk s f = true ∧ f.session ≠ 0 ∧ sessionGet s f.session = some (sess .operator) ∧
      frameTag (sess .operator).key f = f.tag ∧ (sess .operator).next = f.seq ∧ (sess .operator).exec = none ∧ (sess .operator).held = [] ∧
      opcodeRoles f.opcode = none :=
  ⟨by decide +kernel, by decide +kernel, by decide +kernel, by decide +kernel, by decide +kernel, cmd_tag _ _, by decide +kernel,
    by decide +kernel, by decide +kernel, by decide +kernel⟩

/-! ### Staging and activation -/

def stageBody (op slot id off : Nat) : Bytes := beBytes 1 op ++ beBytes 1 slot ++ zeros 2 ++ beBytes 4 id ++ beBytes 8 off ++ zeros 8

/-- READY with a stage of image 7 of eight bytes that holds `data`, and its image. -/
def withStage (data : Bytes) : State :=
  flashMod (ses .ready .operator) (fun y => { y with
    stages := [(7, { total := 8, data := data, used := false, complete := false })], images := [(7, zeros 8)] })

theorem witness_StagingCommands_begin :
    let s := withStage []
    let f := cmd 0x0060 (stageBody 1 0 7 8)
    let g := frameWithByte (frameWithOpcode f 0x0060) 0 1
    let u := flashMod (commandStart s (sess .operator) g) (fun y => { y with stages := ferase y.stages (beAt g.body 4 4) })
    Admitted s (sess .operator) g ∧ stageOk g false = true ∧ byteAt g.body 0 = 1 ∧ imageInUse s (beAt g.body 4 4) = false ∧
      libraryHeld u + beAt g.body 8 8 ≤ partSize 3 :=
  ⟨fits_byte (by decide +kernel), by decide +kernel⟩

theorem witness_StagingCommands_data :
    let s := withStage []
    let f := cmd 0x0060 (stageBody 2 0 7 0 ++ zeros 8)
    let g := frameWithByte (frameWithOpcode f 0x0060) 0 2
    let s1 := mediaPut s g Media.clean
    Admitted s1 (sess .operator) g ∧ stageOk g false = true ∧ byteAt g.body 0 = 2 ∧
      fget? s.flash.stages (beAt g.body 4 4) = some { total := 8, data := [], used := false, complete := false } ∧
      stageData { total := 8, data := [], used := false, complete := false } (beAt g.body 8 8) (g.body.drop 24) =
        some { total := 8, data := zeros 8, used := false, complete := false } :=
  ⟨fits_byte (by decide +kernel), by decide +kernel⟩

theorem witness_StagingCommands_finish :
    let s := withStage (zeros 8)
    let f := cmd 0x0060 (stageBody 3 0 7 0)
    let g := frameWithByte (frameWithOpcode f 0x0060) 0 3
    let d : Stage := { total := 8, data := zeros 8, used := false, complete := false }
    Admitted s (sess .operator) g ∧ stageOk g false = true ∧ byteAt g.body 0 = 3 ∧ fget? s.flash.stages (beAt g.body 4 4) = some d ∧
      d.data.length = d.total ∧ d.used = false :=
  ⟨fits_byte (by decide +kernel), by decide +kernel⟩

theorem witness_StagingCommands_delete :
    let s := withStage []
    let f := cmd 0x0060 (stageBody 4 0 7 0)
    let g := frameWithByte (frameWithOpcode f 0x0060) 0 4
    Admitted s (sess .operator) g ∧ stageOk g false = true ∧ byteAt g.body 0 = 4 ∧ imageInUse s (beAt g.body 4 4) = false ∧
      (fget? s.flash.images (beAt g.body 4 4)).isSome = true :=
  ⟨fits_byte (by decide +kernel), by decide +kernel⟩

/-- READY with a stage of firmware slot 1. -/
def withFirmware (d : DevState) (data : Bytes) (complete : Bool) : State :=
  flashMod (ses d .maker) (fun y => { y with fw := fput y.fw 1 (some { total := 8, data := data, used := false, complete := complete }) })

theorem witness_StagingCommands_firmware_begin :
    let s := withFirmware .ready [] false
    let f := cmd 0x0062 (stageBody 1 1 0 8)
    let g := frameWithByte (frameWithOpcode f 0x0062) 0 1
    Admitted s (sess .maker) g ∧ stageOk g true = true ∧ byteAt g.body 0 = 1 ∧ byteAt g.body 1 ≠ s.trust.runSlot ∧
      beAt g.body 8 8 ≤ partSize 0 :=
  ⟨fits_byte (by decide +kernel), by decide +kernel⟩

theorem witness_StagingCommands_firmware_data :
    let s := withFirmware .ready [] false
    let f := cmd 0x0062 (stageBody 2 1 0 0 ++ zeros 8)
    let g := frameWithByte (frameWithOpcode f 0x0062) 0 2
    let s1 := mediaPut s g Media.clean
    Admitted s1 (sess .maker) g ∧ stageOk g true = true ∧ byteAt g.body 0 = 2 ∧
      fget? s.flash.fw (byteAt g.body 1) = some { total := 8, data := [], used := false, complete := false } ∧
      (stageData { total := 8, data := [], used := false, complete := false } (beAt g.body 8 8) (g.body.drop 24)).isSome = true :=
  ⟨fits_byte (by decide +kernel), by decide +kernel⟩

theorem witness_StagingCommands_firmware_finish :
    let s := withFirmware .ready (zeros 8) false
    let f := cmd 0x0062 (stageBody 3 1 0 0)
    let g := frameWithByte (frameWithOpcode f 0x0062) 0 3
    let d : Stage := { total := 8, data := zeros 8, used := false, complete := false }
    Admitted s (sess .maker) g ∧ stageOk g true = true ∧ byteAt g.body 0 = 3 ∧ fget? s.flash.fw (byteAt g.body 1) = some d ∧
      d.data.length = d.total ∧ d.complete = false :=
  ⟨fits_byte (by decide +kernel), by decide +kernel⟩

theorem witness_StagingCommands_firmware_activate :
    let s := withFirmware .maintenance (zeros 8) true
    let f := cmd 0x0063 [1, 1, 0, 0, 0, 0, 0, 0]
    Admitted s (sess .maker) (frameWithOpcode f 0x0063) ∧ f.length = 8 ∧ byteAt f.body 0 ≤ 1 ∧ byteAt f.body 1 ≤ 1 ∧
      allZero (slice f.body 2 6) = true ∧ firmwareAt s (byteAt f.body 0) = some (zeros 8) :=
  ⟨fits_op (by decide +kernel), by decide +kernel⟩

/-- DATA once the spare blocks have run out. -/
theorem witness_StagingCommands_spent :
    let s := flashMod (withStage []) (fun y => { y with spent := true })
    let v := flashMod (withFirmware .ready [] false) (fun y => { y with spent := true })
    let g := frameWithByte (frameWithOpcode (cmd 0x0060 (stageBody 2 0 7 0 ++ zeros 8)) 0x0060) 0 2
    let h := frameWithByte (frameWithOpcode (cmd 0x0062 (stageBody 2 1 0 0 ++ zeros 8)) 0x0062) 0 2
    Admitted (mediaPut s g Media.clean) (sess .operator) g ∧ Admitted (mediaPut v h Media.clean) (sess .maker) h ∧
      s.flash.spent = true ∧ v.flash.spent = true ∧ (fget? s.flash.stages 7).isSome = true ∧ (fget? v.flash.fw 1).isSome = true :=
  ⟨fits_byte (by decide +kernel), fits_byte (by decide +kernel), by decide +kernel⟩

def flashBody (part off n : Nat) : Bytes := beBytes 1 part ++ zeros 7 ++ beBytes 8 off ++ beBytes 4 n ++ zeros 4

theorem witness_FlashAndEvidenceCommands_read :
    let s := ses .ready .operator
    let f := cmd 0x0064 (flashBody 5 0 8192)
    let s1 := mediaPut s (frameWithOpcode f 0x0064) Media.clean
    Admitted s1 (sess .operator) (frameWithOpcode f 0x0064) ∧ f.length = 24 ∧ flashReservedOk f.body = true ∧
      flashFields f.body = (5, 0, 8192) ∧ 0 % 4096 = 0 ∧ 0 + 8192 ≤ partSize 5 :=
  ⟨fits_op (by decide +kernel), by decide +kernel⟩

theorem witness_FlashAndEvidenceCommands_capture :
    let s := flashMod (ses .ready .operator) (fun y => { y with tail := 4096, head := 8192 })
    let f := cmd 0x0064 (flashBody 4 4096 4096)
    let s1 := mediaPut s (frameWithOpcode f 0x0064) Media.clean
    Admitted s1 (sess .operator) (frameWithOpcode f 0x0064) ∧ f.length = 24 ∧ flashReservedOk f.body = true ∧
      flashFields f.body = (4, 4096, 4096) ∧ s.flash.tail ≤ 4096 ∧ 4096 + 4096 ≤ s.flash.head :=
  ⟨fits_op (by decide +kernel), by decide +kernel⟩

/-- A range of SNAPSHOT whose sectors can be read, and one whose last sector is lost. -/
theorem witness_FlashAndEvidenceCommands_good :
    let f := cmd 0x0064 (flashBody 5 0 8192)
    let t (s : State) : State :=
      let r := mediaTake s f
      mediaLost (mediaCount r.2 r.1) 5 (sectorsOf 0 8192) r.1.ue
    let lost := flashMod (ses .ready .operator) (fun y => { y with badSectors := [(sectorKey 5 1, true)] })
    (sectorsOf 0 8192).all (fun i => !sectorLost (t (ses .ready .operator)) 5 i) = true ∧
      (sectorsOf 0 8192).any (fun i => sectorLost (t lost) 5 i) = true := by decide +kernel

theorem witness_FlashAndEvidenceCommands_write :
    let s := ses .ready .installer
    let f := cmd 0x0065 (flashBody 5 0 4096 ++ zeros 4096)
    let s1 := mediaPut s (frameWithOpcode f 0x0065) Media.clean
    Admitted s1 (sess .installer) (frameWithOpcode f 0x0065) ∧ f.length = 4120 ∧ flashReservedOk f.body = true ∧
      flashFields f.body = (5, 0, 4096) ∧ 0 % 4096 = 0 ∧ 0 + 4096 ≤ partSize 5 ∧ s.flash.degraded = false ∧ s.flash.spent = false :=
  ⟨fits_op (by decide +kernel), by decide +kernel⟩

theorem witness_FlashAndEvidenceCommands_erase :
    let s := ses .ready .installer
    let f := cmd 0x0066 (flashBody 4 0 0)
    let g := cmd 0x0066 (flashBody 5 0 67108864)
    Admitted s (sess .installer) (frameWithOpcode f 0x0066) ∧ Admitted s (sess .installer) (frameWithOpcode g 0x0066) ∧
      f.length = 24 ∧ flashReservedOk f.body = true ∧ s.flash.degraded = false ∧ flashFields f.body = (4, 0, 0) ∧
      flashFields g.body = (5, 0, 67108864) ∧ 0 + 67108864 ≤ partSize 5 :=
  ⟨fits_op (by decide +kernel), fits_op (by decide +kernel), by decide +kernel⟩

theorem witness_FlashAndEvidenceCommands_quote :
    let s := ses .ready .maker
    let f := cmd 0x0070 (zeros 48)
    Admitted s (sess .maker) (frameWithOpcode f 0x0070) ∧
      f.length = 48 ∧ allZero (slice f.body 12 4) = true ∧ beAt f.body 0 8 = 0 ∧ beAt f.body 8 4 = 0 ∧
      (sessionGet (commandStart s (sess .maker) f) f.session).isSome = true :=
  ⟨fits_op (by decide +kernel), by decide +kernel⟩

/-- The second part of a quote: kept under its ID, kept under another, and not kept. -/
theorem witness_FlashAndEvidenceCommands_quote_part :
    let s (l : FMap Quote) : State := trustMod (ses .ready .maker) (fun y => { y with quotes := l })
    let f := cmd 0x0070 (beBytes 8 8176 ++ beBytes 4 7 ++ zeros 36)
    let q (id : Nat) : Quote := { id := id, bytes := [] }
    Admitted (s [(1, q 7)]) (sess .maker) (frameWithOpcode f 0x0070) ∧ Admitted (s []) (sess .maker) (frameWithOpcode f 0x0070) ∧
      f.length = 48 ∧ allZero (slice f.body 12 4) = true ∧ beAt f.body 0 8 % 8176 = 0 ∧ beAt f.body 0 8 < 26592 ∧ beAt f.body 0 8 ≠ 0 ∧
      fget? (s [(1, q 7)]).trust.quotes f.session = some (q (beAt f.body 8 4)) ∧
      fget? (s [(1, q 8)]).trust.quotes f.session = some (q 8) ∧ (q 8).id ≠ beAt f.body 8 4 ∧ fget? (s []).trust.quotes f.session = none ∧
      (sessionGet (commandStart (s []) (sess .maker) f) f.session).isSome = true :=
  ⟨fits_op (by decide +kernel), fits_op (by decide +kernel), by decide +kernel⟩

/-- A module whose audit log holds record 1. -/
def audited : State := flashMod (ses .ready .maker) (fun y => { y with audit := [(1, { bytes := zeros 64, before := zeros 32 })] })

theorem witness_FlashAndEvidenceCommands_audit :
    let f := cmd 0x0071 (beBytes 8 1 ++ beBytes 2 127 ++ zeros 6)
    let g := cmd 0x0071 (beBytes 8 2 ++ beBytes 2 1 ++ zeros 6)
    let t := commandStart audited (sess .maker) f
    Admitted audited (sess .maker) (frameWithOpcode f 0x0071) ∧ Admitted audited (sess .maker) (frameWithOpcode g 0x0071) ∧
      f.length = 16 ∧ allZero (slice f.body 10 6) = true ∧ 1 ≤ beAt f.body 8 2 ∧ beAt f.body 8 2 ≤ 127 ∧
      (fget? (auditAll t) (beAt f.body 0 8)).isSome = true ∧ fget? (auditAll t) (beAt g.body 0 8) = none :=
  ⟨fits_op (by decide +kernel), fits_op (by decide +kernel), by decide +kernel⟩

theorem witness_FlashAndEvidenceCommands_counters :
    let s := ses .ready .operator
    let f := cmd 0x0080 (zeros 4 ++ beBytes 2 0x32 ++ beBytes 2 1)
    Admitted s (sess .operator) (frameWithOpcode f 0x0080) ∧
      f.length = 8 ∧ byteAt f.body 0 = 0 ∧ byteAt f.body 1 = 0 ∧ beAt f.body 2 2 = 0 ∧ 1 ≤ beAt f.body 6 2 ∧ beAt f.body 6 2 ≤ 512 ∧
      (rangeFrom (beAt f.body 4 2) (beAt f.body 6 2)).all (counterListed 0) = true :=
  ⟨fits_op (by decide +kernel), by decide +kernel⟩

/-- The counters of the set that is bound to context 3. -/
theorem witness_FlashAndEvidenceCommands_counters_set :
    let y : CtrSet := { CtrSet.free with ctx := some 3 }
    let s0 := ses .ready .operator
    let s := { s0 with obs := { s0.obs with sets := [(31, y)] } }
    let f := cmd 0x0080 ([2, 0, 0, 3] ++ beBytes 2 0 ++ beBytes 2 1)
    let t := commandStart s (sess .operator) f
    Admitted s (sess .operator) (frameWithOpcode f 0x0080) ∧ f.length = 8 ∧ byteAt f.body 0 = 2 ∧ byteAt f.body 1 = 0 ∧
      1 ≤ beAt f.body 6 2 ∧ beAt f.body 6 2 ≤ 512 ∧ (rangeFrom (beAt f.body 4 2) (beAt f.body 6 2)).all (counterListed 2) = true ∧
      (setOf t (beAt f.body 2 2)).bind (fget? t.obs.sets) = some y :=
  ⟨fits_op (by decide +kernel), by decide +kernel⟩

theorem witness_FlashAndEvidenceCommands_trace :
    let s := ses .ready .operator
    let en := cmd 0x0081 ([1, 1, 7, 24] ++ beBytes 2 1279 ++ beBytes 2 1279 ++ zeros 16)
    let di := cmd 0x0081 (2 :: zeros 23)
    let mk := cmd 0x0081 (3 :: zeros 7 ++ beBytes 8 5 ++ zeros 8)
    Admitted s (sess .operator) (frameWithByte (frameWithOpcode en 0x0081) 0 1) ∧
      Admitted s (sess .operator) (frameWithByte (frameWithOpcode di 0x0081) 0 2) ∧
      Admitted s (sess .operator) (frameWithByte (frameWithOpcode mk 0x0081) 0 3) ∧
      en.length = 24 ∧ byteAt en.body 0 = 1 ∧ traceEnableOk en.body = true ∧ di.length = 24 ∧ byteAt di.body 0 = 2 ∧
      allZero (di.body.drop 1) = true ∧ mk.length = 24 ∧ byteAt mk.body 0 = 3 ∧ allZero (slice mk.body 1 7) = true ∧
      allZero (slice mk.body 16 8) = true :=
  ⟨fits_byte (by decide +kernel), fits_byte (by decide +kernel), fits_byte (by decide +kernel), by decide +kernel⟩

theorem witness_FlashAndEvidenceCommands_scan :
    let s := ses .halted .installer
    let f := cmd 0x0082 ([2, 0, 0, 0] ++ beBytes 4 1279 ++ zeros 8 ++ beBytes 4 8 ++ zeros 4)
    let t := commandStart s (sess .installer) f
    Admitted s (sess .installer) (frameWithOpcode f 0x0082) ∧ f.length = 24 ∧ allZero (slice f.body 20 4) = true ∧
      (scanBytes t f.body).isSome = true :=
  ⟨fits_op (by decide +kernel), by decide +kernel⟩

def actBytes (image target slot pipes sect : Nat) : Bytes :=
  beBytes 4 image ++ beBytes 1 target ++ beBytes 1 slot ++ beBytes 2 pipes ++ beBytes 1 sect ++ zeros 7

theorem witness_ActivationAndApplications_targets :
    let s := ses .ready .operator
    let f1 := cmd 0x0061 (actBytes 7 1 15 0 0)
    let f2 := cmd 0x0061 (actBytes 7 2 0 255 0)
    let f3 := cmd 0x0061 (actBytes 7 3 0 0 0)
    Admitted s (sess .operator) (frameWithByte (frameWithOpcode f1 0x0061) 4 1) ∧
      Admitted s (sess .operator) (frameWithByte (frameWithOpcode f2 0x0061) 4 2) ∧
      Admitted s (sess .operator) (frameWithByte (frameWithOpcode f3 0x0061) 4 3) ∧
      actFieldsOk f1 = true ∧ (actBody f1.body).target = 1 ∧ actFieldsOk f2 = true ∧ (actBody f2.body).target = 2 ∧
      actFieldsOk f3 = true ∧ (actBody f3.body).target = 3 :=
  ⟨fits_byte (by decide +kernel), fits_byte (by decide +kernel), fits_byte (by decide +kernel), by decide +kernel⟩

/-- A Grove model without partitions. -/
def emptyModel (draining : Bool) : GroveSlot :=
  { desc := { modelId := 1, mode := 0, outputs := 1, nfeat := 0, ntrees := 0, errClass := 0, escMask := 0, scale := 0, cut := [], base := [0],
              classVal := [], feats := [] }
    parts := [], image := 7, section_ := 0, draining := draining }

def withModel (draining : Bool) : State :=
  let s := ses .ready .operator
  { s with grove := { s.grove with slots := [(15, emptyModel draining)] } }

theorem witness_ActivationAndApplications_unload :
    let s := withModel false
    let f := cmd 0x0061 (actBytes 0 4 15 0 0)
    let g := frameWithByte (frameWithOpcode f 0x0061) 4 4
    let t := commandStart s (sess .operator) g
    Admitted s (sess .operator) g ∧ actFieldsOk g = true ∧ (actBody g.body).target = 4 ∧
      fget? s.grove.slots (actBody g.body).slot = some (emptyModel false) ∧ (emptyModel false).draining = false ∧
      slotRouted t (actBody g.body).slot = false :=
  ⟨fits_byte (by decide +kernel), by decide +kernel⟩

theorem witness_ActivationAndApplications_drained :
    let s := withModel true
    s.gct.stopped = false ∧ fget? s.grove.slots 15 = some (emptyModel true) ∧ (emptyModel true).draining = true ∧ slotInUse s 15 = false := by
  decide +kernel

def attachBody : Bytes := [1] ++ zeros 7 ++ beBytes 4 0xA5 ++ [63] ++ zeros 3 ++ [0, 1, 2, 3, 4, 5, 6, 0xFF]

theorem witness_ActivationAndApplications_span :
    let s := ses .ready .operator
    let a := cmd 0x0090 attachBody
    let d := cmd 0x0090 (3 :: zeros 7)
    let q := cmd 0x0090 (4 :: zeros 7)
    Admitted s (sess .operator) (frameWithByte (frameWithOpcode a 0x0090) 0 1) ∧
      Admitted s (sess .operator) (frameWithByte (frameWithOpcode d 0x0090) 0 3) ∧
      Admitted s (sess .operator) (frameWithByte (frameWithOpcode q 0x0090) 0 4) ∧
      a.length = 24 ∧ byteAt a.body 0 = 1 ∧ allZero (slice a.body 1 7) = true ∧ byteAt a.body 12 < 64 ∧
      allZero (slice a.body 13 3) = true ∧ (∀ k, k < 8 → byteAt a.body (16 + k) < 64 ∨ byteAt a.body (16 + k) = 0xFF) ∧
      inOpenEpoch s = false ∧ d.length = 8 ∧ byteAt d.body 0 = 3 ∧ allZero (slice d.body 1 7) = true ∧ q.length = 8 ∧
      byteAt q.body 0 = 4 ∧ allZero (slice q.body 1 7) = true :=
  ⟨fits_byte (by decide +kernel), fits_byte (by decide +kernel), fits_byte (by decide +kernel), by decide +kernel⟩

/-- A module of its own epoch, attached as module 0. -/
def alone (s : State) : State :=
  let t := regPut (regPutF s .spnId 0 0 38 1 1) .spnMesh 0 0 0x010101
  { t with span := { t.span with member := true } }

/-- An EPOCH of a module that has joined its own mesh, and of one that is isolated. -/
theorem witness_ActivationAndApplications_epoch :
    let s := alone (ses .ready .operator)
    let cut := regPutF s .spnStatus 0 0 0 1 1
    let f := cmd 0x0090 (2 :: zeros 7 ++ [1, 1, 1] ++ zeros 5 ++ zeros 8)
    let g := frameWithByte (frameWithOpcode f 0x0090) 0 2
    let t := commandStart s (sess .operator) g
    Admitted s (sess .operator) g ∧ Admitted cut (sess .operator) g ∧ byteAt g.body 0 = 2 ∧ 8 ≤ g.length ∧ allZero (slice g.body 1 7) = true ∧
      epochArgsOk t g = true ∧ regF s .spnId 0 0 38 1 = 1 ∧ isolated t = false ∧ s.span.run = none ∧ s.span.old = none ∧ isCoord t = true ∧
      epochArgsOk (commandStart cut (sess .operator) g) g = true ∧ regF cut .spnId 0 0 38 1 = 1 ∧
      isolated (commandStart cut (sess .operator) g) = true :=
  ⟨fits_byte (by decide +kernel), fits_byte (by decide +kernel), by decide +kernel⟩

def appBytes (op slot cores image kib : Nat) : Bytes :=
  beBytes 1 op ++ beBytes 1 slot ++ beBytes 2 cores ++ beBytes 4 image ++ beBytes 4 kib ++ zeros 4

theorem witness_ActivationAndApplications_app :
    let s := flashMod (ses .maintenance .operator) (fun y => { y with images := [(7, zeros 96)] })
    let f := cmd 0x00A0 (appBytes 1 7 0x8000 7 1)
    let d := cmd 0x00A0 (appBytes 2 7 0 0 0)
    Admitted s (sess .operator) (frameWithByte (frameWithOpcode f 0x00A0) 0 1) ∧
      Admitted s (sess .operator) (frameWithByte (frameWithOpcode d 0x00A0) 0 2) ∧
      appFieldsOk f = true ∧ byteAt f.body 0 = 1 ∧ beAt f.body 2 2 &&& regF s .crnCtl 0 0 0 16 = 0 ∧
      regF s .crnApp (byteAt f.body 1) 0 16 1 ≠ 1 ∧ fget? s.flash.images (beAt f.body 4 4) = some (zeros 96) ∧
      appMemory s + beAt f.body 8 4 + 8192 ≤ regF s .crnMem 0 0 48 8 * 1024 ∧ appFieldsOk d = true ∧ byteAt d.body 0 = 2 :=
  ⟨fits_byte (by decide +kernel), fits_byte (by decide +kernel), by decide +kernel⟩

/-! ### Opens, completions and records -/

/-- A frame of session 0 with a number, signed under a key. -/
def openFrame (k body : Bytes) (seq : Nat) : CmdFrame := signed k { bareCmd 0x0002 body with session := 0, seq := seq }

theorem open_received {s : State} {k body : Bytes} {seq : Nat}
    (h : (decide (body.length ≤ 8192) && body.length % 8 == 0 && (inboundCmds s).isEmpty) = true) :
    inboundFits s (openFrame k body seq) = true ∧ framingOk s (openFrame k body seq) = true ∧
      frameTag k (openFrame k body seq) = (openFrame k body seq).tag := by
  simp only [Bool.and_eq_true, beq_iff_eq, decide_eq_true_eq, List.isEmpty_iff] at h
  obtain ⟨⟨h1, h2⟩, h3⟩ := h
  have hr : (openFrame k body seq).rest.length = body.length + 16 := by simp [openFrame, signed, bareCmd]
  refine ⟨?_, ?_, signed_tag _ _ rfl⟩
  · have : cmdFrameLen (openFrame k body seq) = max 60 (14 + 24 + (openFrame k body seq).rest.length) + 4 := rfl
    simp only [inboundFits, h3, List.foldl_nil, decide_eq_true_eq]
    unfold cellsFor ceilDiv
    omega
  · have hl : (openFrame k body seq).length = body.length := rfl
    have hs : (openFrame k body seq).session = 0 := rfl
    have ho : (openFrame k body seq).opcode = 2 := rfl
    have hv : (openFrame k body seq).version = 1 := rfl
    have hk : (openFrame k body seq).kind = 1 := rfl
    simp [framingOk, hl, hr, h1, h2, hs, ho, hv, hk]

theorem open_byte {k body : Bytes} {seq n v : Nat} (h : body[n]? = some (byteOf v)) :
    frameWithByte (frameWithOpcode (openFrame k body seq) 0x0002) n v = openFrame k body seq :=
  withByte_signed (f := { bareCmd 0x0002 body with session := 0, seq := seq }) rfl h

/-- READY with an installer root of zeros. -/
def rooted : State := trustMod (dev .ready) (fun y => { y with root := some (zeros 32) })

def openBody : Bytes := [1, 2] ++ zeros 38

theorem witness_SessionsAndCompletions_open :
    let f := openFrame (zeros 32) openBody 9
    let g := frameWithByte (frameWithOpcode f 0x0002) 0 1
    (inboundFits rooted g = true ∧ framingOk rooted g = true ∧ frameTag (zeros 32) g = g.tag) ∧
      rooted.gct.dev ≠ .powered ∧ g.session = 0 ∧ byteAt g.body 0 = 1 ∧ openKey rooted (byteAt g.body 1) (byteAt g.body 2) = some (zeros 32) ∧
      fgetD 0 rooted.trust.opens (counterOf (byteAt g.body 1) (byteAt g.body 2)) < g.seq ∧ openChecks rooted g = 0 := by
  intro f g
  have hg : g = f := open_byte rfl
  rw [hg]
  exact ⟨open_received (by decide +kernel), by decide +kernel⟩

theorem witness_SessionsAndCompletions_refused :
    let f : CmdFrame := { bareCmd 0x0002 openBody with session := 0, rest := openBody ++ zeros 16 }
    let g := frameWithByte (frameWithOpcode f 0x0002) 0 1
    rooted.gct.dev ≠ .powered ∧ inboundFits rooted g = true ∧ framingOk rooted g = true ∧ g.session = 0 ∧ byteAt g.body 0 = 1 ∧
      openKey rooted (byteAt g.body 1) (byteAt g.body 2) = some (zeros 32) ∧ frameTag (zeros 32) g ≠ g.tag := by decide +kernel

/-- An open by a role that has no key; one whose number the open counter has reached; one whose SLOT does not belong to its role. -/
theorem witness_SessionsAndCompletions_refused_other :
    let g (body : Bytes) : CmdFrame :=
      frameWithByte (frameWithOpcode { bareCmd 0x0002 body with session := 0, rest := body ++ zeros 16 } 0x0002) 0 1
    let used := trustMod rooted (fun y => { y with opens := [(1, 1)] })
    openKey rooted (byteAt (g ([1, 4] ++ zeros 38)).body 1) 0 = none ∧
      inboundFits rooted (g ([1, 4] ++ zeros 38)) = true ∧ framingOk rooted (g ([1, 4] ++ zeros 38)) = true ∧
      openKey used 2 0 = some (zeros 32) ∧ (g openBody).seq ≤ fgetD 0 used.trust.opens (counterOf 2 0) ∧
      inboundFits used (g openBody) = true ∧ framingOk used (g openBody) = true ∧
      openChecks rooted (openFrame (zeros 32) ([1, 2, 1] ++ zeros 37) 9) ≠ 0 ∧ openKey rooted 2 1 = some (zeros 32) ∧
      frameTag (zeros 32) (openFrame (zeros 32) ([1, 2, 1] ++ zeros 37) 9) = (openFrame (zeros 32) ([1, 2, 1] ++ zeros 37) 9).tag :=
  ⟨by decide +kernel, by decide +kernel, by decide +kernel, by decide +kernel, by decide +kernel, by decide +kernel, by decide +kernel, by
    unfold openChecks
    rw [show (openFrame (zeros 32) ([1, 2, 1] ++ zeros 37) 9).body = [1, 2, 1] ++ zeros 37 by
      simp [openFrame, signed, bareCmd, CmdFrame.body]]
    decide +kernel, by decide +kernel, signed_tag _ _ rfl⟩

def claimBody : Bytes := [2, 2] ++ zeros 1126

theorem witness_SessionsAndCompletions_claim :
    let root := hkdf (slice claimBody 8 32) (Config.kemShared Config.deviceSecret (slice claimBody 40 1088)) (ascii "AEDEM INSTALLER") 32
    let f := openFrame root claimBody 1
    let g := frameWithByte (frameWithOpcode f 0x0002) 0 2
    let s := dev .ready
    (inboundFits s g = true ∧ framingOk s g = true ∧ frameTag root g = g.tag) ∧ slice g.body 8 32 = slice claimBody 8 32 ∧
      slice g.body 40 1088 = slice claimBody 40 1088 ∧ g.session = 0 ∧ byteAt g.body 0 = 2 ∧
      g.port = .command 0 ∧ s.trust.root = none ∧ s.gct.dev = .ready ∧ g.seq = 1 ∧ fgetD 0 s.trust.opens 1 = 0 ∧ openChecks s g = 0 := by
  intro root f g s
  have hg : g = f := open_byte rfl
  have hb : f.body = claimBody := by simp [f, openFrame, signed, bareCmd, CmdFrame.body]
  have hc : openChecks s f = 0 := by
    unfold openChecks
    rw [hb]
    have h1 : f.flags = 0 := rfl
    have h2 : f.status = 0 := rfl
    have h3 : f.resv = 0 := rfl
    have h4 : f.length = 1128 := by show claimBody.length = 1128; rw [claimBody, List.length_append, zeros, List.length_replicate]; rfl
    rw [h1, h2, h3, h4]
    decide +kernel
  rw [hg, hb]
  exact ⟨open_received (by decide +kernel), rfl, rfl, rfl, rfl, rfl, rfl, rfl, rfl, rfl, hc⟩

theorem witness_SessionsAndCompletions_send :
    let e : ExecCmd := { cmd := cmd 0x0001 [], wait := .send (complete 0 []), key := zeros 32, role := 3, slot := 0, order := 0, waited := false }
    let x : Session := { sess .operator with exec := some e }
    let s : State := { dev .ready with gct := { (dev .ready).gct with sessions := [(1, x)] } }
    (1 : Nat) ≠ 0 ∧ sessionGet s 1 = some x ∧ x.exec = some e ∧ e.wait = .send (complete 0 []) ∧ completionFits s e (complete 0 []) = true ∧
      auditBlocks s e = false := by decide +kernel

/-- A record of class 0 in its queue, and the subscription that it goes to. -/
def record0 : PushRecord := { cls := 0, body := zeros 64, seqs := [(1, 1)], lost := [] }

def recordState : State :=
  let s := ses .serving .operator
  let s1 := regPut (regPut s .sqCfg 7 0 (1 + 2 ^ 4)) .sqBind 7 0 (5 * 2 ^ 24)
  let s2 := regPutF s1 .gctRecq 0 0 0 12 7
  let s3 := queueSet s2 7 { SQueue.empty with wr := 4, cm := 4, words := [word 0, word 0, word 0, word 0] }
  let u : Subscription := { cls := 0, session := 1, port := .command 0, smac := 0, vlan := none, udp := none, count := 1, lost := 0 }
  { s3 with gct := { s3.gct with subs := [u], recq := [(0, [record0])] } }

theorem witness_SessionsAndCompletions_record :
    let s := recordState
    let v := retryStateEvents s (s.gct.stateWait.length + 1)
    s.gct.stopped = false ∧ standingRecords v 0 = record0 :: [] ∧ outRoom v ((recordOut v record0).map Prod.snd) = true ∧
      recordQueueUsable v 0 = true := by decide +kernel

theorem witness_SessionsAndCompletions_timeout :
    let s := { ses .ready .operator with idleClock := 10 ^ 16 }
    sessionGet s 1 = some (sess .operator) ∧ s.gct.dev ≠ .halted ∧ (sess .operator).load = 0 ∧
      (sess .operator).idleFrom + msTicks (regF s .gctSessionTtl 0 0 0 32) ≤ s.idleClock := by decide +kernel

theorem witness_SessionsAndCompletions_drain :
    (dev .draining).gct.dev = .draining ∧ (dev .draining).gct.stopped = false ∧ (dev .draining).canopy.pkts = [] ∧
      openRuns (dev .draining) = [] := by decide +kernel

/-! ### Power, reset, temperature, the management bus and the TAP -/

/-- A module in POWERED, with its rails up or not. -/
def powered (rails : Bool) : State := pwrMod (dev .powered) (fun p => { p with rails := rails, pgoodIn := true, releaseAt := 0 })

theorem witness_PowerAndReset_up :
    (powered false).gct.dev = .powered ∧ (powered false).pwr.rails = false ∧ 46000 ≤ 46000 ∧ 56000 ≤ 56000 := by decide +kernel

theorem witness_PowerAndReset_release :
    let late := pwrMod (powered true) (fun p => { p with releaseAt := 1 })
    (powered true).gct.dev = .powered ∧ (powered true).pwr.rails = true ∧ (powered true).pwr.pgoodIn = true ∧
      (powered true).pwr.releaseAt ≤ (powered true).clock ∧ (dev .ready).gct.dev ≠ .powered ∧ late.clock < late.pwr.releaseAt := by
  decide +kernel

theorem witness_PowerAndReset_boot : State.reset.gct.dev = .secureBoot := by decide

/-- The delay of a RESET command: 12,500 ticks of 0.8 ns, and one tick before. -/
theorem witness_PowerAndReset_command :
    let s := { dev .ready with gct := { (dev .ready).gct with resetDue := some 0 }, clock := 12500 }
    let u := { s with clock := 12499 }
    s.gct.resetDue = some 0 ∧ 0 + 12500 ≤ s.clock ∧ u.gct.resetDue = some 0 ∧ u.clock < 0 + 12500 := by decide +kernel

/-- A reset pulse of 49 ns is ignored, and one of 10 µs resets (22 R588). -/
theorem test_reset_pulse :
    exec (.moduleReset (.pin 49)) (dev .serving) = .next (dev .serving) ∧
      (match exec (.moduleReset (.pin 10000)) (dev .serving) with
        | .next t => t.gct.dev == .powered && !t.pwr.resetN
        | _ => false) = true := by
  refine ⟨rfl, by decide +kernel⟩

/-- Input at the boundaries of its range. -/
theorem witness_InputAndTemperature_input :
    let s := pwrMod (dev .serving) (fun p => { p with rails := true })
    s.pwr.rails = true ∧ (44000 ≤ 44000 ∧ 44000 < 46000) ∧ (56000 < 56001 ∧ 58000 ≤ 58000) ∧ 43999 < 44000 ∧ 58000 < 58001 := by
  decide +kernel

/-- A rail without a shed phase, rail 11 with one, and with two. -/
theorem witness_InputAndTemperature_phases :
    let s := pwrMod (dev .serving) (fun p => { p with rails := true })
    let t := regPutF s .pwrRail 0 0 22 2 1
    let u := regPutF s .pwrRail 0 0 22 2 2
    s.pwr.rails = true ∧ regF s .pwrRail 0 0 (2 * 11) 2 = 0 ∧ t.pwr.rails = true ∧ regF t .pwrRail 0 0 (2 * 11) 2 = 1 ∧ u.pwr.rails = true ∧
      2 ≤ regF u .pwrRail 0 0 (2 * 11) 2 := by decide +kernel

theorem witness_InputAndTemperature_throttle :
    bitN (dev .serving).pwr.throttled 3 = false ∧ 100 ≤ 100 ∧ 94 < 95 ∧ 95 ≤ 95 ∧ 99 < 100 := by decide +kernel

/-- A die at 110 °C is fatal with cause 0x05 (22 R595). -/
theorem test_thermal_shutdown :
    (match exec (.thermalShutdown 4 110) (dev .serving) with
      | .next t => t.gct.dev == .faulted && t.gct.cause == 5
      | _ => false) = true := by decide +kernel

/-- A second failing phase of a rail is fatal with cause 0x03 (22 R585). -/
theorem test_phase_shed :
    (match exec (.phaseShed 0) (regPutF (pwrMod (dev .serving) (fun p => { p with rails := true })) .pwrRail 0 0 0 2 1) with
      | .next t => t.gct.dev == .faulted && t.gct.cause == 3
      | _ => false) = true := by decide +kernel

theorem witness_SidebandAndCounters_bus :
    (pwrMod (dev .serving) (fun p => { p with rails := true })).pwr.rails = true ∧
      (pwrMod (dev .serving) (fun p => { p with resetN := true })).pwr.resetN = true ∧
      (pwrMod (dev .serving) (fun p => { p with resetN := false })).pwr.resetN = false := by decide

theorem witness_SidebandAndCounters_scan :
    let s := regPutF (dev .halted) .obsCtl 0 0 0 1 1
    let body : Bytes := [2, 0, 0, 0] ++ beBytes 4 1279 ++ zeros 8 ++ beBytes 4 8 ++ zeros 4
    regF s .obsCtl 0 0 0 1 = 1 ∧ s.gct.dev = .halted ∧ (scanBytes s body).isSome = true := by decide +kernel

/-- READ_VIN of 48 V: 48,000 mV as a mantissa of 768 and an exponent of −4 (22 R592). -/
theorem test_read_vin :
    (match exec .readVin (pwrMod (dev .serving) (fun p => { p with rails := true, mv := 48000 })) with
      | .next t => t.sent == [.smbus (768 + 28 * 2 ^ 11)]
      | _ => false) = true := by decide +kernel

theorem test_idcode :
    (match exec .idcode (dev .ready) with
      | .next t => t.sent == [.tap 0x194164B3]
      | _ => false) = true := by decide +kernel

/-! ### Crown cores, flash, trust, observation and debug -/

/-- An EVQ.RD that stays within 4,096 records of WR, and one that would pass it. -/
theorem witness_CrownCores_events :
    let s := dev .serving
    crownRuns s = true ∧ (regF s .crnEvq 0 0 0 32 + 2 ^ 32 - 0 % 2 ^ 32) % 2 ^ 32 ≤ 4096 ∧ crownHeld s 15 = false ∧
      4096 < (regF s .crnEvq 0 0 0 32 + 2 ^ 32 - 1 % 2 ^ 32) % 2 ^ 32 := by decide +kernel

theorem witness_CrownCores_watchdog :
    let s := { regPutF (dev .serving) .crnCtl 0 0 16 1 1 with idleClock := 10 ^ 16 }
    crownRuns s = true ∧ regF s .crnCtl 0 0 16 1 = 1 ∧ isRuntime s 0 = true ∧ crownHeld s 0 = false ∧
      fgetD 0 s.crown.kick 0 + msTicks (regF s .crnWd 0 0 0 16) ≤ s.idleClock := by decide +kernel

theorem witness_CrownCores_release :
    let s := { dev .serving with crown := { (dev .serving).crown with held := [(15, 0)] }, idleClock := 62500000 }
    fget? s.crown.held 15 = some 0 ∧ 0 + msTicks 50 ≤ s.idleClock ∧ s.gct.stopped = false := by decide +kernel

/-- An append of 4,096 bytes within the full bucket, and one that the empty bucket does not hold. -/
theorem witness_FlashStore_append :
    let s := dev .serving
    let e := flashMod s (fun x => { x with bucket := 0 })
    crownRuns s = true ∧ crownHeld s 0 = false ∧ s.gct.stopped = false ∧ 4096 ≤ (zeros 4096).length ∧ (zeros 4096).length ≤ 1048576 ∧
      s.flash.worn = false ∧ s.flash.degraded = false ∧ 1250 * (zeros 4096).length ≤ bucketNow s ∧
      s.flash.buf.foldl (fun a x => a + x.length) 0 + (zeros 4096).length ≤ 268435456 ∧ bucketNow e < 1250 * (zeros 4096).length := by
  decide +kernel

theorem witness_FlashStore_dies :
    let s := dev .serving
    let t := flashMod s (fun x => { x with rebuild := some 0 })
    bitN s.flash.lost 15 = false ∧ s.flash.rebuild = none ∧ s.flash.rebuilt < 2 ∧ bitN t.flash.lost 15 = false ∧
      t.flash.rebuild.isSome = true ∧ t.gct.stopped = false ∧ 2 ≤ (flashMod s (fun x => { x with rebuilt := 2 })).flash.rebuilt := by
  decide +kernel

/-- A scrub whose pass is due, and one that has made the pass of its period (18 R508). -/
theorem witness_FlashStore_scrub :
    let pass (s : State) : Option Nat × State := scrubPassOf s 2 15 (scrubSetting s) (fun v => msTicks (86400000 * (v / 2)))
    let s := dev .serving
    s.gct.stopped = false ∧ (pass s).1 = some 15 ∧ (pass (pass s).2).1 = none ∧ (pass s).2.gct.stopped = false := by decide +kernel

/-- A second die lost during a rebuild degrades the store (18 R508). -/
theorem test_die_loss :
    (match exec (.dieLoss 3) (flashMod (dev .serving) (fun x => { x with rebuild := some 0 })) with
      | .next t => t.flash.degraded && bitN t.flash.lost 3
      | _ => false) = true := by decide +kernel

/-- MAINTENANCE with an installer root: every trust row is taken. -/
def trusted : State := trustMod (dev .maintenance) (fun y => { y with root := some (zeros 32), ens := 0xFFFF })

theorem witness_TrustRecords_release :
    ∃ row, TakesWrite trusted row (mkReg .trsCtl 0 0) (trusted.trust.signerEn % 256 + 2 ^ 8) := takes_row (by decide +kernel)

theorem witness_TrustRecords_rotate :
    ∃ row, TakesWrite trusted row (mkReg .trsOpkey 15 0) (b2n (bitN trusted.trust.ens 15) * 2 ^ 32 + 2 ^ 33) := takes_row (by decide +kernel)

theorem witness_TrustRecords_enable : ∃ row, TakesWrite trusted row (mkReg .trsOpkey 15 0) (b2n false * 2 ^ 32) := takes_row (by decide +kernel)

theorem witness_TrustRecords_save : ∃ row, TakesWrite trusted row (mkReg .trsCfg 0 0) 1 := takes_row (by decide +kernel)

theorem witness_TrustRecords_factory : ∃ row, TakesWrite trusted row (mkReg .trsCfg 0 0) 2 := takes_row (by decide +kernel)

theorem witness_TrustRecords_summary :
    let s := { dev .ready with clock := 1250000000 }
    s.trust.sumsAt + 1250000000 ≤ s.clock ∧ (dev .ready).clock < (dev .ready).trust.sumsAt + 1250000000 := by decide +kernel

/-- An operator session of slot 15, and the writes ROTATE and EN = 0. -/
theorem witness_OperatorSlots :
    let x : Session := { sess .operator with keySlot := 15 }
    let y : Session := { x with exec := some busyExec }
    let s : State := { trusted with gct := { trusted.gct with sessions := [(1, x), (2, y)] } }
    (15 : Nat) < 16 ∧ sessionGet s 1 = some x ∧ sessionGet s 2 = some y ∧ x.role = .operator ∧ x.keySlot = 15 ∧ x.exec = none ∧
      y.exec.isSome = true ∧ bitN (3 * 2 ^ 32) 33 = true ∧ bitN 0 32 = false := by decide +kernel

theorem witness_OperatorSlots_taken : ∃ row, TakesWrite trusted row (mkReg .trsOpkey 15 0) (3 * 2 ^ 32) := takes_row (by decide +kernel)

theorem witness_SidebandAndCounters_counts :
    let s := { dev .serving with obs := { (dev .serving).obs with sets := [(31, CtrSet.free)] } }
    s.gct.stopped = false ∧ crownRuns s = true ∧ (fget? s.obs.sets 31).isSome = true := by decide +kernel

/-- Core 1279 traced, with a thread in context 1. -/
def traced : State :=
  let s := regPut (dev .serving) .obsTrace 0 0 (1 + 2 + 4 + 10 * 2 ^ 5 + 1279 * 2 ^ 10 + 1279 * 2 ^ 21 + 2 ^ 32)
  { s with obs := { s.obs with recs := [{ bytes := zeros 64, fallback := false, seqs := [], bad := false },
    { bytes := zeros 64, fallback := false, seqs := [], bad := true }] } }

/-- A frame of both records, the second of which is bad, and one of the bad record alone. -/
theorem witness_SidebandAndCounters_chaif :
    let s := traced
    let r := takeChaif 2 s.obs.recs
    let v : State := { s with obs := { s.obs with recs := s.obs.recs.drop 1 } }
    let q := takeChaif 1 v.obs.recs
    regF s .obsTrace 0 0 32 1 = 1 ∧ r.1.filter (fun r => !r.bad) ≠ [] ∧ ((r.1.filter (fun r => !r.bad)).flatMap (fun r => r.bytes)).length ≤ 8192 ∧
      regF v .obsTrace 0 0 32 1 = 1 ∧ q.1 ≠ [] ∧ q.1.filter (fun r => !r.bad) = [] := by decide +kernel

theorem witness_StopAndDebug_stop :
    let c : Cut := { stamp := 2 ^ 56 - 1, cause := 15 }
    let s := { stopped .serving with obs := { (stopped .serving).obs with cut := some c } }
    s.obs.cut.isSome = true ∧ s.obs.cut = some c ∧ s.gct.stopped = true ∧ haltLegal s = true := by decide +kernel

/-- A hardware context with every register at zero, in context 1. -/
def thread : Hc :=
  { ctx := 1, s := [], v := [], p := [], t := [], sPoison := 0, vPoison := 0, tPoison := 0, pc := 0, layer := 0, oper := 0, runstat := 0,
    param := 0, rlen := 0, qstat := 0, qd := [], cls := 0, isRun := false, st := .issuing, tags := [], loads := [], issued := 0, born := 0,
    quantum := 0, disp := 0, mxRef := 0, skipBrk := false, stepOne := false, heldFrame := none, stop := false, exiting := false,
    ahead := none, buf := [] }

theorem witness_SidebandAndCounters_sample :
    let s := hcSet traced 1279 7 (some thread)
    s.gct.stopped = false ∧ traceOn s 0 = true ∧ coreActive s 1279 = true ∧ regF s .obsTrace 0 0 10 11 ≤ 1279 ∧
      1279 ≤ regF s .obsTrace 0 0 21 11 ∧ hcGet s 1279 7 = some thread := by decide +kernel

/-- A record of the fallback, good and bad, with a trace subscription on a command port, without one, and without room. -/
theorem witness_SidebandAndCounters_fallback :
    let u : Subscription := { cls := 2, session := 1, port := .command 0, smac := 0, vlan := none, udp := none, count := 1, lost := 0 }
    let r (bad : Bool) : TraceRec := { bytes := zeros 64, fallback := true, seqs := [(1, 1)], bad := bad }
    let s0 := ses .serving .operator
    let s (us : List Subscription) (bad : Bool) : State :=
      { s0 with gct := { s0.gct with subs := us }, obs := { s0.obs with recs := [r bad] } }
    let full : State := { s [u] false with gct := { (s [u] false).gct with
      outbound := [{ port := .command 0, frame := [], cells := List.range 128 }] } }
    let fs (s : State) := (recordFrames s 2 (r false).seqs (r false).bytes).filter (fun e => match e.1 with | .command _ => true | _ => false)
    let onPort (p : Nat) : Nat := ((fs (s [u] false)).filter (fun e => portIndex e.1 == p)).foldl (fun a e => a + lineBytes e.2) 0
    (s [u] false).obs.recs.find? (fun r => r.fallback) = some (r false) ∧ traceSubscribed (s [u] false) = true ∧
      outRoom (s [u] false) ((fs (s [u] false)).map Prod.snd) = true ∧ (∀ p, p < 2 → windowBytes (s [u] false) p + onPort p ≤ 15000) ∧
      traceSubscribed (s [] false) = false ∧ (s [u] true).obs.recs.find? (fun r => r.fallback) = some (r true) ∧
      traceSubscribed (s [u] true) = true ∧ (r true).bad = true ∧ traceSubscribed full = true ∧
      outRoom full ((fs full).map Prod.snd) = false := by decide +kernel

/-- A context in debug stop, and one that is absent. -/
theorem witness_StopAndDebug_debug :
    let x : Hc := { thread with st := .debug }
    let s := hcSet (dev .serving) 1279 7 (some x)
    s.gct.stopped = false ∧ hcGet s 1279 7 = some x ∧ x.st = .debug ∧ x.stop = false ∧ hcGet s 0 0 = none := by decide +kernel

/-- An operation on a context that is not in debug stop ends with 0x0C (21 R564). -/
theorem test_debug_absent :
    (match exec (.dbgContinue 0 0) (dev .ready) with
      | .next t => regF t .obsDbg 0 0 24 8 == 0x0C
      | _ => false) = true := by decide +kernel

/-- LINK follows Chaif's link (21 R562). -/
theorem test_chaif_link :
    (match exec (.chaifLinkChange true) (dev .serving) with
      | .next t => regF t .obsTrace 0 0 32 1 == 1
      | _ => false) = true := by decide +kernel

/-! ### Memory and stream queues -/

theorem witness_DeviceMemoryIsLittleEndian :
    let s := dev .serving
    Memory.wf s.mem = true ∧ ∀ k, k < 8 → mirrorOf s (hbmBase + k) = none ∧ pcUnmapped s (hbmBase + k) = false ∧
      inCopyRange s (hbmBase + k) = false ∧ inHeart (hbmBase + k) = false := by decide +kernel

/-- A store of 8 bytes puts its least significant byte first (00 R18). -/
theorem test_little_endian :
    memBytes (memWr (dev .serving) hbmBase (leBytes 8 0x0807060504030201)) hbmBase 8 = [1, 2, 3, 4, 5, 6, 7, 8] := by decide +kernel

/-- A queue's counters are in order, as a Boolean. -/
def inOrder (v : SQueue) : Bool :=
  decide ((v.mark - v.rl).toNat ≤ (v.rd - v.rl).toNat) && decide ((v.rd - v.rl).toNat ≤ (v.cm - v.rl).toNat) &&
    decide ((v.cm - v.rl).toNat ≤ v.occupied) && decide (v.words.length = v.occupied) &&
    match v.openN with
    | none => decide (v.wr = v.cm) && decide (v.occupied ≤ 131056)
    | some n => decide (v.pushed ≤ n) && decide ((v.wr - v.cm).toNat = v.pushed) && decide (v.occupied + (n - v.pushed) ≤ 131056)

theorem inOrder_ordered {v : SQueue} (h : inOrder v = true) : v.ordered := by
  unfold inOrder at h
  unfold SQueue.ordered
  cases hn : v.openN <;> rw [hn] at h <;> simp only [Bool.and_eq_true, decide_eq_true_eq] at h ⊢ <;> tauto

/-- Queue 9, enabled, with a core bound at both ends, and two words of a committed packet. -/
def queue9 : SQueue :=
  { SQueue.empty with wr := 2, cm := 2, words := [{ word 5 with sop := true }, { word 6 with eop := true }] }

def portQueue (v : SQueue) : State :=
  let s := regPut (dev .serving) .sqCfg 9 0 (1 + 2 ^ 4)
  queueSet (regPut s .sqBind 9 0 (4 + 15 * 2 ^ 8 + 4 * 2 ^ 24 + 15 * 2 ^ 32)) 9 v

theorem witness_QueueCountersStayOrdered :
    (queueGet (portQueue queue9) 9).ordered ∧ (queueGet (portQueue queue9) 9).headOk ∧ (1 : Nat) ≤ 256 ∧
      (queueGet (portQueue queue9) 9).openN = none :=
  ⟨inOrder_ordered (by decide +kernel), ⟨by decide +kernel, by decide +kernel, by decide +kernel⟩, by decide +kernel⟩

/-- An open packet of one word, complete, and one of two words, incomplete. -/
def openQueue (n : Nat) : SQueue := { SQueue.empty with wr := 1, openN := some n, pushed := 1, words := [word 5] }

theorem witness_PacketsAppearAtCommit :
    let s := portQueue (openQueue 1)
    let t := portQueue (openQueue 2)
    (queueGet s 9).ordered ∧ (queueGet t 9).ordered ∧ queueEnabled s 9 = true ∧ (queueGet s 9).rewound = false ∧
      (queueGet s 9).openN = some 1 ∧ (queueGet s 9).pushed = 1 ∧ (queueGet t 9).openN = some 2 ∧ (queueGet t 9).pushed < 2 ∧
      (queueGet t 9).rewound = false :=
  ⟨inOrder_ordered (by decide +kernel), inOrder_ordered (by decide +kernel), by decide +kernel⟩

theorem witness_ReadTakesTheOldestWord :
    let s := portQueue queue9
    let v := regPut s .sqCfg 9 0 0
    ((queueGet s 9).ordered ∧ (queueGet s 9).headOk) ∧ ((queueGet v 9).ordered ∧ (queueGet v 9).headOk) ∧ queueEnabled s 9 = true ∧
      fgetD false s.tiers.gated 9 = false ∧ (queueGet s 9).readable = queue9.words ∧ queueEnabled v 9 = false :=
  ⟨⟨inOrder_ordered (by decide +kernel), by decide +kernel, by decide +kernel, by decide +kernel⟩,
    ⟨inOrder_ordered (by decide +kernel), by decide +kernel, by decide +kernel, by decide +kernel⟩, by decide +kernel⟩

/-- A port of a bound core: an OPEN that has room, one that waits for room that its policy lets it wait for, a read that delivers a word, one
whose queue is disabled, and one that waits for a word. -/
theorem witness_QueuePortAndEvents_port :
    let s := portQueue queue9
    let off := regPut s .sqCfg 9 0 0
    let waits := portFlag (portQueue SQueue.empty) 15 9 true
    portLives s 15 9 = true ∧ crownBound (queueProducer s 9) 15 = true ∧ crownBound (queueConsumer s 9) 15 = true ∧
      (1 ≤ 256 % 512 ∧ 256 % 512 ≤ 256) ∧ (qOpen s 9 1 (bitN 1 9)).1.wait = false ∧ (qOpen s 9 16 (bitN 16 9)).1.wait = true ∧
      queueEnabled s 9 = true ∧ fgetD false s.crown.waits (portKey 15 9) = false ∧ (queueRead s 9).1.isSome = true ∧
      portLives s 14 9 = true ∧ crownBound (queueProducer s 9) 14 = false ∧ crownBound (queueConsumer s 9) 14 = false ∧
      portLives off 15 9 = true ∧ crownBound (queueConsumer off 9) 15 = true ∧ queueEnabled off 9 = false ∧
      portLives waits 15 9 = true ∧ crownBound (queueConsumer waits 9) 15 = true ∧ queueEnabled waits 9 = true ∧
      fgetD false waits.crown.waits (portKey 15 9) = true ∧ (queueNext (queueGet waits 9)).isNone = true := by decide +kernel

theorem witness_QueuePortAndEvents_retry :
    let s0 := portQueue SQueue.empty
    let s := { s0 with heart := { s0.heart with waiting := [(9, 1, 15)] } }
    s.gct.stopped = false ∧ s.heart.waiting.find? (fun w => w.1 == 9) = some (9, 1, 15) ∧ (queueGet s 9).openN = none ∧
      (qOpen s 9 1 false).1.wait = false := by decide +kernel

theorem witness_QueuePortAndEvents_flush :
    ∃ row, TakesWrite (portQueue queue9) row (mkReg .sqCfg 9 0) (regN (portQueue queue9) .sqCfg 9 0 % 2 ^ 17 + 2 ^ 63) :=
  takes_row (by decide +kernel)

/-- A scrub of Heartwood whose pass is due, and one that has made the pass of its period (06 R181). -/
theorem witness_QueuePortAndEvents_scrub :
    let pass (s : State) : Option Nat × State := scrubPass ((heartGranules [69888 * 8]).foldl spoilTrace
      (upsetGranules s (heartGranules [0]) (heartGranules [69888 * 8]))) 0 (mkReg .hwdScrub 0 0) (fun v => msTicks (bitsN v 0 16))
    let s := dev .serving
    s.gct.stopped = false ∧ (pass s).1.any (fun v => bitN v 16) = true ∧ (pass (pass s).2).1 = none := by decide +kernel

/-- READ at a queue port delivers the oldest word, with SOP (17 R486). -/
theorem test_port_read :
    (match exec (.portRead 15 9 none false) (portQueue queue9) with
      | .next t => fgetD 0 t.crown.word (portKey 15 9) == BitVec.ofNat 128 5 && (queueGet t 9).rd == 1
      | _ => false) = true := by decide +kernel

/-- A word whose parity fails at a READ is delivered with poison (06 R189). -/
theorem test_port_read_parity :
    (match exec (.portRead 15 9 none true) (portQueue { queue9 with head := queue9.words }) with
      | .next t => regN t .sqPoison 0 0 == 1 && bitN (fgetD 0 t.crown.status (portKey 15 9)) 10
      | _ => false) = true := by decide +kernel

/-! ### Flow DMA, aging, the Grove's leaf port and Tending -/

/-- The flow table of pipeline 7 at the start of stack 7. -/
def flowState : State := regPut (dev .serving) .flwBase 7 0 (hbmBase + 7 * 2 ^ 36)

/-- The same with buckets 0 and 2,097,151 locked under token 5. -/
def lockedFlow : State :=
  let l : BucketLock := { token := 5, taken := 0, lease := 1 }
  setLock (setLock flowState 7 0 (some l)) 7 2097151 (some l)

/-- The same with slot 3 of the last bucket VALID. -/
def validFlow : State := memWr lockedFlow (bucketAddr lockedFlow 7 2097151 + 64 * 3 + 48) [1]

theorem witness_FlowDmaAndScans_locks :
    crownRuns flowState = true ∧ bucketLocked flowState 7 0 = false ∧ bucketLocked flowState 7 2097151 = false ∧
      (0 : Fin 2097152) ≠ 2097151 ∧ lockedCount flowState 7 ≤ 62 ∧ bucketLocked lockedFlow 7 0 = true ∧
      lockedUnder flowState 7 0 5 = false ∧ lockedUnder lockedFlow 7 2097151 4 = false ∧ lockedUnder lockedFlow 7 0 5 = true ∧
      lockedUnder lockedFlow 7 2097151 5 = true ∧ crownRuns lockedFlow = true ∧ lockedFlow.gct.stopped = false := by decide +kernel

theorem witness_FlowDmaAndScans_slots :
    let u := reachBucket validFlow 7 2097151
    entryValid (slotBytes (reachBucket lockedFlow 7 0) 7 0 3) = false ∧ crownRuns validFlow = true ∧ lockedUnder validFlow 7 2097151 5 = true ∧
      entryValid (slotBytes u 7 2097151 3) = true ∧ (slotBytes u 7 2097151 3).take 44 = (padTo (zeros 48) 48).take 44 ∧
      (slotBytes u 7 2097151 3).take 44 ≠ (padTo (1 :: zeros 47) 48).take 44 := by decide +kernel

theorem witness_FlowDmaAndScans_scans :
    let s := regPutF (regPutF (memWr flowState (bucketAddr flowState 7 2097151 + 64 * 3 + 48) [1]) .flwCtl 0 0 8 1 1) .flwCtl 0 0 10 1 1
    let u := memTouch (reachBucket s 7 2097151) (digestAddr s 7 2097151) 4
    s.gct.stopped = false ∧ regF s .flwCtl 0 0 8 1 = 1 ∧ bucketLocked s 7 2097151 = false ∧ regF s .flwCtl 0 0 10 1 = 1 ∧
      bucketBad u 7 2097151 = false ∧ bucketDigest u 7 2097151 ≠ leNat (memBytes u (digestAddr u 7 2097151) 4) ∧
      regF (regPutF s .flwCtl 0 0 8 1 0) .flwCtl 0 0 8 1 = 0 ∧ bucketLocked lockedFlow 7 2097151 = true := by decide +kernel

theorem witness_FlowDmaAndScans_equal :
    let s0 := regPutF flowState .flwCtl 0 0 10 1 1
    let s := putDigest s0 7 2097151 (bucketDigest s0 7 2097151)
    let u := memTouch (reachBucket s 7 2097151) (digestAddr s 7 2097151) 4
    s.gct.stopped = false ∧ regF s .flwCtl 0 0 10 1 = 1 ∧ bucketLocked s 7 2097151 = false ∧
      bucketDigest u 7 2097151 = leNat (memBytes u (digestAddr u 7 2097151) 4) := by decide +kernel

/-- PUBLISH under the token sets VALID of the slot (05 R163). -/
theorem test_publish :
    (match exec (.publish 0 7 2097151 3 5) lockedFlow with
      | .next t => entryValid (slotBytes t 7 2097151 3) && entryGen (slotBytes t 7 2097151 3) == 1
      | _ => false) = true := by decide +kernel

theorem witness_GroveAndTending_route :
    ∃ row, TakesWrite (dev .ready) row (mkReg .grvRoute 15 0) (regN (dev .ready) .grvRoute 15 0) := takes_row (by decide +kernel)

/-- A loaded slot with one partition of one leaf, at node 3. -/
def leafSlot : GroveSlot :=
  { emptyModel false with parts := [{ nodeAt := 3, nodes := 1, sideAt := 0, side := 0, dirAt := [] }] }

def leafState : State :=
  let s := dev .serving
  { s with
    grove := { s.grove with slots := [(15, leafSlot)], nodes := [(3, BitVec.ofNat 128 3)], bad := [(wordKey 15 7, true)] }
    tiers := { s.tiers with tend := { s.tiers.tend with pending := true } } }

/-- A loaded leaf while a boundary is pending, in a slot that READY names for flipping, and where neither holds. -/
theorem witness_GroveAndTending_leaf :
    let s := leafState
    let idle := { s with tiers := { s.tiers with tend := { s.tiers.tend with pending := false } } }
    let named := regPutF idle .sqTendCtl 0 0 5 16 0x8000
    crownRuns s = true ∧ fget? s.grove.slots 15 = some leafSlot ∧
      leafSlot.parts[0]? = some { nodeAt := 3, nodes := 1, sideAt := 0, side := 0, dirAt := [] } ∧ s.tiers.tend.pending = true ∧
      (f32 0x3F800000).isNan = false ∧ nodeType (fgetD 0 s.grove.nodes (0 * sliceNodes + 3 + 0)).toNat = 3 ∧
      idle.tiers.tend.pending = false ∧ bitN (regF idle .sqTendCtl 0 0 5 16) 15 = false ∧ crownRuns idle = true ∧
      bitN (regF named .sqTendCtl 0 0 5 16) 15 = true ∧ sliceNodes - 1 < sliceNodes ∧ nodeType 0 ≠ 3 := by decide +kernel

/-- A scrub of the Grove whose pass is due, with a word in error. -/
theorem witness_GroveAndTending_scrub :
    let s := regPutF leafState .grvCtl 0 0 0 1 1
    let r := scrubPass s 1 (mkReg .grvScrub 0 0) (fun v => msTicks (bitsN v 0 16))
    s.gct.stopped = false ∧ r.1.isSome = true ∧ regF s .grvCtl 0 0 0 1 = 1 ∧ wordBad s 15 7 = true ∧ wordBad s 15 8 = false ∧
      (scrubPass r.2 1 (mkReg .grvScrub 0 0) (fun v => msTicks (bitsN v 0 16))).1 = none := by decide +kernel

theorem witness_GroveAndTending_boundary :
    let s := regPutF leafState .sqTendCtl 0 0 1 1 1
    crownRuns s = true ∧ s.gct.stopped = false ∧ s.tiers.tend.pending = true ∧ regF s .sqTendCtl 0 0 1 1 = 1 ∧ regN s .sqTendAt 0 0 ≤ stampNow s := by
  decide +kernel

/-- Queue 16 + 7 takes the watermarks of pipeline 7; with a limit of 0 words it has no room. -/
theorem witness_GroveAndTending_watermark :
    let s0 := regPut (regPutF (dev .serving) .sqTendCtl 0 0 32 12 16) .sqCfg 23 0 (1 + 2 ^ 4)
    let s := regPut s0 .sqBind 23 0 (2 + 7 * 2 ^ 8)
    let q := regF s .sqTendCtl 0 0 32 12 + 7
    let full := regPut s .sqCfg 23 0 1
    let send (s : State) : QRes :=
      (queueSend (regPut s .sqT2Wm 7 0 (watermarkOf s 7)) q [mkWord (BitVec.ofNat 128 (2 + watermarkOf s 7 * 2 ^ 64)) false] false).1
    s.gct.stopped = false ∧ queueEnabled s q = true ∧ queueProducer s q = (2, 7) ∧ send s = .ok ∧
      queueEnabled full q = true ∧ queueProducer full q = (2, 7) ∧ send full ≠ .ok ∧ queueEnabled (regPut s .sqCfg 23 0 0) q = false := by
  decide +kernel

/-- At the boundary the phases of the armed slots flip and READY is cleared (15 R458). -/
theorem test_tending_boundary :
    (match exec .tendingBoundary (regPutF (regPutF leafState .sqTendCtl 0 0 1 1 1) .sqTendCtl 0 0 5 16 0x8000) with
      | .next t => t.grove.phases == 0x8000 && regF t .sqTendCtl 0 0 1 1 == 0 && !t.tiers.tend.pending
      | _ => false) = true := by decide +kernel

/-! ### Gramar-W: the instructions of a bundle -/

/-- Context 1 with s1 = 0x1000, s2 = 8 and descriptors of 32 INT8 elements at 0x1000 and 0x2000 in t1 and t2. -/
def thread1 : Hc :=
  { thread with
    s := [(1, 0x1000), (2, 8)]
    t := [(1, BitVec.ofNat 256 (0x1000 + 2 ^ 54 + 2 ^ 57 + 32 * 2 ^ 160 + 2 ^ 192)),
          (2, BitVec.ofNat 256 (0x2000 + 2 ^ 54 + 2 ^ 57 + 32 * 2 ^ 160 + 2 ^ 192))] }

/-- Core 1279 with a context in hardware context 7 at a cached bundle, and page 0 of its context mapped to `at_`. -/
def stands (at_ : Nat) (claim : Bool) (x : Hc) (bits : Nat) : State :=
  let s := unitSet (dev .serving) 1279 { leaves := [{ ctx := 1, page := 0, level := 3, entry := at_ + 1 + 2 + 4 + 8 + 16 }], ptrs := [] }
  coreMod (hcSet s 1279 7 (some x)) 1279 (fun c => { c with
    claim := if claim then some 7 else none, cache := [{ ctx := 1, va := 0, bits := bits, poison := false }] })

/-- Every condition of `Commits`, as a Boolean. -/
def commits (s : State) (k h : Nat) (x : Hc) (bits : Nat) (table : PeerTable) : Bool :=
  let b := Bundle.decode bits
  canIssue s k h == some x && cachedLine s k x == some { ctx := 1, va := 0, bits := bits, poison := false } && b.firstIllegal == none &&
    chooseExc (b.pairing x ((coreGet s k).claim == some h)) == none && !(b.reads x).any x.pending &&
    decideBundle (bundleOuts s k h x b table).1 (bundleExtra s k x b) == .commit

theorem commits_commits {s : State} {k h : Nat} {x : Hc} {bits : Nat} {table : PeerTable} (c : commits s k h x bits table = true) :
    Commits s k h x (Bundle.decode bits) table := by
  simp only [commits, Bool.and_eq_true, beq_iff_eq, Bool.not_eq_true'] at c
  obtain ⟨⟨⟨⟨⟨h1, h2⟩, h3⟩, h4⟩, h5⟩, h6⟩ := c
  exact ⟨h1, ⟨_, h2, rfl, rfl⟩, h3, h4, h5, h6⟩

/-- The words of a scalar instruction in slot SA and slot SB: rd 5, ra 1, rb 2 where its form has them. -/
def scalarWord (c : Nat) : Nat :=
  let f := (SOp.ofCode c).map SOp.form
  let noB := f == some .unary || f == some .limm || f == some .first
  c + 5 * 2 ^ 13 + (if f == some .limm then 2 ^ 31 + 7 * 2 ^ 32 else 2 ^ 19) + (if noB then 0 else 2 * 2 ^ 25)

def scalarCodes : List Nat :=
  [0x01, 0x02, 0x03, 0x04, 0x05, 0x06, 0x07, 0x08, 0x09, 0x0A, 0x0B, 0x0C, 0x0D, 0x0E, 0x0F, 0x10, 0x11, 0x12, 0x13, 0x14, 0x15, 0x16, 0x18,
   0x19, 0x20, 0x21, 0x22, 0x23, 0x24, 0x25, 0x28, 0x29, 0x2A, 0x2B, 0x2C]

/-- A bundle that commits, and whose slot meets a condition. -/
def issues {α : Type} (s : State) (x : Hc) (bits : Nat) (slot : Bundle → Option α) (p : α → Bool) : Bool :=
  commits s 1279 7 x bits PeerTable.empty && (slot (Bundle.decode bits)).any p

/-- A bundle commits, and its slot holds an instruction that meets a condition. -/
def Issues {α : Type} (s : State) (x : Hc) (bits : Nat) (slot : Bundle → Option α) (p : α → Bool) : Prop :=
  Commits s 1279 7 x (Bundle.decode bits) PeerTable.empty ∧ ∃ i, slot (Bundle.decode bits) = some i ∧ p i = true

theorem issues_spec {α : Type} {s : State} {bits : Nat} {x : Hc} {slot : Bundle → Option α} {p : α → Bool}
    (h : issues s x bits slot p = true) : Issues s x bits slot p := by
  rw [issues, Bool.and_eq_true] at h
  refine ⟨commits_commits h.1, ?_⟩
  cases hs : slot (Bundle.decode bits) with
  | none => rw [hs] at h; cases h.2
  | some i => rw [hs] at h; exact ⟨i, rfl, h.2⟩

/-- Every word of a list stands in a bundle that commits. -/
def EachIssues {α β : Type} (l : List β) (st : β → State) (x : Hc) (w : β → Nat) (slot : Bundle → Option α) (p : β → α → Bool) : Prop :=
  ∀ e ∈ l, Issues (st e) x (w e) slot (p e)

theorem each_issues {α β : Type} {l : List β} {st : β → State} {x : Hc} {w : β → Nat} {slot : Bundle → Option α} {p : β → α → Bool}
    (h : l.all (fun e => issues (st e) x (w e) slot (p e)) = true) : EachIssues l st x w slot p :=
  fun e he => issues_spec (List.all_eq_true.mp h e he)

/-- The instruction of a scalar slot is the one of a code; its condition is 1, and it reads no poison. -/
def scalarIs (c : Nat) (i : SSlot) : Bool := some i.op == SOp.ofCode c && thread1.cond i.pred i.pneg && !thread1.badAB i && !thread1.sBad i.ra

/-- Every scalar instruction without memory, in slot SA. -/
theorem witness_ScalarResults : EachIssues scalarCodes
    (fun c => stands hbmBase false thread1 (1 + scalarWord c * 2 ^ 16)) thread1 (fun c => 1 + scalarWord c * 2 ^ 16) (fun b => b.scalar false) scalarIs :=
  each_issues (by decide +kernel)

/-- A scalar instruction in slot SB. -/
theorem witness_ScalarResults_sb : EachIssues [0x01, 0x2C]
    (fun c => stands hbmBase false thread1 (2 + scalarWord c * 2 ^ 80)) thread1 (fun c => 2 + scalarWord c * 2 ^ 80) (fun b => b.scalar true) scalarIs :=
  each_issues (by decide +kernel)

/-- Slot SA: ADD s5, s1, s2, written from 09 "Scalar slot fields": opcode 0x01, RD in bits 18:13, RA in 24:19, RB in 30:25. -/
theorem test_add :
    (match exec (.wAdd 1279 7) (stands hbmBase false thread1 (1 + (1 + 5 * 2 ^ 13 + 1 * 2 ^ 19 + 2 * 2 ^ 25) * 2 ^ 16)) with
      | .next t => (hcGet t 1279 7).any (fun y => y.sreg 5 == 0x1008 && y.sreg 1 == 0x1000 && y.pc == 0x40)
      | _ => false) = true := by decide +kernel

/-- DIV by 0 gives all ones (09 R268). -/
theorem test_div_zero :
    (match exec (.wDiv 1279 7) (stands hbmBase false thread1 (1 + (0x13 + 5 * 2 ^ 13 + 1 * 2 ^ 19 + 3 * 2 ^ 25) * 2 ^ 16)) with
      | .next t => (hcGet t 1279 7).any (fun y => y.sreg 5 == BitVec.allOnes 64)
      | _ => false) = true := by decide +kernel

/-- The loads and stores at s1 + s2 = 0x1008, through the context's translation, from HBM and from the core's own Ring store. -/
def memCodes : List (Nat × Nat) :=
  [(0x30, 1), (0x31, 2), (0x32, 4), (0x33, 8), (0x34, 1), (0x35, 2), (0x36, 4), (0x38, 1), (0x39, 2), (0x3A, 4), (0x3B, 8)]

def memIs (at_ : Nat) (e : Nat × Nat) (i : SSlot) : Bool :=
  let bits := 1 + scalarWord e.1 * 2 ^ 16
  let s := stands at_ false thread1 bits
  let va := (thread1.sreg i.ra + thread1.opB i).toNat % 2 ^ 48
  let need : Need := if e.1 < 0x38 then .r else .w
  scalarIs e.1 i && va % e.2 == 0 && (thread1.aheadHit va e.2).isNone &&
    match (translate (beforeScalar s 1279 thread1 (Bundle.decode bits) false) 1279 1 va need).1 with
    | .ok pa => ownRing 1279 pa == (at_ == ringBase 1279)
    | _ => false

theorem witness_ScalarMemory : EachIssues memCodes
    (fun e => stands hbmBase false thread1 (1 + scalarWord e.1 * 2 ^ 16)) thread1 (fun e => 1 + scalarWord e.1 * 2 ^ 16)
    (fun b => b.scalar false) (memIs hbmBase) :=
  each_issues (by decide +kernel)

theorem witness_ScalarMemory_ring : EachIssues memCodes
    (fun e => stands (ringBase 1279) false thread1 (1 + scalarWord e.1 * 2 ^ 16)) thread1 (fun e => 1 + scalarWord e.1 * 2 ^ 16)
    (fun b => b.scalar false) (memIs (ringBase 1279)) :=
  each_issues (by decide +kernel)

/-- A load of s63 in flight; a slot whose condition is 0 (PNEG of p0). -/
theorem witness_ScalarMemory_rest :
    let x : Hc := { thread1 with loads := [{ reg := .s 63, val := 5, poison := true }] }
    let s := stands hbmBase false x 0
    let b := Bundle.decode (1 + (scalarWord 0x33 + 2 ^ 12) * 2 ^ 16)
    s.gct.stopped = false ∧ hcGet s 1279 7 = some x ∧
      x.loads.find? (fun l => l.reg == .s 63) = some { reg := .s 63, val := 5, poison := true } ∧
      (b.scalar false).any (fun i => !thread1.cond i.pred i.pneg) = true := by decide +kernel

/-- Loads whose bytes the run-ahead buffer holds (08 R235). -/
theorem witness_ScalarMemory_ahead :
    let x : Hc := { thread1 with buf := [{ va := 0x1000, pa := hbmBase + 0x1000, data := zeros 128, poison := false }] }
    EachIssues [0x30, 0x33] (fun c => stands hbmBase false x (1 + scalarWord c * 2 ^ 16)) x (fun c => 1 + scalarWord c * 2 ^ 16)
      (fun b => b.scalar false) (fun c i => some i.op == SOp.ofCode c && (x.aheadHit 0x1008 8).isSome) :=
  each_issues (by decide +kernel)

/-- ST64 s5, [s1 + s2] stores s5 at 0x1008 of the context's page (09 R269). -/
theorem test_st64 :
    (match exec (.wSt64 1279 7) (stands hbmBase false { thread1 with s := [(1, 0x1000), (2, 8), (5, 0x0102)] } (1 + scalarWord 0x3B * 2 ^ 16)) with
      | .next t => memBytes t (hbmBase + 0x1008) 8 == [2, 1, 0, 0, 0, 0, 0, 0]
      | _ => false) = true := by decide +kernel

/-- RegisterEffects: a bundle with only slot SA. -/
theorem witness_RegisterEffects :
    let b := Bundle.decode (1 + scalarWord 0x01 * 2 ^ 16)
    let o : SlotOut := { SlotOut.none_ with wr := [.s 5 1 false] }
    b.mx = none ∧ b.dx = none ∧ b.cx = none ∧ o.touch = [] ∧ o.st = [] ∧ o.loads = [] ∧ thread1.stepOne = false := by decide +kernel

/-- The words of a vector instruction: element type, and operand fields that its form has. -/
def vectorWord (c elt : Nat) : Nat :=
  let f := (VOp.ofCode c).map VOp.form
  let has (l : List VForm) : Bool := f.any (fun x => decide (x ∈ l))
  c + elt * 2 ^ 13 + (if f == some .ext then 0 else 3 * 2 ^ 16) + (if has [.bcast, .ins, .ld, .st] then 0 else 2 ^ 21) +
    (if has [.binary, .fused, .compare, .select, .perm] then 2 * 2 ^ 26 else 0) + (if has [.fused, .select] then 4 * 2 ^ 31 else 0) +
    (if has [.bcast, .ext, .ins, .ld, .st] then 1 * 2 ^ 36 else 0) + (if f == some .cvt then 2 * 2 ^ 64 else 0)

/-- Every vector instruction, with an element type that it admits. -/
def vectorCodes : List (Nat × Nat) :=
  [(0x01, 0), (0x02, 1), (0x03, 2), (0x05, 3), (0x06, 4), (0x07, 5), (0x08, 0), (0x04, 5), (0x09, 0), (0x0A, 1), (0x0B, 2), (0x0C, 3), (0x0D, 0),
   (0x0E, 3), (0x10, 0), (0x11, 4), (0x12, 5), (0x14, 2), (0x18, 2), (0x19, 3), (0x1A, 3), (0x1B, 3), (0x1C, 0), (0x20, 3), (0x21, 2), (0x22, 5),
   (0x28, 5), (0x29, 5), (0x2A, 5), (0x2B, 5), (0x2C, 5), (0x2D, 5)]

def vectorIs (e : Nat × Nat) (i : VSlot) : Bool := some i.op == VOp.ofCode e.1 && i.elt == e.2 && !i.bad thread1

theorem witness_VectorResults : EachIssues vectorCodes
    (fun e => stands hbmBase false thread1 (4 + vectorWord e.1 e.2 * 2 ^ 144)) thread1 (fun e => 4 + vectorWord e.1 e.2 * 2 ^ 144) (fun b => b.vx) vectorIs :=
  each_issues (by decide +kernel)

def vectorMem (e : Nat × Nat) (i : VSlot) : Bool :=
  let b := Bundle.decode (4 + vectorWord e.1 e.2 * 2 ^ 144)
  let s := stands hbmBase false thread1 (4 + vectorWord e.1 e.2 * 2 ^ 144)
  let va := (thread1.sreg i.sr + sext32 i.imm).toNat % 2 ^ 48
  vectorIs e i && !thread1.noneEnabled i && !thread1.sBad i.sr && va % 128 == 0 && (thread1.aheadHit va 128).isNone &&
    match (translate (beforeVector s 1279 thread1 b) 1279 1 va (if e.1 = 0x30 then .r else .w)).1 with
    | .ok pa => !ownRing 1279 pa
    | _ => false

theorem witness_VectorResults_memory : EachIssues [(0x30, 0), (0x31, 3)]
    (fun e => stands hbmBase false thread1 (4 + vectorWord e.1 e.2 * 2 ^ 144)) thread1 (fun e => 4 + vectorWord e.1 e.2 * 2 ^ 144) (fun b => b.vx) vectorMem :=
  each_issues (by decide +kernel)

/-- VLD and VST without an enabled element (PNEG of p0). -/
theorem witness_VectorResults_none : EachIssues [(0x30, 0), (0x31, 3)]
    (fun e => stands hbmBase false thread1 (4 + (vectorWord e.1 e.2 + 2 ^ 12) * 2 ^ 144)) thread1
    (fun e => 4 + (vectorWord e.1 e.2 + 2 ^ 12) * 2 ^ 144) (fun b => b.vx)
    (fun e i => some i.op == VOp.ofCode e.1 && thread1.noneEnabled i && !thread1.sBad i.sr &&
      (thread1.sreg i.sr + sext32 i.imm).toNat % 2 ^ 48 % 128 == 0) :=
  each_issues (by decide +kernel)

theorem witness_VectorElements : (127 : Nat) < 128 / eltBytes 0 ∧ 15 < 128 / eltBytes 3 := by decide

/-- VBCAST of s1 = 0x1000 into 64-bit elements (09 "Vector opcodes"). -/
theorem test_vbcast :
    (match exec (.wVbcast 1279 7) (stands hbmBase false thread1 (4 + vectorWord 0x19 3 * 2 ^ 144)) with
      | .next t => (hcGet t 1279 7).any (fun y => velem (y.vreg 3) 64 0 == 0x1000 && velem (y.vreg 3) 64 15 == 0x1000)
      | _ => false) = true := by decide +kernel

/-- The words of the control instructions: those that take no operand, and those that take RA, RB, CR or QD. -/
def controlCodes : List (Nat × Nat) :=
  [(0x01, 0), (0x02, 2 ^ 14), (0x03, 4 * 2 ^ 20), (0x04, 2 ^ 14 + 4 * 2 ^ 20), (0x05, 2 * 2 ^ 14), (0x08, 0), (0x10, 0), (0x11, 0),
   (0x18, 4 * 2 ^ 20 + 9 * 2 ^ 26), (0x19, 2 ^ 14 + 3 * 2 ^ 26), (0x1A, 7 * 2 ^ 48), (0x20, 0), (0x21, 0), (0x40, 2 * 2 ^ 20 + 3 * 2 ^ 32)]

def controlIs (e : Nat × Nat) (i : CSlot) : Bool :=
  some i.op == COp.ofCode e.1 && thread1.cond i.pred i.pneg && !thread1.sBad i.ra && !thread1.sBad i.rb &&
    (thread1.sreg i.ra + sext32 i.imm).toNat % 2 ^ 48 % 64 == (if e.1 = 0x05 ∨ e.1 = 0x1A then (thread1.sreg i.ra + sext32 i.imm).toNat % 64 else 0)

theorem witness_ControlInstructions : EachIssues controlCodes
    (fun e => stands hbmBase true thread1 (32 + (e.1 + e.2) * 2 ^ 432)) thread1 (fun e => 32 + (e.1 + e.2) * 2 ^ 432) (fun b => b.cx) controlIs :=
  each_issues (by decide +kernel)

/-- An instruction of the control, matrix and mover slots whose condition is 0 (PNEG of p0). -/
theorem witness_ControlInstructions_off : EachIssues [0x01, 0x09, 0x0A, 0x21, 0x4C]
    (fun c => stands hbmBase false thread1 (32 + (c + 2 ^ 12) * 2 ^ 432)) thread1 (fun c => 32 + (c + 2 ^ 12) * 2 ^ 432) (fun b => b.cx)
    (fun c i => some i.op == COp.ofCode c && !thread1.cond i.pred i.pneg) :=
  each_issues (by decide +kernel)

/-- BREAK and TRAP: the bundle is decided by its exception. -/
theorem witness_ControlInstructions_raise : ∀ c ∈ [0x09, 0x0A],
    let bits := 32 + c * 2 ^ 432
    let s := stands hbmBase false thread1 bits
    let b := Bundle.decode bits
    canIssue s 1279 7 = some thread1 ∧ cachedLine s 1279 thread1 = some { ctx := 1, va := 0, bits := bits, poison := false } ∧
      b.cx.any (fun i => some i.op == COp.ofCode c && thread1.cond i.pred i.pneg) = true ∧ b.firstIllegal = none ∧
      chooseExc (b.pairing thread1 ((coreGet s 1279).claim == some 7)) = none ∧ (b.reads thread1).any thread1.pending = false ∧
      (match decideBundle (bundleOuts s 1279 7 thread1 b PeerTable.empty).1 (bundleExtra s 1279 thread1 b) with
        | .raise _ => true | _ => false) = true := by
  decide +kernel

/-- A context that EXIT has stopped and whose transfers still run, and one that has none. -/
theorem witness_ControlInstructions_exiting :
    let x : Hc := { thread1 with exiting := true, st := .waiting }
    let s := stands hbmBase false x 0
    canIssue s 1279 7 = none ∧ hcGet s 1279 7 = some x ∧ x.exiting = true ∧ s.gct.stopped = false ∧ x.anyBusy 15 = false := by decide +kernel

/-- A bundle that is not in the cache, at a PC that is mapped, that a leaf maps to no memory, and that is not mapped. -/
theorem witness_ControlInstructions_fill :
    let st (at_ : Nat) : State := coreMod (stands at_ false thread1 0) 1279 (fun c => { c with cache := [] })
    let s := st hbmBase
    let r := st 0x400000000000
    let u := unitSet s 1279 XltUnit.reset
    canIssue s 1279 7 = some thread1 ∧ cachedLine s 1279 thread1 = none ∧
      (match (translate s 1279 thread1.ctx thread1.pc .x).1 with | .ok _ => true | _ => false) = true ∧
      canIssue r 1279 7 = some thread1 ∧ cachedLine r 1279 thread1 = none ∧
      (match (translate r 1279 thread1.ctx thread1.pc .x).1 with | .refused => true | _ => false) = true ∧
      canIssue u 1279 7 = some thread1 ∧ cachedLine u 1279 thread1 = none ∧
      (match (translate u 1279 thread1.ctx thread1.pc .x).1 with | .fault _ _ => true | _ => false) = true := by decide +kernel

/-- LOOP counts s2 from 8 to 7 and goes back by one bundle, to 2⁴⁸ − 64 (09 R283). -/
theorem test_loop :
    (match exec (.wLoop 1279 7) (stands hbmBase false thread1 (32 + (0x05 + 2 * 2 ^ 14 + 0xFFFFFFFF * 2 ^ 48) * 2 ^ 432)) with
      | .next t => (hcGet t 1279 7).any (fun y => y.sreg 2 == 7 && y.pc == 2 ^ 48 - 64)
      | _ => false) = true := by decide +kernel

theorem witness_ExceptionsAndGrants :
    let s := stands hbmBase false thread1 0
    let u := regPutF s .fctCtl 0 1279 2 1 1
    hcGet s 1279 7 = some thread1 ∧ (mkExc 13 .cx 0).code ≠ 12 ∧ regF s .fctCtl 0 1279 2 1 ≠ 1 ∧ hcGet u 1279 7 = some thread1 ∧
      (mkExc 12 .cx 0).code = 12 ∧ regF u .fctCtl 0 1279 2 1 = 1 ∧ thread1.stepOne = false := by decide +kernel

/-- TRAP ends its context with a record of code 13 in the core's area (08 R250; 09 R284). -/
theorem test_trap :
    (match exec (.wTrap 1279 7) (stands hbmBase false thread1 (32 + 9 * 2 ^ 432)) with
      | .next t => (hcGet t 1279 7).isNone && memBytes t (ringBase 1279 + 0x1FE000 + 64 * 7) 1 == [13] && regN t .fctExc 0 1279 == 1
      | _ => false) = true := by decide +kernel

/-! ### Matrix, mover and queue instructions -/

/-- A descriptor of two dimensions of 32 elements. -/
def tensor2 (base fmt stride : Nat) : TWord := BitVec.ofNat 256 (base + fmt * 2 ^ 48 + 2 * 2 ^ 54 + 2 ^ 57 + 32 * 2 ^ 160 + 32 * 2 ^ 192 + stride * 2 ^ 208)

/-- Context 1 with an FP8 tensor in scaled lines in t3 and an FP32 tensor in t4. -/
def thread2 : Hc := { thread1 with t := thread1.t ++ [(3, tensor2 0x2000 0x16 256), (4, tensor2 0x4000 0x05 128)] }

/-- Slice 0 of both arrays holds one row and one column of FP8, a zero. -/
def slice0 : LatSlice :=
  { tb := 3, fmt := 2, kv := 1, nv := 1, arr0 := true, cols := [{ codes := [0], scales := [0x7F] }], wc := [.fin false 0 0], wa := [.fin false 0 0],
    fail := 0 }

def stationary (s : State) : State := coreMod s 1279 (fun c => { c with lat := { c.lat with slices := [(0, slice0), (4, slice0)] } })

/-- The words of the matrix instructions on array 0. -/
def matrixWord (c f : Nat) : Nat := 8 + (c + f) * 2 ^ 240

def matrixCodes : List (Nat × Nat) :=
  [(0x01, 2 ^ 64), (0x02, 2 ^ 13 + 3 * 2 ^ 24 + 2 * 2 ^ 53), (0x03, 2 ^ 13 + 3 * 2 ^ 20 + 2 * 2 ^ 53), (0x04, 2 ^ 13 + 3 * 2 ^ 20 + 2 * 2 ^ 53),
   (0x08, 2 ^ 13 + 4 * 2 ^ 20), (0x11, 2 ^ 13 + 4 * 2 ^ 20), (0x12, 2 ^ 13), (0x18, 2 ^ 64), (0x19, 2 ^ 13 + 2 ^ 64 + 5 * 2 ^ 28), (0x1A, 2 ^ 64)]

def matrixState (e : Nat × Nat) : State := stationary (stands hbmBase true thread2 (matrixWord e.1 e.2))

def matrixIs (e : Nat × Nat) (i : MSlot) : Bool :=
  let b := Bundle.decode (matrixWord e.1 e.2)
  some i.op == MOp.ofCode e.1 && thread2.cond i.pred i.pneg &&
    (coreGet (slotsStage (matrixState e) 1279 7 thread2 b PeerTable.empty) 1279).claim == some 7

theorem witness_MatrixInstructions : EachIssues matrixCodes
    matrixState thread2 (fun e => matrixWord e.1 e.2) (fun b => b.mx) matrixIs :=
  each_issues (by decide +kernel)

/-- MST of bank 0 to t4. -/
def mstCode : Nat × Nat := (0x10, 2 ^ 13 + 4 * 2 ^ 20)

def mstIs (i : MSlot) : Bool :=
  let u := slotsStage (matrixState mstCode) 1279 7 thread2 (Bundle.decode (matrixWord mstCode.1 mstCode.2)) PeerTable.empty
  matrixIs mstCode i && i.op == .st && (coreGet (latDrain u 1279) 1279).claim == some 7 && i.taAligned thread2 &&
    (match (useDesc (latDrain u 1279) 1279 thread2 .mx (thread2.treg i.ta).toNat true).1 with | .ok _ => true | _ => false)

theorem witness_MatrixInstructions_store : Issues (matrixState mstCode) thread2 (matrixWord mstCode.1 mstCode.2) (fun b => b.mx) mstIs :=
  issues_spec (by decide +kernel)

theorem witness_MatrixInstructions_off : EachIssues [(0x12, 2 ^ 12 + 2 ^ 13), (0x18, 2 ^ 12 + 2 ^ 64), (0x10, 2 ^ 12 + 2 ^ 13 + 4 * 2 ^ 20)]
    matrixState thread2 (fun e => matrixWord e.1 e.2) (fun b => b.mx)
    (fun e i => some i.op == MOp.ofCode e.1 && !thread2.cond i.pred i.pneg) :=
  each_issues (by decide +kernel)

theorem witness_ClearTakesOnlyCodedRegions :
    let l : Lattice := { Lattice.reset with codes := [(16 * 1 + 4 * 3 + 3, 2)] }
    ((1 : Nat) < 2 ∧ 3 < 4 ∧ 31 < 32 ∧ 7 < 8 ∧ (∀ x ∈ [0, 1], x < 2) ∧ ∀ x ∈ [0, 1, 2, 3], x < 4) ∧
      1 ∈ [0, 1] ∧ 3 ∈ [0, 1, 2, 3] ∧ l.code 1 3 3 ≠ 0 := by decide +kernel

/-- MXSHAPE with IMM 1 sets Split 2 of array 0 (10 "Matrix opcodes"). -/
theorem test_mxshape :
    (match exec (.wMshape 1279 7) (matrixState (0x01, 2 ^ 13 + 2 ^ 64)) with
      | .next t => (coreGet t 1279).lat.shape 0 == 1 && (coreGet t 1279).lat.shape 1 == 0
      | _ => false) = true := by decide +kernel

/-- Members 0 and 8 of a group of two: this module is member 0. -/
def grouped (s : State) : State :=
  let t := regPut (regPutF s .spnId 0 0 38 1 1) .spnMesh 0 0 0x010102
  let u := regPut (regPut t .spnMap 0 0 0x0800) .spnEpoch 0 0 1
  { u with span := { u.span with member := true } }

/-- The words of the transfers. -/
def moverCodes : List (Nat × Nat) :=
  [(0x01, 2 ^ 16 + 2 * 2 ^ 20), (0x02, 4 * 2 ^ 16 + 4 * 2 ^ 20), (0x03, 3 * 2 ^ 16 + 3 * 2 ^ 20 + 2 ^ 24 + 2 * 2 ^ 30),
   (0x04, 3 * 2 ^ 16 + 3 * 2 ^ 20 + 2 ^ 24 + 2 * 2 ^ 30), (0x05, 2 * 2 ^ 20), (0x06, 2 ^ 16 + 2 * 2 ^ 20 + 2 * 2 ^ 30),
   (0x07, 2 ^ 16 + 2 * 2 ^ 20 + 2 * 2 ^ 30)]

def moverWord (e : Nat × Nat) : Nat := 16 + (e.1 + e.2) * 2 ^ 336

def moverState (e : Nat × Nat) : State := grouped (stands hbmBase false thread2 (moverWord e))

def moverIs (e : Nat × Nat) (i : DSlot) : Bool :=
  some i.op == DOp.ofCode e.1 && i.op.isTransfer && thread2.cond i.pred i.pneg &&
    (match (xferTensors (beforeMover (moverState e) 1279 7 thread2 (Bundle.decode (moverWord e)) PeerTable.empty) 1279 thread2 i PeerTable.empty).1 with
      | .ok _ => true | _ => false)

theorem witness_MoverInstructions : EachIssues moverCodes
    moverState thread2 moverWord (fun b => b.dx) moverIs :=
  each_issues (by decide +kernel)

/-- The other mover instructions. -/
def moverRest : List (Nat × Nat) :=
  [(0x10, 15 * 2 ^ 64), (0x11, 5 * 2 ^ 24), (0x1A, 2 ^ 16 + 2 * 2 ^ 20), (0x1B, 2 ^ 16 + 2 * 2 ^ 20 + 2 * 2 ^ 24)]

theorem witness_MoverInstructions_rest : EachIssues moverRest
    moverState thread2 moverWord (fun b => b.dx) (fun e => fun i => some i.op == DOp.ofCode e.1 && thread2.cond i.pred i.pneg) :=
  each_issues (by decide +kernel)

theorem witness_MoverInstructions_off : EachIssues [(0x01, 2 ^ 12), (0x06, 2 ^ 12), (0x10, 2 ^ 12 + 15 * 2 ^ 64)]
    moverState thread2 moverWord (fun b => b.dx) (fun e i => some i.op == DOp.ofCode e.1 && !thread2.cond i.pred i.pneg) :=
  each_issues (by decide +kernel)

/-- TLD and TST at s1 = 0x1000. -/
def descIs (e : Nat × Nat) (i : DSlot) : Bool :=
  let s := moverState e
  let b := Bundle.decode (moverWord e)
  let before := (slotOut b.mx (fun i t => matrixOut t 1279 7 thread2 i) (((bundleOuts s 1279 7 thread2 b PeerTable.empty).1.take 3).flatMap (fun o => o.st)
    |>.foldl storeOnly (slotOut b.vx (fun i t => vectorOut t 1279 thread2 i) (beforeVector s 1279 thread2 b)).2)).2
  let va := (thread2.sreg i.sa + sext32 i.imm).toNat % 2 ^ 48
  some i.op == DOp.ofCode e.1 && thread2.cond i.pred i.pneg && !thread2.sBad i.sa && va % 32 == 0 && (thread2.aheadHit va 32).isNone &&
    match (translate before 1279 thread2.ctx va (if e.1 = 0x18 then .r else .w)).1 with
    | .ok pa => !ownRing 1279 pa
    | _ => false

theorem witness_MoverInstructions_descriptors : EachIssues [(0x18, 5 * 2 ^ 20 + 2 ^ 24), (0x19, 2 ^ 16 + 2 ^ 24)]
    moverState thread2 moverWord (fun b => b.dx) descIs :=
  each_issues (by decide +kernel)

/-- A running fill of one block, on tag 3. -/
def fillXfer : Xfer :=
  let d := (thread1.treg 2).toNat
  let t : Tensor := { base := 0x2000, fmt := 0, dims := [plainDim 32 0 0 0], padw := false, sr := false, fill := 0, tid := 0, ep := 0 }
  { op := 0x05, srcD := d, dstD := d, src := t, dst := t, list := 0, count := 0, peer := 0, epoch := 0, mesh := [], unit := 0, poison := false,
    st := .running, keep := XferMem.none_ }

def filling (entry : Option Nat) : State :=
  let s := stands hbmBase false { thread1 with tags := [(3, .busy fillXfer)] } 0
  unitSet s 1279 { leaves := entry.toList.map (fun e => { ctx := 1, page := 0, level := 3, entry := e }), ptrs := [] }

/-- Its page is mapped, a leaf maps it to no memory, or it is not mapped. -/
theorem witness_MoverInstructions_ends :
    let s := filling (some leafEntry)
    let r := filling (some (0x400000000000 + 31))
    let u := filling none
    let run (s : State) : RunStop × State := runUnits s 1279 7 3 fillXfer.left
    s.gct.stopped = false ∧ xferOf s 1279 7 3 = some fillXfer ∧ fillXfer.st = .running ∧ xferWaits s 1279 7 3 = false ∧
      (run s).1 = .finished ∧ (xferOf (run s).2 1279 7 3).isSome = true ∧
      xferOf r 1279 7 3 = some fillXfer ∧ (run r).1 = .refused ∧ (xferOf (run r).2 1279 7 3).isSome = true ∧
      xferOf u 1279 7 3 = some fillXfer ∧ (match (run u).1 with | .fault _ _ _ _ => true | _ => false) = true ∧
      (xferOf (run u).2 1279 7 3).isSome = true ∧ (hcGet u 1279 7).isSome = true := by decide +kernel

/-- The fill writes one block of zeros, and its tag is DONE (09 R278). -/
theorem test_fill_ends :
    (match exec (.transferEnd 1279 7 3) (filling (some leafEntry)) with
      | .next t => (hcGet t 1279 7).any (fun y => y.tag 3 == .done) && regN t .movXfers 0 1279 == 1
      | _ => false) = true := by decide +kernel

/-- A copy whose destination starts `d` bytes after its source keeps the bytes of the source that it also writes (12 R371). -/
theorem test_copy_overlap :
    let kept (d : Nat) : Nat :=
      let f : Xfer := { fillXfer with op := 0x01, dst := { fillXfer.dst with base := 0x2000 + d } }
      (overlapBytes (filling (some leafEntry)) 1279 1 f).length
    kept 0 = 32 ∧ kept 31 = 1 ∧ kept 32 = 0 := by decide +kernel

theorem witness_TagWord :
    let x : Hc := { thread1 with tags := [(2, .failed 0x31), (3, .failed 0x60)] }
    (3 : Nat) < 4 ∧ (0x31 : Nat) < 256 ∧ x.tag 2 = .failed 0x31 ∧ x.tag 0 = .idle ∧ x.tag 1 = .idle ∧
      x.tagWord = BitVec.ofNat 64 (3 * 2 ^ 4 + 3 * 2 ^ 6 + 0x31 * 2 ^ 8) := by decide +kernel

/-- A claim that waits on a free pair: of a new context, and of one that keeps its frame; and a pair that is taken. -/
theorem witness_ExceptionsAndGrants_claim :
    let g : ClaimWait := { hc := 7, cls := 0, passed := 0 }
    let st (x : Hc) : State := coreMod (stands hbmBase false { x with st := .waiting } 0) 1279 (fun c => { c with claims := [g] })
    let s := st thread1
    let v := st { thread1 with heldFrame := some 2 }
    let mode := (modePending s.gct.modes 2).getD s.gct.modes.scheduling
    (coreGet s 1279).claim = none ∧ (coreGet s 1279).spareBusy = 0 ∧ (coreGet s 1279).evac = false ∧ coreActive s 1279 = true ∧
      s.gct.stopped = false ∧ nextClaim (if mode = 1 then 0 else 1) (coreGet s 1279).claims = some g ∧ (hcGet s 1279 g.hc).isSome = true ∧
      thread1.heldFrame = none ∧ nextClaim (if mode = 1 then 0 else 1) (coreGet v 1279).claims = some g ∧
      (hcGet v 1279 g.hc).any (fun x => x.heldFrame == some 2) = true ∧ memPoisoned v (frameAt 1279 2 + 0x2000) 0x8000 = false ∧
      memPoisoned { v with memPoison := [((frameAt 1279 2 + 0x2000) / 32, true)] } (frameAt 1279 2 + 0x2000) 0x8000 = true ∧
      (coreGet (stands hbmBase true thread1 0) 1279).claim ≠ none := by decide +kernel

/-- A context whose descriptors 0–3 name queue 9, which is bound to it at both ends. -/
def thread3 : Hc := { thread1 with qd := [(0, 9 + 32768), (3, 9 + 32768)] }

def queueCodes : List (Nat × Nat) :=
  [(0x41, 1 * 2 ^ 48), (0x42, 2 * 2 ^ 14 + 4 * 2 ^ 20), (0x43, 2 * 2 ^ 14 + 2 ^ 48), (0x44, 2 * 2 ^ 14), (0x45, 2 * 2 ^ 14), (0x48, 2 * 2 ^ 14 + 4 * 2 ^ 20),
   (0x49, 2 * 2 ^ 14 + 2 ^ 48), (0x4A, 2 * 2 ^ 14), (0x4B, 2 * 2 ^ 14), (0x4C, 2 * 2 ^ 14)]

def queueBits (e : Nat × Nat) : Nat := 32 + (e.1 + e.2 + 3 * 2 ^ 32) * 2 ^ 432

def queueState (e : Nat × Nat) : State :=
  let s := regPut (stands hbmBase false thread3 (queueBits e)) .sqCfg 9 0 (1 + 2 ^ 4)
  queueSet (regPut s .sqBind 9 0 (3 + 1 * 2 ^ 8 + 3 * 2 ^ 24 + 1 * 2 ^ 32)) 9 queue9

def queueIs (e : Nat × Nat) (i : CSlot) : Bool :=
  some i.op == COp.ofCode e.1 && thread3.cond i.pred i.pneg && thread3.queue i.qd == some 9

theorem witness_QueueInstructions : EachIssues queueCodes queueState thread3 queueBits (fun b => b.cx) queueIs :=
  each_issues (by decide +kernel)

/-- QREAD delivers the oldest word into s4 and s5 (09 R292). -/
theorem test_qread :
    (match exec (.wQread 1279 7) (queueState (0x48, 2 * 2 ^ 14 + 4 * 2 ^ 20)) with
      | .next t => (hcGet t 1279 7).any (fun y => y.sreg 4 == 5 && y.sreg 5 == 0) && (queueGet t 9).rd == 1
      | _ => false) = true := by decide +kernel

/-! ### Number formats -/

/-- The largest scale that is not NaN, and the least. -/
theorem witness_BlockScales : (0xFE : Nat) < 0xFF ∧ (0 : Nat) < 0xFF ∧ (1 : Nat) ≠ 0 := by decide

/-- The last code of each format: NaN in those that have it, −6.0 in E2M1; +0. -/
theorem witness_NumberFormatsRoundTrip :
    0xFFFFFFFF < 2 ^ FFmt.fp32.width ∧ FFmt.fp32.decode 0xFFFFFFFF = .nan ∧ FFmt.e4m3.decode 0x7F = .nan ∧ FFmt.e5m2.decode 0xFF = .nan ∧
      0xF < 2 ^ FFmt.e2m1.width ∧ FFmt.e2m1.decode 0xF ≠ .nan ∧ FFmt.bf16.decode 0 ≠ .nan := by decide +kernel

/-! ### Lattice checks, contexts, translation and HBM -/

/-- A pass of array 0, slice 0, that has failed `n` checks: one activation vector against one column. -/
def passWork (n : Nat) : MxWork :=
  let v : KVec := { codes := [0], scales := [0x7F] }
  { array := 0, slice := 0, bank := 3, failed := n, spare := if n = 2 then some (960, 0) else none, fail := 0,
    kind := .pass false { fmt := 2, kv := 1, acts := [v], cols := [v], wc := [.fin false 0 0], wa := [.fin false 0 0] } }

def passing (n : Nat) (shape : Nat) : State :=
  coreMod (stands hbmBase true thread1 0) 1279 (fun c => { c with lat := { c.lat with shape0 := shape, work := [passWork n] } })

theorem witness_LatticeChecks_passes :
    (passing 0 0).gct.stopped = false ∧ claimant (passing 0 0) 1279 = some (7, thread1) ∧
      (∀ n ∈ [0, 1, 2], judgedPass (coreGet (passing n 0) 1279).lat thread1 0 0 n [] (coreGet (passing n 0) 1279).lat.work =
        some ([], passWork n, [])) ∧
      judgedPass (coreGet (passing 0 0) 1279).lat thread1 1 0 0 [] (coreGet (passing 0 0) 1279).lat.work = none ∧
      (coreGet (passing 0 0) 1279).lat.shape 0 = 0 ∧ (coreGet (passing 0 1) 1279).lat.shape 0 ≠ 0 ∧
      claimant (passing 0 1) 1279 = some (7, thread1) ∧ (passWork 2).spare = some (960, 0) ∧ (passWork 0).spare = none := by decide +kernel

/-- The errors of a pass: none, a parity error, a changed element of the one result, and a changed sum (10 R324). -/
theorem witness_LatticeChecks_errors :
    let fails (e : PassErrors) : Bool := (passWork 0).fails e
    fails PassErrors.none_ = false ∧ fails { PassErrors.none_ with parity := true } = true ∧ (0 : Nat) < 1 ∧ 1 % 2 ^ 32 ≠ 0 ∧
      fails { PassErrors.none_ with cells := [{ vec := 0, col := 0, mask := 1 }] } = true ∧
      fails { PassErrors.none_ with sums := [{ vec := 0, blk := 0, col := 0, neg := true, mant := 1, exp := 0 }] } = true := by decide +kernel

/-- The spare arrays of a Limb: none, and array 0 of core 960. -/
theorem witness_LatticeChecks_spares :
    let spare := coreMod (passing 1 0) 960 (fun c => { c with reserve := true })
    spareArray (passing 1 0) 1279 = none ∧ claimant (passing 1 0) 1279 = some (7, thread1) ∧ spareArray spare 1279 = some (960, 0) ∧
      claimant spare 1279 = some (7, thread1) := by decide +kernel

/-- An idle pair with the self-test on, one that is claimed, and a self-test that ends, and that still runs. -/
theorem witness_LatticeChecks_bist :
    let s := regPutF { dev .serving with idleClock := 10 ^ 18 } .latCtl 0 1279 1 1 1
    let t := bistMod s 1279 1 (fun b => { b with since := some 0 })
    let b := bistGet (coreGet s 1279) 1
    s.gct.stopped = false ∧ coreActive s 1279 = true ∧ regF s .latCtl 0 1279 1 1 = 1 ∧ (coreGet s 1279).claim = none ∧
      (coreGet s 1279).spareBusy = 0 ∧ (coreGet s 1279).idleFrom + 1250 ≤ s.idleClock ∧ b.since = none ∧
      (coreGet (coreMod s 1279 (fun c => { c with claim := some 0 })) 1279).claim ≠ none ∧ (bistGet (coreGet t 1279) 1).since = some 0 ∧
      0 + 13963 ≤ t.idleClock ∧ { t with idleClock := 13962 }.idleClock < 0 + 13963 ∧ b.lastAt + 2 * bistPeriod b ≤ s.idleClock := by decide +kernel

theorem witness_LatticeChecks_request :
    ∃ row, TakesWrite (dev .serving) row (mkReg .latBist 0 1279) (regN (dev .serving) .latBist 0 1279 % 2 ^ 16 + 2 ^ 16) :=
  takes_row (by decide +kernel)

/-- A context whose next bundle reads s1, which a load in flight will write. -/
def waiting1 (st : HcSt) : Hc := { thread1 with st := st, loads := [{ reg := .s 1, val := 0, poison := false }] }

/-- A context whose next bundle reads s1, which a load in flight will write, with run-ahead on and off. -/
theorem witness_ContextsAndFrames_ahead :
    let s := regPutF (stands hbmBase false (waiting1 .waiting) (1 + scalarWord 0x01 * 2 ^ 16)) .fctCtl 0 1279 0 1 1
    canIssue s 1279 7 = some (waiting1 .waiting) ∧ regF s .fctCtl 0 1279 0 1 = 1 ∧ waitsAhead s 1279 (waiting1 .waiting) = true ∧
      canIssue (regPutF s .fctCtl 0 1279 0 1 0) 1279 7 = some (waiting1 .waiting) ∧ regF (regPutF s .fctCtl 0 1279 0 1 0) .fctCtl 0 1279 0 1 = 0 ∧
      (waiting1 .waiting).buf.length ≤ 16 := by decide +kernel

theorem witness_ContextsAndFrames_exit :
    let x : Hc := { thread1 with st := .runAhead }
    let s := stands hbmBase false x (1 + scalarWord 0x01 * 2 ^ 16)
    s.gct.stopped = false ∧ hcGet s 1279 7 = some x ∧ x.st = .runAhead ∧ waitsAhead s 1279 x = false := by decide +kernel

/-- A preempted context with a free frame; in an evacuation without one, with an overflow area and without. -/
theorem witness_ContextsAndFrames_preempt :
    let x : Hc := { thread1 with stop := true }
    let s := stands hbmBase false x 0
    let v := coreMod s 1279 (fun c => { c with evac := true, frames := (List.range 6).map (fun n => (n, { st := 1, ctx := 2, order := n })) })
    let w := regPutF v .fctEvac 0 1279 16 32 0x10000000
    let q (s : State) : State := quiesce s 1279 7 []
    hcGet s 1279 7 = some x ∧ x.stop = true ∧ spanBusy s 1279 7 = false ∧ matrixPending s 1279 7 x = false ∧ s.gct.stopped = false ∧
      (hcGet (q s) 1279 7).isSome = true ∧ freeFrame (coreGet (q s) 1279) = some 0 ∧ freeFrame (coreGet (q v) 1279) = none ∧
      (coreGet v 1279).evac = true ∧ overflowTurn (coreGet v 1279) 7 = true ∧ overflowAt v 1279 = none ∧ (overflowAt w 1279).isSome = true ∧
      freeFrame (coreGet (q w) 1279) = none ∧ overflowTurn (coreGet w 1279) 7 = true := by decide +kernel

/-- A Ring store's scrub whose pass is due, and one that has made the pass of its period (08 R226). -/
theorem witness_ContextsAndFrames_scrub :
    let pass (s : State) : Option Nat × State := scrubPass s (2048 + 1279) (mkReg .fctScrub 0 1279) (fun v => 1250000 * bitsN v 0 16)
    let s := dev .serving
    s.gct.stopped = false ∧ (pass s).1.any (fun v => bitN v 16) = true ∧ (pass (pass s).2).1 = none ∧
      (fget? (pass s).2.scrubs (2048 + 1279)).isSome = true := by decide +kernel

/-- A runnable frame, a context past its quantum, a suspended context, and free contexts. -/
def framed : State :=
  let s := regPutF (stands hbmBase false { thread1 with issued := 1 } 0) .fctCtl 0 1279 1 1 1
  let t := hcSet s 1279 0 (some { thread1 with quantum := 5, st := .suspended 0 0 0 .sa })
  coreMod t 1279 (fun c => { c with frames := [(5, { st := 1, ctx := 2, order := 0 })] })

theorem witness_ContextsAndFrames_quantum :
    coreActive framed 1279 = true ∧ framed.gct.stopped = false ∧ regF framed .fctCtl 0 1279 1 1 ≠ 0 ∧
      runnableFrame (coreGet framed 1279) = some 5 ∧ (freeFrame (coreGet framed 1279)).isSome = true ∧
      expired (coreGet framed 1279) = some 7 ∧ waiter framed 1279 0 = true ∧ (coreGet framed 1279).evac = false ∧
      freeHc (coreGet framed 1279) = some 1 := by decide +kernel

theorem witness_ContextsAndFrames_frames :
    crownRuns framed = true ∧ frameState framed 1279 0 = 0 ∧ frameState framed 1279 5 ∈ [1, 2, 3] ∧
      (coreGet framed 1279).hcs.any (fun h => h.2.heldFrame == some 5) = false ∧
      frameState (setFrameState framed 1279 5 4) 1279 5 = 4 ∧ crownRuns (setFrameState framed 1279 5 4) = true := by decide +kernel

theorem witness_ContextsAndFrames_evac :
    let base := 0x10000000
    let s := coreMod framed 1279 (fun c => { c with evac := true })
    let s1 := regPutF s .fctEvac 0 1279 16 32 base
    crownRuns s = true ∧ valueOk s (mkReg .fctEvac 0 1279) (base % 2 ^ 32 * 2 ^ 16) = true ∧ (coreGet s1 1279).evac = true ∧
      s1.gct.stopped = false ∧ regF (regPutF s .fctScrub 0 1279 16 1 1) .fctScrub 0 1279 16 1 = 1 := by decide +kernel

/-- FREE of an exported frame frees it (08 R241). -/
theorem test_free_frame :
    (match exec (.freeFrame 1279 5) (setFrameState framed 1279 5 4) with
      | .next t => frameState t 1279 5 == 0
      | _ => false) = true := by decide +kernel

theorem witness_FaultService_ring :
    let s := dev .serving
    crownRuns s = true ∧ (fringWr s 1279 + 2 ^ 32 - (2 ^ 32 - 64) % 2 ^ 32) % 2 ^ 32 ≤ 64 ∧ coreActive s 1279 = true ∧ s.gct.stopped = false := by
  decide +kernel

/-- Contexts suspended on fault 9, with a transfer in it, being saved, and with the fault of a matrix operand. -/
theorem witness_FaultService_resolve :
    let x : Hc := { thread1 with st := .suspended 9 1 0x1008 .sa }
    let y : Hc := { thread1 with tags := [(3, .busy { fillXfer with st := .fault 9 })] }
    let found (x : Hc) := (coreGet (stands hbmBase false x 0) 1279).hcs.findSome? (fun e => (e.2.target 9).map (fun t => (e.1, e.2.stop, t)))
    found x = some (7, false, .bundle 1 0x1008 .sa) ∧ found y = some (7, false, .xfer 3 { fillXfer with st := .fault 9 }) ∧
      found { x with stop := true } = some (7, true, .bundle 1 0x1008 .sa) ∧
      found { x with st := .suspended 9 4 0x1008 .mx } = some (7, false, .bundle 4 0x1008 .mx) ∧ found thread1 = none ∧
      frameFor (stands hbmBase false thread1 0) 1279 9 = none := by decide +kernel

/-- A saved context that is suspended on fault 9, in frame 5: the bytes of its control block that a RESOLVE reads (13 R403). -/
theorem witness_FaultService_frame :
    let s := coreMod (dev .serving) 1279 (fun c => { c with frames := [(5, { st := 2, ctx := 1, order := 0 })] })
    let t := memWr (memWr s (frameAt 1279 5) [0, 0, 3]) (frameAt 1279 5 + 0xC8) [9]
    ((coreGet t 1279).hcs.findSome? (fun e => (e.2.target 9).map (fun t => (e.1, e.2.stop, t)))).isNone = true ∧
      frameFor t 1279 9 = some (5, none) := by decide +kernel

theorem witness_FaultService_invalidation :
    let s := stands hbmBase false thread1 0
    let l : CachedLeaf := { ctx := 1, page := 0, level := 3, entry := leafEntry }
    let u := regPutF s .xltInval 0 0 50 1 1
    regF s .xltInval 0 0 50 1 = 0 ∧ l ∈ (unitGet (xltInvalidate s (.context 2)) 1279).leaves ∧ u.gct.stopped = false ∧
      regF u .xltInval 0 0 50 1 = 1 ∧ staleAccess u = false ∧
      staleAccess (stands hbmBase false { thread1 with tags := [(3, .busy { fillXfer with keep := { XferMem.none_ with stale := true } })] } 0)
        = true := by decide +kernel

/-- An invalidation of context 1 discards its leaf and is in progress (13 R398). -/
theorem test_invalidate :
    (match exec (.invalContext 1 [] none) (stands hbmBase false thread1 0) with
      | .next t => (unitGet t 1279).leaves.isEmpty && regF t .xltInval 0 0 50 1 == 1
      | _ => false) = true := by decide +kernel

/-- A pseudo-channel with a spare, without one, and beside a rebuild; with as many errors as its limits, and with none (14 R418, R419). -/
theorem witness_HbmService_retire :
    let s := regPutF (dev .serving) .hbmCtl 0 7 0 1 1
    let e : PcErrors := { ues := List.replicate (regF s .hbmCtl 0 7 8 8) 0,
                          ces := (List.range 10).map (fun i => (i, regF s .hbmCtl 0 7 16 16 + 1)) }
    let v := { s with facet := { s.facet with pcErrors := [(32 * 7 + 31, e)] } }
    s.gct.stopped = false ∧ pcState s 7 31 = 0 ∧ crownRuns s = true ∧ regF s .hbmCtl 0 7 0 1 = 1 ∧ fgetD PcErrors.none_ v.facet.pcErrors 255 = e ∧
      regF v .hbmCtl 0 7 8 8 ≤ e.ues.length ∧ e.ces.any (fun x => (List.range 10).all (fun i => decide (regF v .hbmCtl 0 7 16 16 <
        fgetD 0 e.ces (x.1 + i)))) = true ∧ ¬ regF s .hbmCtl 0 7 8 8 ≤ (fgetD PcErrors.none_ s.facet.pcErrors 255).ues.length ∧
      (fgetD PcErrors.none_ s.facet.pcErrors 255).ces = [] ∧ (2 : Nat) ≤ 2 ∧ rebuilding s 7 = false ∧
      rebuilding (regPutF s .hbmStatus 0 7 15 1 1) 7 = true ∧ regF (regPutF s .hbmStatus 0 7 16 2 2) .hbmStatus 0 7 16 2 = 2 := by decide +kernel

/-- A stack's scrub whose pass is due, and one that has made the pass of its period (14 R422). -/
theorem witness_HbmService_scrub :
    let pass (s : State) : Option Nat × State := scrubPass s (16 + 7) (mkReg .hbmScrub 0 7) (fun v => 1250000 * (60000 * bitsN v 0 11))
    let s := dev .serving
    s.gct.stopped = false ∧ (pass s).1.any (fun v => bitN v 11) = true ∧ (pass (pass s).2).1 = none := by decide +kernel

/-- Mirror region 7 of stack 6, and its write. -/
theorem witness_HbmService_mirror :
    ∃ row, TakesWrite (dev .ready) row (mkReg .hbmMir 7 6) (1 + 0 % 2 ^ 15 * 2 ^ 6 + 1 % 2 ^ 15 * 2 ^ 21) := takes_row (by decide +kernel)

theorem witness_HbmService_sync :
    let s := regPut (dev .serving) .hbmMir 7 6 1
    s.gct.stopped = false ∧ 6 % 2 = 0 ∧ bitN (regN s .hbmMir 7 6) 0 = true ∧ regF s .hbmMir 7 6 1 1 = 0 ∧ rebuilding s 6 = false ∧
      rebuilding s (6 + 1) = false := by decide +kernel

/-- A retirement starts a rebuild of the pseudo-channel (14 R418). -/
theorem test_retire :
    (match exec (.pcRetirement 7 31 2) (dev .serving) with
      | .next t => pcState t 7 31 == 1 && rebuilding t 7 && regF t .hbmStatus 0 7 10 5 == 31
      | _ => false) = true := by decide +kernel

/-! ### Span -/

/-- The module as member 0 of a group of 2, with link 0 in a state and the flits of a link. -/
def linked (st : Nat) (l : SpanLink) : State :=
  linkSet (setLinkState (regPutF (grouped (dev .serving)) .spnLink 0 0 0 1 1) 0 st) 0 l

theorem witness_SpanLinks_enable : ∃ row, TakesWrite (dev .serving) row (mkReg .spnLink 7 0) (regN (dev .serving) .spnLink 7 0 % 4 / 2 * 2 + 1) :=
  takes_row (by decide +kernel)

theorem witness_SpanLinks_retrain :
    let s := linked 2 SpanLink.reset
    bitN (regN s .spnLink 0 0 % 4 + 4) 0 = true ∧ takes s (mkReg .spnLink 0 0) (regN s .spnLink 0 0 % 4 + 4) = true := by decide +kernel

/-- A link that is enabled and trains, anew and after it was up, one that is DOWN on an attached module, and one that is not enabled. -/
theorem witness_SpanLinks_trained :
    let trains (s : State) : Bool :=
      decide (regF s .spnLink 0 0 0 1 = 1) && (linkState s 0 == 1 || (linkState s 0 == 0 && regF s .spnId 0 0 38 1 == 1))
    let s := linked 1 SpanLink.reset
    trains s = true ∧ (linkGet s 0).resume = false ∧ regF s .spnLink 0 0 11 4 = 0 ∧ trains (linked 0 SpanLink.reset) = true ∧
      trains (linked 1 { SpanLink.reset with resume := true }) = true ∧ trains (linked 2 SpanLink.reset) = false ∧
      trains (regPutF s .spnLink 0 0 0 1 0) = false ∧ trains (regPutF (linked 0 SpanLink.reset) .spnId 0 0 38 1 0) = false := by decide +kernel

/-- A link trains with the resent flits of before when it was up, and with fresh credits and no lane marked when it was DOWN. -/
theorem test_link_trained_anew :
    let run (s : State) : Option State := match exec (.linkTrained 0 5 none) (regPutF s .spnLink 0 0 12 1 1) with
      | .next t => some t
      | _ => none
    (run (linked 0 SpanLink.reset)).map (fun t => (linkState t 0, regF t .spnLink 0 0 11 4)) = some (2, 0) ∧
      (run (linked 1 { SpanLink.reset with resume := true })).map (fun t => (linkState t 0, regF t .spnLink 0 0 11 4)) = some (3, 2) := by
  decide +kernel

/-- A replay buffer of two flits, of which the first is acknowledged. -/
theorem witness_SpanLinks_acked :
    let l : SpanLink := { SpanLink.reset with replay := [bareFlit 0 4095, bareFlit 0 0] }
    (l.replay.findIdx? (fun f => f.seq == 4095 % 4096)) = some 0 ∧ ackedFlits l 4095 = 1 ∧ (ackedFlits l 4096 = 2) ∧ ackedFlits l 1 = 0 := by
  decide +kernel

/-- The first and the second faulty lane. -/
theorem witness_SpanLinks_lanes :
    let s := linked 2 SpanLink.reset
    let t := regPutF (linked 3 SpanLink.reset) .spnLink 0 0 14 1 1
    regF s .spnLink 0 0 11 1 = 0 ∧ linkState s 0 = 2 ∧ regF s .spnLink 0 0 11 4 = 0 ∧ regF t .spnLink 0 0 13 1 = 0 ∧ linkState t 0 ≠ 0 ∧
      regF t .spnLink 0 0 11 4 ≠ 0 := by decide +kernel

theorem witness_SpanLinks_retrained :
    let s := regPutF (linked 1 { SpanLink.reset with resume := true }) .spnLink 0 0 11 1 1
    linkState s 0 = 1 ∧ (linkGet s 0).resume = true ∧ regF s .spnLink 0 0 11 4 ≠ 0 := by decide +kernel

/-- The last tick before a silence and its first. -/
theorem witness_SpanLinks_silence :
    let s := linked 2 SpanLink.reset
    let n := 1250 * regF s .spnCtl 0 0 32 8
    linkUp s 0 = true ∧ (linkGet s 0).lastRx = 0 ∧ 0 < n ∧ (linkGet s 0).lastRx + n ≤ { s with clock := n }.clock ∧
      { s with clock := n - 1 }.clock < (linkGet s 0).lastRx + n := by decide +kernel

/-- A training that ends brings the link to UP4 with its neighbour and the credits of every channel (16 R462, R465). -/
theorem test_link_trained :
    (match exec (.linkTrained 0 5 none) (linked 1 SpanLink.reset) with
      | .next t => linkState t 0 == 2 && regF t .spnLink 0 0 16 8 == 5 && (linkGet t 0).credits == [(0, 192), (1, 192), (2, 256), (3, 256), (4, 128)]
      | _ => false) = true := by decide +kernel

/-- A request of module 1. -/
def request (dst : Nat) (data : Bytes) : SpanMsg :=
  { mtype := 1, src := 1, epar := 0, dst := dst, status := 0, msgid := 0, ctx := 1, xid := 7, data := data }

/-- One range of two bytes at 16. -/
def rangeBytes : Bytes := beBytes 6 16 ++ [0, 0] ++ beBytes 8 2 ++ [0xA5, 0x5A]

/-- A state whose Span unit holds the leaf of context 1, with context 1 in the window or out of it. -/
def windowed (on : Bool) (entry : Option Nat) : State :=
  let s := regPut (linked 2 SpanLink.reset) .spnCtxwin 0 0 (if on then 1 + 1 * 2 ^ 16 else 2 + 3 * 2 ^ 16)
  memWr (unitSet s unitSpan { leaves := entry.toList.map (fun e => { ctx := 1, page := 0, level := 3, entry := e }), ptrs := [] })
    (regF s .xltSpaceBase 0 0 20 28 * 2 ^ 20 + 16) [1]

theorem witness_SpanMessages_dst :
    let s := windowed true (some leafEntry)
    linkUp s 0 = true ∧ s.gct.stopped = false ∧ rangeBytes.length ≤ 8192 ∧ (request 1 rangeBytes).dst ≠ ownId s ∧
      (request 0 rangeBytes).dst = ownId s := by decide +kernel

/-- Inside the window and mapped, inside it and not mapped, outside it. -/
theorem witness_SpanMessages_ranges :
    let m := request 0 rangeBytes
    let s := windowed true (some leafEntry)
    let u := windowed true none
    inWindow s m.ctx = true ∧ inWindow u m.ctx = true ∧ inWindow (windowed false none) m.ctx = false ∧
      (match (translateRanges s m.ctx .w (parseRanges true m.data 128)).1 with | .ok l => l.map (fun e => e.2) | .error _ => []) =
        [[(hbmBase + 16, 2)]] ∧
      (match (translateRanges s m.ctx .r (parseRanges false m.data 128)).1 with | .ok _ => true | .error _ => false) = true ∧
      (match (translateRanges u m.ctx .w (parseRanges true m.data 128)).1 with | .ok _ => 0 | .error e => e) = 0x31 := by decide +kernel

/-- A WRITE_REQ for this module stores its data (16 R469). -/
theorem test_write_req :
    (match exec (.writeReq 0 0 (request 0 rangeBytes)) (windowed true (some leafEntry)) with
      | .next t => (memRd t (hbmBase + 16), memRd t (hbmBase + 17)) == (0xA5, 0x5A)
      | _ => false) = true := by decide +kernel

/-- A request of core 1279 that waits on link 0. -/
def asked : SpanReq := { msg := request 1 [], epoch := 1, core := 1279, hc := 7, ctx := 1, tag := 3, since := 0, link := some 0 }

def asking (r : SpanReq) : State := let s := linked 2 SpanLink.reset; { s with span := { s.span with reqs := [r] } }

/-- An MGET that waits for its response, with its page mapped, mapped to no memory, and a response of another MSGID. -/
def getting (entry : Option Nat) : State :=
  let s := filling entry
  let t := hcSet (grouped s) 1279 7 (some { thread1 with tags := [(3, .busy { fillXfer with op := 0x07, mesh := [2, 1, 1] })] })
  { t with span := { t.span with reqs := [asked] } }

theorem witness_SpanMessages_responses :
    let m : SpanMsg := { request 0 (zeros 32) with mtype := 4 }
    let s := getting (some leafEntry)
    let r := getting (some (0x400000000000 + 31))
    let arrived (s : State) (bad : Bool) : UnitRes :=
      let t := { s with span := { s.span with reqs := s.span.reqs.filter (fun q => q.msg.xid != asked.msg.xid) } }
      match xferOf t 1279 7 3 with
        | some f => (getArrive t 1279 1 f m.data bad).1
        | none => .refused
    requestOf s m = some asked ∧ (xferOf s 1279 7 3).isSome = true ∧ requestOf s { m with msgid := 1 } = none ∧
      arrived s false = .ok 32 0 0 false ∧ arrived s true = .ok 32 0 0 true ∧ arrived r false = .refused := by decide +kernel

theorem witness_SpanMessages_timeout :
    let s := asking asked
    let n := 1250 * regF s .spnCtl 0 0 16 16
    s.gct.stopped = false ∧ s.span.reqs.find? (fun r => r.msg.xid == 7) = some asked ∧ fget? s.span.halted asked.msg.dst = none ∧ 0 < n ∧
      asked.since + n ≤ { s with clock := n }.clock ∧ { s with clock := n - 1 }.clock < asked.since + n := by decide +kernel

/-- A route that waits for its move, one that has its usable link, and one with a request that waits on the old link. -/
theorem witness_SpanMessages_move :
    let s := asking { asked with link := none }
    let u := { s with span := { s.span with moves := [(2 * 1 + 0, false)] } }
    let v := asking { asked with msg := request 1 [], link := some 0 }
    let w := regPutF { v with span := { v.span with moves := [(2 * 1 + 0, false)] } } .spnRoute 1 0 0 8 8
    fget? u.span.moves (2 * 1 + 0) = some false ∧ (∀ r ∈ u.span.reqs, r.msg.dst = 1 → r.msg.epar % 2 = 0 → r.link = none) ∧
      fget? s.span.moves (2 * 1 + 0) = none ∧ primaryOf (routeHalf w 1 0) = some 0 ∧ linkUsable w 0 = true ∧
      linkUsable (setLinkState w 0 0) 0 = false ∧ fget? w.span.moves (2 * 1 + 0) = some false ∧
      (∃ r ∈ w.span.reqs, r.msg.dst = 1 ∧ r.msg.epar % 2 = 0 ∧ r.link ≠ none ∧ r.link = primaryOf (routeHalf w 1 0)) := by
  decide +kernel

/-- The header of a control message of module 1. -/
def head1 (dst epoch : Nat) : CtlHead := { src := 1, dst := dst, epoch := epoch, msgid := 9 }

theorem witness_SpanMessages_control :
    let s := linked 2 SpanLink.reset
    linkUp s 0 = true ∧ (head1 0 2).dst % 64 = ownId s ∧ (head1 1 2).dst % 64 ≠ ownId s ∧ linkUp (linked 1 SpanLink.reset) 0 = false := by
  decide +kernel

/-- A HALT and a RESUME of a peer (16 R473). -/
theorem witness_SpanMessages_halt :
    let s := asking asked
    let u := { s with clock := 9, span := { s.span with halted := [(1, 5)] } }
    linkUp s 0 = true ∧ (head1 0 1).dst % 64 = ownId s ∧ regF (linkReceive s 0 4 1) .obsTrig 0 0 1 1 = 0 ∧
      fget? (linkReceive s 0 4 1).span.halted 1 = none ∧ linkUp u 0 = true ∧ fget? (linkReceive u 0 4 1).span.halted 1 = some 5 := by
  decide +kernel

/-- A plan for epoch 2 of modules 0 and 1. -/
def plan2 : EpochPlan := { epoch := 2, coord := 1, mesh := [2, 1, 1], map := [0, 1] }

def planning (prep : Option EpochPlan) (run : Option EpochRun) (old : Option OldEpoch) : State :=
  let s := linked 2 SpanLink.reset
  { s with span := { s.span with prep := prep, run := run, old := old } }

/-- A PREPARE that no clause refuses, beside an open epoch, from another coordinator, and of an epoch that does not follow. -/
theorem witness_SpanEpochs_prepare :
    let s := planning none none none
    let u := planning none none (some { epoch := 0, map := [0], since := 0 })
    let v := planning (some { plan2 with coord := 0 }) none none
    let at_ (s : State) : State := linkReceive s 0 4 1
    linkUp s 0 = true ∧ (head1 0 2).dst % 64 = ownId s ∧ (at_ s).span.old = none ∧ (at_ s).span.prep = none ∧
      plan2.epoch = (epochNow (at_ s) + 1) % 2 ^ 32 ∧ linkUp u 0 = true ∧ (at_ u).span.old.isSome = true ∧
      (at_ v).span.prep = some { plan2 with coord := 0 } ∧ (at_ s).span.member = true ∧ (3 : Nat) ≠ (epochNow (at_ s) + 1) % 2 ^ 32 := by
  decide +kernel

theorem witness_SpanEpochs_answers :
    let r : EpochRun := { plan := plan2, ready := [0], since := 0, command := false }
    let s := planning none (some r) none
    let u := planning (some plan2) none none
    linkUp s 0 = true ∧ (linkReceive s 0 4 1).span.run = some r ∧ linkUp u 0 = true ∧ (linkReceive u 0 4 1).span.prep = some plan2 := by
  decide +kernel

theorem witness_SpanEpochs_times :
    let r : EpochRun := { plan := plan2, ready := [0], since := 0, command := false }
    let o : OldEpoch := { epoch := 0, map := [0], since := 0 }
    let s := planning none (some r) (some o)
    let n := 1250 * regF s .spnCtl 0 0 40 16
    s.span.run = some r ∧ r.since + 12500000 ≤ { s with clock := 12500000 }.clock ∧ { s with clock := 12499999 }.clock < r.since + 12500000 ∧
      s.gct.stopped = false ∧ s.span.old = some o ∧ 0 < n ∧ o.since + n ≤ { s with clock := n }.clock ∧
      { s with clock := n - 1 }.clock < o.since + n := by decide +kernel

/-- All members READY, and one that is not. -/
theorem witness_SpanEpochs_commit :
    let r : EpochRun := { plan := plan2, ready := [0, 1], since := 0, command := false }
    (planning none (some r) none).span.run = some r ∧ r.plan = plan2 ∧ r.command = false ∧ (∀ m ∈ plan2.map, m ≠ 0xFF → m ∈ r.ready) ∧
      (∃ m ∈ plan2.map, m ≠ 0xFF ∧ m ∉ ({ r with ready := [0] } : EpochRun).ready) := by
  decide +kernel

/-- The last READY commits the epoch (16 R475, R476). -/
theorem test_epoch_commits :
    (match exec (.epochReady 0 (head1 0 2)) (planning (some plan2) (some { plan := plan2, ready := [0], since := 0, command := false }) none) with
      | .next t => epochNow t == 2 && t.span.run == none && t.span.prep == none
      | _ => false) = true := by decide +kernel

/-! ### The worked examples of the spec -/

/-- The bundle of the example under R259: SA, SB and CX (09). -/
theorem test_example_bundle :
    let b := Bundle.decode (0x0023 + 0x04086001 * 2 ^ 16 + 0x0000004080288033 * 2 ^ 80 + 0xFFFFFFFD00000001A005 * 2 ^ 432)
    b.sa = some { op := .add, pred := 0, pneg := false, rd := 3, ra := 1, rb := 2, immf := false, imm := 0 } ∧
      b.sb = some { op := .ld64, pred := 0, pneg := false, rd := 4, ra := 5, rb := 0, immf := true, imm := 64 } ∧
      b.cx = some { op := .loop, pred := 0, pneg := false, hint := true, ra := 6, rb := 0, cr := 0, qd := 0, resv := 0, imm := 0xFFFFFFFD } ∧
      b.vx = none ∧ b.mx = none ∧ b.dx = none ∧ b.bad = none ∧ b.firstIllegal = none := by decide +kernel

/-- The MMB of the example of chapter 10. -/
theorem test_example_mmb :
    MSlot.decode 0x005F3EFCC03C0003 = some {
      op := .mb, pred := 0, pneg := false, arr := 0, sl := 0, bank := 2, acc := true, ta := 3, tb := 0, so := 12, ofs := true, kv := 31,
      nv := 31, mc := 31, fmt := 2, xt := 0, resv := 0, imm := 0 } := by decide +kernel

/-- The handle of slot 44 in generation 58 (02), and of hold entry 0x4C31 in generation 0x52 (15). -/
theorem test_example_handles :
    slotHandle { dev .serving with gct := { (dev .serving).gct with slotGen := [(44, 58)] } } 44 = 0x0003A02C ∧
      holdHandle { dev .serving with tiers := { (dev .serving).tiers with holdGen := [(0x4C31, 0x52)] } } 0x4C31 = 0x00A44C31 := by
  decide +kernel

/-- The bucket and the digest of the example under R154 (05), and its pseudo-channel (14 R411). -/
theorem test_example_bucket :
    let s := regPut (dev .serving) .flwBase 1 0 0x100020000000
    0x9A5E3C71 % bucketCount = 0x1E3C71 ∧ bucketAddr s 1 0x1E3C71 = 0x10003E3C7100 ∧ bucketAddr s 1 (0x47CA5512 % bucketCount) = 0x10002A551200 ∧
      digestAddr s 1 0x1E3C71 = regN s .flwShadow 1 0 + 0x78F1C4 ∧ hbmPc 0x10003E3C7100 = 18 ∧ hbmStack 0x10003E3C7100 = 0 := by decide +kernel

/-- The save frame of the example under R239 (08). -/
theorem test_example_frame :
    ringBase 757 = 0x00025EA00000 ∧ frameAt 757 2 = 0x00025EBD4000 ∧
      frameAt 757 2 + 0x2000 + 4 * accAt 1 3 10 4 = 0x00025EBDD510 := by decide +kernel

/-- The routes of the numeric node of the example under R198 (07). -/
theorem test_example_node :
    let node := 2 ^ 2 + 3 * 2 ^ 8 + 0x44BB8000 * 2 ^ 64
    let gp : GrovePart := { nodeAt := 0, nodes := 1, sideAt := 0, side := 0, dirAt := [] }
    let left (v : Option Nat) := walkLeft (dev .serving) 0 gp [none, none, none, v] node
    [some 0x44BB7CCD, some 0x44BB8000, some 0x7F800000, some 0xFF800000, some 0x7FC00000, none].map left =
      [true, false, false, true, false, false] := by decide +kernel

/-- The FP4 block of the example under R347 (11): its scale, its codes, and a value that saturates. -/
theorem test_example_block :
    let f := fmtElem 0x18
    let vs : List FVal := [.fin false 10 0, .fin true 29 (-2), f32 0x3E99999A, .fin false 1 0]
    blockScale f vs = 0x80 ∧ (vs.map (blockCode f 0x80 none)) = [6, 0xE, 0, 1] ∧ blockCode f 0x80 none (.fin false 14 0) = 7 := by decide +kernel

/-- The stochastic rounding of the example under R353 (11). -/
theorem test_example_stochastic :
    srRound .bf16 (f32 0x3F808000) 0x9C41 = 0x3F81 ∧ srRound .bf16 (f32 0x3F808000) 0x7FFF = 0x3F80 := by decide +kernel

/-- The descriptor and the element address of the example of chapter 12. -/
theorem test_example_element :
    let d := 0x00D600004A200000 + 0x7F00 * 2 ^ 64 + 0x4A1FFF0000000000 * 2 ^ 128
    let entry (ext stride : Nat) : Bytes := leBytes 4 ext ++ leBytes 6 stride ++ zeros 6
    (match parseTensor d (entry 300 0 ++ entry 64 512 ++ entry 4 32768) false with
      | some t =>
        let b : BlockAt := { b0 := 7, rest := [17, 3, 0, 0, 0] }
        t.fmt == 0x16 && (descTable d).1 == 0x4A1FFF00 && rowStart t b.rest == 0x4A21A200 && blockScaleAt t b == 0x4A21A300 &&
          blockData t b + 26 == 0x4A21A33A
      | none => false) = true := by decide +kernel

/-- The global coordinates of the example of chapter 12. -/
theorem test_example_coordinates :
    let cyclic : Dim := { ext := 256, stride := 0, pb := 0, pa := 0, kind := 2, axis := 1, n := 32, g := 512 }
    let block : Dim := { ext := 256, stride := 512, pb := 0, pa := 0, kind := 1, axis := 0, n := 256, g := 1000 }
    let t : Tensor := { base := 0, fmt := 4, dims := [cyclic, block], padw := false, sr := false, fill := 0, tid := 0, ep := 0 }
    let mesh := [4, 2, 1, 3, 1, 0]
    globalCoord mesh cyclic 40 = 104 ∧ globalCoord mesh block 100 = 868 ∧ linearIdx mesh t { b0 := 1, rest := [100, 0, 0, 0, 0] } 8 = 444520 ∧
      coordValid mesh block 240 = false := by decide +kernel

/-- The walk of the first example of chapter 13: its reads, its page, and a fetch that is refused at the leaf's level. -/
theorem test_example_walk :
    let put (s : State) (e : Nat × Nat) : State := memWr s e.1 (leBytes 8 e.2)
    let s := [(0x100000100420, 0x0000100040000001), (0x100040000000, 0x0000100040001001), (0x100040001008, 0x0000100040002001),
      (0x100040002288, 0x0000100040003101), (0x100040003108, 0x000010008A37000F)].foldl put
        (regPutF (dev .serving) .xltSpaceBase 0 0 20 28 (0x100000100000 / 2 ^ 20))
    (translate s 757 0x42 0x4A21A33A .r).1 = .ok 0x10008A37A33A ∧ (translate s 757 0x42 0x4A21A33A .x).1 = .fault 2 3 := by decide +kernel

/-- The LAT block of core 757 in the Compass table (22). -/
theorem test_example_compass :
    regAddr (mkReg .latStatus 0 757) = 0x10BD5008 ∧ compassWord (dev .serving) 0x1BEE0 = some 0x0003002F02F50109 ∧
      compassWord (dev .serving) 0x1BEE8 = some 0x0000000110BD5000 := by decide +kernel

/-- The check value of CRC-32C without its final inversion, and SHA-256 of "abc" (FIPS 180-4). -/
theorem test_hash_vectors :
    crc32c 0xFFFFFFFF (ascii "123456789") = 0x1CF96D7C ∧
      beNat (sha256 (ascii "abc")) = 0xba7816bf8f01cfea414140de5dae2223b00361a396177a9cb410ff61f20015ad := by decide +kernel

/-! ### The machine as a whole -/

theorem witness_IdleStepIsOneTick : State.reset.pending = [] := rfl

theorem witness_TablesStayCanonical :
    State.reset.tablesCanonical = true ∧ (match step State.reset with | .next _ => true | _ => false) = true := by decide +kernel

theorem witness_StepTakesOnlyTheFront :
    (match step (State.reset.withPending [.nop (bareCmd 0x0000 [])]) with | .next t => t.pending.isEmpty | _ => false) = true := by decide +kernel

end Sys2Proof.Tests
end

/-!
PROOF. A frame that passes framing and the checks of 02 R68 reaches its session, which consumes its number and refuses it, lets it wait or
begins it by what the session already holds (R70, R71).
-/

namespace Sys2Proof.Machine

/-! ### The cells that a frame takes leave the sessions as they were -/

section Admission

variable (s : State) (f : CmdFrame)

@[simp] theorem takeSlice_gct (lo hi who len : Nat) : (takeSlice s lo hi who len).2.gct = s.gct := rfl

@[simp] theorem admitFrame_sessions : (admitFrame s f).gct.sessions = s.gct.sessions := rfl

@[simp] theorem sessionGet_admitFrame (i : Nat) : sessionGet (admitFrame s f) i = sessionGet s i := by
  unfold sessionGet
  rw [admitFrame_sessions]

@[simp] theorem framingOk_admitFrame (g : CmdFrame) : framingOk (admitFrame s f) g = framingOk s g := by
  unfold framingOk
  rw [sessionGet_admitFrame]

end Admission

/-! ### The way of a frame to its session, and what the session does with it -/

section Reception

variable {s : State} {i : Nat} {x : Session} {f : CmdFrame}

/-- A frame of an open session that fits and passes framing is taken by that session, and spent cells return (R64, R65). -/
theorem receiveCmd_of_openSession (hdev : s.gct.dev ≠ .powered) (hfits : inboundFits s f = true) (hframe : framingOk s f = true)
    (hsess : f.session ≠ 0) (hget : sessionGet s f.session = some x) :
    receiveCmd s f = settleSlice (sessionCmd (admitFrame s f) f.session x f) := by
  have hroute : routeCmd (admitFrame s f) f = sessionCmd (admitFrame s f) f.session x f := by
    simp [routeCmd, hframe, hsess, hget]
  simp [receiveCmd, hdev, hfits, hroute]

/-- A command with the right tag, the next number and a role that may send it reaches step 6 of R68. -/
theorem sessionCmd_of_checksPassed (htag : frameTag x.key f = f.tag) (hnext : x.next = f.seq) (hrole : roleMay x.role f.opcode = true) :
    sessionCmd s i x f = acceptCmd s i x f := by
  simp [sessionCmd, htag, hnext, hrole]

/-- The session's number is consumed and the command stored, whatever becomes of it (R69, R70). -/
def consumeNumber (s : State) (i : Nat) (x : Session) (f : CmdFrame) : State :=
  sessionMod s i (fun z => { z with next := z.next + 1, stored := (x.accepting f).stored })

/-- Step 6 of R68 in one equation: the session's load decides between refusal, execution and waiting (R71). -/
theorem acceptCmd_eq :
    acceptCmd s i x f =
      if 16 ≤ x.load then answerNow (consumeNumber s i x f) f x.key x.role.code x.keySlot (.audit (complete 0x20 []))
      else if x.exec.isNone && x.held.isEmpty then beginCmd (consumeNumber s i x f) i f
      else sessionMod (consumeNumber s i x f) i (fun z => { z with held := z.held ++ [f] }) := by
  unfold acceptCmd consumeNumber Session.accepting
  dsimp only

theorem sessionGet_consumeNumber (hget : sessionGet s i = some x) :
    sessionGet (consumeNumber s i x f) i = some { x with next := x.next + 1, stored := (x.accepting f).stored } := by
  unfold consumeNumber
  rw [sessionGet_sessionMod_self, hget, Option.map_some]

theorem acceptCmd_of_full (hfull : 16 ≤ x.load) :
    acceptCmd s i x f = answerNow (consumeNumber s i x f) f x.key x.role.code x.keySlot (.audit (complete 0x20 [])) := by
  rw [acceptCmd_eq, if_pos hfull]

theorem acceptCmd_of_room (hroom : x.load < 16) (hbusy : x.exec.isSome = true ∨ x.held ≠ []) :
    acceptCmd s i x f = sessionMod (consumeNumber s i x f) i (fun z => { z with held := z.held ++ [f] }) := by
  have hnotIdle : ¬ (x.exec.isNone && x.held.isEmpty) = true := by
    rcases hbusy with hexec | hheld
    · simp [Option.isSome_iff_ne_none.mp hexec]
    · simp [hheld]
  rw [acceptCmd_eq, if_neg (Nat.not_le.mpr hroom), if_neg hnotIdle]

theorem acceptCmd_of_idle (hexec : x.exec = none) (hheld : x.held = []) :
    acceptCmd s i x f = beginCmd (consumeNumber s i x f) i f := by
  have hroom : ¬ 16 ≤ x.load := by simp [Session.load, hexec, hheld]
  rw [acceptCmd_eq, if_neg hroom, if_pos (by simp [hexec, hheld])]

end Reception

/-- Settles O16: the frame reaches step 6 of R68, where the session's load decides (R71). -/
theorem sessionsHoldSixteen : Obligations.SessionsHoldSixteen := by
  unfold Obligations.SessionsHoldSixteen
  intro s x f hdev hfits hframe hsess hget htag hnext hrole
  have hreceive : receiveCmd s f = settleSlice (acceptCmd (admitFrame s f) f.session x f) := by
    rw [receiveCmd_of_openSession hdev hfits hframe hsess hget, sessionCmd_of_checksPassed htag hnext hrole]
  refine ⟨?_, fun hfull => ?_, fun hroom hbusy => ?_, fun hexec hheld => ?_⟩
  · rw [← hnext]
    exact sessionGet_consumeNumber ((sessionGet_admitFrame s f f.session).trans hget)
  · exact hreceive.trans (congrArg settleSlice (acceptCmd_of_full hfull))
  · exact hreceive.trans (congrArg settleSlice (acceptCmd_of_room hroom hbusy))
  · exact hreceive.trans (congrArg settleSlice (acceptCmd_of_idle hexec hheld))

end Sys2Proof.Machine

/-!
PROOF. MXCLR goes through the masked banks region by region, and each region that holds a code loses it and its elements (R331). What a walk
over regions does to one region follows by induction on the regions walked, and MXCLR is such a walk.
-/

namespace Sys2Proof.Machine

/-! ### Accumulator elements and failure codes after one write -/

section Places

/-- Equal numbers have equal digits to the base `n`. -/
theorem mul_add_inj {n q q' d d' : Nat} (hd : d < n) (hd' : d' < n) : n * q + d = n * q' + d' ↔ q = q' ∧ d = d' := by
  have hn : 0 < n := Nat.zero_lt_of_lt hd
  refine ⟨fun heq => ⟨?_, ?_⟩, fun ⟨hq, hdd⟩ => by rw [hq, hdd]⟩
  · simpa only [Nat.mul_add_div hn, Nat.div_eq_of_lt hd, Nat.div_eq_of_lt hd', Nat.add_zero] using congrArg (· / n) heq
  · simpa only [Nat.mul_add_mod, Nat.mod_eq_of_lt hd, Nat.mod_eq_of_lt hd'] using congrArg (· % n) heq

theorem codeAt_inj {a a' b b' g g' : Nat} (hb : b < 4) (hb' : b' < 4) (hg : g < 4) (hg' : g' < 4) :
    16 * a + 4 * b + g = 16 * a' + 4 * b' + g' ↔ (a, b, g) = (a', b', g') := by
  have hdigits (a b g : Nat) : 16 * a + 4 * b + g = 4 * (4 * a + b) + g := by rw [Nat.mul_add, ← Nat.mul_assoc]
  simp only [hdigits, mul_add_inj hg hg', mul_add_inj hb hb', Prod.mk.injEq, and_assoc]

theorem accAt_inj {a a' b b' row row' col col' : Nat} (hb : b < 4) (hb' : b' < 4) (hrow : row < 32) (hrow' : row' < 32)
    (hcol : col < 32) (hcol' : col' < 32) :
    accAt a b row col = accAt a' b' row' col' ↔ a = a' ∧ b = b' ∧ row = row' ∧ col = col' := by
  simp only [accAt, Nat.mul_comm _ 32, mul_add_inj hcol hcol', mul_add_inj hrow hrow', mul_add_inj hb hb', and_assoc]

theorem Lattice.get_put (l : Lattice) {a a' b b' row row' col col' : Nat} (v : Nat) (hb : b < 4) (hb' : b' < 4) (hrow : row < 32)
    (hrow' : row' < 32) (hcol : col < 32) (hcol' : col' < 32) :
    (l.put a b row col v).get a' b' row' col' =
      if a' = a ∧ b' = b ∧ row' = row ∧ col' = col then v % 2 ^ 32 else l.get a' b' row' col' := by
  rw [if_congr (accAt_inj hb' hb hrow' hrow hcol' hcol).symm rfl rfl]
  unfold Lattice.get Lattice.put
  split
  · next heq => rw [heq, fgetD_fsetD_self, BitVec.toNat_ofNat]
  · next hne => rw [fgetD_fsetD_ne _ _ hne]

theorem fgetD_ferase {α : Type} (d : α) (m : FMap α) (k j : Nat) : fgetD d (ferase m k) j = if j = k then d else fgetD d m j := by
  unfold fgetD
  split
  · next heq => rw [heq, fget_ferase_self, Option.getD_none]
  · next hne => rw [fget_ferase_ne m hne]

end Places

/-! ### Clearing one region -/

section Region

/-- A region of eight columns of an accumulator bank (R329): its array, its bank and its group of columns. -/
abbrev LatRegion := Nat × Nat × Nat

/-- The bank and the group of columns exist (R300, R329). -/
def LatRegion.inBank (r : LatRegion) : Prop := r.2.1 < 4 ∧ r.2.2 < 4

/-- The failure code of a region. -/
def Lattice.codeOf (l : Lattice) (r : LatRegion) : Nat := l.code r.1 r.2.1 r.2.2

/-- The element in row `m` and column `c` of a region. -/
def Lattice.elemOf (l : Lattice) (r : LatRegion) (m c : Nat) : Nat := l.get r.1 r.2.1 m (8 * r.2.2 + c)

/-- Rows and columns of the elements of a region. -/
def regionPlaces : List (Nat × Nat) := (List.range 32).flatMap (fun m => (List.range 8).map (fun c => (m, c)))

/-- Sets elements of a region to +0.0. -/
def Lattice.zeroAt (l : Lattice) (r : LatRegion) (ps : List (Nat × Nat)) : Lattice :=
  ps.foldl (fun l p => l.put r.1 r.2.1 p.1 (8 * r.2.2 + p.2) 0) l

/-- Removes the code of a region. -/
def Lattice.dropCode (l : Lattice) (r : LatRegion) : Lattice :=
  { l with codes := ferase l.codes (16 * r.1 + 4 * r.2.1 + r.2.2) }

/-- What MXCLR does to one region: the code and every element, or nothing where there is no code (R331). -/
def Lattice.clearRegion (l : Lattice) (r : LatRegion) : Lattice :=
  if l.codeOf r = 0 then l else (l.dropCode r).zeroAt r regionPlaces

theorem mem_regionPlaces {m c : Nat} : (m, c) ∈ regionPlaces ↔ m < 32 ∧ c < 8 := by
  simp [regionPlaces]

/-- Two Lattice pairs agree in everything but their accumulators and failure codes. -/
def Lattice.SameButBanks (l l' : Lattice) : Prop :=
  l'.shape0 = l.shape0 ∧ l'.shape1 = l.shape1 ∧ l'.slices = l.slices ∧ l'.work = l.work

theorem Lattice.SameButBanks.trans {l₁ l₂ l₃ : Lattice} (h : l₁.SameButBanks l₂) (h' : l₂.SameButBanks l₃) : l₁.SameButBanks l₃ := by
  obtain ⟨hshape0, hshape1, hslices, hwork⟩ := h
  obtain ⟨hshape0', hshape1', hslices', hwork'⟩ := h'
  exact ⟨hshape0'.trans hshape0, hshape1'.trans hshape1, hslices'.trans hslices, hwork'.trans hwork⟩

theorem Lattice.zeroAt_sameButBanks (l : Lattice) (r : LatRegion) (ps : List (Nat × Nat)) : l.SameButBanks (l.zeroAt r ps) := by
  induction ps generalizing l with
  | nil => exact ⟨rfl, rfl, rfl, rfl⟩
  | cons p ps ih => exact .trans ⟨rfl, rfl, rfl, rfl⟩ (ih (l.put r.1 r.2.1 p.1 (8 * r.2.2 + p.2) 0))

@[simp] theorem Lattice.codeOf_zeroAt (l : Lattice) (r r' : LatRegion) (ps : List (Nat × Nat)) : (l.zeroAt r ps).codeOf r' = l.codeOf r' := by
  induction ps generalizing l with
  | nil => rfl
  | cons p ps ih => exact ih (l.put r.1 r.2.1 p.1 (8 * r.2.2 + p.2) 0)

@[simp] theorem Lattice.elemOf_dropCode (l : Lattice) (r r' : LatRegion) (m c : Nat) : (l.dropCode r).elemOf r' m c = l.elemOf r' m c := rfl

theorem Lattice.codeOf_dropCode (l : Lattice) {r r' : LatRegion} (hr : r.inBank) (hr' : r'.inBank) :
    (l.dropCode r).codeOf r' = if r' = r then 0 else l.codeOf r' := by
  obtain ⟨a, b, g⟩ := r
  obtain ⟨a', b', g'⟩ := r'
  obtain ⟨hb, hg⟩ := hr
  obtain ⟨hb', hg'⟩ := hr'
  simp only [Lattice.codeOf, Lattice.code, Lattice.dropCode, fgetD_ferase]
  exact if_congr (codeAt_inj hb' hb hg' hg) rfl rfl

theorem Lattice.elemOf_put_zero (l : Lattice) {r r' : LatRegion} {m c m' c' : Nat} (hr : r.inBank) (hr' : r'.inBank) (hm : m < 32)
    (hc : c < 8) (hm' : m' < 32) (hc' : c' < 8) :
    (l.put r.1 r.2.1 m (8 * r.2.2 + c) 0).elemOf r' m' c' = if r' = r ∧ (m', c') = (m, c) then 0 else l.elemOf r' m' c' := by
  obtain ⟨a, b, g⟩ := r
  obtain ⟨a', b', g'⟩ := r'
  obtain ⟨hb, hg⟩ := hr
  obtain ⟨hb', hg'⟩ := hr'
  dsimp only at hb hg hb' hg'
  have hplace : (a' = a ∧ b' = b ∧ m' = m ∧ 8 * g' + c' = 8 * g + c) ↔ (a', b', g') = (a, b, g) ∧ (m', c') = (m, c) := by
    simp only [mul_add_inj hc' hc, Prod.mk.injEq, and_assoc, and_left_comm (a := m' = m)]
  have hcol {g c : Nat} (hg : g < 4) (hc : c < 8) : 8 * g + c < 32 := by omega
  simp only [Lattice.elemOf]
  rw [Lattice.get_put l 0 hb hb' hm hm' (hcol hg hc) (hcol hg' hc'), if_congr hplace rfl rfl, Nat.zero_mod]

theorem Lattice.elemOf_zeroAt (l : Lattice) {r r' : LatRegion} {ps : List (Nat × Nat)} {m c : Nat} (hr : r.inBank) (hr' : r'.inBank)
    (hps : ∀ p ∈ ps, p ∈ regionPlaces) (hm : m < 32) (hc : c < 8) :
    (l.zeroAt r ps).elemOf r' m c = if r' = r ∧ (m, c) ∈ ps then 0 else l.elemOf r' m c := by
  induction ps generalizing l with
  | nil => simp [Lattice.zeroAt]
  | cons p ps ih =>
    obtain ⟨hp, hps⟩ := List.forall_mem_cons.mp hps
    obtain ⟨hpm, hpc⟩ := mem_regionPlaces.mp hp
    have hput := Lattice.elemOf_put_zero l hr hr' hpm hpc hm hc
    have hrest := ih (l.put r.1 r.2.1 p.1 (8 * r.2.2 + p.2) 0) hps
    refine hrest.trans (hput ▸ ?_)
    by_cases hreg : r' = r <;> by_cases hmem : (m, c) ∈ ps <;> simp [hreg, hmem]

theorem Lattice.codeOf_clearRegion (l : Lattice) {r r' : LatRegion} (hr : r.inBank) (hr' : r'.inBank) :
    (l.clearRegion r).codeOf r' = if r' = r then 0 else l.codeOf r' := by
  unfold Lattice.clearRegion
  split
  · next hzero =>
    split
    · next heq => rw [heq, hzero]
    · rfl
  · rw [Lattice.codeOf_zeroAt, Lattice.codeOf_dropCode l hr hr']

theorem Lattice.elemOf_clearRegion (l : Lattice) {r r' : LatRegion} {m c : Nat} (hr : r.inBank) (hr' : r'.inBank) (hm : m < 32) (hc : c < 8) :
    (l.clearRegion r).elemOf r' m c = if r' = r ∧ l.codeOf r' ≠ 0 then 0 else l.elemOf r' m c := by
  unfold Lattice.clearRegion
  split
  · next hzero =>
    refine (if_neg ?_).symm
    rintro ⟨heq, hcoded⟩
    exact hcoded (heq ▸ hzero)
  · next hcoded =>
    rw [Lattice.elemOf_zeroAt _ hr hr' (fun _ hp => hp) hm hc, Lattice.elemOf_dropCode]
    refine if_congr (and_congr_right fun heq => ?_) rfl rfl
    simp [heq, hcoded, mem_regionPlaces, hm, hc]

theorem Lattice.clearRegion_sameButBanks (l : Lattice) (r : LatRegion) : l.SameButBanks (l.clearRegion r) := by
  unfold Lattice.clearRegion
  split
  · exact ⟨rfl, rfl, rfl, rfl⟩
  · exact .trans ⟨rfl, rfl, rfl, rfl⟩ ((l.dropCode r).zeroAt_sameButBanks r regionPlaces)

end Region

/-! ### Clearing region after region -/

section Walk

/-- The regions of banks of arrays, in the order in which MXCLR meets them. -/
def regionsOf (as bs : List Nat) : List LatRegion :=
  as.flatMap (fun a => bs.flatMap (fun b => (List.range 4).map (fun g => (a, b, g))))

theorem mem_regionsOf {as bs : List Nat} {r : LatRegion} : r ∈ regionsOf as bs ↔ r.1 ∈ as ∧ r.2.1 ∈ bs ∧ r.2.2 < 4 := by
  obtain ⟨a, b, g⟩ := r
  simp [regionsOf]

theorem Lattice.clear_eq_foldl (l : Lattice) (as bs : List Nat) : l.clear as bs = (regionsOf as bs).foldl Lattice.clearRegion l := by
  simp only [Lattice.clear, Lattice.clearRegion, Lattice.zeroAt, Lattice.codeOf, Lattice.dropCode, regionsOf, regionPlaces,
    List.foldl_flatMap, List.foldl_map]

theorem Lattice.codeOf_foldl_clearRegion (l : Lattice) {rs : List LatRegion} {r : LatRegion} (hrs : ∀ r' ∈ rs, r'.inBank) (hr : r.inBank) :
    (rs.foldl Lattice.clearRegion l).codeOf r = if r ∈ rs then 0 else l.codeOf r := by
  induction rs generalizing l with
  | nil => simp
  | cons r' rs ih =>
    obtain ⟨hr', hrs⟩ := List.forall_mem_cons.mp hrs
    rw [List.foldl_cons, ih _ hrs, Lattice.codeOf_clearRegion l hr' hr]
    by_cases hmem : r ∈ rs <;> simp [hmem]

theorem Lattice.elemOf_foldl_clearRegion (l : Lattice) {rs : List LatRegion} {r : LatRegion} {m c : Nat} (hrs : ∀ r' ∈ rs, r'.inBank)
    (hr : r.inBank) (hm : m < 32) (hc : c < 8) :
    (rs.foldl Lattice.clearRegion l).elemOf r m c = if r ∈ rs ∧ l.codeOf r ≠ 0 then 0 else l.elemOf r m c := by
  induction rs generalizing l with
  | nil => simp
  | cons r' rs ih =>
    obtain ⟨hr', hrs⟩ := List.forall_mem_cons.mp hrs
    rw [List.foldl_cons, ih _ hrs, Lattice.codeOf_clearRegion l hr' hr, Lattice.elemOf_clearRegion l hr' hr hm hc]
    by_cases heq : r = r' <;> by_cases hmem : r ∈ rs <;> simp [heq, hmem]

theorem Lattice.foldl_clearRegion_sameButBanks (l : Lattice) (rs : List LatRegion) : l.SameButBanks (rs.foldl Lattice.clearRegion l) := by
  induction rs generalizing l with
  | nil => exact ⟨rfl, rfl, rfl, rfl⟩
  | cons r rs ih => exact (l.clearRegion_sameButBanks r).trans (ih (l.clearRegion r))

variable (l : Lattice) {as bs : List Nat} {a b g : Nat}

theorem regionsOf_inBank (hbs : ∀ y ∈ bs, y < 4) : ∀ r ∈ regionsOf as bs, r.inBank := by
  intro r hr
  obtain ⟨_, hbank, hgroup⟩ := mem_regionsOf.mp hr
  exact ⟨hbs _ hbank, hgroup⟩

/-- MXCLR leaves code 0 in every region of the masked banks. -/
theorem Lattice.code_clear (hbs : ∀ y ∈ bs, y < 4) (hb : b < 4) (hg : g < 4) :
    (l.clear as bs).code a b g = if a ∈ as ∧ b ∈ bs then 0 else l.code a b g := by
  rw [l.clear_eq_foldl as bs]
  have hwalk := l.codeOf_foldl_clearRegion (r := (a, b, g)) (regionsOf_inBank (as := as) hbs) ⟨hb, hg⟩
  simpa only [Lattice.codeOf, mem_regionsOf, hg, and_true] using hwalk

/-- MXCLR sets the elements of the coded regions of the masked banks, and no others, to +0.0. -/
theorem Lattice.get_clear {m c : Nat} (hbs : ∀ y ∈ bs, y < 4) (hb : b < 4) (hg : g < 4) (hm : m < 32) (hc : c < 8) :
    (l.clear as bs).get a b m (8 * g + c) = if a ∈ as ∧ b ∈ bs ∧ l.code a b g ≠ 0 then 0 else l.get a b m (8 * g + c) := by
  rw [l.clear_eq_foldl as bs]
  have hwalk := l.elemOf_foldl_clearRegion (r := (a, b, g)) (regionsOf_inBank (as := as) hbs) ⟨hb, hg⟩ hm hc
  simpa only [Lattice.codeOf, Lattice.elemOf, mem_regionsOf, hg, and_true, and_assoc] using hwalk

theorem Lattice.clear_sameButBanks (as bs : List Nat) : l.SameButBanks (l.clear as bs) := by
  rw [l.clear_eq_foldl as bs]
  exact l.foldl_clearRegion_sameButBanks (regionsOf as bs)

end Walk

/-! ### MXCLR in its bundle -/

section Bundles

variable {core : Fin 1280} {hc : Fin 8} {s : State} {x : Hc} {b : Bundle} {i : MSlot}

/-- MXCLR issues the bundle at the PC of its context. -/
theorem exec_wMxclr (core : Fin 1280) (hc : Fin 8) (s : State) :
    exec (.wMxclr core hc) s = .next (issueRow s core.val hc.val (.m .clr) PeerTable.empty) := rfl

/-- The row of MXCLR commits the bundle that holds it. -/
theorem exec_wMxclr_of_commits (hcommits : Commits s core.val hc.val x b PeerTable.empty) (hslot : b.mx = some i) (hop : i.op = .clr) :
    exec (.wMxclr core hc) s = .next (committed s core.val hc.val x b PeerTable.empty) := by
  rw [exec_wMxclr, issueRow_commits hcommits (holds_matrix hslot hop)]

variable {k h : Nat} {t : State}

theorem matrixCommit_clr (hclaim : (coreGet t k).claim = some h) (hcond : x.cond i.pred i.pneg = true) (hop : i.op = .clr) :
    matrixCommit t k h x i = latDrain (latMod t k (fun l => l.clear (arraysOf i.arr) i.banks)) k := by
  simp [matrixCommit, hclaim, hcond, hop]

theorem mstCommit_of_ne_st (hop : i.op ≠ .st) : mstCommit t k h x i = t := by
  simp [mstCommit, hop]

end Bundles

/-- Settles O46: MXCLR is a walk over the regions of the masked banks, each cleared exactly when it holds a code (R331). -/
theorem clearTakesOnlyCodedRegions : Obligations.ClearTakesOnlyCodedRegions := by
  unfold Obligations.ClearTakesOnlyCodedRegions
  refine ⟨?_, ?_⟩
  · intro core hc s x b i hcommits hslot hcond hop k h u hclaim
    rw [exec_wMxclr_of_commits hcommits hslot hop, committed, beforeControl, beforeMover, matrixStage, hslot]
    dsimp only
    rw [matrixCommit_clr hclaim hcond hop, mstCommit_of_ne_st (by simp [hop])]
  · intro l as bs a b g m c _ hb hg hm hc _ hbs hit
    have hcode := l.code_clear (as := as) (a := a) hbs hb hg
    have helem := l.get_clear (as := as) (a := a) hbs hb hg hm hc
    refine ⟨fun hhit => ?_, fun hmiss => ?_, l.clear_sameButBanks as bs⟩
    · obtain ⟨harray, hbank, hcoded⟩ := hhit
      exact ⟨hcode.trans (if_pos ⟨harray, hbank⟩), helem.trans (if_pos ⟨harray, hbank, hcoded⟩)⟩
    · refine ⟨hcode.trans (ite_eq_right_iff.mpr fun hnamed => ?_), helem.trans (if_neg hmiss)⟩
      obtain ⟨harray, hbank⟩ := hnamed
      by_contra hcoded
      exact hmiss ⟨harray, hbank, Ne.symm hcoded⟩

end Sys2Proof.Machine

/-!
PROOF. The value of an element of a scaled line, one equation per case: the NaN scale (R341), and under any other scale the floating and
the integer formats (R339).
-/

namespace Sys2Proof.Machine

/-! ### Elements of a scaled line -/

@[simp] theorem EFmt.scaled_nanScale (f : EFmt) (code : Nat) : f.scaled code 0xFF = .nan := if_pos rfl

theorem EFmt.scaled_flt (g : FFmt) (code : Nat) {e : Nat} (hscale : e ≠ 0xFF) :
    (EFmt.flt g).scaled code e = (g.decode code).scale ((e : Int) - 127) := if_neg hscale

theorem EFmt.scaled_int (w code : Nat) {e : Nat} (hscale : e ≠ 0xFF) :
    (EFmt.int w).scaled code e = (intVal (toInt w code)).scale (scaleUnit w + ((e : Int) - 127)) := if_neg hscale

@[simp] theorem FVal.scale_fin (neg : Bool) (m : Nat) (e x : Int) : (FVal.fin neg m e).scale x = .fin neg m (e + x) := rfl

/-- Settles O52: the scale byte 0xFF decides before the format is looked at, and any other byte only moves the exponent (R341). -/
theorem blockScales : Obligations.BlockScales := by
  unfold Obligations.BlockScales
  refine ⟨EFmt.scaled_nanScale, fun g code e hlt => ?_, fun w code e hlt => ?_, fun neg m e x _ => ?_⟩
  · exact EFmt.scaled_flt g code hlt.ne
  · exact EFmt.scaled_int w code hlt.ne
  · exact FVal.scale_fin neg m e x

end Sys2Proof.Machine

/-!
PROOF. A write of TRS_OPKEY_j has its effect on the role keys, with ROTATE after EN, and then closes the sessions of the slot, twice where
both ask for it: closing is idempotent, and leaves the keys and memory alone (R517, R520).
-/

namespace Sys2Proof.Machine

/-! ### One bit written -/

theorem bitN_setBitN (x j : Nat) (b : Bool) (i : Nat) : bitN (setBitN x j b) i = if i = j then b else bitN x i := by
  have hform : setBitN x j b = 2 ^ j * Nat.bit b (x >>> (j + 1)) + x % 2 ^ j := by
    have hshift : x >>> (j + 1) * 2 ^ (j + 1) = 2 ^ j * (2 * x >>> (j + 1)) := by ring
    rw [setBitN, setBitsN, hshift]
    cases b <;> simp [b2n, Nat.bit_val] <;> ring
  rw [bitN, bitN, hform, Nat.testBit_two_pow_mul_add _ (Nat.mod_lt _ (Nat.two_pow_pos j))]
  rcases lt_trichotomy i j with hlow | rfl | hhigh
  · simp [hlow, hlow.ne, Nat.testBit_mod_two_pow]
  · simp
  · obtain ⟨d, rfl⟩ := Nat.exists_eq_add_of_lt hhigh
    have hindex : j + d + 1 - j = d + 1 := by omega
    rw [if_neg (by omega), if_neg (by omega), hindex, Nat.testBit_bit_succ, Nat.testBit_shiftRight]
    congr 1
    omega

/-! ### What a close leaves of a session -/

section Closing

variable (s : State)

/-- What is left of a session as it closes (R517): nothing, or, under a command in execution, the session marked to close after it. -/
def Session.afterClose (x : Session) : Option Session := if x.exec.isSome then some { x with closing := true } else none

theorem Session.afterClose_idle {x : Session} (hidle : x.exec = none) : x.afterClose = none := by
  simp [afterClose, hidle]

theorem Session.afterClose_busy {x : Session} (hbusy : x.exec.isSome = true) : x.afterClose = some { x with closing := true } :=
  if_pos hbusy

theorem Session.afterClose_afterClose (x : Session) : x.afterClose.bind Session.afterClose = x.afterClose := by
  by_cases hbusy : x.exec.isSome = true <;> simp [afterClose, hbusy]

theorem bind_afterClose_twice (o : Option Session) : (o.bind Session.afterClose).bind Session.afterClose = o.bind Session.afterClose := by
  simp [Option.bind_assoc, Session.afterClose_afterClose]

theorem sessionGet_closeSession (i k : Nat) :
    sessionGet (closeSession s i) k = if k = i then (sessionGet s k).bind Session.afterClose else sessionGet s k := by
  split
  · next heq =>
    subst heq
    cases hget : sessionGet s k with
    | none => exact closeSession_idle s k (by simp [hget])
    | some x =>
      cases hexec : x.exec with
      | none => simpa [Session.afterClose_idle hexec] using closeSession_idle s k (by simp [hget, hexec])
      | some e =>
        have hbusy : x.exec.isSome = true := by simp [hexec]
        simpa [Session.afterClose_busy hbusy] using closeSession_busy s k x hget hbusy
  · next hne => exact closeSession_ne s hne

theorem sessionGet_foldl_closeSession (ids : List Nat) (k : Nat) :
    sessionGet (ids.foldl closeSession s) k = if k ∈ ids then (sessionGet s k).bind Session.afterClose else sessionGet s k := by
  induction ids generalizing s with
  | nil => simp
  | cons i ids ih =>
    rw [List.foldl_cons, ih, sessionGet_closeSession]
    by_cases heq : k = i <;> by_cases hmem : k ∈ ids <;> simp [heq, hmem, bind_afterClose_twice]

theorem mem_of_fget {α : Type} {m : FMap α} {k : Nat} {v : α} (hget : fget? m k = some v) : (k, v) ∈ m := by
  induction m with
  | nil => simp [fget?] at hget
  | cons e t ih =>
    obtain ⟨j, w⟩ := e
    rw [fget?] at hget
    split at hget
    · next heq =>
      obtain rfl := Option.some.inj hget
      exact heq ▸ List.mem_cons_self
    · exact List.mem_cons_of_mem _ (ih hget)

/-- An ID that names only a session of which `p` holds names what the close leaves of it. -/
theorem sessionGet_closeWhere {p : Session → Bool} {i : Nat} (hp : ∀ x, sessionGet s i = some x → p x = true) :
    sessionGet (closeWhere s p) i = (sessionGet s i).bind Session.afterClose := by
  rw [closeWhere, ← List.foldl_map (f := Prod.fst) (g := closeSession), sessionGet_foldl_closeSession]
  refine ite_eq_left_iff.mpr fun hmem => ?_
  cases hget : sessionGet s i with
  | none => rfl
  | some x => exact absurd (List.mem_map.mpr ⟨(i, x), List.mem_filter.mpr ⟨mem_of_fget hget, hp x hget⟩, rfl⟩) hmem

/-- Closing sessions leaves what every single close leaves. -/
theorem closeWhere_preserves {α : Type} {view : State → α} (hview : ∀ t i, view (closeSession t i) = view t) (p : Session → Bool) :
    view (closeWhere s p) = view s :=
  List.foldlRecOn (motive := fun t => view t = view s) _ _ rfl fun t ht e _ => (hview t e.1).trans ht

end Closing

/-! ### The role keys -/

section Keys

/-- The installer root, GEN and EN of the operator slots, and the open counters (19 "Role keys and their origin"). -/
structure RoleKeys where
  root : Option Bytes
  gens : FMap Nat
  ens : Nat
  opens : FMap Nat

def State.roleKeys (s : State) : RoleKeys :=
  { root := s.trust.root, gens := s.trust.gens, ens := s.trust.ens, opens := s.trust.opens }

/-- EN of slot `j` is written. -/
def RoleKeys.enable (k : RoleKeys) (j : Nat) (on : Bool) : RoleKeys := { k with ens := setBitN k.ens j on }

/-- Slot `j` is rotated. -/
def RoleKeys.rotate (k : RoleKeys) (j : Nat) : RoleKeys :=
  { k with gens := fmodD 0 k.gens j (fun g => (g + 1) % 2 ^ 32), opens := ferase k.opens (2 + j) }

/-- What a write of `v` to TRS_OPKEY_j makes of the keys: EN, then ROTATE. -/
def RoleKeys.written (k : RoleKeys) (j v : Nat) : RoleKeys :=
  let k1 := k.enable j (bitN v 32)
  if bitN v 33 then k1.rotate j else k1

variable (s : State)

@[simp] theorem roleKeys_extendIdentity : (extendIdentity s).roleKeys = s.roleKeys := rfl
@[simp] theorem extendIdentity_gct : (extendIdentity s).gct = s.gct := rfl
@[simp] theorem extendIdentity_mem : (extendIdentity s).mem = s.mem := rfl

theorem dropSession_keys_mem (i : Nat) : (dropSession s i).roleKeys = s.roleKeys ∧ (dropSession s i).mem = s.mem := by
  unfold dropSession
  split <;> exact ⟨rfl, rfl⟩

theorem closeSession_keys_mem (i : Nat) : (closeSession s i).roleKeys = s.roleKeys ∧ (closeSession s i).mem = s.mem := by
  unfold closeSession
  split
  · exact ⟨rfl, rfl⟩
  · split
    · exact ⟨rfl, rfl⟩
    · exact dropSession_keys_mem _ i

@[simp] theorem roleKeys_closeWhere (p : Session → Bool) : (closeWhere s p).roleKeys = s.roleKeys :=
  closeWhere_preserves s (fun t i => (closeSession_keys_mem t i).left) p

@[simp] theorem closeWhere_mem (p : Session → Bool) : (closeWhere s p).mem = s.mem :=
  closeWhere_preserves s (fun t i => (closeSession_keys_mem t i).right) p

end Keys

/-! ### EN and ROTATE -/

section Slots

variable {j : Nat} (hj : j < 16) (s : State)

/-- The state as a write of EN leaves it before it closes sessions: M3 is extended where EN changes. -/
def enabled (s : State) (j : Nat) (on : Bool) : State :=
  let s1 := trustMod s (fun t => { t with ens := setBitN t.ens j on })
  if bitN s.trust.ens j == on then s1 else extendIdentity s1

theorem roleKeys_enabled (on : Bool) : (enabled s j on).roleKeys = s.roleKeys.enable j on := by
  unfold enabled
  split <;> rfl

theorem enabled_gct (on : Bool) : (enabled s j on).gct = s.gct := by
  unfold enabled
  split <;> rfl

theorem enabled_mem (on : Bool) : (enabled s j on).mem = s.mem := by
  unfold enabled
  split <;> rfl

/-- The state as ROTATE leaves it before it closes sessions. -/
def rotated (s : State) (j : Nat) : State :=
  extendIdentity (trustMod s (fun t => { t with gens := fmodD 0 t.gens j (fun g => (g + 1) % 2 ^ 32), opens := ferase t.opens (2 + j) }))

theorem roleKeys_rotated : (rotated s j).roleKeys = s.roleKeys.rotate j := roleKeys_extendIdentity _
theorem rotated_gct : (rotated s j).gct = s.gct := by rw [rotated, extendIdentity_gct, trustMod_gct]
theorem rotated_mem : (rotated s j).mem = s.mem := by rw [rotated, extendIdentity_mem, trustMod_mem]

/-- The sessions of the slot close, whatever else of the state has changed before. -/
theorem sessionGet_closeSlot {i : Nat} {t : State} (hslot : ∀ x, sessionGet s i = some x → slotSession j x = true)
    (hgct : t.gct = s.gct) : sessionGet (closeWhere t (slotSession j)) i = (sessionGet s i).bind Session.afterClose := by
  have hget : sessionGet t i = sessionGet s i := by rw [sessionGet, hgct, sessionGet]
  rw [sessionGet_closeWhere t (hget ▸ hslot), hget]

include hj

theorem opkeyEnable_eq (on : Bool) :
    opkeyEnable s j on = if on then enabled s j on else closeWhere (enabled s j on) (slotSession j) :=
  if_neg (Nat.not_le.mpr hj)

theorem trsRotate_eq : trsRotate s j = closeWhere (rotated s j) (slotSession j) := if_neg (Nat.not_le.mpr hj)

theorem roleKeys_opkeyEnable (on : Bool) : (opkeyEnable s j on).roleKeys = s.roleKeys.enable j on := by
  rw [opkeyEnable_eq hj, apply_ite State.roleKeys, roleKeys_closeWhere, ite_self, roleKeys_enabled]

theorem opkeyEnable_mem (on : Bool) : (opkeyEnable s j on).mem = s.mem := by
  rw [opkeyEnable_eq hj, apply_ite State.mem, closeWhere_mem, ite_self, enabled_mem]

theorem roleKeys_trsRotate : (trsRotate s j).roleKeys = s.roleKeys.rotate j := by
  rw [trsRotate_eq hj, roleKeys_closeWhere, roleKeys_rotated]

theorem trsRotate_mem : (trsRotate s j).mem = s.mem := by
  rw [trsRotate_eq hj, closeWhere_mem, rotated_mem]

theorem roleKeys_writeOpkey (v : Nat) : (writeOpkey s j v).roleKeys = s.roleKeys.written j v := by
  simp only [writeOpkey, apply_ite State.roleKeys, roleKeys_trsRotate hj, roleKeys_opkeyEnable hj, RoleKeys.written]

theorem writeOpkey_mem (v : Nat) : (writeOpkey s j v).mem = s.mem := by
  simp only [writeOpkey, apply_ite State.mem, trsRotate_mem hj, opkeyEnable_mem hj, ite_self]

/-! ### The sessions of the slot -/

variable {s} {i : Nat}

theorem sessionGet_opkeyEnable_on : sessionGet (opkeyEnable s j true) i = sessionGet s i := by
  rw [opkeyEnable_eq hj, if_pos rfl, sessionGet, enabled_gct, sessionGet]

variable (hslot : ∀ x, sessionGet s i = some x → slotSession j x = true)

include hslot

theorem sessionGet_opkeyEnable_off : sessionGet (opkeyEnable s j false) i = (sessionGet s i).bind Session.afterClose := by
  rw [opkeyEnable_eq hj, if_neg Bool.false_ne_true, sessionGet_closeSlot s hslot (enabled_gct s false)]

theorem sessionGet_trsRotate : sessionGet (trsRotate s j) i = (sessionGet s i).bind Session.afterClose := by
  rw [trsRotate_eq hj, sessionGet_closeSlot s hslot (rotated_gct s)]

/-- A session that a close leaves marked is still one of its slot. -/
theorem slotSession_opkeyEnable_off :
    ∀ x, sessionGet (opkeyEnable s j false) i = some x → slotSession j x = true := by
  rw [sessionGet_opkeyEnable_off hj hslot]
  intro y hy
  obtain ⟨x, hget, hclose⟩ := Option.bind_eq_some_iff.mp hy
  rw [Session.afterClose, Option.ite_none_right_eq_some] at hclose
  obtain ⟨_, hmark⟩ := hclose
  obtain rfl := Option.some.inj hmark
  exact hslot x hget

/-- ROTATE = 1 and EN = 0 each close the sessions of the slot, and both together close them as one does. -/
theorem sessionGet_writeOpkey {v : Nat} (hcloses : bitN v 33 = true ∨ bitN v 32 = false) :
    sessionGet (writeOpkey s j v) i = (sessionGet s i).bind Session.afterClose := by
  cases hen : bitN v 32 with
  | true =>
    have hrot : bitN v 33 = true := hcloses.resolve_right (by simp [hen])
    have hget := sessionGet_opkeyEnable_on (s := s) (i := i) hj
    rw [writeOpkey, hen, if_pos hrot, sessionGet_trsRotate hj (hget ▸ hslot), hget]
  | false =>
    have hoff := sessionGet_opkeyEnable_off hj hslot
    cases hrot : bitN v 33 with
    | true =>
      rw [writeOpkey, hen, if_pos hrot, sessionGet_trsRotate hj (slotSession_opkeyEnable_off hj hslot), hoff, bind_afterClose_twice]
    | false => rw [writeOpkey, hen, if_neg (by simp [hrot]), hoff]

end Slots

/-! ### Slot by slot -/

section Written

variable (k : RoleKeys) {j v : Nat}

@[simp] theorem RoleKeys.written_root : (k.written j v).root = k.root := by
  unfold written
  split <;> rfl

@[simp] theorem RoleKeys.written_ens : (k.written j v).ens = setBitN k.ens j (bitN v 32) := by
  unfold written
  split <;> rfl

theorem RoleKeys.written_of_rotate (hrot : bitN v 33 = true) : k.written j v = (k.enable j (bitN v 32)).rotate j := if_pos hrot

theorem RoleKeys.gen_written_ne {i : Nat} (hne : i ≠ j) : fgetD 0 (k.written j v).gens i = fgetD 0 k.gens i := by
  unfold written
  split
  · exact fgetD_fsetD_ne _ _ hne _
  · rfl

end Written

theorem openKey_disabled {s : State} {j : Nat} (hoff : bitN s.trust.ens j = false) : openKey s 3 j = none := by
  simp [openKey, hoff]

/-! ### The register write -/

theorem compassWord_trsOpkey (s : State) {j : Nat} (hj : j < 16) : compassWord s (regAddr (mkReg .trsOpkey j 0)) = none := by
  have haddr : regAddr (mkReg .trsOpkey j 0) = 0x1a00040 + 8 * j := rfl
  simp only [haddr, compassWord]
  repeat rw [if_neg (by omega)]

theorem writeReg_takes {s : State} {row : RegRow} {r : Reg} {v : Nat} (htakes : TakesWrite s row r v)
    (hcompass : compassWord s (regAddr r) = none) : writeReg s (regAddr r) v = applyWrite s row r v := by
  obtain ⟨hreg, -⟩ := htakes
  simp [writeReg, hcompass, hreg]

/-- Settles O31: the write's keys are those of `RoleKeys.written`, and what it leaves of a session of the slot is `Session.afterClose` (R520). -/
theorem operatorSlots : Obligations.OperatorSlots := by
  unfold Obligations.OperatorSlots
  intro s j v hj t closed
  have hkeys : t.roleKeys = s.roleKeys.written j v := roleKeys_writeOpkey hj s v
  have hgens : t.trust.gens = (s.roleKeys.written j v).gens := congrArg RoleKeys.gens hkeys
  have hens : t.trust.ens = setBitN s.trust.ens j (bitN v 32) := (congrArg RoleKeys.ens hkeys).trans s.roleKeys.written_ens
  have hclosed (hcloses : bitN v 33 = true ∨ bitN v 32 = false) : closed := by
    intro i x hget hrole hkey
    have hslot : ∀ y, sessionGet s i = some y → slotSession j y = true := by simp [hget, slotSession, hrole, hkey]
    have hleft : sessionGet t i = x.afterClose := by simpa [hget] using sessionGet_writeOpkey hj hslot hcloses
    exact ⟨fun hidle => hleft.trans (Session.afterClose_idle hidle), fun hbusy => hleft.trans (Session.afterClose_busy hbusy)⟩
  refine ⟨fun row htakes => ?_, fun hrot => ⟨?_, ?_, hclosed (.inl hrot)⟩, fun hoff => ⟨?_, hclosed (.inr hoff)⟩,
    fun i hne => ⟨?_, ?_⟩, ?_, ?_⟩
  · exact writeReg_takes htakes (compassWord_trsOpkey s hj)
  · rw [hgens, RoleKeys.written_of_rotate _ hrot]
    exact fgetD_fsetD_self _ _ _ _
  · have hopens : t.trust.opens = ferase s.trust.opens (2 + j) :=
      (congrArg RoleKeys.opens hkeys).trans (congrArg RoleKeys.opens (RoleKeys.written_of_rotate _ hrot))
    rw [hopens]
    exact (fgetD_ferase 0 s.trust.opens (2 + j) (counterOf 3 j)).trans (if_pos rfl)
  · exact openKey_disabled (by rw [hens, bitN_setBitN, if_pos rfl, hoff])
  · rw [hgens, RoleKeys.gen_written_ne _ hne]
    rfl
  · rw [hens, bitN_setBitN, if_neg hne]
  · exact (congrArg RoleKeys.root hkeys).trans s.roleKeys.written_root
  · exact writeOpkey_mem hj s v

end Sys2Proof.Machine

/-!
PROOF. The machine as a whole: every row keeps `Keeps`, so a step leaves the rest of the queue and the canonical form of the tables.
-/

namespace Sys2Proof.Machine

/-- Every row of the table leaves the queue as it finds it, and the tables in canonical form. -/
theorem keeps_of_exec_next : ∀ {c : Instr} {s t : State}, exec c s = .next t → Keeps s t
  | .frameStart _, _, _, h => execFrameStart_keeps h
  | .oversizeDiscard _, _, _, h => execOversizeDiscard_keeps h
  | .frameEnd _ _ _ _ _, _, _, h => execFrameEnd_keeps h
  | .commandPortFrame _ _ _ _ _, _, _, h => execCommandPortFrame_keeps h
  | .portLinkChange _ _, _, _, h => execPortLinkChange_keeps h
  | .portEnable _, _, _, h => execPortEnable_keeps h
  | .parseAccept _, _, _, h => execParseAccept_keeps h
  | .flowKeyComplete _, _, _, h => execFlowKeyComplete_keeps h
  | .prefetchLand _, _, _, h => execPrefetchLand_keeps h
  | .flowLookupAnswer _ _ _, _, _, h => execFlowLookupAnswer_keeps h
  | .filterExpiry _, _, _, h => execFilterExpiry_keeps h
  | .flowRecordEnqueue _, _, _, h => execFlowRecordEnqueue_keeps h
  | .firstPassEntry _, _, _, h => execFirstPassEntry_keeps h
  | .t2Admit _, _, _, h => execT2Admit_keeps h
  | .passEnd _ _, _, _, h => execPassEnd_keeps h
  | .pinnedWriteApply _, _, _, h => execPinnedWriteApply_keeps h
  | .groveEntry _, _, _, h => execGroveEntry_keeps h
  | .groveVerdict _ _, _, _, h => execGroveVerdict_keeps h
  | .tokenDispatch _, _, _, h => execTokenDispatch_keeps h
  | .verdictRead _, _, _, h => execVerdictRead_keeps h
  | .deadlineTest _ _, _, _, h => execDeadlineTest_keeps h
  | .secondPassEntry _, _, _, h => execSecondPassEntry_keeps h
  | .egress _, _, _, h => execEgress_keeps h
  | .completionSend _, _, _, h => execCompletionSend_keeps h
  | .recordSend _, _, _, h => execRecordSend_keeps h
  | .nop _, _, _, h => execNop_keeps h
  | .sessionOpen _, _, _, h => execSessionOpen_keeps h
  | .sessionClaim _, _, _, h => execSessionClaim_keeps h
  | .sessionClose _, _, _, h => execSessionClose_keeps h
  | .sessionTimeout _, _, _, h => execSessionTimeout_keeps h
  | .stateGet _, _, _, h => execStateGet_keeps h
  | .regRead _, _, _, h => execRegRead_keeps h
  | .regWrite _, _, _, h => execRegWrite_keeps h
  | .lock _ _, _, _, h => execLock_keeps h
  | .memRead _, _, _, h => execMemRead_keeps h
  | .memWrite _, _, _, h => execMemWrite_keeps h
  | .start _, _, _, h => execStart_keeps h
  | .drain _, _, _, h => execDrain_keeps h
  | .drainComplete, _, _, h => execDrainComplete_keeps h
  | .stop _, _, _, h => execStop_keeps h
  | .resume _, _, _, h => execResume_keeps h
  | .maintEnter _, _, _, h => execMaintEnter_keeps h
  | .maintExit _, _, _, h => execMaintExit_keeps h
  | .reset _, _, _, h => execReset_keeps h
  | .moduleReset _, _, _, h => execModuleReset_keeps h
  | .modeSet _, _, _, h => execModeSet_keeps h
  | .modeTakesEffect _, _, _, h => execModeTakesEffect_keeps h
  | .modeGet _, _, _, h => execModeGet_keeps h
  | .subscribe _, _, _, h => execSubscribe_keeps h
  | .ruleDefine _, _, _, h => execRuleDefine_keeps h
  | .ruleInsert _, _, _, h => execRuleInsert_keeps h
  | .ruleDelete _, _, _, h => execRuleDelete_keeps h
  | .ruleSetDefault _, _, _, h => execRuleSetDefault_keeps h
  | .ruleUndefine _, _, _, h => execRuleUndefine_keeps h
  | .ruleSwap _, _, _, h => execRuleSwap_keeps h
  | .flowRead _, _, _, h => execFlowRead_keeps h
  | .flowDelete _, _, _, h => execFlowDelete_keeps h
  | .run _, _, _, h => execRun_keeps h
  | .slotRead _, _, _, h => execSlotRead_keeps h
  | .slotRelease _, _, _, h => execSlotRelease_keeps h
  | .cancelComplete _, _, _, h => execCancelComplete_keeps h
  | .slotTtlExpiry _, _, _, h => execSlotTtlExpiry_keeps h
  | .unknownOpcode _, _, _, h => execUnknownOpcode_keeps h
  | .imageBegin _, _, _, h => execImageBegin_keeps h
  | .imageData _ _, _, _, h => execImageData_keeps h
  | .imageFinish _, _, _, h => execImageFinish_keeps h
  | .imageDelete _, _, _, h => execImageDelete_keeps h
  | .activateGrove _, _, _, h => execActivateGrove_keeps h
  | .activateTier2 _, _, _, h => execActivateTier2_keeps h
  | .activateTier3 _, _, _, h => execActivateTier3_keeps h
  | .activateUnload _, _, _, h => execActivateUnload_keeps h
  | .unloadComplete _, _, _, h => execUnloadComplete_keeps h
  | .gateRelease _ _, _, _, h => execGateRelease_keeps h
  | .firmwareBegin _, _, _, h => execFirmwareBegin_keeps h
  | .firmwareData _ _, _, _, h => execFirmwareData_keeps h
  | .firmwareFinish _, _, _, h => execFirmwareFinish_keeps h
  | .firmwareActivate _, _, _, h => execFirmwareActivate_keeps h
  | .flashRead _ _, _, _, h => execFlashRead_keeps h
  | .flashWrite _ _, _, _, h => execFlashWrite_keeps h
  | .flashErase _, _, _, h => execFlashErase_keeps h
  | .attestQuote _, _, _, h => execAttestQuote_keeps h
  | .auditRead _, _, _, h => execAuditRead_keeps h
  | .counterRead _, _, _, h => execCounterRead_keeps h
  | .traceEnable _, _, _, h => execTraceEnable_keeps h
  | .traceDisable _, _, _, h => execTraceDisable_keeps h
  | .traceMarker _, _, _, h => execTraceMarker_keeps h
  | .scanOut _, _, _, h => execScanOut_keeps h
  | .spanAttach _, _, _, h => execSpanAttach_keeps h
  | .spanEpoch _, _, _, h => execSpanEpoch_keeps h
  | .spanDetach _, _, _, h => execSpanDetach_keeps h
  | .spanQuery _, _, _, h => execSpanQuery_keeps h
  | .appLoad _, _, _, h => execAppLoad_keeps h
  | .appUnload _, _, _, h => execAppUnload_keeps h
  | .powerUp _, _, _, h => execPowerUp_keeps h
  | .resetRelease, _, _, h => execResetRelease_keeps h
  | .secureBoot, _, _, h => execSecureBoot_keeps h
  | .inputRange _, _, _, h => execInputRange_keeps h
  | .powerGoodLoss _, _, _, h => execPowerGoodLoss_keeps h
  | .phaseShed _, _, _, h => execPhaseShed_keeps h
  | .capControl _ _ _, _, _, h => execCapControl_keeps h
  | .limbThrottle _ _, _, _, h => execLimbThrottle_keeps h
  | .thermalShutdown _ _, _, _, h => execThermalShutdown_keeps h
  | .hbmThermal _ _, _, _, h => execHbmThermal_keeps h
  | .readVin, _, _, h => execReadVin_keeps h
  | .readIin, _, _, h => execReadIin_keeps h
  | .readTemperature1, _, _, h => execReadTemperature1_keeps h
  | .readPin, _, _, h => execReadPin_keeps h
  | .extest _, _, _, h => execExtest_keeps h
  | .idcode, _, _, h => execIdcode_keeps h
  | .samplePreload _, _, _, h => execSamplePreload_keeps h
  | .scanRead _, _, _, h => execScanRead_keeps h
  | .bypass _ _, _, _, h => execBypass_keeps h
  | .openRetry _, _, _, h => execOpenRetry_keeps h
  | .portOpen _ _ _, _, _, h => execPortOpen_keeps h
  | .portPush _ _ _ _ _, _, _, h => execPortPush_keeps h
  | .portCommit _ _, _, _, h => execPortCommit_keeps h
  | .portAbort _ _, _, _, h => execPortAbort_keeps h
  | .portRead _ _ _ _, _, _, h => execPortRead_keeps h
  | .portMark _ _, _, _, h => execPortMark_keeps h
  | .portRewind _ _, _, _, h => execPortRewind_keeps h
  | .portRelease _ _, _, _, h => execPortRelease_keeps h
  | .flush _, _, _, h => execFlush_keeps h
  | .heartwoodScrub _ _, _, _, h => execHeartwoodScrub_keeps h
  | .lockRead _ _ _ _, _, _, h => execLockRead_keeps h
  | .flowDmaRead _ _ _, _, _, h => execFlowDmaRead_keeps h
  | .writeSlot _ _ _ _ _ _ _ _, _, _, h => execWriteSlot_keeps h
  | .publish _ _ _ _ _, _, _, h => execPublish_keeps h
  | .invalidate _ _ _ _ _, _, _, h => execInvalidate_keeps h
  | .unlock _ _ _ _ _ _ _, _, _, h => execUnlock_keeps h
  | .leaseExpiry _, _, _, h => execLeaseExpiry_keeps h
  | .agingVisit _ _, _, _, h => execAgingVisit_keeps h
  | .shadowCompare _ _, _, _, h => execShadowCompare_keeps h
  | .routeWrite _ _, _, _, h => execRouteWrite_keeps h
  | .groveScrub _ _, _, _, h => execGroveScrub_keeps h
  | .writeLeaf _ _ _ _, _, _, h => execWriteLeaf_keeps h
  | .writeWord _ _ _, _, _, h => execWriteWord_keeps h
  | .arm _ _ _, _, _, h => execArm_keeps h
  | .tendReady, _, _, h => execTendReady_keeps h
  | .tendingBoundary, _, _, h => execTendingBoundary_keeps h
  | .watermark _, _, _, h => execWatermark_keeps h
  | .wAdd _ _, _, _, h => execWAdd_keeps h
  | .wSub _ _, _, _, h => execWSub_keeps h
  | .wAnd _ _, _, _, h => execWAnd_keeps h
  | .wOr _ _, _, _, h => execWOr_keeps h
  | .wXor _ _, _, _, h => execWXor_keeps h
  | .wShl _ _, _, _, h => execWShl_keeps h
  | .wShr _ _, _, _, h => execWShr_keeps h
  | .wSar _ _, _, _, h => execWSar_keeps h
  | .wMin _ _, _, _, h => execWMin_keeps h
  | .wMax _ _, _, _, h => execWMax_keeps h
  | .wMinu _ _, _, _, h => execWMinu_keeps h
  | .wMaxu _ _, _, _, h => execWMaxu_keeps h
  | .wClz _ _, _, _, h => execWClz_keeps h
  | .wPopc _ _, _, _, h => execWPopc_keeps h
  | .wSel _ _, _, _, h => execWSel_keeps h
  | .wMul _ _, _, _, h => execWMul_keeps h
  | .wMulh _ _, _, _, h => execWMulh_keeps h
  | .wMulhu _ _, _, _, h => execWMulhu_keeps h
  | .wDiv _ _, _, _, h => execWDiv_keeps h
  | .wDivu _ _, _, _, h => execWDivu_keeps h
  | .wRem _ _, _, _, h => execWRem_keeps h
  | .wRemu _ _, _, _, h => execWRemu_keeps h
  | .wLi _ _, _, _, h => execWLi_keeps h
  | .wLui _ _, _, _, h => execWLui_keeps h
  | .wCeq _ _, _, _, h => execWCeq_keeps h
  | .wCne _ _, _, _, h => execWCne_keeps h
  | .wClt _ _, _, _, h => execWClt_keeps h
  | .wCltu _ _, _, _, h => execWCltu_keeps h
  | .wCle _ _, _, _, h => execWCle_keeps h
  | .wCleu _ _, _, _, h => execWCleu_keeps h
  | .wPand _ _, _, _, h => execWPand_keeps h
  | .wPor _ _, _, _, h => execWPor_keeps h
  | .wPxor _ _, _, _, h => execWPxor_keeps h
  | .wPandn _ _, _, _, h => execWPandn_keeps h
  | .wPfirst _ _, _, _, h => execWPfirst_keeps h
  | .wLd8u _ _, _, _, h => execWLd8u_keeps h
  | .wLd16u _ _, _, _, h => execWLd16u_keeps h
  | .wLd32u _ _, _, _, h => execWLd32u_keeps h
  | .wLd64 _ _, _, _, h => execWLd64_keeps h
  | .wLd8s _ _, _, _, h => execWLd8s_keeps h
  | .wLd16s _ _, _, _, h => execWLd16s_keeps h
  | .wLd32s _ _, _, _, h => execWLd32s_keeps h
  | .wSt8 _ _, _, _, h => execWSt8_keeps h
  | .wSt16 _ _, _, _, h => execWSt16_keeps h
  | .wSt32 _ _, _, _, h => execWSt32_keeps h
  | .wSt64 _ _, _, _, h => execWSt64_keeps h
  | .loadComplete _ _ _, _, _, h => execLoadComplete_keeps h
  | .wVadd _ _, _, _, h => execWVadd_keeps h
  | .wVsub _ _, _, _, h => execWVsub_keeps h
  | .wVmul _ _, _, _, h => execWVmul_keeps h
  | .wVfma _ _, _, _, h => execWVfma_keeps h
  | .wVmin _ _, _, _, h => execWVmin_keeps h
  | .wVmax _ _, _, _, h => execWVmax_keeps h
  | .wVabs _ _, _, _, h => execWVabs_keeps h
  | .wVneg _ _, _, _, h => execWVneg_keeps h
  | .wVand _ _, _, _, h => execWVand_keeps h
  | .wVor _ _, _, _, h => execWVor_keeps h
  | .wVxor _ _, _, _, h => execWVxor_keeps h
  | .wVshl _ _, _, _, h => execWVshl_keeps h
  | .wVshr _ _, _, _, h => execWVshr_keeps h
  | .wVsar _ _, _, _, h => execWVsar_keeps h
  | .wVceq _ _, _, _, h => execWVceq_keeps h
  | .wVclt _ _, _, _, h => execWVclt_keeps h
  | .wVcle _ _, _, _, h => execWVcle_keeps h
  | .wVsel _ _, _, _, h => execWVsel_keeps h
  | .wVcvt _ _, _, _, h => execWVcvt_keeps h
  | .wVbcast _ _, _, _, h => execWVbcast_keeps h
  | .wVext _ _, _, _, h => execWVext_keeps h
  | .wVins _ _, _, _, h => execWVins_keeps h
  | .wVperm _ _, _, _, h => execWVperm_keeps h
  | .wVrsum _ _, _, _, h => execWVrsum_keeps h
  | .wVrmax _ _, _, _, h => execWVrmax_keeps h
  | .wVrmin _ _, _, _, h => execWVrmin_keeps h
  | .wVexp2 _ _, _, _, h => execWVexp2_keeps h
  | .wVlog2 _ _, _, _, h => execWVlog2_keeps h
  | .wVrcp _ _, _, _, h => execWVrcp_keeps h
  | .wVrsqrt _ _, _, _, h => execWVrsqrt_keeps h
  | .wVtanh _ _, _, _, h => execWVtanh_keeps h
  | .wVsigm _ _, _, _, h => execWVsigm_keeps h
  | .wVld _ _, _, _, h => execWVld_keeps h
  | .wVst _ _, _, _, h => execWVst_keeps h
  | .wMshape _ _, _, _, h => execWMshape_keeps h
  | .wMlw _ _, _, _, h => execWMlw_keeps h
  | .wMmb _ _, _, _, h => execWMmb_keeps h
  | .wMms _ _, _, _, h => execWMms_keeps h
  | .wMew _ _, _, _, h => execWMew_keeps h
  | .wMst _ _, _, _, h => execWMst_keeps h
  | .wMla _ _, _, _, h => execWMla_keeps h
  | .wMzero _ _, _, _, h => execWMzero_keeps h
  | .wMxwait _ _, _, _, h => execWMxwait_keeps h
  | .wMxtest _ _, _, _, h => execWMxtest_keeps h
  | .wMxclr _ _, _, _, h => execWMxclr_keeps h
  | .passCheck _ _ _ _, _, _, h => execPassCheck_keeps h
  | .recomputation _ _ _ _, _, _, h => execRecomputation_keeps h
  | .spareRecomputation _ _ _ _, _, _, h => execSpareRecomputation_keeps h
  | .retirementRecordWrite, _, _, h => execRetirementRecordWrite_keeps h
  | .bistStart _ _, _, _, h => execBistStart_keeps h
  | .bistResult _ _ _, _, _, h => execBistResult_keeps h
  | .bistOverdue _ _, _, _, h => execBistOverdue_keeps h
  | .bistRequest _, _, _, h => execBistRequest_keeps h
  | .wMcopy _ _, _, _, h => execWMcopy_keeps h
  | .wMtrans _ _, _, _, h => execWMtrans_keeps h
  | .wMgather _ _, _, _, h => execWMgather_keeps h
  | .wMscatter _ _, _, _, h => execWMscatter_keeps h
  | .wMfill _ _, _, _, h => execWMfill_keeps h
  | .wMput _ _ _, _, _, h => execWMput_keeps h
  | .wMget _ _ _, _, _, h => execWMget_keeps h
  | .wMwait _ _, _, _, h => execWMwait_keeps h
  | .wMtest _ _, _, _, h => execWMtest_keeps h
  | .wTld _ _, _, _, h => execWTld_keeps h
  | .wTst _ _, _, _, h => execWTst_keeps h
  | .wTmov _ _, _, _, h => execWTmov_keeps h
  | .wTaddb _ _, _, _, h => execWTaddb_keeps h
  | .transferEnd _ _ _, _, _, h => execTransferEnd_keeps h
  | .wBr _ _, _, _, h => execWBr_keeps h
  | .wJr _ _, _, _, h => execWJr_keeps h
  | .wCall _ _, _, _, h => execWCall_keeps h
  | .wCallr _ _, _, _, h => execWCallr_keeps h
  | .wLoop _ _, _, _, h => execWLoop_keeps h
  | .wExit _ _, _, _, h => execWExit_keeps h
  | .wTrap _ _, _, _, h => execWTrap_keeps h
  | .wBreak _ _, _, _, h => execWBreak_keeps h
  | .wFence _ _, _, _, h => execWFence_keeps h
  | .wIfence _ _, _, _, h => execWIfence_keeps h
  | .wCrd _ _, _, _, h => execWCrd_keeps h
  | .wCwr _ _, _, _, h => execWCwr_keeps h
  | .wSettag _ _, _, _, h => execWSettag_keeps h
  | .wClaim _ _, _, _, h => execWClaim_keeps h
  | .wRelease _ _, _, _, h => execWRelease_keeps h
  | .claimGrant _, _, _, h => execClaimGrant_keeps h
  | .wQsel _ _, _, _, h => execWQsel_keeps h
  | .wQopen _ _, _, _, h => execWQopen_keeps h
  | .wQpush _ _, _, _, h => execWQpush_keeps h
  | .wQpushv _ _, _, _, h => execWQpushv_keeps h
  | .wQcommit _ _, _, _, h => execWQcommit_keeps h
  | .wQabort _ _, _, _, h => execWQabort_keeps h
  | .wQread _ _, _, _, h => execWQread_keeps h
  | .wQreadv _ _, _, _, h => execWQreadv_keeps h
  | .wQmark _ _, _, _, h => execWQmark_keeps h
  | .wQrewind _ _, _, _, h => execWQrewind_keeps h
  | .wQrelease _ _, _, _, h => execWQrelease_keeps h
  | .runAheadEntry _ _ _, _, _, h => execRunAheadEntry_keeps h
  | .runAheadExit _ _, _, _, h => execRunAheadExit_keeps h
  | .quantumExpiry _ _, _, _, h => execQuantumExpiry_keeps h
  | .preemptionComplete _ _ _, _, _, h => execPreemptionComplete_keeps h
  | .restore _ _, _, _, h => execRestore_keeps h
  | .ringScrub _ _ _, _, _, h => execRingScrub_keeps h
  | .place _ _ _ _ _ _ _, _, _, h => execPlace_keeps h
  | .exportFrame _ _, _, _, h => execExportFrame_keeps h
  | .freeFrame _ _, _, _, h => execFreeFrame_keeps h
  | .evacDone _ _ _, _, _, h => execEvacDone_keeps h
  | .faultRingRd _ _, _, _, h => execFaultRingRd_keeps h
  | .retry _ _ _ _, _, _, h => execRetry_keeps h
  | .refuseXlate _ _, _, _, h => execRefuseXlate_keeps h
  | .refuseProt _ _, _, _, h => execRefuseProt_keeps h
  | .invalAddress _ _ _, _, _, h => execInvalAddress_keeps h
  | .invalContext _ _ _, _, _, h => execInvalContext_keeps h
  | .invalAll _, _, _, h => execInvalAll_keeps h
  | .invalidationComplete, _, _, h => execInvalidationComplete_keeps h
  | .refresh _, _, _, h => execRefresh_keeps h
  | .hbmScrub _ _ _, _, _, h => execHbmScrub_keeps h
  | .pcRetirement _ _ _, _, _, h => execPcRetirement_keeps h
  | .hbmRetire _ _, _, _, h => execHbmRetire_keeps h
  | .rebuildComplete _ _, _, _, h => execRebuildComplete_keeps h
  | .mirrorEnable _ _ _ _, _, _, h => execMirrorEnable_keeps h
  | .mirrorSync _ _, _, _, h => execMirrorSync_keeps h
  | .linkEnable _, _, _, h => execLinkEnable_keeps h
  | .linkTrained _ _ _, _, _, h => execLinkTrained_keeps h
  | .laneFault _ _, _, _, h => execLaneFault_keeps h
  | .retrainComplete _ _, _, _, h => execRetrainComplete_keeps h
  | .linkRetrain _, _, _, h => execLinkRetrain_keeps h
  | .linkSilence _, _, _, h => execLinkSilence_keeps h
  | .retryReq _ _, _, _, h => execRetryReq_keeps h
  | .writeReq _ _ _, _, _, h => execWriteReq_keeps h
  | .readReq _ _ _, _, _, h => execReadReq_keeps h
  | .writeRsp _ _ _, _, _, h => execWriteRsp_keeps h
  | .readRsp _ _ _, _, _, h => execReadRsp_keeps h
  | .requestTimeout _, _, _, h => execRequestTimeout_keeps h
  | .routeMove _ _, _, _, h => execRouteMove_keeps h
  | .linkDown _ _ _, _, _, h => execLinkDown_keeps h
  | .spanHalt _ _, _, _, h => execSpanHalt_keeps h
  | .spanResume _ _, _, _, h => execSpanResume_keeps h
  | .prepare _ _ _ _, _, _, h => execPrepare_keeps h
  | .epochReady _ _, _, _, h => execEpochReady_keeps h
  | .epochRefuse _ _, _, _, h => execEpochRefuse_keeps h
  | .epochReadyTimeout, _, _, h => execEpochReadyTimeout_keeps h
  | .epochCommit _ _, _, _, h => execEpochCommit_keeps h
  | .epochAbort _ _, _, _, h => execEpochAbort_keeps h
  | .epochClose, _, _, h => execEpochClose_keeps h
  | .evqRd _, _, _, h => execEvqRd_keeps h
  | .kick _, _, _, h => execKick_keeps h
  | .watchdog _ _, _, _, h => execWatchdog_keeps h
  | .machineCheck _ _, _, _, h => execMachineCheck_keeps h
  | .coreRelease _, _, _, h => execCoreRelease_keeps h
  | .captureAppend _ _, _, _, h => execCaptureAppend_keeps h
  | .dieLoss _, _, _, h => execDieLoss_keeps h
  | .stripeRebuildComplete, _, _, h => execStripeRebuildComplete_keeps h
  | .flashScrub _ _ _, _, _, h => execFlashScrub_keeps h
  | .wearLevelling _ _ _ _, _, _, h => execWearLevelling_keeps h
  | .trsRelease, _, _, h => execTrsRelease_keeps h
  | .rotate _, _, _, h => execRotate_keeps h
  | .opkeyEnable _ _, _, _, h => execOpkeyEnable_keeps h
  | .save, _, _, h => execSave_keeps h
  | .factory, _, _, h => execFactory_keeps h
  | .auditDrain, _, _, h => execAuditDrain_keeps h
  | .auditSummary, _, _, h => execAuditSummary_keeps h
  | .countSend _, _, _, h => execCountSend_keeps h
  | .commandBoundary _ _, _, _, h => execCommandBoundary_keeps h
  | .pcSample _ _ _, _, _, h => execPcSample_keeps h
  | .chaifFrameSend _, _, _, h => execChaifFrameSend_keeps h
  | .traceFallbackSend, _, _, h => execTraceFallbackSend_keeps h
  | .globalStop, _, _, h => execGlobalStop_keeps h
  | .cutComplete, _, _, h => execCutComplete_keeps h
  | .dbgContinue _ _, _, _, h => execDbgContinue_keeps h
  | .dbgStep _ _, _, _, h => execDbgStep_keeps h
  | .dbgDump _ _ _, _, _, h => execDbgDump_keeps h
  | .commandPortLinkChange _ _, _, _, h => execCommandPortLinkChange_keeps h
  | .chaifLinkChange _, _, _, h => execChaifLinkChange_keeps h
  | .highSymbolErrorRate _ _, _, _, h => execHighSymbolErrorRate_keeps h
  | .flitCrcFailure _, _, _, h => execFlitCrcFailure_keeps h
  | .ackAndCredit _ _ _ _, _, _, h => execAckAndCredit_keeps h
  | .bundleCacheFill _ _, _, _, h => execBundleCacheFill_keeps h
  | .suspendedTransfer _ _ _, _, _, h => execSuspendedTransfer_keeps h

theorem tablesCanonical_iff {s : State} :
    s.tablesCanonical = true ↔ fcanon 0 s.mem = true ∧ fcanon false s.memPoison = true ∧ fsorted s.regs = true := by
  rw [State.tablesCanonical, Bool.and_eq_true, Bool.and_eq_true, and_assoc, Memory.wf]

theorem Keeps.tablesCanonical {s t : State} (hkeeps : Keeps s t) (hs : s.tablesCanonical = true) : t.tablesCanonical = true := by
  obtain ⟨-, hmem, hpoison, hregs⟩ := hkeeps
  obtain ⟨smem, spoison, sregs⟩ := tablesCanonical_iff.mp hs
  exact tablesCanonical_iff.mpr ⟨hmem smem, hpoison spoison, hregs sregs⟩

theorem step_of_pending {s : State} {c : Instr} {rest : List Instr} (hp : s.pending = c :: rest) :
    step s = exec c (s.withPending rest) := by rw [step, hp]

theorem step_of_idle {s : State} (hp : s.pending = []) : step s = .next (idle s) := by rw [step, hp]

namespace ExecKept

/-- Settles O4: the command runs on a state whose queue is the rest, and keeps the queue. -/
theorem stepTakesOnlyTheFront : Obligations.StepTakesOnlyTheFront := by
  unfold Obligations.StepTakesOnlyTheFront
  intro c rest s t hstep
  have hkeeps : Keeps (s.withPending rest) t := keeps_of_exec_next hstep
  exact hkeeps.left

/-- Settles O5: each step is a tick or a row, and both keep the canonical form. -/
theorem tablesStayCanonical : Obligations.TablesStayCanonical := by
  unfold Obligations.TablesStayCanonical
  intro s t hs hstep
  cases hp : s.pending with
  | nil =>
    rw [step_of_idle hp] at hstep
    injection hstep with heq
    exact heq ▸ (idle_keeps s (Keeps.refl s)).tablesCanonical hs
  | cons c rest =>
    rw [step_of_pending hp] at hstep
    have hrest : (s.withPending rest).tablesCanonical = true := hs
    exact (keeps_of_exec_next hstep).tablesCanonical hrest

end ExecKept

/-- Settles O1: both sides run the command on the state with the queue's rest. -/
theorem stepRunsTheFrontCommand : Obligations.StepRunsTheFrontCommand := by
  unfold Obligations.StepRunsTheFrontCommand
  intro c rest s
  exact step_of_pending (withPending_pending s (c :: rest))

/-- Settles O2: a step on an empty queue is `idle`, which is one tick. -/
theorem idleStepIsOneTick : Obligations.IdleStepIsOneTick := by
  unfold Obligations.IdleStepIsOneTick
  intro s hempty
  rw [step_of_idle hempty, idle]

/-- Settles O3: the meaning of each row is a next state, row by row. -/
theorem noCommandStopsTheMachine : Obligations.NoCommandStopsTheMachine := by
  unfold Obligations.NoCommandStopsTheMachine Completes
  intro c s
  cases c <;> exact ⟨_, rfl⟩

/-- Settles O6: no table of the reset state lists an entry, so every queue is empty and every register reads as its Reset value. -/
theorem resetState : Obligations.ResetState := by
  unfold Obligations.ResetState
  exact ⟨⟨rfl, rfl⟩, rfl, rfl, rfl, rfl, rfl, rfl, fun _ => rfl, fun _ => rfl⟩

end Sys2Proof.Machine

/-!
PROOF. A floating format reads back what it writes: a code is its sign and its magnitude, the magnitude of a finite value is the number of steps
of the format's grid below it, and every value that a code names lies on that grid, so that nothing is rounded (R335, R345).
-/

namespace Sys2Proof.Machine

namespace FFmt

variable (f : FFmt)

/-! ### The fields of a code -/

/-- The exponent field, the fraction field and the sign bit of a code. -/
def exField (code : Nat) : Nat := bitsN code f.frac f.expo
def frField (code : Nat) : Nat := code % 2 ^ f.frac
def signBit (code : Nat) : Bool := bitN code (f.width - 1)

/-- The value that a finite code's fields name (R335, R336). -/
def finite (neg : Bool) (ex fr : Nat) : FVal :=
  if ex = 0 then .fin neg fr (f.emin - f.frac) else .fin neg (2 ^ f.frac + fr) (f.emin - f.frac + (ex - 1 : Nat))

theorem width_eq : f.width = f.frac + f.expo + 1 := by cases f <;> rfl

theorem exField_lt (code : Nat) : f.exField code < 2 ^ f.expo := Nat.mod_lt _ (Nat.two_pow_pos _)

theorem frField_lt (code : Nat) : f.frField code < 2 ^ f.frac := Nat.mod_lt _ (Nat.two_pow_pos _)

/-- A code is its sign and the magnitude code of its fields. -/
theorem sign_fields {code : Nat} (hcode : code < 2 ^ f.width) :
    f.sign (f.signBit code) (f.exField code * 2 ^ f.frac + f.frField code) = code := by
  have htop : b2n (f.signBit code) = code / 2 ^ (f.frac + f.expo) := by
    have hlt : code / 2 ^ (f.frac + f.expo) < 2 := by
      rw [Nat.div_lt_iff_lt_mul (Nat.two_pow_pos _), ← pow_succ', ← f.width_eq]
      exact hcode
    have hbit : f.signBit code = decide (code / 2 ^ (f.frac + f.expo) = 1) := by
      rw [signBit, bitN, f.width_eq, Nat.add_sub_cancel, Nat.testBit_eq_decide_div_mod_eq, Nat.mod_eq_of_lt hlt]
    rw [hbit, b2n]
    interval_cases code / 2 ^ (f.frac + f.expo) <;> rfl
  have hlow : f.exField code * 2 ^ f.frac + f.frField code = code % 2 ^ (f.frac + f.expo) := by
    rw [exField, frField, bitsN, Nat.shiftRight_eq_div_pow, pow_add, Nat.mod_mul]
    ring
  rw [sign, htop, hlow, f.width_eq, Nat.add_sub_cancel, mul_comm]
  exact Nat.div_add_mod code _

/-! ### A value on the grid is not rounded -/

theorem roundNE_self (m : Nat) (e : Int) : roundNE m e e = m := by
  simp [roundNE, splitAt]

theorem encode_of_grid {neg : Bool} {m : Nat} {e : Int} (hm : m ≠ 0) (hgrid : f.quantum m e = e) (hmax : f.codeAt m e m ≤ f.maxCode) :
    f.encode (.fin neg m e) = f.sign neg (f.codeAt m e m) := by
  simp only [encode, if_neg hm, hgrid, roundNE_self, if_neg (Nat.not_lt.mpr hmax)]

/-- A subnormal: its magnitude code is its fraction. -/
theorem encode_subnormal {neg : Bool} {m : Nat} (hm : m ≠ 0) (hlt : m < 2 ^ f.frac) (hmax : m ≤ f.maxCode) :
    f.encode (.fin neg m (f.emin - f.frac)) = f.sign neg m := by
  have hlog : Nat.log2 m < f.frac := (Nat.log2_lt hm).mpr hlt
  have hexp : max (expOf m (f.emin - f.frac)) f.emin = f.emin := max_eq_right (by rw [expOf]; omega)
  have hcode : f.codeAt m (f.emin - f.frac) m = m := by simp [codeAt, hexp]
  rw [f.encode_of_grid hm (by rw [quantum, hexp]) (by rwa [hcode]), hcode]

/-- A normal number: its magnitude code is its exponent field before its fraction. -/
theorem encode_normal {neg : Bool} {fr k : Nat} (hfr : fr < 2 ^ f.frac) (hmax : (k + 1) * 2 ^ f.frac + fr ≤ f.maxCode) :
    f.encode (.fin neg (2 ^ f.frac + fr) (f.emin - f.frac + k)) = f.sign neg ((k + 1) * 2 ^ f.frac + fr) := by
  have hm : 2 ^ f.frac + fr ≠ 0 := by have := Nat.two_pow_pos f.frac; omega
  have hlog : Nat.log2 (2 ^ f.frac + fr) = f.frac := by
    rw [Nat.log2_eq_iff hm, pow_succ]
    omega
  have hexp : max (expOf (2 ^ f.frac + fr) (f.emin - f.frac + k)) f.emin = f.emin + k := by
    rw [expOf, hlog]
    omega
  have hcode : f.codeAt (2 ^ f.frac + fr) (f.emin - f.frac + k) (2 ^ f.frac + fr) = (k + 1) * 2 ^ f.frac + fr := by
    simp only [codeAt, hexp, add_sub_cancel_left, Int.toNat_natCast]
    ring
  rw [f.encode_of_grid hm (by rw [quantum, hexp]; ring) (by rwa [hcode]), hcode]

theorem encode_finite {neg : Bool} {ex fr : Nat} (hfr : fr < 2 ^ f.frac) (hmax : ex * 2 ^ f.frac + fr ≤ f.maxCode) :
    f.encode (f.finite neg ex fr) = f.sign neg (ex * 2 ^ f.frac + fr) := by
  cases ex with
  | zero =>
    rw [zero_mul, zero_add] at hmax ⊢
    rw [finite, if_pos rfl]
    by_cases hzero : fr = 0
    · simp [encode, hzero]
    · exact f.encode_subnormal hzero hfr hmax
  | succ k =>
    rw [finite, if_neg k.succ_ne_zero, Nat.add_sub_cancel]
    exact f.encode_normal hfr hmax

/-! ### What a code can name -/

/-- The value that the fields name, the top exponent's included. -/
def named (neg : Bool) (ex fr : Nat) : FVal :=
  match f with
  | .e2m1 => f.finite neg ex fr
  | .e4m3 => if ex = 2 ^ f.expo - 1 ∧ fr = 7 then .nan else f.finite neg ex fr
  | _ => if ex = 2 ^ f.expo - 1 then (if fr = 0 then .inf neg else .nan) else f.finite neg ex fr

theorem decode_eq (code : Nat) : f.decode code = f.named (f.signBit code) (f.exField code) (f.frField code) := by
  cases f <;> rfl

theorem named_top (neg : Bool) (fr : Nat) :
    f.named neg (2 ^ f.expo - 1) fr = match f with
      | .e2m1 => f.finite neg (2 ^ f.expo - 1) fr
      | .e4m3 => if fr = 7 then .nan else f.finite neg (2 ^ f.expo - 1) fr
      | _ => if fr = 0 then .inf neg else .nan := by
  cases f <;> simp [named]

theorem named_of_ne_top {ex : Nat} (hlow : ex ≠ 2 ^ f.expo - 1) (neg : Bool) (fr : Nat) : f.named neg ex fr = f.finite neg ex fr := by
  cases f <;> simp [named, hlow]

/-- Fields name a NaN, or an infinity and its magnitude is the one that infinities take, or a finite value not above the largest. -/
theorem named_cases {neg : Bool} {ex fr : Nat} (hex : ex < 2 ^ f.expo) (hfr : fr < 2 ^ f.frac) :
    f.named neg ex fr = .nan ∨
    (f.named neg ex fr = .inf neg ∧ ex * 2 ^ f.frac + fr = f.infCode) ∨
    (f.named neg ex fr = f.finite neg ex fr ∧ ex * 2 ^ f.frac + fr ≤ f.maxCode) := by
  by_cases htop : ex = 2 ^ f.expo - 1
  · subst htop
    rw [named_top]
    cases f <;> dsimp only [expo, frac, infCode, maxCode] at hfr ⊢
    case e2m1 => exact .inr (.inr ⟨rfl, by omega⟩)
    case e4m3 =>
      split
      · exact .inl rfl
      · exact .inr (.inr ⟨rfl, by omega⟩)
    all_goals
      split
      · exact .inr (.inl ⟨rfl, by omega⟩)
      · exact .inl rfl
  · refine .inr (.inr ⟨f.named_of_ne_top htop neg fr, ?_⟩)
    cases f <;> dsimp only [expo, frac, maxCode] at htop hex hfr ⊢ <;> omega

end FFmt

/-- Settles O53: a code that is no NaN names an infinity or a value on the format's grid, whose magnitude code is the code's own. -/
theorem numberFormatsRoundTrip : Obligations.NumberFormatsRoundTrip := by
  unfold Obligations.NumberFormatsRoundTrip
  intro f code hcode
  refine ⟨fun hnum => ?_, fun hnan => ?_⟩
  · rw [f.decode_eq] at hnum ⊢
    rcases f.named_cases (f.exField_lt code) (f.frField_lt code) with hnan | ⟨hinf, hmag⟩ | ⟨hfin, hmax⟩
    · exact absurd hnan hnum
    · rw [hinf, FFmt.encode, ← hmag, f.sign_fields hcode]
    · rw [hfin, f.encode_finite (f.frField_lt code) hmax, f.sign_fields hcode]
  · rw [hnan]
    cases f <;> rfl

end Sys2Proof.Machine

/-!
PROOF. Device memory is little-endian (R18). A store writes its bytes into memory in their order, line by line; beside them it touches only the
poison marks of the granules that it reaches and counters, so which addresses are mirrored, copied or unmapped stays as it was, and a byte
outside the range reads as before.
-/

namespace Sys2Proof.Machine

/-! ### The registers that map HBM addresses -/

section Mapping

/-- The registers that say which HBM addresses are mirrored and which pseudo-channels are unmapped hold in `t` what they hold in `s`. -/
def SameMap (s t : State) : Prop :=
  ∀ st < 8, (∀ r < 8, regGet t (mkReg .hbmMir r st) = regGet s (mkReg .hbmMir r st)) ∧
    regGet t (mkReg .hbmPcState 0 st) = regGet s (mkReg .hbmPcState 0 st)

/-- No register that maps HBM addresses stands at the offset of `r`. -/
def MapsNothing (r : Reg) : Prop :=
  ∀ st < 8, (∀ i < 8, regAddr (mkReg .hbmMir i st) ≠ regAddr r) ∧ regAddr (mkReg .hbmPcState 0 st) ≠ regAddr r

variable {s t u : State}

theorem SameMap.refl (s : State) : SameMap s s := fun _ _ => ⟨fun _ _ => rfl, rfl⟩

theorem SameMap.trans (hst : SameMap s t) (htu : SameMap t u) : SameMap s u := fun st hlt =>
  ⟨fun r hr => ((htu st hlt).left r hr).trans ((hst st hlt).left r hr), (htu st hlt).right.trans (hst st hlt).right⟩

theorem SameMap.of_regs (hregs : t.regs = s.regs) : SameMap s t := by
  intro st _
  simp [regGet, hregs]

theorem SameMap.regSet {r : Reg} (hr : MapsNothing r) (v : Word) : SameMap s (regSet s r v) := fun st hlt =>
  ⟨fun i hi => regGet_regSet_ne s v ((hr st hlt).left i hi), regGet_regSet_ne s v (hr st hlt).right⟩

theorem SameMap.bumpBy {n : RegName} {i k : Nat} (hr : MapsNothing (mkReg n i k)) (by_ : Nat) : SameMap s (bumpBy s n i k by_) :=
  SameMap.regSet hr _

theorem SameMap.bumpCe {n : RegName} {i k : Nat} (hr : MapsNothing (mkReg n i k)) (by_ : Nat) : SameMap s (bumpCe s n i k by_) :=
  (SameMap.bumpBy hr by_).trans (.of_regs rfl)

/-- The mapping registers stand in the first bytes of the blocks of the eight stacks. -/
theorem MapsNothing.of_addr {r : Reg} (hr : ∀ st < 8, ∀ off < 0x80, 0x10 ≤ off → 0x04000000 + 0x10000 * st + off ≠ regAddr r) : MapsNothing r := by
  have hmir (i st : Nat) : regAddr (mkReg .hbmMir i st) = 0x04000000 + 0x10000 * st + 0x40 + 8 * i := rfl
  have hpc (st : Nat) : regAddr (mkReg .hbmPcState 0 st) = 0x04000000 + 0x10000 * st + 0x10 := rfl
  refine fun st hst => ⟨fun i hi => ?_, ?_⟩
  · rw [hmir, Nat.add_assoc]
    exact hr st hst _ (by omega) (by omega)
  · rw [hpc]
    exact hr st hst _ (by omega) (by omega)

theorem mapsNothing_rngCe : MapsNothing (mkReg .rngCe 0 0) :=
  .of_addr fun st _ off _ _ => by
    have haddr : regAddr (mkReg .rngCe 0 0) = 0x1000100 := rfl
    omega

theorem mapsNothing_hwdEccCe : MapsNothing (mkReg .hwdEccCe 0 0) :=
  .of_addr fun st _ off _ _ => by
    have haddr : regAddr (mkReg .hwdEccCe 0 0) = 0xa00100 := rfl
    omega

theorem mapsNothing_fctRingCe (k : Nat) : MapsNothing (mkReg .fctRingCe 0 k) :=
  .of_addr fun st _ off _ _ => by
    have haddr : regAddr (mkReg .fctRingCe 0 k) = 0x10000000 + 0x4000 * k + 0x220 := rfl
    omega

theorem mapsNothing_hbmCe (k : Nat) : MapsNothing (mkReg .hbmCe 0 k) :=
  .of_addr fun st _ off _ _ => by
    have haddr : regAddr (mkReg .hbmCe 0 k) = 0x04000000 + 0x10000 * k + 0x100 := rfl
    omega

theorem mapsNothing_hbmRebuilt (k : Nat) : MapsNothing (mkReg .hbmRebuilt 0 k) :=
  .of_addr fun st _ off _ _ => by
    have haddr : regAddr (mkReg .hbmRebuilt 0 k) = 0x04000000 + 0x10000 * k + 0x120 := rfl
    omega

theorem inHbm_iff {a : Nat} : inHbm a = true ↔ hbmBase ≤ a ∧ hbmStack a < 8 ∧ (a - hbmBase) % 2 ^ 36 < hbmPopulated := by
  rw [inHbm, Bool.and_eq_true, Bool.and_eq_true, decide_eq_true_eq, decide_eq_true_eq, decide_eq_true_eq, and_assoc]

theorem hbmStack_lt {a : Nat} (ha : inHbm a = true) : hbmStack a < 8 := (inHbm_iff.mp ha).right.left

theorem SameMap.mirrorAt (h : SameMap s t) {st : Nat} (hst : st < 8) (off : Nat) : mirrorAt t st off = mirrorAt s st off := by
  have hreg : ∀ r ∈ List.range 8, ∀ lo w, regF t .hbmMir r st lo w = regF s .hbmMir r st lo w := fun r hr lo w => by
    rw [regF, regN, (h st hst).left r (List.mem_range.mp hr), regF, regN]
  have hfind : (List.range 8).find? (fun r => regF t .hbmMir r st 0 1 == 1 && decide (regF t .hbmMir r st 6 15 ≤ off / 2 ^ 21) &&
        decide (off / 2 ^ 21 < regF t .hbmMir r st 6 15 + regF t .hbmMir r st 21 15)) =
      (List.range 8).find? (fun r => regF s .hbmMir r st 0 1 == 1 && decide (regF s .hbmMir r st 6 15 ≤ off / 2 ^ 21) &&
        decide (off / 2 ^ 21 < regF s .hbmMir r st 6 15 + regF s .hbmMir r st 21 15)) :=
    List.find?_congr fun r hr => by simp only [hreg r hr]
  rw [Machine.mirrorAt, Machine.mirrorAt, hfind]
  refine Option.map_congr fun r hr => ?_
  rw [hreg r (List.mem_of_find?_eq_some hr)]

theorem SameMap.mirrorOf (h : SameMap s t) (a : Nat) : mirrorOf t a = mirrorOf s a := by
  unfold Machine.mirrorOf
  split
  · next hcond => rw [h.mirrorAt (hbmStack_lt (Bool.and_eq_true_iff.mp hcond).left)]
  · rfl

theorem SameMap.pcUnmapped (h : SameMap s t) (a : Nat) : pcUnmapped t a = pcUnmapped s a := by
  cases hin : inHbm a with
  | false => simp [Machine.pcUnmapped, hin]
  | true => simp only [Machine.pcUnmapped, pcState, regF, regN, (h _ (hbmStack_lt hin)).right]

end Mapping

/-! ### A granule is mirrored, or a copy, as a whole -/

section Granules

variable (s : State) (a : Nat)

theorem mirrorAt_unit {st off off' : Nat} (hunit : off / 2 ^ 21 = off' / 2 ^ 21) : mirrorAt s st off = mirrorAt s st off' := by
  rw [mirrorAt, mirrorAt, hunit]

theorem inHbm_granule : inHbm (32 * (a / 32)) = inHbm a := by
  rw [Bool.eq_iff_iff, inHbm_iff, inHbm_iff]
  unfold hbmStack hbmBase hbmPopulated
  omega

theorem hbmStack_granule : hbmStack (32 * (a / 32)) = hbmStack a := by
  simp only [hbmStack, hbmBase]
  omega

theorem unit_granule : (32 * (a / 32) - hbmBase) % 2 ^ 36 / 2 ^ 21 = (a - hbmBase) % 2 ^ 36 / 2 ^ 21 := by
  simp only [hbmBase]
  omega

theorem mirrorOf_granule : mirrorOf s (32 * (a / 32)) = mirrorOf s a := by
  rw [mirrorOf, mirrorOf, inHbm_granule, hbmStack_granule, mirrorAt_unit s (unit_granule a)]

theorem inCopyRange_granule : inCopyRange s (32 * (a / 32)) = inCopyRange s a := by
  rw [inCopyRange, inCopyRange, inHbm_granule, hbmStack_granule, mirrorAt_unit s (unit_granule a)]

variable {s a}

/-- What lies 2³⁶ bytes above a mirrored address is in a copy range (R416). -/
theorem inCopyRange_of_mirrored (hmir : (mirrorOf s a).isSome = true) : inCopyRange s (a + 2 ^ 36) = true := by
  rw [mirrorOf] at hmir
  split at hmir
  · next hcond =>
    obtain ⟨hin, heven⟩ := Bool.and_eq_true_iff.mp hcond
    obtain ⟨hbase, hlt, hpop⟩ := inHbm_iff.mp hin
    have hpar : hbmStack a % 2 = 0 := beq_iff_eq.mp heven
    have hstack : hbmStack (a + 2 ^ 36) = hbmStack a + 1 := by unfold hbmStack hbmBase at *; omega
    have hoff : (a + 2 ^ 36 - hbmBase) % 2 ^ 36 = (a - hbmBase) % 2 ^ 36 := by unfold hbmBase at *; omega
    have hin' : inHbm (a + 2 ^ 36) = true := inHbm_iff.mpr ⟨by omega, by omega, by omega⟩
    have hodd : (hbmStack a + 1) % 2 = 1 := by omega
    rw [inCopyRange, hin', hstack, hoff, hodd, Nat.add_sub_cancel, hmir]
    rfl
  · exact absurd hmir (by simp)

end Granules

/-! ### What a store leaves beside its bytes -/

section Stores

/-- No byte of the granule `g` lies in the range `[a, a + n)`. -/
def Apart (a n g : Nat) : Prop := n = 0 ∨ 32 * g + 32 ≤ a ∨ a + n ≤ 32 * g

/-- `t` differs from `s`, in what a read delivers beside the bytes, only at granules that the range `[a, a + n)` reaches. -/
def Beside (a n : Nat) (s t : State) : Prop := SameMap s t ∧ ∀ g, Apart a n g → granuleMarked t g = granuleMarked s g

variable {s t u : State} {a n : Nat}

theorem Beside.trans (hst : Beside a n s t) (htu : Beside a n t u) : Beside a n s u :=
  ⟨hst.left.trans htu.left, fun g hg => (htu.right g hg).trans (hst.right g hg)⟩

theorem Beside.mono {b m : Nat} (h : Beside b m s t) (hlo : a ≤ b) (hhi : b + m ≤ a + n) : Beside a n s t :=
  ⟨h.left, fun g hg => h.right g (by unfold Apart at *; omega)⟩

theorem Beside.foldl {α : Type} {f : State → α → State} (l : List α) (hf : ∀ x ∈ l, ∀ t, Beside a n t (f t x)) (s : State) :
    Beside a n s (l.foldl f s) := by
  induction l generalizing s with
  | nil => exact ⟨.refl s, fun _ _ => rfl⟩
  | cons x l ih =>
    exact (hf x List.mem_cons_self s).trans (ih (fun y hy => hf y (List.mem_cons_of_mem x hy)) (f s x))

theorem fgetD_ferase_ne {α : Type} (d : α) (m : FMap α) {k j : Nat} (hne : j ≠ k) : fgetD d (ferase m k) j = fgetD d m j := by
  rw [fgetD, fget_ferase_ne m hne, fgetD]

theorem fgetD_foldl_ferase_of_notMem {α : Type} (d : α) (m : FMap α) {l : List Nat} {j : Nat} (hj : j ∉ l) :
    fgetD d (l.foldl (fun p g => ferase p g) m) j = fgetD d m j := by
  induction l generalizing m with
  | nil => rfl
  | cons k l ih =>
    obtain ⟨hk, hl⟩ := not_or.mp (mt List.mem_cons.mpr hj)
    rw [List.foldl_cons, ih _ hl, fgetD_ferase_ne d m hk]

theorem countCe_sameMap (s : State) (g : Nat) : SameMap s (countCe s g) := by
  unfold countCe
  dsimp only
  split
  · exact (SameMap.bumpBy mapsNothing_rngCe 1).trans (.bumpCe (mapsNothing_fctRingCe _) 1)
  · split
    · exact (SameMap.bumpCe (mapsNothing_hbmCe _) 1).trans (.of_regs rfl)
    · exact .bumpCe mapsNothing_hwdEccCe 1

theorem countCe_marks (s : State) (g : Nat) : (countCe s g).memPoison = s.memPoison ∧ (countCe s g).upsets = s.upsets := by
  unfold countCe
  dsimp only
  split
  · exact ⟨rfl, rfl⟩
  · split <;> exact ⟨rfl, rfl⟩

/-- Meeting an upset changes the marks of its own granule at most. -/
theorem granuleMarked_meetUpset_ne (s : State) {g j : Nat} (hne : j ≠ g) : granuleMarked (meetUpset s g) j = granuleMarked s j := by
  unfold meetUpset
  split
  · rfl
  · obtain ⟨hp, hu⟩ := countCe_marks { s with upsets := ferase s.upsets g } g
    rw [granuleMarked, hp, hu, fgetD_ferase_ne 0 s.upsets hne, granuleMarked]
  · rw [granuleMarked, fgetD_fsetD_ne false s.memPoison hne, fgetD_ferase_ne 0 s.upsets hne, granuleMarked]

theorem meetUpset_beside (s : State) {g : Nat} (hg : ¬ Apart a n g) : Beside a n s (meetUpset s g) := by
  refine ⟨?_, fun j hj => granuleMarked_meetUpset_ne s fun heq => hg (heq ▸ hj)⟩
  unfold meetUpset
  split
  · exact .refl s
  · exact (SameMap.of_regs rfl).trans (countCe_sameMap _ g)
  · exact .of_regs rfl

theorem not_apart_of_partGranule {g : Nat} (hg : g ∈ partGranules a n) : ¬ Apart a n g := by
  unfold partGranules at hg
  unfold Apart
  split at hg
  · exact absurd hg List.not_mem_nil
  · rcases List.mem_append.mp hg with hfirst | hlast
    · split at hfirst
      · exact absurd hfirst List.not_mem_nil
      · rw [List.mem_singleton.mp hfirst]
        omega
    · split at hlast
      · exact absurd hlast List.not_mem_nil
      · rw [List.mem_singleton.mp hlast]
        omega

theorem not_apart_of_wholeGranule {g : Nat} (hg : g ∈ wholeGranules a n) : ¬ Apart a n g := by
  simp only [wholeGranules, rangeFrom, ceilDiv, List.mem_map, List.mem_range] at hg
  obtain ⟨i, hi, rfl⟩ := hg
  unfold Apart
  omega

theorem storeAt_beside (s : State) (a : Nat) (bs : Bytes) : Beside a bs.length s (storeAt s a bs) := by
  have hmet : Beside a bs.length s ((partGranules a bs.length).foldl meetUpset s) :=
    Beside.foldl _ (fun g hg t => meetUpset_beside t (not_apart_of_partGranule hg)) s
  refine hmet.trans ⟨.of_regs rfl, fun g hg => ?_⟩
  have hmem : g ∉ wholeGranules a bs.length := fun hmem => not_apart_of_wholeGranule hmem hg
  rw [granuleMarked, granuleMarked]
  simp only [storeAt, clearGranules, clearUpsets, fgetD_foldl_ferase_of_notMem _ _ hmem]

theorem rebuildLine_beside (s : State) (b : Nat) : Beside a n s (rebuildLine s b) := by
  unfold rebuildLine
  dsimp only
  split
  · exact ⟨(SameMap.of_regs rfl).trans (.bumpBy (mapsNothing_hbmRebuilt _) 1), fun _ _ => rfl⟩
  · exact ⟨.refl s, fun _ _ => rfl⟩

end Stores

/-! ### A store line by line -/

section Lines

variable {s : State} {a : Nat} {bs : Bytes}

/-- Every address of the range is mapped, not mirrored and outside Heartwood. -/
def Plain (s : State) (a n : Nat) : Prop :=
  ∀ k < n, mirrorOf s (a + k) = none ∧ pcUnmapped s (a + k) = false ∧ inHeart (a + k) = false

theorem Plain.of_sameMap {t : State} {n : Nat} (h : Plain s a n) (hmap : SameMap s t) : Plain t a n := fun k hk => by
  rw [hmap.mirrorOf, hmap.pcUnmapped]
  exact h k hk

theorem Plain.drop {n : Nat} (h : Plain s a n) (m : Nat) : Plain s (a + m) (n - m) := fun k hk => by
  rw [Nat.add_assoc]
  exact h (m + k) (by omega)

theorem lineWr_of_plain (hplain : Plain s a bs.length) (hne : bs ≠ []) :
    (lineWr s a bs).mem = memPut s.mem a bs ∧ Beside a bs.length s (lineWr s a bs) := by
  obtain ⟨hmir, hmapped, hheart⟩ := hplain 0 (List.length_pos_iff.mpr hne)
  rw [Nat.add_zero] at hmir hmapped hheart
  rw [lineWr_plain bs hheart hmir hmapped, rebuildLine_mem, storeAt_mem]
  exact ⟨rfl, (storeAt_beside s a bs).trans (rebuildLine_beside _ a)⟩

theorem memPut_append (m : FMap Byte) (a : Nat) (bs cs : Bytes) : memPut m a (bs ++ cs) = memPut (memPut m a bs) (a + bs.length) cs := by
  induction bs generalizing m a with
  | nil => rfl
  | cons b t ih =>
    rw [List.cons_append, memPut, ih, memPut, List.length_cons]
    congr 1
    omega

theorem memWrLines_of_plain {fuel : Nat} (hplain : Plain s a bs.length) (hfuel : a % 256 + bs.length ≤ 256 * fuel) :
    (memWrLines s a bs fuel).mem = memPut s.mem a bs ∧ Beside a bs.length s (memWrLines s a bs fuel) := by
  induction fuel generalizing s a bs with
  | zero =>
    have hnil : bs = [] := List.length_eq_zero_iff.mp (by omega)
    subst hnil
    exact ⟨rfl, .refl s, fun _ _ => rfl⟩
  | succ fuel ih =>
    rw [memWrLines]
    dsimp only
    by_cases hnil : bs = []
    · subst hnil
      exact ⟨rfl, .refl s, fun _ _ => rfl⟩
    · have hpos : 0 < bs.length := List.length_pos_iff.mpr hnil
      rw [if_neg (by simpa using hnil)]
      have hlen : (bs.take (256 - a % 256)).length = min (256 - a % 256) bs.length := List.length_take
      have hline := lineWr_of_plain (s := s) (a := a) (bs := bs.take (256 - a % 256))
        (fun k hk => hplain k (by omega)) (List.length_pos_iff.mp (by omega))
      obtain ⟨hmem, hbeside⟩ := hline
      have hrest : Plain (lineWr s a (bs.take (256 - a % 256))) (a + (256 - a % 256)) (bs.drop (256 - a % 256)).length := by
        rw [List.length_drop]
        exact (hplain.drop _).of_sameMap hbeside.left
      have hdrop : (bs.drop (256 - a % 256)).length = bs.length - (256 - a % 256) := List.length_drop
      obtain ⟨hmem', hbeside'⟩ := ih hrest (by omega)
      refine ⟨?_, (hbeside.mono (Nat.le_refl a) (by omega)).trans ?_⟩
      · rw [hmem', hmem]
        by_cases hlong : bs.length ≤ 256 - a % 256
        · rw [List.drop_of_length_le hlong, List.take_of_length_le hlong]
          rfl
        · conv_rhs => rw [← List.take_append_drop (256 - a % 256) bs, memPut_append]
          rw [hlen, Nat.min_eq_left (by omega)]
      · by_cases hlong : bs.length ≤ 256 - a % 256
        · rw [List.drop_of_length_le hlong] at hbeside' ⊢
          cases fuel with
          | zero => exact ⟨.refl _, fun _ _ => rfl⟩
          | succ fuel => exact ⟨.refl _, fun _ _ => rfl⟩
        · exact hbeside'.mono (by omega) (by omega)

theorem countHbm_mem (s : State) (a n : Nat) : (countHbm s a n).mem = s.mem := by
  unfold countHbm
  split <;> rfl

theorem countHbm_beside (s : State) (a n : Nat) {b m : Nat} : Beside b m s (countHbm s a n) := by
  unfold countHbm
  split
  · exact ⟨.of_regs rfl, fun _ _ => rfl⟩
  · exact ⟨.refl s, fun _ _ => rfl⟩

theorem memWr_of_plain (hplain : Plain s a bs.length) :
    (memWr s a bs).mem = memPut s.mem a bs ∧ Beside a bs.length s (memWr s a bs) := by
  have hcount : Beside a bs.length s (countHbm s a bs.length) := countHbm_beside s a bs.length
  obtain ⟨hmem, hbeside⟩ := memWrLines_of_plain (fuel := bs.length / 256 + 2) (hplain.of_sameMap hcount.left) (by omega)
  rw [countHbm_mem] at hmem
  exact ⟨hmem, hcount.trans hbeside⟩

end Lines

/-! ### Reading back -/

section Reads

variable {s t : State} {a n : Nat}

theorem getD_leBytes (n x i : Nat) (hi : i < n) : (leBytes n x).getD i 0 = byteOf (x / 256 ^ i) := by
  induction n generalizing x i with
  | zero => exact absurd hi (Nat.not_lt_zero i)
  | succ n ih =>
    cases i with
    | zero => simp [leBytes]
    | succ i => rw [leBytes, List.getD_cons_succ, ih _ _ (by omega), Nat.div_div_eq_div_mul, pow_succ']

theorem copyServes_of_unmirrored {x : Nat} (hmir : mirrorOf s x ≠ some true) : copyServes s (x / 32) = false := by
  rw [copyServes, mirrorOf_granule, beq_eq_false_iff_ne.mpr hmir, Bool.false_and]

/-- A granule of which an address holds what no address of the range does lies apart from the range. -/
theorem apart_of_differs {p : Nat → Bool} (hwhole : ∀ x, p (32 * (x / 32)) = p x) {g : Nat} (hp : p (32 * g) = true)
    (hrange : ∀ k < n, p (a + k) = false) : Apart a n g := by
  by_contra hmeets
  unfold Apart at hmeets
  have hk : ∃ k < n, (a + k) / 32 = g := ⟨32 * g - a, by omega, by omega⟩
  obtain ⟨k, hk, hg⟩ := hk
  rw [← hg, hwhole, hrange k hk] at hp
  exact Bool.false_ne_true hp

/-- A byte outside the range of a store that reaches no mirrored address and no copy reads as before. -/
theorem memRd_of_beside {x : Nat} (hmir : ∀ k < n, mirrorOf s (a + k) = none) (hcopy : ∀ k < n, inCopyRange s (a + k) = false)
    (hbeside : Beside a n s t) (hmem : ∀ y, y < a ∨ a + n ≤ y → fgetD 0 t.mem y = fgetD 0 s.mem y) (hx : x < a ∨ a + n ≤ x) :
    memRd t x = memRd s x := by
  obtain ⟨hmap, hmarks⟩ := hbeside
  by_cases hmirror : mirrorOf s x = some true
  · have hapart : Apart a n (x / 32) := by
      refine apart_of_differs (p := fun y => mirrorOf s y == some true) (fun y => by rw [mirrorOf_granule]) ?_ fun k hk => by
        rw [hmir k hk]
        rfl
      rw [mirrorOf_granule, hmirror]
      rfl
    have hup : 32 * (x / 32 + 2 ^ 31) = 32 * ((x + 2 ^ 36) / 32) := by omega
    have hcopied : inCopyRange s (x + 2 ^ 36) = true := inCopyRange_of_mirrored (by rw [hmirror]; rfl)
    have hapart' : Apart a n (x / 32 + 2 ^ 31) :=
      apart_of_differs (inCopyRange_granule s) (by rw [hup, inCopyRange_granule, hcopied]) hcopy
    have hfar : x + 2 ^ 36 < a ∨ a + n ≤ x + 2 ^ 36 := by
      by_contra hin
      have hk : inCopyRange s (a + (x + 2 ^ 36 - a)) = false := hcopy _ (by omega)
      rw [Nat.add_sub_of_le (by omega), hcopied] at hk
      exact absurd hk (by simp)
    simp only [memRd, granuleFailed, copyServes, hmap.mirrorOf, hmap.pcUnmapped, hmarks _ hapart, hmarks _ hapart', hmem _ hx, hmem _ hfar]
    rfl
  · rw [memRd_own (copyServes_of_unmirrored hmirror), memRd_own (copyServes_of_unmirrored (by rwa [hmap.mirrorOf])), hmem x hx]

end Reads

/-- Settles O33: the store is a write of its bytes into memory, in their order, and a read finds them or what was there. -/
theorem deviceMemoryIsLittleEndian : Obligations.DeviceMemoryIsLittleEndian := by
  unfold Obligations.DeviceMemoryIsLittleEndian
  intro s a n v hwf hrange
  have hlen : (leBytes n v).length = n := leBytes_length n v
  have hplain : Plain s a (leBytes n v).length := by
    rw [hlen]
    exact fun k hk => ⟨(hrange k hk).left, (hrange k hk).right.left, (hrange k hk).right.right.right⟩
  obtain ⟨hmem, hbeside⟩ := memWr_of_plain hplain
  rw [hlen] at hbeside
  have hget (x : Nat) : fgetD 0 (memWr s a (leBytes n v)).mem x =
      if a ≤ x ∧ x < a + n then (leBytes n v).getD (x - a) 0 else fgetD 0 s.mem x := by
    rw [hmem, memPut_get, hlen]
  refine ⟨fun i hi => ?_, fun x hx => ?_, ?_⟩
  · have hmir : mirrorOf (memWr s a (leBytes n v)) (a + i) ≠ some true := by
      rw [hbeside.left.mirrorOf, (hrange i hi).left]
      exact Option.some_ne_none true ∘ Eq.symm
    rw [memRd_own (copyServes_of_unmirrored hmir), hget, if_pos (by omega), Nat.add_sub_cancel_left, getD_leBytes n v i hi]
  · exact memRd_of_beside (fun k hk => (hrange k hk).left) (fun k hk => (hrange k hk).right.right.left) hbeside
      (fun y hy => by rw [hget, if_neg (by omega)]) hx
  · rw [hmem]
    exact memPut_wf hwf a _

end Sys2Proof.Machine

/-!
PROOF. Stream queues. The counters of a queue, taken as distances from RL, are ordinary numbers as long as they are ordered (R183); in these
terms each operation is one change of a record, which keeps the order, the head and the cells of the tail, and it changes what the consumer can
read only where it moves RD or CM.
-/

namespace Sys2Proof.Machine

/-! ### Distances modulo 2³² -/

section Distances

theorem toNat_sub_sub {x y z : BitVec 32} (hle : (y - x).toNat ≤ (z - x).toNat) : (z - y).toNat = (z - x).toNat - (y - x).toNat := by
  bv_omega

theorem toNat_succ_sub {x y : BitVec 32} (hlt : (x - y).toNat + 1 < 2 ^ 32) : (x + 1 - y).toNat = (x - y).toNat + 1 := by
  bv_omega

theorem toNat_add_sub {x y : BitVec 32} {n : Nat} (hlt : (x - y).toNat + n < 2 ^ 32) : (x + BitVec.ofNat 32 n - y).toNat = (x - y).toNat + n := by
  bv_omega

theorem eq_of_toNat_sub_eq {x y z : BitVec 32} (heq : (x - z).toNat = (y - z).toNat) : x = y := by
  bv_omega

end Distances

namespace SQueue

/-! ### A queue with ordered counters -/

section Order

variable {v : SQueue}

/-- A queue in its order, with its head in step and its tail in cells of the window. -/
def Good (v : SQueue) : Prop := v.ordered ∧ v.headOk

/-- What the order of the counters comes to once the open packet is left out. -/
theorem ordered.bounds (h : v.ordered) :
    (v.mark - v.rl).toNat ≤ (v.rd - v.rl).toNat ∧ (v.rd - v.rl).toNat ≤ (v.cm - v.rl).toNat ∧ (v.cm - v.rl).toNat ≤ v.occupied ∧
      v.words.length = v.occupied ∧ v.occupied ≤ 131056 := by
  obtain ⟨hmark, hrd, hcm, hwords, hopen⟩ := h
  refine ⟨hmark, hrd, hcm, hwords, ?_⟩
  split at hopen
  · exact hopen.right
  · omega

theorem ordered.of_closed (h : v.ordered) (hclosed : v.openN = none) : v.wr = v.cm := by
  obtain ⟨-, -, -, -, hopen⟩ := h
  rw [hclosed] at hopen
  exact hopen.left

theorem ordered.of_open (h : v.ordered) {n : Nat} (hopen : v.openN = some n) :
    v.pushed ≤ n ∧ (v.wr - v.cm).toNat = v.pushed ∧ v.occupied + (n - v.pushed) ≤ 131056 := by
  obtain ⟨-, -, -, -, hroom⟩ := h
  rw [hopen] at hroom
  exact hroom

/-- The words of the open packet are those from CM on. -/
theorem ordered.packetSize (h : v.ordered) : (v.wr - v.cm).toNat = v.occupied - (v.cm - v.rl).toNat := by
  obtain ⟨-, -, hcm, -, -⟩ := h.bounds
  exact toNat_sub_sub hcm

theorem ordered.readable_length (h : v.ordered) : v.readable.length = (v.cm - v.rl).toNat - (v.rd - v.rl).toNat := by
  obtain ⟨-, hrd, hcm, hwords, -⟩ := h.bounds
  rw [readable, List.length_take, List.length_drop]
  omega

theorem ordered.readable_length_eq (h : v.ordered) : v.readable.length = (v.cm - v.rd).toNat := by
  obtain ⟨-, hrd, -, -, -⟩ := h.bounds
  rw [h.readable_length, toNat_sub_sub hrd]

/-- The `i`-th readable word stands `i` places after RD. -/
theorem readable_getElem? {i : Nat} (hi : i < (v.cm - v.rl).toNat - (v.rd - v.rl).toNat) :
    v.readable[i]? = v.words[(v.rd - v.rl).toNat + i]? := by
  rw [readable, List.getElem?_take_of_lt hi, List.getElem?_drop]

theorem headOk.length_le (h : v.headOk) : v.head.length ≤ v.readable.length := by
  obtain ⟨-, hhead, -⟩ := h
  have hlen := congrArg List.length hhead
  rw [List.length_map, List.length_map, List.length_take] at hlen
  omega

end Order

/-! ### What each operation leaves of a queue in order -/

section Updates

variable {v : SQueue}

/-- The tail may hold other cells. -/
def withTail (v : SQueue) (l : List Nat) : SQueue := { v with tail := l }

@[simp] theorem readable_withTail (l : List Nat) : (v.withTail l).readable = v.readable := rfl

theorem Good.withTail {l : List Nat} (h : v.Good) (hl : ∀ c ∈ l, c < 2 ^ 21) : (v.withTail l).Good := by
  obtain ⟨hord, hlen, hhead, -⟩ := h
  exact ⟨hord, hlen, hhead, hl⟩

/-- The mark of a rewind that the producer has not learnt of says nothing of the words. -/
theorem Good.setRewound {b : Bool} (h : v.Good) : Good { v with rewound := b } := h

/-- A packet of `n` words is open, and none is pushed yet. -/
theorem Good.opened {n : Nat} (h : v.Good) (hclosed : v.openN = none) (hroom : v.occupied + n ≤ 131056) :
    Good { v with openN := some n, pushed := 0, rewound := false } := by
  obtain ⟨hord, hhead⟩ := h
  have hwr := hord.of_closed hclosed
  obtain ⟨hmark, hrd, hcm, hwords, -⟩ := hord
  exact ⟨⟨hmark, hrd, hcm, hwords, Nat.zero_le n, by simp [hwr], hroom⟩, hhead⟩

/-- One more word of the open packet. -/
def pushWord (v : SQueue) (w : QWord) : SQueue := { v with wr := v.wr + 1, words := v.words ++ [w], pushed := v.pushed + 1 }

theorem readable_pushWord (h : v.ordered) (w : QWord) : (v.pushWord w).readable = v.readable := by
  obtain ⟨-, hrd, hcm, hwords, -⟩ := h.bounds
  simp only [readable, pushWord]
  rw [List.drop_append_of_le_length (by omega), List.take_append_of_le_length (by rw [List.length_drop]; omega)]

theorem Good.pushWord {n : Nat} (h : v.Good) (hopen : v.openN = some n) (hleft : v.pushed ≠ n) (w : QWord) : (v.pushWord w).Good := by
  obtain ⟨hord, hlen, hhead, htail⟩ := h
  obtain ⟨hpushed, hwr, hroom⟩ := hord.of_open hopen
  have hpacket := hord.packetSize
  refine ⟨?_, hlen, by rw [readable_pushWord hord]; exact hhead, htail⟩
  obtain ⟨hmark, hrd, hcm, hwords, hocc⟩ := hord.bounds
  have hocc' : (v.pushWord w).occupied = v.occupied + 1 := toNat_succ_sub (x := v.wr) (y := v.rl) (by rw [occupied] at hocc; omega)
  have hpacket' : (v.wr + 1 - v.cm).toNat = v.pushed + 1 := by
    rw [toNat_succ_sub (x := v.wr) (y := v.cm) (by omega), hwr]
  refine ⟨hmark, hrd, ?_, ?_, ?_⟩
  · rw [hocc']
    exact Nat.le_succ_of_le hcm
  · rw [hocc', SQueue.pushWord, List.length_append, hwords, List.length_singleton]
  · rw [hocc']
    simp only [SQueue.pushWord, hopen, hpacket', true_and]
    omega

/-- The open packet vanishes: the words up to CM stay. -/
def dropPacket (v : SQueue) (learn : Bool) : SQueue :=
  { v with wr := v.cm, words := v.words.take (v.cm - v.rl).toNat, openN := none, pushed := 0, rewound := learn }

theorem readable_dropPacket (h : v.ordered) (learn : Bool) : (v.dropPacket learn).readable = v.readable := by
  obtain ⟨-, hrd, -, -, -⟩ := h.bounds
  rw [readable, readable, dropPacket, List.drop_take, List.take_take, Nat.min_self]

theorem Good.dropPacket (h : v.Good) (learn : Bool) : (v.dropPacket learn).Good := by
  obtain ⟨hord, hlen, hhead, htail⟩ := h
  refine ⟨?_, hlen, by rw [readable_dropPacket hord]; exact hhead, htail⟩
  obtain ⟨hmark, hrd, hcm, hwords, hocc⟩ := hord.bounds
  refine ⟨hmark, hrd, Nat.le_refl _, ?_, rfl, ?_⟩
  · exact List.length_take_of_le (hcm.trans hwords.ge)
  · exact hcm.trans hocc

/-- The words of the packet that COMMIT makes readable (R185). -/
def packet (v : SQueue) : List QWord := v.words.drop (v.cm - v.rl).toNat

theorem ordered.packet_length (h : v.ordered) {n : Nat} (hopen : v.openN = some n) (hfull : v.pushed = n) : v.packet.length = n := by
  obtain ⟨-, -, -, hwords, -⟩ := h.bounds
  obtain ⟨-, hwr, -⟩ := h.of_open hopen
  rw [SQueue.packet, List.length_drop, hwords, ← h.packetSize, hwr, hfull]

/-- The packet is committed. -/
def commitPacket (v : SQueue) : SQueue := { v with cm := v.wr, openN := none, pushed := 0, head := v.committedHead }

theorem readable_commitPacket (h : v.ordered) : v.commitPacket.readable = v.readable ++ v.packet := by
  obtain ⟨-, hrd, hcm, hwords, -⟩ := h.bounds
  have hsplit := List.take_append_drop ((v.cm - v.rl).toNat - (v.rd - v.rl).toNat) (v.words.drop (v.rd - v.rl).toNat)
  rw [List.drop_drop, Nat.add_sub_of_le hrd] at hsplit
  rw [readable, readable, packet, hsplit, commitPacket, List.take_of_length_le]
  rw [List.length_drop, hwords, occupied]

theorem Good.commitPacket (h : v.Good) : v.commitPacket.Good := by
  obtain ⟨hord, hhead⟩ := h
  have hshort := hhead.length_le
  obtain ⟨hlen, hsame, htail⟩ := hhead
  refine ⟨?_, ?_, ?_, htail⟩
  · obtain ⟨hmark, hrd, hcm, hwords, hocc⟩ := hord.bounds
    exact ⟨hmark, hrd.trans hcm, Nat.le_refl _, hwords, rfl, hocc⟩
  · simp only [SQueue.commitPacket, committedHead, List.length_append, List.length_take]
    split <;> omega
  · rw [readable_commitPacket hord]
    simp only [SQueue.commitPacket, committedHead]
    split
    · next hfull =>
      have hall : v.head.length = v.readable.length := by rw [hord.readable_length_eq, hfull]
      rw [hall, List.take_length] at hsame
      rw [List.map_append, hsame, List.length_append, hall, List.take_length_add_append, List.map_append, packet]
      congr 2
      exact (List.take_eq_take_iff.mpr (by rw [List.length_take]; omega))
    · rw [List.take_zero, List.append_nil, List.take_append_of_le_length hshort, hsame]

/-- The head takes one more word. -/
def loadWord (v : SQueue) (w : QWord) : SQueue := { v with head := v.head ++ [w] }

theorem Good.loadWord (h : v.Good) {w x : QWord} (hroom : v.head.length < 16) (hnext : v.readable[v.head.length]? = some x)
    (hclean : w.clean = x.clean) : (v.loadWord w).Good := by
  obtain ⟨hord, hlen, hsame, htail⟩ := h
  refine ⟨hord, ?_, ?_, htail⟩
  · rw [SQueue.loadWord, List.length_append, List.length_singleton]
    exact hroom
  · have hreadable : (v.loadWord w).readable = v.readable := rfl
    rw [hreadable]
    simp only [SQueue.loadWord, List.length_append, List.length_singleton, List.take_add_one, hnext, List.map_append, hsame,
      Option.toList_some, List.map_singleton, hclean]

/-- RD passes the word at the head, which keeps its place with the poison that it was delivered with (R189). -/
def readWord (v : SQueue) (w : QWord) (rest : List QWord) : SQueue :=
  { v with rd := v.rd + 1, head := rest, words := v.words.set (v.rd - v.rl).toNat w }

theorem readWord_step (h : v.Good) {x : QWord} {rest : List QWord} (hhead : v.head = x :: rest) :
    (v.rd - v.rl).toNat < (v.cm - v.rl).toNat ∧ (v.rd + 1 - v.rl).toNat = (v.rd - v.rl).toNat + 1 := by
  obtain ⟨hord, hok⟩ := h
  obtain ⟨-, hrd, hcm, -, hocc⟩ := hord.bounds
  have hshort := hok.length_le
  rw [hord.readable_length, hhead, List.length_cons] at hshort
  exact ⟨by omega, toNat_succ_sub (by omega)⟩

theorem readable_readWord (h : v.Good) {x w : QWord} {rest : List QWord} (hhead : v.head = x :: rest) :
    (v.readWord w rest).readable = v.readable.tail := by
  obtain ⟨hlt, hstep⟩ := readWord_step h hhead
  simp only [readable, readWord, hstep, List.drop_set_of_lt (Nat.lt_succ_self _), ← List.drop_one, List.drop_take, List.drop_drop]
  congr 1

theorem Good.readWord (h : v.Good) {x w : QWord} {rest : List QWord} (hhead : v.head = x :: rest) : (v.readWord w rest).Good := by
  obtain ⟨hlt, hstep⟩ := readWord_step h hhead
  have htake := readable_readWord (w := w) h hhead
  obtain ⟨⟨hmark, hrd, hcm, hwords, hopen⟩, hlen, hsame, htail⟩ := h
  rw [hhead] at hlen hsame
  refine ⟨⟨?_, ?_, hcm, ?_, hopen⟩, ?_, ?_, htail⟩
  · simp only [SQueue.readWord, hstep]
    omega
  · simp only [SQueue.readWord, hstep]
    omega
  · rw [SQueue.readWord, List.length_set]
    exact hwords
  · exact (Nat.le_succ _).trans hlen
  · rw [htake]
    cases hreadable : v.readable with
    | nil => rw [hreadable] at hsame; simp at hsame
    | cons y ys =>
      rw [hreadable, List.length_cons, List.take_succ_cons, List.map_cons, List.map_cons] at hsame
      exact (List.cons.inj hsame).right

/-- The mark moves to RD. -/
theorem Good.marked (h : v.Good) : Good { v with mark := v.rd } := by
  obtain ⟨⟨-, hrd, hcm, hwords, hopen⟩, hhead⟩ := h
  exact ⟨⟨Nat.le_refl _, hrd, hcm, hwords, hopen⟩, hhead⟩

/-- RD goes back to MK, and the head is empty. -/
theorem Good.rewoundToMark (h : v.Good) : Good { v with rd := v.mark, head := [] } := by
  obtain ⟨⟨hmark, hrd, hcm, hwords, hopen⟩, -, -, htail⟩ := h
  exact ⟨⟨Nat.le_refl _, hmark.trans hrd, hcm, hwords, hopen⟩, Nat.zero_le 16, rfl, htail⟩

/-- The oldest words up to `p` leave the queue. -/
theorem ordered.released (h : v.ordered) {p : BitVec 32} (hp : (p - v.rl).toNat ≤ (v.cm - v.rl).toNat) (l : List QWord) :
    ordered { v with rd := p, mark := p, rl := p, words := v.words.drop (p - v.rl).toNat, head := l } := by
  obtain ⟨-, hrd, hcm, hwords, -⟩ := h.bounds
  obtain ⟨-, -, -, -, hopen⟩ := h
  have hocc : (v.wr - p).toNat = v.occupied - (p - v.rl).toNat := toNat_sub_sub (hp.trans hcm)
  have hcm' : (v.cm - p).toNat = (v.cm - v.rl).toNat - (p - v.rl).toNat := toNat_sub_sub hp
  have hself : (p - p).toNat = 0 := by simp
  refine ⟨Nat.le_refl _, hself ▸ Nat.zero_le _, ?_, ?_, ?_⟩
  · exact hcm'.trans_le ((Nat.sub_le_sub_right hcm _).trans hocc.ge)
  · rw [List.length_drop, hwords]
    exact hocc.symm
  · change match v.openN with
      | none => v.wr = v.cm ∧ (v.wr - p).toNat ≤ 131056
      | some n => v.pushed ≤ n ∧ (v.wr - v.cm).toNat = v.pushed ∧ (v.wr - p).toNat + (n - v.pushed) ≤ 131056
    rw [hocc]
    generalize v.openN = o at hopen ⊢
    cases o with
    | none => exact ⟨hopen.left, (Nat.sub_le _ _).trans hopen.right⟩
    | some n =>
      obtain ⟨hpushed, hwr, hroom⟩ := hopen
      exact ⟨hpushed, hwr, by omega⟩

theorem readable_released (h : v.ordered) :
    readable { v with rl := v.rd, mark := v.rd, words := v.words.drop (v.rd - v.rl).toNat } = v.readable := by
  obtain ⟨-, hrd, -, -, -⟩ := h.bounds
  simp only [readable, BitVec.sub_self, BitVec.toNat_zero, List.drop_zero, Nat.sub_zero, toNat_sub_sub hrd]

theorem Good.released (h : v.Good) : Good { v with rl := v.rd, mark := v.rd, words := v.words.drop (v.rd - v.rl).toNat } := by
  obtain ⟨hord, hlen, hsame, htail⟩ := h
  obtain ⟨-, hrd, -, -, -⟩ := hord.bounds
  exact ⟨hord.released hrd v.head, hlen, by rw [readable_released hord]; exact hsame, htail⟩

theorem Good.flushed (h : v.Good) :
    Good { v with rd := v.cm, mark := v.cm, rl := v.cm, words := v.words.drop (v.cm - v.rl).toNat, head := [] } := by
  obtain ⟨hord, -, -, htail⟩ := h
  exact ⟨hord.released (Nat.le_refl _) [], Nat.zero_le 16, rfl, htail⟩

end Updates

end SQueue

/-! ### The cells of the tail -/

section Cells

variable {links : FMap CellLink} {lo hi bank : Nat}

theorem freeCellFrom_lt {c d fuel : Nat} (hfree : freeCellFrom links hi c fuel = some d) : d < hi := by
  induction fuel generalizing c with
  | zero => exact absurd hfree (by simp [freeCellFrom])
  | succ fuel ih =>
    rw [freeCellFrom] at hfree
    split at hfree
    · exact absurd hfree (by simp)
    · next hlt =>
      split at hfree
      · exact Option.some.inj hfree ▸ Nat.not_le.mp hlt
      · exact ih hfree

theorem freeCell_lt {d fuel : Nat} (hfree : freeCell links lo hi bank fuel = some d) : d < hi := by
  induction fuel generalizing bank with
  | zero => exact absurd hfree (by simp [freeCell])
  | succ fuel ih =>
    rw [freeCell] at hfree
    split at hfree
    · next hfrom =>
      obtain rfl := Option.some.inj hfree
      exact freeCellFrom_lt hfrom
    · exact ih hfree

theorem takeCells_lt {cls n : Nat} : ∀ c ∈ (takeCells links lo hi bank cls n).1, c < hi := by
  induction n generalizing links bank with
  | zero => simp [takeCells]
  | succ n ih =>
    rw [takeCells]
    split
    · simp
    · next hfree =>
      intro c hc
      rcases List.mem_cons.mp hc with rfl | hc
      · exact freeCell_lt hfree
      · exact ih c hc

theorem bitsN_lt (x lo w : Nat) : bitsN x lo w < 2 ^ w := Nat.mod_lt _ (Nat.two_pow_pos w)

/-- The queue-tail partition lies in the first 2²¹ cells, whatever HWD_POOL holds. -/
theorem tailPartition_lt (s : State) : tailFirst + tailSize s ≤ 2 ^ 21 := by
  have hfield : regF s .hwdPool 0 0 0 12 < 2 ^ 12 := bitsN_lt _ _ _
  unfold tailFirst tailSize
  generalize regF s .hwdPool 0 0 0 12 = pages at hfield
  omega

/-- Fitting the tail changes nothing of the queue but its tail, whose cells stay in the window. -/
theorem queueGet_queueFit (s : State) (q : Nat) (v : SQueue) (d : Nat) :
    ∃ l, queueGet (queueFit s q v d) q = v.withTail l ∧ ((∀ c ∈ v.tail, c < 2 ^ 21) → ∀ c ∈ l, c < 2 ^ 21) := by
  unfold queueFit
  dsimp only
  split
  · refine ⟨_, queueGet_queueSet_self _ _ _, fun htail c hc => ?_⟩
    rcases List.mem_append.mp hc with hkept | hgot
    · exact htail c (List.mem_of_mem_drop hkept)
    · exact (takeCells_lt c hgot).trans_le (tailPartition_lt _)
  · exact ⟨_, queueGet_queueSet_self _ _ _, fun htail c hc => htail c (List.mem_of_mem_drop (List.mem_of_mem_take hc))⟩

theorem queueFit_good {s : State} {q d : Nat} {v : SQueue} (h : v.Good) : (queueGet (queueFit s q v d) q).Good := by
  obtain ⟨l, hget, htail⟩ := queueGet_queueFit s q v d
  rw [hget]
  exact h.withTail (htail h.right.right.right)

theorem queueFit_readable (s : State) (q d : Nat) (v : SQueue) : (queueGet (queueFit s q v d) q).readable = v.readable := by
  obtain ⟨l, hget, -⟩ := queueGet_queueFit s q v d
  rw [hget, SQueue.readable_withTail]

end Cells

/-! ### Reading a granule of the tail touches no queue -/

section Granule

variable (s : State) (g : Nat)

theorem countCe_heart : (countCe s g).heart = s.heart := by
  unfold countCe
  dsimp only
  split
  · rfl
  · split <;> rfl

theorem meetUpset_heart : (meetUpset s g).heart = s.heart := by
  unfold meetUpset
  split
  · rfl
  · exact countCe_heart _ g
  · rfl

theorem bumpUe_heart (n : RegName) (i k : Nat) : (bumpUe s n i k).heart = s.heart := rfl

theorem notePc_heart (ue : Bool) : (notePc s g ue).heart = s.heart := rfl

theorem countUe_heart : (countUe s g).heart = s.heart := by
  unfold countUe
  split
  · rw [countRingUe, regPut_heart, bumpUe_heart, bump_heart]
  · split
    · rw [notePc_heart, bumpUe_heart]
    · rw [bumpUe_heart]

theorem storeAt_heart (a : Nat) (bs : Bytes) : (storeAt s a bs).heart = s.heart := by
  have hmet : ((partGranules a bs.length).foldl meetUpset s).heart = s.heart :=
    List.foldlRecOn (motive := fun t => t.heart = s.heart) _ _ rfl fun t ht g _ => (meetUpset_heart t g).trans ht
  exact hmet

theorem touchGranule_heart : (touchGranule s g).heart = s.heart := by
  unfold touchGranule
  dsimp only
  split
  · exact meetUpset_heart s g
  · have hmet : (if mirrorOf (meetUpset s g) (32 * g) == some true then meetUpset (meetUpset s g) (g + 2 ^ 31) else meetUpset s g).heart =
        s.heart := by
      split
      · rw [meetUpset_heart, meetUpset_heart]
      · exact meetUpset_heart s g
    generalize (if mirrorOf (meetUpset s g) (32 * g) == some true then meetUpset (meetUpset s g) (g + 2 ^ 31) else meetUpset s g) = t at hmet
    split
    · split
      · exact hmet
      · rw [countUe_heart, hmet]
    · split
      · exact hmet
      · exact (storeAt_heart _ _ _).trans hmet

@[simp] theorem queueGet_pushedGranule (q j : Nat) : queueGet (pushedGranule s q) j = queueGet s j := by
  unfold pushedGranule
  dsimp only
  split
  · rfl
  · split <;> rfl

end Granule

/-! ### The operations -/

section Operations

variable {s : State} {q : Nat}

/-- A rewind of the open packet is the end of its words, or nothing where none is open. -/
theorem queueGet_rewindPacket (learn counted : Bool) :
    queueRewindPacket s q learn counted = s ∨
    ∃ l, queueGet (queueRewindPacket s q learn counted) q = ((queueGet s q).dropPacket learn).withTail l ∧
      ((∀ c ∈ (queueGet s q).tail, c < 2 ^ 21) → ∀ c ∈ l, c < 2 ^ 21) := by
  unfold queueRewindPacket
  dsimp only
  split
  · right
    obtain ⟨l, hget, htail⟩ := queueGet_queueFit s q ((queueGet s q).dropPacket learn) 0
    refine ⟨l, ?_, htail⟩
    split
    · rw [queueGet_bump]
      exact hget
    · exact hget
  · exact .inl rfl

theorem queueRewindPacket_good (h : (queueGet s q).Good) (learn counted : Bool) :
    (queueGet (queueRewindPacket s q learn counted) q).Good := by
  rcases queueGet_rewindPacket (s := s) (q := q) learn counted with hsame | ⟨l, hget, htail⟩
  · rwa [hsame]
  · rw [hget]
    exact (h.dropPacket learn).withTail (htail h.right.right.right)

theorem queueRewindPacket_readable (h : (queueGet s q).ordered) (learn counted : Bool) :
    (queueGet (queueRewindPacket s q learn counted) q).readable = (queueGet s q).readable := by
  rcases queueGet_rewindPacket (s := s) (q := q) learn counted with hsame | ⟨l, hget, -⟩
  · rw [hsame]
  · rw [hget, SQueue.readable_withTail, SQueue.readable_dropPacket h]

/-- The limit of a queue's tail is below 2¹³ cells of 16 words (R184). -/
theorem occupied_of_queueRoom {n : Nat} (hroom : queueRoom s q n = true) : (queueGet s q).occupied + n ≤ 131056 := by
  have hlimit : (queueGet s q).occupied + n ≤ 16 * regF s .sqCfg q 0 4 13 := of_decide_eq_true (Bool.and_eq_true_iff.mp hroom).left
  have hfield : regF s .sqCfg q 0 4 13 < 2 ^ 13 := bitsN_lt _ _ _
  omega

theorem queueOpen_good {n : Nat} {d : Bool} (h : (queueGet s q).Good) (hclosed : (queueGet s q).openN = none) :
    (queueGet (queueOpen s q n d).2 q).Good := by
  rcases queueOpen_cases s q n d with ⟨hopen, -, hroom⟩ | ⟨hsame, -⟩
  · rw [hopen, queueGet_queueSet_self]
    exact h.opened hclosed (occupied_of_queueRoom hroom)
  · rwa [hsame]

theorem queueOpen_readable (n : Nat) (d : Bool) : (queueGet (queueOpen s q n d).2 q).readable = (queueGet s q).readable := by
  rcases queueOpen_cases s q n d with ⟨hopen, -, -⟩ | ⟨hsame, -⟩
  · rw [hopen, queueGet_queueSet_self]
    rfl
  · rw [hsame]

/-- What PUSH makes of the queue: nothing, the mark of a rewind taken away, a rewind, or one more word of the open packet. -/
theorem queuePush_cases (s : State) (q : Nat) (w : QWord) :
    (queuePush s q w).2 = s ∨ (queuePush s q w).2 = queueSet s q { queueGet s q with rewound := false } ∨
    (∃ learn, (queuePush s q w).2 = queueRewindPacket s q learn true) ∨
    ∃ n w', (queueGet s q).openN = some n ∧ (queueGet s q).pushed ≠ n ∧
      (queuePush s q w).2 = pushedGranule (queueFit s q ((queueGet s q).pushWord w') 0) q := by
  unfold queuePush
  dsimp only
  split
  · exact .inl rfl
  · split
    · exact .inr (.inl rfl)
    · split
      · exact .inl rfl
      · next n hopen =>
        split
        · exact .inr (.inr (.inl ⟨false, rfl⟩))
        · next hleft =>
          split
          · exact .inr (.inr (.inl ⟨true, rfl⟩))
          · exact .inr (.inr (.inr ⟨n, _, hopen, hleft, rfl⟩))

theorem queuePush_good (h : (queueGet s q).Good) (w : QWord) : (queueGet (queuePush s q w).2 q).Good := by
  rcases queuePush_cases s q w with hsame | hmark | ⟨learn, hback⟩ | ⟨n, w', hopen, hleft, hpush⟩
  · rwa [hsame]
  · rw [hmark, queueGet_queueSet_self]
    exact h.setRewound
  · rw [hback]
    exact queueRewindPacket_good h learn true
  · rw [hpush, queueGet_pushedGranule]
    exact queueFit_good (h.pushWord hopen hleft w')

theorem queuePush_readable (h : (queueGet s q).ordered) (w : QWord) :
    (queueGet (queuePush s q w).2 q).readable = (queueGet s q).readable := by
  rcases queuePush_cases s q w with hsame | hmark | ⟨learn, hback⟩ | ⟨n, w', hopen, hleft, hpush⟩
  · rw [hsame]
  · rw [hmark, queueGet_queueSet_self]
    rfl
  · rw [hback, queueRewindPacket_readable h]
  · rw [hpush, queueGet_pushedGranule, queueFit_readable, SQueue.readable_pushWord h]

theorem queueCommit_good (h : (queueGet s q).Good) : (queueGet (queueCommit s q).2 q).Good := by
  rcases queueCommit_cases s q with ⟨hcommit, -⟩ | hmark | ⟨hsame, -⟩
  · rw [hcommit, queueGet_queueSet_self]
    exact h.commitPacket
  · rw [hmark, queueGet_queueSet_self]
    exact h.setRewound
  · rwa [hsame]

theorem queueCommit_full {n : Nat} (hon : queueEnabled s q = true) (hknown : (queueGet s q).rewound = false)
    (hopen : (queueGet s q).openN = some n) (hfull : (queueGet s q).pushed = n) :
    (queueCommit s q).2 = queueSet s q (queueGet s q).commitPacket := by
  unfold queueCommit
  dsimp only
  rw [if_neg (by simp [hon]), if_neg (by simp [hknown]), hopen]
  dsimp only
  rw [if_pos hfull]
  rfl

theorem queueCommit_early {n : Nat} (hknown : (queueGet s q).rewound = false) (hopen : (queueGet s q).openN = some n)
    (hleft : (queueGet s q).pushed < n) : (queueCommit s q).2 = s := by
  unfold queueCommit
  dsimp only
  split
  · rfl
  · simp only [hknown, hopen, hleft.ne, Bool.false_eq_true, if_false]

theorem queueAbort_cases (s : State) (q : Nat) :
    (queueAbort s q).2 = s ∨ (queueAbort s q).2 = queueSet s q { queueGet s q with rewound := false } ∨
    (queueAbort s q).2 = queueRewindPacket s q false true := by
  unfold queueAbort
  dsimp only
  split
  · exact .inl rfl
  · split
    · exact .inr (.inl rfl)
    · exact .inr (.inr rfl)

theorem queueAbort_good (h : (queueGet s q).Good) : (queueGet (queueAbort s q).2 q).Good := by
  rcases queueAbort_cases s q with hsame | hmark | hback
  · rwa [hsame]
  · rw [hmark, queueGet_queueSet_self]
    exact h.setRewound
  · rw [hback]
    exact queueRewindPacket_good h false true

theorem queueAbort_readable (h : (queueGet s q).ordered) : (queueGet (queueAbort s q).2 q).readable = (queueGet s q).readable := by
  rcases queueAbort_cases s q with hsame | hmark | hback
  · rw [hsame]
  · rw [hmark, queueGet_queueSet_self]
    rfl
  · rw [hback, queueRewindPacket_readable h]

/-- The head takes nothing, or the readable word that follows its last one, perhaps with poison (R188). -/
theorem loadHead_cases (h : (queueGet s q).Good) :
    loadHead s q = s ∨
    ∃ w x, (queueGet s q).head.length < 16 ∧ (queueGet s q).readable[(queueGet s q).head.length]? = some x ∧ w.clean = x.clean ∧
      queueGet (loadHead s q) q = (queueGet s q).loadWord w := by
  obtain ⟨hord, hhead⟩ := h
  have hshort := hhead.length_le
  obtain ⟨hmark, hrd, hcm, hwords, hocc⟩ := hord.bounds
  rw [hord.readable_length] at hshort
  have hpos := toNat_add_sub (x := (queueGet s q).rd) (y := (queueGet s q).rl) (n := (queueGet s q).head.length) (by omega)
  unfold loadHead
  dsimp only
  split
  · exact .inl rfl
  · next hmore =>
    have hmore' : (queueGet s q).head.length < 16 ∧
        (queueGet s q).rd + BitVec.ofNat 32 (queueGet s q).head.length ≠ (queueGet s q).cm := by simpa using hmore
    obtain ⟨hroom, hleft⟩ := hmore'
    have hnext : (queueGet s q).head.length < ((queueGet s q).cm - (queueGet s q).rl).toNat - ((queueGet s q).rd - (queueGet s q).rl).toNat := by
      refine lt_of_le_of_ne hshort fun heq => hleft (eq_of_toNat_sub_eq (z := (queueGet s q).rl) ?_)
      rw [hpos]
      omega
    rw [hpos, ← SQueue.readable_getElem? hnext]
    split
    · exact .inl rfl
    · next x hx =>
      split
      · exact .inr ⟨x, x, hroom, hx, rfl, queueGet_queueSet_self _ _ _⟩
      · refine .inr ⟨_, x, hroom, hx, ?_, queueGet_queueSet_self _ _ _⟩
        rfl

theorem loadHead_good (h : (queueGet s q).Good) : (queueGet (loadHead s q) q).Good := by
  rcases loadHead_cases h with hsame | ⟨w, x, hroom, hnext, hclean, hget⟩
  · rwa [hsame]
  · rw [hget]
    exact h.loadWord hroom hnext hclean

theorem fillHead_good (n : Nat) (h : (queueGet s q).Good) : (queueGet (fillHead s q n) q).Good :=
  List.foldlRecOn (motive := fun t => (queueGet t q).Good) _ _ h fun _ ht _ _ => loadHead_good ht

theorem queueRead_good (h : (queueGet s q).Good) : (queueGet (queueRead s q).2 q).Good := by
  unfold queueRead
  dsimp only
  split
  · exact h
  · have hloaded : (queueGet (if (queueGet s q).head.isEmpty then loadHead s q else s) q).Good := by
      split
      · exact loadHead_good h
      · exact h
    generalize (if (queueGet s q).head.isEmpty then loadHead s q else s) = t at hloaded
    split
    · exact h
    · next w rest hhead =>
      have hread (w' : QWord) : (queueGet (loadHead (queueSet t q ((queueGet t q).readWord w' rest)) q) q).Good :=
        loadHead_good (by rw [queueGet_queueSet_self]; exact hloaded.readWord hhead)
      split
      · exact hread _
      · exact hread _

theorem queueMark_good (h : (queueGet s q).Good) : (queueGet (queueMark s q).2 q).Good := by
  unfold queueMark
  dsimp only
  split
  · rw [queueGet_queueSet_self]
    exact h.marked
  · exact h

theorem queueRewind_good (h : (queueGet s q).Good) : (queueGet (queueRewind s q).2 q).Good := by
  unfold queueRewind
  dsimp only
  split
  · dsimp only
    refine fillHead_good 16 ?_
    rw [queueGet_queueSet_self]
    exact h.rewoundToMark
  · exact h

theorem queueRelease_good (h : (queueGet s q).Good) : (queueGet (queueRelease s q).2 q).Good := by
  unfold queueRelease
  dsimp only
  split
  · exact queueFit_good h.released
  · exact h

theorem queueFlush_good (h : (queueGet s q).Good) : (queueGet (queueFlush s q) q).Good := queueFit_good h.flushed

end Operations

/-- Settles O34: each operation keeps `SQueue.Good`. -/
theorem queueCountersStayOrdered : Obligations.QueueCountersStayOrdered := by
  unfold Obligations.QueueCountersStayOrdered
  intro s q n w d _ _ good h
  exact ⟨queueOpen_good h, queuePush_good h w, queueCommit_good h, queueAbort_good h, queueRead_good h, queueMark_good h, queueRewind_good h,
    queueRelease_good h, queueFlush_good h⟩

/-- Settles O35: only COMMIT moves CM, and it moves it over the packet. -/
theorem packetsAppearAtCommit : Obligations.PacketsAppearAtCommit := by
  unfold Obligations.PacketsAppearAtCommit
  intro s q n w d h v
  refine ⟨queueOpen_readable n d, queuePush_readable h w, queueAbort_readable h, fun hon hknown hopen hfull => ⟨?_, h.packet_length hopen hfull⟩,
    fun hopen hleft hknown => queueCommit_early hknown hopen hleft⟩
  rw [queueCommit_full hon hknown hopen hfull, queueGet_queueSet_self]
  exact SQueue.readable_commitPacket h

end Sys2Proof.Machine

/-!
PROOF. Registers of a context: what a register write changes, what a bundle without memory effects leaves, the elements of a merged vector
(R261, R271) and the word of MTEST (R280).
-/

namespace Sys2Proof.Machine

/-! ### Register writes -/

namespace Hc

section Writes

variable (x : Hc)

theorem write_p_zero (v : PWord) : x.write (.p 0 v) = x := rfl

theorem write_p_of_ne {n : Nat} (hn : n ≠ 0) (v : PWord) : x.write (.p n v) = { x with p := fsetD 0 x.p n v } := if_neg hn

theorem preg_zero : x.preg 0 = BitVec.allOnes 128 := if_pos rfl

theorem fgetD_fsetD {α : Type} [DecidableEq α] (d : α) (m : FMap α) (k j : Nat) (v : α) :
    fgetD d (fsetD d m k v) j = if j = k then v else fgetD d m j := by
  split
  · next heq => rw [heq, fgetD_fsetD_self]
  · next hne => exact fgetD_fsetD_ne d m hne v

theorem sreg_write_s (n m : Nat) (v : Word) (b : Bool) : (x.write (.s n v b)).sreg m = if m = n then v else x.sreg m :=
  fgetD_fsetD 0 x.s n m v

theorem sBad_write_s (n m : Nat) (v : Word) (b : Bool) : (x.write (.s n v b)).sBad m = if m = n then b else x.sBad m :=
  bitN_setBitN x.sPoison n b m

theorem vreg_write_v (n m : Nat) (v : VWord) (b : Bool) : (x.write (.v n v b)).vreg m = if m = n then v else x.vreg m :=
  fgetD_fsetD 0 x.v n m v

theorem treg_write_t (n m : Nat) (v : TWord) (b : Bool) : (x.write (.t n v b)).treg m = if m = n then v else x.treg m :=
  fgetD_fsetD 0 x.t n m v

theorem preg_write_p (n m : Nat) (v : PWord) : (x.write (.p n v)).preg m = if m = n ∧ n ≠ 0 then v else x.preg m := by
  by_cases hn : n = 0
  · rw [hn, write_p_zero, if_neg (fun h => h.right rfl)]
  · rw [write_p_of_ne x hn]
    by_cases hm : m = 0
    · rw [hm, preg_zero, preg_zero, if_neg (fun h => hn h.left.symm)]
    · simp only [preg, if_neg hm, fgetD_fsetD, hn, ne_eq, not_false_eq_true, and_true]

/-- What of a context no register write changes. -/
theorem write_frame (w : RegWrite) : (x.write w).ctx = x.ctx ∧ (x.write w).tags = x.tags ∧ (x.write w).layer = x.layer ∧
    (x.write w).oper = x.oper ∧ (x.write w).qd = x.qd ∧ (x.write w).stepOne = x.stepOne ∧ (x.write w).pc = x.pc := by
  cases w with
  | p n v =>
    by_cases hn : n = 0
    · rw [hn, write_p_zero]
      exact ⟨rfl, rfl, rfl, rfl, rfl, rfl, rfl⟩
    · rw [write_p_of_ne x hn]
      exact ⟨rfl, rfl, rfl, rfl, rfl, rfl, rfl⟩
  | s | v | t => exact ⟨rfl, rfl, rfl, rfl, rfl, rfl, rfl⟩

theorem writes_frame (ws : List RegWrite) : (x.writes ws).ctx = x.ctx ∧ (x.writes ws).tags = x.tags ∧ (x.writes ws).layer = x.layer ∧
    (x.writes ws).oper = x.oper ∧ (x.writes ws).qd = x.qd ∧ (x.writes ws).stepOne = x.stepOne ∧ (x.writes ws).pc = x.pc := by
  induction ws generalizing x with
  | nil => exact ⟨rfl, rfl, rfl, rfl, rfl, rfl, rfl⟩
  | cons w ws ih =>
    obtain ⟨hctx, htags, hlayer, hoper, hqd, hstep, hpc⟩ := ih (x.write w)
    obtain ⟨hctx', htags', hlayer', hoper', hqd', hstep', hpc'⟩ := x.write_frame w
    exact ⟨hctx.trans hctx', htags.trans htags', hlayer.trans hlayer', hoper.trans hoper', hqd.trans hqd', hstep.trans hstep',
      hpc.trans hpc'⟩

/-- Without loads a bundle leaves its register writes and the next bundle's address. -/
theorem advance_of_noLoads {outs : List SlotOut} (hloads : ∀ o ∈ outs, o.loads = []) :
    x.advance outs = { x.writes (outs.flatMap SlotOut.wr) with
      pc := x.nextPc, issued := x.issued + 1, st := .issuing, skipBrk := false, disp := 0, mxRef := 0 } := by
  rw [advance, List.flatMap_eq_nil_iff.mpr hloads]
  rfl

end Writes

end Hc

/-! ### A bundle that only writes registers -/

section Commit

theorem countBundle_facet (s : State) (k ctx : Nat) : (countBundle s k ctx).facet = s.facet := rfl

theorem hcGet_of_facet {s t : State} (hfacet : t.facet = s.facet) (k h : Nat) : hcGet t k h = hcGet s k h := by
  rw [hcGet, coreGet, hfacet, hcGet, coreGet]

theorem stepStop_of_running {s : State} {k h : Nat} {x : Hc} (hget : hcGet s k h = some x) (hstep : x.stepOne = false) :
    stepStop s k h = s := by
  simp [stepStop, hget, hstep]

theorem commitBundle_of_registers {s : State} {k h : Nat} {x : Hc} {b : Bundle} {outs : List SlotOut} {table : PeerTable}
    (hmx : b.mx = none) (hdx : b.dx = none) (hcx : b.cx = none) (hquiet : ∀ o ∈ outs, o.touch = [] ∧ o.st = [] ∧ o.loads = [])
    (hstep : x.stepOne = false) :
    commitBundle s k h x b outs table =
      countBundle (hcSet s k h (some { x.advance outs with buf := aheadKept x b outs })) k x.ctx := by
  have htouch : outs.flatMap (fun o => o.touch) = [] := List.flatMap_eq_nil_iff.mpr fun o ho => (hquiet o ho).left
  have hst (l : List SlotOut) (hl : ∀ o ∈ l, o ∈ outs) : l.flatMap (fun o => o.st) = [] :=
    List.flatMap_eq_nil_iff.mpr fun o ho => (hquiet o (hl o ho)).right.left
  have hadv : (x.advance outs).stepOne = false := by
    obtain ⟨-, -, -, -, -, hsame, -⟩ := x.writes_frame (outs.flatMap SlotOut.wr)
    rw [x.advance_of_noLoads fun o ho => (hquiet o ho).right.right]
    exact hsame.trans hstep
  simp only [commitBundle, htouch, hst _ fun o => List.mem_of_mem_take, hst _ fun o => List.mem_of_mem_drop, hmx, hdx, hcx, List.foldl_nil]
  refine stepStop_of_running (x := { x.advance outs with buf := aheadKept x b outs }) ?_ hadv
  rw [hcGet_of_facet (countBundle_facet _ _ _), hcGet_hcSet_self]

end Commit

/-- Settles O42: the context that the commit leaves is the register writes of its slots, at the next bundle. -/
theorem registerEffects : Obligations.RegisterEffects := by
  unfold Obligations.RegisterEffects
  refine ⟨fun s k h x b outs table hmx hdx hcx hquiet hstep => ?_, fun x n m v p => ⟨x.sreg_write_s n m v p, x.sBad_write_s n m v p⟩,
    fun x n m v p => x.vreg_write_v n m v p, fun x n m v p => x.treg_write_t n m v p,
    fun x n m v => ⟨x.preg_write_p n m v, Hc.preg_zero _⟩⟩
  obtain ⟨hctx, htags, hlayer, hoper, hqd, -, -⟩ := x.writes_frame (outs.flatMap SlotOut.wr)
  rw [commitBundle_of_registers hmx hdx hcx hquiet hstep, x.advance_of_noLoads fun o ho => (hquiet o ho).right.right]
  refine ⟨rfl, rfl, _, (hcGet_of_facet (countBundle_facet _ _ _) k h).trans (hcGet_hcSet_self _ k h _), rfl, ?_⟩
  exact ⟨hctx, htags, hlayer, hoper, hqd, rfl, rfl, rfl, rfl⟩

/-! ### Elements of a packed vector -/

section Elements

/-- A list of numbers below 2^w as the digits of one number, least significant first. -/
def digits (w : Nat) (es : List Nat) : Nat := es.foldr (fun e acc => e % 2 ^ w + acc * 2 ^ w) 0

theorem vpack_eq (w : Nat) (es : List Nat) : vpack w es = BitVec.ofNat 1024 (digits w es) := rfl

theorem digits_cons (w e : Nat) (es : List Nat) : digits w (e :: es) = e % 2 ^ w + digits w es * 2 ^ w := rfl

theorem digits_lt (w : Nat) (es : List Nat) : digits w es < 2 ^ (w * es.length) := by
  induction es with
  | nil => exact Nat.one_pos
  | cons e es ih =>
    have hlow : e % 2 ^ w < 2 ^ w := Nat.mod_lt _ (Nat.two_pow_pos w)
    rw [digits_cons, List.length_cons, Nat.mul_succ, pow_add]
    calc e % 2 ^ w + digits w es * 2 ^ w < 2 ^ w + digits w es * 2 ^ w := Nat.add_lt_add_right hlow _
      _ = (digits w es + 1) * 2 ^ w := by ring
      _ ≤ 2 ^ (w * es.length) * 2 ^ w := Nat.mul_le_mul_right _ ih

theorem bitsN_digits (w : Nat) (es : List Nat) {e : Nat} (he : e < es.length) : bitsN (digits w es) (w * e) w = es[e] % 2 ^ w := by
  induction es generalizing e with
  | nil => exact absurd he (Nat.not_lt_zero e)
  | cons a es ih =>
    rw [bitsN, Nat.shiftRight_eq_div_pow, digits_cons]
    cases e with
    | zero => rw [Nat.mul_zero, pow_zero, Nat.div_one, Nat.add_mul_mod_self_right, Nat.mod_mod, List.getElem_cons_zero]
    | succ e =>
      have hlow : a % 2 ^ w < 2 ^ w := Nat.mod_lt _ (Nat.two_pow_pos w)
      have hshift : (a % 2 ^ w + digits w es * 2 ^ w) / 2 ^ (w * (e + 1)) = digits w es / 2 ^ (w * e) := by
        rw [Nat.mul_succ, Nat.add_comm (w * e) w, pow_add, ← Nat.div_div_eq_div_mul, Nat.add_mul_div_right _ _ (Nat.two_pow_pos w),
          Nat.div_eq_of_lt hlow, Nat.zero_add]
      rw [hshift, ← Nat.shiftRight_eq_div_pow, List.getElem_cons_succ, ← ih (Nat.lt_of_succ_lt_succ he), bitsN]

theorem velem_vpack {w : Nat} {es : List Nat} (hfits : w * es.length ≤ 1024) {e : Nat} (he : e < es.length) :
    velem (vpack w es) w e = es[e] % 2 ^ w := by
  have hlt := (digits_lt w es).trans_le (Nat.pow_le_pow_right Nat.two_pos hfits)
  rw [velem, vpack_eq, BitVec.toNat_ofNat, Nat.mod_eq_of_lt hlt, bitsN_digits w es he]

/-- The elements of a vector register fill it (R271). -/
theorem eltBytes_fill (elt : Nat) : 8 * eltBytes elt * (128 / eltBytes elt) = 1024 := by
  unfold eltBytes
  split <;> rfl

theorem velem_mod (v : VWord) (w e : Nat) : velem v w e % 2 ^ w = velem v w e := Nat.mod_mod _ _

theorem velem_vmerge (x : Hc) (i : VSlot) (old : VWord) (f : Nat → Nat) {e : Nat} (he : e < 128 / eltBytes i.elt) :
    velem (vmerge x i old f) (8 * eltBytes i.elt) e =
      if x.lane i.pred i.pneg (eltBytes i.elt * e) then f e % 2 ^ (8 * eltBytes i.elt) else velem old (8 * eltBytes i.elt) e := by
  rw [vmerge, velem_vpack (by simp [eltBytes_fill]) (by simpa using he), List.getElem_map, List.getElem_range]
  split
  · rfl
  · exact velem_mod _ _ _

end Elements

/-- Settles O44: a merged register is packed from its elements, and the packing is read back element by element. -/
theorem vectorElements : Obligations.VectorElements := by
  unfold Obligations.VectorElements
  exact fun x i old f e he => velem_vmerge x i old f he

/-! ### The word of MTEST -/

section Tags

variable (x : Hc)

theorem TagSt.bits_lt (t : TagSt) : t.bits < 4 := by cases t <;> simp [bits]

theorem TagSt.failure_of_bits {t : TagSt} (hbits : t.bits ≠ 3) : t.failure = none := by
  cases t with
  | failed c => exact absurd rfl hbits
  | idle | busy | done => rfl

/-- The status in the word: that of the lowest FAILED tag, or 0. -/
def Hc.tagStatus : Nat := ((x.lowestFailed 15).map Prod.snd).getD 0 % 256

theorem Hc.tagBits_eq : x.tagBits = (x.tag 0).bits + 4 * (x.tag 1).bits + 16 * (x.tag 2).bits + 64 * (x.tag 3).bits := by
  simp only [tagBits, List.range_succ, List.range_zero, List.nil_append, List.foldl_append, List.foldl_cons, List.foldl_nil]
  ring

theorem Hc.tagBits_lt : x.tagBits < 256 := by
  have h0 := (x.tag 0).bits_lt
  have h1 := (x.tag 1).bits_lt
  have h2 := (x.tag 2).bits_lt
  have h3 := (x.tag 3).bits_lt
  rw [tagBits_eq]
  omega

theorem Hc.tagWord_toNat : x.tagWord.toNat = x.tagBits + 256 * x.tagStatus := by
  have hbits := x.tagBits_lt
  have hstatus : x.tagStatus < 256 := Nat.mod_lt _ (by decide)
  rw [tagWord, BitVec.toNat_ofNat]
  unfold tagStatus at *
  omega

theorem Hc.tagBits_field {n : Nat} (hn : n < 4) : bitsN (x.tagBits + 256 * x.tagStatus) (2 * n) 2 = (x.tag n).bits := by
  have h0 := (x.tag 0).bits_lt
  have h1 := (x.tag 1).bits_lt
  have h2 := (x.tag 2).bits_lt
  have h3 := (x.tag 3).bits_lt
  rw [tagBits_eq, bitsN, Nat.shiftRight_eq_div_pow]
  interval_cases n <;> omega

theorem Hc.tagStatus_field : bitsN (x.tagBits + 256 * x.tagStatus) 8 8 = x.tagStatus := by
  have hbits := x.tagBits_lt
  have hstatus : x.tagStatus < 256 := Nat.mod_lt _ (by decide)
  rw [bitsN, Nat.shiftRight_eq_div_pow]
  omega

theorem Hc.lowestFailed_eq : x.lowestFailed 15 = (List.range 4).findSome? (fun n => (x.tag n).failure.map (fun c => (n, c))) := by
  have hmask : ∀ n ∈ List.range 4, bitN 15 n = true := by decide
  rw [lowestFailed, ← List.head?_filterMap, List.filterMap_congr fun n hn => if_pos (hmask n hn)]

theorem Hc.lowestFailed_none (hnone : ∀ m < 4, (x.tag m).bits ≠ 3) : x.lowestFailed 15 = none := by
  rw [lowestFailed_eq, List.findSome?_eq_none_iff]
  intro n hn
  rw [TagSt.failure_of_bits (hnone n (List.mem_range.mp hn)), Option.map_none]

theorem Hc.lowestFailed_some {n c : Nat} (hn : n < 4) (hfail : x.tag n = .failed c) (hlow : ∀ m < n, (x.tag m).bits ≠ 3) :
    x.lowestFailed 15 = some (n, c) := by
  rw [lowestFailed_eq, List.findSome?_eq_some_iff]
  refine ⟨List.range n, n, (List.range (4 - (n + 1))).map (n + 1 + ·), ?_, by rw [hfail]; rfl, fun m hm => ?_⟩
  · interval_cases n <;> rfl
  · rw [TagSt.failure_of_bits (hlow m (List.mem_range.mp hm)), Option.map_none]

end Tags

/-- Settles O48: the word is the states of the tags below 256, and the status of the lowest FAILED one above. -/
theorem tagWord : Obligations.TagWord := by
  unfold Obligations.TagWord
  intro x n hn st
  have hst (t : TagSt) : st t = t.bits := by cases t <;> rfl
  have hbits := x.tagBits_lt
  have hstatus : x.tagStatus < 256 := Nat.mod_lt _ (by decide)
  simp only [hst, x.tagWord_toNat]
  refine ⟨x.tagBits_field hn, by omega, fun hnone => ?_, fun c hc hfail hlow => ?_⟩
  · rw [x.tagStatus_field, Hc.tagStatus, x.lowestFailed_none hnone]
    rfl
  · rw [x.tagStatus_field, Hc.tagStatus, x.lowestFailed_some hn hfail hlow]
    exact Nat.mod_eq_of_lt hc

end Sys2Proof.Machine

/-!
PROOF. Admission of a command (R65, R68, R70, R72): a command whose checks pass on an idle session executes in `commandStart`, which differs
from the state before in its session and in the cells of its frame only. Every claim about one command starts from these facts.
-/

namespace Sys2Proof.Machine

/-! ### What acceptance leaves as it was -/

section CommandStart

variable (s : State) (x : Session) (f : CmdFrame)

@[simp] theorem commandStart_clock : (commandStart s x f).clock = s.clock := rfl
@[simp] theorem commandStart_idleClock : (commandStart s x f).idleClock = s.idleClock := rfl
@[simp] theorem commandStart_freeCount : (commandStart s x f).freeCount = s.freeCount := rfl
@[simp] theorem commandStart_regs : (commandStart s x f).regs = s.regs := rfl
@[simp] theorem commandStart_ports : (commandStart s x f).ports = s.ports := rfl
@[simp] theorem commandStart_canopy : (commandStart s x f).canopy = s.canopy := rfl
@[simp] theorem commandStart_flow : (commandStart s x f).flow = s.flow := rfl
@[simp] theorem commandStart_grove : (commandStart s x f).grove = s.grove := rfl
@[simp] theorem commandStart_tiers : (commandStart s x f).tiers = s.tiers := rfl
@[simp] theorem commandStart_facet : (commandStart s x f).facet = s.facet := rfl
@[simp] theorem commandStart_span : (commandStart s x f).span = s.span := rfl
@[simp] theorem commandStart_obs : (commandStart s x f).obs = s.obs := rfl
@[simp] theorem commandStart_compass : (commandStart s x f).compass = s.compass := rfl
@[simp] theorem commandStart_crown : (commandStart s x f).crown = s.crown := rfl
@[simp] theorem commandStart_flash : (commandStart s x f).flash = s.flash := rfl
@[simp] theorem commandStart_trust : (commandStart s x f).trust = s.trust := rfl
@[simp] theorem commandStart_pwr : (commandStart s x f).pwr = s.pwr := rfl
@[simp] theorem commandStart_dev : (commandStart s x f).gct.dev = s.gct.dev := rfl
@[simp] theorem commandStart_stopped : (commandStart s x f).gct.stopped = s.gct.stopped := rfl
@[simp] theorem commandStart_subs : (commandStart s x f).gct.subs = s.gct.subs := rfl
@[simp] theorem commandStart_modes : (commandStart s x f).gct.modes = s.gct.modes := rfl
@[simp] theorem commandStart_slots : (commandStart s x f).gct.slots = s.gct.slots := rfl

theorem accepting_eq : { x with next := x.next + 1, stored := (x.accepting f).stored } = x.accepting f := by
  unfold Session.accepting
  dsimp only

@[simp] theorem accepting_role : (x.accepting f).role = x.role := rfl
@[simp] theorem accepting_key : (x.accepting f).key = x.key := rfl

/-- The state in which an admitted command executes, with the number consumed first. -/
theorem commandStart_eq : commandStart s x f =
    setExec (consumeNumber (admitFrame s f) f.session x f) f.session (x.accepting f) f (.send (complete 0 [])) := rfl

end CommandStart

/-! ### The way of an admitted command -/

section Admitted

variable {s : State} {x : Session} {f : CmdFrame}

/-- On an idle session, a command that passes the checks up to its number executes at once (R70, R72). -/
theorem receiveCmd_of_idle (hdev : s.gct.dev ≠ .powered) (hfits : inboundFits s f = true) (hframe : framingOk s f = true)
    (hsess : f.session ≠ 0) (hget : sessionGet s f.session = some x) (htag : frameTag x.key f = f.tag) (hnext : x.next = f.seq)
    (hrole : roleMay x.role f.opcode = true) (hexec : x.exec = none) (hheld : x.held = []) :
    receiveCmd s f = commandEnd f (execute (commandStart s x f) f.session (x.accepting f) f) := by
  have haccept : sessionGet (consumeNumber (admitFrame s f) f.session x f) f.session = some (x.accepting f) := by
    have hadmit := (sessionGet_admitFrame s f f.session).trans hget
    rw [sessionGet_consumeNumber hadmit, accepting_eq]
  rw [receiveCmd_of_openSession hdev hfits hframe hsess hget, sessionCmd_of_checksPassed htag hnext hrole,
    acceptCmd_of_idle hexec hheld]
  unfold beginCmd commandEnd
  rw [haccept]
  dsimp only
  rw [← commandStart_eq]

/-- A legal command with a listed opcode and a clean header is run by its opcode (R68, R75, R82). -/
theorem execute_of_legal {i : Nat} (hhead : headOk f = true) (hlisted : (opcodeRoles f.opcode).isSome = true)
    (hlegal : legalIn s.gct.dev f.opcode = true) : execute s i x f = runOpcode s i x f := by
  have hsome : (opcodeRoles f.opcode).isNone = false := by
    rw [← Option.not_isSome, hlisted]; rfl
  simp [execute, hhead, hsome, hlegal]

/-- An admitted command is run by its opcode in the state that its acceptance leaves. -/
theorem receiveCmd_of_admitted (h : Admitted s x f) :
    receiveCmd s f = commandEnd f (runOpcode (commandStart s x f) f.session (x.accepting f) f) := by
  obtain ⟨hdev, hfits, hframe, hsess, hget, htag, hnext, hrole, hexec, hheld, hhead, hlisted, hlegal⟩ := h
  rw [receiveCmd_of_idle hdev hfits hframe hsess hget htag hnext hrole hexec hheld,
    execute_of_legal hhead hlisted (by rw [commandStart_dev]; exact hlegal)]

/-- A command of the session as it stands in execution, the `n`-th to begin. -/
def Session.executing (x : Session) (f : CmdFrame) (n : Nat) : ExecCmd :=
  { cmd := f, wait := .send (complete 0 []), key := x.key, role := x.role.code, slot := x.keySlot, order := n, waited := false }

/-- The session of a command in execution: its number is consumed and the command stands in execution (R70, R72). -/
theorem sessionGet_commandStart (hget : sessionGet s f.session = some x) :
    sessionGet (commandStart s x f) f.session = some { x.accepting f with
      exec := some (x.executing f s.gct.begun) } := by
  have hadmit := (sessionGet_admitFrame s f f.session).trans hget
  rw [commandStart_eq]
  unfold setExec
  dsimp only
  rw [sessionGet_sessionMod_self, sessionGet_consumeNumber hadmit, accepting_eq, Option.map_some]
  rfl

theorem sessionGet_commandStart_ne {j : Nat} (h : j ≠ f.session) : sessionGet (commandStart s x f) j = sessionGet s j := by
  rw [commandStart_eq]
  unfold setExec consumeNumber
  dsimp only
  rw [sessionGet_sessionMod_ne _ _ h, sessionGet_sessionMod_ne _ _ h, sessionGet_admitFrame]

end Admitted

/-- Settles O14: the checks lead to `execute` in `commandStart`, and that state is the old one but for the session and the frame's cells. -/
theorem admittedCommandExecutes : Obligations.AdmittedCommandExecutes := by
  unfold Obligations.AdmittedCommandExecutes
  refine ⟨fun s x f h => receiveCmd_of_admitted h, fun s x f hget => ?_⟩
  dsimp only
  refine ⟨rfl, fun j hj => sessionGet_commandStart_ne hj, _, sessionGet_commandStart hget, rfl, rfl, rfl, rfl, rfl⟩

end Sys2Proof.Machine

/-!
PROOF. The checks of a command in their order (R68, R69, R73), and the commands without arguments (R75, R79, R84). Each check that fails
gives its own equation of `sessionCmd`; each command is `runOpcode` at its opcode.
-/

namespace Sys2Proof.Machine

/-! ### A frame of the row of an opcode -/

section Rows

variable {s : State} {x : Session} {f : CmdFrame} {op n v : Nat}

/-- An admitted frame of the row of an opcode does what the opcode does (R68, R72). -/
theorem receiveOp_of_admitted (h : Admitted s x (frameWithOpcode f op)) :
    receiveOp s op f = commandEnd (frameWithOpcode f op)
      (runOpcode (commandStart s x (frameWithOpcode f op)) (frameWithOpcode f op).session (x.accepting (frameWithOpcode f op))
        (frameWithOpcode f op)) :=
  receiveCmd_of_admitted h

/-- An admitted frame of the row of a sub-operation does what its opcode does. -/
theorem receiveSub_of_admitted (h : Admitted s x (frameWithByte (frameWithOpcode f op) n v)) :
    receiveSub s op n v f = commandEnd (frameWithByte (frameWithOpcode f op) n v)
      (runOpcode (commandStart s x (frameWithByte (frameWithOpcode f op) n v)) (frameWithByte (frameWithOpcode f op) n v).session
        (x.accepting (frameWithByte (frameWithOpcode f op) n v)) (frameWithByte (frameWithOpcode f op) n v)) :=
  receiveCmd_of_admitted h

theorem bare_of_empty {h : Handled} (hlen : f.length = 0) : bare s f h = h := if_pos hlen

end Rows

/-! ### The checks in their order -/

section Checks

variable {s : State} {x : Session} {f : CmdFrame} {i : Nat}

/-- A wrong tag, or a number that lies too far back, fails the checks (R73). -/
theorem sessionCmd_of_authFails (h : frameTag x.key f ≠ f.tag ∨ f.seq + 256 < x.next) : sessionCmd s i x f = authFail s i x f := by
  have hbad : (frameTag x.key f != f.tag || decide (f.seq + 256 < x.next)) = true := by
    simpa [bne_iff_ne] using h
  unfold sessionCmd
  rw [if_pos hbad]

theorem not_authFails (htag : frameTag x.key f = f.tag) (hnear : x.next ≤ f.seq + 256) :
    ¬ (frameTag x.key f != f.tag || decide (f.seq + 256 < x.next)) = true := by
  simp [htag, hnear]

/-- A number that was accepted before is a duplicate (R69). -/
theorem sessionCmd_of_duplicate (htag : frameTag x.key f = f.tag) (hnear : x.next ≤ f.seq + 256) (hold : f.seq < x.next) :
    sessionCmd s i x f = duplicateCmd s x f := by
  unfold sessionCmd
  rw [if_neg (not_authFails htag hnear), if_pos hold]

/-- A role without the right gives ROLE_DENIED (R68, R75). -/
theorem sessionCmd_of_roleDenied (htag : frameTag x.key f = f.tag) (hnext : x.next ≤ f.seq) (hrole : roleMay x.role f.opcode = false) :
    sessionCmd s i x f = answerNow s f x.key x.role.code x.keySlot (.send (complete 0x11 [])) := by
  unfold sessionCmd
  rw [if_neg (not_authFails htag (Nat.le_add_right_of_le hnext)), if_neg (Nat.not_lt.mpr hnext), hrole]
  rfl

/-- A number after the expected one gives BAD_ARGS with the flag GAP (R70). -/
theorem sessionCmd_of_gap (htag : frameTag x.key f = f.tag) (hnext : x.next < f.seq) (hrole : roleMay x.role f.opcode = true) :
    sessionCmd s i x f = answerNow s f x.key x.role.code x.keySlot (.send { status := 0x0D, flags := 2, body := [] }) := by
  unfold sessionCmd
  rw [if_neg (not_authFails htag (by omega)), if_neg (by omega), hrole, Bool.not_true, if_neg Bool.false_ne_true, if_pos hnext]

/-- A command that takes no arguments, without any, is refused in no other way before the state check (R30). -/
theorem earlyStatus_of_bare (hlen : f.length = 0) (hop : f.opcode ∈ [0x0020, 0x0021, 0x0022, 0x0023, 0x0024, 0x0025]) :
    earlyStatus s i x f = 0x0C := by
  simp only [List.mem_cons, List.not_mem_nil, or_false] at hop
  rcases hop with hop | hop | hop | hop | hop | hop <;>
    simp [earlyStatus, runOpcode, hop, moveTo, stopCmd, maintEnter, bare_of_empty hlen, handled, complete]

theorem opcodeRoles_of_bare {op : Nat} (hop : op ∈ [0x0020, 0x0021, 0x0022, 0x0023, 0x0024, 0x0025]) :
    (opcodeRoles op).isNone = false := by
  simp only [List.mem_cons, List.not_mem_nil, or_false] at hop
  rcases hop with rfl | rfl | rfl | rfl | rfl | rfl <;> rfl

end Checks

/-- Settles O15: the first check that fails decides the answer, and the frame's cells return after it. -/
theorem commandChecks : Obligations.CommandChecks := by
  unfold Obligations.CommandChecks
  refine ⟨fun s x f hdev hfits hframe hsess hget => ?_, fun s f => ⟨fun hdev => ?_, fun hdev hfits => ?_, fun hdev hfits hframe => ?_⟩,
    fun s i x f hhead hlen hop hlegal => ?_⟩
  · have hreceive := receiveCmd_of_openSession hdev hfits hframe hsess hget
    refine ⟨fun hbad => ⟨fun hfew => ?_, fun hmany => ?_⟩, fun htag hnear hold => ?_, fun htag hnext hrole => ?_, fun htag hnext hrole => ?_⟩
    · rw [hreceive, sessionCmd_of_authFails hbad]
      exact congrArg settleSlice (if_neg (Nat.not_le.mpr hfew))
    · rw [hreceive, sessionCmd_of_authFails hbad]
      exact congrArg settleSlice (if_pos hmany)
    · rw [hreceive, sessionCmd_of_duplicate htag hnear hold]
      unfold duplicateCmd
      cases hfind : x.stored.find? (fun e => e.seq == f.seq) with
      | none => rfl
      | some e =>
        refine ⟨fun hother => ?_, fun hsame => ?_⟩
        · dsimp only
          rw [if_pos (bne_iff_ne.mpr hother)]
          rfl
        · dsimp only
          rw [if_neg (by simp [hsame])]
          cases e.done <;> rfl
    · rw [hreceive, sessionCmd_of_roleDenied htag hnext hrole]
    · rw [hreceive, sessionCmd_of_gap htag hnext hrole]
  · simp [receiveCmd, hdev]
  · simp [receiveCmd, hdev, hfits]
  · simp [receiveCmd, routeCmd, hdev, hfits, hframe]
  · simp [execute, hhead, opcodeRoles_of_bare hop, hlegal, earlyStatus_of_bare hlen hop]

/-! ### The commands without arguments -/

/-- Settles O17: each row is `runOpcode` at its opcode, whose body is empty. -/
theorem simpleCommands : Obligations.SimpleCommands := by
  unfold Obligations.SimpleCommands
  refine ⟨fun f s x hlen => ?_, fun s x f hdev hfits hframe hsess hget htag hnext hexec hheld hnone => ?_⟩
  · have hrow {op : Nat} {r : Handled}
        (hrun : ∀ (t : State) (i : Nat) (y : Session), t = commandStart s x (frameWithOpcode f op) →
          runOpcode t i y (frameWithOpcode f op) = bare t (frameWithOpcode f op) r) (h : Admitted s x (frameWithOpcode f op)) :
        receiveOp s op f = commandEnd (frameWithOpcode f op) r := by
      rw [receiveOp_of_admitted h, hrun _ _ _ rfl, bare_of_empty (f := frameWithOpcode f op) hlen]
    refine ⟨fun h => ?_, fun h => ?_, fun h => ?_, fun h => ?_, fun h => ?_, fun h => ?_, fun h => ?_, fun h => ?_, fun h => ?_,
      fun h => ?_, fun h => ?_⟩
    all_goals refine congrArg Host.Outcome.next (hrow (fun t i y ht => ?_) h); subst ht; rfl
  · have hrole : roleMay x.role f.opcode = true := by simp [roleMay, hnone]
    have hunlisted : execute (commandStart s x f) f.session (x.accepting f) f = refused (commandStart s x f) 0x0D := by
      simp [execute, hnone]
    refine congrArg Host.Outcome.next ?_
    rw [unknownOpcode, hnone, if_neg (by simp), receiveCmd_of_idle hdev hfits hframe hsess hget htag hnext hrole hexec hheld, hunlisted]

end Sys2Proof.Machine

/-!
PROOF. REG_READ, REG_WRITE, MEM_READ and MEM_WRITE (R76, R407). What each command answers is stated once, over the state in which it
executes; the row then is that answer.
-/

namespace Sys2Proof.Machine

/-! ### The row of a command is its answer -/

section CommandRows

variable {s : State} {x : Session} {f : CmdFrame} {op n v : Nat} {r : Handled}

theorem opRow_of_run (h : Admitted s x (frameWithOpcode f op))
    (hrun : runOpcode (commandStart s x (frameWithOpcode f op)) (frameWithOpcode f op).session (x.accepting (frameWithOpcode f op))
      (frameWithOpcode f op) = r) :
    (.next (receiveOp s op f) : Result) = .next (commandEnd (frameWithOpcode f op) r) := by
  rw [receiveOp_of_admitted h, hrun]

theorem subRow_of_run (h : Admitted s x (frameWithByte (frameWithOpcode f op) n v))
    (hrun : runOpcode (commandStart s x (frameWithByte (frameWithOpcode f op) n v)) (frameWithByte (frameWithOpcode f op) n v).session
      (x.accepting (frameWithByte (frameWithOpcode f op) n v)) (frameWithByte (frameWithOpcode f op) n v) = r) :
    (.next (receiveSub s op n v f) : Result) = .next (commandEnd (frameWithByte (frameWithOpcode f op) n v) r) := by
  rw [receiveSub_of_admitted h, hrun]

end CommandRows

/-! ### Registers -/

section Registers

variable {s : State} {role : Role} {g : CmdFrame} {a n : Nat}

/-- With arguments in range, REG_READ looks at every named register before it reads one. -/
theorem regRead_of_args (hlen : g.length = 16) (ha : a = beAt g.body 0 8) (hn : n = beAt g.body 8 8) (hargs : regArgsOk a n = true) :
    regRead s role g =
      if (regOffsets a n).any (fun o => readStatus s role o == 0x11) then refuse s 0x11
      else if (regOffsets a n).any (fun o => readStatus s role o != 0) then refuse s 0x0D
      else (complete 0 ((regOffsets a n).flatMap (fun o => beBytes 8 (readValue s o))), (regOffsets a n).foldl readClear s) := by
  subst ha hn
  simp [regRead, hlen, hargs]

theorem regRead_of_readable (hlen : g.length = 16) (ha : a = beAt g.body 0 8) (hn : n = beAt g.body 8 8) (hargs : regArgsOk a n = true)
    (hall : ∀ o ∈ regOffsets a n, readStatus s role o = 0) :
    regRead s role g =
      (complete 0 ((regOffsets a n).flatMap (fun o => beBytes 8 (readValue s o))), (regOffsets a n).foldl readClear s) := by
  have hdenied : ¬ (regOffsets a n).any (fun o => readStatus s role o == 0x11) = true := by
    simp only [List.any_eq_true, beq_iff_eq, not_exists, not_and]
    exact fun o ho => by rw [hall o ho]; decide
  have habsent : ¬ (regOffsets a n).any (fun o => readStatus s role o != 0) = true := by
    simp only [List.any_eq_true, bne_iff_ne, not_exists, not_and, not_not]
    exact hall
  rw [regRead_of_args hlen ha hn hargs, if_neg hdenied, if_neg habsent]

theorem regRead_of_denied (hlen : g.length = 16) (ha : a = beAt g.body 0 8) (hn : n = beAt g.body 8 8) (hargs : regArgsOk a n = true)
    (hdenied : ∃ o ∈ regOffsets a n, readStatus s role o = 0x11) : regRead s role g = refuse s 0x11 := by
  rw [regRead_of_args hlen ha hn hargs, if_pos (by simpa using hdenied)]

theorem regRead_of_absent (hlen : g.length = 16) (ha : a = beAt g.body 0 8) (hn : n = beAt g.body 8 8) (hargs : regArgsOk a n = true)
    (hallowed : ∀ o ∈ regOffsets a n, readStatus s role o ≠ 0x11) (habsent : ∃ o ∈ regOffsets a n, readStatus s role o ≠ 0) :
    regRead s role g = refuse s 0x0D := by
  rw [regRead_of_args hlen ha hn hargs, if_neg (by simpa using hallowed), if_pos (by simpa using habsent)]

/-- With arguments in range, REG_WRITE writes the registers in ascending order. -/
theorem regWrite_of_args (hlen : g.length = 16 + 8 * n) (ha : a = beAt g.body 0 8) (hn : n = beAt g.body 8 8) (hargs : regArgsOk a n = true) :
    regWrite s role g =
      (complete (writeRegs s role ((regOffsets a n).zip ((List.range n).map (fun i => beAt g.body (16 + 8 * i) 8)))).1 [],
        (writeRegs s role ((regOffsets a n).zip ((List.range n).map (fun i => beAt g.body (16 + 8 * i) 8)))).2) := by
  subst ha hn
  simp [regWrite, hlen, hargs]

theorem writeRegs_cons_taken {v : Nat} {l : List (Nat × Nat)} (h : writeStatus s role a v = 0) :
    writeRegs s role ((a, v) :: l) = writeRegs (writeReg s a v) role l := by
  rw [writeRegs, if_pos h]

theorem writeRegs_cons_refused {v : Nat} {l : List (Nat × Nat)} (h : writeStatus s role a v ≠ 0) :
    writeRegs s role ((a, v) :: l) = (writeStatus s role a v, s) := by
  rw [writeRegs, if_neg h]

end Registers

/-! ### Context memory -/

section ContextMemory

variable {s u : State} {g : CmdFrame} {ps : List (Nat × Nat)} {e : Nat}

theorem memRead_of_translated (hargs : memArgsOk s g false = true) (htrans : memTranslate s g .r = (.ok ps, u)) :
    memRead s g = (if (readPieces u ps).2.1 then complete 0x60 [] else complete 0 (readPieces u ps).1,
      if s.gct.stopped then s else (readPieces u ps).2.2) := by
  simp [memRead, hargs, htrans]

theorem memRead_of_fault (hargs : memArgsOk s g false = true) (htrans : memTranslate s g .r = (.error e, u)) :
    memRead s g = (complete e [], if s.gct.stopped then s else bump u .xltMemFault 0 0) := by
  simp [memRead, hargs, htrans]

theorem memWriteCmd_of_translated (hargs : memArgsOk s g true = true) (htrans : memTranslate s g .w = (.ok ps, u)) :
    memWriteCmd s g = (complete 0 [], writePieces u (g.body.drop 24) false ps) := by
  simp [memWriteCmd, hargs, htrans]

theorem memWriteCmd_of_fault (hargs : memArgsOk s g true = true) (htrans : memTranslate s g .w = (.error e, u)) :
    memWriteCmd s g = (complete e [], bump u .xltMemFault 0 0) := by
  simp [memWriteCmd, hargs, htrans]

end ContextMemory

/-- Settles O18: every row is the answer of its command in the state in which it executes. -/
theorem registerAndMemoryCommands : Obligations.RegisterAndMemoryCommands := by
  unfold Obligations.RegisterAndMemoryCommands
  refine ⟨⟨fun f s x a n => ?_, fun f s x a n => ?_, fun s role a v l => ⟨writeRegs_cons_taken, writeRegs_cons_refused⟩,
    fun b i s => rfl⟩, fun f s u x => ?_, fun f s u x => ?_⟩
  · intro g t h hlen ha hn hargs
    refine ⟨fun hall => opRow_of_run h ?_, fun hdenied => opRow_of_run h ?_, fun hallowed habsent => opRow_of_run h ?_⟩
    · exact congrArg handled (regRead_of_readable hlen ha hn hargs hall)
    · exact congrArg handled (regRead_of_denied hlen ha hn hargs hdenied)
    · exact congrArg handled (regRead_of_absent hlen ha hn hargs hallowed habsent)
  · intro g t h hlen ha hn hargs
    exact opRow_of_run h (congrArg handled (regWrite_of_args hlen ha hn hargs))
  · intro g t h hargs
    refine ⟨fun ps htrans => opRow_of_run h ?_, fun e htrans => opRow_of_run h ?_⟩
    · exact congrArg handled (memRead_of_translated hargs htrans)
    · exact congrArg handled (memRead_of_fault hargs htrans)
  · intro g t h hargs
    refine ⟨fun ps htrans => opRow_of_run h ?_, fun e htrans => opRow_of_run h ?_⟩
    · exact congrArg handled (memWriteCmd_of_translated hargs htrans)
    · exact congrArg handled (memWriteCmd_of_fault hargs htrans)

end Sys2Proof.Machine

/-!
PROOF. MODE_SET, SUBSCRIBE, RUN and the commands of result slots (R56, R58, R85–R91, R246, R432, R598): the answer of each command, and the
rows of slots and modes, one lemma per case.
-/

namespace Sys2Proof.Machine

/-! ### Modes and subscriptions -/

section Modes

variable {s : State} {g : CmdFrame} {i : Nat}

theorem modeSet_of_valid (h : modeStatus s g = 0) :
    modeSet s g = (complete 0 [], modesMod s (fun m => ((List.range (beAt g.body 0 2)).map (modeItem g.body)).foldl applyItem m)) := by
  simp [modeSet, h]

/-- With a well-formed body, SUBSCRIBE renews the session's subscription or adds one. -/
theorem subscribe_of_args (hlen : g.length = 8) (hresv : allZero (slice g.body 1 7) = true) (hcls : byteAt g.body 0 ≤ 2) :
    subscribe s i g = match subOf s (byteAt g.body 0) i with
      | some u => (complete 0 [], { s with gct := { s.gct with subs := s.gct.subs.map (fun y =>
          if y.cls == byteAt g.body 0 && y.session == i then
            { u with port := g.port, smac := g.smac, vlan := g.vlan, udp := g.udp } else y) } })
      | none =>
        if 4 ≤ (s.gct.subs.filter (fun y => y.cls == byteAt g.body 0)).length then refuse s 0x20
        else (complete 0 [], { s with gct := { s.gct with subs := s.gct.subs ++
          [{ cls := byteAt g.body 0, session := i, port := g.port, smac := g.smac, vlan := g.vlan, udp := g.udp, count := 0, lost := 0 }] } }) := by
  unfold subscribe
  dsimp only
  rw [if_neg (by simp [hlen, hresv, hcls])] <;> rfl

/-- At its effect point a mode takes its pending value, and Tier 3 requests that waited for it go on (R56). -/
theorem modeTakesEffect_of_due {code : Nat} (hstop : s.gct.stopped = true → code = 5) (hdue : modeDue s code = true) :
    modeTakesEffect s code = if code = 3 then
      { modesMod s (fun m => m.take code) with tiers := { (modesMod s (fun m => m.take code)).tiers with
        escal := (modesMod s (fun m => m.take code)).tiers.escal.map (fun e => { e with held := false }) } }
      else modesMod s (fun m => m.take code) := by
  have hgo : ¬ ((s.gct.stopped && code != 5) || !modeDue s code) = true := by
    simpa [hdue] using hstop
  rw [modeTakesEffect, if_neg hgo]

theorem modesTake_of_pending {m : Modes} {code v : Nat} (h : modePending m code = some v) :
    m.take code = { m.put code v with pending := m.pending.filter (fun e => e.1 != code) } := by
  rw [Modes.take, h]

end Modes

/-! ### Runs and result slots -/

section Slots

variable {s : State} {x : Session} {role : Role} {g : CmdFrame} {n : Nat} {r : ResultSlot}

/-- A well-formed RUN takes the free slot for a run that has not finished, and places the run (R85, R86). -/
theorem runNew_of_free {u : State} {v : Nat} (hlen : g.length = 32) (hresv : beAt g.body 6 2 = 0) (hfits : beAt g.body 24 8 ≤ 4096)
    (hround : beAt g.body 24 8 % 8 = 0) (hbits : freeBits s 12 = (v, u)) (hfree : freeSlotFrom u v 4096 = some n)
    (hrecord : r = { role := x.role, ctx := beAt g.body 0 2, resultLen := beAt g.body 24 8, ready := none, data := [], read := false
                     readyAt := 0 }) :
    runNew s x g = (complete 0 (beBytes 4 (slotHandle s n) ++ zeros 4),
      placeRun { u with gct := { u.gct with slots := finsert u.gct.slots n r } }
        n (beAt g.body 0 2) (beAt g.body 2 2) (beAt g.body 4 2) (beAt g.body 8 8) (beAt g.body 16 8) (beAt g.body 24 8)
        (contextRuns s (beAt g.body 0 2))) := by
  unfold runNew
  dsimp only
  rw [if_neg (by simp [hlen, hresv, hfits, hround]), hbits, hrecord]
  dsimp only
  rw [hfree]

theorem slotRead_of_running (harg : slotArg s role g = .ok (n, r)) (hrun : r.ready = none) : slotRead s role g = refuse s 0x01 := by
  simp only [slotRead, harg, hrun]

theorem slotRead_of_ready {st : Nat} {u : State} (harg : slotArg s role g = .ok (n, r)) (hready : r.ready = some st)
    (hu : u = if s.gct.stopped then s else readCells s ((slotCells n).take (1 + ceilDiv r.data.length 256))) :
    slotRead s role g =
      ({ status := if cellsFail u ((slotCells n).take (1 + ceilDiv r.data.length 256)) then 0x60 else st
         flags := if r.read then 4 else 0
         body := if cellsFail u ((slotCells n).take (1 + ceilDiv r.data.length 256)) then [] else r.data },
       { u with gct := { u.gct with slots := fmod u.gct.slots n (fun y => { y with read := true }) } }) := by
  subst hu
  simp only [slotRead, harg, hready]

/-- The islands stand: a release is only recorded (R598). -/
theorem slotRelease_of_standing (harg : slotArg s role g = .ok (n, r))
    (hstand : s.gct.dev = .halted ∨ (s.gct.dev = .faulted ∧ s.gct.stopped = true)) :
    slotRelease s role g = doneWith { s with gct := { s.gct with releases := s.gct.releases ++ [n] } } := by
  unfold slotRelease
  rw [harg]
  dsimp only
  rw [if_pos (by simpa using hstand)]
  rfl

theorem slotRelease_of_ready (harg : slotArg s role g = .ok (n, r))
    (hstand : ¬ (s.gct.dev = .halted ∨ (s.gct.dev = .faulted ∧ s.gct.stopped = true))) (hready : r.ready.isSome = true) :
    slotRelease s role g = doneWith (freeSlot s n) := by
  unfold slotRelease
  rw [harg]
  dsimp only
  rw [if_neg (by simpa using hstand), if_pos hready]
  rfl

theorem slotRelease_of_running (harg : slotArg s role g = .ok (n, r))
    (hstand : ¬ (s.gct.dev = .halted ∨ (s.gct.dev = .faulted ∧ s.gct.stopped = true))) (hrun : r.ready = none) :
    slotRelease s role g = (.cancel n, s) := by
  unfold slotRelease
  rw [harg]
  dsimp only
  rw [if_neg (by simpa using hstand), if_neg (by simp [hrun])]

/-- The run has stopped: the release that waited for it completes (R246). -/
theorem cancelComplete_of_stopped (hget : fget? s.gct.slots n = some r) (hwait : anyWait s (fun w => w == .cancel n) = true)
    (hend : r.ready.isSome = true ∨ (s.gct.stopped = false ∧ cancelWaits s r.ctx = false)) :
    cancelComplete s n = answerWait (dropSlot s n) (fun w => w == .cancel n) 0 [] := by
  have hgo : ¬ (!anyWait s (fun w => w == .cancel n) || (r.ready.isNone && (s.gct.stopped || cancelWaits s r.ctx))) = true := by
    rcases hend with hready | ⟨hstop, hidle⟩
    · simp [hwait, Option.isSome_iff_ne_none.mp hready]
    · simp [hwait, hstop, hidle]
  unfold cancelComplete
  rw [hget]
  exact if_neg hgo

theorem slotTtlExpiry_of_expired (hget : fget? s.gct.slots n = some r) (hdev : s.gct.dev ≠ .halted) (hready : r.ready.isSome = true)
    (hold : r.readyAt + msTicks (regF s .gctSlotTtl 0 0 0 32) ≤ s.idleClock) : slotTtlExpiry s n = freeSlot s n := by
  unfold slotTtlExpiry
  rw [hget]
  exact if_pos (by simp [hdev, hready, hold])

end Slots

/-- Settles O19: the commands by their answers, the rows of modes and slots by their cases. -/
theorem modesAndRuns : Obligations.ModesAndRuns := by
  unfold Obligations.ModesAndRuns
  refine ⟨⟨fun f s x => ?_, fun f s x => ?_, fun code s hstop hdue => ?_, fun m code v => modesTake_of_pending⟩,
    fun f s x n => ?_, fun f s x n r => ?_, fun f s x n r => ?_, fun n s r hget hwait hend => ?_, fun n s r hget hdev hready hold => ?_⟩
  · intro g t h hvalid
    exact opRow_of_run h (congrArg handled (modeSet_of_valid hvalid))
  · intro g t cls h hlen hresv hcls
    have hsub := subscribe_of_args (s := t) (i := g.session) hlen hresv hcls
    refine ⟨fun hnone hroom => ?_, fun hnone hfull => ?_, fun u hsome => ?_⟩
    · rw [show subOf t (byteAt g.body 0) g.session = none from hnone] at hsub
      exact opRow_of_run h (congrArg handled (hsub.trans (if_neg (Nat.not_le.mpr hroom))))
    · rw [show subOf t (byteAt g.body 0) g.session = none from hnone] at hsub
      exact opRow_of_run h (congrArg handled (hsub.trans (if_pos hfull)))
    · rw [show subOf t (byteAt g.body 0) g.session = some u from hsome] at hsub
      exact opRow_of_run h (congrArg handled hsub)
  · exact congrArg Host.Outcome.next (modeTakesEffect_of_due hstop hdue)
  · intro g t b u r h hlen hresv hfits hround hfree
    have hbits : freeBits t 12 = ((freeBits t 12).1, u) := rfl
    have hrun := runNew_of_free (s := t) (x := x.accepting g) (r := r) hlen hresv hfits hround hbits hfree rfl
    refine opRow_of_run h ?_
    change handled (runNew t (x.accepting g) g) = _
    rw [hrun, handled]
  · intro g t h harg
    refine ⟨fun hrun => opRow_of_run h (congrArg handled (slotRead_of_running harg hrun)), ?_⟩
    intro st hready cells u bad
    have hu : u = if t.gct.stopped then t else readCells t ((slotCells n).take (1 + ceilDiv r.data.length 256)) := rfl
    exact opRow_of_run h (congrArg handled (slotRead_of_ready harg hready hu))
  · intro g t standing h harg
    exact ⟨fun hstand => opRow_of_run h (slotRelease_of_standing harg hstand),
      fun hstand hready => opRow_of_run h (slotRelease_of_ready harg hstand hready),
      fun hstand hrun => opRow_of_run h (slotRelease_of_running harg hstand hrun)⟩
  · exact congrArg Host.Outcome.next (cancelComplete_of_stopped hget hwait hend)
  · exact congrArg Host.Outcome.next (slotTtlExpiry_of_expired hget hdev hready hold)

end Sys2Proof.Machine

/-!
PROOF. RULE_WRITE, RULE_SWAP, FLOW_READ and FLOW_DELETE (R145–R147, R167, R168), and the staging of images and firmware (R500, R524, R525):
the answer of each command by its branches.
-/

namespace Sys2Proof.Machine

/-! ### Opcodes whose rows name a sub-operation -/

section SubOpcodes

variable {s : State} {i : Nat} {x : Session} {f : CmdFrame}

theorem runOpcode_ruleWrite (h : f.opcode = 0x0040) : runOpcode s i x f = ruleWriteCmd s f := by
  rw [runOpcode, h]; rfl
theorem runOpcode_imageStage (h : f.opcode = 0x0060) : runOpcode s i x f = handled (imageStage s f) := by
  rw [runOpcode, h]; rfl
theorem runOpcode_modelActivate (h : f.opcode = 0x0061) : runOpcode s i x f = modelActivate s f := by
  rw [runOpcode, h]; rfl
theorem runOpcode_firmwareStage (h : f.opcode = 0x0062) : runOpcode s i x f = handled (firmwareStage s f) := by
  rw [runOpcode, h]; rfl
theorem runOpcode_traceCtl (h : f.opcode = 0x0081) : runOpcode s i x f = handled (traceCtl s f) := by
  rw [runOpcode, h]; rfl
theorem runOpcode_spanMember (h : f.opcode = 0x0090) : runOpcode s i x f = spanMember s f := by
  rw [runOpcode, h]; rfl
theorem runOpcode_appCmd (h : f.opcode = 0x00A0) : runOpcode s i x f = handled (appCmd s f) := by
  rw [runOpcode, h]; rfl

theorem subFrame_opcode (f : CmdFrame) (op n v : Nat) : (frameWithByte (frameWithOpcode f op) n v).opcode = op := by
  rw [frameWithByte_opcode, frameWithOpcode_opcode]

/-- An admitted frame of a command that the flash dies serve: what the dies do is set before it and forgotten after it. -/
theorem mediaRow_of_run {m : Media} {r : Handled} (h : Admitted (mediaPut s f m) x f)
    (hrun : runOpcode (commandStart (mediaPut s f m) x f) f.session (x.accepting f) f = r) :
    (.next (receiveMedia s f m) : Result) = .next (mediaDrop (commandEnd f r) f) := by
  rw [receiveMedia, receiveCmd_of_admitted h, hrun]

end SubOpcodes

/-! ### Rules and flows -/

section RulesAndFlows

variable {s u : State} {g : CmdFrame}

theorem ruleWriteCmd_of_free (hok : ruleWriteOk g.body = true) (hfree : ruleBlocked s (byteAt g.body 0) = false) :
    ruleWriteCmd s g = (.send (complete (ruleWrite s g.body).1 []), (ruleWrite s g.body).2) := by
  simp [ruleWriteCmd, hok, hfree]

theorem ruleWriteCmd_of_blocked (hok : ruleWriteOk g.body = true) (hblocked : ruleBlocked s (byteAt g.body 0) = true) :
    ruleWriteCmd s g = (.rulePins (byteAt g.body 0), s) := by
  simp [ruleWriteCmd, hok, hblocked]

theorem ruleSwapCmd_of_free (hlen : g.length = 8) (hresv : allZero (slice g.body 2 6) = true)
    (hfree : swapBlocked s (beAt g.body 0 2) s.gct.begun = false) : ruleSwapCmd s g = doneWith (ruleSwap s (beAt g.body 0 2)) := by
  simp [ruleSwapCmd, hlen, hresv, hfree, doneWith]

theorem ruleSwapCmd_of_blocked (hlen : g.length = 8) (hresv : allZero (slice g.body 2 6) = true)
    (hblocked : swapBlocked s (beAt g.body 0 2) s.gct.begun = true) : ruleSwapCmd s g = (.ruleSwap (beAt g.body 0 2), s) := by
  simp [ruleSwapCmd, hlen, hresv, hblocked]

theorem flowReadCmd_of_args (hok : flowBodyOk g.body false = true) :
    flowReadCmd s g = (complete 0 (flowRead s g.body).1, (flowRead s g.body).2) := by
  simp [flowReadCmd, hok]

theorem flowDeleteCmd_of_locked (hok : flowBodyOk g.body true = true) (hlocked : deleteBlocked s g.body = true) :
    flowDeleteCmd s g = (.flowLock, s) := by
  simp [flowDeleteCmd, hok, hlocked]

theorem flowDeleteCmd_of_found {note : Bytes} (hok : flowBodyOk g.body true = true) (hfree : deleteBlocked s g.body = false)
    (hdelete : flowDelete s g.body = (some note, u)) :
    flowDeleteCmd s g = if noteWaits u note then (.flowNote note, u) else doneWith u := by
  simp [flowDeleteCmd, hok, hfree, deleteNow, hdelete, doneWith]

theorem flowDeleteCmd_of_absent (hok : flowBodyOk g.body true = true) (hfree : deleteBlocked s g.body = false)
    (hdelete : flowDelete s g.body = (none, u)) : flowDeleteCmd s g = refused u 0x0D := by
  simp [flowDeleteCmd, hok, hfree, deleteNow, hdelete]

end RulesAndFlows

/-- Settles O20: each row is its command's answer; the five rows of RULE_WRITE share one. -/
theorem ruleAndFlowCommands : Obligations.RuleAndFlowCommands := by
  unfold Obligations.RuleAndFlowCommands
  refine ⟨⟨fun f s x op c hop => ?_, fun f s x => ?_⟩, fun f s x => ?_, fun f s u x => ?_⟩
  · intro g t h hok
    have hrow : exec (c f) s = .next (receiveSub s 0x0040 1 op f) := by
      simp only [List.mem_cons, Prod.mk.injEq, List.not_mem_nil, or_false] at hop
      rcases hop with ⟨rfl, rfl⟩ | ⟨rfl, rfl⟩ | ⟨rfl, rfl⟩ | ⟨rfl, rfl⟩ | ⟨rfl, rfl⟩ <;> rfl
    rw [hrow]
    refine ⟨fun hfree => subRow_of_run h ?_, fun hblocked => subRow_of_run h ?_⟩
    · exact (runOpcode_ruleWrite (subFrame_opcode f 0x0040 1 op)).trans (ruleWriteCmd_of_free hok hfree)
    · exact (runOpcode_ruleWrite (subFrame_opcode f 0x0040 1 op)).trans (ruleWriteCmd_of_blocked hok hblocked)
  · intro g t mask h hlen hresv
    exact ⟨fun hfree => opRow_of_run h (ruleSwapCmd_of_free hlen hresv hfree),
      fun hblocked => opRow_of_run h (ruleSwapCmd_of_blocked hlen hresv hblocked)⟩
  · intro g t h hok
    exact opRow_of_run h (congrArg handled (flowReadCmd_of_args hok))
  · intro g t h hok
    exact ⟨fun hlocked => opRow_of_run h (flowDeleteCmd_of_locked hok hlocked),
      fun note hfree hdelete => opRow_of_run h (flowDeleteCmd_of_found hok hfree hdelete),
      fun hfree hdelete => opRow_of_run h (flowDeleteCmd_of_absent hok hfree hdelete)⟩

/-! ### Staging -/

section Staging

variable {s : State} {g : CmdFrame} {d d' : Stage}

theorem imageStage_begin (hok : stageOk g false = true) (hop : byteAt g.body 0 = 1) (hfree : imageInUse s (beAt g.body 4 4) = false)
    (hroom : libraryHeld (flashMod s (fun y => { y with stages := ferase y.stages (beAt g.body 4 4) })) + beAt g.body 8 8 ≤ partSize 3) :
    imageStage s g = (complete 0 [], flashMod (flashMod s (fun y => { y with stages := ferase y.stages (beAt g.body 4 4) }))
      (fun y => { y with stages := finsert y.stages (beAt g.body 4 4) (Stage.begin_ (beAt g.body 8 8)) })) := by
  unfold imageStage
  dsimp only
  rw [if_neg (by simp [hok])]
  simp only [hop]
  rw [if_neg (by simp [hfree]), if_neg (Nat.not_lt.mpr hroom)]

theorem imageStage_data (hok : stageOk g false = true) (hop : byteAt g.body 0 = 2) (hget : fget? s.flash.stages (beAt g.body 4 4) = some d)
    (hdata : stageData d (beAt g.body 8 8) (g.body.drop 24) = some d') :
    imageStage s g = if s.flash.spent then refuse s 0x20
      else (complete 0 [], flashMod (mediaCount (mediaTake s g).2 (mediaTake s g).1) (fun y =>
        countWritten { y with stages := finsert y.stages (beAt g.body 4 4) d' } 3 (g.length - 24))) := by
  unfold imageStage
  dsimp only
  rw [if_neg (by simp [hok])]
  simp only [hop]
  rw [hget, Option.bind_some, hdata]

theorem imageStage_finish (hok : stageOk g false = true) (hop : byteAt g.body 0 = 3) (hget : fget? s.flash.stages (beAt g.body 4 4) = some d)
    (hwhole : d.data.length = d.total) (hfresh : d.used = false) :
    imageStage s g = if lanvikVerifies s d.data (beAt g.body 4 4) then
        (complete 0 [], flashMod (flashMod s (fun y => { y with stages := ferase y.stages (beAt g.body 4 4) }))
          (fun y => { y with images := finsert y.images (beAt g.body 4 4) d.data }))
      else refuse (sigBad (flashMod s (fun y => { y with stages := ferase y.stages (beAt g.body 4 4) }))) 0x70 := by
  unfold imageStage
  dsimp only
  rw [if_neg (by simp [hok])]
  simp only [hop]
  rw [hget]
  dsimp only
  rw [if_neg (by simp [hwhole]), if_neg (by simp [hfresh])]

theorem imageStage_delete (hok : stageOk g false = true) (hop : byteAt g.body 0 = 4)
    (hfree : imageInUse s (beAt g.body 4 4) = false ∨ fget? s.flash.images (beAt g.body 4 4) = none)
    (hsome : (fget? s.flash.images (beAt g.body 4 4)).isSome = true ∨ (fget? s.flash.stages (beAt g.body 4 4)).isSome = true) :
    imageStage s g = (complete 0 [], flashMod s (fun y =>
      { y with stages := ferase y.stages (beAt g.body 4 4), images := ferase y.images (beAt g.body 4 4) })) := by
  have hpresent : ¬ ((fget? s.flash.stages (beAt g.body 4 4)).isNone && (fget? s.flash.images (beAt g.body 4 4)).isNone) = true := by
    rcases hsome with h | h <;> simp [Option.isSome_iff_ne_none.mp h]
  have hidle : ¬ (imageInUse s (beAt g.body 4 4) && (fget? s.flash.images (beAt g.body 4 4)).isSome) = true := by
    rcases hfree with h | h <;> simp [h]
  unfold imageStage
  dsimp only
  rw [if_neg (by simp [hok])]
  simp only [hop]
  rw [if_neg hpresent, if_neg hidle]

theorem firmwareStage_begin (hok : stageOk g true = true) (hop : byteAt g.body 0 = 1) (hslot : byteAt g.body 1 ≠ s.trust.runSlot)
    (hroom : beAt g.body 8 8 ≤ partSize 0) :
    firmwareStage s g = (complete 0 [], flashMod s (fun y =>
      { y with fw := fput y.fw (byteAt g.body 1) (some (Stage.begin_ (beAt g.body 8 8))) })) := by
  unfold firmwareStage
  dsimp only
  rw [if_neg (by simp [hok])]
  simp only [hop]
  rw [if_neg hslot, if_neg (Nat.not_lt.mpr hroom)]

theorem firmwareStage_data (hok : stageOk g true = true) (hop : byteAt g.body 0 = 2) (hget : fget? s.flash.fw (byteAt g.body 1) = some d)
    (hdata : stageData d (beAt g.body 8 8) (g.body.drop 24) = some d') :
    firmwareStage s g = if s.flash.spent then refuse s 0x20
      else (complete 0 [], flashMod
        (mediaCount (flashMod (mediaTake s g).2 (fun y => { y with fw := fput y.fw (byteAt g.body 1) (some d') })) (mediaTake s g).1)
        (fun y => countWritten y (byteAt g.body 1) (g.length - 24))) := by
  unfold firmwareStage
  dsimp only
  rw [if_neg (by simp [hok])]
  simp only [hop]
  rw [hget, Option.bind_some, hdata]

theorem firmwareStage_finish (hok : stageOk g true = true) (hop : byteAt g.body 0 = 3) (hget : fget? s.flash.fw (byteAt g.body 1) = some d)
    (hwhole : d.data.length = d.total) (hfresh : d.complete = false) :
    firmwareStage s g = if firmwareVerifies s d.data then
        (complete 0 [], flashMod s (fun y => { y with fw := fput y.fw (byteAt g.body 1) (some { d with complete := true }) }))
      else refuse (sigBad (flashMod s (fun y => { y with fw := fput y.fw (byteAt g.body 1) none }))) 0x70 := by
  unfold firmwareStage
  dsimp only
  rw [if_neg (by simp [hok])]
  simp only [hop]
  rw [hget]
  dsimp only
  rw [if_neg (by simp [hwhole, hfresh])]

theorem firmwareActivate_of_image {img : Bytes} (hlen : g.length = 8) (hslot : byteAt g.body 0 ≤ 1) (hflags : byteAt g.body 1 ≤ 1)
    (hresv : allZero (slice g.body 2 6) = true) (himg : firmwareAt s (byteAt g.body 0) = some img) :
    firmwareActivate s g = if firmwareVerifies s img then
        (complete 0 [], trustMod s (fun y =>
          { y with bootSlot := byteAt g.body 0, minSvn := if byteAt g.body 1 = 1 then leAt img 8 4 else y.minSvn }))
      else refuse (sigBad s) 0x70 := by
  unfold firmwareActivate
  dsimp only
  rw [if_neg (by simp [hlen, hslot, hflags, hresv]), himg]

/-- The answer of a check that may refuse, as a command's result. -/
theorem handled_ite (p : Prop) [Decidable p] (t u : State) (n : Nat) :
    handled (if p then (complete 0 [], t) else refuse u n) = if p then doneWith t else refused u n := by
  split <;> rfl

end Staging

/-- Settles O21: each row is the branch of its command that the sub-operation names. -/
theorem stagingCommands : Obligations.StagingCommands := by
  unfold Obligations.StagingCommands
  refine ⟨fun f s x => ?_, fun f s x => ?_⟩
  · intro g id off t
    have hop (n : Nat) : (g n).opcode = 0x0060 := subFrame_opcode f 0x0060 0 n
    refine ⟨?_, fun m d d' => ?_, fun d => ?_, ?_⟩
    · intro h hok hsub hfree u hroom
      exact subRow_of_run h ((runOpcode_imageStage (hop 1)).trans (congrArg handled (imageStage_begin (s := t 1) hok hsub hfree hroom)))
    · intro s1 u h hok hsub hget hdata
      have hrun : runOpcode u (g 2).session (x.accepting (g 2)) (g 2) = _ :=
        (runOpcode_imageStage (hop 2)).trans (congrArg handled (imageStage_data (s := u) hok hsub hget hdata))
      exact ⟨fun hspent => mediaRow_of_run h (hrun.trans (congrArg handled (if_pos hspent))),
        fun hspent => mediaRow_of_run h (hrun.trans (congrArg handled (if_neg (ne_true_of_eq_false hspent))))⟩
    · intro h hok hsub hget hwhole hfresh erased
      exact subRow_of_run h ((runOpcode_imageStage (hop 3)).trans
        ((congrArg handled (imageStage_finish (s := t 3) hok hsub hget hwhole hfresh)).trans (handled_ite _ _ _ _)))
    · intro h hok hsub hfree hsome
      exact subRow_of_run h ((runOpcode_imageStage (hop 4)).trans (congrArg handled (imageStage_delete (s := t 4) hok hsub hfree hsome)))
  · intro g slot t
    have hop (n : Nat) : (g n).opcode = 0x0062 := subFrame_opcode f 0x0062 0 n
    refine ⟨?_, fun m d d' => ?_, fun d => ?_, fun img => ?_⟩
    · intro h hok hsub hslot hroom
      exact subRow_of_run h ((runOpcode_firmwareStage (hop 1)).trans (congrArg handled (firmwareStage_begin (s := t 1) hok hsub hslot hroom)))
    · intro s1 u h hok hsub hget hdata
      have hrun : runOpcode u (g 2).session (x.accepting (g 2)) (g 2) = _ :=
        (runOpcode_firmwareStage (hop 2)).trans (congrArg handled (firmwareStage_data (s := u) hok hsub hget hdata))
      exact ⟨fun hspent => mediaRow_of_run h (hrun.trans (congrArg handled (if_pos hspent))),
        fun hspent => mediaRow_of_run h (hrun.trans (congrArg handled (if_neg (ne_true_of_eq_false hspent))))⟩
    · intro h hok hsub hget hwhole hfresh put
      exact subRow_of_run h ((runOpcode_firmwareStage (hop 3)).trans
        ((congrArg handled (firmwareStage_finish (s := t 3) hok hsub hget hwhole hfresh)).trans (handled_ite _ _ _ _)))
    · intro g' u h hlen hslot hflags hresv himg
      exact opRow_of_run h ((congrArg handled (firmwareActivate_of_image (s := u) hlen hslot hflags hresv himg)).trans (handled_ite _ _ _ _))

end Sys2Proof.Machine

/-!
PROOF. FLASH_READ, FLASH_WRITE and FLASH_ERASE (R497, R509, R510), and ATTEST_QUOTE, AUDIT_READ, COUNTER_READ, TRACE_CTL and SCAN_OUT (R530,
R533, R551, R563, R569): the answer of each command whose arguments are in range.
-/

namespace Sys2Proof.Machine

/-! ### The flash commands -/

section Flash

variable {s : State} {g : CmdFrame} {part off n : Nat}

theorem flashRead_of_args (hlen : g.length = 24) (hresv : flashReservedOk g.body = true) (hfields : flashFields g.body = (part, off, n))
    (hsize : n = 4096 ∨ n = 8192) (hlow : 3 ≤ part) (hhigh : part ≤ 5)
    (hcapture : part = 4 → s.flash.tail ≤ off ∧ off + n ≤ s.flash.head)
    (hother : part ≠ 4 → off % 4096 = 0 ∧ off + n ≤ partSize part) : flashRead s g = flashReadAt s g part off n := by
  have hargs : ¬ (g.length != 24 || !flashReservedOk g.body || (n != 4096 && n != 8192)) = true := by
    rcases hsize with rfl | rfl <;> simp [hlen, hresv]
  have hring : ¬ (part = 4 && (decide (off < s.flash.tail) || decide (s.flash.head < off + n))) = true := by
    by_cases h4 : part = 4
    · obtain ⟨htail, hhead⟩ := hcapture h4
      simp [htail, hhead]
    · simp [h4]
  have hplain : ¬ (part != 4 && (off % 4096 != 0 || decide (partSize part < off + n))) = true := by
    by_cases h4 : part = 4
    · simp [h4]
    · obtain ⟨halign, hend⟩ := hother h4
      simp [halign, hend]
  unfold flashRead
  dsimp only
  rw [hfields]
  dsimp only
  rw [if_neg (by simp; omega), if_neg (by simp [hlow, hhigh]), if_neg hargs, if_neg hring, if_neg hplain]

/-- A read counts what its sectors meet, and returns the bytes where no sector is lost (R497). -/
theorem flashReadAt_eq : flashReadAt s g part off n =
    if (sectorsOf off n).any (sectorLost (mediaLost (mediaCount (mediaTake s g).2 (mediaTake s g).1) part (sectorsOf off n) (mediaTake s g).1.ue) part)
    then refuse (mediaLost (mediaCount (mediaTake s g).2 (mediaTake s g).1) part (sectorsOf off n) (mediaTake s g).1.ue) 0x60
    else (complete 0 (flashData (mediaLost (mediaCount (mediaTake s g).2 (mediaTake s g).1) part (sectorsOf off n) (mediaTake s g).1.ue)
      part off n), mediaLost (mediaCount (mediaTake s g).2 (mediaTake s g).1) part (sectorsOf off n) (mediaTake s g).1.ue) := rfl

theorem flashWrite_of_args (hlen : g.length = 4120) (hresv : flashReservedOk g.body = true) (hfields : flashFields g.body = (5, off, 4096))
    (halign : off % 4096 = 0) (hend : off + 4096 ≤ partSize 5) (hwhole : s.flash.degraded = false) (hspare : s.flash.spent = false) :
    flashWrite s g = (complete 0 [], flashMod (mediaCount (mediaTake s g).2 (mediaTake s g).1) (fun y => countWritten { y with
      snap := flashPut (y.snap.filter (fun e => !(decide (off ≤ e.1) && decide (e.1 < off + 4096)))) off (slice g.body 24 4096)
      badSectors := clearSectors y.badSectors 5 off 4096 } 5 4096)) := by
  unfold flashWrite
  dsimp only
  rw [hfields]
  dsimp only
  rw [if_neg (by simp), if_neg (by simp), if_neg (by simp [hlen, hresv, halign, hend]), if_neg (by simp [hwhole, hspare])]

theorem flashErase_capture (hlen : g.length = 24) (hresv : flashReservedOk g.body = true) (hwhole : s.flash.degraded = false)
    (hfields : flashFields g.body = (4, 0, 0)) :
    flashErase s g = (complete 0 [], flashMod s (fun y => { y with
      cap := [], head := 0, tail := 0, badSectors := y.badSectors.filter (fun e => e.1 / 2 ^ 40 != 4) })) := by
  unfold flashErase
  dsimp only
  rw [hfields]
  dsimp only
  rw [if_neg (by simp), if_neg (by simp), if_neg (by simp [hlen, hresv]), if_pos rfl, if_neg (by simp), if_neg (by simp [hwhole])]

theorem flashErase_snapshot (hlen : g.length = 24) (hresv : flashReservedOk g.body = true) (hwhole : s.flash.degraded = false)
    (hfields : flashFields g.body = (5, off, n)) (halign : off % 67108864 = 0) (hround : n % 67108864 = 0) (hsome : n ≠ 0)
    (hend : off + n ≤ partSize 5) :
    flashErase s g = (complete 0 [], flashMod s (fun y => { y with
      snap := y.snap.filter (fun e => !(decide (off ≤ e.1) && decide (e.1 < off + n)))
      badSectors := y.badSectors.filter (fun e =>
        !(e.1 / 2 ^ 40 == 5 && decide (off ≤ e.1 % 2 ^ 40 * 4096) && decide (e.1 % 2 ^ 40 * 4096 < off + n))) })) := by
  unfold flashErase
  dsimp only
  rw [hfields]
  dsimp only
  rw [if_neg (by simp), if_neg (by simp), if_neg (by simp [hlen, hresv]), if_neg (by simp),
    if_neg (by simp [halign, hround, hsome, hend]), if_neg (by simp [hwhole])]

end Flash

/-! ### Quotes, audit records, counters, trace and scan -/

section Evidence

variable {s : State} {g : CmdFrame} {i : Nat} {y : Session} {q : Quote}

/-- A request for a new quote keeps it with a fresh ID (R530). -/
theorem attestQuote_new (hget : sessionGet s i = some y) (hlen : g.length = 48) (hresv : allZero (slice g.body 12 4) = true)
    (hoff : beAt g.body 0 8 = 0) (hid : beAt g.body 8 4 = 0)
    (hq : q = { id := if (freeBits s 32).1 = 0 then 1 else (freeBits s 32).1, bytes := quoteBytes s y (slice g.body 16 32) }) :
    attestQuote s i g = (quotePart q 0, trustMod (freeBits s 32).2 (fun z =>
      { z with quotes := finsert z.quotes i q, quoteCount := z.quoteCount + 1 })) := by
  subst hq
  unfold attestQuote
  dsimp only
  rw [hget]
  dsimp only
  rw [if_neg (by simp [hlen, hresv, hoff]), if_pos (by simp [hoff, hid])]

/-- Every other request reads a part of the quote that is kept. -/
theorem attestQuote_part (hget : sessionGet s i = some y) (hlen : g.length = 48) (hresv : allZero (slice g.body 12 4) = true)
    (halign : beAt g.body 0 8 % 8176 = 0) (hend : beAt g.body 0 8 < 26592) (hlater : beAt g.body 0 8 ≠ 0 ∨ beAt g.body 8 4 ≠ 0) :
    attestQuote s i g = match fget? s.trust.quotes i with
      | none => refuse s 0x02
      | some q => if q.id = beAt g.body 8 4 then (quotePart q (beAt g.body 0 8), s) else refuse s 0x02 := by
  have hnot : ¬ (beAt g.body 0 8 = 0 && beAt g.body 8 4 == 0) = true := by
    rcases hlater with h | h <;> simp [h]
  unfold attestQuote
  dsimp only
  rw [hget]
  dsimp only
  rw [if_neg (by simp [hlen, hresv, halign, hend]), if_neg hnot] <;> rfl

theorem auditRead_of_args (hlen : g.length = 16) (hresv : allZero (slice g.body 10 6) = true) (hlow : 1 ≤ beAt g.body 8 2)
    (hhigh : beAt g.body 8 2 ≤ 127) :
    auditRead s g = match fget? (auditAll s) (beAt g.body 0 8) with
      | none => refuse s 0x02
      | some r => (complete 0 (beBytes 8 (beAt g.body 0 8) ++ beBytes 8 (((auditAll s).head?.map Prod.fst).getD 0) ++
          beBytes 8 s.trust.nextSeq ++ r.before ++ zeros 8 ++ ((List.range (beAt g.body 8 2)).filterMap (fun i =>
            (fget? (auditAll s) (beAt g.body 0 8 + i)).map (fun y => y.bytes))).flatten), s) := by
  unfold auditRead
  dsimp only
  rw [if_neg (by simp [hlen, hresv]; omega)] <;> rfl

/-- COUNTER_READ of counters that exist, by a role that may read the class (R551): what is returned depends on the class. -/
theorem counterRead_of_args {role : Role} (hlen : g.length = 8) (hresv : byteAt g.body 1 = 0)
    (hctx : byteAt g.body 0 ≠ 2 → beAt g.body 2 2 = 0) (hlow : 1 ≤ beAt g.body 6 2) (hhigh : beAt g.body 6 2 ≤ 512)
    (hlisted : ∀ i ∈ rangeFrom (beAt g.body 4 2) (beAt g.body 6 2), counterListed (byteAt g.body 0) i = true)
    (hrole : byteAt g.body 0 = 0 ∨ role = .operator) :
    counterRead s role g =
      if byteAt g.body 0 = 2 then
        match (setOf s (beAt g.body 2 2)).bind (fget? s.obs.sets) with
        | none => refuse s 0x0D
        | some x =>
          let r := bankValues s x.live (rangeFrom (beAt g.body 4 2) (beAt g.body 6 2))
          let q := bankValues r.2 x.final (rangeFrom (beAt g.body 4 2) (beAt g.body 6 2))
          (complete 0 (beBytes 8 (stampNow s) ++ beBytes 4 x.bounds ++ zeros 4 ++ r.1 ++ q.1), q.2)
      else
        let r := counterValues s (byteAt g.body 0) (fun i => fgetD 0 s.obs.ctr (ctrKey (byteAt g.body 0) i))
          (rangeFrom (beAt g.body 4 2) (beAt g.body 6 2))
        (complete 0 (beBytes 8 (stampNow s) ++ zeros 8 ++ r.1), r.2) := by
  have hmay : ¬ ((byteAt g.body 0 == 1 || byteAt g.body 0 == 2) && role != .operator) = true := by
    rcases hrole with h | h <;> simp [h]
  have hargs : ¬ (g.length != 8 || byteAt g.body 1 != 0 || (byteAt g.body 0 != 2 && beAt g.body 2 2 != 0) || beAt g.body 6 2 = 0 ||
      decide (512 < beAt g.body 6 2) || !(rangeFrom (beAt g.body 4 2) (beAt g.body 6 2)).all (counterListed (byteAt g.body 0))) = true := by
    have hall : (rangeFrom (beAt g.body 4 2) (beAt g.body 6 2)).all (counterListed (byteAt g.body 0)) = true := List.all_eq_true.mpr hlisted
    have hzero : ¬ beAt g.body 6 2 = 0 := by omega
    simp [hlen, hresv, hall, hhigh, hzero]
    exact hctx
  unfold counterRead
  dsimp only
  rw [if_neg hmay, if_neg hargs] <;> rfl

theorem traceCtl_enable (hlen : g.length = 24) (hop : byteAt g.body 0 = 1) (hok : traceEnableOk g.body = true) {u : State}
    (hu : u = regPutF s .obsTrace 0 0 0 32 (1 + byteAt g.body 1 * 2 + byteAt g.body 2 * 4 + byteAt g.body 3 * 2 ^ 5 +
      (if byteAt g.body 2 % 2 = 1 then beAt g.body 4 2 * 2 ^ 10 + beAt g.body 6 2 * 2 ^ 21 else 0))) :
    traceCtl s g = (complete 0 [], measExtend { u with obs := { u.obs with rseq := [], chaifSeq := 0 } } 7
      (sha256 (beBytes 2 g.opcode ++ g.body))) := by
  subst hu
  simp only [traceCtl, hop]
  unfold traceEnable
  dsimp only
  rw [if_neg (by simp [hlen, hok])]
  simp only [beq_iff_eq]

theorem traceCtl_disable (hlen : g.length = 24) (hop : byteAt g.body 0 = 2) (hresv : allZero (g.body.drop 1) = true) :
    traceCtl s g = (complete 0 [], regPutF s .obsTrace 0 0 0 1 0) := by
  simp only [traceCtl, hop]
  exact if_neg (by simp only [hlen, hresv, bne_self_eq_false, Bool.not_true, Bool.or_self, Bool.false_eq_true, not_false_eq_true])

theorem traceCtl_marker (hlen : g.length = 24) (hop : byteAt g.body 0 = 3) (hresv : allZero (slice g.body 1 7) = true)
    (htail : allZero (slice g.body 16 8) = true) :
    traceCtl s g = (complete 0 [], if traceOn s 2 then traceEmit s 3 0xFFFF (leBytes 8 (beAt g.body 8 8)) else s) := by
  simp only [traceCtl, hop]
  exact if_neg (by simp [hlen, hresv, htail])

theorem scanOut_of_bytes {bs : Bytes} (hlen : g.length = 24) (hresv : allZero (slice g.body 20 4) = true)
    (hscan : scanBytes s g.body = some bs) :
    scanOut s g = (complete 0 bs, measExtend s 7 (sha256 (beBytes 2 g.opcode ++ g.body))) := by
  unfold scanOut
  rw [if_neg (by simp [hlen, hresv]), hscan]

end Evidence

/-- Settles O22: each row is its command's answer in the state in which it executes. -/
theorem flashAndEvidenceCommands : Obligations.FlashAndEvidenceCommands := by
  unfold Obligations.FlashAndEvidenceCommands
  refine ⟨⟨fun f m s x part off n => ?_, fun f m s x off n => ?_, fun s f part off n => ?_, fun f m s x off => ?_, fun f s x => ?_⟩,
    fun f s x y => ?_, fun f s x y q => ?_, fun f s x => ?_, fun f s x => ?_, fun f s x => ?_, fun f s x bs => ?_⟩
  · intro g s1 u h hlen hresv hfields hsize hpart halign hend
    have hread := flashRead_of_args (s := u) hlen hresv hfields hsize (by omega) (by omega) (by omega) (fun _ => ⟨halign, hend⟩)
    exact mediaRow_of_run h (congrArg handled hread)
  · intro g s1 u h hlen hresv hfields hsize htail hhead
    have hread := flashRead_of_args (s := u) hlen hresv hfields hsize (by omega) (by omega) (fun _ => ⟨htail, hhead⟩) (by omega)
    exact mediaRow_of_run h (congrArg handled hread)
  · intro r t
    refine ⟨fun hgood => ?_, fun hlost => ?_⟩
    · rw [flashReadAt_eq, if_neg]
      simpa using hgood
    · rw [flashReadAt_eq, if_pos]
      · rfl
      · simpa using hlost
  · intro g s1 u h hlen hresv hfields halign hend hwhole hspare
    exact mediaRow_of_run h (congrArg handled (flashWrite_of_args (s := u) hlen hresv hfields halign hend hwhole hspare))
  · intro g t h hlen hresv hwhole
    refine ⟨fun hfields => opRow_of_run h ?_, fun off n hfields halign hround hsome hend => opRow_of_run h ?_⟩
    · exact congrArg handled (flashErase_capture (s := t) hlen hresv hwhole hfields)
    · exact congrArg handled (flashErase_snapshot (s := t) hlen hresv hwhole hfields halign hround hsome hend)
  · intro g t b h hlen hresv hoff hid hget v u q
    exact opRow_of_run h (congrArg handled (attestQuote_new (s := t) (q := q) hget hlen hresv hoff hid rfl))
  · intro g t off id h hlen hresv halign hend hlater hget
    have hpart := attestQuote_part (s := t) hget hlen hresv halign hend hlater
    refine ⟨fun hkept hid => ?_, fun hkept hid => ?_, fun hnone => ?_⟩
    · rw [show fget? t.trust.quotes g.session = some q from hkept] at hpart
      exact opRow_of_run h (congrArg handled (hpart.trans (if_pos hid)))
    · rw [show fget? t.trust.quotes g.session = some q from hkept] at hpart
      exact opRow_of_run h (congrArg handled (hpart.trans (if_neg hid)))
    · rw [show fget? t.trust.quotes g.session = none from hnone] at hpart
      exact opRow_of_run h (congrArg handled hpart)
  · intro g t b first n h hlen hresv hlow hhigh
    have hread := auditRead_of_args (s := t) hlen hresv hlow hhigh
    refine ⟨fun hnone => ?_, fun r hsome => ?_⟩
    · rw [show fget? (auditAll t) (beAt g.body 0 8) = none from hnone] at hread
      exact opRow_of_run h (congrArg handled hread)
    · rw [show fget? (auditAll t) (beAt g.body 0 8) = some r from hsome] at hread
      exact opRow_of_run h (congrArg handled hread)
  · intro g t b l cls h hlen hcls hresv hlow hhigh hlisted hrole
    refine ⟨?_, fun y => ?_⟩
    · intro hmod hctx r
      have hread := counterRead_of_args (s := t) hlen hresv (fun _ => hctx) hlow hhigh hlisted hrole
      exact opRow_of_run h (congrArg handled (hread.trans (if_neg hmod)))
    · intro hbank hset r q
      have hread := counterRead_of_args (s := t) hlen hresv (fun hne => absurd hbank hne) hlow hhigh hlisted hrole
      rw [if_pos hbank, hset] at hread
      exact opRow_of_run h (congrArg handled hread)
  · intro g t b src
    have hop (n : Nat) : (g n).opcode = 0x0081 := subFrame_opcode f 0x0081 0 n
    refine ⟨?_, ?_, ?_⟩
    · intro h hlen hsub hok v u
      exact subRow_of_run h ((runOpcode_traceCtl (hop 1)).trans (congrArg handled (traceCtl_enable (s := t 1) (u := u) hlen hsub hok rfl)))
    · intro h hlen hsub hresv
      exact subRow_of_run h ((runOpcode_traceCtl (hop 2)).trans (congrArg handled (traceCtl_disable (s := t 2) hlen hsub hresv)))
    · intro h hlen hsub hresv htail
      exact subRow_of_run h ((runOpcode_traceCtl (hop 3)).trans (congrArg handled (traceCtl_marker (s := t 3) hlen hsub hresv htail)))
  · intro g t h hlen hresv hscan
    exact opRow_of_run h (congrArg handled (scanOut_of_bytes (s := t) hlen hresv hscan))

end Sys2Proof.Machine

/-!
PROOF. MODEL_ACTIVATE with UNLOAD_COMPLETE and GATE_RELEASE (R211, R212, R453, R454, R474), SPAN_MEMBER (R478) and APP_LOAD (R491): the
answer of each command whose fields are in range.
-/

namespace Sys2Proof.Machine

/-! ### MODEL_ACTIVATE -/

section Activation

variable {s : State} {g : CmdFrame} {n : Nat}

/-- A well-formed activation that is no unload looks up the section, verifies the image and goes by its target (R453). -/
theorem modelActivate_of_target (hok : actFieldsOk g = true) (htarget : (actBody g.body).target = n) (hload : n ≠ 4) :
    modelActivate s g = match actSection s (actBody g.body) with
      | none => refused s 0x0D
      | some (img, sec) =>
        if lanvikVerifies s img (actBody g.body).image = false then refused (sigBad s) 0x70
        else if imageUnfit s img = true then refused s 0x0D
        else match (generalizing := false) n with
          | 1 => activateGrove s g img sec
          | 2 => activateTier2 s g img sec
          | _ => activateTier3 s g img sec := by
  subst htarget
  unfold modelActivate
  dsimp only
  rw [if_neg (by simp [hok]), if_neg hload]
  simp only [Bool.not_eq_true'] <;> rfl

theorem activateGrove_eq (img sec : Bytes) :
    activateGrove s g img sec =
      if (groveLoad s (actBody g.body).slot sec (actBody g.body).image (actBody g.body).sect).1 = 0
      then doneWith (activated (groveLoad s (actBody g.body).slot sec (actBody g.body).image (actBody g.body).sect).2 g img)
      else refused s (groveLoad s (actBody g.body).slot sec (actBody g.body).image (actBody g.body).sect).1 := rfl

theorem tier3Busy_eq_false_iff : tier3Busy s = false ↔ s.tiers.escal.all (fun e => e.held) = true := by
  simp [tier3Busy]

theorem activateTier3_eq (img sec : Bytes) :
    activateTier3 s g img sec =
      if (Config.tier3Section sec).2.1 = true ∧ 25000 < (Config.tier3Section sec).2.2 then refused s 0x0D
      else if (Config.tier3Section sec).2.1 = true ∧ (s.gct.modes.share ≠ 0 ∨ apexFits s sec = false) then refused s 0x20
      else if s.tiers.escal.all (fun e => e.held) = true then doneWith (placeTier3 s g img sec) else (.place, s) := by
  unfold activateTier3
  simp only [Bool.not_eq_true', tier3Busy_eq_false_iff] <;> rfl

/-- An unload of a slot that no route names marks the slot draining, and waits (R212). -/
theorem modelActivate_unload {v : GroveSlot} (hok : actFieldsOk g = true) (htarget : (actBody g.body).target = 4)
    (hget : fget? s.grove.slots (actBody g.body).slot = some v) (hnew : v.draining = false) (hfree : slotRouted s (actBody g.body).slot = false) :
    modelActivate s g = (.unload (actBody g.body).slot, { s with grove := { s.grove with
      slots := finsert s.grove.slots (actBody g.body).slot { v with draining := true } } }) := by
  unfold modelActivate activateUnload
  dsimp only
  rw [if_neg (by simp [hok]), if_pos htarget, hget]
  dsimp only
  rw [if_neg (by simp [hnew]), if_neg (by simp [hfree])]

theorem unloadComplete_of_drained {v : GroveSlot} (hget : fget? s.grove.slots n = some v) (hdrain : v.draining = true)
    (hidle : slotInUse s n = false) : unloadComplete s n = unloaded (groveFree s n) n := by
  unfold unloadComplete
  rw [hget]
  exact if_neg (by simp [hdrain, hidle])

end Activation

/-! ### SPAN_MEMBER -/

section Span

variable {s : State} {g : CmdFrame}

theorem spanMember_of_head (hlen : 8 ≤ g.length) (hresv : allZero (slice g.body 1 7) = true) :
    spanMember s g = match byteAt g.body 0 with
      | 1 => handled (spanAttach s g)
      | 2 => spanEpoch s g
      | 3 => handled (spanDetach s g)
      | 4 => handled (spanQuery s g)
      | _ => refused s 0x0D := by
  unfold spanMember
  rw [if_neg (by simp [hlen, hresv])] <;> rfl

theorem spanAttach_of_args (hlen : g.length = 24) (hid : byteAt g.body 12 < 64) (hresv : allZero (slice g.body 13 3) = true)
    (hneigh : ∀ k, k < 8 → byteAt g.body (16 + k) < 64 ∨ byteAt g.body (16 + k) = 0xFF) (hfree : inOpenEpoch s = false) {u : State}
    (hu : u = regPut s .spnId 0 0 (beAt g.body 8 4 + byteAt g.body 12 * 2 ^ 32 + 2 ^ 38)) :
    spanAttach s g = (complete 0 [], measureSpan (trainEnabled { u with span := { u.span with
      neigh := (List.range 8).foldl (fun m k => fsetD 0xFF m k (((List.range 8).map (fun k => byteAt g.body (16 + k))).getD k 0xFF))
        ([] : FMap Nat) } })) := by
  subst hu
  have hlinks : ((List.range 8).map (fun k => byteAt g.body (16 + k))).any (fun x => decide (64 ≤ x) && x != 0xFF) = false := by
    rw [List.any_map, List.any_eq_false]
    intro k hk
    rcases hneigh k (List.mem_range.mp hk) with h | h
    · simp [Nat.not_le.mpr h]
    · simp [h]
  unfold spanAttach
  dsimp only
  rw [if_neg (by simp only [hlen, hresv, hlinks]; simp [hid]), if_neg (by simp [hfree])]

/-- The module may open an epoch: it is not isolated, no epoch is being opened or closed, and it coordinates the open epoch or, in none,
stands first in the new one (R475, R478). -/
def MayOpenEpoch (s : State) (plan : EpochPlan) : Prop :=
  isolated s = false ∧ s.span.run = none ∧ s.span.old = none ∧
    (isCoord s = true ∨ (s.span.member = false ∧ plan.map.head? = some (ownId s)))

theorem spanEpoch_of_free (hargs : epochArgsOk s g = true) (hattached : regF s .spnId 0 0 38 1 = 1)
    (hfree : MayOpenEpoch s (epochPlan s g.body)) :
    spanEpoch s g = (if (startEpoch s (epochPlan s g.body) 0xFF true).span.run.isNone then .send (complete 0 []) else .epoch,
      startEpoch s (epochPlan s g.body) 0xFF true) := by
  obtain ⟨hlinked, hrun, hold, hturn⟩ := hfree
  have hgo : (isCoord s || (!s.span.member && (epochPlan s g.body).map.head? == some (ownId s))) = true := by
    rcases hturn with h | ⟨hout, hfirst⟩
    · simp [h]
    · simp [hout, hfirst]
  unfold spanEpoch
  dsimp only
  rw [if_neg (by simp [hargs]), if_neg (by simp [hattached, hlinked, hrun, hold, hgo])]

theorem spanEpoch_of_notFree (hargs : epochArgsOk s g = true) (hfree : ¬ MayOpenEpoch s (epochPlan s g.body)) :
    spanEpoch s g = refused s 0x0C := by
  unfold spanEpoch
  dsimp only
  rw [if_neg (by simp [hargs]), if_pos]
  by_contra hgo
  refine hfree ?_
  simp only [Bool.or_eq_true, not_or, Bool.not_eq_true, Bool.not_eq_eq_eq_not, Bool.not_true] at hgo
  obtain ⟨⟨⟨⟨_, hlinked⟩, hrun⟩, hold⟩, hturn⟩ := hgo
  refine ⟨hlinked, by simpa using hrun, by simpa using hold, ?_⟩
  simpa [or_iff_not_imp_left] using hturn

theorem spanDetach_of_args (hlen : g.length = 8) (hfree : inOpenEpoch s = false) :
    spanDetach s g = (complete 0 [], (List.range 8).foldl (fun t k => if linkState t k = 1 then setLinkState t k 0 else t)
      (regPut { s with span := { s.span with neigh := [] } } .spnId 0 0 0)) := by
  unfold spanDetach
  rw [if_neg (by simp [hlen]), if_neg (by simp [hfree])]

end Span

/-! ### APP_LOAD -/

section Applications

variable {s : State} {g : CmdFrame}

/-- A load onto a free slot and free cores, with room for its memory: the image must name the application and verify (R491). -/
theorem appCmd_load {img : Bytes} (hok : appFieldsOk g = true) (hop : byteAt g.body 0 = 1)
    (hcores : beAt g.body 2 2 &&& regF s .crnCtl 0 0 0 16 = 0) (hslot : regF s .crnApp (byteAt g.body 1) 0 16 1 ≠ 1)
    (hget : fget? s.flash.images (beAt g.body 4 4) = some img)
    (hroom : appMemory s + beAt g.body 8 4 + 8192 ≤ regF s .crnMem 0 0 48 8 * 1024) {u : State}
    (hu : u = regPut s .crnApp (byteAt g.body 1) 0 (beAt g.body 2 2 + 2 ^ 16 + beAt g.body 4 4 * 2 ^ 32)) :
    handled (appCmd s g) =
      if (Config.imageSection (imagePayload img) 5 0).isNone = true then refused s 0x0D
      else if lanvikVerifies s img (beAt g.body 4 4) = true then
        doneWith (measExtend (appCores (imageUsed { u with crown := { u.crown with
          appMem := finsert u.crown.appMem (byteAt g.body 1) (beAt g.body 8 4) } } (beAt g.body 4 4))) 5
          (sha256 (img.take 88 ++ [byteOf (byteAt g.body 1)])))
      else refused (sigBad s) 0x70 := by
  subst hu
  unfold appCmd appLoad
  dsimp only
  rw [if_neg (by simp [hok]), if_pos hop, if_neg (by simp [hcores, hslot]), hget]
  dsimp only
  by_cases hsection : (Config.imageSection (imagePayload img) 5 0).isNone = true
  · rw [if_pos hsection, if_pos hsection]
    rfl
  · rw [if_neg hsection, if_neg hsection]
    by_cases hsigned : lanvikVerifies s img (beAt g.body 4 4) = true
    · rw [if_neg (by simp [hsigned]), if_neg (Nat.not_lt.mpr hroom), if_pos hsigned]
      rfl
    · rw [if_pos (by simpa using hsigned), if_neg hsigned]
      rfl

theorem appCmd_unload (hok : appFieldsOk g = true) (hop : byteAt g.body 0 = 2) : appCmd s g = appUnload s g := by
  unfold appCmd
  rw [if_neg (by simp [hok]), if_neg (by simp [hop])]

end Applications

/-- Settles O23: each row is its command's answer; the rows of drained slots and gates follow their definitions. -/
theorem activationAndApplications : Obligations.ActivationAndApplications := by
  unfold Obligations.ActivationAndApplications
  refine ⟨⟨fun f s x n c hop => ?_, fun s f img sec => ?_, fun s f img sec => ?_, fun f s x v => ?_, fun n s v hrun hget hdrain hidle => ?_,
    fun i q s hrun => congrArg Host.Outcome.next (whileRunning_running hrun _)⟩, fun f s x => ?_, fun f s x img => ?_, fun f s x => ?_⟩
  · intro g t a h hok htarget
    have hrow : exec (c f) s = .next (receiveSub s 0x0061 4 n f) ∧ n ≠ 4 := by
      simp only [List.mem_cons, Prod.mk.injEq, List.not_mem_nil, or_false] at hop
      rcases hop with ⟨rfl, rfl⟩ | ⟨rfl, rfl⟩ | ⟨rfl, rfl⟩ <;> exact ⟨rfl, by decide⟩
    rw [hrow.1]
    exact subRow_of_run h ((runOpcode_modelActivate (subFrame_opcode f 0x0061 4 n)).trans
      (modelActivate_of_target (s := t) hok htarget hrow.2))
  · exact activateGrove_eq img sec
  · exact activateTier3_eq img sec
  · intro g t a h hok htarget hget hnew hfree
    exact subRow_of_run h ((runOpcode_modelActivate (subFrame_opcode f 0x0061 4 4)).trans
      (modelActivate_unload (s := t) hok htarget hget hnew hfree))
  · exact congrArg Host.Outcome.next ((whileRunning_running hrun _).trans (unloadComplete_of_drained hget hdrain hidle))
  · intro g t b
    have hop (n : Nat) : (g n).opcode = 0x0090 := subFrame_opcode f 0x0090 0 n
    refine ⟨?_, ?_, ?_, ?_⟩
    · intro h hlen hsub hresv hid htail hneigh hfree neigh u map
      have hhead := spanMember_of_head (s := t 1) (g := g 1) (by omega) hresv
      simp only [show byteAt (g 1).body 0 = 1 from hsub] at hhead
      exact subRow_of_run h ((runOpcode_spanMember (hop 1)).trans (hhead.trans
        (congrArg handled (spanAttach_of_args (s := t 1) (u := u) hlen hid htail hneigh hfree rfl))))
    · intro h hsub hlen hresv hargs hattached plan free
      have hhead := spanMember_of_head (s := t 2) (g := g 2) hlen hresv
      simp only [show byteAt (g 2).body 0 = 2 from hsub] at hhead
      refine ⟨fun hfree => ?_, fun hfree => ?_⟩
      · exact subRow_of_run h ((runOpcode_spanMember (hop 2)).trans (hhead.trans (spanEpoch_of_free (s := t 2) hargs hattached hfree)))
      · exact subRow_of_run h ((runOpcode_spanMember (hop 2)).trans (hhead.trans (spanEpoch_of_notFree (s := t 2) hargs hfree)))
    · intro h hlen hsub hresv hfree u
      have hhead := spanMember_of_head (s := t 3) (g := g 3) (by omega) hresv
      simp only [show byteAt (g 3).body 0 = 3 from hsub] at hhead
      exact subRow_of_run h ((runOpcode_spanMember (hop 3)).trans (hhead.trans
        (congrArg handled (spanDetach_of_args (s := t 3) hlen hfree))))
    · intro h hlen hsub hresv
      have hhead := spanMember_of_head (s := t 4) (g := g 4) (by omega) hresv
      simp only [show byteAt (g 4).body 0 = 4 from hsub] at hhead
      exact subRow_of_run h ((runOpcode_spanMember (hop 4)).trans hhead)
  · intro g t b n cores image h hok hsub hcores hslot hget hroom u v
    exact subRow_of_run h ((runOpcode_appCmd (subFrame_opcode f 0x00A0 0 1)).trans
      (appCmd_load (s := t) (u := u) hok hsub hcores hslot hget hroom rfl))
  · intro g t n h hok hsub u own gone v
    exact subRow_of_run h ((runOpcode_appCmd (subFrame_opcode f 0x00A0 0 2)).trans (congrArg handled (appCmd_unload (s := t) hok hsub)))

end Sys2Proof.Machine

/-!
PROOF. Sessions open by R516 and R518, and end, and completions and records leave (R66, R67, R69, R78, R602): the opening command by its
checks in their order, and each row of the transport by the branch that its conditions name.
-/

namespace Sys2Proof.Machine

/-! ### Opening a session -/

section Opening

variable {s : State} {g : CmdFrame} {k : Bytes}

/-- A frame of session 0 that fits and passes framing is an opening (R64, R516). -/
theorem receiveCmd_of_opening (hdev : s.gct.dev ≠ .powered) (hfits : inboundFits s g = true) (hframe : framingOk s g = true)
    (hsess : g.session = 0) : receiveCmd s g = settleSlice (openCmd (admitFrame s g) g) := by
  have hroute : routeCmd (admitFrame s g) g = openCmd (admitFrame s g) g := by simp [routeCmd, hframe, hsess]
  simp [receiveCmd, hdev, hfits, hroute]

/-- An opening that fails its key, tag or counter is answered as AUTH_FAIL (R73). -/
theorem openCmd_of_fails (h : sessionStart s g = openFails s) :
    openCmd s g = openFail (bump s .trsOpenFail 0 0) g (.audit (complete 0x10 [])) := by
  rw [openCmd, h]
  rfl

/-- An opening with another result is answered with it. -/
theorem openCmd_of_answered {c : Completion} {key : Bytes} {t : State} (h : sessionStart s g = (c, key, t)) (hc : c.status ≠ 0x10) :
    openCmd s g = answerNow t g key (byteAt g.body 1) (byteAt g.body 2) (.audit c) := by
  rw [openCmd, h]
  exact if_neg hc

theorem sessionStart_open (hmode : byteAt g.body 0 = 1) : sessionStart s g = sessionOpen s g := by
  rw [sessionStart, if_neg (by simp [hmode])]

theorem sessionStart_claim (hmode : byteAt g.body 0 = 2) : sessionStart s g = sessionClaim s g := by
  rw [sessionStart, if_pos hmode]

theorem sessionOpen_of_noKey (hkey : openKey s (byteAt g.body 1) (byteAt g.body 2) = none) : sessionOpen s g = openFails s := by
  unfold sessionOpen
  dsimp only
  rw [hkey]

theorem sessionOpen_of_tag (hkey : openKey s (byteAt g.body 1) (byteAt g.body 2) = some k) (htag : frameTag k g ≠ g.tag) :
    sessionOpen s g = openFails s := by
  unfold sessionOpen
  dsimp only
  rw [hkey]
  exact if_pos (bne_iff_ne.mpr htag)

theorem sessionOpen_of_counter (hkey : openKey s (byteAt g.body 1) (byteAt g.body 2) = some k)
    (hseq : g.seq ≤ fgetD 0 s.trust.opens (counterOf (byteAt g.body 1) (byteAt g.body 2))) : sessionOpen s g = openFails s := by
  unfold sessionOpen
  dsimp only
  rw [hkey]
  dsimp only
  rw [if_pos hseq, ite_self]

/-- A key that is held, its right tag and a new number leave the fields and the session limit to decide (R516). -/
theorem sessionOpen_of_key (hkey : openKey s (byteAt g.body 1) (byteAt g.body 2) = some k) (htag : frameTag k g = g.tag)
    (hseq : fgetD 0 s.trust.opens (counterOf (byteAt g.body 1) (byteAt g.body 2)) < g.seq) :
    sessionOpen s g = if openChecks s g ≠ 0 then openRefused s (openChecks s g)
      else openSession (takeCounter s (byteAt g.body 1) (byteAt g.body 2) g.seq) (byteAt g.body 1) (byteAt g.body 2) k (slice g.body 8 32) := by
  unfold sessionOpen
  dsimp only
  rw [hkey]
  dsimp only
  rw [if_neg (by simp [htag]), if_neg (Nat.not_le.mpr hseq)]

theorem openChecks_ne_authFail : openChecks s g ≠ 0x10 := by
  unfold openChecks
  dsimp only
  split
  · decide
  · split <;> decide

theorem openSession_status (role slot : Nat) (roleKey hnonce : Bytes) : (openSession s role slot roleKey hnonce).1.status = 0 := rfl

/-- An installer claims an unclaimed module over a command port (R518). -/
theorem sessionClaim_of_unclaimed {n : Fin 2} {root : Bytes}
    (hroot : root = hkdf (slice g.body 8 32) (Config.kemShared Config.deviceSecret (slice g.body 40 1088)) (ascii "AEDEM INSTALLER") 32)
    (hport : g.port = .command n) (htag : frameTag root g = g.tag) (hnew : s.trust.root = none)
    (hdev : s.gct.dev = .ready ∨ s.gct.dev = .maintenance) (hseq : g.seq = 1) (hcounter : fgetD 0 s.trust.opens 1 = 0)
    (hchecks : openChecks s g = 0) : sessionClaim s g = claimDone s root (slice g.body 8 32) 1 := by
  subst hroot
  have hstate : (s.gct.dev == .ready || s.gct.dev == .maintenance) = true := by
    rcases hdev with h | h <;> simp [h]
  unfold sessionClaim
  dsimp only
  rw [if_neg (by simp [htag]), hport, if_neg (by simp only [hnew, hstate, hseq]; simp), if_neg (by simp [hseq, hcounter]),
    if_neg (by simp [hchecks]), hseq]

end Opening

/-! ### Completions and records -/

section Transport

variable {s : State} {i : Nat} {x : Session}

/-- A completion with room and audit space leaves, is stored under its number, and the session goes on (R66, R69, R72). -/
theorem sendSession_of_room {e : ExecCmd} {c : Completion} (hget : sessionGet s i = some x) (hexec : x.exec = some e) (hwait : e.wait = .send c)
    (hroom : completionFits s e c = true) (haudit : auditBlocks s e = false) :
    sendSession s i = nextCmd (afterCompletion (sessionMod (storeDone (sendCompletion (recordCommand s e c) e c) e c) i
      (fun y => { y with exec := none, idleFrom := s.idleClock })) i e.cmd c) i := by
  unfold sendSession
  rw [hget, Option.bind_some, hexec]
  dsimp only
  rw [hwait]
  dsimp only
  rw [if_neg (by simp [hroom]), if_neg (by simp [haudit])]

theorem sendQueued_of_room {cls : Nat} {r : PushRecord} {rest : List PushRecord} (hfirst : standingRecords s cls = r :: rest)
    (hroom : outRoom s ((recordOut s r).map Prod.snd) = true) (husable : recordQueueUsable s cls = true) :
    sendQueued s cls = sendRecord { takeWords s (recordQueue s cls) ((bytesToWords r.body).length) with
      gct := { (takeWords s (recordQueue s cls) ((bytesToWords r.body).length)).gct with
        recq := fsetD [] (takeWords s (recordQueue s cls) ((bytesToWords r.body).length)).gct.recq cls rest } } r := by
  unfold sendQueued
  rw [hfirst]
  exact if_pos (by simp [hroom, husable])

theorem recordSend_of_running {cls : Nat} (hcls : cls < 2) (hrun : s.gct.stopped = false) :
    recordSend s cls = retryStateEvents (sendQueued (retryStateEvents s (s.gct.stateWait.length + 1)) cls)
      ((sendQueued (retryStateEvents s (s.gct.stateWait.length + 1)) cls).gct.stateWait.length + 1) := by
  unfold recordSend
  rw [if_neg (by simp [hrun, hcls])]

theorem sessionTimeout_of_idle (hget : sessionGet s i = some x) (hdev : s.gct.dev ≠ .halted) (hload : x.load = 0)
    (hold : x.idleFrom + msTicks (regF s .gctSessionTtl 0 0 0 32) ≤ s.idleClock) :
    sessionTimeout s i = dropSession (auditEvent s 4 i []) i := by
  unfold sessionTimeout
  rw [hget]
  exact if_pos (by simp [hdev, hload, hold])

theorem drainComplete_of_empty (hdev : s.gct.dev = .draining) (hrun : s.gct.stopped = false) (hpkts : s.canopy.pkts = [])
    (hruns : openRuns s = []) : drainComplete s = enterState s .ready := by
  simp [drainComplete, hdev, hrun, hpkts, hruns]

end Transport

/-- Settles O24: openings by their first failing check, the rows of the transport by their conditions. -/
theorem sessionsAndCompletions : Obligations.SessionsAndCompletions := by
  unfold Obligations.SessionsAndCompletions
  refine ⟨⟨fun f s k => ?_, fun f s n => ?_⟩, fun i s x e c hi hget hexec hwait hroom haudit => ?_, fun n s r rest hrun => ?_,
    fun i s x hget hdev hload hold => congrArg Host.Outcome.next (sessionTimeout_of_idle hget hdev hload hold),
    fun s hdev hrun hpkts hruns => congrArg Host.Outcome.next (drainComplete_of_empty hdev hrun hpkts hruns)⟩
  · intro g b role slot t fails hdev hfits hframe hsess hmode
    have hrow : exec (.sessionOpen f) s = .next (settleSlice (openCmd t g)) :=
      congrArg Host.Outcome.next (receiveCmd_of_opening hdev hfits hframe hsess)
    have hstart : sessionStart t g = sessionOpen t g := sessionStart_open hmode
    have hfails (h : sessionOpen t g = openFails t) : fails :=
      hrow.trans (congrArg (fun u => Host.Outcome.next (settleSlice u)) (openCmd_of_fails (hstart.trans h)))
    refine ⟨fun hkey => hfails (sessionOpen_of_noKey hkey), fun hkey htag => hfails (sessionOpen_of_tag hkey htag),
      fun hkey hseq => hfails (sessionOpen_of_counter hkey hseq), fun hkey htag hseq => ?_⟩
    have hopen := hstart.trans (sessionOpen_of_key (s := t) hkey htag hseq)
    rw [show openChecks t g = openChecks s g from rfl] at hopen
    refine ⟨fun hchecks => ?_, ?_⟩
    · rw [if_pos hchecks] at hopen
      rw [hrow, openCmd_of_answered hopen openChecks_ne_authFail]
    · intro hchecks r
      rw [if_neg (not_not_intro hchecks)] at hopen
      have hstatus : r.1.status ≠ 0x10 := by rw [show r.1.status = 0 from openSession_status _ _ _ _]; decide
      rw [hrow, openCmd_of_answered (c := r.1) (key := r.2.1) (t := r.2.2) hopen hstatus]
  · intro g b hnonce root hfits hframe hsess hmode hport htag hnew hdev hseq hcounter hchecks r
    have hpowered : s.gct.dev ≠ .powered := by rcases hdev with h | h <;> simp [h]
    have hclaim : sessionStart (admitFrame s g) g = (r.1, r.2.1, r.2.2) :=
      (sessionStart_claim hmode).trans (sessionClaim_of_unclaimed (s := admitFrame s g) rfl hport htag hnew hdev hseq hcounter hchecks)
    have hstatus : r.1.status ≠ 0x10 := by rw [show r.1.status = 0 from openSession_status _ _ _ _]; decide
    refine congrArg Host.Outcome.next ((receiveCmd_of_opening hpowered hfits hframe hsess).trans ?_)
    rw [openCmd_of_answered hclaim hstatus]
  · intro s1 s2
    have hsend : completionSend s i = settleSlice (sendSession s i) := by rw [completionSend, if_neg hi]
    exact congrArg Host.Outcome.next (hsend.trans (congrArg settleSlice (sendSession_of_room hget hexec hwait hroom haudit)))
  · intro v hfirst hroom husable u t
    have hqueued : sendQueued v n.val = t := sendQueued_of_room hfirst hroom husable
    refine congrArg Host.Outcome.next ((recordSend_of_running n.isLt hrun).trans ?_)
    rw [show sendQueued (retryStateEvents s (s.gct.stateWait.length + 1)) n.val = t from hqueued]

end Sys2Proof.Machine

/-!
PROOF. Reception on packet ports and command ports, and link events (R64, R94, R97–R100, R600, R601): each row by the branch that its
conditions name.
-/

namespace Sys2Proof.Machine

/-! ### The start of a frame -/

section Reception

variable {s : State} {m : Nat} {r : RxFrame}

/-- On a live port where no frame is in reception a frame starts, with or without a reservation (R98). -/
theorem frameStart_of_live (hlive : portLive s m = true) (hidle : rxGet s m = none) :
    frameStart s m =
      if s.gct.dev = .halted then
        rxSet s m (some { stamp := stampNow s, reserved := false, discarded := false, maxFrame := regF s .prtCfg (m / 4) 0 16 14 })
      else if reservationFits s m then rxSet (setPortHeld s m (portHeld s m + 36)) m
        (some { stamp := stampNow s, reserved := true, discarded := false, maxFrame := regF s .prtCfg (m / 4) 0 16 14 })
      else rxSet (bump s .prtRxAdmitDrop m 0) m
        (some { stamp := stampNow s, reserved := false, discarded := true, maxFrame := regF s .prtCfg (m / 4) 0 16 14 }) := by
  unfold frameStart
  rw [if_neg (by simp [hlive, hidle])]

theorem frameStart_of_notLive (h : portLive s m = false ∨ (rxGet s m).isSome = true) : frameStart s m = s := by
  unfold frameStart
  rw [if_pos (by rcases h with h | h <;> simp [h])]

theorem oversizeDiscard_of_held (hget : rxGet s m = some r) (hheld : r.discarded = false) :
    oversizeDiscard s m =
      rxSet (bump (dropReservation s m r) .prtRxDiscard m 0) m (some { r with reserved := false, discarded := true }) := by
  unfold oversizeDiscard
  rw [hget]
  exact if_neg (by simp [hheld])

theorem oversizeDiscard_of_discarded (hget : rxGet s m = some r) (hgone : r.discarded = true) : oversizeDiscard s m = s := by
  unfold oversizeDiscard
  rw [hget]
  exact if_pos hgone

theorem portEnable_of_boundary (hidle : rxGet s m = none) : portEnable s m =
    { s with ports := { s.ports with enabled := setBitN s.ports.enabled m (regF s .prtCfg (m / 4) 0 2 1 == 1) } } := by
  unfold portEnable
  rw [if_neg (by simp [hidle])]

theorem portEnable_of_reception (hbusy : (rxGet s m).isSome = true) : portEnable s m = s := if_pos hbusy

end Reception

/-- Settles O7: the rows of reception by their cases. -/
theorem frameReception : Obligations.FrameReception := by
  unfold Obligations.FrameReception
  refine ⟨fun m s hlive hidle => ?_, fun m s h => congrArg Host.Outcome.next (frameStart_of_notLive h), fun m s r hget => ?_, fun m s => ?_⟩
  · intro r
    have hstart := frameStart_of_live hlive hidle
    refine ⟨fun hdev hfits => ?_, fun hdev hfits => ?_, fun hdev => ?_⟩
    · rw [if_neg hdev, if_pos hfits] at hstart
      exact congrArg Host.Outcome.next hstart
    · rw [if_neg hdev, if_neg (ne_true_of_eq_false hfits)] at hstart
      exact congrArg Host.Outcome.next hstart
    · rw [if_pos hdev] at hstart
      exact congrArg Host.Outcome.next hstart
  · exact ⟨fun hheld => congrArg Host.Outcome.next (oversizeDiscard_of_held hget hheld),
      fun hgone => congrArg Host.Outcome.next (oversizeDiscard_of_discarded hget hgone)⟩
  · exact ⟨fun hidle => congrArg Host.Outcome.next (portEnable_of_boundary hidle),
      fun hbusy => congrArg Host.Outcome.next (portEnable_of_reception hbusy)⟩

/-! ### The end of a frame -/

section FrameEnd

variable {s : State} {m : Fin 64} {b : Bytes} {fcsOk trunc : Bool} {r : RxFrame}

theorem judgeRx_of_oversize (hover : r.maxFrame < b.length + 4) : judgeRx s m r b fcsOk trunc = .discard .prtRxDiscard := if_pos hover

theorem judgeRx_of_fcs (hfits : b.length + 4 ≤ r.maxFrame) (hbad : fcsOk = false ∨ trunc = true) :
    judgeRx s m r b fcsOk trunc = .discard .prtRxFcsErr := by
  unfold judgeRx
  rw [if_neg (Nat.not_lt.mpr hfits), if_pos (by rcases hbad with h | h <;> simp [h])]

theorem judgeRx_of_short (hfits : b.length + 4 ≤ r.maxFrame) (hfcs : fcsOk = true) (hwhole : trunc = false)
    (hbad : b.length + 4 < 64 ∨ beAt b 12 2 = 0x8808) : judgeRx s m r b fcsOk trunc = .discard .prtRxDiscard := by
  have hshort : (b.length + 4 < 64 || isMacControl b) = true := by
    rcases hbad with h | h
    · simp only [h, decide_true, Bool.true_or]
    · simp only [isMacControl, h, BEq.rfl, Bool.or_true]
  unfold judgeRx
  rw [if_neg (Nat.not_lt.mpr hfits), if_neg (by simp [hfcs, hwhole]), if_pos hshort]

/-- A frame that passes the checks of the MAC is a GCT frame, or a data frame with its reservation (R100). -/
theorem judgeRx_of_good (hfits : b.length + 4 ≤ r.maxFrame) (hfcs : fcsOk = true) (hwhole : trunc = false) (hlong : 64 ≤ b.length + 4)
    (hdata : beAt b 12 2 ≠ 0x8808) :
    judgeRx s m r b fcsOk trunc = match recogniseGct s (.logical m) b with
      | some f => .gct f
      | none => if s.gct.dev = .serving && r.reserved then .data else .discard .prtRxStateDrop := by
  have hgood : ¬ (b.length + 4 < 64 || isMacControl b) = true := by
    simp only [isMacControl, Bool.or_eq_true, decide_eq_true_eq, beq_iff_eq, not_or, Nat.not_lt]
    exact ⟨hlong, hdata⟩
  unfold judgeRx
  rw [if_neg (Nat.not_lt.mpr hfits), if_neg (by simp [hfcs, hwhole]), if_neg hgood] <;> rfl

/-- A frame that still stands ends by what its checks say of it. -/
theorem frameEnd_of_standing {ecc : Bool} (hget : rxGet s m.val = some r) (hheld : r.discarded = false) :
    frameEnd s m b fcsOk trunc ecc = match judgeRx s m r b fcsOk trunc with
      | .discard n => bump (dropReservation (rxSet s m.val none) m.val r) n m.val 0
      | .gct f => inbandFrame (dropReservation (rxSet s m.val none) m.val r) m.val b f ecc
      | .data => if ecc then stompedData (admitData (countRx (rxSet s m.val none) m.val b) m.val b r)
        else admitData (countRx (rxSet s m.val none) m.val b) m.val b r := by
  unfold frameEnd
  rw [hget]
  exact if_neg (by simp [hheld])

end FrameEnd

/-- Settles O8: the checks of the frame decide where it goes. -/
theorem frameEndDecides : Obligations.FrameEndDecides := by
  unfold Obligations.FrameEndDecides
  intro m b fcsOk trunc ecc s r hget s0 drop
  refine ⟨fun hgone => ?_, fun hheld => ?_⟩
  · refine congrArg Host.Outcome.next ?_
    unfold frameEnd
    rw [hget]
    exact if_pos hgone
  have hend := frameEnd_of_standing (b := b) (fcsOk := fcsOk) (trunc := trunc) (ecc := ecc) hget hheld
  refine ⟨fun hover => ?_, fun hfits hbad => ?_, fun hfits hfcs hwhole hbad => ?_, fun hfits hfcs hwhole hlong hdata => ?_⟩
  · rw [judgeRx_of_oversize hover] at hend
    exact congrArg Host.Outcome.next hend
  · rw [judgeRx_of_fcs hfits hbad] at hend
    exact congrArg Host.Outcome.next hend
  · rw [judgeRx_of_short hfits hfcs hwhole hbad] at hend
    exact congrArg Host.Outcome.next hend
  · rw [judgeRx_of_good hfits hfcs hwhole hlong hdata] at hend
    cases hgct : recogniseGct s (.logical m) b with
    | some f =>
      rw [hgct] at hend
      exact congrArg Host.Outcome.next hend
    | none =>
      rw [hgct] at hend
      dsimp only at hend ⊢
      refine congrArg Host.Outcome.next (hend.trans ?_)
      by_cases hserving : s.gct.dev = .serving ∧ r.reserved = true
      · rw [if_pos hserving, if_pos (by simp [hserving])]
      · rw [if_neg hserving, if_neg (by simpa using hserving)]

/-! ### Command ports and links -/

section Links

variable {s : State} {m : Nat}

@[simp] theorem dropReservation_link (r : RxFrame) : (dropReservation s m r).ports.link = s.ports.link := by
  unfold dropReservation
  split <;> rfl

@[simp] theorem dropReservation_hiSer (r : RxFrame) : (dropReservation s m r).ports.hiSer = s.ports.hiSer := by
  unfold dropReservation
  split <;> rfl

theorem truncateRx_link : (truncateRx s m).ports.link = s.ports.link := by
  unfold truncateRx
  split
  · next r _ =>
    change (if r.discarded then s else bump (dropReservation s m r) .prtRxFcsErr m 0).ports.link = _
    split
    · rfl
    · exact dropReservation_link r
  · rfl

theorem truncateRx_hiSer : (truncateRx s m).ports.hiSer = s.ports.hiSer := by
  unfold truncateRx
  split
  · next r _ =>
    change (if r.discarded then s else bump (dropReservation s m r) .prtRxFcsErr m 0).ports.hiSer = _
    split
    · rfl
    · exact dropReservation_hiSer r
  · rfl

/-- A frame in reception ends truncated (R97). -/
theorem truncateRx_eq : truncateRx s m = match rxGet s m with
    | none => s
    | some r => rxSet (if r.discarded then s else bump (dropReservation s m r) .prtRxFcsErr m 0) m none := by
  unfold truncateRx
  cases rxGet s m <;> rfl

end Links

/-- Settles O9: the frame of a command port by its checks, and each link event by the bits that it sets. -/
theorem portEvents : Obligations.PortEvents := by
  unfold Obligations.PortEvents
  refine ⟨fun n b fcsOk trunc ecc s hdev hlink => ?_, fun m s hfree hused => ?_, fun m s hheld => ?_, fun m s => ?_, fun n up s hdev => ?_,
    fun m on s => rfl⟩
  · intro bad
    have htaken : ¬ (s.gct.dev = .powered || !portOpens s (.command n)) = true := by
      simp only [portOpens, hlink]
      simpa using hdev
    have hbad : (b.length + 4 < 64 || 9216 < b.length + 4 || isMacControl b || !fcsOk || trunc) = true ↔ bad := by
      simp [bad, isMacControl, or_assoc]
    refine ⟨fun h => ?_, fun h => ?_⟩
    · refine congrArg Host.Outcome.next ?_
      unfold commandPortFrame
      dsimp only
      rw [if_neg htaken, if_pos (hbad.mpr h)]
    · have hrow : commandPortFrame s n b fcsOk trunc ecc = match recogniseGct s (.command n) b with
          | none => bump s .gctCpOther n.val 0
          | some f => if ecc then stompedCmd s f else receiveCmd s f := by
        unfold commandPortFrame
        dsimp only
        rw [if_neg htaken, if_neg (fun hb => h (hbad.mp hb))] <;> rfl
      cases hgct : recogniseGct s (.command n) b with
      | none =>
        rw [hgct] at hrow
        exact congrArg Host.Outcome.next hrow
      | some f =>
        rw [hgct] at hrow
        exact congrArg Host.Outcome.next hrow
  · refine congrArg (fun t => Host.Outcome.next (portFlushes t (.logical m))) ?_
    unfold portLinkChange
    rw [if_pos rfl, if_neg (by simp [hfree, hused])]
  · refine congrArg (fun t => Host.Outcome.next (portFlushes t (.logical m))) ?_
    unfold portLinkChange
    rw [if_pos rfl, if_pos (by rcases hheld with h | h <;> simp [h])]
  · intro t
    have ht : truncateRx s m.val = t := truncateRx_eq
    refine congrArg (fun u => Host.Outcome.next (portFlushes u (.logical m))) ?_
    unfold portLinkChange
    dsimp only
    rw [if_neg Bool.false_ne_true, truncateRx_link, truncateRx_hiSer, ht]
  · refine congrArg Host.Outcome.next ?_
    unfold commandPortLink
    rw [if_neg (by simp [hdev])]

end Sys2Proof.Machine

/-!
PROOF. The parser and the flow lookup (R104–R106, R118, R119, R156–R161), and the passes of Canopy (R127, R128, R136–R146): each row is the
branch of its definition that the packet's stage and the conditions of the row name.
-/

namespace Sys2Proof.Machine

/-! ### The parser and the flow lookup -/

section Lookup

variable {s : State} {i k : Nat} {p : Packet} {r : ParseRec}

@[simp] theorem countParse_ports (stop : Nat) : (countParse s i stop).ports = s.ports := by
  unfold countParse
  dsimp only
  split
  · rfl
  · split
    · rfl
    · split <;> rfl

theorem obsAdd_ports (cls idx n : Nat) : (obsAdd s cls idx n).ports = s.ports := rfl

/-- The packet whose port's turn it is takes its parse record (R104, R106). -/
theorem parseAccept_of_turn {m : Nat} (hrun : s.gct.stopped = false) (hpath : pathBackPressure s i = false)
    (hport : nextParsePort s i = some m) (hfirst : pktFirst s (fun q => q.lport == m && q.stage == .committed) = some (k, p))
    (hr : parseFrame (parseCfg s) p.bytes = r) {t : State}
    (ht : pktSet (obsAdd (countParse s i r.stop) 0 i 1) k { p with stage := .accepted, prs := some r } = t) :
    parseAccept s i = { t with ports := { t.ports with nextPort := fsetD 0 s.ports.nextPort i ((m % 8 + 1) % 8) } } := by
  have hports : t.ports = s.ports := by rw [← ht, pktSet_ports, obsAdd_ports, countParse_ports]
  unfold parseAccept
  rw [if_neg (by simp [hrun, hpath]), hport]
  dsimp only
  rw [hfirst]
  dsimp only
  rw [hr, ht, hports]

theorem flowKeyComplete_of_accepted (hrun : s.gct.stopped = false) (hfirst : pktFirst s (atStage i .accepted) = some (k, p))
    (hprs : p.prs = some r) :
    flowKeyComplete s i = match tagHit s i (candidates s r.key) r.key with
      | some (b, j) =>
        let e := slotBytes s i b j
        pktSet (packetPrefetch s i r { missAnswer with hit := true, bucket := b, slot := j, gen := entryGen e, ctx := entryCtx e } false) k
          { p with stage := .keyed, keyCand := candidates s r.key, prefetched := true }
      | none => pktSet s k { p with stage := .keyed, keyCand := candidates s r.key } := by
  unfold flowKeyComplete
  rw [if_neg (by simp [hrun]), hfirst]
  dsimp only
  rw [hprs] <;> rfl

/-- The buckets of a lookup as it reads them: a line with an error is fetched again first (R156–R158). -/
def lookupReach (s : State) (p : Packet) (bad1 bad2 : Bool) : State :=
  let s0 := if bad1 then refetchLine s (pipeOf p.lport) p.keyCand.1 else s
  reachBucket (reachBucket (if bad2 then refetchLine s0 (pipeOf p.lport) p.keyCand.2 else s0) (pipeOf p.lport) p.keyCand.1)
    (pipeOf p.lport) p.keyCand.2

theorem flowLookupAnswer_of_issued {bad1 bad2 : Bool} (hget : pktGet s k = some p) (hprs : p.prs = some r) (hnone : p.lookup = none)
    (hstage : p.stage = .keyed ∨ p.stage = .parked) :
    flowLookupAnswer s k bad1 bad2 =
      match findKey (lookupReach s p bad1 bad2) (pipeOf p.lport) p.keyCand r.key with
      | some (b, j) =>
        let a := lookupHit (lookupReach s p bad1 bad2) (pipeOf p.lport) b j
        pktSet (if p.prefetched then a.2 else packetPrefetch a.2 (pipeOf p.lport) r a.1 false) k
          { p with lookup := some a.1, prefetched := true }
      | none =>
        let m := learnMiss (bump (lookupReach s p bad1 bad2) .flwMiss (pipeOf p.lport) 0) (pipeOf p.lport) p r
        pktSet (packetPrefetch m.2 (pipeOf p.lport) r missAnswer m.1) k { p with lookup := some missAnswer, prefetched := true } := by
  have hready : (p.stage == .keyed || p.stage == .parked) = true := by rcases hstage with h | h <;> simp [h]
  unfold flowLookupAnswer
  rw [hget]
  dsimp only
  rw [hprs, hnone, hready] <;> rfl

theorem prefetchLand_of_cons {x : Prefetch} {rest : List Prefetch} (hfirst : prefetchList s i = x :: rest) {t : State}
    (ht : t = { s with tiers := { s.tiers with prefetches := fsetD [] s.tiers.prefetches i rest } }) :
    prefetchLand s i = if (frameOf t x.tag).isSome then t
      else match fillFrame t x.tag x.addr with
        | some r => r.2
        | none => t := by
  subst ht
  unfold prefetchLand
  rw [hfirst] <;> rfl

end Lookup

/-- Settles O10: each row of the lookup by the branch that its conditions name. -/
theorem parsingAndLookup : Obligations.ParsingAndLookup := by
  unfold Obligations.ParsingAndLookup
  refine ⟨fun i s m k p hrun hpath hport hfirst => ?_, fun i s k p r hrun hfirst hprs hmiss => ?_,
    fun i s k p r b j hrun hfirst hprs hhit => ?_, fun s k bad1 bad2 p r hrun hget hprs hnone hstage => ?_,
    fun i s hrun => congrArg Host.Outcome.next (whileRunning_running hrun _),
    fun i s hrun => congrArg Host.Outcome.next (whileRunning_running hrun _), fun i s x rest hrun hfirst => ?_⟩
  · intro r t
    exact congrArg Host.Outcome.next (parseAccept_of_turn hrun hpath hport hfirst (r := r) (t := t) rfl rfl)
  · have hrow := flowKeyComplete_of_accepted hrun hfirst hprs
    rw [hmiss] at hrow
    exact congrArg Host.Outcome.next hrow
  · intro e a
    have hrow := flowKeyComplete_of_accepted hrun hfirst hprs
    rw [hhit] at hrow
    exact congrArg Host.Outcome.next hrow
  · intro pipe s0 s1
    have hrow := flowLookupAnswer_of_issued (bad1 := bad1) (bad2 := bad2) hget hprs hnone hstage
    rw [show lookupReach s p bad1 bad2 = s1 from rfl] at hrow
    have hexec : exec (.flowLookupAnswer k bad1 bad2) s = .next (takeFault (flowLookupAnswer s k bad1 bad2)) :=
      congrArg Host.Outcome.next (whileRunning_running hrun _)
    cases hfind : findKey s1 pipe p.keyCand r.key with
    | none =>
      rw [show findKey s1 (pipeOf p.lport) p.keyCand r.key = none from hfind] at hrow
      exact hexec.trans (congrArg (fun t => Host.Outcome.next (takeFault t)) hrow)
    | some e =>
      rw [show findKey s1 (pipeOf p.lport) p.keyCand r.key = some e from hfind] at hrow
      exact hexec.trans (congrArg (fun t => Host.Outcome.next (takeFault t)) hrow)
  · intro s1
    have hrow := prefetchLand_of_cons hfirst (t := s1) rfl
    have hexec : exec (.prefetchLand i) s = .next (takeFault (prefetchLand s i.val)) :=
      congrArg Host.Outcome.next (whileRunning_running hrun _)
    refine ⟨fun hheld => ?_, fun r hnone hfill => ?_⟩
    · rw [if_pos hheld] at hrow
      exact hexec.trans (congrArg (fun t => Host.Outcome.next (takeFault t)) hrow)
    · rw [if_neg (by simp [hnone]), hfill] at hrow
      exact hexec.trans (congrArg (fun t => Host.Outcome.next (takeFault t)) hrow)

/-! ### The passes of Canopy -/

section Passes

variable {s : State} {i k : Nat} {p : Packet}

theorem firstPassEntry_of_keyed (hrun : s.gct.stopped = false) (hfirst : pktFirst s (atStage i .keyed) = some (k, p)) {t : State} {q : Packet}
    (hstages : runStages false (s, enterFirst s p) [0, 1] = (t, q)) :
    firstPassEntry s i = if q.lookup.isSome && (parkedEligible s i).isNone then runFromT2 t k q
      else if 2048 ≤ parkedCount s i then s else pktSet (bump t .cnpWait i 0) k { q with stage := .parked } := by
  unfold firstPassEntry
  rw [if_neg (by simp [hrun]), hfirst]
  dsimp only
  rw [hstages]

theorem t2Admit_of_eligible (hrun : s.gct.stopped = false) (hfirst : parkedEligible s i = some (k, p)) : t2Admit s i = runFromT2 s k p := by
  unfold t2Admit
  rw [if_neg (by simp [hrun]), hfirst]

theorem passEnd_first (hrun : s.gct.stopped = false) (hfirst : pktFirst s (atStage i .passOne) = some (k, p)) :
    passEnd s i false = endFirst s k p := by
  unfold passEnd
  rw [if_neg (by simp [hrun]), if_neg Bool.false_ne_true, hfirst]
  exact if_neg Bool.false_ne_true

theorem passEnd_second (hrun : s.gct.stopped = false) (hfirst : pktFirst s (atStage i .passTwo) = some (k, p)) :
    passEnd s i true = endSecond s k p := by
  unfold passEnd
  rw [if_neg (by simp [hrun]), if_pos rfl, hfirst]
  exact if_pos rfl

theorem secondPassEntry_of_released (hrun : s.gct.stopped = false) (hget : pktGet s k = some p) (hstage : p.stage = .released)
    (hturn : behind s k p (fun q => metaF q 16 6 == metaF p 16 6 &&
      (q.stage == .toDispatch || q.stage == .held || q.stage == .released)) = false) {t : State} {q : Packet}
    (hstages : runStages true (s, enterSecond p) [0, 1, 2, 3, 4, 5, 6, 7] = (t, q)) :
    secondPassEntry s k = pktSet t k { q with stage := .passTwo } := by
  unfold secondPassEntry
  rw [if_neg (by simp [hrun]), hget]
  dsimp only
  rw [if_neg (by simp [hstage, hturn]), hstages]

theorem pinnedWriteApply_of_free {t : Nat} {e : Nat × ExecCmd} {l : List (Nat × ExecCmd)}
    (hwait : waiting s (fun w => w == .rulePins t) = e :: l) (hfree : pinCount s t (standbyBank s t) = 0) :
    pinnedWriteApply s t = retrySwaps (answerSession (ruleWrite s e.2.cmd.body).2 e.1 (complete (ruleWrite s e.2.cmd.body).1 [])) := by
  unfold pinnedWriteApply
  rw [hwait]
  exact if_neg (not_not_intro hfree)

end Passes

/-- Settles O11: each pass by the packet that stands first for it. -/
theorem canopyPasses : Obligations.CanopyPasses := by
  unfold Obligations.CanopyPasses
  refine ⟨fun i s k p hrun hfirst => ?_, fun i s k p hrun hfirst => congrArg Host.Outcome.next (t2Admit_of_eligible hrun hfirst),
    fun i s k p hrun hfirst => congrArg Host.Outcome.next (passEnd_first hrun hfirst),
    fun i s k p hrun hfirst => congrArg Host.Outcome.next (passEnd_second hrun hfirst), fun s k p hrun hget hstage hturn => ?_,
    fun t s e l hrun hwait hfree => ?_⟩
  · intro r
    have hrow := firstPassEntry_of_keyed hrun hfirst (Prod.mk.eta (p := runStages false (s, enterFirst s p) [0, 1])).symm
    refine ⟨fun hsome hnone => ?_, fun hwait => ?_⟩
    · rw [if_pos (by simp [show (runStages false (s, enterFirst s p) [0, 1]).2.lookup.isSome = true from hsome, hnone])] at hrow
      exact congrArg Host.Outcome.next hrow
    · have hpark : ¬ ((runStages false (s, enterFirst s p) [0, 1]).2.lookup.isSome && (parkedEligible s i.val).isNone) = true := by
        rcases hwait with h | h
        · simp [show (runStages false (s, enterFirst s p) [0, 1]).2.lookup = none from h]
        · simp [Option.isSome_iff_ne_none.mp h]
      rw [if_neg hpark] at hrow
      refine ⟨fun hroom => ?_, fun hfull => ?_⟩
      · rw [if_neg (Nat.not_le.mpr hroom)] at hrow
        exact congrArg Host.Outcome.next hrow
      · rw [if_pos hfull] at hrow
        exact congrArg Host.Outcome.next hrow
  · intro r
    exact congrArg Host.Outcome.next (secondPassEntry_of_released hrun hget hstage hturn Prod.mk.eta.symm)
  · intro r
    exact congrArg Host.Outcome.next ((whileRunning_running hrun _).trans (pinnedWriteApply_of_free hwait hfree))

end Sys2Proof.Machine

/-!
PROOF. A packet in the Grove and in Tier 2 (R201–R208, R426–R435, R457, R458) and at egress (R42, R123, R142–R144, R180): each row is the
branch of its definition that its conditions name.
-/

namespace Sys2Proof.Machine

/-! ### The Grove -/

section Grove

variable {s : State} {i k : Nat} {p : Packet}

theorem groveEntry_of_stall (hrun : s.gct.stopped = false) (hfirst : pktFirst s (atStage i .toGrove) = some (k, p))
    (hstall : boundaryStalls s p.stamp = true) :
    groveEntry s i = if p.waited then bump s .sqTendStall 0 0
      else pktSet (bump (bump s .sqTendStall 0 0) .grvWait i 0) k { p with waited := true } := by
  unfold groveEntry
  rw [if_neg (by simp [hrun]), hfirst]
  exact if_pos hstall

/-- A packet enters the Grove with its sample of route, leaf phases and module time (R201, R205). -/
theorem groveEntry_of_ready (hrun : s.gct.stopped = false) (hfirst : pktFirst s (atStage i .toGrove) = some (k, p))
    (hready : boundaryStalls s p.stamp = false) {others : Nat}
    (hothers : (s.canopy.pkts.filter (fun e => atStage i .inGrove e.2)).length = others) (hroom : others < 2048) {route : Nat}
    (hroute : regN s .grvRoute (metaF p 0 4) 0 = route) :
    groveEntry s i = pktSet (if others = 0 ∨ p.waited = true then bump s .grvEval i 0 else bump (bump s .grvEval i 0) .grvWait i 0) k
      { p with stage := .inGrove
               pinned := p.pinned && !(metaF p 26 2 == 1 && metaF p 31 1 == 0 && !(List.range 4).any (entryApplies p route))
               sample := some { route := route, phases := phasesFor s p.stamp, ms := msNow s } } := by
  unfold groveEntry
  rw [if_neg (by simp [hrun]), hfirst]
  dsimp only
  rw [if_neg (by simp [hready]), hothers, hroute, if_neg (by omega)]
  simp only [Bool.or_eq_true, decide_eq_true_eq]

theorem groveVerdict_of_sampled {x : GroveSample} {err : Option (Nat × Nat × Bool)} (hrun : s.gct.stopped = false) (hget : pktGet s k = some p)
    (hstage : p.stage = .inGrove) (hsample : p.sample = some x) {t : State}
    (ht : (match err with
      | some (u, w, b) => wordErrorArises s u w b
      | none => s) = t) :
    groveVerdict s k err = groveDone (reportEntries t (evalRoute t p x).2) k { p with outputs := (evalRoute t p x).1 } (evalRoute t p x).2 := by
  subst ht
  unfold groveVerdict
  rw [if_neg (by simp [hrun]), hget]
  dsimp only
  rw [hstage, hsample] <;> rfl

end Grove

/-! ### Tier 2 -/

section Tokens

variable {s : State} {i : Nat} {r : TokenReq} {rest : List TokenReq} {m : Tier2Model}

/-- A token waits for a boundary, or for room in the Tending queue where it is a sample (R435, R457). -/
def TokenStalls (s : State) (i : Nat) (m : Tier2Model) (r : TokenReq) : Prop :=
  boundaryStalls s r.snap.stamp = true ∨ (isSample s r.snap.keyCand.1 = true ∧
    queueRoom s (regF s .sqTendCtl 0 0 32 12 + i) (ceilDiv (tokenFeatures s m r.snap).length 4 + 2) = false)

/-- The words of a token, or of its copy to the Tending queue (R430). -/
def tokenWords (s : State) (i q : Nat) (m : Tier2Model) (r : TokenReq) (n : Nat) (stateless sample : Bool) : List QWord :=
  let f := tokenFlow r.snap
  let flags := b2n f.1 + 2 * b2n r.hold.isSome + 4 * b2n stateless + 8 * b2n sample + 16 * b2n (t2PhaseFor s r.snap.stamp)
  (BitVec.ofNat 128 (tokenWord0 1 flags i r.snap.lport f.2.1 f.2.2.1 f.2.2.2 m.modelId (queueGet s q).wr.toNat) ::
    BitVec.ofNat 128 (tokenWord1 r.snap.stamp r.handle n (ceilDiv (tokenFeatures s m r.snap).length 4) (fgetD 0 s.tiers.drops q)) ::
    featureWords (tokenFeatures s m r.snap)).map (fun w => mkWord w false)

/-- The state in which a committed token has left its queue, its frame is pinned and a sample has its copy (R430, R457). -/
def tokenSent (s t : State) (i q n : Nat) (copy : List QWord) (sample : Bool) : State :=
  let s3 := bump (popToken (pinFrame t n) i) .sqT2Tokens i 0
  let s4 := { s3 with tiers := { s3.tiers with drops := fsetD 0 s3.tiers.drops q 0 } }
  if sample then (queueSend s4 (regF s .sqTendCtl 0 0 32 12 + i) copy false).2 else s4

theorem tokenDispatch_of_noModel (hfirst : fgetD [] s.tiers.tokenWait i = r :: rest) (hnone : tier2Model s i = none) :
    tokenDispatch s i = dropToken s i (tokenQueue s i (tier2Set s i) r.snap.keyCand.1) r := by
  unfold tokenDispatch
  rw [hfirst]
  dsimp only
  rw [hnone]

/-- With a model loaded, the stalls come first, then the binding of the token queue, its room and the context copy (R435). -/
theorem tokenDispatch_of_model (hfirst : fgetD [] s.tiers.tokenWait i = r :: rest) (hmodel : tier2Model s i = some m) {q : Nat}
    (hq : tokenQueue s i (tier2Set s i) r.snap.keyCand.1 = q) :
    (TokenStalls s i m r → tokenDispatch s i = bump s .sqTendStall 0 0) ∧
    (¬ TokenStalls s i m r → queueProducer s q ≠ (2, i) → tokenDispatch s i = dropToken s i q r) ∧
    (¬ TokenStalls s i m r → queueProducer s q = (2, i) →
      queueEnabled s q = false ∨ queueRoom s q (ceilDiv (tokenFeatures s m r.snap).length 4 + 2) = false →
      tokenDispatch s i = dropToken (queueOpen s q (ceilDiv (tokenFeatures s m r.snap).length 4 + 2) true).2 i q r) ∧
    (∀ (t u : State) (n : Nat) (stateless : Bool), ¬ TokenStalls s i m r → queueProducer s q = (2, i) → queueEnabled s q = true →
      queueRoom s q (ceilDiv (tokenFeatures s m r.snap).length 4 + 2) = true → contextFrame s m r.snap = (some (n, t), stateless) →
      queueSend t q (tokenWords s i q m r n stateless false) true = (.ok, u) →
      tokenDispatch s i =
        match pktGet (tokenSent s u i q n (tokenWords s i q m r n stateless true) (isSample s r.snap.keyCand.1)) r.pkt with
        | some c => if c.stage = .toDispatch
          then pktSet (tokenSent s u i q n (tokenWords s i q m r n stateless true) (isSample s r.snap.keyCand.1)) r.pkt { c with stage := .held }
          else tokenSent s u i q n (tokenWords s i q m r n stateless true) (isSample s r.snap.keyCand.1)
        | none => tokenSent s u i q n (tokenWords s i q m r n stateless true) (isSample s r.snap.keyCand.1)) := by
  have hstall : (boundaryStalls s r.snap.stamp || (isSample s r.snap.keyCand.1 &&
      !queueRoom s (regF s .sqTendCtl 0 0 32 12 + i) (ceilDiv (tokenFeatures s m r.snap).length 4 + 2))) = true ↔ TokenStalls s i m r := by
    simp [TokenStalls]
  refine ⟨fun h => ?_, fun h hbound => ?_, fun h hbound hfull => ?_, fun t u n stateless h hbound henabled hroom hframe hsend => ?_⟩ <;>
    unfold tokenDispatch <;> rw [hfirst] <;> dsimp only <;> rw [hmodel, hq] <;> dsimp only
  · rw [if_pos (hstall.mpr h)]
  · rw [if_neg (fun hb => h (hstall.mp hb)), if_pos (by simpa using hbound)]
  · rw [if_neg (fun hb => h (hstall.mp hb)), if_neg (by simp [hbound]), if_pos (by rcases hfull with hf | hf <;> simp [hf])]
  · rw [if_neg (fun hb => h (hstall.mp hb)), if_neg (by simp [hbound]), if_neg (by simp [henabled, hroom]), hframe]
    unfold tokenWords at hsend
    dsimp only at hsend ⊢
    rw [hsend] <;> rfl

end Tokens

section Verdicts

variable {s : State}

theorem verdictRead_of_words {q : Nat} {s1 s2 s3 : State} {x y z : QWord} (hconsumer : (queueConsumer s q).1 = 6)
    (hx : queueRead s q = (some x, s1)) (hy : queueRead s1 q = (some y, s2)) (hz : queueRead s2 q = (some z, s3)) :
    verdictRead s q = if x.poison || y.poison || z.poison then bump (queueRelease s3 q).2 .sqT2Poison 0 0
      else takeVerdict (queueRelease s3 q).2 q x.data.toNat y.data.toNat z.data.toNat := by
  unfold verdictRead
  rw [if_neg (by simp [hconsumer]), hx]
  dsimp only
  rw [hy]
  dsimp only
  rw [hz]

theorem holdKey_div {i e : Nat} (he : e < 131072) : holdKey i e / holdEntries = i := by
  unfold holdKey holdEntries
  omega

theorem deadlineTest_of_due {i e : Nat} {h : HoldEntry} (he : e < 131072) (hget : fget? s.tiers.holds (holdKey i e) = some h)
    (htier : h.tier2 = true) (hdue : h.deadline ≤ stampNow s) :
    deadlineTest s (holdKey i e) = releasePacket (bump (holdRelease s (holdKey i e)) .sqDeferred i 0) h.pkt defer := by
  unfold deadlineTest
  rw [hget]
  dsimp only
  rw [if_pos (by simp [htier, hdue]), holdKey_div he]

end Verdicts

/-- Settles O12: the Grove's rows and Tier 2's, each by the branch that its conditions name. -/
theorem groveAndTiers : Obligations.GroveAndTiers := by
  unfold Obligations.GroveAndTiers
  refine ⟨fun i s k p hrun hfirst => ?_, fun s k p x err hrun hget hstage hsample => ?_, fun i s r rest hrun hfirst => ?_,
    fun q s s1 s2 s3 x y z hrun hconsumer hx hy hz => ?_, fun i e s h hrun hget htier hdue => ?_⟩
  · intro others
    refine ⟨fun hstall => congrArg Host.Outcome.next (groveEntry_of_stall hrun hfirst hstall), ?_⟩
    intro hready hroom route last s1
    exact congrArg Host.Outcome.next (groveEntry_of_ready hrun hfirst hready rfl hroom rfl)
  · intro s0
    exact congrArg Host.Outcome.next (groveVerdict_of_sampled hrun hget hstage hsample (t := s0) rfl)
  · intro q
    have hexec : exec (.tokenDispatch i) s = .next (takeFault (tokenDispatch s i.val)) :=
      congrArg Host.Outcome.next (whileRunning_running hrun _)
    have hrow {t : State} (h : tokenDispatch s i.val = t) : exec (.tokenDispatch i) s = .next (takeFault t) := h ▸ hexec
    refine ⟨fun hnone => hrow (tokenDispatch_of_noModel hfirst hnone), ?_⟩
    intro m hmodel nf sample tq stalls
    obtain ⟨hwaits, hother, hfull, hsent⟩ := tokenDispatch_of_model hfirst hmodel (q := q) rfl
    refine ⟨fun h => hrow (hwaits h), fun h hbound => hrow (hother h hbound), fun h hbound hno => hrow (hfull h hbound hno), ?_⟩
    intro s1 s2 n stateless f flags token h hbound henabled hroom hframe hsend s3 s4 s5
    have hdone := hsent s1 s2 n stateless h hbound henabled hroom hframe hsend
    rw [show tokenSent s s2 i q n (tokenWords s i q m r n stateless true) (isSample s r.snap.keyCand.1) = s5 from rfl] at hdone
    refine ⟨fun c hget hstage => ?_, fun hno => ?_⟩
    · rw [hget] at hdone
      exact hrow (hdone.trans (if_pos hstage))
    · cases hget : pktGet s5 r.pkt with
      | none =>
        rw [hget] at hdone
        exact hrow hdone
      | some c =>
        rw [hget] at hdone
        exact hrow (hdone.trans (if_neg (hno c hget)))
  · intro s4
    exact congrArg Host.Outcome.next ((whileRunning_running hrun _).trans (verdictRead_of_words hconsumer hx hy hz))
  · exact congrArg Host.Outcome.next ((whileRunning_running hrun _).trans (deadlineTest_of_due e.isLt hget htier hdue))

end Sys2Proof.Machine

/-! PROOF. Egress: a packet that nothing holds back leaves on its port, or counts its discard. -/

namespace Sys2Proof.Machine

section Egress

variable {s : State} {k : Nat} {p : Packet}

theorem egress_of_unblocked (hrun : s.gct.stopped = false) (hget : pktGet s k = some p) (hstage : p.stage = .toEgress)
    (hfree : behind s k p (orderBlocks p) = false) : egress s k = transmit s k p (metaF p 16 6) 0 false := by
  unfold egress
  rw [if_neg (by simp [hrun]), hget]
  dsimp only
  rw [hstage]
  exact if_neg (by simp [hfree])

theorem egress_of_mirror {port trunc : Nat} (hrun : s.gct.stopped = false) (hget : pktGet s k = some p)
    (hstage : p.stage = .mirror port trunc) : egress s k = transmit s k p port trunc true := by
  unfold egress
  rw [if_neg (by simp [hrun]), hget]
  dsimp only
  rw [hstage]

theorem transmit_of_dead {port : Nat} (trunc : Nat) (copy : Bool) (hdead : portLive s port = false) :
    transmit s k p port trunc copy = pktLeave (bump s .prtEgressDrop 0 0) k := by
  unfold transmit
  exact if_pos (by simp [hdead])

theorem transmit_of_oversize {port trunc len : Nat} {copy : Bool} {v : EditView} (hlive : portLive s port = true)
    (hv : v = if copy then p.viewNow else markPassMode p.viewNow p.passMode)
    (hlen : len = if trunc = 0 then v.work.length + 4 else min (v.work.length + 4) trunc)
    (hover : regF s .prtCfg (port / 4) 0 16 14 < len) :
    transmit s k p port trunc copy = pktLeave (bump s .cnpOversizeDrop 0 0) k := by
  subst hv hlen
  unfold transmit
  dsimp only
  rw [if_neg (by simp [hlive]), if_pos hover]

theorem transmit_of_fitting {port trunc len : Nat} {copy : Bool} {v : EditView} (hlive : portLive s port = true)
    (hv : v = if copy then p.viewNow else markPassMode p.viewNow p.passMode)
    (hlen : len = if trunc = 0 then v.work.length + 4 else min (v.work.length + 4) trunc)
    (hfits : len ≤ regF s .prtCfg (port / 4) 0 16 14) :
    transmit s k p port trunc copy =
      (let s0 := readCells s p.cells
       let bad := pktPoisoned s0 p
       let s1 := bumpBy (bump s0 .prtTxFrames port 0) .prtTxBytes port 0 len
       let s2 := if bad then bump s1 .hwdPktStomp 0 0 else s1
       pktLeave { s2 with sent := s2.sent ++ [.data port (v.work.take (len - 4)) (!bad) copy] } k) := by
  subst hv hlen
  unfold transmit
  dsimp only
  rw [if_neg (by simp [hlive]), if_neg (Nat.not_lt.mpr hfits)]

end Egress

/-- Settles O13: `egress` is `transmit` for a packet that nothing holds back, and `transmit` has one branch per outcome. -/
theorem egressSendsOrCounts : Obligations.EgressSendsOrCounts := by
  unfold Obligations.EgressSendsOrCounts
  refine ⟨fun s k p hrun hget hstage hfree => ?_, fun s k port trunc p hrun hget hstage => ?_⟩
  · intro port v len
    have hexec : exec (.egress k) s = .next (transmit s k p port 0 false) :=
      congrArg Host.Outcome.next (egress_of_unblocked hrun hget hstage hfree)
    exact ⟨fun hdead => hexec.trans (congrArg Host.Outcome.next (transmit_of_dead 0 false hdead)),
      fun hlive hover => hexec.trans (congrArg Host.Outcome.next (transmit_of_oversize (v := v) hlive rfl rfl hover)),
      fun hlive hfits => hexec.trans (congrArg Host.Outcome.next (transmit_of_fitting (v := v) hlive rfl rfl hfits))⟩
  · intro whole len
    have hexec : exec (.egress k) s = .next (transmit s k p port trunc true) :=
      congrArg Host.Outcome.next (egress_of_mirror hrun hget hstage)
    exact ⟨fun hdead => hexec.trans (congrArg Host.Outcome.next (transmit_of_dead trunc true hdead)),
      fun hlive hover => hexec.trans (congrArg Host.Outcome.next (transmit_of_oversize (v := p.viewNow) hlive rfl rfl hover)),
      fun hlive hfits => hexec.trans (congrArg Host.Outcome.next (transmit_of_fitting (v := p.viewNow) hlive rfl rfl hfits))⟩

end Sys2Proof.Machine

/-! PROOF. Power, reset, the input and the temperatures: each row by the branch that its operand or its state names. -/

namespace Sys2Proof.Machine

section PowerUp

theorem powerUp_of_inRange {s : State} {mv : Nat} (hdev : s.gct.dev = .powered) (hrails : s.pwr.rails = false) (hlow : 46000 ≤ mv)
    (hhigh : mv ≤ 56000) : powerUp s mv = pwrMod (regPut s .pwrRail 0 0 0) (fun p =>
      { p with mv := mv, pgoodIn := true, rails := true, resetN := false, releaseAt := s.clock + 1250000 }) :=
  if_neg (by simp [hdev, hrails, hlow, hhigh])

theorem resetRelease_of_due {s : State} (hdev : s.gct.dev = .powered) (hrails : s.pwr.rails = true) (hgood : s.pwr.pgoodIn = true)
    (hdue : s.pwr.releaseAt ≤ s.clock) :
    resetRelease s = enterState (pwrMod s (fun p => { p with resetN := true })) .secureBoot :=
  if_pos (by simp [hdev, hrails, hgood, hdue])

theorem resetRelease_of_early {s : State} (h : s.gct.dev ≠ .powered ∨ s.clock < s.pwr.releaseAt) :
    resetRelease s = pwrMod s (fun p => { p with resetN := true }) := by
  refine if_neg fun hall => ?_
  simp only [Bool.and_eq_true, beq_iff_eq, decide_eq_true_eq] at hall
  obtain ⟨⟨⟨hdev, -⟩, -⟩, hdue⟩ := hall
  exact h.elim (fun hne => hne hdev) (Nat.not_lt.mpr hdue)

/-- The order in which SECURE_BOOT tries the two slots, with what verifies in each. -/
def bootOrder (s : State) (slot : Nat) (ok : Nat → Option Bytes) : State :=
  match ok slot with
  | some b => bootWith s slot b false
  | none =>
    match ok (1 - slot) with
    | some b => bootWith (sigBad s) (1 - slot) b true
    | none => enterFaulted (trustMod (sigBad (sigBad s)) (fun t => { t with fallback := true })) 1

theorem bootOrder_eq (s : State) (slot : Nat) (ok : Nat → Option Bytes) :
    bootOrder s slot ok = match ok slot, ok (1 - slot) with
      | some b, _ => bootWith s slot b false
      | none, some b => bootWith (sigBad s) (1 - slot) b true
      | none, none => enterFaulted (trustMod (sigBad (sigBad s)) (fun t => { t with fallback := true })) 1 := by
  unfold bootOrder
  generalize ok slot = first
  generalize ok (1 - slot) = second
  cases first with
  | some b => rfl
  | none => cases second <;> rfl

/-- What SECURE_BOOT boots: the slot's image where it verifies, else the other slot's, else nothing. The state in which it tries them and what
verifies are variables with equations: their values hold the digest of the boot ROM, which no proof should evaluate. -/
theorem secureBoot_of_secureBoot {s s2 : State} {good : Nat → Option Bytes} (hdev : s.gct.dev = .secureBoot)
    (hs2 : measExtend ((List.range 8).foldl (fun t m => measPut t m (zeros 32))
      (trustMod (bootTables s) (fun t => { t with boots := (t.boots + 1) % 2 ^ 64 }))) 0 (sha256 Config.bootRom) = s2)
    (hgood : (fun n => (firmwareAt s2 n).bind (fun b => if firmwareVerifies s2 b then some b else none)) = good) :
    secureBoot s = bootOrder s2 s.trust.bootSlot good := by
  unfold secureBoot
  rw [if_neg (by simp [hdev])]
  extract_lets t1 t2 t3 ok
  have hstate : t3 = s2 := hs2
  have hok : ok = good := by rw [← hgood, ← hstate]
  rw [hok, hstate]
  rfl

end PowerUp

section ModuleReset

theorem moduleResetRow_of_glitch {s : State} {ns : Nat} (h : ns < 50) : moduleResetRow s (.pin ns) = s :=
  if_pos h

theorem moduleResetRow_of_pulse {s : State} {ns : Nat} (h : 10000 ≤ ns) : moduleResetRow s (.pin ns) = pinReset s :=
  (if_neg (by omega)).trans (if_neg (by omega))

theorem moduleResetRow_of_command {s : State} {t : Nat} (hdue : s.gct.resetDue = some t) :
    moduleResetRow s .command = if t + 12500 ≤ s.clock then moduleReset s else s := by
  unfold moduleResetRow
  dsimp only
  rw [hdue]

end ModuleReset

/-- Settles O25: the rows of power and reset by their branches; what a module reset starts anew and what it keeps stands in its record. -/
theorem powerAndReset : Obligations.PowerAndReset := by
  unfold Obligations.PowerAndReset
  refine ⟨⟨fun mv s hdev hrails hlow hhigh => congrArg Host.Outcome.next (powerUp_of_inRange hdev hrails hlow hhigh),
      fun s hdev hrails hgood hdue => congrArg Host.Outcome.next (resetRelease_of_due hdev hrails hgood hdue),
      fun s h => congrArg Host.Outcome.next (resetRelease_of_early h), fun s hdev => ?_⟩,
    fun ns s => ⟨fun h => congrArg Host.Outcome.next (moduleResetRow_of_glitch h),
      fun h => congrArg Host.Outcome.next (moduleResetRow_of_pulse h)⟩,
    fun t s hdue => ⟨fun h => congrArg Host.Outcome.next ((moduleResetRow_of_command hdue).trans (if_pos h)),
      fun h => congrArg Host.Outcome.next ((moduleResetRow_of_command hdue).trans (if_neg (Nat.not_le.mpr h)))⟩,
    fun s => rfl, fun s => ⟨rfl, rfl, rfl, rfl, rfl, rfl, rfl, rfl, rfl, rfl, rfl, rfl⟩⟩
  intro s1 s2 good
  have hboot : secureBoot s = bootOrder s2 s.trust.bootSlot good := secureBoot_of_secureBoot hdev rfl rfl
  refine (congrArg Host.Outcome.next hboot).trans ?_
  clear_value good s2
  exact congrArg Host.Outcome.next (bootOrder_eq s2 s.trust.bootSlot good)

section Input

theorem inputRange_of_warning {s : State} {mv : Nat} (hrails : s.pwr.rails = true)
    (h : (44000 ≤ mv ∧ mv < 46000) ∨ (56000 < mv ∧ mv ≤ 58000)) :
    inputRange s mv = bump (regPutF (pwrMod s (fun p => { p with mv := mv })) .pwrAlert 0 0 0 1 1) .pwrInputEvents 0 0 :=
  (if_pos (by simpa using h)).trans (if_pos hrails)

theorem powerGoodLoss_of_input {s : State} {mv : Nat} (h : mv < 44000 ∨ 58000 < mv) :
    powerGoodLoss s (.input mv) = powerLost (pwrMod s (fun p => { p with mv := mv })) := by
  refine if_neg fun hin => ?_
  simp only [Bool.and_eq_true, decide_eq_true_eq] at hin
  omega

theorem phaseShed_of_rails {s : State} {r : Nat} (hr : r < 12) (hrails : s.pwr.rails = true) :
    phaseShed s r = match regF s .pwrRail 0 0 (2 * r) 2 with
      | 0 => bump (regPutF (regPutF s .pwrRail 0 0 (2 * r) 2 1) .pwrAlert 0 0 1 1 1) .pwrShed 0 0
      | 1 => enterFaulted (regPutF s .pwrRail 0 0 (2 * r) 2 2) 3
      | _ => s :=
  if_neg (by simp [hr, hrails])

theorem phaseShed_of_failed {s : State} {r : Nat} (hr : r < 12) (hrails : s.pwr.rails = true)
    (hfailed : 2 ≤ regF s .pwrRail 0 0 (2 * r) 2) : phaseShed s r = s := by
  rw [phaseShed_of_rails hr hrails]
  split
  · omega
  · omega
  · rfl

end Input

section Temperature

/-- A reading of a Limb's sensor as the row takes it in, before it judges it. -/
theorem limbThrottle_of_limb {s : State} {n temp : Nat} (hn : n < 4) :
    limbThrottle s n temp =
      (let s1 := pwrMod (throttleSettle s) (fun p => { p with temps := fsetD 25 p.temps (n + 1) (Nat.min temp 255) })
       if 100 ≤ temp ∧ !bitN s.pwr.throttled n then
         pwrMod (regPutF s1 .pwrAlert 0 0 2 1 1) (fun p =>
           { p with throttled := setBitN p.throttled n true, hotSince := finsert p.hotSince n s.clock })
       else if temp < 95 then
         pwrMod s1 (fun p => { p with throttled := setBitN p.throttled n false, hotSince := ferase p.hotSince n })
       else s1) :=
  if_neg (Nat.not_le.mpr hn)

theorem thermalShutdown_of_hotDie {s : State} {n temp : Nat} (hn : n < 5) (hhot : 110 ≤ temp) :
    thermalShutdown s n temp = enterFaulted (pwrMod s (fun p => { p with temps := fsetD 25 p.temps n (Nat.min temp 255) })) 5 :=
  (if_pos hn).trans (if_neg (Nat.not_lt.mpr hhot))

theorem thermalShutdown_of_hotStack {s : State} {n temp : Nat} (hlow : 5 ≤ n) (hhigh : n < 13) (hhot : 105 ≤ temp) :
    thermalShutdown s n temp = enterFaulted (hbmThermal s (n - 5) temp) 5 :=
  (if_neg (Nat.not_lt.mpr hlow)).trans ((if_pos hhigh).trans (if_neg (Nat.not_lt.mpr hhot)))

theorem hbmThermal_of_stack {s : State} {st temp : Nat} (hst : st < 8) (htemp : temp ≤ 255) :
    hbmThermal s st temp =
      (let t := heatSettle s st
       let u := { t with facet := { t.facet with
         hotSince := if thermalOf temp = 2 then finsert t.facet.hotSince st s.clock else ferase t.facet.hotSince st } }
       regPutF (regPutF u .hbmStatus 0 st 0 8 temp) .hbmStatus 0 st 8 2 (thermalOf temp)) := by
  unfold hbmThermal
  rw [if_neg (Nat.not_le.mpr hst), show Nat.min temp 255 = temp from Nat.min_eq_left htemp]

end Temperature

/-- Settles O26: each reading by the range that it lies in. -/
theorem inputAndTemperature : Obligations.InputAndTemperature := by
  unfold Obligations.InputAndTemperature
  refine ⟨⟨fun mv s hrails h => congrArg Host.Outcome.next (inputRange_of_warning hrails h),
      fun mv s h => congrArg Host.Outcome.next (powerGoodLoss_of_input h), fun s => rfl,
      fun r s hr => congrArg Host.Outcome.next (if_pos hr), fun r s hr hrails => ⟨fun hzero => ?_, fun hone => ?_, fun htwo => ?_⟩,
      fun mv ca dw s => rfl⟩,
    fun n temp s hn => ?_, fun n temp s hn hhot => congrArg Host.Outcome.next (thermalShutdown_of_hotDie hn hhot),
    fun n temp s hlow hhigh hhot => congrArg Host.Outcome.next (thermalShutdown_of_hotStack hlow hhigh hhot),
    fun st temp s htemp => ?_⟩
  · refine congrArg Host.Outcome.next ((phaseShed_of_rails hr hrails).trans ?_)
    simp only [hzero]
  · refine congrArg Host.Outcome.next ((phaseShed_of_rails hr hrails).trans ?_)
    simp only [hone]
  · exact congrArg Host.Outcome.next (phaseShed_of_failed hr hrails htwo)
  · intro s1
    have hexec : exec (.limbThrottle n temp) s = .next _ := congrArg Host.Outcome.next (limbThrottle_of_limb hn)
    refine ⟨fun hhot hcool => hexec.trans (congrArg Host.Outcome.next (if_pos ⟨hhot, by simp [hcool]⟩)),
      fun hcold => hexec.trans (congrArg Host.Outcome.next ((if_neg (by omega)).trans (if_pos hcold))),
      fun hlow hhigh => hexec.trans (congrArg Host.Outcome.next ((if_neg (by omega)).trans (if_neg (by omega))))⟩
  · intro t u
    exact congrArg Host.Outcome.next (hbmThermal_of_stack st.isLt htemp)

end Sys2Proof.Machine

/-! PROOF. The management bus, the test port, the counters and the trace. -/

namespace Sys2Proof.Machine

section Sideband

/-- The greatest value of a list is one of them, or what the search began with, and no value lies above it. -/
theorem foldl_max_bounds (f : Nat → Nat) (l : List Nat) (b : Nat) :
    b ≤ l.foldl (fun a i => Nat.max a (f i)) b ∧ (∀ i ∈ l, f i ≤ l.foldl (fun a i => Nat.max a (f i)) b) ∧
    (l.foldl (fun a i => Nat.max a (f i)) b = b ∨ ∃ i ∈ l, l.foldl (fun a i => Nat.max a (f i)) b = f i) := by
  induction l generalizing b with
  | nil => simp
  | cons j t ih =>
    obtain ⟨hbase, hall, hone⟩ := ih (Nat.max b (f j))
    rw [List.foldl_cons]
    refine ⟨(Nat.le_max_left _ _).trans hbase, ?_, ?_⟩
    · intro i hi
      rcases List.mem_cons.mp hi with rfl | hi
      · exact (Nat.le_max_right _ _).trans hbase
      · exact hall i hi
    · rcases hone with hkept | ⟨i, hi, heq⟩
      · rcases Nat.le_total (f j) b with hle | hle
        · exact .inl (hkept.trans (Nat.max_eq_left hle))
        · exact .inr ⟨j, List.mem_cons_self, hkept.trans (Nat.max_eq_right hle)⟩
      · exact .inr ⟨i, List.mem_cons_of_mem _ hi, heq⟩

theorem smbusRead_of_rails {s : State} (num den : Nat) (hrails : s.pwr.rails = true) :
    smbusRead s num den = { s with sent := s.sent ++ [.smbus (linear11 num den)] } :=
  if_pos hrails

theorem tapExtest_of_run {s : State} (data : Nat) (hrun : s.pwr.resetN = true) : tapExtest s data = tapAnswer s 0x00 (2 * data) :=
  if_pos hrun

theorem tapExtest_of_reset {s : State} (data : Nat) (hreset : s.pwr.resetN = false) :
    tapExtest s data = pwrMod (tapAnswer (freeBits s 64).2 0x00 (freeBits s 64).1) (fun p => { p with boundary := data }) :=
  if_neg (by simp [hreset])

theorem tapScan_of_enabled {s : State} {body bs : Bytes} (hen : regF s .obsCtl 0 0 0 1 = 1) (hdev : s.gct.dev = .halted)
    (hscan : scanBytes s body = some bs) :
    tapScan s body = pwrMod (auditAdd { s with sent := s.sent ++ [.tap (leNat bs)] } (auditRecord s 3 0 0 0 0x82 0 0 1 (body.take 16)))
      (fun p => { p with tapIr := 0x20 }) := by
  unfold tapScan scanRead
  rw [if_pos (by simp [hen, hdev]), hscan]
  rfl

end Sideband

section Counters

theorem commandBoundary_of_run {s : State} {j : Nat} (hj : j < 32) (hrun : s.gct.stopped = false) :
    commandBoundary s j true = setBoundary (s.obs.local_.foldl (fun t e => countSend t e.1) s) j := by
  unfold commandBoundary
  rw [if_neg (by simp [hrun]), Nat.mod_eq_of_lt (by omega)]

theorem fget_setBoundary {s : State} {j : Nat} {c : CtrSet} (hget : fget? s.obs.sets j = some c) :
    fget? (setBoundary s j).obs.sets j = some { c with final := c.live, live := [], bounds := (c.bounds + 1) % 2 ^ 32 } :=
  (fget_fmod_self _ _ _).trans (congrArg (Option.map _) hget)

theorem pcSample_of_resident {s : State} {k h : Nat} {issued : Bool} {x : Hc} (hrun : s.gct.stopped = false)
    (hon : traceOn s 0 = true) (hactive : coreActive s k = true) (hlow : regF s .obsTrace 0 0 10 11 ≤ k)
    (hhigh : k ≤ regF s .obsTrace 0 0 21 11) (hget : hcGet s k h = some x) :
    pcSample s k h issued = traceEmit s 1 k (leBytes 6 x.pc ++ leBytes 2 x.ctx ++ leBytes 2 x.layer ++ leBytes 2 x.oper ++
      [byteOf (stallOf s k h x issued), byteOf h, 0, 0]) := by
  unfold pcSample
  rw [if_neg (by simp [hrun, hon, hactive, hlow, hhigh]), hget]

end Counters

section Trace

variable {s : State}

theorem chaifFrameSend_of_empty {n : Nat} {taken left : List TraceRec} (hlink : regF s .obsTrace 0 0 32 1 = 1)
    (htake : takeChaif n s.obs.recs = (taken, left)) (hnone : taken.filter (fun r => !r.bad) = []) :
    chaifFrameSend s n = { dropBad s taken with obs := { (dropBad s taken).obs with recs := left } } := by
  unfold chaifFrameSend
  rw [htake]
  dsimp only
  rw [hnone, if_neg (by simp [hlink])]
  exact if_pos rfl

theorem chaifFrameSend_of_records {n : Nat} {taken left now : List TraceRec} {t : State} (hlink : regF s .obsTrace 0 0 32 1 = 1)
    (htake : takeChaif n s.obs.recs = (taken, left)) (hnow : now = taken.filter (fun r => !r.bad)) (ht : t = dropBad s taken)
    (hfits : (now.flatMap (fun r => r.bytes)).length ≤ 8192) (hsome : now ≠ []) :
    chaifFrameSend s n =
      (let frame := beBytes 6 (regF t .obsChaifDmac 0 0 0 48) ++ beBytes 6 Config.chaifMac ++ beBytes 2 0x88B5 ++
         gctBytes [] 0x03 0 0 t.obs.chaifSeq 0 0 (now.flatMap (fun r => r.bytes))
       bumpBy { t with obs := { t.obs with recs := left, chaifSeq := t.obs.chaifSeq + 1 }, sent := t.sent ++ [.chaif frame] }
         .obsTraceRecs 0 0 now.length) := by
  subst ht
  unfold chaifFrameSend
  rw [htake]
  dsimp only
  rw [← hnow, if_neg (by simpa [hlink] using hfits), if_neg (by simpa using hsome)]

theorem traceFallbackSend_of_found {r : TraceRec} (hfind : s.obs.recs.find? (fun r => r.fallback) = some r) :
    traceFallbackSend s =
      (let t : State := { s with obs := { s.obs with recs := s.obs.recs.erase r } }
       let fs := (recordFrames s 2 r.seqs r.bytes).filter (fun e => match e.1 with | .command _ => true | _ => false)
       let onPort (p : Nat) : Nat := (fs.filter (fun e => portIndex e.1 == p)).foldl (fun a e => a + lineBytes e.2) 0
       if !traceSubscribed s then bump t .obsTraceDrop 0 0
       else if r.bad then dropBad t [r]
       else if !outRoom s (fs.map Prod.snd) || [0, 1].any (fun p => decide (15000 < windowBytes s p + onPort p) && decide (0 < onPort p))
         then s
       else bump (fs.foldl sendTrace t) .obsTraceRecs 0 0) := by
  unfold traceFallbackSend
  rw [hfind] <;> rfl

/-- Where each port's window has room for its part of a record, no port refuses it. -/
theorem no_port_refuses {need : Nat → Nat} (h : ∀ p, p < 2 → windowBytes s p + need p ≤ 15000) :
    [0, 1].any (fun p => decide (15000 < windowBytes s p + need p) && decide (0 < need p)) = false := by
  have hport (p : Nat) (hp : p < 2) : ¬ 15000 < windowBytes s p + need p := Nat.not_lt.mpr (h p hp)
  simp [hport 0 (by omega), hport 1 (by omega)]

end Trace

/-- Settles O27: each row of the sideband, the counters and the trace by its conditions. -/
theorem sidebandAndCounters : Obligations.SidebandAndCounters := by
  unfold Obligations.SidebandAndCounters
  refine ⟨⟨fun s hrails => ⟨congrArg Host.Outcome.next (smbusRead_of_rails _ _ hrails),
        congrArg Host.Outcome.next (smbusRead_of_rails _ _ hrails), congrArg Host.Outcome.next (smbusRead_of_rails _ _ hrails), ?_⟩,
      fun s => rfl, fun code data s => rfl, fun data s => ⟨(freeBits s 64).1, rfl⟩,
      fun data s => ⟨fun hrun => congrArg Host.Outcome.next (tapExtest_of_run data hrun),
        fun hreset => ⟨(freeBits s 64).1, congrArg Host.Outcome.next (tapExtest_of_reset data hreset)⟩⟩,
      fun body bs s hen hdev hscan => congrArg Host.Outcome.next (tapScan_of_enabled hen hdev hscan)⟩,
    fun k s hrun => congrArg Host.Outcome.next (whileRunning_running hrun _),
    fun j s hcrown => ⟨fun hrun => congrArg Host.Outcome.next ((whileCrown_runs hcrown _).trans (commandBoundary_of_run j.isLt hrun)),
      congrArg Host.Outcome.next (whileCrown_runs hcrown _)⟩,
    fun s j c hget => fget_setBoundary hget,
    fun k h issued s x hrun hon hactive hlow hhigh hget =>
      congrArg Host.Outcome.next (pcSample_of_resident hrun hon hactive hlow hhigh hget),
    fun n s taken left hlink htake => ?_, fun s r hfind => ?_, fun up s => rfl⟩
  · obtain ⟨-, hall, hone⟩ := foldl_max_bounds (fun i => fgetD 25 s.pwr.temps i) (List.range 5) 0
    refine ⟨_, fun i hi => hall i (List.mem_range.mpr hi), hone.imp_right ?_, congrArg Host.Outcome.next (smbusRead_of_rails _ _ hrails)⟩
    exact fun ⟨i, hi, heq⟩ => ⟨i, List.mem_range.mp hi, heq⟩
  · intro now t hfits
    refine ⟨fun hnone => congrArg Host.Outcome.next (chaifFrameSend_of_empty hlink htake hnone), fun hsome => ?_⟩
    intro frame
    exact congrArg Host.Outcome.next (chaifFrameSend_of_records hlink htake rfl rfl hfits hsome)
  · intro t fs onPort
    have hexec : exec .traceFallbackSend s = .next _ := congrArg Host.Outcome.next (traceFallbackSend_of_found hfind)
    refine ⟨fun hsub => hexec.trans (congrArg Host.Outcome.next (if_pos (by simp [hsub]))), fun hsub hbad => ?_,
      fun hsub hgood hroom hwindow => ?_, fun hsub hgood hroom => ?_⟩
    · exact hexec.trans (congrArg Host.Outcome.next ((if_neg (by simp [hsub])).trans (if_pos hbad)))
    · have hopen : (!outRoom s (fs.map Prod.snd) ||
          [0, 1].any (fun p => decide (15000 < windowBytes s p + onPort p) && decide (0 < onPort p))) = false := by
        rw [hroom, no_port_refuses hwindow]
        rfl
      exact hexec.trans (congrArg Host.Outcome.next ((if_neg (by simp [hsub])).trans ((if_neg (by simp [hgood])).trans
        (if_neg fun h => Bool.false_ne_true (hopen.symm.trans h)))))
    · have hshut : (!outRoom s (fs.map Prod.snd) ||
          [0, 1].any (fun p => decide (15000 < windowBytes s p + onPort p) && decide (0 < onPort p))) = true := by
        rw [hroom]
        rfl
      exact hexec.trans (congrArg Host.Outcome.next ((if_neg (by simp [hsub])).trans ((if_neg (by simp [hgood])).trans (if_pos hshut))))

end Sys2Proof.Machine

/-! PROOF. Crown cores and the flash store: each row under the conditions in which it acts. -/

namespace Sys2Proof.Machine

section Crown

variable {s : State} {c n : Nat}

theorem evqRd_of_within {rd : Nat} (h : (regF s .crnEvq 0 0 0 32 + 2 ^ 32 - rd % 2 ^ 32) % 2 ^ 32 ≤ 4096) :
    evqRd s rd =
      (let old := regF s .crnEvq 0 0 32 32
       let n := (rd % 2 ^ 32 + 2 ^ 32 - old) % 2 ^ 32
       drainEvents (regPutF (if n ≤ 4096 then (rangeFrom old n).foldl handleEvent s else s) .crnEvq 0 0 32 32 rd)
         s.crown.evWait.length) :=
  if_neg (Nat.not_lt.mpr h)

theorem evqRd_of_beyond {rd : Nat} (h : 4096 < (regF s .crnEvq 0 0 0 32 + 2 ^ 32 - rd % 2 ^ 32) % 2 ^ 32) : evqRd s rd = s :=
  if_pos h

theorem kick_of_free (hc : c < 16) (hfree : crownHeld s c = false) :
    kick s c = { s with crown := { s.crown with kick := finsert s.crown.kick c s.idleClock } } :=
  if_neg (by simp [hc, hfree])

theorem watchdog_of_expired (hc : c < 16) (hcrown : crownRuns s = true) (hen : regF s .crnCtl 0 0 16 1 = 1)
    (hrt : isRuntime s c = true) (hfree : crownHeld s c = false)
    (hdue : fgetD 0 s.crown.kick c + msTicks (regF s .crnWd 0 0 0 16) ≤ s.idleClock) : watchdog s c n = holdCore s c n :=
  if_neg (by simp [hc, hcrown, hen, hrt, hfree, hdue])

theorem machineCheck_of_free (hc : c < 16) (hcrown : crownRuns s = true) (hfree : crownHeld s c = false) :
    machineCheck s c n = holdCore (appEnds s c) c n :=
  if_neg (by simp [hc, hcrown, hfree])

theorem coreRelease_of_due {t : Nat} (hheld : fget? s.crown.held c = some t) (hdue : t + msTicks 50 ≤ s.idleClock)
    (hrun : s.gct.stopped = false) :
    coreRelease s c =
      (let s1 := regPutF (regPutF s .crnStatus 0 0 c 1 1) .crnStatus 0 0 (16 + c) 1 0
       kick { s1 with crown := { s1.crown with held := ferase s1.crown.held c } } c) := by
  unfold coreRelease
  rw [hheld]
  exact if_neg (by simp [hdue, hrun])

end Crown

/-- Settles O28: the rows of the Crown cores under the conditions in which they act. -/
theorem crownCores : Obligations.CrownCores := by
  unfold Obligations.CrownCores
  refine ⟨fun rd s hcrown hwithin => ?_,
    fun rd s hcrown hbeyond => congrArg Host.Outcome.next ((whileCrown_runs hcrown _).trans (evqRd_of_beyond hbeyond)),
    fun c s hcrown hfree => congrArg Host.Outcome.next ((whileCrown_runs hcrown _).trans (kick_of_free c.isLt hfree)),
    fun c n s hcrown hen hrt hfree hdue => congrArg Host.Outcome.next (watchdog_of_expired c.isLt hcrown hen hrt hfree hdue),
    fun c n s hcrown hfree => congrArg Host.Outcome.next (machineCheck_of_free c.isLt hcrown hfree),
    fun c t s hheld hdue hrun => congrArg Host.Outcome.next (coreRelease_of_due hheld hdue hrun)⟩
  intro old n
  exact congrArg Host.Outcome.next ((whileCrown_runs hcrown _).trans (evqRd_of_within hwithin))

section Flash

variable {s : State}

/-- An append of a core that runs, with a length that the store takes: it enters the buffer, or it is dropped. -/
theorem captureAppend_of_core {c : Nat} {bs : Bytes} (hc : c < 16) (hfree : crownHeld s c = false) (hrun : s.gct.stopped = false)
    (hlow : 4096 ≤ bs.length) (hhigh : bs.length ≤ 1048576) :
    captureAppend s c bs =
      (let s1 := flashMod s (fun x => { x with bucket := bucketNow s, bucketAt := s.clock })
       if s.flash.worn || s.flash.degraded || decide (bucketNow s < 1250 * bs.length) ||
           decide (268435456 < s.flash.buf.foldl (fun a x => a + x.length) 0 + bs.length) then
         appendStatus (bump s1 .fshCapDrop 0 0) c true
       else
         appendStatus (drainAll (flashMod s1 (fun x => { x with bucket := bucketNow s - 1250 * bs.length, buf := x.buf ++ [bs] })))
           c false) := by
  have hheld : (fget? s.crown.held c).isSome = false := hfree
  exact if_neg (by simp [hc, hheld, hrun, hlow, hhigh])

theorem dieLoss_of_present {d : Nat} (hd : d < 16) (hpresent : bitN s.flash.lost d = false) :
    dieLoss s d =
      (let s1 := recovery (flashMod s (fun x => { x with lost := setBitN x.lost d true }))
       if s.flash.rebuild.isSome || decide (2 ≤ s.flash.rebuilt) then
         flashMod s1 (fun x => if x.degraded then x else { x with degraded := true, degradedAt := s.clock })
       else flashMod s1 (fun x => { x with rebuild := some d })) :=
  if_neg (by simp [hd, hpresent])

theorem stripeRebuildComplete_of_rebuild (hrun : s.gct.stopped = false) (hrebuild : s.flash.rebuild.isSome = true) :
    stripeRebuildComplete s = flashMod s (fun x => { x with rebuild := none, rebuilt := x.rebuilt + 1 }) :=
  if_neg (by simp [hrun, Option.isSome_iff_ne_none.mp hrebuild])

theorem flashScrub_of_pass {m : Media} {ue : List Nat} {n : Nat} {t : State} {due : Option Nat} (hrun : s.gct.stopped = false)
    (hpass : scrubPassOf s 2 15 (scrubSetting s) (fun v => msTicks (86400000 * (v / 2))) = (due, t)) :
    flashScrub s m ue n = if (match (generalizing := false) due with | some v => bitN v 0 | none => false) = true then
      flashMod (bumpBy (bumpBy (mediaCount t m) .fshReloc 0 0 n) .fshUe 0 0 ue.length)
        (fun x => { x with badSectors := ue.foldl (fun t n => finsert t n true) x.badSectors })
      else t := by
  unfold flashScrub
  rw [if_neg (by simp [hrun]), hpass]
  cases due <;> rfl

theorem wearLevelling_of_run {avg max spread : Nat} {spent : Bool} (hrun : s.gct.stopped = false) :
    wearLevelling s avg max spread spent = flashMod s (fun x => { x with
      wear := Nat.min avg 65535 + Nat.min max 65535 * 2 ^ 16 + Nat.min spread 65535 * 2 ^ 32
      worn := x.worn || decide (10000 ≤ avg), spent := x.spent || spent }) :=
  if_neg (by simp [hrun])

end Flash

/-- Settles O29: the rows of the flash store under the conditions in which they act. -/
theorem flashStore : Obligations.FlashStore := by
  unfold Obligations.FlashStore
  refine ⟨fun c bs s hcrown hfree hrun hlow hhigh => ?_, fun d s hpresent => ?_,
    fun s hrun hrebuild => congrArg Host.Outcome.next (stripeRebuildComplete_of_rebuild hrun hrebuild),
    fun m ue n s t due hrun hpass => congrArg Host.Outcome.next (flashScrub_of_pass hrun hpass),
    fun avg max spread spent s hrun => congrArg Host.Outcome.next (wearLevelling_of_run hrun)⟩
  · intro s1
    have hexec : exec (.captureAppend c bs) s = .next _ :=
      congrArg Host.Outcome.next ((whileCrown_runs hcrown _).trans (captureAppend_of_core c.isLt hfree hrun hlow hhigh))
    refine ⟨fun hworn hdegraded hbucket hbuffer => ?_, fun h => ?_⟩
    · exact hexec.trans (congrArg Host.Outcome.next (if_neg (by simp [hworn, hdegraded, hbucket, hbuffer])))
    · exact hexec.trans (congrArg Host.Outcome.next (if_pos (by simpa [or_assoc] using h)))
  · intro s1
    have hexec : exec (.dieLoss d) s = .next _ := congrArg Host.Outcome.next (dieLoss_of_present d.isLt hpresent)
    refine ⟨fun hnone hspares => ?_, fun h => ?_⟩
    · exact hexec.trans (congrArg Host.Outcome.next (if_neg (by simp [hnone, hspares])))
    · exact hexec.trans (congrArg Host.Outcome.next (if_pos (by simpa using h)))

end Sys2Proof.Machine

/-! PROOF. Trust records, the global stop and context debug. -/

namespace Sys2Proof.Machine

section TrustRows

variable {s : State} {row : RegRow}

/-- The row of a trust register's bit is the write of the register that sets it. -/
theorem rowWrite_trust {r : Reg} {v : Nat} {t : State} (h : TakesWrite s row r v) (happly : applyWrite s row r v = t) : rowWrite s r v = t :=
  (rowWrite_takes h).trans happly

theorem auditSummary_of_due (h : s.trust.sumsAt + 1250000000 ≤ s.clock) :
    auditSummary s = addSummaries (trustMod s (fun t => { t with sumsAt := s.clock })) s.trust.sums.length :=
  if_neg (Nat.not_lt.mpr h)

theorem auditSummary_of_early (h : s.clock < s.trust.sumsAt + 1250000000) : auditSummary s = s :=
  if_pos h

end TrustRows

/-- Settles O30: each row of a trust register is REG_WRITE of that register, and the audit log's two rows are their definitions. -/
theorem trustRecords : Obligations.TrustRecords := by
  unfold Obligations.TrustRecords
  exact ⟨⟨fun s row h => congrArg Host.Outcome.next (rowWrite_trust h rfl),
      fun j s row h => congrArg Host.Outcome.next (rowWrite_trust h rfl),
      fun j on s row h => congrArg Host.Outcome.next (rowWrite_trust h rfl),
      fun s row h => congrArg Host.Outcome.next (rowWrite_trust h rfl),
      fun s row h => congrArg Host.Outcome.next (rowWrite_trust h rfl)⟩,
    fun s => rfl,
    fun s => ⟨fun h => congrArg Host.Outcome.next (auditSummary_of_due h), fun h => congrArg Host.Outcome.next (auditSummary_of_early h)⟩⟩

section RecordsLeaveTheDevice

/-- `t` has the device state, the memory and the flow engine of `s`. -/
def SameDevice (s t : State) : Prop := t.gct.dev = s.gct.dev ∧ t.gct.prior = s.gct.prior ∧ t.mem = s.mem ∧ t.flow = s.flow

theorem SameDevice.refl (s : State) : SameDevice s s := ⟨rfl, rfl, rfl, rfl⟩

theorem SameDevice.trans {s t u : State} (h : SameDevice s t) (h' : SameDevice t u) : SameDevice s u := by
  obtain ⟨hdev, hprior, hmem, hflow⟩ := h
  obtain ⟨hdev', hprior', hmem', hflow'⟩ := h'
  exact ⟨hdev'.trans hdev, hprior'.trans hprior, hmem'.trans hmem, hflow'.trans hflow⟩

theorem queueFit_sameDevice (s : State) (q : Nat) (v : SQueue) (d : Nat) : SameDevice s (queueFit s q v d) := by
  unfold queueFit
  dsimp only
  split
  · exact .refl _
  · split <;> exact .refl _

theorem queueRewindPacket_sameDevice (s : State) (q : Nat) (learn counted : Bool) :
    SameDevice s (queueRewindPacket s q learn counted) := by
  unfold queueRewindPacket
  dsimp only
  split
  · split
    · exact (queueFit_sameDevice _ _ _ _).trans (.refl _)
    · exact queueFit_sameDevice _ _ _ _
  · exact .refl _

theorem queueOpen_sameDevice (s : State) (q n : Nat) (discard : Bool) : SameDevice s (queueOpen s q n discard).2 := by
  unfold queueOpen
  repeat' split
  all_goals exact .refl _

theorem pushedGranule_sameDevice (s : State) (q : Nat) : SameDevice s (pushedGranule s q) := by
  unfold pushedGranule
  dsimp only
  repeat' split
  all_goals exact ⟨rfl, rfl, rfl, rfl⟩

theorem queuePush_sameDevice (s : State) (q : Nat) (w : QWord) : SameDevice s (queuePush s q w).2 := by
  unfold queuePush
  dsimp only
  split
  · exact .refl _
  split
  · exact .refl _
  split
  · exact .refl _
  split
  · exact queueRewindPacket_sameDevice _ _ _ _
  split
  · exact queueRewindPacket_sameDevice _ _ _ _
  · exact (queueFit_sameDevice _ _ _ _).trans (pushedGranule_sameDevice _ _)

theorem foldl_sameDevice {α : Type} {f : State → α → State} (hf : ∀ t a, SameDevice t (f t a)) (l : List α) (s : State) :
    SameDevice s (l.foldl f s) := by
  induction l generalizing s with
  | nil => exact .refl _
  | cons a l ih => exact (hf s a).trans (ih _)

theorem queueCommit_sameDevice (s : State) (q : Nat) : SameDevice s (queueCommit s q).2 := by
  rcases queueCommit_cases s q with ⟨h, -⟩ | h | ⟨h, -⟩ <;> rw [h] <;> exact .refl _

theorem queueSend_sameDevice (s : State) (q : Nat) (ws : List QWord) (discard : Bool) :
    SameDevice s (queueSend s q ws discard).2 := by
  have hopen := queueOpen_sameDevice s q ws.length discard
  unfold queueSend
  split
  next s1 heq =>
    rw [heq] at hopen
    exact (hopen.trans (foldl_sameDevice (fun t w => queuePush_sameDevice t q w) ws s1)).trans (queueCommit_sameDevice _ q)
  · exact hopen

theorem enqueueRecord_sameDevice {s t : State} {r : PushRecord} (h : enqueueRecord s r = some t) : SameDevice s t := by
  have hsend := queueSend_sameDevice s (recordQueue s r.cls) (bytesToWords r.body) false
  unfold enqueueRecord at h
  dsimp only at h
  split at h
  next s1 heq =>
    rw [heq] at hsend
    cases h
    exact hsend
  · cases h

theorem numberRecord_sameDevice (s : State) (cls : Nat) : SameDevice s (numberRecord s cls).2 := ⟨rfl, rfl, rfl, rfl⟩

theorem discardRecord_sameDevice (s : State) (cls : Nat) : SameDevice s (discardRecord s cls) := ⟨rfl, rfl, rfl, rfl⟩

theorem auditEvent_sameDevice (s : State) (event session : Nat) (data : Bytes) : SameDevice s (auditEvent s event session data) :=
  ⟨rfl, rfl, rfl, rfl⟩

theorem stateWait_sameDevice (s : State) (l : List PushRecord) :
    SameDevice s { s with gct := { s.gct with stateWait := l } } := ⟨rfl, rfl, rfl, rfl⟩

theorem pushRecord_sameDevice (s : State) (cls : Nat) (body : Bytes) : SameDevice s (pushRecord s cls body) := by
  have hnumber := numberRecord_sameDevice s cls
  unfold pushRecord
  split
  · dsimp only
    split
    · exact hnumber.trans (discardRecord_sameDevice _ _)
    split
    · exact hnumber.trans (stateWait_sameDevice _ _)
    split
    next heq => exact hnumber.trans (enqueueRecord_sameDevice heq)
    · split
      · exact hnumber.trans (discardRecord_sameDevice _ _)
      · exact hnumber.trans (stateWait_sameDevice _ _)
  · exact .refl _

theorem regPutF_sameDevice (s : State) (n : RegName) (i k lo w v : Nat) : SameDevice s (regPutF s n i k lo w v) := ⟨rfl, rfl, rfl, rfl⟩

theorem appsFollow_halted_sameDevice (s : State) : SameDevice s (appsFollow s .halted) := by
  unfold appsFollow
  refine foldl_sameDevice (fun t a => ?_) _ _
  beta_reduce
  split
  · exact regPutF_sameDevice t .crnApp a 0 17 1 0
  · exact .refl _

theorem stateRecords_sameDevice (s : State) (event session : Nat) (data : Bytes) :
    SameDevice s (auditEvent (stateEvent s) event session data) := by
  unfold stateEvent
  exact (pushRecord_sameDevice s _ _).trans (auditEvent_sameDevice _ _ _ _)

theorem enterHalted_device (s : State) :
    SameDevice { s with gct := { s.gct with dev := .halted, prior := some s.gct.dev } } (enterHalted s) := by
  have hfollow := appsFollow_halted_sameDevice { s with gct := { s.gct with dev := .halted, prior := some s.gct.dev } }
  exact hfollow.trans (stateRecords_sameDevice _ _ _ _)

end RecordsLeaveTheDevice

section Stop

variable {s : State}

theorem globalStop_of_cut (h : s.obs.cut.isSome = true) : globalStop s = { s with gct := { s.gct with stopped := true } } :=
  if_pos h

theorem cutComplete_of_stopped {c : Cut} (hcut : s.obs.cut = some c) (hstopped : s.gct.stopped = true) (hlegal : haltLegal s = true) :
    cutComplete s =
      (let s1 := enterHalted (regPut { s with obs := { s.obs with cut := none } } .obsCut 0 0 (c.stamp % 2 ^ 56 + c.cause % 16 * 2 ^ 56))
       answerWait (if s.span.member then broadcast s1 (controlData 2 0 (epochNow s1) []) else s1) (fun w => w == .cut) 0 []) := by
  unfold cutComplete
  rw [hcut]
  exact if_neg (by simp [hstopped, hlegal])

end Stop

section Debug

variable {s : State} {k h : Nat}

theorem debugRow_of_context (hk : k < 1280) (hh : h < 8) (op : Nat) (hrun : s.gct.stopped = false) :
    debugRow s k h op = obsDbgWrite s (k + h * 2 ^ 11 + op * 2 ^ 14) := by
  unfold debugRow
  rw [whileRunning_running hrun, Nat.mod_eq_of_lt (by omega), Nat.mod_eq_of_lt (by omega)]

theorem dumpRow_of_context (hk : k < 1280) (hh : h < 8) (va : Nat) (hrun : s.gct.stopped = false) :
    dumpRow s k h va = obsDbgWrite (regPutF s .obsDbgAddr 0 0 12 36 (va / 4096)) (k + h * 2 ^ 11 + 3 * 2 ^ 14) := by
  have hrun' : (regPutF s .obsDbgAddr 0 0 12 36 (va / 4096)).gct.stopped = false := by
    rw [regPutF_gct]
    exact hrun
  unfold dumpRow
  rw [whileRunning_running hrun, debugRow_of_context hk hh 3 hrun']

theorem debugOp_of_none (op : Nat) (hnone : hcGet s k h = none) : debugOp s k h op = dbgStatus s 0x0C := by
  unfold debugOp
  rw [hnone]

theorem debugOp_of_debug {x : Hc} (op : Nat) (hget : hcGet s k h = some x) (hst : x.st = .debug) (hstop : x.stop = false) :
    debugOp s k h op = match op with
      | 1 => dbgStatus (hcSet s k h (some { x with st := .issuing, skipBrk := true })) 0
      | 2 => regPutF (hcSet s k h (some { x with st := .issuing, skipBrk := true, stepOne := true })) .obsDbg 0 0 16 1 1
      | _ => dumpContext s k h (regF s .obsDbgAddr 0 0 12 36 * 4096) x := by
  unfold debugOp
  rw [hget]
  exact if_neg (by simp [hst, hstop])

end Debug

/-- Settles O32: the stop's rows under their conditions; what HALTED leaves of the device state is `enterHalted_device`. -/
theorem stopAndDebug : Obligations.StopAndDebug := by
  unfold Obligations.StopAndDebug
  refine ⟨⟨fun s hcut => congrArg Host.Outcome.next (globalStop_of_cut hcut), fun s c hcut hstopped hlegal => ?_, fun s => ?_⟩,
    fun k h va s hrun => ⟨congrArg Host.Outcome.next ?_, congrArg Host.Outcome.next (debugRow_of_context k.isLt h.isLt 2 hrun),
      congrArg Host.Outcome.next (dumpRow_of_context k.isLt h.isLt va hrun)⟩,
    fun s k h x hget hst hstop => ⟨debugOp_of_debug 1 hget hst hstop, debugOp_of_debug 2 hget hst hstop, debugOp_of_debug 3 hget hst hstop⟩,
    fun s k h op hnone => debugOp_of_none op hnone⟩
  · intro s1
    exact congrArg Host.Outcome.next (cutComplete_of_stopped hcut hstopped hlegal)
  · obtain ⟨hdev, hprior, hmem, -⟩ := enterHalted_device s
    exact ⟨hdev, hprior, hmem⟩
  · simpa using debugRow_of_context k.isLt h.isLt 1 hrun

end Sys2Proof.Machine

/-! PROOF. The queue port of a Crown core, and the rows of queues that no port makes. -/

namespace Sys2Proof.Machine

section Port

variable {s : State} {c q : Nat}

theorem portProduce_of_bound (f : State → State) (hlive : portLives s c q = true) (hbound : crownBound (queueProducer s q) c = true) :
    portProduce s c q f = f s :=
  (if_neg (by simp [hlive])).trans (if_pos hbound)

theorem portProduce_of_unbound (f : State → State) (hlive : portLives s c q = true) (hbound : crownBound (queueProducer s q) c = false) :
    portProduce s c q f = portRefuse s c q :=
  (if_neg (by simp [hlive])).trans (if_neg (by simp [hbound]))

theorem portConsume_of_bound (f : State → State) (hlive : portLives s c q = true) (hbound : crownBound (queueConsumer s q) c = true) :
    portConsume s c q f = f s :=
  (if_neg (by simp [hlive])).trans (if_pos hbound)

theorem portConsume_of_unbound (f : State → State) (hlive : portLives s c q = true) (hbound : crownBound (queueConsumer s q) c = false) :
    portConsume s c q f = portRefuse s c q :=
  (if_neg (by simp [hlive])).trans (if_neg (by simp [hbound]))

theorem portOpen_of_length {v : Nat} (hlive : portLives s c q = true) (hbound : crownBound (queueProducer s q) c = true)
    (hlow : 1 ≤ v % 512) (hhigh : v % 512 ≤ 256) :
    portOpen s c q v =
      (let d := (qOpen s q (v % 512) (bitN v 9)).1
       if d.wait then
         let t := queueRewindPacket s q false true
         { t with heart := { t.heart with waiting := t.heart.waiting ++ [(q, v % 512, c)] } }
       else openDone d c q) :=
  (portProduce_of_bound _ hlive hbound).trans (if_neg (by omega))

theorem portOpen_of_badLength {v : Nat} (hlive : portLives s c q = true) (hbound : crownBound (queueProducer s q) c = true)
    (hlen : v % 512 = 0 ∨ 256 < v % 512) : portOpen s c q v = portRefuse s c q :=
  (portProduce_of_bound _ hlive hbound).trans (if_pos hlen)

theorem portPush_of_staged (v : Word) (flip : Bool) (hlive : portLives s c q = true)
    (hbound : crownBound (queueProducer s q) c = true) :
    portPush s c q true v flip = portStatus { s with
      crown := { s.crown with staged := fsetD 0 s.crown.staged (portKey c q) v.toNat } } c q (queueStatusWord 0 false false false 0) :=
  (portProduce_of_bound _ hlive hbound).trans (if_pos rfl)

theorem portPush_of_word (v : Word) (flip : Bool) (hlive : portLives s c q = true)
    (hbound : crownBound (queueProducer s q) c = true) :
    portPush s c q false v flip =
      (let w := mkWord (BitVec.ofNat 128 (v.toNat * 2 ^ 64 + fgetD 0 s.crown.staged (portKey c q))) false
       portDone (qPush s q [{ w with par := w.par != flip }] 0) c q) :=
  (portProduce_of_bound _ hlive hbound).trans (if_neg (by simp))

end Port

section PortRead

variable {s t : State} {c q : Nat} {flag : Option Bool} {flip : Bool}

variable (ht : t = match flag with | some b => portFlag s c q b | none => s)

include ht

theorem queueEnabled_flagged : queueEnabled t q = queueEnabled s q := by
  cases flag <;> subst ht <;> rfl

theorem queueGet_flagged : queueGet t q = queueGet s q := by
  cases flag <;> subst ht <;> rfl

variable (hlive : portLives s c q = true) (hbound : crownBound (queueConsumer s q) c = true)

include hlive hbound

theorem portRead_of_bound :
    portRead s c q flag flip =
      if !queueEnabled s q then portRefuse t c q
      else if fgetD false t.crown.waits (portKey c q) && (queueNext (queueGet s q)).isNone then t
      else match queueRead (if flip then spoilHead t q else t) q with
        | (none, s1) => portStatus s1 c q (queueStatusWord 1 false false false 0)
        | (some w, s1) =>
          portStatus { s1 with crown := { s1.crown with word := fsetD 0 s1.crown.word (portKey c q) w.data } } c q
            (queueStatusWord 0 w.sop w.eop w.poison 1) := by
  have hread : portRead s c q flag flip =
      if !queueEnabled t q then portRefuse t c q
      else if fgetD false t.crown.waits (portKey c q) && (queueNext (queueGet t q)).isNone then t
      else match queueRead (if flip then spoilHead t q else t) q with
        | (none, s1) => portStatus s1 c q (queueStatusWord 1 false false false 0)
        | (some w, s1) =>
          portStatus { s1 with crown := { s1.crown with word := fsetD 0 s1.crown.word (portKey c q) w.data } } c q
            (queueStatusWord 0 w.sop w.eop w.poison 1) := by
    subst ht
    exact portConsume_of_bound _ hlive hbound
  rw [hread, queueEnabled_flagged ht, queueGet_flagged ht]

theorem portRead_of_disabled (hen : queueEnabled s q = false) : portRead s c q flag flip = portRefuse t c q :=
  (portRead_of_bound ht hlive hbound).trans (if_pos (by simp [hen]))

theorem portRead_of_waiting (hen : queueEnabled s q = true) (hwaits : fgetD false t.crown.waits (portKey c q) = true)
    (hempty : (queueNext (queueGet s q)).isNone = true) : portRead s c q flag flip = t :=
  (portRead_of_bound ht hlive hbound).trans ((if_neg (by simp [hen])).trans (if_pos (by simp [hwaits, Option.isNone_iff_eq_none.mp hempty])))

theorem portRead_of_answer (hen : queueEnabled s q = true)
    (hgo : fgetD false t.crown.waits (portKey c q) = false ∨ (queueNext (queueGet s q)).isSome = true) :
    portRead s c q flag flip = match queueRead (if flip then spoilHead t q else t) q with
        | (none, s1) => portStatus s1 c q (queueStatusWord 1 false false false 0)
        | (some w, s1) =>
          portStatus { s1 with crown := { s1.crown with word := fsetD 0 s1.crown.word (portKey c q) w.data } } c q
            (queueStatusWord 0 w.sop w.eop w.poison 1) := by
  have hgo' : (fgetD false t.crown.waits (portKey c q) && (queueNext (queueGet s q)).isNone) = false := by
    rcases hgo with hgo | hgo
    · simp [hgo]
    · simp [Option.isNone_eq_false_iff.mpr hgo]
  exact (portRead_of_bound ht hlive hbound).trans ((if_neg (by simp [hen])).trans (if_neg (by simp [hgo'])))

end PortRead

section QueueRows

variable {s : State}

theorem openRetry_of_room {q n c : Nat} (hrun : s.gct.stopped = false)
    (hfind : s.heart.waiting.find? (fun w => w.1 == q) = some (q, n, c)) (hnone : (queueGet s q).openN = none)
    (hroom : (qOpen s q n false).1.wait = false) :
    openRetry s q =
      (let t := openDone (qOpen s q n false).1 c q
       { t with heart := { t.heart with waiting := t.heart.waiting.erase (q, n, c) } }) := by
  unfold openRetry
  rw [if_neg (by simp [hrun]), hfind]
  exact (if_neg (by simp [hnone])).trans (if_neg (by simp [hroom]))

theorem heartwoodScrub_of_pass {ce ue : List Nat} {t : State} {due : Option Nat} (hrun : s.gct.stopped = false)
    (hpass : scrubPass ((heartGranules ue).foldl spoilTrace (upsetGranules s (heartGranules ce) (heartGranules ue))) 0
      (mkReg .hwdScrub 0 0) (fun v => msTicks (bitsN v 0 16)) = (due, t)) :
    heartwoodScrub s ce ue = if (match (generalizing := false) due with | some v => bitN v 16 | none => false) = true
      then (faultyGranules t (fun g => inHeart (32 * g))).foldl scrubHeart t else t := by
  unfold heartwoodScrub
  rw [if_neg (by simp [hrun])]
  dsimp only
  rw [hpass]
  cases due <;> rfl

end QueueRows

/-- Settles O37: each operation of the port by its binding and its operand, and the other rows of queues by their conditions. -/
theorem queuePortAndEvents : Obligations.QueuePortAndEvents := by
  unfold Obligations.QueuePortAndEvents
  refine ⟨fun c q s hlive => ⟨fun hbound => ?_, fun hbound => ?_, fun hbound v w b flip => ?_, fun hbound flag flip => ?_⟩,
    fun q s n c hrun hfind hnone hroom => ?_, fun q s row h => congrArg Host.Outcome.next (rowWrite_takes h),
    fun ce ue s t due hrun hpass => congrArg Host.Outcome.next (heartwoodScrub_of_pass hrun hpass)⟩
  · refine ⟨fun v hlow hhigh => ?_, fun v hlen => congrArg Host.Outcome.next (portOpen_of_badLength hlive hbound hlen),
      fun v flip => congrArg Host.Outcome.next (portPush_of_staged v flip hlive hbound), fun v flip => ?_,
      congrArg Host.Outcome.next (portProduce_of_bound _ hlive hbound), congrArg Host.Outcome.next (portProduce_of_bound _ hlive hbound)⟩
    · intro d
      have hexec : exec (.portOpen c q v) s = .next _ := congrArg Host.Outcome.next (portOpen_of_length hlive hbound hlow hhigh)
      exact ⟨fun hroom => hexec.trans (congrArg Host.Outcome.next (if_neg (by simp [show (qOpen s q.val (v % 512) (bitN v 9)).1.wait = false from hroom]))),
        fun hwait => hexec.trans (congrArg Host.Outcome.next (if_pos hwait))⟩
    · intro w
      exact congrArg Host.Outcome.next (portPush_of_word v flip hlive hbound)
  · refine ⟨fun flag flip => ?_, congrArg Host.Outcome.next (portConsume_of_bound _ hlive hbound),
      congrArg Host.Outcome.next (portConsume_of_bound _ hlive hbound), congrArg Host.Outcome.next (portConsume_of_bound _ hlive hbound)⟩
    intro t
    have ht : t = match flag with | some b => portFlag s c.val q.val b | none => s := rfl
    refine ⟨fun hen => congrArg Host.Outcome.next (portRead_of_disabled ht hlive hbound hen),
      fun hen hwaits hempty => congrArg Host.Outcome.next (portRead_of_waiting ht hlive hbound hen hwaits hempty), fun hen hgo => ?_⟩
    intro r
    have hexec : exec (.portRead c q flag flip) s = .next _ :=
      congrArg Host.Outcome.next (portRead_of_answer (flip := flip) ht hlive hbound hen hgo)
    refine ⟨fun hnone => ?_, fun x hsome => ?_⟩
    · rw [hexec, show queueRead (if flip then spoilHead t q.val else t) q.val = (none, r.2) from Prod.ext hnone rfl]
    · rw [hexec, show queueRead (if flip then spoilHead t q.val else t) q.val = (some x, r.2) from Prod.ext hsome rfl]
  · exact ⟨congrArg Host.Outcome.next (portProduce_of_unbound _ hlive hbound), congrArg Host.Outcome.next (portProduce_of_unbound _ hlive hbound),
      congrArg Host.Outcome.next (portProduce_of_unbound _ hlive hbound), congrArg Host.Outcome.next (portProduce_of_unbound _ hlive hbound)⟩
  · exact ⟨congrArg Host.Outcome.next (portConsume_of_unbound _ hlive hbound), congrArg Host.Outcome.next (portConsume_of_unbound _ hlive hbound),
      congrArg Host.Outcome.next (portConsume_of_unbound _ hlive hbound), congrArg Host.Outcome.next (portConsume_of_unbound _ hlive hbound)⟩
  · intro t
    exact congrArg Host.Outcome.next (openRetry_of_room hrun hfind hnone hroom)

end Sys2Proof.Machine

/-! PROOF. The flow DMA port and the scans of the flow table. A DMA operation reaches its buckets first; what that leaves as it was
(the locks, and with them the tokens) is proved before the operations. -/

namespace Sys2Proof.Machine

/-! ### Accesses to memory leave the flow engine's own state -/

section MemoryLeavesFlow

variable {s : State}

theorem foldl_flow {α : Type} {f : State → α → State} (hf : ∀ t a, (f t a).flow = t.flow) (l : List α) (s : State) :
    (l.foldl f s).flow = s.flow := by
  induction l generalizing s with
  | nil => rfl
  | cons a l ih => exact (ih _).trans (hf s a)

theorem countHbm_flow (a n : Nat) : (countHbm s a n).flow = s.flow := by
  unfold countHbm
  split <;> rfl

theorem countCe_flow (g : Nat) : (countCe s g).flow = s.flow := by
  unfold countCe
  dsimp only
  repeat' split
  all_goals rfl

theorem countRingUe_flow (g : Nat) : (countRingUe s g).flow = s.flow := by
  unfold countRingUe
  rw [regPut_flow]
  rfl

theorem countUe_flow (g : Nat) : (countUe s g).flow = s.flow := by
  unfold countUe
  split
  · exact countRingUe_flow g
  · split <;> rfl

theorem meetUpset_flow (g : Nat) : (meetUpset s g).flow = s.flow := by
  unfold meetUpset
  split
  · rfl
  · exact countCe_flow g
  · rfl

theorem storeAt_flow (a : Nat) (bs : Bytes) : (storeAt s a bs).flow = s.flow :=
  foldl_flow (fun _ g => meetUpset_flow g) _ s

theorem touchGranule_flow (g : Nat) : (touchGranule s g).flow = s.flow := by
  have hmirror : (if mirrorOf (meetUpset s g) (32 * g) == some true then meetUpset (meetUpset s g) (g + 2 ^ 31)
      else meetUpset s g).flow = s.flow := by
    split
    · exact (meetUpset_flow _).trans (meetUpset_flow g)
    · exact meetUpset_flow g
  unfold touchGranule
  dsimp only
  split
  · exact meetUpset_flow g
  · generalize (if mirrorOf (meetUpset s g) (32 * g) == some true then meetUpset (meetUpset s g) (g + 2 ^ 31)
      else meetUpset s g) = u at hmirror ⊢
    refine Eq.trans ?_ hmirror
    split
    · split
      · rfl
      · exact countUe_flow g
    · split
      · rfl
      · exact storeAt_flow _ _

theorem rebuildLine_flow (a : Nat) : (rebuildLine s a).flow = s.flow := by
  unfold rebuildLine
  dsimp only
  split <;> rfl

theorem memTouch_flow (a n : Nat) : (memTouch s a n).flow = s.flow :=
  (foldl_flow (fun _ _ => rebuildLine_flow _) _ _).trans
    ((foldl_flow (fun _ g => touchGranule_flow g) _ _).trans (countHbm_flow a n))

theorem lineWr_flow (a : Nat) (bs : Bytes) : (lineWr s a bs).flow = s.flow := by
  have hcopy (c : Prop) [Decidable c] (t : State) (b : Nat) :
      (if c then t else rebuildLine (storeAt t b bs) b).flow = t.flow := by
    split
    · rfl
    · exact (rebuildLine_flow _).trans (storeAt_flow _ _)
  unfold lineWr
  split
  · exact storeAt_flow _ _
  · dsimp only
    split
    · exact ((rebuildLine_flow _).trans (storeAt_flow _ _)).trans (hcopy _ _ _)
    · exact hcopy _ _ _

theorem memWrLines_flow (fuel : Nat) (s : State) (a : Nat) (bs : Bytes) : (memWrLines s a bs fuel).flow = s.flow := by
  induction fuel generalizing s a bs with
  | zero => rfl
  | succ n ih =>
    unfold memWrLines
    split
    · rfl
    · exact (ih _ _ _).trans (lineWr_flow _ _)

theorem memWr_flow (a : Nat) (bs : Bytes) : (memWr s a bs).flow = s.flow :=
  (memWrLines_flow _ _ _ _).trans (countHbm_flow a _)

end MemoryLeavesFlow

/-! ### Reaching a bucket leaves the locks -/

section ReachLeavesLocks

variable {s : State} {i : Nat}

theorem raiseNote_locks (body : Bytes) : (raiseNote s i body).flow.locks = s.flow.locks := by
  have hsend : (sendNote s i body false).2.flow = s.flow := by
    unfold sendNote
    split
    · obtain ⟨-, -, -, hflow⟩ := queueSend_sameDevice s (regF s .flwNotify 0 0 0 12 + i) (bytesToWords body) false
      exact hflow
    · rfl
  unfold raiseNote
  split
  next s1 heq =>
    rw [heq] at hsend
    exact congrArg Flow.locks hsend
  · rfl

theorem evictLine_locks (key : Nat) : (evictLine s i key).flow.locks = s.flow.locks := by
  unfold evictLine
  split
  · rfl
  · dsimp only
    split
    · rw [memWr_flow]
    · rfl

theorem fetchLine_locks (b : Nat) : (fetchLine s i b).flow.locks = s.flow.locks := by
  unfold fetchLine
  dsimp only
  rw [memTouch_flow]
  split
  · rfl
  · exact evictLine_locks _

theorem reachBucket_locks (b : Nat) : (reachBucket s i b).flow.locks = s.flow.locks := by
  unfold reachBucket
  split
  · rfl
  split
  · exact fetchLine_locks b
  split
  · rfl
  · have htouch := congrArg Flow.locks (memTouch_flow (s := s) (bucketAddr s i b) 256)
    exact (raiseNote_locks _).trans htouch

theorem bucketLocked_reachBucket (b c : Nat) : bucketLocked (reachBucket s i b) i c = bucketLocked s i c := by
  unfold bucketLocked
  rw [reachBucket_locks]

theorem lockedCount_reachBucket (b : Nat) : lockedCount (reachBucket s i b) i = lockedCount s i := by
  unfold lockedCount
  rw [reachBucket_locks]

theorem lockedUnder_reachBucket (b c tok : Nat) : lockedUnder (reachBucket s i b) i c tok = lockedUnder s i c tok := by
  unfold lockedUnder
  rw [reachBucket_locks]

end ReachLeavesLocks

/-! ### The operations of the port -/

section DmaRows

variable {s u : State} {c i b b2 k tok : Nat} {lo hi : Bytes}

theorem lockRead_of_busy (h : bucketLocked s i b = true ∨ bucketLocked s i b2 = true ∨
      64 < lockedCount s i + (if b = b2 then 1 else 2)) :
    lockRead s c i b b2 = dmaAnswer (reachBucket (reachBucket s i b) i b2) c 1 0 [] := by
  unfold lockRead
  dsimp only
  simp only [bucketLocked_reachBucket, lockedCount_reachBucket]
  exact if_pos (by simpa [or_assoc] using h)

theorem lockRead_of_free (h : ¬ (bucketLocked s i b = true ∨ bucketLocked s i b2 = true ∨
      64 < lockedCount s i + (if b = b2 then 1 else 2))) :
    lockRead s c i b b2 =
      (let u2 := reachBucket (reachBucket s i b) i b2
       let t := (fgetD 0 u2.flow.tokens i + 1) % 4096
       let l : BucketLock := { token := t, taken := u2.idleClock, lease := regF u2 .flwLock 0 0 0 10 }
       let s1 := setLock (setLock u2 i b (some l)) i b2 (some l)
       let s2 := { s1 with flow := { s1.flow with tokens := fsetD 0 s1.flow.tokens i t } }
       dmaAnswer s2 c 0 t (bucketBytes s2 i b ++ bucketBytes s2 i b2)) := by
  unfold lockRead
  dsimp only
  simp only [bucketLocked_reachBucket, lockedCount_reachBucket]
  exact if_neg (by simpa [or_assoc] using h)

variable (hu : u = reachBucket s i b)

include hu

theorem writeSlot_of_refused (h : lockedUnder s i b tok = false ∨
      (entryValid (slotBytes u i b k) = true ∧ (slotBytes u i b k).take 44 ≠ (padTo lo 48).take 44)) :
    writeSlot s c i b k tok lo hi = dmaAnswer u c 2 0 [] := by
  subst hu
  unfold writeSlot
  dsimp only
  rw [lockedUnder_reachBucket]
  exact if_pos (by simpa using h)

theorem writeSlot_of_taken (hlock : lockedUnder s i b tok = true)
    (h : entryValid (slotBytes u i b k) = true → (slotBytes u i b k).take 44 = (padTo lo 48).take 44) :
    writeSlot s c i b k tok lo hi = dmaAnswer (writeBucket (if entryValid (slotBytes u i b k) then
      writeBucket u i b (64 * k + 44) ((padTo lo 48).drop 44) else writeBucket u i b (64 * k) (padTo lo 48)) i b (64 * k + 56)
        (padTo hi 8)) c 0 0 [] := by
  subst hu
  unfold writeSlot
  dsimp only
  rw [lockedUnder_reachBucket]
  exact if_neg (by simpa [hlock] using h)

theorem publish_of_refused (h : lockedUnder s i b tok = false ∨ entryValid (slotBytes u i b k) = true) :
    publish s c i b k tok = dmaAnswer u c 2 0 [] := by
  subst hu
  unfold publish
  dsimp only
  rw [lockedUnder_reachBucket]
  exact if_pos (by simpa using h)

theorem publish_of_invalid (hlock : lockedUnder s i b tok = true) (hinvalid : entryValid (slotBytes u i b k) = false) :
    publish s c i b k tok = dmaAnswer (bumpEntries (putCtl u i b k (setBitsN (setBitsN (setBitN (ctlOf (slotBytes u i b k)) 0 true) 16 16
      (entryGen (slotBytes u i b k) + 1)) 32 32 (msNow u))) i true) c 0 0 [] := by
  subst hu
  unfold publish
  dsimp only
  rw [lockedUnder_reachBucket]
  exact if_neg (by simp [hlock, hinvalid])

theorem invalidate_of_refused (h : lockedUnder s i b tok = false ∨ entryValid (slotBytes u i b k) = false) :
    invalidate s c i b k tok = dmaAnswer u c 2 0 [] := by
  subst hu
  unfold invalidate
  dsimp only
  rw [lockedUnder_reachBucket]
  exact if_pos (by simpa using h)

theorem invalidate_of_valid (hlock : lockedUnder s i b tok = true) (hvalid : entryValid (slotBytes u i b k) = true) :
    invalidate s c i b k tok = dmaAnswer (bumpEntries (putCtl u i b k (setBitsN (setBitN (ctlOf (slotBytes u i b k)) 0 false) 16 16
      (entryGen (slotBytes u i b k) + 1))) i false) c 0 0 [] := by
  subst hu
  unfold invalidate
  dsimp only
  rw [lockedUnder_reachBucket]
  exact if_neg (by simp [hlock, hvalid])

omit hu

theorem unlock_of_refused (d1 d2 : Nat) (h : lockedUnder s i b tok = false ∨ lockedUnder s i b2 tok = false) :
    unlock s c i b b2 tok d1 d2 = dmaAnswer s c 2 0 [] :=
  if_pos (by simpa using h)

theorem unlock_of_locked (d1 d2 : Nat) (h : lockedUnder s i b tok = true) (h2 : lockedUnder s i b2 tok = true) :
    unlock s c i b b2 tok d1 d2 =
      (let s1 := putDigest (putDigest s i b d1) i b2 d2
       let s2 := setLock (setLock s1 i b none) i b2 none
       dmaAnswer (mendBucket (mendBucket s2 i b) i b2) c 0 0 []) :=
  if_neg (by simp [h, h2])

end DmaRows

/-! ### The scans -/

section Scans

variable {s : State} {i b : Nat}

theorem agingVisit_of_skip (h : regF s .flwCtl 0 0 8 1 = 0 ∨ bucketLocked s i b = true) : agingVisit s i b = s :=
  if_pos (by simpa using h)

theorem agingVisit_of_open (hen : regF s .flwCtl 0 0 8 1 = 1) (hopen : bucketLocked s i b = false) :
    agingVisit s i b =
      (let u := reachBucket s i b
       if bucketBad u i b = true then u else (List.range 4).foldl (fun t k =>
         if slotAged t (slotBytes t i b k) && noteRoom t i then bump (removeEntry t i b k 0x02).1 .flwAged i 0 else t) u) :=
  if_neg (by simp [hen, hopen])

theorem shadowCompare_of_skip (h : regF s .flwCtl 0 0 10 1 = 0 ∨ bucketLocked s i b = true) : shadowCompare s i b = s :=
  if_pos (by simpa using h)

theorem shadowCompare_of_open (hen : regF s .flwCtl 0 0 10 1 = 1) (hopen : bucketLocked s i b = false) :
    shadowCompare s i b =
      (let u := memTouch (reachBucket s i b) (digestAddr s i b) 4
       if bucketBad u i b then u
       else
         let d := bucketDigest u i b
         let stored := leNat (memBytes u (digestAddr u i b) 4)
         if d = stored then u else raiseNote (bump u .flwMismatch i 0) i (bucketNote 0x05 i b d stored)) :=
  if_neg (by simp [hen, hopen])

end Scans

/-- Settles O38: each operation of the port by the lock and the slot that it finds, and the scans by their enables and the lock. -/
theorem flowDmaAndScans : Obligations.FlowDmaAndScans := by
  unfold Obligations.FlowDmaAndScans
  refine ⟨fun c i b b2 k tok s hcrown => ?_, fun i b s hrun => ⟨fun h => ?_, fun hen hopen => ?_⟩,
    fun i b s hrun => ⟨fun h => ?_, fun hen hopen => ?_⟩⟩
  · intro u u2 new busy
    have hrow {o : Instr} {t t' : State} (ho : exec o s = .next (whileCrown s (takeFault t))) (h : t = t') : exec o s = .next (takeFault t') :=
      ho.trans (congrArg Host.Outcome.next ((whileCrown_runs hcrown _).trans (congrArg takeFault h)))
    have hnew : new = if b.val = b2.val then 1 else 2 := by simp only [new, Fin.ext_iff]
    have hbusy : busy ↔ (bucketLocked s i.val b.val = true ∨ bucketLocked s i.val b2.val = true ∨
        64 < lockedCount s i.val + (if b.val = b2.val then 1 else 2)) := by rw [← hnew]
    refine ⟨fun h => hrow rfl (lockRead_of_busy (hbusy.mp h)), fun h => ?_, hrow rfl rfl, fun hno lo hi => ?_, fun hno d1 d2 => ?_,
      fun hlock => ?_, fun lo hi cls score => hrow rfl rfl, fun hlock hlock2 d1 d2 => ?_, fun hrun => ?_⟩
    · intro t l s1 s2
      exact hrow rfl (lockRead_of_free (fun hb => h (hbusy.mpr hb)))
    · exact ⟨hrow rfl (writeSlot_of_refused rfl (.inl hno)), hrow rfl (publish_of_refused rfl (.inl hno)),
        hrow rfl (invalidate_of_refused rfl (.inl hno))⟩
    · exact congrArg Host.Outcome.next ((whileCrown_runs hcrown _).trans
        (congrArg takeFault (congrArg retryDeletes (unlock_of_refused d1 d2 hno))))
    · intro e a
      refine ⟨fun hinvalid lo hi => hrow rfl ((writeSlot_of_taken (u := u) rfl hlock (fun hv => absurd (hinvalid.symm.trans hv) (by simp))).trans ?_),
        fun hvalid lo hi => ⟨fun hsame => hrow rfl ((writeSlot_of_taken (u := u) rfl hlock (fun _ => hsame)).trans ?_),
          fun hother => hrow rfl (writeSlot_of_refused rfl (.inr ⟨hvalid, hother⟩))⟩,
        fun hinvalid => ⟨hrow rfl (publish_of_invalid rfl hlock hinvalid), hrow rfl (invalidate_of_refused rfl (.inr hinvalid))⟩,
        fun hvalid => ⟨hrow rfl (invalidate_of_valid rfl hlock hvalid), hrow rfl (publish_of_refused rfl (.inr hvalid))⟩⟩
      · rw [if_neg (by simp [show entryValid (slotBytes u i.val b.val k.val) = false from hinvalid])]
      · rw [if_pos (show entryValid (slotBytes u i.val b.val k.val) = true from hvalid)]
    · intro s1 s2
      exact congrArg Host.Outcome.next ((whileCrown_runs hcrown _).trans
        (congrArg takeFault (congrArg retryDeletes (unlock_of_locked d1 d2 hlock hlock2))))
    · exact congrArg Host.Outcome.next (whileRunning_running hrun _)
  · exact congrArg Host.Outcome.next ((whileRunning_running hrun _).trans (congrArg takeFault (agingVisit_of_skip h)))
  · intro u
    exact congrArg Host.Outcome.next ((whileRunning_running hrun _).trans (congrArg takeFault (agingVisit_of_open hen hopen)))
  · exact congrArg Host.Outcome.next ((whileRunning_running hrun _).trans (congrArg takeFault (shadowCompare_of_skip h)))
  · intro u d stored
    have hexec : exec (.shadowCompare i b) s = .next (takeFault _) :=
      congrArg Host.Outcome.next ((whileRunning_running hrun _).trans (congrArg takeFault (shadowCompare_of_open hen hopen)))
    refine ⟨fun h => hexec.trans (congrArg Host.Outcome.next (congrArg takeFault ?_)),
      fun hgood hother => hexec.trans (congrArg Host.Outcome.next (congrArg takeFault ?_))⟩
    · rcases h with hbad | hsame
      · exact if_pos hbad
      · by_cases hbad : bucketBad u i.val b.val = true
        · exact if_pos hbad
        · exact (if_neg hbad).trans (if_pos hsame)
    · exact (if_neg (by rw [show bucketBad _ i.val b.val = false from hgood]; simp)).trans (if_neg hother)

end Sys2Proof.Machine

/-! PROOF. The Grove's writes and its scrub, and Tending. -/

namespace Sys2Proof.Machine

section GroveWrites

variable {s : State}

theorem groveScrub_of_pass {ce ue : List Nat} {t : State} {due : Option Nat}
    (hpass : scrubPass s 1 (mkReg .grvScrub 0 0) (fun v => msTicks (bitsN v 0 16)) = (due, t)) :
    groveScrub s ce ue =
      (let u := ue.foldl (fun x w => wordErrorArises x (w / 2 ^ 18) (w % 2 ^ 18) true)
         (ce.foldl (fun x w => wordErrorArises x (w / 2 ^ 18) (w % 2 ^ 18) false) t)
       if due.isSome = true ∧ regF s .grvCtl 0 0 0 1 = 1
         then (u.grove.bad.map Prod.fst).foldl (fun x w => nodeError x (w / 2 ^ 18) (w % 2 ^ 18)) u else t) := by
  have hbit : regF s .grvCtl 0 0 0 1 < 2 := Nat.mod_lt _ (by decide)
  unfold groveScrub
  rw [hpass]
  cases due with
  | none => exact (if_neg (by simp)).symm
  | some v =>
    by_cases hen : regF s .grvCtl 0 0 0 1 = 1
    · exact (if_neg (by simp [hen])).trans (if_pos ⟨rfl, hen⟩).symm
    · exact (if_pos (by simp only [beq_iff_eq]; omega)).trans (if_neg (fun h => hen h.2)).symm

theorem writeLeaf_of_part {sl p off v : Nat} {g : GroveSlot} {gp : GrovePart} (hslot : fget? s.grove.slots sl = some g)
    (hpart : g.parts[p]? = some gp) :
    writeLeaf s sl p off v =
      (let k := p * sliceNodes + gp.nodeAt + off
       let n := (fgetD 0 s.grove.nodes k).toNat
       if gp.nodes ≤ off || nodeType n != 3 || (f32 v).isNan ||
           !(s.tiers.tend.pending || bitN (regF s .sqTendCtl 0 0 5 16) sl) then s
       else { s with grove := { s.grove with
         nodes := fsetD 0 s.grove.nodes k (BitVec.ofNat 128 (setBitsN n (if bitN s.grove.phases sl then 32 else 64) 32 v)) } }) := by
  unfold writeLeaf
  rw [hslot]
  dsimp only
  rw [hpart]

theorem writeWord_of_node {u off v : Nat} (hoff : off < sliceNodes) :
    writeWord s u off v =
      (let k := u * sliceNodes + off
       let old := (fgetD 0 s.grove.nodes k).toNat
       let shown := match slotAt s u off with
         | some sl => if bitN s.grove.phases sl then 64 else 32
         | none => 32
       { s with grove := { s.grove with
         nodes := fsetD 0 s.grove.nodes k (BitVec.ofNat 128
           (if nodeType v = 3 ∧ nodeType old = 3 ∧ wordBad s u off = false then setBitsN v shown 32 (bitsN old shown 32) else v))
         bad := fsetD false s.grove.bad (wordKey u off) false } }) := by
  unfold writeWord
  rw [if_pos hoff]
  simp only [Bool.and_eq_true, decide_eq_true_eq, Bool.not_eq_true', and_assoc] <;> rfl

theorem writeWord_of_directory {u d v : Nat} (hd : d < 4096) :
    writeWord s u (sliceNodes + d) v = { s with grove := { s.grove with
      dirs := fsetD 0 (fsetD 0 s.grove.dirs (u * sliceDirs + 2 * d) (BitVec.ofNat 64 v)) (u * sliceDirs + 2 * d + 1)
        (BitVec.ofNat 64 (v / 2 ^ 64))
      bad := fsetD false (fsetD false s.grove.bad (wordKey u (196608 + 2 * d)) false) (wordKey u (196608 + 2 * d + 1)) false } } := by
  unfold writeWord
  rw [if_neg (by omega), if_pos (by omega), Nat.add_sub_cancel_left]

theorem writeWord_of_side {u d v : Nat} (hd : d < 1024) :
    writeWord s u (sliceNodes + 4096 + d) v = { s with grove := { s.grove with
      side := fsetD 0 (fsetD 0 s.grove.side (u * sliceSides + 2 * d) (BitVec.ofNat 64 v)) (u * sliceSides + 2 * d + 1)
        (BitVec.ofNat 64 (v / 2 ^ 64))
      bad := fsetD false (fsetD false s.grove.bad (wordKey u (204800 + 2 * d)) false) (wordKey u (204800 + 2 * d + 1)) false } } := by
  unfold writeWord
  rw [if_neg (by omega), if_neg (by omega), if_pos (by omega), show sliceNodes + 4096 + d - sliceNodes - 4096 = d by omega]

end GroveWrites

section Tending

variable {s : State}

theorem armRow_of_run {stamp flips : Nat} {t2 : Bool} (hrun : s.gct.stopped = false) :
    armRow s stamp flips t2 = tendArm (regPutF (regPutF (regPut s .sqTendAt 0 0 (stamp % 2 ^ 64)) .sqTendCtl 0 0 4 1 (b2n t2))
      .sqTendCtl 0 0 5 16 flips) :=
  if_neg (by simp [hrun])

theorem tendBoundary_of_due (hpending : s.tiers.tend.pending = true) (hready : regF s .sqTendCtl 0 0 1 1 = 1)
    (hdue : regN s .sqTendAt 0 0 ≤ stampNow s) :
    tendBoundary s =
      (let t := s.tiers.tend
       let u := modesMod (regPutF s .sqTendCtl 0 0 1 1 0) (fun m => (m.take 4).take 6)
       { u with
         grove := { u.grove with phases := u.grove.phases ^^^ regF s .sqTendCtl 0 0 5 16 }
         tiers := { u.tiers with tend := { t with
           pending := false, t2Phase := t.t2Phase != (regF s .sqTendCtl 0 0 4 1 == 1), lastAt := regN s .sqTendAt 0 0
           lastGrv := regF s .sqTendCtl 0 0 5 16, lastT2 := regF s .sqTendCtl 0 0 4 1 == 1 } } }) :=
  if_pos (by simp [hpending, hready, hdue])

variable {i : Nat}

theorem watermark_of_silent
    (h : ¬ (queueEnabled s (regF s .sqTendCtl 0 0 32 12 + i) = true ∧ queueProducer s (regF s .sqTendCtl 0 0 32 12 + i) = (2, i))) :
    watermark s i = regPut s .sqT2Wm i 0 (watermarkOf s i) :=
  if_neg (by simpa using h)

theorem watermark_of_sending
    (h : queueEnabled s (regF s .sqTendCtl 0 0 32 12 + i) = true ∧ queueProducer s (regF s .sqTendCtl 0 0 32 12 + i) = (2, i)) :
    watermark s i =
      (let t := regPut s .sqT2Wm i 0 (watermarkOf s i)
       let r := queueSend t (regF s .sqTendCtl 0 0 32 12 + i) [mkWord (BitVec.ofNat 128 (2 + watermarkOf s i * 2 ^ 64)) false] false
       if r.1 = .ok then r.2 else bump t .sqTendStall 0 0) := by
  refine (if_pos (by simpa using h)).trans ?_
  dsimp only
  split
  next heq => rw [heq, if_pos rfl]
  next hne => rw [if_neg (fun hok => hne _ (Prod.ext hok rfl))]

end Tending

/-- Settles O39: the Grove's writes by the word that they name, and Tending's rows by their conditions. -/
theorem groveAndTending : Obligations.GroveAndTending := by
  unfold Obligations.GroveAndTending
  refine ⟨⟨fun i v s row h => congrArg Host.Outcome.next (rowWrite_takes h), fun ce ue s t due hrun hpass => ?_,
      fun sl p off v s g gp hcrown hslot hpart => ?_, fun u off v s hcrown => ?_⟩,
    fun stamp flips t2 s hcrown hrun => congrArg Host.Outcome.next ((whileCrown_runs hcrown _).trans (armRow_of_run hrun)),
    fun s hcrown => congrArg Host.Outcome.next (whileCrown_runs hcrown _), fun s hrun hpending hready hdue => ?_, fun i s hrun => ?_⟩
  · intro u
    exact congrArg Host.Outcome.next ((whileRunning_running hrun _).trans (groveScrub_of_pass hpass))
  · intro k n allowed
    have hexec : exec (.writeLeaf sl p off v) s = .next _ :=
      congrArg Host.Outcome.next ((whileCrown_runs hcrown _).trans (writeLeaf_of_part hslot hpart))
    refine ⟨fun h => hexec.trans (congrArg Host.Outcome.next ?_), fun h => hexec.trans (congrArg Host.Outcome.next ?_)⟩
    · obtain ⟨hoff, htype, hnan, hphase⟩ := h
      have hshow : (s.tiers.tend.pending || bitN (regF s .sqTendCtl 0 0 5 16) sl.val) = true := by simpa using hphase
      have hopen : (decide (gp.nodes ≤ off) || nodeType n != 3 || (f32 v).isNan ||
          !(s.tiers.tend.pending || bitN (regF s .sqTendCtl 0 0 5 16) sl.val)) = false := by
        simp [htype, hoff, hnan, hshow]
      exact if_neg fun hcond => Bool.false_ne_true (hopen.symm.trans hcond)
    · refine if_pos ?_
      by_contra hcond
      rw [Bool.not_eq_true] at hcond
      simp only [Bool.or_eq_false_iff, decide_eq_false_iff_not, Nat.not_le, bne_eq_false_iff_eq, Bool.not_eq_false',
        Bool.or_eq_true] at hcond
      obtain ⟨⟨⟨hoff, htype⟩, hnan⟩, hphase⟩ := hcond
      exact h ⟨hoff, htype, hnan, hphase⟩
  · have hrow {t : State} (h : writeWord s u.val off v = t) : exec (.writeWord u off v) s = .next t :=
      congrArg Host.Outcome.next ((whileCrown_runs hcrown _).trans h)
    refine ⟨fun hoff => ?_, fun d hd hoff => ?_, fun d hd hoff => ?_⟩
    · intro k old shown
      exact hrow (writeWord_of_node hoff)
    · exact hrow (hoff ▸ writeWord_of_directory hd)
    · exact hrow (hoff ▸ writeWord_of_side hd)
  · intro t u
    exact congrArg Host.Outcome.next ((whileRunning_running hrun _).trans (tendBoundary_of_due hpending hready hdue))
  · intro q w t sends r
    have hrow {t' : State} (h : watermark s i.val = t') : exec (.watermark i) s = .next t' :=
      congrArg Host.Outcome.next ((whileRunning_running hrun _).trans h)
    exact ⟨fun h => hrow (watermark_of_silent h), fun h hok => hrow ((watermark_of_sending h).trans (if_pos hok)),
      fun h hfull => hrow ((watermark_of_sending h).trans (if_neg hfull))⟩

end Sys2Proof.Machine

/-! PROOF. The scalar instructions. A row whose bundle commits is the commit of the bundle, and the answer of its slot is that of the
instruction's form; each opcode then gives its form its value. -/

namespace Sys2Proof.Machine

section ScalarForms

variable {s : State} {k : Nat} {x : Hc} {slot : SlotId} {i : SSlot}

theorem scalarOut_of_off (hcond : x.cond i.pred i.pneg = false) : scalarOut s k x slot i = (.none_, s) :=
  if_pos (by simp [hcond])

/-- An access that its translation allows. -/
theorem access_of_ok {t : State} {va src pa : Nat} {need : Need} (h : translate s k x.ctx va need = (.ok pa, t)) :
    access s k x va need slot src = (.ok pa, t) := by
  unfold access
  rw [h]

variable (hcond : x.cond i.pred i.pneg = true)

include hcond

theorem scalarOut_of_binary (hform : i.op.form = .binary) :
    scalarOut s k x slot i = (.write [.s i.rd (scalarResult i.op (x.sreg i.ra) (x.opB i) 0 i.imm false) (x.badAB i)], s) := by
  unfold scalarOut
  rw [if_neg (by simp [hcond])]
  dsimp only
  rw [hform]

theorem scalarOut_of_unary (hform : i.op.form = .unary) :
    scalarOut s k x slot i = (.write [.s i.rd (scalarResult i.op (x.sreg i.ra) 0 0 i.imm false) (x.sBad i.ra)], s) := by
  unfold scalarOut
  rw [if_neg (by simp [hcond])]
  dsimp only
  rw [hform]

theorem scalarOut_of_select (hform : i.op.form = .select) :
    scalarOut s k x slot i = (.write [.s i.rd (scalarResult .sel (x.sreg i.ra) (x.opB i) 0 i.imm ((x.preg (i.imm % 16)).getLsbD 0))
      (x.badAB i)], s) := by
  unfold scalarOut
  rw [if_neg (by simp [hcond])]
  dsimp only
  rw [hform]

theorem scalarOut_of_limm (hform : i.op.form = .limm) :
    scalarOut s k x slot i = (.write [.s i.rd (scalarResult i.op (x.sreg i.ra) (x.opB i) (x.sreg i.rd) i.imm false)
      (i.op == .lui && x.sBad i.rd)], s) := by
  unfold scalarOut
  rw [if_neg (by simp [hcond])]
  dsimp only
  rw [hform]

theorem scalarOut_of_compare (hform : i.op.form = .compare) (hgood : x.badAB i = false) :
    scalarOut s k x slot i = (.write [.p (i.rd % 16) (predAll (scalarCompare i.op (x.sreg i.ra) (x.opB i)))], s) := by
  unfold scalarOut
  rw [if_neg (by simp [hcond])]
  dsimp only
  rw [hform]
  exact if_neg (by simp [hgood])

theorem scalarOut_of_preds (hform : i.op.form = .preds) :
    scalarOut s k x slot i = (.write [.p (i.rd % 16) (predResult i.op (x.preg (i.ra % 16)) (x.preg (i.rb % 16)))], s) := by
  unfold scalarOut
  rw [if_neg (by simp [hcond])]
  dsimp only
  rw [hform]

theorem scalarOut_of_first (hform : i.op.form = .first) (hgood : x.sBad i.ra = false) :
    scalarOut s k x slot i = (.write [.p (i.rd % 16) (pfirst (x.sreg i.ra).toNat)], s) := by
  unfold scalarOut
  rw [if_neg (by simp [hcond])]
  dsimp only
  rw [hform]
  exact if_neg (by simp [hgood])

theorem scalarOut_of_load {t : State} {size pa : Nat} {sign : Bool} (hform : i.op.form = .load size sign) (hgood : x.badAB i = false)
    (halign : x.scalarAddr i % size = 0) (htranslate : translate s k x.ctx (x.scalarAddr i) .r = (.ok pa, t)) :
    scalarOut s k x slot i =
      (loadOut t k x (x.scalarAddr i) pa size (.s i.rd) (fun bs => (loadValue size sign bs).toNat) false, t) := by
  unfold scalarOut
  rw [if_neg (by simp [hcond])]
  dsimp only
  rw [hform]
  dsimp only
  rw [if_neg (by simp [hgood]), if_neg (by simp [halign]), access_of_ok htranslate]

theorem scalarOut_of_store {t : State} {size pa : Nat} (hform : i.op.form = .store size) (hgood : x.badAB i = false)
    (halign : x.scalarAddr i % size = 0) (htranslate : translate s k x.ctx (x.scalarAddr i) .w = (.ok pa, t)) :
    scalarOut s k x slot i = ({ SlotOut.none_ with st := [(pa, leBytes size (x.sreg i.rd).toNat, x.sBad i.rd)] }, t) := by
  unfold scalarOut
  rw [if_neg (by simp [hcond])]
  dsimp only
  rw [hform]
  dsimp only
  rw [if_neg (by simp [hgood]), if_neg (by simp [halign]), access_of_ok htranslate]

end ScalarForms

section ScalarRows

variable {s : State} {k h : Nat} {x : Hc} {b : Bundle} {i : SSlot} {sb : Bool} {o : SOp} {e : Instr}

/-- The row of a scalar instruction in a bundle that commits. -/
theorem scalarRow_commits (hc : Commits s k h x b PeerTable.empty) (hs : b.scalar sb = some i) (ho : i.op = o)
    (he : exec e s = .next (issueRow s k h (.s o) PeerTable.empty)) : exec e s = .next (committed s k h x b PeerTable.empty) :=
  he.trans (congrArg Host.Outcome.next (issueRow_commits hc (holds_scalar hs ho)))

/-- An instruction that writes one register: its row, and the answer of its slot. -/
theorem scalarRow_writes {w w' : RegWrite} {t : State} (hc : Commits s k h x b PeerTable.empty) (hs : b.scalar sb = some i) (ho : i.op = o)
    (he : exec e s = .next (issueRow s k h (.s o) PeerTable.empty))
    (hout : scalarOut (beforeScalar s k x b sb) k x (scalarId sb) i = (.write [w'], t)) (hw : w' = w) :
    exec e s = .next (committed s k h x b PeerTable.empty) ∧ (scalarAnswer s k h x b sb).wr = [w] ∧ (scalarAnswer s k h x b sb).st = [] := by
  subst hw
  rw [scalarAnswer_of hs, hout]
  exact ⟨scalarRow_commits hc hs ho he, rfl, rfl⟩

end ScalarRows

/-- Settles O40: each opcode has its form, and its form's answer with the opcode's value. -/
theorem scalarResults : Obligations.ScalarResults := by
  unfold Obligations.ScalarResults
  intro core hc s x b i sb hcommits hs hcond hcompare hfirst u v p q two one truth
  have hbin {o : SOp} {e : Instr} {r : Word} (hform : o.form = .binary)
      (he : exec e s = .next (issueRow s core.val hc.val (.s o) PeerTable.empty)) (hr : scalarResult o u v 0 i.imm false = r) (ho : i.op = o) :
      exec e s = .next (committed s core.val hc.val x b PeerTable.empty) ∧
        (scalarAnswer s core.val hc.val x b sb).wr = [two r] ∧ (scalarAnswer s core.val hc.val x b sb).st = [] :=
    scalarRow_writes hcommits hs ho he (scalarOut_of_binary hcond (ho ▸ hform)) (by rw [ho, ← hr])
  have hun {o : SOp} {e : Instr} {r : Word} (hform : o.form = .unary)
      (he : exec e s = .next (issueRow s core.val hc.val (.s o) PeerTable.empty)) (hr : scalarResult o u 0 0 i.imm false = r) (ho : i.op = o) :
      exec e s = .next (committed s core.val hc.val x b PeerTable.empty) ∧
        (scalarAnswer s core.val hc.val x b sb).wr = [one r] ∧ (scalarAnswer s core.val hc.val x b sb).st = [] :=
    scalarRow_writes hcommits hs ho he (scalarOut_of_unary hcond (ho ▸ hform)) (by rw [ho, ← hr])
  have hcmp {o : SOp} {e : Instr} {c : Bool} (hform : o.form = .compare)
      (he : exec e s = .next (issueRow s core.val hc.val (.s o) PeerTable.empty)) (hr : scalarCompare o u v = c) (ho : i.op = o) :
      exec e s = .next (committed s core.val hc.val x b PeerTable.empty) ∧
        (scalarAnswer s core.val hc.val x b sb).wr = [truth c] ∧ (scalarAnswer s core.val hc.val x b sb).st = [] :=
    scalarRow_writes hcommits hs ho he
      (scalarOut_of_compare hcond (ho ▸ hform) (hcompare.resolve_right (not_not_intro (ho ▸ hform)))) (by rw [ho, ← hr]; rfl)
  have hpred {o : SOp} {e : Instr} {r : PWord} (hform : o.form = .preds)
      (he : exec e s = .next (issueRow s core.val hc.val (.s o) PeerTable.empty)) (hr : predResult o p q = r) (ho : i.op = o) :
      exec e s = .next (committed s core.val hc.val x b PeerTable.empty) ∧
        (scalarAnswer s core.val hc.val x b sb).wr = [.p (i.rd % 16) r] ∧ (scalarAnswer s core.val hc.val x b sb).st = [] :=
    scalarRow_writes hcommits hs ho he (scalarOut_of_preds hcond (ho ▸ hform)) (by rw [ho, ← hr])
  simp only [List.forall_mem_cons]
  refine ⟨hbin rfl rfl rfl, hbin rfl rfl rfl, hbin rfl rfl rfl, hbin rfl rfl rfl, hbin rfl rfl rfl, hbin rfl rfl rfl, hbin rfl rfl rfl,
    hbin rfl rfl rfl, hbin rfl rfl rfl, hbin rfl rfl rfl, hbin rfl rfl rfl, hbin rfl rfl rfl, hun rfl rfl rfl, hun rfl rfl rfl,
    fun ho => scalarRow_writes hcommits hs ho rfl (scalarOut_of_select hcond (by rw [ho]; rfl)) rfl,
    hbin rfl rfl rfl, hbin rfl rfl rfl, hbin rfl rfl rfl, hbin rfl rfl rfl, hbin rfl rfl rfl, hbin rfl rfl rfl, hbin rfl rfl rfl,
    fun ho => scalarRow_writes hcommits hs ho rfl (scalarOut_of_limm hcond (by rw [ho]; rfl)) (by rw [ho]; rfl),
    fun ho => scalarRow_writes hcommits hs ho rfl (scalarOut_of_limm hcond (by rw [ho]; rfl)) (by rw [ho]; rfl),
    hcmp rfl rfl rfl, hcmp rfl rfl rfl, hcmp rfl rfl rfl, hcmp rfl rfl rfl, hcmp rfl rfl rfl, hcmp rfl rfl rfl,
    hpred rfl rfl rfl, hpred rfl rfl rfl, hpred rfl rfl rfl, hpred rfl rfl rfl,
    fun ho => scalarRow_writes hcommits hs ho rfl (scalarOut_of_first hcond (by rw [ho]; rfl)
      (hfirst.resolve_right (not_not_intro (by rw [ho]; rfl)))) rfl, fun _ hmem => (List.not_mem_nil hmem).elim⟩

section LoadAnswers

variable {s t : State} {k h pa va size n : Nat} {sign : Bool} {x : Hc} {r : Nat}

theorem loadOut_of_buffer {d : Bytes} {p : Bool} (hhit : x.aheadHit va size = some (d, p)) :
    loadOut t k x va pa size (.s r) (fun bs => (loadValue size sign bs).toNat) false = .write [.s r (loadValue size sign d) p] := by
  unfold loadOut
  rw [hhit]
  simp only [loadWrite, BitVec.ofNat_toNat, BitVec.setWidth_eq, Bool.or_false]

theorem loadOut_of_ownRing (hmiss : x.aheadHit va size = none) (hown : ownRing k pa = true) :
    loadOut t k x va pa size (.s r) (fun bs => (loadValue size sign bs).toNat) false = { SlotOut.none_ with
      wr := [.s r (loadValue size sign (memBytes t pa size)) (memPoisoned t pa size)], touch := [(pa, size)] } := by
  unfold loadOut
  rw [hmiss]
  simp only [hown, loadWrite, BitVec.ofNat_toNat, BitVec.setWidth_eq, Bool.or_false, if_true]

theorem loadOut_of_memory (hmiss : x.aheadHit va size = none) (hown : ownRing k pa = false) :
    loadOut t k x va pa size (.s r) (fun bs => (loadValue size sign bs).toNat) false = { SlotOut.none_ with
      loads := [{ reg := .s r, val := (loadValue size sign (memBytes t pa size)).toNat, poison := memPoisoned t pa size }]
      touch := [(pa, size)] } := by
  unfold loadOut
  rw [hmiss]
  simp only [hown, Bool.or_false, Bool.false_eq_true, if_false]

/-- A load stores nothing, whatever answers it. -/
theorem loadOut_st (reg : RegRef) (f : Bytes → Nat) (bad : Bool) : (loadOut t k x va pa size reg f bad).st = [] := by
  unfold loadOut
  split
  · rfl
  · dsimp only
    split <;> rfl

theorem loadComplete_of_waiting {reg : RegRef} {l : LoadWait} (hget : hcGet s k h = some x)
    (hfind : x.loads.find? (fun l => l.reg == reg) = some l) :
    loadComplete s k h reg = hcSet s k h (some (x.write (loadWrite reg l.val l.poison))) := by
  unfold loadComplete
  rw [hget]
  dsimp only
  rw [hfind]
  cases reg <;> rfl

end LoadAnswers

/-- Settles O41: loads and stores by their size, and by what answers a load. -/
theorem scalarMemory : Obligations.ScalarMemory := by
  unfold Obligations.ScalarMemory
  refine ⟨fun core hc s x b i sb pa t hcommits hs hcond hgood => ?_, fun core hc n s x l hrun hget => ⟨fun hfind => ?_, fun hfind => ?_, fun hfind => ?_⟩,
    fun core hc s x b i sb hs hoff => ?_⟩
  · intro va answer
    have hanswer : answer = (scalarOut (beforeScalar s core.val x b sb) core.val x (scalarId sb) i).1 := scalarAnswer_of hs
    have hload {o : SOp} {e : Instr} {size : Nat} {sign : Bool} (hform : o.form = .load size sign)
        (he : exec e s = .next (issueRow s core.val hc.val (.s o) PeerTable.empty)) (ho : i.op = o) (halign : va % size = 0)
        (htranslate : translate (beforeScalar s core.val x b sb) core.val x.ctx va .r = (.ok pa, t)) :
        let v (bs : Bytes) : Word := if sign then BitVec.ofInt 64 (toInt (8 * size) (leNat bs)) else BitVec.ofNat 64 (leNat bs)
        let bs := memBytes t pa size
        let bad := memPoisoned t pa size
        exec e s = .next (committed s core.val hc.val x b PeerTable.empty) ∧ answer.st = [] ∧
          (∀ d p, x.aheadHit va size = some (d, p) → answer.wr = [.s i.rd (v d) p] ∧ answer.loads = []) ∧
          (x.aheadHit va size = none → ownRing core.val pa = true → answer.wr = [.s i.rd (v bs) bad] ∧ answer.loads = []) ∧
          (x.aheadHit va size = none → ownRing core.val pa = false →
            answer.wr = [] ∧ answer.loads = [{ reg := .s i.rd, val := (v bs).toNat, poison := bad }]) := by
      have hout : answer = loadOut t core.val x va pa size (.s i.rd) (fun bs => (loadValue size sign bs).toNat) false :=
        hanswer.trans (congrArg Prod.fst (scalarOut_of_load hcond (ho.symm ▸ hform) hgood halign htranslate))
      refine ⟨scalarRow_commits hcommits hs ho he, hout ▸ loadOut_st _ _ _, fun d p hhit => ?_, fun hmiss hown => ?_, fun hmiss hown => ?_⟩
      · rw [hout, loadOut_of_buffer hhit]
        exact ⟨rfl, rfl⟩
      · rw [hout, loadOut_of_ownRing hmiss hown]
        exact ⟨rfl, rfl⟩
      · rw [hout, loadOut_of_memory hmiss hown]
        exact ⟨rfl, rfl⟩
    have hstore {o : SOp} {e : Instr} {size : Nat} (hform : o.form = .store size)
        (he : exec e s = .next (issueRow s core.val hc.val (.s o) PeerTable.empty)) (ho : i.op = o) (halign : va % size = 0)
        (htranslate : translate (beforeScalar s core.val x b sb) core.val x.ctx va .w = (.ok pa, t)) :
        exec e s = .next (committed s core.val hc.val x b PeerTable.empty) ∧ answer.wr = [] ∧ answer.loads = [] ∧
          answer.st = [(pa, leBytes size (x.sreg i.rd).toNat, x.sBad i.rd)] := by
      rw [hanswer, scalarOut_of_store hcond (ho.symm ▸ hform) hgood halign htranslate]
      exact ⟨scalarRow_commits hcommits hs ho he, rfl, rfl, rfl⟩
    refine ⟨?_, ?_⟩
    · iterate 7 rw [List.forall_mem_cons]
      exact ⟨hload rfl rfl, hload rfl rfl, hload rfl rfl, hload rfl rfl, hload rfl rfl, hload rfl rfl, hload rfl rfl,
        fun _ hmem => (List.not_mem_nil hmem).elim⟩
    · iterate 4 rw [List.forall_mem_cons]
      exact ⟨hstore rfl rfl, hstore rfl rfl, hstore rfl rfl, hstore rfl rfl, fun _ hmem => (List.not_mem_nil hmem).elim⟩
  · exact congrArg Host.Outcome.next ((whileRunning_running hrun _).trans (loadComplete_of_waiting hget hfind))
  · exact congrArg Host.Outcome.next ((whileRunning_running hrun _).trans (loadComplete_of_waiting hget hfind))
  · exact congrArg Host.Outcome.next ((whileRunning_running hrun _).trans (loadComplete_of_waiting hget hfind))
  · rw [scalarAnswer_of hs, scalarOut_of_off hoff]

end Sys2Proof.Machine

/-! PROOF. The vector instructions: the answer of the slot by the form of the opcode, and the element that each opcode computes. -/

namespace Sys2Proof.Machine

section VectorForms

variable {s : State} {k : Nat} {x : Hc} {i : VSlot}

/-- The answer that writes the slot's vector register. -/
def vectorWrite (x : Hc) (i : VSlot) (v : VWord) : SlotOut := .write [.v i.vd v (i.bad x)]

theorem vectorOut_of_binary (h : i.op.form = .binary) :
    vectorOut s k x i = (vectorWrite x i (vmerge x i (x.vreg i.vd)
      (fun e => vElem i.op i.elt (velem (x.vreg i.va) (8 * eltBytes i.elt) e) (x.vopB i e) 0)), s) := by
  unfold vectorOut
  dsimp only
  rw [h]
  rfl

theorem vectorOut_of_fused (h : i.op.form = .fused) :
    vectorOut s k x i = (vectorWrite x i (vmerge x i (x.vreg i.vd) (fun e => vElem i.op i.elt
      (velem (x.vreg i.va) (8 * eltBytes i.elt) e) (velem (x.vreg i.vb) (8 * eltBytes i.elt) e)
      (velem (x.vreg i.vc) (8 * eltBytes i.elt) e))), s) := by
  unfold vectorOut
  dsimp only
  rw [h]
  rfl

theorem vectorOut_of_unary (h : i.op.form = .unary) :
    vectorOut s k x i = (vectorWrite x i (vmerge x i (x.vreg i.vd)
      (fun e => vElem i.op i.elt (velem (x.vreg i.va) (8 * eltBytes i.elt) e) 0 0)), s) := by
  unfold vectorOut
  dsimp only
  rw [h]
  rfl

theorem vectorOut_of_compare (h : i.op.form = .compare) (hgood : i.bad x = false) :
    vectorOut s k x i = (.write [.p (i.vd % 16) (vComparePred x i)], s) := by
  unfold vectorOut
  dsimp only
  rw [h]
  exact if_neg (by simp [hgood])

theorem vectorOut_of_select (h : i.op.form = .select) :
    vectorOut s k x i = (vectorWrite x i (vmerge x i (x.vreg i.vd) (fun e =>
      if (x.preg (i.vc % 16)).getLsbD (eltBytes i.elt * e) then velem (x.vreg i.va) (8 * eltBytes i.elt) e
      else velem (x.vreg i.vb) (8 * eltBytes i.elt) e)), s) := by
  unfold vectorOut
  dsimp only
  rw [h]
  rfl

theorem vectorOut_of_convert (h : i.op.form = .cvt) : vectorOut s k x i = (vectorWrite x i (vConvert x i), s) := by
  unfold vectorOut
  dsimp only
  rw [h]
  rfl

theorem vectorOut_of_broadcast (h : i.op.form = .bcast) :
    vectorOut s k x i = (vectorWrite x i (vmerge x i (x.vreg i.vd) (fun _ => (x.sreg i.sr).toNat % 2 ^ (8 * eltBytes i.elt))), s) := by
  unfold vectorOut
  dsimp only
  rw [h]
  rfl

theorem vectorOut_of_extract (h : i.op.form = .ext) :
    vectorOut s k x i = (.write [.s i.sr (BitVec.ofNat 64 (velem (x.vreg i.va) (8 * eltBytes i.elt) (i.imm % 128))) (i.bad x)], s) := by
  unfold vectorOut
  dsimp only
  rw [h]

theorem vectorOut_of_insert (h : i.op.form = .ins) :
    vectorOut s k x i = (vectorWrite x i (vmerge x i (x.vreg i.vd) (fun e =>
      if e = i.imm % 128 then (x.sreg i.sr).toNat % 2 ^ (8 * eltBytes i.elt) else velem (x.vreg i.vd) (8 * eltBytes i.elt) e)), s) := by
  unfold vectorOut
  dsimp only
  rw [h]
  rfl

theorem vectorOut_of_permute (h : i.op.form = .perm) : vectorOut s k x i = (vectorWrite x i (vPermute x i), s) := by
  unfold vectorOut
  dsimp only
  rw [h]
  rfl

theorem vectorOut_of_reduce (h : i.op.form = .reduce) : vectorOut s k x i = (vectorWrite x i (vReduce x i), s) := by
  unfold vectorOut
  dsimp only
  rw [h]
  rfl

end VectorForms

section VectorMemory

variable {s t : State} {k pa : Nat} {x : Hc} {i : VSlot} (hgood : x.sBad i.sr = false) (halign : x.vectorAddr i % 128 = 0)

include hgood halign

theorem vectorOut_of_idleLoad (h : i.op.form = .ld) (hnone : x.noneEnabled i = true) : vectorOut s k x i = (.none_, s) := by
  unfold vectorOut
  dsimp only
  rw [h]
  dsimp only
  rw [if_neg (by simp [hgood]), if_neg (by simp [halign]), if_pos hnone]

theorem vectorOut_of_idleStore (h : i.op.form = .st) (hnone : x.noneEnabled i = true) : vectorOut s k x i = (.none_, s) := by
  unfold vectorOut
  dsimp only
  rw [h]
  dsimp only
  rw [if_neg (by simp [hgood]), if_neg (by simp [halign]), if_pos hnone]

theorem vectorOut_of_load (h : i.op.form = .ld) (hsome : x.noneEnabled i = false)
    (htranslate : translate s k x.ctx (x.vectorAddr i) .r = (.ok pa, t)) :
    vectorOut s k x i = (loadOut t k x (x.vectorAddr i) pa 128 (.v i.vd)
      (fun bs => (vmerge x i (x.vreg i.vd) (fun e => velem (BitVec.ofNat 1024 (leNat bs)) (8 * eltBytes i.elt) e)).toNat)
      (!x.allEnabled i && x.vBad i.vd), t) := by
  unfold vectorOut
  dsimp only
  rw [h]
  dsimp only
  rw [if_neg (by simp [hgood]), if_neg (by simp [halign]), if_neg (by simp [hsome]), access_of_ok htranslate]

theorem vectorOut_of_store (h : i.op.form = .st) (hsome : x.noneEnabled i = false)
    (htranslate : translate s k x.ctx (x.vectorAddr i) .w = (.ok pa, t)) :
    vectorOut s k x i = ({ SlotOut.none_ with
      st := (enabledRuns (storeLanes x i) none).map (fun r => (pa + r.1, r.2, x.vBad i.vd)) }, t) := by
  unfold vectorOut
  dsimp only
  rw [h]
  dsimp only
  rw [if_neg (by simp [hgood]), if_neg (by simp [halign]), if_neg (by simp [hsome]), access_of_ok htranslate]

omit hgood halign

variable {va : Nat} {new : Bytes → VWord} {old : Bool}

theorem vectorLoad_of_buffer {d : Bytes} {p : Bool} (hhit : x.aheadHit va 128 = some (d, p)) :
    loadOut t k x va pa 128 (.v i.vd) (fun bs => (new bs).toNat) old = .write [.v i.vd (new d) (p || old)] := by
  unfold loadOut
  rw [hhit]
  simp only [loadWrite, BitVec.ofNat_toNat, BitVec.setWidth_eq]

theorem vectorLoad_of_ownRing (hmiss : x.aheadHit va 128 = none) (hown : ownRing k pa = true) :
    loadOut t k x va pa 128 (.v i.vd) (fun bs => (new bs).toNat) old = { SlotOut.none_ with
      wr := [.v i.vd (new (memBytes t pa 128)) (memPoisoned t pa 128 || old)], touch := [(pa, 128)] } := by
  unfold loadOut
  rw [hmiss]
  simp only [hown, loadWrite, BitVec.ofNat_toNat, BitVec.setWidth_eq, if_true]

theorem vectorLoad_of_memory (hmiss : x.aheadHit va 128 = none) (hown : ownRing k pa = false) :
    loadOut t k x va pa 128 (.v i.vd) (fun bs => (new bs).toNat) old = { SlotOut.none_ with
      loads := [{ reg := .v i.vd, val := (new (memBytes t pa 128)).toNat, poison := memPoisoned t pa 128 || old }]
      touch := [(pa, 128)] } := by
  unfold loadOut
  rw [hmiss]
  simp only [hown, Bool.false_eq_true, if_false]

end VectorMemory

section VectorRows

variable {s : State} {k h : Nat} {x : Hc} {b : Bundle} {i : VSlot} {o : VOp} {e : Instr}

/-- The row of a vector instruction in a bundle that commits. -/
theorem vectorRow_commits (hc : Commits s k h x b PeerTable.empty) (hs : b.vx = some i) (ho : i.op = o)
    (he : exec e s = .next (issueRow s k h (.v o) PeerTable.empty)) : exec e s = .next (committed s k h x b PeerTable.empty) :=
  he.trans (congrArg Host.Outcome.next (issueRow_commits hc (holds_vector hs ho)))

/-- An instruction that writes one register: its row, and the answer of its slot. -/
theorem vectorRow_writes {w w' : List RegWrite} {t : State} (hc : Commits s k h x b PeerTable.empty) (hs : b.vx = some i) (ho : i.op = o)
    (he : exec e s = .next (issueRow s k h (.v o) PeerTable.empty))
    (hout : vectorOut (beforeVector s k x b) k x i = (.write w', t)) (hw : w' = w) :
    exec e s = .next (committed s k h x b PeerTable.empty) ∧ (vectorAnswer s k h x b).wr = w ∧ (vectorAnswer s k h x b).st = [] := by
  subst hw
  rw [vectorAnswer_of hs, hout]
  exact ⟨vectorRow_commits hc hs ho he, rfl, rfl⟩

end VectorRows

/-- An element of an operation that works on both kinds of element: the integer's or the floating value's. -/
theorem vmerge_congr {x : Hc} {i : VSlot} {old : VWord} {f g : Nat → Nat} (h : ∀ e, f e = g e) : vmerge x i old f = vmerge x i old g :=
  congrArg (vmerge x i old) (funext h)

/-- Settles O43: each opcode by its form, and the loads and stores by what is enabled and what answers. -/
theorem vectorResults : Obligations.VectorResults := by
  unfold Obligations.VectorResults
  intro core hc s x b i hcommits hs w f el num wd answer writes lanes
  have hwrite {o : VOp} {e : Instr} {v v' : VWord} {t : State} (he : exec e s = .next (issueRow s core.val hc.val (.v o) PeerTable.empty))
      (hout : i.op = o → vectorOut (beforeVector s core.val x b) core.val x i = (vectorWrite x i v', t)) (hv : i.op = o → v' = v)
      (ho : i.op = o) : exec e s = .next (committed s core.val hc.val x b PeerTable.empty) ∧ answer.wr = writes v ∧ answer.st = [] :=
    vectorRow_writes hcommits hs ho he (hout ho) (by rw [hv ho])
  have hbin {o : VOp} {e : Instr} {g : Nat → Nat} (hform : o.form = .binary)
      (he : exec e s = .next (issueRow s core.val hc.val (.v o) PeerTable.empty))
      (hg : ∀ e, vElem o i.elt (el i.va e) (x.vopB i e) 0 = g e) (ho : i.op = o) :
      exec e s = .next (committed s core.val hc.val x b PeerTable.empty) ∧ answer.wr = lanes g ∧ answer.st = [] :=
    hwrite he (fun ho => vectorOut_of_binary (ho.symm ▸ hform)) (fun ho => vmerge_congr (fun e => by rw [ho, ← hg e])) ho
  have hun {o : VOp} {e : Instr} (hform : o.form = .unary) (he : exec e s = .next (issueRow s core.val hc.val (.v o) PeerTable.empty))
      (ho : i.op = o) : exec e s = .next (committed s core.val hc.val x b PeerTable.empty) ∧
        answer.wr = lanes (fun e => vElem o i.elt (el i.va e) 0 0) ∧ answer.st = [] :=
    hwrite he (fun ho => vectorOut_of_unary (ho.symm ▸ hform)) (fun ho => vmerge_congr (fun e => by rw [ho])) ho
  have hreduce {o : VOp} {e : Instr} (hform : o.form = .reduce) (he : exec e s = .next (issueRow s core.val hc.val (.v o) PeerTable.empty))
      (ho : i.op = o) : exec e s = .next (committed s core.val hc.val x b PeerTable.empty) ∧
        answer.wr = writes (vReduce x i) ∧ answer.st = [] :=
    hwrite he (fun ho => vectorOut_of_reduce (ho.symm ▸ hform)) (fun _ => rfl) ho
  have hcompare {o : VOp} {e : Instr} (hform : o.form = .compare) (he : exec e s = .next (issueRow s core.val hc.val (.v o) PeerTable.empty))
      (hgood : i.bad x = false) (ho : i.op = o) :
      exec e s = .next (committed s core.val hc.val x b PeerTable.empty) ∧ answer.wr = [.p (i.vd % 16) (vComparePred x i)] := by
    obtain ⟨hexec, hwr, -⟩ := vectorRow_writes hcommits hs ho he (vectorOut_of_compare (ho.symm ▸ hform) hgood) rfl
    exact ⟨hexec, hwr⟩
  refine ⟨?_, fun hgood => ?_, fun pa t hgood => ?_⟩
  · iterate 29 rw [List.forall_mem_cons]
    exact ⟨hbin rfl rfl (fun _ => vElem_add _ _ _ _), hbin rfl rfl (fun _ => vElem_sub _ _ _ _), hbin rfl rfl (fun _ => vElem_mul _ _ _ _),
      hbin rfl rfl (fun _ => vElem_min _ _ _ _), hbin rfl rfl (fun _ => vElem_max _ _ _ _), hun rfl rfl, hun rfl rfl,
      hwrite rfl (fun ho => vectorOut_of_fused (by rw [ho]; rfl)) (fun ho => vmerge_congr (fun e => by rw [ho])),
      hbin rfl rfl (fun _ => rfl), hbin rfl rfl (fun _ => rfl), hbin rfl rfl (fun _ => rfl), hbin rfl rfl (fun _ => rfl),
      hbin rfl rfl (fun _ => rfl), hbin rfl rfl (fun _ => rfl), hun rfl rfl, hun rfl rfl, hun rfl rfl, hun rfl rfl, hun rfl rfl,
      hun rfl rfl, hwrite rfl (fun ho => vectorOut_of_select (by rw [ho]; rfl)) (fun _ => rfl),
      hwrite rfl (fun ho => vectorOut_of_broadcast (by rw [ho]; rfl)) (fun _ => rfl),
      hwrite rfl (fun ho => vectorOut_of_insert (by rw [ho]; rfl)) (fun _ => rfl),
      fun ho => vectorRow_writes hcommits hs ho rfl (vectorOut_of_extract (by rw [ho]; rfl)) rfl,
      hwrite rfl (fun ho => vectorOut_of_convert (by rw [ho]; rfl)) (fun _ => rfl),
      hwrite rfl (fun ho => vectorOut_of_permute (by rw [ho]; rfl)) (fun _ => rfl), hreduce rfl rfl, hreduce rfl rfl, hreduce rfl rfl,
      fun _ hmem => (List.not_mem_nil hmem).elim⟩
  · iterate 3 rw [List.forall_mem_cons]
    exact ⟨hcompare rfl rfl hgood, hcompare rfl rfl hgood, hcompare rfl rfl hgood, fun _ hmem => (List.not_mem_nil hmem).elim⟩
  · intro va halign
    have hanswer : answer = (vectorOut (beforeVector s core.val x b) core.val x i).1 := vectorAnswer_of hs
    refine ⟨fun hnone => ⟨fun ho => ?_, fun ho => ?_⟩, fun hsome ho htranslate => ?_, fun hsome ho htranslate => ?_⟩
    · rw [hanswer, vectorOut_of_idleLoad hgood halign (by rw [ho]; rfl) hnone]
      exact ⟨vectorRow_commits hcommits hs ho rfl, rfl, rfl⟩
    · rw [hanswer, vectorOut_of_idleStore hgood halign (by rw [ho]; rfl) hnone]
      exact ⟨vectorRow_commits hcommits hs ho rfl, rfl⟩
    · refine ⟨vectorRow_commits hcommits hs ho rfl, ?_⟩
      intro new old bs bad
      have hout : answer = loadOut t core.val x va pa 128 (.v i.vd) (fun bs => (new bs).toNat) old :=
        hanswer.trans (congrArg Prod.fst (vectorOut_of_load hgood halign (by rw [ho]; rfl) hsome htranslate))
      refine ⟨fun d p hhit => ?_, fun hmiss hown => ?_, fun hmiss hown => ?_⟩
      · rw [hout, vectorLoad_of_buffer hhit]
        exact ⟨rfl, rfl⟩
      · rw [hout, vectorLoad_of_ownRing hmiss hown]
        exact ⟨rfl, rfl⟩
      · rw [hout, vectorLoad_of_memory hmiss hown]
        exact ⟨rfl, rfl⟩
    · rw [hanswer, vectorOut_of_store hgood halign (by rw [ho]; rfl) hsome htranslate]
      exact ⟨vectorRow_commits hcommits hs ho rfl, rfl⟩

end Sys2Proof.Machine

/-! PROOF. The matrix instructions: what a slot does as its bundle commits, and the word of MXTEST. -/

namespace Sys2Proof.Machine

/-! ### A bundle that commits has no slot that raises, faults or waits -/

section Verdicts

theorem chooseExc_cons_isSome (e : Exc) (l : List Exc) : (chooseExc (e :: l)).isSome = true := by
  have hfold (m : List Exc) (o : Exc) : (m.foldl (fun o e => match o with
      | none => some e
      | some m => if e.before m then some e else some m) (some o)).isSome = true := by
    induction m generalizing o with
    | nil => rfl
    | cons a m ih =>
      rw [List.foldl_cons]
      dsimp only
      split
      · exact ih a
      · exact ih o
  exact hfold l e

theorem eq_nil_of_chooseExc {l : List Exc} (h : chooseExc l = none) : l = [] := by
  cases l with
  | nil => rfl
  | cons e l => exact absurd (chooseExc_cons_isSome e l) (by simp [h])

theorem commit_quiet {outs : List SlotOut} {extra : List Exc} (h : decideBundle outs extra = .commit) {o : SlotOut} (ho : o ∈ outs) :
    o.exc = [] ∧ o.flt = none ∧ o.wait = false := by
  unfold decideBundle at h
  dsimp only at h
  split at h
  · cases h
  split at h
  · cases h
  next hflt =>
  split at h
  next e hexc =>
    split at h <;> cases h
  next hexc =>
    split at h
    · cases h
    next hwait =>
      have hown := (List.append_eq_nil_iff.mp (eq_nil_of_chooseExc hexc)).2
      refine ⟨List.flatMap_eq_nil_iff.mp hown o ho, List.findSome?_eq_none_iff.mp hflt o ho, ?_⟩
      have hall := List.any_eq_false.mp (Bool.eq_false_iff.mpr hwait) o ho
      simpa using hall

end Verdicts

/-! ### The matrix slot as its bundle commits -/

section MatrixSlot

variable {s t : State} {k h : Nat} {x : Hc} {b : Bundle} {i : MSlot} {o : MOp} {e : Instr}

/-- A bundle with a matrix slot: the instruction takes effect after the scalar and vector slots and before the mover and control slots. -/
theorem committed_of_matrix (hslot : b.mx = some i) {u v : State} (hu : u = slotsStage s k h x b PeerTable.empty)
    (hv : mstCommit (matrixCommit u k h x i) k h x i = v) :
    committed s k h x b PeerTable.empty = endBundle (controlStage (moverStage
      ((((bundleOuts s k h x b PeerTable.empty).1.drop 3).flatMap (fun o => o.st)).foldl (fun t w => busWrite t w.1 w.2.1 w.2.2) v)
      k h x b PeerTable.empty) k h x b) k h := by
  subst hu hv
  rw [committed, beforeControl, beforeMover, matrixStage, hslot]

theorem matrixRow_commits (hc : Commits s k h x b PeerTable.empty) (hslot : b.mx = some i) (ho : i.op = o)
    (he : exec e s = .next (issueRow s k h (.m o) PeerTable.empty)) : exec e s = .next (committed s k h x b PeerTable.empty) :=
  he.trans (congrArg Host.Outcome.next (issueRow_commits hc (holds_matrix hslot ho)))

theorem matrixCommit_of_off (hcond : x.cond i.pred i.pneg = false) : matrixCommit t k h x i = t :=
  if_pos (by simp [hcond])

theorem mstCommit_of_off (hcond : x.cond i.pred i.pneg = false) : mstCommit t k h x i = t :=
  if_pos (by simp [hcond])

variable (hclaim : (coreGet t k).claim = some h) (hcond : x.cond i.pred i.pneg = true)

include hclaim hcond

theorem matrixCommit_of_claim :
    matrixCommit t k h x i = latDrain (match i.op with
      | .shape => latMod t k (fun l => (arraysOf i.arr).foldl (fun l a => l.setShape a (i.imm % 4)) l)
      | .lw => matrixLoad t k x i
      | .mb => matrixPass t k x i
      | .ms => matrixPass t k x i
      | .ew => matrixTile t k x i
      | .la => matrixTile t k x i
      | .zero => latMod t k (fun l => { l with work := l.work ++ (arraysOf i.arr).map (fun a => bankWork a i.bank .mzero 0) })
      | .clr => latMod t k (fun l => l.clear (arraysOf i.arr) i.banks)
      | .st => t
      | .wait_ => t
      | .test => t) k := by
  unfold matrixCommit
  exact if_neg (by simp [hclaim, hcond])

/-- The transfer that MST starts, from the tensor that its descriptor names. -/
theorem mstCommit_of_desc {m : Tensor} {u : State} (hop : i.op = .st)
    (hdesc : useDesc t k x .mx (x.treg i.ta).toNat true = (.ok m, u)) :
    mstCommit t k h x i =
      (let f : Xfer :=
        { op := opMst, srcD := i.taDesc x, dstD := i.taDesc x, src := m.rebase (i.taDesc x), dst := m.rebase (i.taDesc x),
          list := (arraysOf i.arr).headD 0 + 2 * i.bank + (if bitN i.imm 0 then 8 else 0), count := 0, peer := 0,
          epoch := epochNow t, mesh := meshNow t, unit := 0, poison := false, st := .running, keep := XferMem.none_ }
       if i.taAligned x then startXfer u k h i.xt f else xferEnd (setTag u k h i.xt (.busy f)) k h i.xt 0x31) := by
  unfold mstCommit
  rw [if_neg (by simp [hop, hclaim, hcond]), hdesc]

end MatrixSlot

section TestWord

variable {s : State} {k h : Nat} {x : Hc} {b : Bundle} {i : MSlot}

theorem matrixOut_of_test {t : State} (hop : i.op = .test) (hcond : x.cond i.pred i.pneg = true) :
    (matrixOut t k h x i).1 =
      if (coreGet t k).claim != some h then .raise (excIllegal .mx)
      else if i.stateIllegal (coreGet t k).lat then .raise (excIllegal .mx)
      else if i.bad x then .raise (excPoison .mx)
      else if i.waits (coreGet t k).lat x then { SlotOut.none_ with wait := true }
      else .write [.s i.so ((coreGet t k).lat.codeWord ((arraysOf i.arr).headD 0)) false] := by
  have hheld : matrixHeld x (coreGet t k).lat i =
      if i.waits (coreGet t k).lat x then some { SlotOut.none_ with wait := true } else none := by
    unfold matrixHeld
    simp [hop]
  have hplain : (i.op.usesTa || i.op == .lw) = false := by rw [hop]; rfl
  unfold matrixOut
  dsimp only
  simp only [hplain, hcond, hheld, Bool.not_true, Bool.false_eq_true, if_false, apply_ite Prod.fst]
  by_cases hwaits : i.waits (coreGet t k).lat x
  · simp only [hwaits, if_true]
  · simp only [hwaits, hop, if_true, Bool.false_eq_true, if_false]

/-- MXTEST in a slot that neither raises nor waits answers the word of its array. -/
theorem matrixOut_of_quietTest {t : State} (hop : i.op = .test) (hcond : x.cond i.pred i.pneg = true)
    (hexc : (matrixOut t k h x i).1.exc = []) (hwait : (matrixOut t k h x i).1.wait = false) :
    (matrixOut t k h x i).1.wr = [.s i.so ((coreGet t k).lat.codeWord ((arraysOf i.arr).headD 0)) false] := by
  rw [matrixOut_of_test hop hcond] at hexc hwait ⊢
  split at hexc
  · cases hexc
  next hclaim =>
  split at hexc
  · cases hexc
  next hlegal =>
  split at hexc
  · cases hexc
  next hgood =>
  rw [if_neg hclaim, if_neg hlegal, if_neg hgood] at hwait ⊢
  split at hwait
  · cases hwait
  next hready => rw [if_neg hready]; rfl

/-- The answer of the matrix slot is that of its instruction, after what the slots before it store. -/
theorem matrixAnswer_of {outs : List SlotOut} (hslot : b.mx = some i) (houts : outs = (bundleOuts s k h x b PeerTable.empty).1) :
    outs.getD 3 .none_ = (matrixOut (((outs.take 3).flatMap (fun o => o.st)).foldl storeOnly
      (slotOut b.vx (fun i t => vectorOut t k x i) (beforeVector s k x b)).2) k h x i).1 ∧ outs.getD 3 .none_ ∈ outs := by
  subst houts
  simp [bundleOuts, slotOut, hslot, beforeVector, beforeScalar]

end TestWord

/-- Settles O45: each opcode's effect in the slot's place, and the word of MXTEST from the slot that let the bundle commit. -/
theorem matrixInstructions : Obligations.MatrixInstructions := by
  unfold Obligations.MatrixInstructions
  intro core hc s x b i hcommits hslot k h u outs drained rest
  have hrow {o : MOp} {e : Instr} {v : State} (he : exec e s = .next (issueRow s k h (.m o) PeerTable.empty)) (ho : i.op = o)
      (hv : mstCommit (matrixCommit u k h x i) k h x i = v) : exec e s = .next (rest v) :=
    (matrixRow_commits hcommits hslot ho he).trans (congrArg Host.Outcome.next (committed_of_matrix hslot rfl hv))
  refine ⟨fun hoff => ?_, fun hcond hclaim => ?_⟩
  · have hnone {o : MOp} {e : Instr} (he : exec e s = .next (issueRow s k h (.m o) PeerTable.empty)) (ho : i.op = o) :
        exec e s = .next (rest u) :=
      hrow he ho (by rw [matrixCommit_of_off hoff, mstCommit_of_off hoff])
    iterate 11 rw [List.forall_mem_cons]
    exact ⟨hnone rfl, hnone rfl, hnone rfl, hnone rfl, hnone rfl, hnone rfl, hnone rfl, hnone rfl, hnone rfl, hnone rfl, hnone rfl,
      fun _ hmem => (List.not_mem_nil hmem).elim⟩
  · have hclaimed := matrixCommit_of_claim (i := i) hclaim hcond
    have hop {o : MOp} {e : Instr} {v : State} (he : exec e s = .next (issueRow s k h (.m o) PeerTable.empty)) (ho : i.op = o)
        (hne : o ≠ .st) (hv : matrixCommit u k h x i = latDrain v k) : exec e s = .next (rest (latDrain v k)) :=
      hrow he ho ((mstCommit_of_ne_st (by rw [ho]; exact hne)).trans hv)
    refine ⟨fun ho => hop rfl ho (by decide) ?_, fun ho => hop rfl ho (by decide) ?_, fun ho => hop rfl ho (by decide) ?_,
      fun ho => hop rfl ho (by decide) ?_, fun ho => hop rfl ho (by decide) ?_, fun ho => hop rfl ho (by decide) ?_,
      fun ho => hop rfl ho (by decide) ?_, fun ho => hop rfl ho (by decide) ?_, fun ho => ?_, fun m u1 ho hclaim' hdesc => ?_⟩
    iterate 8 rw [hclaimed, ho]
    · intro before
      refine ⟨hop rfl ho (by decide) (by rw [hclaimed, ho]), ?_⟩
      obtain ⟨_, _, _, _, _, hdecide⟩ := hcommits
      obtain ⟨hanswer, hmem⟩ := matrixAnswer_of (outs := outs) hslot rfl
      obtain ⟨hexc, -, hwait⟩ := commit_quiet hdecide hmem
      rw [hanswer] at hexc hwait ⊢
      exact matrixOut_of_quietTest ho hcond hexc hwait
    · intro f
      refine hrow rfl ho ?_
      rw [hclaimed, ho]
      exact mstCommit_of_desc hclaim' hcond ho hdesc

end Sys2Proof.Machine

/-! PROOF. The mover instructions and the ends of their transfers. -/

namespace Sys2Proof.Machine

/-! ### The mover slot as its bundle commits -/

section MoverSlot

variable {s u v : State} {k h : Nat} {x : Hc} {b : Bundle} {i : DSlot} {o : DOp} {e : Instr} {table : PeerTable}

theorem committed_of_mover (hslot : b.dx = some i) (hu : u = beforeMover s k h x b table) (hv : moverCommit u k h x i table = v) :
    committed s k h x b table = endBundle (controlStage v k h x b) k h := by
  subst hu hv
  rw [committed, beforeControl, moverStage, hslot]

theorem moverRow_commits (hc : Commits s k h x b table) (hslot : b.dx = some i) (ho : i.op = o)
    (he : exec e s = .next (issueRow s k h (.d o) table)) : exec e s = .next (committed s k h x b table) :=
  he.trans (congrArg Host.Outcome.next (issueRow_commits hc (holds_mover hslot ho)))

theorem moverCommit_of_off (hcond : x.cond i.pred i.pneg = false) : moverCommit u k h x i table = u :=
  if_pos (by simp [hcond])

variable (hcond : x.cond i.pred i.pneg = true)

include hcond

theorem moverCommit_of_transfer {src dst : Tensor} {u1 : State} (htransfer : i.op.isTransfer = true)
    (htensors : xferTensors u k x i table = (.ok (src, dst), u1)) :
    moverCommit u k h x i table =
      (let sd := addBase (x.treg (if i.op = .fill then i.td else i.ts)).toNat (if i.srcOfs then (x.sreg i.sa).toNat else 0)
       let dd := addBase (x.treg i.td).toNat (if i.dstOfs then (x.sreg i.sb).toNat else 0)
       let list := i.op == .gather || i.op == .scatter
       let f : Xfer :=
         { op := i.op.code, srcD := sd, dstD := dd, src := src.rebase sd, dst := dst.rebase dd,
           list := if list then (x.sreg i.sa).toNat % 2 ^ 48 else 0, count := if list then (x.sreg i.sb).toNat else 0,
           peer := if i.op = .put ∨ i.op = .get then (x.sreg i.sb).toNat % 64 else 0, epoch := epochNow u, mesh := meshNow u, unit := 0,
           poison := false, st := .running, keep := XferMem.none_ }
       startXfer (settleTag u1 k h i.xt) k h i.xt f) := by
  unfold moverCommit
  rw [if_neg (by simp [hcond]), if_pos htransfer, htensors]
  rfl

theorem moverCommit_of_wait (hop : i.op = .wait_) :
    moverCommit u k h x i table = (List.range 4).foldl (fun t n =>
      if bitN i.imm n && !((x.tag n) == .idle) then setTag t k h n .idle else t) u := by
  unfold moverCommit
  rw [if_neg (by simp [hcond]), if_neg (by rw [hop]; simp [DOp.isTransfer]), if_pos hop]

theorem moverCommit_of_plain (hplain : i.op.isTransfer = false) (hop : i.op ≠ .wait_) : moverCommit u k h x i table = u := by
  unfold moverCommit
  rw [if_neg (by simp [hcond]), if_neg (by simp [hplain]), if_neg hop]

end MoverSlot

/-! ### The answer of the mover slot -/

section MoverAnswers

variable {s t : State} {k h pa : Nat} {x : Hc} {b : Bundle} {i : DSlot} {table : PeerTable}

theorem moverAnswer_of (hslot : b.dx = some i) :
    (bundleOuts s k h x b table).1.getD 4 .none_ = (moverOut (slotOut b.mx (fun i t => matrixOut t k h x i)
      ((((bundleOuts s k h x b table).1.take 3).flatMap (fun o => o.st)).foldl storeOnly
        (slotOut b.vx (fun i t => vectorOut t k x i) (beforeVector s k x b)).2)).2 k x i table).1 := by
  simp [bundleOuts, slotOut, hslot, beforeVector, beforeScalar]

variable (hcond : x.cond i.pred i.pneg = true)

include hcond

theorem moverOut_of_test (hop : i.op = .test) : moverOut s k x i table = (.write [.s i.sa x.tagWord false], s) := by
  unfold moverOut
  rw [if_neg (by simp [hcond]), hop]
  rfl

theorem moverOut_of_tmov (hop : i.op = .tmov) : moverOut s k x i table = (.write [.t i.td (x.treg i.ts) (x.tBad i.ts)], s) := by
  unfold moverOut
  rw [if_neg (by simp [hcond]), hop]
  rfl

theorem moverOut_of_taddb (hop : i.op = .taddb) :
    moverOut s k x i table = (.write [.t i.td (BitVec.ofNat 256 (addBase (x.treg i.ts).toNat (x.sreg i.sa).toNat))
      (x.tBad i.ts || x.sBad i.sa)], s) := by
  unfold moverOut
  rw [if_neg (by simp [hcond]), hop]
  rfl

variable (hgood : x.sBad i.sa = false) (halign : x.descAddr i % 32 = 0)

include hgood halign

theorem moverOut_of_tld (hop : i.op = .tld) (htranslate : translate s k x.ctx (x.descAddr i) .r = (.ok pa, t)) :
    moverOut s k x i table = (loadOut t k x (x.descAddr i) pa 32 (.t i.td) leNat false, t) := by
  unfold moverOut
  rw [if_neg (by simp [hcond]), hop, if_neg (by simp [DOp.isTransfer])]
  dsimp only
  rw [if_neg (by simp [hgood]), if_neg (by simp [halign]), access_of_ok htranslate]

theorem moverOut_of_tst (hop : i.op = .tst) (htranslate : translate s k x.ctx (x.descAddr i) .w = (.ok pa, t)) :
    moverOut s k x i table = ({ SlotOut.none_ with st := [(pa, leBytes 32 (x.treg i.ts).toNat, x.tBad i.ts)] }, t) := by
  unfold moverOut
  rw [if_neg (by simp [hcond]), hop, if_neg (by simp [DOp.isTransfer])]
  dsimp only
  rw [if_neg (by simp [hgood]), if_neg (by simp [halign]), access_of_ok htranslate]

omit hcond hgood halign

variable {va td : Nat}

theorem descLoad_of_buffer {d : Bytes} {p : Bool} (hhit : x.aheadHit va 32 = some (d, p)) :
    loadOut t k x va pa 32 (.t td) leNat false = .write [.t td (BitVec.ofNat 256 (leNat d)) p] := by
  unfold loadOut
  rw [hhit]
  simp only [loadWrite, Bool.or_false]

theorem descLoad_of_ownRing (hmiss : x.aheadHit va 32 = none) (hown : ownRing k pa = true) :
    loadOut t k x va pa 32 (.t td) leNat false = { SlotOut.none_ with
      wr := [.t td (BitVec.ofNat 256 (leNat (memBytes t pa 32))) (memPoisoned t pa 32)], touch := [(pa, 32)] } := by
  unfold loadOut
  rw [hmiss]
  simp only [hown, loadWrite, Bool.or_false, if_true]

theorem descLoad_of_memory (hmiss : x.aheadHit va 32 = none) (hown : ownRing k pa = false) :
    loadOut t k x va pa 32 (.t td) leNat false = { SlotOut.none_ with
      loads := [{ reg := .t td, val := leNat (memBytes t pa 32), poison := memPoisoned t pa 32 }], touch := [(pa, 32)] } := by
  unfold loadOut
  rw [hmiss]
  simp only [hown, Bool.or_false, Bool.false_eq_true, if_false]

end MoverAnswers

/-! ### The ends of a transfer -/

section TransferEnds

variable {s t : State} {k h n : Nat} {f : Xfer}

theorem transferEnd_of_running (hxfer : xferOf s k h n = some f) (hst : f.st = .running) (hgo : xferWaits s k h n = false) :
    transferEnd s k h n = match runUnits s k h n f.left with
      | (.finished, s1) => xferEnd s1 k h n (((xferOf s1 k h n).map Xfer.final).getD 0)
      | (.refused, s1) => xferEnd s1 k h n 0x31
      | (.remote, s1) => s1
      | _ => s := by
  unfold transferEnd
  rw [hxfer]
  dsimp only
  rw [hst]
  exact if_neg (by simp [hgo])

theorem suspendTransfer_of_fault {x : Hc} {g : Xfer} {src va kind level : Nat} (hget : hcGet s k h = some x)
    (hxfer : xferOf s k h n = some f) (hst : f.st = .running) (hgo : xferWaits s k h n = false) (hkept : xferOf t k h n = some g)
    (hrun : runUnits s k h n f.left = (.fault src va kind level, t)) :
    suspendTransfer s k h n =
      (let r := raiseFault t k
         { va := va, ctx := x.ctx, hc := h, src := src, kind := kind, level := level, tag := n, pc := x.pc, unit := g.unit }
       coreCount (bump (setTag r.2 k h n (.busy { g with st := .fault r.1 })) .movSuspend 0 k) k x.ctx 10 1) := by
  unfold suspendTransfer
  rw [hxfer, hget]
  dsimp only
  rw [if_neg (by simp [hst, hgo]), hrun]
  dsimp only
  rw [hkept]

end TransferEnds

/-- Settles O47: each opcode's commit and answer, and each way in which the units of a transfer can stop. -/
theorem moverInstructions : Obligations.MoverInstructions := by
  unfold Obligations.MoverInstructions
  refine ⟨fun core hc s x b i table hcommits hslot => ?_, fun core hc tag s t f hrun hxfer hst hgo => ?_⟩
  · intro k h u rest answer
    have hrow {o : DOp} {e : Instr} {v : State} (he : exec e s = .next (issueRow s k h (.d o) table)) (ho : i.op = o)
        (hv : moverCommit u k h x i table = v) : exec e s = .next (rest v) :=
      (moverRow_commits hcommits hslot ho he).trans (congrArg Host.Outcome.next (committed_of_mover hslot rfl hv))
    refine ⟨fun hoff => ?_, fun hcond => ⟨fun src dst u1 htransfer htensors => ?_, fun htable => ?_⟩⟩
    · have hnone {o : DOp} {e : Instr} (he : exec e s = .next (issueRow s k h (.d o) table)) (ho : i.op = o) : exec e s = .next (rest u) :=
        hrow he ho (moverCommit_of_off hoff)
      refine ⟨?_, fun htable => ?_⟩
      · iterate 2 rw [List.forall_mem_cons]
        exact ⟨hnone rfl, hnone rfl, fun _ hmem => (List.not_mem_nil hmem).elim⟩
      · subst htable
        iterate 11 rw [List.forall_mem_cons]
        exact ⟨hnone rfl, hnone rfl, hnone rfl, hnone rfl, hnone rfl, hnone rfl, hnone rfl, hnone rfl, hnone rfl, hnone rfl, hnone rfl,
          fun _ hmem => (List.not_mem_nil hmem).elim⟩
    · intro sd dd list f t
      have hstart {o : DOp} {e : Instr} (he : exec e s = .next (issueRow s k h (.d o) table)) (ho : i.op = o) : exec e s = .next t :=
        hrow he ho (moverCommit_of_transfer hcond htransfer htensors)
      refine ⟨?_, fun htable => ?_⟩
      · iterate 2 rw [List.forall_mem_cons]
        exact ⟨hstart rfl, hstart rfl, fun _ hmem => (List.not_mem_nil hmem).elim⟩
      · subst htable
        iterate 5 rw [List.forall_mem_cons]
        exact ⟨hstart rfl, hstart rfl, hstart rfl, hstart rfl, hstart rfl, fun _ hmem => (List.not_mem_nil hmem).elim⟩
    · subst htable
      have hanswer : answer = _ := moverAnswer_of hslot
      have hplain {o : DOp} {e : Instr} (he : exec e s = .next (issueRow s k h (.d o) PeerTable.empty)) (hmove : o.isTransfer = false)
          (hne : o ≠ .wait_) (ho : i.op = o) : exec e s = .next (rest u) :=
        hrow he ho (moverCommit_of_plain hcond (ho.symm ▸ hmove) (ho.symm ▸ hne))
      refine ⟨fun ho => hrow rfl ho (moverCommit_of_wait hcond ho), fun ho => ⟨hplain rfl rfl (by decide) ho, ?_⟩,
        fun ho => ⟨hplain rfl rfl (by decide) ho, ?_⟩, fun ho => ⟨hplain rfl rfl (by decide) ho, ?_⟩, fun pa t hgood => ?_⟩
      · rw [hanswer, moverOut_of_test hcond ho]
        rfl
      · rw [hanswer, moverOut_of_tmov hcond ho]
        rfl
      · rw [hanswer, moverOut_of_taddb hcond ho]
        rfl
      · intro va before halign
        refine ⟨fun ho htranslate => ?_, fun ho htranslate => ⟨hplain rfl rfl (by decide) ho, ?_⟩⟩
        · have hout : answer = loadOut t k x va pa 32 (.t i.td) leNat false :=
            hanswer.trans (congrArg Prod.fst (moverOut_of_tld hcond hgood halign ho htranslate))
          refine ⟨hplain rfl rfl (by decide) ho, hout ▸ loadOut_st _ _ _, fun d p hhit => ?_, fun hmiss hown => ?_, fun hmiss hown => ?_⟩
          · rw [hout, descLoad_of_buffer hhit]
            exact ⟨rfl, rfl⟩
          · rw [hout, descLoad_of_ownRing hmiss hown]
            exact ⟨rfl, rfl⟩
          · rw [hout, descLoad_of_memory hmiss hown]
            exact ⟨rfl, rfl⟩
        · rw [hanswer]
          exact congrArg (fun o => o.1.st) (moverOut_of_tst hcond hgood halign ho htranslate)
  · have hexec : exec (.transferEnd core hc tag) s = .next _ :=
      congrArg Host.Outcome.next ((whileRunning_running hrun _).trans (transferEnd_of_running hxfer hst hgo))
    refine ⟨fun g hkept hstop => ?_, fun hstop => ?_, fun hstop => ?_, fun src va kind level hstop => ?_,
      fun src va kind level x g hget hkept hstop => ?_⟩
    · rw [hexec, hstop]
      dsimp only
      rw [hkept]
      rfl
    · rw [hexec, hstop]
    · rw [hexec, hstop]
    · rw [hexec, hstop]
    · intro r
      exact congrArg Host.Outcome.next ((whileRunning_running hrun _).trans (suspendTransfer_of_fault hget hxfer hst hgo hkept hstop))

end Sys2Proof.Machine

/-! PROOF. Control flow, state and synchronisation, the queue instructions, exceptions and granted claims. -/

namespace Sys2Proof.Machine

/-! ### The control slot as its bundle commits -/

section ControlSlot

variable {s u v : State} {k h : Nat} {x : Hc} {b : Bundle} {i : CSlot} {o : COp} {e : Instr}

theorem committed_of_control (hslot : b.cx = some i) (hu : u = beforeControl s k h x b PeerTable.empty)
    (hv : controlCommit u k h x i = v) : committed s k h x b PeerTable.empty = endBundle v k h := by
  subst hu hv
  rw [committed, controlStage, hslot]

theorem controlRow_commits (hc : Commits s k h x b PeerTable.empty) (hslot : b.cx = some i) (ho : i.op = o)
    (he : exec e s = .next (issueRow s k h (.c o) PeerTable.empty)) : exec e s = .next (committed s k h x b PeerTable.empty) :=
  he.trans (congrArg Host.Outcome.next (issueRow_commits hc (holds_control hslot ho)))

theorem controlAnswer_of (hslot : b.cx = some i) :
    ∃ t, (bundleOuts s k h x b PeerTable.empty).1.getD 5 .none_ = controlOut t k h x i ∧
      (bundleOuts s k h x b PeerTable.empty).2 = { t with
        mem := (bundleOuts s k h x b PeerTable.empty).2.mem, memPoison := (bundleOuts s k h x b PeerTable.empty).2.memPoison
        upsets := (bundleOuts s k h x b PeerTable.empty).2.upsets } := by
  unfold bundleOuts
  rw [hslot]
  exact ⟨_, rfl, rfl⟩

theorem controlCommit_of_off (hcond : x.cond i.pred i.pneg = false) : controlCommit u k h x i = u :=
  if_pos (by simp [hcond])

theorem controlOut_of_off (hcond : x.cond i.pred i.pneg = false) : controlOut s k h x i = .none_ :=
  if_pos (by simp [hcond])

/-- A jump to a register's address, where the register is good and the address aligned. -/
theorem jumpOut_of_aligned {a : SlotOut} (hgood : x.sBad i.ra = false) (halign : x.regTarget i % 64 = 0) : jumpOut x i a = a :=
  (if_neg (by simp [hgood])).trans (if_neg (by simp [halign]))

/-- A c register does not hold anything of the memory. -/
theorem cregGet_memory (m : FMap Byte) (p : FMap Bool) (g : FMap Nat) (n : Nat) :
    cregGet { s with mem := m, memPoison := p, upsets := g } k x n = cregGet s k x n := rfl

variable (hcond : x.cond i.pred i.pneg = true)

include hcond

theorem controlOut_of_on :
    controlOut s k h x i = match i.op with
      | .br => .none_
      | .jr => jumpOut x i .none_
      | .call => .write [.s i.rb (BitVec.ofNat 64 x.nextPc) false]
      | .callr => jumpOut x i (.write [.s i.rb (BitVec.ofNat 64 x.nextPc) false])
      | .loop => if x.sBad i.ra then .raise (excPoison .cx) else .write [.s i.ra (x.sreg i.ra - 1) false]
      | .exit => { SlotOut.none_ with wait := workBusy s k h x }
      | .trap => .raise (mkExc 13 .cx i.imm)
      | .brk => .raise (mkExc 12 .cx 0)
      | .fence => { SlotOut.none_ with wait := !x.loads.isEmpty }
      | .ifence => { SlotOut.none_ with wait := !x.loads.isEmpty }
      | .crd => .write [.s i.rb (cregGet s k x i.cr) false]
      | .cwr => if x.sBad i.ra then .raise (excPoison .cx) else .none_
      | .settag => .none_
      | .claim => { SlotOut.none_ with wait := (coreGet s k).claim != some h }
      | .release => { SlotOut.none_ with wait := claimBusy s k h x }
      | .qsel => if x.sBad i.rb then .raise (excPoison .cx) else .none_
      | _ => queueOut s x i :=
  if_neg (by simp [hcond])

theorem controlCommit_of_on :
    controlCommit u k h x i = match i.op with
      | .br => setPc u k h (x.relTarget i.imm)
      | .jr => setPc u k h (x.regTarget i)
      | .call => setPc u k h (x.relTarget i.imm)
      | .callr => setPc u k h (x.regTarget i)
      | .loop => if x.sreg i.ra - 1 = 0 then u else setPc u k h (x.relTarget i.imm)
      | .exit => exitCommit u k h x
      | .ifence => dropBundles u k x.ctx
      | .crd => if i.cr = 9 then hcMod u k h (fun y => { y with qstat := 0 }) else u
      | .cwr => hcMod u k h (fun y =>
          if i.cr = 2 then { y with layer := (x.sreg i.ra).toNat % 65536 } else { y with oper := (x.sreg i.ra).toNat % 65536 })
      | .settag => hcMod u k h (fun y => { y with layer := i.imm % 65536, oper := i.imm / 65536 % 65536 })
      | .release => if (coreGet u k).claim = some h then releasePair u k else u
      | .qsel => hcMod u k h (fun y => { y with qd := fsetD 0 y.qd i.qd ((x.sreg i.rb).toNat % 4096 + 32768) })
      | .trap => u
      | .brk => u
      | .fence => u
      | .claim => u
      | _ => queueCommitOp u k h x i :=
  if_neg (by simp [hcond])

end ControlSlot

/-! ### Exits, traps and bundle fills -/

section ControlRows

variable {s : State} {k h : Nat} {x : Hc} {b : Bundle}

theorem issueRow_of_exiting {table : PeerTable} (hissue : canIssue s k h = none) (hget : hcGet s k h = some x) (hexit : x.exiting = true)
    (hrun : s.gct.stopped = false) :
    issueRow s k h (.c .exit) table = if workBusy s k h x then s else exitContext s k h := by
  unfold issueRow
  rw [hissue]
  dsimp only
  rw [if_pos rfl, exitDone, hget]
  dsimp only
  rw [hexit, hrun]
  cases workBusy s k h x <;> rfl

theorem issueRow_of_raise {l : BundleLine} {o : GOp} {e : Exc} (hissue : canIssue s k h = some x) (hline : cachedLine s k x = some l)
    (hgood : l.poison = false) (hbundle : Bundle.decode l.bits = b) (hholds : b.holds o = true) (hlegal : b.firstIllegal = none)
    (hpairs : chooseExc (b.pairing x ((coreGet s k).claim == some h)) = none) (hready : (b.reads x).any x.pending = false)
    (hraise : decideBundle (bundleOuts s k h x b PeerTable.empty).1 (bundleExtra s k x b) = .raise e) :
    issueRow s k h o PeerTable.empty = passBlanks (raiseExc (bundleOuts s k h x b PeerTable.empty).2 k h e) k h 1024 := by
  have hissued : issueBundle s k h x b PeerTable.empty = raiseExc (bundleOuts s k h x b PeerTable.empty).2 k h e := by
    unfold issueBundle
    rw [hlegal, Option.map_none, Option.toList_none, List.nil_append, hpairs]
    dsimp only
    rw [if_neg (by simp [hready]), hraise]
  unfold issueRow
  rw [hissue]
  dsimp only
  rw [hline]
  dsimp only
  rw [hbundle, hgood, hholds, hissued]
  rfl

theorem cacheFill_of_missing (hissue : canIssue s k h = some x) (hline : cachedLine s k x = none) :
    cacheFill s k h = match translate s k x.ctx x.pc .x with
      | (.ok pa, s1) =>
        let l : BundleLine := { ctx := x.ctx, va := x.pc, bits := leNat (memBytes s1 pa 64), poison := memPoisoned s1 pa 64 }
        let s2 := coreMod (memTouch s1 pa 64) k (fun c => { c with cache := (l :: c.cache).take 1024 })
        passBlanks s2 k h 1024
      | (.fault kind level, s1) =>
        if x.disp = 2 then raiseExc s1 k h (mkExc 1 .sa x.pc)
        else if x.disp = 3 then raiseExc s1 k h (mkExc 2 .sa x.pc)
        else suspendBundle s1 k h x { slot := .sa, src := 0, va := x.pc, kind := kind, level := level }
      | (.refused, s1) => raiseExc (bump s1 .xltRefused 0 k) k h (mkExc 2 .sa x.pc) := by
  unfold cacheFill
  rw [hissue]
  exact if_neg (by simp [hline])

end ControlRows

/-- Settles O49: each opcode's commit and answer, the traps in place of a commit, and the fill of a bundle line by its translation. -/
theorem controlInstructions : Obligations.ControlInstructions := by
  unfold Obligations.ControlInstructions
  refine ⟨fun core hc s x b i hcommits hslot => ?_, fun core hc s x hissue hget hexit hrun => ?_,
    fun core hc s x b l i e hissue hline hgood hbundle hslot hlegal hpairs hready hcond => ?_, fun core hc s x hissue hline => ⟨?_, ?_, ?_⟩⟩
  · intro k h u rel reg answer link busy ending
    obtain ⟨t, hanswer, hleft⟩ := controlAnswer_of (s := s) (k := k) (h := h) (x := x) hslot
    have hrow {o : COp} {e : Instr} {v : State} (he : exec e s = .next (issueRow s k h (.c o) PeerTable.empty)) (ho : i.op = o)
        (hv : controlCommit u k h x i = v) : exec e s = .next (endBundle v k h) :=
      (controlRow_commits hcommits hslot ho he).trans (congrArg Host.Outcome.next (committed_of_control hslot rfl hv))
    refine ⟨fun hoff => ?_, fun hcond => ?_⟩
    · have hnone {o : COp} {e : Instr} (he : exec e s = .next (issueRow s k h (.c o) PeerTable.empty)) (ho : i.op = o) :
          exec e s = .next (endBundle u k h) ∧ answer.wr = [] :=
        ⟨hrow he ho (controlCommit_of_off hoff), congrArg SlotOut.wr (hanswer.trans (controlOut_of_off hoff))⟩
      iterate 26 rw [List.forall_mem_cons]
      exact ⟨hnone rfl, hnone rfl, hnone rfl, hnone rfl, hnone rfl, hnone rfl, hnone rfl, hnone rfl, hnone rfl, hnone rfl, hnone rfl,
        hnone rfl, hnone rfl, hnone rfl, hnone rfl, hnone rfl, hnone rfl, hnone rfl, hnone rfl, hnone rfl, hnone rfl, hnone rfl, hnone rfl,
        hnone rfl, hnone rfl, hnone rfl, fun _ hmem => (List.not_mem_nil hmem).elim⟩
    · have hcommit := controlCommit_of_on (u := u) (k := k) (h := h) hcond
      have hout := hanswer.trans (controlOut_of_on hcond)
      have hop {o : COp} {e : Instr} {v : State} {w : List RegWrite} (he : exec e s = .next (issueRow s k h (.c o) PeerTable.empty))
          (hv : i.op = o → controlCommit u k h x i = v) (hw : i.op = o → answer.wr = w) (ho : i.op = o) :
          exec e s = .next (endBundle v k h) ∧ answer.wr = w :=
        ⟨hrow he ho (hv ho), hw ho⟩
      refine ⟨?_, hop rfl (fun ho => by rw [ho] at hcommit; exact hcommit)
          (fun ho => by rw [ho] at hout; exact congrArg SlotOut.wr hout), ?_, fun hgood => ⟨fun halign => ?_, fun halign => ?_, ?_, ?_⟩, fun hgood ho => ?_⟩
      · iterate 7 rw [List.forall_mem_cons]
        exact ⟨hop rfl (fun ho => by rw [ho] at hcommit; exact hcommit) (fun ho => by rw [ho] at hout; exact congrArg SlotOut.wr hout),
          hop rfl (fun ho => by rw [ho] at hcommit; exact hcommit) (fun ho => by rw [ho] at hout; exact congrArg SlotOut.wr hout),
          hop rfl (fun ho => by rw [ho] at hcommit; exact hcommit) (fun ho => by rw [ho] at hout; exact congrArg SlotOut.wr hout),
          hop rfl (fun ho => by rw [ho] at hcommit; exact hcommit) (fun ho => by rw [ho] at hout; exact congrArg SlotOut.wr hout),
          hop rfl (fun ho => by rw [ho] at hcommit; exact hcommit) (fun ho => by rw [ho] at hout; exact congrArg SlotOut.wr hout),
          hop rfl (fun ho => by rw [ho] at hcommit; exact hcommit) (fun ho => by rw [ho] at hout; exact congrArg SlotOut.wr hout),
          hop rfl (fun ho => by rw [ho] at hcommit; exact hcommit) (fun ho => by rw [ho] at hout; exact congrArg SlotOut.wr hout),
          fun _ hmem => (List.not_mem_nil hmem).elim⟩
      · refine hop rfl (fun ho => by rw [ho] at hcommit; exact hcommit) (fun ho => ?_)
        rw [ho] at hout
        rw [hleft, cregGet_memory]
        exact congrArg SlotOut.wr hout
      · have hjump := jumpOut_of_aligned (x := x) (i := i) (a := .none_) hgood halign
        refine hop rfl (fun ho => by rw [ho] at hcommit; exact hcommit) (fun ho => ?_)
        rw [ho] at hout
        exact congrArg SlotOut.wr (hout.trans hjump)
      · have hjump := jumpOut_of_aligned (x := x) (i := i) (a := .write [.s i.rb (BitVec.ofNat 64 x.nextPc) false]) hgood halign
        refine hop rfl (fun ho => by rw [ho] at hcommit; exact hcommit) (fun ho => ?_)
        rw [ho] at hout
        exact congrArg SlotOut.wr (hout.trans hjump)
      · refine hop rfl (fun ho => by rw [ho] at hcommit; exact hcommit) (fun ho => ?_)
        rw [ho] at hout
        exact congrArg SlotOut.wr (hout.trans (if_neg (by simp [hgood])))
      · exact fun ho => hrow rfl ho (by rw [ho] at hcommit; exact hcommit)
      · exact hrow rfl ho (by rw [ho] at hcommit; exact hcommit)
  · exact congrArg Host.Outcome.next (issueRow_of_exiting hissue hget hexit hrun)
  · intro r hraise raised
    obtain ⟨t, hanswer, -⟩ := controlAnswer_of (s := s) (k := core.val) (h := hc.val) (x := x) hslot
    have hout := hanswer.trans (controlOut_of_on hcond)
    refine ⟨fun ho => ⟨congrArg Host.Outcome.next ?_, ?_⟩, fun ho => ⟨congrArg Host.Outcome.next ?_, ?_⟩⟩
    · exact issueRow_of_raise hissue hline hgood hbundle (holds_control hslot ho) hlegal hpairs hready hraise
    · rw [ho] at hout
      exact congrArg SlotOut.exc hout
    · exact issueRow_of_raise hissue hline hgood hbundle (holds_control hslot ho) hlegal hpairs hready hraise
    · rw [ho] at hout
      exact congrArg SlotOut.exc hout
  · intro pa t htranslate l
    refine congrArg Host.Outcome.next ((cacheFill_of_missing hissue hline).trans ?_)
    rw [htranslate]
  · intro t htranslate
    refine congrArg Host.Outcome.next ((cacheFill_of_missing hissue hline).trans ?_)
    rw [htranslate]
  · intro kind level t htranslate
    refine congrArg Host.Outcome.next ((cacheFill_of_missing hissue hline).trans ?_)
    rw [htranslate]

section QueueSlot

variable {s : State} {k h q : Nat} {x : Hc} {i : CSlot}

theorem queueCommitOp_of_queue (hq : x.queue i.qd = some q) :
    queueCommitOp s k h x i = if (queueOp s x i q).2 then
      hcMod (queueOp s x i q).1.s k h (fun y => { y with qstat := setBitN y.qstat i.qd true }) else (queueOp s x i q).1.s := by
  unfold queueCommitOp
  rw [hq]

end QueueSlot

/-- Settles O51: each opcode performs its operation of the queue as its bundle commits. -/
theorem queueInstructions : Obligations.QueueInstructions := by
  unfold Obligations.QueueInstructions
  intro core hc s x b i q hcommits hslot hcond hq k h u d t
  have hcommit := controlCommit_of_on (u := u) (k := k) (h := h) hcond
  have hqueue := queueCommitOp_of_queue (s := u) (k := k) (h := h) hq
  have hop {o : COp} {e : Instr} {r : QDone × Bool} (he : exec e s = .next (issueRow s k h (.c o) PeerTable.empty))
      (hv : i.op = o → controlCommit u k h x i = queueCommitOp u k h x i) (hr : i.op = o → queueOp u x i q = r) (ho : i.op = o) :
      exec e s = .next t ∧ d = r :=
    ⟨(controlRow_commits hcommits hslot ho he).trans
      (congrArg Host.Outcome.next (committed_of_control hslot rfl ((hv ho).trans hqueue))), hr ho⟩
  iterate 10 rw [List.forall_mem_cons]
  exact ⟨hop rfl (fun ho => by rw [ho] at hcommit; exact hcommit) (fun ho => by unfold queueOp; rw [ho]),
    hop rfl (fun ho => by rw [ho] at hcommit; exact hcommit) (fun ho => Prod.ext (by unfold queueOp; rw [ho]) rfl),
    hop rfl (fun ho => by rw [ho] at hcommit; exact hcommit) (fun ho => Prod.ext (by unfold queueOp; rw [ho]) rfl),
    hop rfl (fun ho => by rw [ho] at hcommit; exact hcommit) (fun ho => Prod.ext (by unfold queueOp; rw [ho]) rfl),
    hop rfl (fun ho => by rw [ho] at hcommit; exact hcommit) (fun ho => Prod.ext (by unfold queueOp; rw [ho]) rfl),
    hop rfl (fun ho => by rw [ho] at hcommit; exact hcommit) (fun ho => by unfold queueOp; rw [ho]),
    hop rfl (fun ho => by rw [ho] at hcommit; exact hcommit) (fun ho => by unfold queueOp; rw [ho]),
    hop rfl (fun ho => by rw [ho] at hcommit; exact hcommit) (fun ho => by unfold queueOp; rw [ho]),
    hop rfl (fun ho => by rw [ho] at hcommit; exact hcommit) (fun ho => by unfold queueOp; rw [ho]),
    hop rfl (fun ho => by rw [ho] at hcommit; exact hcommit) (fun ho => by unfold queueOp; rw [ho]),
    fun _ hmem => (List.not_mem_nil hmem).elim⟩

end Sys2Proof.Machine

/-! PROOF. Exceptions and granted claims. -/

namespace Sys2Proof.Machine

section Exceptions

variable {s : State} {k h : Nat} {x : Hc} {e : Exc}

theorem raiseExc_of_end (hget : hcGet s k h = some x) (hend : e.code ≠ 12 ∨ regF s .fctCtl 0 k 2 1 ≠ 1) :
    raiseExc s k h e =
      (let record := leBytes 8 e.code ++ leBytes 8 e.slot.index ++ leBytes 8 x.pc ++ leBytes 8 e.va ++ leBytes 8 x.layer ++
         leBytes 8 x.oper ++ leBytes 8 e.tag
       let at_ := ringBase k + 0x1FE000 + 64 * h
       let t := freeContext (excEvent (bump (memWr s at_ record) .fctExc 0 k) k x.ctx at_) k h
       excTrigger (if x.isRun then runReady t x.ctx e.status [] else t) e.code) := by
  unfold raiseExc
  rw [hget]
  exact if_neg (fun hboth => hend.elim (fun hcode => hcode hboth.1) (fun hdebug => hdebug hboth.2))

theorem raiseExc_of_break (hget : hcGet s k h = some x) (hcode : e.code = 12) (hdebug : regF s .fctCtl 0 k 2 1 = 1) :
    raiseExc s k h e =
      (let ended := if x.stepOne then regPutF (regPutF s .obsDbg 0 0 16 1 0) .obsDbg 0 0 24 8 0 else s
       debugTrigger (hcSet ended k h (some { x with st := .debug, stepOne := false }))) := by
  unfold raiseExc
  rw [hget]
  exact if_pos ⟨hcode, hdebug⟩

end Exceptions

section Grants

variable {s : State} {k mode : Nat}

/-- Choosing a claim changes no context. -/
theorem hcGet_chosen (m : Nat) (f : List ClaimWait → List ClaimWait) (h : Nat) :
    hcGet (coreMod s k (fun c => { c with sched := m, claims := f c.claims })) k h = hcGet s k h := by
  unfold hcGet
  rw [coreGet_coreMod_self]

variable (hmode : mode = (modePending s.gct.modes 2).getD s.gct.modes.scheduling)

include hmode

theorem claimGrant_of_none (h : (coreGet s k).claim ≠ none ∨ (coreGet s k).spareBusy ≠ 0 ∨ (coreGet s k).evac = true ∨
      nextClaim (if mode = 1 then 0 else 1) (coreGet s k).claims = none) : claimGrant s k = s := by
  subst hmode
  unfold claimGrant
  dsimp only
  split
  · rfl
  next hfree =>
    simp only [Bool.or_eq_true, not_or, Bool.not_eq_true, bne_eq_false_iff_eq, Option.isSome_eq_false_iff, Option.isNone_iff_eq_none] at hfree
    obtain ⟨⟨⟨⟨hclaim, hspare⟩, hevac⟩, -⟩, -⟩ := hfree
    have hnone : nextClaim (if (modePending s.gct.modes 2).getD s.gct.modes.scheduling = 1 then 0 else 1) (coreGet s k).claims = none := by
      rcases h with h | h | h | h
      · exact absurd hclaim h
      · exact absurd hspare h
      · exact absurd (hevac.symm.trans h) (by simp)
      · exact h
    rw [hnone]

theorem claimGrant_of_claim {g : ClaimWait} {x : Hc} (hactive : coreActive s k = true) (hrun : s.gct.stopped = false)
    (hclaim : (coreGet s k).claim = none) (hspare : (coreGet s k).spareBusy = 0) (hevac : (coreGet s k).evac = false)
    (hnext : nextClaim (if mode = 1 then 0 else 1) (coreGet s k).claims = some g) (hget : hcGet s k g.hc = some x) :
    claimGrant s k =
      (let s1 := coreMod s k (fun c => { c with sched := mode, claims := passClaims g c.claims })
       match x.heldFrame with
       | none => hcSet (givePair s1 k g.hc Lattice.reset) k g.hc (some { x with st := .issuing })
       | some f => grantHeld s1 k g.hc f x) := by
  subst hmode
  unfold claimGrant
  dsimp only
  rw [if_neg (by simp [hactive, hrun, hclaim, hspare, hevac]), hnext]
  dsimp only
  rw [hcGet_chosen, hget] <;> rfl

end Grants

/-- Settles O50: what an exception ends, and to whom the pair goes. -/
theorem exceptionsAndGrants : Obligations.ExceptionsAndGrants := by
  unfold Obligations.ExceptionsAndGrants
  refine ⟨fun s k h x e hget hend => raiseExc_of_end hget hend, fun s k h x e hget hcode hdebug => raiseExc_of_break hget hcode hdebug,
    fun core s hactive hrun => ?_⟩
  intro k c mode
  refine ⟨fun h => congrArg Host.Outcome.next (claimGrant_of_none rfl h), fun g x hclaim hspare hevac hnext hget => ?_⟩
  intro chosen given
  have hexec : exec (.claimGrant core) s = .next _ :=
    congrArg Host.Outcome.next (claimGrant_of_claim rfl hactive hrun hclaim hspare hevac hnext hget)
  refine ⟨fun hheld => hexec.trans (congrArg Host.Outcome.next ?_), fun f hheld => ?_⟩
  · dsimp only
    split
    · rfl
    · next f hsome => cases hheld.symm.trans hsome
  · intro a t image loaded
    refine hexec.trans (congrArg Host.Outcome.next ?_)
    dsimp only
    split
    · next hnone => cases hheld.symm.trans hnone
    · next f' hsome =>
      cases hheld.symm.trans hsome
      rfl

end Sys2Proof.Machine

/-! PROOF. Checks, recomputation and self-test of the Lattice. -/

namespace Sys2Proof.Machine

section Passes

variable {s : State} {k h a sl : Nat} {e : PassErrors} {x : Hc} {b t : List MxWork} {w : MxWork} (hclaim : claimant s k = some (h, x))

include hclaim

theorem passCheck_of_none (hnone : judgedPass (coreGet s k).lat x a sl 0 [] (coreGet s k).lat.work = none) : passCheck s k a sl e = s := by
  unfold passCheck
  rw [hclaim]
  dsimp only
  rw [hnone]

theorem passCheck_of_pass (hpass : judgedPass (coreGet s k).lat x a sl 0 [] (coreGet s k).lat.work = some (b, w, t)) :
    passCheck s k a sl e =
      if (coreGet s k).lat.shape a = 0 then
        if w.fails e then latMod s k (fun l => { l with work := b ++ { w with failed := 1 } :: t }) else commitPass s k x b w t e
      else if e.parity then bump (failPass s k b w t 1) .latParity 0 k
      else commitPass s k x b w t e := by
  unfold passCheck
  rw [hclaim]
  dsimp only
  rw [hpass]

theorem recomputePass_of_none (hnone : judgedPass (coreGet s k).lat x a sl 1 [] (coreGet s k).lat.work = none) :
    recomputePass s k a sl e = s := by
  unfold recomputePass
  rw [hclaim]
  dsimp only
  rw [hnone]

theorem recomputePass_of_pass (hpass : judgedPass (coreGet s k).lat x a sl 1 [] (coreGet s k).lat.work = some (b, w, t)) :
    recomputePass s k a sl e =
      if e.replay then failPass s k b w t 2
      else if w.fails e then sendSpare s k b w t
      else wantBist (bump (markRecomputed (commitPass s k x b w t e) k h) .latChkSame 0 k) k a := by
  unfold recomputePass
  rw [hclaim]
  dsimp only
  rw [hpass]

theorem sparePass_of_none (hnone : judgedPass (coreGet s k).lat x a sl 2 [] (coreGet s k).lat.work = none) :
    sparePass s k a sl e = (false, s) := by
  unfold sparePass
  rw [hclaim]
  dsimp only
  rw [hnone]

theorem sparePass_of_noSpare (hpass : judgedPass (coreGet s k).lat x a sl 2 [] (coreGet s k).lat.work = some (b, w, t))
    (hspare : w.spare = none) : sparePass s k a sl e = (true, bump (failPass s k b w t 1) .latChkFail 0 k) := by
  unfold sparePass
  rw [hclaim]
  dsimp only
  rw [hpass]
  dsimp only
  rw [hspare]
  rfl

theorem sparePass_of_spare {j y : Nat} (hpass : judgedPass (coreGet s k).lat x a sl 2 [] (coreGet s k).lat.work = some (b, w, t))
    (hspare : w.spare = some (j, y)) :
    sparePass s k a sl e =
      (let free := spareDone s (some (j, y))
       (true, if e.replay then failPass free k b w t 2
         else if w.fails e then wantBist (bump (failPass free k b w t 1) .latChkFail 0 k) j y
         else bump (bump (markRecomputed (commitPass free k x b w t e) k h) .latChkSpare 0 k) .latSpareServed 0 j)) := by
  unfold sparePass
  rw [hclaim]
  dsimp only
  rw [hpass]
  dsimp only
  rw [hspare]
  dsimp only
  split
  · rfl
  · split <;> rfl

omit hclaim

theorem spareRecomputation_of_pass {u : State} (h : sparePass s k a sl e = (true, u)) : spareRecomputation s k a sl e = retireArray u k a 1 := by
  unfold spareRecomputation
  rw [h]
  rfl

theorem spareRecomputation_of_noPass {u : State} (h : sparePass s k a sl e = (false, u)) : spareRecomputation s k a sl e = s := by
  unfold spareRecomputation
  rw [h]
  rfl

end Passes

section Faults

variable {r : Replay} {e : PassErrors}

theorem fails_of_parity (h : e.parity = true) : r.fails e = true := by
  unfold Replay.fails
  rw [h, Bool.true_or, Bool.true_or]

theorem fails_of_cell {c : CellError} (hmem : c ∈ e.cells) (hvec : c.vec < r.acts.length) (hcol : c.col < r.cols.length)
    (hmask : c.mask % 2 ^ 32 ≠ 0) : r.fails e = true := by
  have hcell : (e.cells.any fun c => decide (c.vec < r.acts.length) && decide (c.col < r.cols.length) && c.mask % 2 ^ 32 != 0) = true :=
    List.any_eq_true.mpr ⟨c, hmem, by simp only [hvec, hcol, decide_true, Bool.true_and]; exact bne_iff_ne.mpr hmask⟩
  unfold Replay.fails
  rw [hcell, Bool.or_true]

end Faults

section SelfTest

variable {s : State} {k a t : Nat}

/-- What a pair that is due for its self-test looks like. -/
def BistDue (s : State) (k a : Nat) : Prop :=
  (regF s .latCtl 0 k 1 1 = 1 ∨ (bistGet (coreGet s k) a).wanted = true) ∧ (coreGet s k).claim = none ∧ (coreGet s k).spareBusy = 0 ∧
    (coreGet s k).idleFrom + 1250 ≤ s.idleClock ∧ (bistGet (coreGet s k) a).since = none

theorem bistStart_guard (hrun : s.gct.stopped = false) :
    (coreActive s k && !s.gct.stopped && (regF s .latCtl 0 k 1 1 == 1 || (bistGet (coreGet s k) a).wanted) && pairIdle s (coreGet s k) &&
      (bistGet (coreGet s k) a).since.isNone) = true ↔ coreActive s k = true ∧ BistDue s k a := by
  simp only [BistDue, pairIdle, hrun, Bool.and_eq_true, Bool.or_eq_true, beq_iff_eq, Bool.not_false, decide_eq_true_eq,
    Option.isNone_iff_eq_none]
  tauto

theorem bistStart_of_due (hrun : s.gct.stopped = false) (hactive : coreActive s k = true) (hdue : BistDue s k a) :
    bistStart s k a = bistMod s k a (fun b =>
      { b with since := some s.idleClock, wanted := false, setting := some (regGet s (mkReg .latBist 0 k)) }) :=
  if_pos ((bistStart_guard hrun).mpr ⟨hactive, hdue⟩)

theorem bistStart_of_notDue (hrun : s.gct.stopped = false) (h : coreActive s k = false ∨ ¬ BistDue s k a) : bistStart s k a = s := by
  refine if_neg fun hguard => ?_
  obtain ⟨hactive, hdue⟩ := (bistStart_guard hrun).mp hguard
  exact h.elim (fun hidle => Bool.false_ne_true (hidle.symm.trans hactive)) (fun hno => hno hdue)

theorem bistResult_of_ended {ok : Bool} (hrun : s.gct.stopped = false) (hsince : (bistGet (coreGet s k) a).since = some t)
    (hdone : t + 13963 ≤ s.idleClock) :
    bistResult s k a ok =
      (let ended := bump (bistMod s k a (fun b => { b with since := none, lastAt := s.idleClock, overdue := false })) .latBistRuns 0 k
       if ok then regPut ended .latBistLast a k (msNow s) else retireArray (bump ended .latBistFail 0 k) k a 2) := by
  unfold bistResult
  dsimp only
  rw [hsince]
  exact if_neg (by simp [hrun, hdone])

theorem bistResult_of_idle {ok : Bool} (hsince : (bistGet (coreGet s k) a).since = none) : bistResult s k a ok = s := by
  unfold bistResult
  dsimp only
  rw [hsince]

theorem bistResult_of_running {ok : Bool} (hsince : (bistGet (coreGet s k) a).since = some t) (hearly : s.idleClock < t + 13963) :
    bistResult s k a ok = s := by
  unfold bistResult
  dsimp only
  rw [hsince]
  exact if_pos (by simp [hearly])

theorem bistOverdue_of_active (hrun : s.gct.stopped = false) (hactive : coreActive s k = true) :
    bistOverdue s k a = if (bistGet (coreGet s k) a).lastAt + 2 * bistPeriod (bistGet (coreGet s k) a) ≤ s.idleClock
      then bistMod s k a (fun b => { b with overdue := true }) else s := by
  unfold bistOverdue
  simp only [hactive, hrun, Bool.not_false, Bool.and_self, Bool.true_and, decide_eq_true_eq]

/-- A write of LAT_BIST with its request bit. -/
theorem applyWrite_bistRequest {row : RegRow} {n : Nat} :
    applyWrite s row (mkReg .latBist 0 k) (n % 2 ^ 16 + 2 ^ 16) =
      wantBist (wantBist (plainWrite s row (mkReg .latBist 0 k) (n % 2 ^ 16 + 2 ^ 16)) k 0) k 1 := by
  have hbit : bitN (n % 2 ^ 16 + 2 ^ 16) 16 = true := by
    unfold bitN
    rw [Nat.add_comm, Nat.testBit_two_pow_add_eq, Nat.testBit_lt_two_pow (Nat.mod_lt _ (by decide))]
    rfl
  exact if_pos hbit

end SelfTest

/-- Settles O54: each check by the pass that it judges, and each row of the self-test by its conditions. -/
theorem latticeChecks : Obligations.LatticeChecks := by
  unfold Obligations.LatticeChecks
  refine ⟨fun core a sl h e s x hrun hclaim => ?_, fun r e => ⟨fails_of_parity, fun c hmem hvec hcol hmask => fails_of_cell hmem hvec hcol hmask⟩,
    fun core a s hrun => ?_, fun s hrun => congrArg Host.Outcome.next (whileRunning_running hrun _)⟩
  · intro k l
    have hcheck {v : State} (hv : passCheck s k a.val sl e = v) : exec (.passCheck core a sl e) s = .next v :=
      congrArg Host.Outcome.next ((whileRunning_running hrun _).trans hv)
    have hagain {v : State} (hv : recomputePass s k a.val sl e = v) : exec (.recomputation core a sl e) s = .next v :=
      congrArg Host.Outcome.next ((whileRunning_running hrun _).trans hv)
    have hspare {v : State} (hv : spareRecomputation s k a.val sl e = v) : exec (.spareRecomputation core a sl e) s = .next v :=
      congrArg Host.Outcome.next ((whileRunning_running hrun _).trans hv)
    refine ⟨fun hnone => hcheck (passCheck_of_none hclaim hnone), fun hnone => hagain (recomputePass_of_none hclaim hnone),
      fun hnone => hspare (spareRecomputation_of_noPass (sparePass_of_none hclaim hnone)), fun b t w => ?_⟩
    intro failed passed
    refine ⟨fun hpass => ⟨fun hfull => ?_, fun hother => ?_⟩, fun hpass => ?_, fun hpass => ⟨fun hnone => ?_, fun j y hsome => ?_⟩⟩
    · exact hcheck ((passCheck_of_pass hclaim hpass).trans (if_pos hfull))
    · exact hcheck ((passCheck_of_pass hclaim hpass).trans (if_neg hother))
    · intro o sent
      exact hagain (recomputePass_of_pass hclaim hpass)
    · exact hspare (spareRecomputation_of_pass (sparePass_of_noSpare hclaim hpass hnone))
    · intro free
      exact hspare (spareRecomputation_of_pass (sparePass_of_spare hclaim hpass hsome))
  · intro k c b due
    have hresult {ok : Bool} {v : State} (hv : bistResult s k a.val ok = v) : exec (.bistResult core a ok) s = .next v :=
      congrArg Host.Outcome.next hv
    refine ⟨fun hactive hdue => congrArg Host.Outcome.next (bistStart_of_due hrun hactive hdue),
      fun h => congrArg Host.Outcome.next (bistStart_of_notDue hrun h), fun t hsince hdone => ?_,
      fun hsince ok => hresult (bistResult_of_idle hsince), fun t ok hsince hearly => hresult (bistResult_of_running hsince hearly),
      fun hactive => congrArg Host.Outcome.next (bistOverdue_of_active hrun hactive), fun row => ?_⟩
    · intro ended
      exact ⟨hresult (bistResult_of_ended hrun hsince hdone), hresult (bistResult_of_ended hrun hsince hdone)⟩
    · intro v htakes
      exact congrArg Host.Outcome.next ((rowWrite_takes htakes).trans applyWrite_bistRequest)

end Sys2Proof.Machine

/-! PROOF. Hardware contexts and save frames. -/

namespace Sys2Proof.Machine

/-! ### Run-ahead changes a context's buffer and nothing else of it -/

section RunAhead

theorem write_buf (x : Hc) (w : RegWrite) : (x.write w).buf = x.buf := by
  cases w with
  | s n v b => rfl
  | v n v b => rfl
  | t n v b => rfl
  | p n v =>
    unfold Hc.write
    dsimp only
    split <;> rfl

theorem writes_buf (ws : List RegWrite) (x : Hc) : (x.writes ws).buf = x.buf := by
  unfold Hc.writes
  induction ws generalizing x with
  | nil => rfl
  | cons w ws ih => exact (ih (x.write w)).trans (write_buf x w)

theorem slot_buf (w : Shadow) (bad0 srcs dest : List (Nat × Nat)) (o : SlotOut) : (w.slot bad0 srcs dest o).y.buf = w.y.buf := by
  unfold Shadow.slot
  split
  · rfl
  · exact writes_buf _ _

variable {s : State} {k h : Nat} {z : Hc} {bad0 : List (Nat × Nat)} {w : Shadow} (hw : w.y.buf.length ≤ 16)

include hw

theorem aheadLoad_buf (va n : Nat) : (aheadLoad s k w va n).1.y.buf.length ≤ 16 := by
  unfold aheadLoad
  split
  · exact hw
  · split
    · exact (List.length_take_le _ _)
    · exact hw

/-- What a load leaves of the shadow, whether its register takes the value or is marked. -/
theorem aheadLoaded_buf (va n : Nat) (dest : List (Nat × Nat)) (o : SlotOut) :
    (if (aheadLoad s k w va n).2 then (aheadLoad s k w va n).1.slot bad0 [] dest o else { w with bad := w.bad ++ dest }).y.buf.length ≤ 16 := by
  split
  · rw [slot_buf]
    exact aheadLoad_buf hw va n
  · exact hw

theorem aheadScalar_buf (slot : SlotId) (o : Option SSlot) : (aheadScalar s k z bad0 slot o w).y.buf.length ≤ 16 := by
  unfold aheadScalar
  split
  · exact hw
  split
  · exact hw
  split
  · split
    · exact hw
    · exact aheadLoaded_buf hw _ _ _ _
  · rw [slot_buf]
    exact hw

theorem aheadVector_buf (o : Option VSlot) : (aheadVector s k z bad0 o w).y.buf.length ≤ 16 := by
  unfold aheadVector
  split
  · exact hw
  dsimp only
  split
  · exact hw
  split
  · split
    · exact hw
    · exact aheadLoaded_buf hw _ _ _ _
  · rw [slot_buf]
    exact hw

theorem aheadMover_buf (o : Option DSlot) : (aheadMover s k z bad0 o w).y.buf.length ≤ 16 := by
  unfold aheadMover
  split
  · exact hw
  dsimp only
  split
  · exact hw
  split
  · split
    · exact hw
    · exact aheadLoaded_buf hw _ _ _ _
  · rw [slot_buf]
    exact hw
  · rw [slot_buf]
    exact hw
  · exact hw

theorem aheadControl_buf (o : Option CSlot) : (aheadControl s k h z bad0 o w).y.buf.length ≤ 16 := by
  unfold aheadControl
  split
  · exact hw
  · rw [slot_buf]
    exact hw

omit hw

variable {x : Hc} {a : Ahead} {first : Bool}

/-- The shadow that a bundle leaves: its slots, one after another. -/
def aheadShadow (s : State) (k h : Nat) (x : Hc) (a : Ahead) (b : Bundle) : Shadow :=
  aheadControl s k h (x.shadow a) a.bad b.cx (aheadMover s k (x.shadow a) a.bad b.dx (aheadVector s k (x.shadow a) a.bad b.vx
    (aheadScalar s k (x.shadow a) a.bad .sb b.sb (aheadScalar s k (x.shadow a) a.bad .sa b.sa { y := x.shadow a, bad := a.bad }))))

theorem aheadShadow_buf (b : Bundle) (hx : x.buf.length ≤ 16) : (aheadShadow s k h x a b).y.buf.length ≤ 16 :=
  aheadControl_buf (aheadMover_buf (aheadVector_buf (aheadScalar_buf (aheadScalar_buf hx _ _) _ _) _) _) _

theorem aheadBundle_cases :
    (aheadBundle s k h x a first).1 = x ∨ ∃ b, (aheadBundle s k h x a first).1 = { x with buf := (aheadShadow s k h x a b).y.buf } := by
  unfold aheadBundle
  dsimp only
  cases cachedLine s k (x.shadow a) with
  | none => exact .inl rfl
  | some l =>
    dsimp only
    generalize (if first = true then waitingBundle (Bundle.decode l.bits) else Bundle.decode l.bits) = b
    split
    · exact .inl rfl
    split
    · exact .inl rfl
    · exact .inr ⟨b, rfl⟩

theorem aheadBundle_context : (aheadBundle s k h x a first).1 = { x with buf := (aheadBundle s k h x a first).1.buf } := by
  rcases aheadBundle_cases (s := s) (k := k) (h := h) (x := x) (a := a) (first := first) with heq | ⟨b, heq⟩ <;> rw [heq]

theorem aheadBundle_buf (hx : x.buf.length ≤ 16) : (aheadBundle s k h x a first).1.buf.length ≤ 16 := by
  rcases aheadBundle_cases (s := s) (k := k) (h := h) (x := x) (a := a) (first := first) with heq | ⟨b, heq⟩ <;> rw [heq]
  · exact hx
  · exact aheadShadow_buf b hx

theorem aheadRun_context (n : Nat) (x : Hc) (a : Ahead) (first : Bool) :
    (aheadRun s k h n x a first).1 = { x with buf := (aheadRun s k h n x a first).1.buf } := by
  induction n generalizing x a first with
  | zero => rfl
  | succ m ih =>
    unfold aheadRun
    dsimp only
    split
    · exact aheadBundle_context
    · rw [ih, aheadBundle_context]

theorem aheadRun_buf (n : Nat) (x : Hc) (a : Ahead) (first : Bool) (hx : x.buf.length ≤ 16) :
    (aheadRun s k h n x a first).1.buf.length ≤ 16 := by
  induction n generalizing x a first with
  | zero => exact hx
  | succ m ih =>
    unfold aheadRun
    dsimp only
    split
    · exact aheadBundle_buf hx
    · exact ih _ _ _ (aheadBundle_buf hx)

theorem runAheadEntry_of_issuing {n : Nat} (hissue : canIssue s k h = some x) :
    runAheadEntry s k h n = if regF s .fctCtl 0 k 0 1 = 1 ∧ waitsAhead s k x = true then
      (let r := aheadRun s k h (Nat.min n 64 + 1) x (x.toAhead (x.loads.map (fun l => l.reg.key)) false) true
       bump (hcSet s k h (some { r.1 with st := .runAhead, ahead := some r.2 })) .fctRaEnter 0 k) else s := by
  unfold runAheadEntry
  rw [hissue]

theorem runAheadExit_of_ahead (hget : hcGet s k h = some x) (hst : x.st = .runAhead) :
    runAheadExit s k h = if waitsAhead s k x then s else hcSet s k h (some { x with st := .waiting, ahead := none }) := by
  unfold runAheadExit
  rw [hget]
  dsimp only
  rw [hst]
  cases waitsAhead s k x <;> rfl

end RunAhead

/-! ### A context that stops is written, discarded or waits -/

section Preemption

variable {s : State} {k h : Nat} {x y : Hc} {units : List Nat} (hget : hcGet s k h = some x)

include hget

theorem preemptionComplete_of_busy (hbusy : x.stop = false ∨ spanBusy s k h = true ∨ matrixPending s k h x = true) :
    preemptionComplete s k h units = s := by
  unfold preemptionComplete
  rw [hget]
  refine if_pos ?_
  unfold stepsOver
  rcases hbusy with hbusy | hbusy | hbusy <;> simp [hbusy]

variable (hrun : s.gct.stopped = false) (hstop : x.stop = true) (hspan : spanBusy s k h = false)
  (hmatrix : matrixPending s k h x = false) (hquiet : hcGet (quiesce s k h units) k h = some y)

include hrun hstop hspan hmatrix hquiet

theorem preemptionComplete_to_frame {f : Nat} (hframe : freeFrame (coreGet (quiesce s k h units) k) = some f) :
    preemptionComplete s k h units =
      (let r := storeContext (quiesce s k h units) k h (frameAt k f)
       releaseHeld (frameWritten r.1 k h f r.2 y) k) := by
  unfold preemptionComplete
  rw [hget]
  dsimp only
  rw [if_neg (by simp [hstop, hrun, stepsOver, hspan, hmatrix]), hquiet]
  dsimp only
  rw [hframe]

variable (hnone : freeFrame (coreGet (quiesce s k h units) k) = none)

include hnone

theorem preemptionComplete_of_noFrame (h' : (coreGet s k).evac = false ∨ overflowTurn (coreGet s k) h = false) :
    preemptionComplete s k h units = s := by
  unfold preemptionComplete
  rw [hget]
  dsimp only
  rw [if_neg (by simp [hstop, hrun, stepsOver, hspan, hmatrix]), hquiet]
  dsimp only
  rw [hnone]
  exact if_pos (by simpa using h')

variable (hevac : (coreGet s k).evac = true) (hturn : overflowTurn (coreGet s k) h = true)

include hevac hturn

theorem preemptionComplete_to_overflow {a : Nat} (hplace : overflowAt s k = some a) :
    preemptionComplete s k h units =
      (let r := (storeContext (quiesce s k h units) k h a).1
       releaseHeld (regPutF (keepMarks (freeContext (countPreempt (countStops r k y) k y.ctx) k h) y) .fctEvac 0 k 0 4
         (regF s .fctEvac 0 k 0 4 + 1)) k) := by
  unfold preemptionComplete
  rw [hget]
  dsimp only
  rw [if_neg (by simp [hstop, hrun, stepsOver, hspan, hmatrix]), hquiet]
  dsimp only
  rw [hnone]
  dsimp only
  rw [if_neg (by simp [hevac, hturn]), hplace]

theorem preemptionComplete_discards (hplace : overflowAt s k = none) :
    preemptionComplete s k h units = releaseHeld (discardContext (quiesce s k h units) k h (some 0x20)) k := by
  unfold preemptionComplete
  rw [hget]
  dsimp only
  rw [if_neg (by simp [hstop, hrun, stepsOver, hspan, hmatrix]), hquiet]
  dsimp only
  rw [hnone]
  dsimp only
  rw [if_neg (by simp [hevac, hturn]), hplace]

end Preemption

/-! ### The rows of frames and the scrub -/

section Frames

variable {s : State} {k : Nat}

theorem quantumExpiry_of_due {waiting : Option Nat} (hrun : s.gct.stopped = false) (hactive : coreActive s k = true)
    (hen : regF s .fctCtl 0 k 1 1 ≠ 0) (hrunnable : (runnableFrame (coreGet s k)).isSome = true)
    (hfree : (freeFrame (coreGet s k)).isSome = true) :
    quantumExpiry s k waiting = match waiting with
      | some h => if waiter s k h then choosePreempt s k h else s
      | none => match expired (coreGet s k) with
        | some h => choosePreempt s k h
        | none => s := by
  have hrunnable' := Option.isNone_eq_false_iff.mpr hrunnable
  have hfree' := Option.isNone_eq_false_iff.mpr hfree
  exact if_neg (by simp [hactive, hrun, hen, hrunnable', hfree'])

theorem restoreRow_of_frame {f h : Nat} {tables : List PeerTable} (hrun : s.gct.stopped = false) (hactive : coreActive s k = true)
    (hevac : (coreGet s k).evac = false) (hframe : runnableFrame (coreGet s k) = some f) (hfree : freeHc (coreGet s k) = some h) :
    restoreRow s k tables = restoreInto s k f h tables := by
  unfold restoreRow
  dsimp only
  rw [if_neg (by simp [hrun, hactive, hevac]), hframe, hfree]

theorem restoreRow_of_none {tables : List PeerTable} (hrun : s.gct.stopped = false) (hactive : coreActive s k = true)
    (hevac : (coreGet s k).evac = false) (h : runnableFrame (coreGet s k) = none ∨ freeHc (coreGet s k) = none) :
    restoreRow s k tables = s := by
  unfold restoreRow
  dsimp only
  rw [if_neg (by simp [hrun, hactive, hevac])]
  split
  next hframe hfree =>
    rcases h with h | h
    · cases h.symm.trans hframe
    · cases h.symm.trans hfree
  next => rfl

theorem placeRow_of_core {f : Nat} {image : Bytes} {stores : List (Nat × Bytes)} {set : Option Nat} {born : Option NewContext}
    {tables : List PeerTable} (hrun : s.gct.stopped = false) (hcore : coreActive s k = true ∨ (coreGet s k).evac = true) (hf : f < 6) :
    placeRow s k f image stores set born tables =
      (let ctx := leAt image 0 2
       let s1 := createContext (runtimeStores s stores) ctx born
       let s2 := memWr s1 (frameAt k f) (padTo image 0xA000)
       let s3 := if byteAt image 2 = 0 then marksSet s2 ctx [] else s2
       if frameState s k f ≠ 0 then s1 else leaveReserve (placeFrame (bindSet s3 ctx set) k f tables) k) := by
  have hcore' : (coreActive s k || (coreGet s k).evac) = true := by simpa using hcore
  exact if_neg (by simp [hrun, hcore', hf])

theorem exportRow_of_frame {f : Nat} (hrun : s.gct.stopped = false) :
    exportRow s k f = if frameState s k f ∈ [1, 2, 3] ∧ (coreGet s k).hcs.any (fun h => h.2.heldFrame == some f) = false
      then setFrameState s k f 4 else s := by
  have hguard : (s.gct.stopped || !(frameState s k f == 1 || frameState s k f == 2 || frameState s k f == 3) ||
      frameKept (coreGet s k) f) = true ↔
      ¬ (frameState s k f ∈ [1, 2, 3] ∧ (coreGet s k).hcs.any (fun h => h.2.heldFrame == some f) = false) := by
    rw [show (coreGet s k).hcs.any (fun h => h.2.heldFrame == some f) = frameKept (coreGet s k) f from rfl]
    simp only [hrun, Bool.false_or, Bool.or_eq_true, Bool.not_eq_true', Bool.or_eq_false_iff, beq_eq_false_iff_ne, List.mem_cons,
      List.not_mem_nil, or_false, not_and, Bool.not_eq_false]
    tauto
  unfold exportRow
  dsimp only
  by_cases hgo : frameState s k f ∈ [1, 2, 3] ∧ (coreGet s k).hcs.any (fun h => h.2.heldFrame == some f) = false
  · exact (if_neg (fun hstay => hguard.mp hstay hgo)).trans (if_pos hgo).symm
  · exact (if_pos (hguard.mpr hgo)).trans (if_neg hgo).symm

theorem freeRow_of_run {f : Nat} (hrun : s.gct.stopped = false) :
    freeRow s k f = if frameState s k f = 4 then setFrameState s k f 0 else s := by
  unfold freeRow
  by_cases hst : frameState s k f = 4 <;> simp [hrun, hst]

theorem evacRow_of_run {base : Nat} {done : Bool} (hk : k < 1280) (hrun : s.gct.stopped = false)
    (hvalue : valueOk s (mkReg .fctEvac 0 k) (base % 2 ^ 32 * 2 ^ 16) = true) :
    evacRow s k base done = if done then evacDone (regPutF s .fctEvac 0 k 16 32 base) k else regPutF s .fctEvac 0 k 16 32 base :=
  if_neg (by rw [hvalue]; simp [hk, hrun])

theorem evacDone_of_run (hrun : s.gct.stopped = false) :
    evacDone s k = if (coreGet s k).evac then coreMod s k (fun c => { c with evac := false }) else s := by
  unfold evacDone
  cases hevac : (coreGet s k).evac <;> simp [hrun]

variable {t : State} {ce ue : List Nat}

theorem ringScrub_of_none (hk : k < 1280) (hrun : s.gct.stopped = false)
    (hpass : scrubPass (upsetGranules s (ringGranules k ce) (ringGranules k ue)) (2048 + k) (mkReg .fctScrub 0 k)
      (fun v => msTicks (bitsN v 0 16)) = (none, t)) : ringScrub s k ce ue = t := by
  unfold ringScrub
  rw [if_neg (by simp [hk, hrun])]
  dsimp only
  rw [hpass]

theorem ringScrub_of_due {v : Nat} (hk : k < 1280) (hrun : s.gct.stopped = false)
    (hpass : scrubPass (upsetGranules s (ringGranules k ce) (ringGranules k ue)) (2048 + k) (mkReg .fctScrub 0 k)
      (fun v => msTicks (bitsN v 0 16)) = (some v, t)) :
    ringScrub s k ce ue = if bitN v 16 then
      (faultyGranules t (fun g => inRing (32 * g) && ringCore (32 * g) == k)).foldl touchGranule t else t := by
  unfold ringScrub
  rw [if_neg (by simp [hk, hrun])]
  dsimp only
  rw [hpass]

variable {key first now : Nat} {ticks : Nat → Nat} {x : Scrub}

theorem scrubPassOf_early (hget : fget? s.scrubs key = some x) (hearly : s.idleClock < x.since + ticks x.val) :
    (scrubPassOf s key first now ticks).1 = if x.done then none else some x.val := by
  unfold scrubPassOf
  rw [hget, Option.getD_some]
  dsimp only
  rw [if_neg (Nat.not_le.mpr hearly)]

theorem scrubPassOf_due (hget : fget? s.scrubs key = some x) (hdue : x.since + ticks x.val ≤ s.idleClock) :
    scrubPassOf s key first now ticks =
      (some now, { s with scrubs := finsert s.scrubs key { since := s.idleClock, val := now, done := true } }) := by
  unfold scrubPassOf
  rw [hget, Option.getD_some]
  dsimp only
  rw [if_pos hdue]
  rfl

end Frames

/-- Settles O55: run-ahead by what its shadow keeps, preemption by where the context goes, and each row of frames by its conditions. -/
theorem contextsAndFrames : Obligations.ContextsAndFrames := by
  unfold Obligations.ContextsAndFrames
  refine ⟨fun core hc s x => ?_, fun core s tables => ?_, fun core frame s => ?_, fun core ce ue s t hrun => ?_,
    fun s key first now ticks x hget => ⟨scrubPassOf_early hget, scrubPassOf_due hget⟩⟩
  · intro k h
    refine ⟨fun n hissue => ?_, fun hrun hget hst => ?_, fun units hget hrun => ?_⟩
    · intro r
      have hexec : exec (.runAheadEntry core hc n) s = .next _ := congrArg Host.Outcome.next (runAheadEntry_of_issuing hissue)
      exact ⟨fun hgo => hexec.trans (congrArg Host.Outcome.next (if_pos hgo)), fun hno => hexec.trans (congrArg Host.Outcome.next (if_neg hno)),
        aheadRun_context _ _ _ _, aheadRun_buf _ _ _ _⟩
    · exact congrArg Host.Outcome.next ((whileRunning_running hrun _).trans (runAheadExit_of_ahead hget hst))
    · intro q c
      refine ⟨fun hbusy => congrArg Host.Outcome.next (preemptionComplete_of_busy hget hbusy),
        fun y hstop hspan hmatrix hquiet => ⟨fun f hframe => ?_, fun hnone h' => ?_, fun hnone hevac hturn => ⟨fun a hplace => ?_, fun hplace => ?_⟩⟩⟩
      · intro r
        exact congrArg Host.Outcome.next (preemptionComplete_to_frame hget hrun hstop hspan hmatrix hquiet hframe)
      · exact congrArg Host.Outcome.next (preemptionComplete_of_noFrame hget hrun hstop hspan hmatrix hquiet hnone h')
      · intro r
        exact congrArg Host.Outcome.next (preemptionComplete_to_overflow hget hrun hstop hspan hmatrix hquiet hnone hevac hturn hplace)
      · exact congrArg Host.Outcome.next (preemptionComplete_discards hget hrun hstop hspan hmatrix hquiet hnone hevac hturn hplace)
  · intro k hrun
    refine ⟨fun hactive hen hrunnable hfree => ?_, fun hactive hevac => ⟨fun f h hframe hfree => ?_, fun h => ?_⟩,
      fun frame image stores set born hcrown hcore => ?_⟩
    · have hexec (w : Option (Fin 8)) : exec (.quantumExpiry core w) s = .next _ :=
        congrArg Host.Outcome.next (quantumExpiry_of_due (waiting := w.map Fin.val) hrun hactive hen hrunnable hfree)
      refine ⟨fun h hexpired => (hexec none).trans (congrArg Host.Outcome.next ?_),
        fun hnone => (hexec none).trans (congrArg Host.Outcome.next ?_), fun hc => hexec (some hc)⟩
      · dsimp only [Option.map_none]
        rw [hexpired]
      · dsimp only [Option.map_none]
        rw [hnone]
    · exact congrArg Host.Outcome.next (restoreRow_of_frame hrun hactive hevac hframe hfree)
    · exact congrArg Host.Outcome.next (restoreRow_of_none hrun hactive hevac h)
    · intro ctx s1 s2 s3
      exact congrArg Host.Outcome.next ((whileCrown_runs hcrown _).trans (placeRow_of_core hrun hcore frame.isLt))
  · intro k hcrown hrun kept
    refine ⟨congrArg Host.Outcome.next ((whileCrown_runs hcrown _).trans (exportRow_of_frame hrun)),
      congrArg Host.Outcome.next ((whileCrown_runs hcrown _).trans (freeRow_of_run hrun)), fun base hvalue => ?_⟩
    intro s1
    have hrun1 : s1.gct.stopped = false := by
      rw [regPutF_gct]
      exact hrun
    have hrow (done : Bool) : exec (.evacDone core base done) s = .next (if done then evacDone s1 k else s1) :=
      congrArg Host.Outcome.next ((whileCrown_runs hcrown _).trans (evacRow_of_run core.isLt hrun hvalue))
    rw [hrow false, hrow true, if_neg (by simp), if_pos rfl, evacDone_of_run hrun1]
    exact ⟨rfl, rfl⟩
  · intro at_ pass
    exact ⟨fun hpass => congrArg Host.Outcome.next (ringScrub_of_none core.isLt hrun hpass),
      fun v hpass => congrArg Host.Outcome.next (ringScrub_of_due core.isLt hrun hpass)⟩

end Sys2Proof.Machine

/-! PROOF. Fault service: a translation unit whose table lists two entries under one number. The statement speaks of every state, and so of
tables outside the canonical form of log 3, in which a lookup finds the first entry. -/

namespace Sys2Proof.Machine

/-- A cached leaf of a context, over its page 0. -/
def leafOfContext (ctx : Nat) : CachedLeaf := { ctx := ctx, page := 0, level := 3, entry := 0 }

/-- Unit 0 is listed twice: a lookup finds the leaf of context 1. -/
def unitListedTwice : State :=
  { State.reset with facet := { State.reset.facet with
      units := [(0, { leaves := [leafOfContext 1], ptrs := [] }), (0, { leaves := [leafOfContext 2], ptrs := [] })] } }

theorem unitListedTwice_idle : regF unitListedTwice .xltInval 0 0 50 1 = 0 := by decide +kernel

theorem unitListedTwice_leaves : (unitGet unitListedTwice 0).leaves = [leafOfContext 1] := by decide +kernel

/-- The invalidation of context 1 empties the first entry, which leaves the table, and a lookup finds the second one. -/
theorem unitListedTwice_invalidated :
    (unitGet (xltInvalidate unitListedTwice (.context 1)) 0).leaves = [leafOfContext 2] := by decide +kernel

/-- Refutes O56: an invalidation that empties a unit's first entry removes it from the table, and where the table lists the unit twice the
second entry's leaf stands in the unit afterwards, which did not stand there before. -/
theorem not_faultService : ¬ Obligations.FaultService := by
  unfold Obligations.FaultService
  rintro ⟨-, -, -, hinval, -⟩
  obtain ⟨-, hidle⟩ := hinval unitListedTwice (.context 1)
  obtain ⟨-, hleaves⟩ := hidle unitListedTwice_idle
  obtain ⟨hold, -⟩ := hleaves 0 (leafOfContext 2) (by rw [unitListedTwice_invalidated]; exact List.mem_singleton_self _)
  rw [unitListedTwice_leaves] at hold
  exact absurd hold (by decide)

end Sys2Proof.Machine

/-! PROOF. The HBM controllers: what each row does under its conditions, retirement first. -/

namespace Sys2Proof.Machine

section Hbm

variable {s t : State} {st p : Nat}

/-- The start of a retirement: of an ACTIVE pseudo-channel it waits for the rebuild that runs, unmaps the lines, or starts a rebuild. -/
theorem startRetire_of_place (hst : st < 8) (hp : p < 32) :
    startRetire s st p =
      if pcState s st p ≠ 0 then s
      else if rebuilding s st then { s with facet := { s.facet with rebuildWait := fmodD [] s.facet.rebuildWait st (fun l => addOnce l p) } }
      else if regF s .hbmStatus 0 st 16 2 = 2 then
        recordPcs (regPutF (regPutF s .hbmPcState 0 st (2 * p) 2 3) .hbmStatus 0 st 18 1 1) st
      else
        let t := recovery (regPutF (regPutF s .hbmPcState 0 st (2 * p) 2 1) .hbmStatus 0 st 10 6 (p + 32))
        { t with facet := { t.facet with rebuilt := ferase t.facet.rebuilt st } } := by
  unfold startRetire
  exact if_congr (by simp [hst, hp]) rfl rfl

theorem ceExceeded_iff {e : PcErrors} :
    ceExceeded s st e = true ↔ ∃ x ∈ e.ces, ∀ i < 10, regF s .hbmCtl 0 st 16 16 < fgetD 0 e.ces (x.1 + i) := by
  unfold ceExceeded
  simp only [List.any_eq_true, List.all_eq_true, List.mem_range, decide_eq_true_eq]

theorem pcRetirement_uncorrected : pcRetirement s st p 0 =
    if regF s .hbmCtl 0 st 0 1 = 1 ∧ regF s .hbmCtl 0 st 8 8 ≤ (fgetD PcErrors.none_ s.facet.pcErrors (32 * st + p)).ues.length then
      startRetire s st p else s := by
  unfold pcRetirement
  exact if_congr (by simp) rfl rfl

theorem pcRetirement_corrected : pcRetirement s st p 1 =
    if regF s .hbmCtl 0 st 0 1 = 1 ∧ ceExceeded s st (fgetD PcErrors.none_ s.facet.pcErrors (32 * st + p)) = true then
      startRetire s st p else s := by
  unfold pcRetirement
  exact if_congr (by simp) rfl rfl

theorem pcRetirement_of_fault (cause : Nat) : pcRetirement s st p (cause + 2) = startRetire s st p := rfl

theorem hbmRetire_of_place (hp : p < 32) : hbmRetire s st (p + 32) = startRetire s st p := by
  have hvalid : ∀ q : Fin 32, bitN (q.val + 32) 5 = true := by decide
  unfold hbmRetire
  rw [if_pos (hvalid ⟨p, hp⟩), Nat.add_mod_right, Nat.mod_eq_of_lt hp]

variable {ce ue : List Nat}

theorem hbmScrub_of_none (hpass : scrubPass (upsetGranules s (stackGranules st ce) (stackGranules st ue)) (16 + st) (mkReg .hbmScrub 0 st)
      (fun v => msTicks (60000 * bitsN v 0 11)) = (none, t)) : hbmScrub s st ce ue = t := by
  unfold hbmScrub
  dsimp only
  rw [hpass]

theorem hbmScrub_of_due {v : Nat} (hpass : scrubPass (upsetGranules s (stackGranules st ce) (stackGranules st ue)) (16 + st)
      (mkReg .hbmScrub 0 st) (fun v => msTicks (60000 * bitsN v 0 11)) = (some v, t)) :
    hbmScrub s st ce ue = if bitN v 11 then
      (faultyGranules t (fun g => inHbm (32 * g) && hbmStack (32 * g) == st)).foldl touchGranule t else t := by
  unfold hbmScrub
  dsimp only
  rw [hpass]

theorem rebuildComplete_of_idle {lost : List Nat} (hidle : rebuilding s st = false) : rebuildComplete s st lost = s :=
  if_pos (by simp [hidle])

theorem rebuildComplete_guard (hst : st < 8) (hrebuild : rebuilding s st = true) : ¬ (decide (8 ≤ st) || !rebuilding s st) = true := by
  simp [hrebuild, hst]

variable {r : Nat}

/-- A mirror region is not copied while it is in step, not set up, of an odd stack, or while a rebuild runs on one of the two stacks. -/
theorem mirrorSync_guard (hst : st < 8) (hr : r < 8) :
    (decide (8 ≤ st) || decide (8 ≤ r) || decide (st % 2 = 1) || !bitN (regN s .hbmMir r st) 0 || regF s .hbmMir r st 1 1 == 1 ||
        rebuilding s st || rebuilding s (st + 1)) = true ↔
      st % 2 = 1 ∨ bitN (regN s .hbmMir r st) 0 = false ∨ regF s .hbmMir r st 1 1 = 1 ∨ rebuilding s st = true ∨
        rebuilding s (st + 1) = true := by
  simp [Nat.not_le.mpr hst, Nat.not_le.mpr hr, or_assoc]

end Hbm

/-- Settles O57: each row of the HBM controllers by its conditions. -/
theorem hbmService : Obligations.HbmService := by
  unfold Obligations.HbmService
  refine ⟨fun stack s => rfl, fun stack ce ue s t hrun => ?_, fun stack pc s => ?_, fun stack lost s => ?_,
    fun stack range base size s row => ?_, fun stack range s => ?_⟩
  · intro st at_ pass
    have hrow {u : State} (h : hbmScrub s st ce ue = u) : exec (.hbmScrub stack ce ue) s = .next u :=
      congrArg Host.Outcome.next ((whileRunning_running hrun _).trans h)
    exact ⟨fun hpass => hrow (hbmScrub_of_none hpass), fun v hpass => hrow (hbmScrub_of_due hpass)⟩
  · intro st p hrun e auto uncorrected corrected begun
    have hbegun : startRetire s st p = begun := startRetire_of_place stack.isLt pc.isLt
    have hrow (cause : Nat) : exec (.pcRetirement stack pc cause) s = .next (pcRetirement s st p cause) :=
      congrArg Host.Outcome.next (whileRunning_running hrun _)
    have hue : pcRetirement s st p 0 = if uncorrected then begun else s := hbegun ▸ pcRetirement_uncorrected
    have hce : pcRetirement s st p 1 = if corrected then begun else s :=
      pcRetirement_corrected.trans (if_congr (and_congr_right fun _ => ceExceeded_iff) hbegun rfl)
    refine ⟨fun h => (hrow 0).trans ?_, fun h => (hrow 0).trans ?_, fun h => (hrow 1).trans ?_, fun h => (hrow 1).trans ?_,
      fun cause hcause => ?_, fun hcrown => ?_⟩
    · rw [hue, if_pos h]
    · rw [hue, if_neg h]
    · rw [hce, if_pos h]
    · rw [hce, if_neg h]
    · obtain ⟨n, rfl⟩ := Nat.exists_eq_add_of_le' hcause
      exact (hrow _).trans (congrArg Host.Outcome.next ((pcRetirement_of_fault n).trans hbegun))
    · exact congrArg Host.Outcome.next ((whileCrown_runs hcrown _).trans ((hbmRetire_of_place pc.isLt).trans hbegun))
  · intro st hrun
    have hrow : exec (.rebuildComplete stack lost) s = .next (rebuildComplete s st lost) :=
      congrArg Host.Outcome.next (whileRunning_running hrun _)
    exact ⟨fun hidle => hrow.trans (congrArg Host.Outcome.next (rebuildComplete_of_idle hidle)),
      fun hrebuild => hrow.trans (congrArg Host.Outcome.next (if_neg (rebuildComplete_guard stack.isLt hrebuild)))⟩
  · intro v htakes
    exact congrArg Host.Outcome.next (rowWrite_takes htakes)
  · intro v hrun held
    have hrow : exec (.mirrorSync stack range) s = .next (mirrorSync s stack.val range.val) :=
      congrArg Host.Outcome.next (whileRunning_running hrun _)
    exact ⟨fun hheld => hrow.trans (congrArg Host.Outcome.next (if_pos ((mirrorSync_guard stack.isLt range.isLt).mpr hheld))),
      fun hfree => hrow.trans (congrArg Host.Outcome.next (if_neg fun h => hfree ((mirrorSync_guard stack.isLt range.isLt).mp h)))⟩

end Sys2Proof.Machine

/-! PROOF. Span links: what each row of a link does under its conditions. -/

namespace Sys2Proof.Machine

section Links

variable {s : State} {k : Nat} {row : RegRow} {v : Nat}

/-- A write of SPN_LINK_k that sets EN and no RETRAIN. -/
theorem applyWrite_linkEnable (hen : bitN v 0 = true) (hretrain : bitN v 2 = false) :
    applyWrite s row (mkReg .spnLink k 0) v =
      linkEnable (plainWrite s row (mkReg .spnLink k 0) (setBitN v 0 (bitN (regN s .spnLink k 0) 0))) k := by
  change afterSpnLink (plainWrite s row (mkReg .spnLink k 0) (setBitN v 0 (bitN (regN s .spnLink k 0) 0))) k v = _
  unfold afterSpnLink
  simp only [hen, hretrain, if_true, Bool.false_eq_true, if_false]

/-- A write of SPN_LINK_k that sets EN and RETRAIN. -/
theorem applyWrite_linkRetrain (hen : bitN v 0 = true) (hretrain : bitN v 2 = true) :
    applyWrite s row (mkReg .spnLink k 0) v =
      linkRetrain (linkEnable (plainWrite s row (mkReg .spnLink k 0) (setBitN v 0 (bitN (regN s .spnLink k 0) 0))) k) k := by
  change afterSpnLink (plainWrite s row (mkReg .spnLink k 0) (setBitN v 0 (bitN (regN s .spnLink k 0) 0))) k v = _
  unfold afterSpnLink
  simp only [hen, hretrain, if_true]

/-- The values that LINK_ENABLE and LINK_RETRAIN write: EN is bit 0, RETRAIN bit 2. -/
theorem linkEnable_bits (x : Nat) : bitN (x % 4 / 2 * 2 + 1) 0 = true ∧ bitN (x % 4 / 2 * 2 + 1) 2 = false := by
  have hlow : x % 4 / 2 = 0 ∨ x % 4 / 2 = 1 := by omega
  rcases hlow with h | h <;> rw [h] <;> exact ⟨rfl, rfl⟩

theorem linkRetrain_bit (x : Nat) : bitN (x % 4 + 4) 2 = true := by
  have hlow : ∀ y : Fin 4, bitN (y.val + 4) 2 = true := by decide
  exact hlow ⟨x % 4, Nat.mod_lt _ (by decide)⟩

theorem mayTrain_iff (hk : k < 8) : mayTrain s k = true ↔
    regF s .spnLink k 0 0 1 = 1 ∧ (linkState s k = 1 ∨ (linkState s k = 0 ∧ regF s .spnId 0 0 38 1 = 1)) := by
  unfold mayTrain
  simp [hk]

theorem linkTrained_of_not {peer : Nat} {bad : Option (Fin 4)} (h : mayTrain s k = false) : linkTrained s k peer bad = s :=
  if_pos (by rw [h]; rfl)

/-- A training: the faulty lane is marked first, and the link comes up on the lanes that are left. -/
theorem linkTrained_of_may {peer : Nat} {bad : Option (Fin 4)} (h : mayTrain s k = true) :
    linkTrained s k peer bad =
      let judged := if (linkGet s k).resume then s else regPutF s .spnLink k 0 11 4 0
      let marked := match bad with
        | some n => bump (regPutF judged .spnLink k 0 (11 + n.val) 1 1) .spnSpare k 0
        | none => judged
      trained marked k (peer % 256) (regF marked .spnLink k 0 11 4 != 0) := by
  have hguard : ¬ (!mayTrain s k) = true := by rw [h]; decide
  cases bad <;> exact if_neg hguard

theorem trained_eq (peer : Nat) {three : Bool} {up : State} {l : SpanLink}
    (hup : up = routesBack (regPutF (setLinkState s k (if three then 3 else 2)) .spnLink k 0 16 8 peer) k) (hl : l = linkGet up k) :
    trained s k peer three =
      let t := if l.resume then replayLink (linkSet up k { l with resume := false, lastRx := s.clock }) k
        else linkSet up k { SpanLink.reset with credits := [(0, 192), (1, 192), (2, 256), (3, 256), (4, 128)], lastRx := s.clock }
      sendHeld (linkPump t k (linkGet t k).waiting.length) := by
  subst hl hup
  rfl

theorem laneFault_of_skip {lane : Fin 4} (h : linkState s k = 0 ∨ regF s .spnLink k 0 (11 + lane.val) 1 = 1) : laneFault s k lane = s :=
  if_pos (by rcases h with h | h <;> simp [h])

theorem laneFault_of_mark {lane : Fin 4} (hk : k < 8) (hstate : linkState s k ≠ 0) (hlane : regF s .spnLink k 0 (11 + lane.val) 1 ≠ 1) :
    laneFault s k lane = if regF s .spnLink k 0 11 4 ≠ 0 then linkDown (regPutF s .spnLink k 0 (11 + lane.val) 1 1) k
      else if linkState s k = 2 then
        recovery (linkMod (setLinkState (regPutF s .spnLink k 0 (11 + lane.val) 1 1) k 1) k (fun l => { l with resume := true }))
      else regPutF s .spnLink k 0 (11 + lane.val) 1 1 :=
  if_neg (by simp [hk, hstate, hlane])

theorem retrainComplete_of_skip {ok : Bool} (h : linkState s k ≠ 1 ∨ (linkGet s k).resume = false) : retrainComplete s k ok = s :=
  if_pos (by rcases h with h | h <;> simp [h])

theorem retrainComplete_guard (hk : k < 8) (hstate : linkState s k = 1) (hresume : (linkGet s k).resume = true) :
    ¬ (decide (8 ≤ k) || linkState s k != 1 || !(linkGet s k).resume) = true := by
  simp [hk, hstate, hresume]

/-- A retraining that is due completes on the lanes without a fault. -/
theorem retrainComplete_of_due (hk : k < 8) (hstate : linkState s k = 1) (hresume : (linkGet s k).resume = true) {three : Bool}
    (hthree : (regF s .spnLink k 0 11 4 != 0) = three) :
    retrainComplete s k true = if three then bump (trained s k (regF s .spnLink k 0 16 8) three) .spnSpare k 0
      else trained s k (regF s .spnLink k 0 16 8) three := by
  subst hthree
  exact if_neg (retrainComplete_guard hk hstate hresume)

theorem link_of_down (h : linkUp s k = false) : linkSilence s k = s ∧ flitFailure s k = s ∧ (∀ seq : Nat, retryReq s k seq = s) ∧
    ∀ (ack : Option Nat) (vc n : Nat), ackAndCredit s k ack vc n = s := by
  have hguard : (!linkUp s k) = true := by rw [h]; rfl
  exact ⟨if_neg (by simp [h]), if_pos hguard, fun _ => if_pos hguard, fun _ _ _ => if_pos hguard⟩

theorem up_guard (h : linkUp s k = true) : ¬ (!linkUp s k) = true := by rw [h]; decide

theorem linkSilence_of_up (h : linkUp s k = true) :
    linkSilence s k = if (linkGet s k).lastRx + 1250 * regF s .spnCtl 0 0 32 8 ≤ s.clock then linkDown s k else s :=
  if_congr (by simp [h]) rfl rfl

/-- What an acknowledgement frees: as many flits as the one that it names and those before it. -/
theorem ackedFlits_of_found {l : SpanLink} {i seq : Nat} (h : l.replay.findIdx? (fun f => f.seq == seq % 4096) = some i) :
    ackedFlits l seq = i + 1 := by
  unfold ackedFlits
  rw [h]

theorem ackAndCredit_of_up {ack : Option Nat} {vc n : Nat} (hvc : vc < 5) (h : linkUp s k = true) :
    ackAndCredit s k ack vc n =
      let l := linkGet s k
      let gone := (ack.map (ackedFlits l)).getD 0
      sendHeld (linkPump (linkSet s k { l with
        replay := l.replay.drop gone, retries := if gone = 0 then l.retries else 0, lastRx := s.clock,
        credits := fmodD 0 l.credits vc (fun c => Nat.min (c + n) (vcShare vc)) }) k l.waiting.length) := by
  unfold ackAndCredit
  rw [if_neg (up_guard h)]
  dsimp only
  rw [if_pos hvc]

end Links

/-- Settles O58: each row of a link by the state of the link. -/
theorem spanLinks : Obligations.SpanLinks := by
  unfold Obligations.SpanLinks
  refine ⟨fun link s row => ?_, fun link peer bad s => ?_, fun link lane s => ?_, fun link s => ?_, fun link s => ?_,
    fun l i seq => ackedFlits_of_found⟩
  · intro k
    have hbits := linkEnable_bits (regN s .spnLink k 0)
    obtain ⟨hen, hplain⟩ := hbits
    refine ⟨fun htakes => ?_, fun hset htakes => ?_⟩
    · exact congrArg Host.Outcome.next ((rowWrite_takes htakes).trans (applyWrite_linkEnable hen hplain))
    · exact congrArg Host.Outcome.next ((rowWrite_takes htakes).trans (applyWrite_linkRetrain hset (linkRetrain_bit _)))
  · intro k trains
    have hmay : mayTrain s k = true ↔ trains := mayTrain_iff link.isLt
    refine ⟨fun hno => ?_, fun htrains => ?_⟩
    · exact congrArg Host.Outcome.next (linkTrained_of_not (Bool.eq_false_iff.mpr (mt hmay.mp hno)))
    · intro judged s1 up l t
      have hup : up = routesBack (regPutF (setLinkState s1 k (if regF s1 .spnLink k 0 11 4 != 0 then 3 else 2)) .spnLink k 0 16 8 (peer % 256)) k :=
        congrArg (fun m => routesBack (regPutF (setLinkState s1 k m) .spnLink k 0 16 8 (peer % 256)) k) (if_congr (by simp) rfl rfl)
      exact congrArg Host.Outcome.next ((linkTrained_of_may (hmay.mpr htrains)).trans (trained_eq (peer % 256) hup rfl))
  · intro k
    exact ⟨fun h => congrArg Host.Outcome.next (laneFault_of_skip h),
      fun hstate hlane => congrArg Host.Outcome.next (laneFault_of_mark link.isLt hstate hlane)⟩
  · intro k
    refine ⟨fun h ok => congrArg Host.Outcome.next (retrainComplete_of_skip h), fun hstate hresume => ?_⟩
    have hdone {three : Bool} := retrainComplete_of_due (three := three) link.isLt hstate hresume
    exact ⟨fun hlanes => congrArg Host.Outcome.next (hdone (bne_iff_ne.mpr hlanes)),
      fun hlanes => congrArg Host.Outcome.next (hdone (bne_eq_false_iff_eq.mpr hlanes)),
      congrArg Host.Outcome.next (if_neg (retrainComplete_guard link.isLt hstate hresume))⟩
  · intro k l
    refine ⟨fun hdown => ?_, fun hup => ⟨fun hsilent => ?_, fun hheard => ?_, ?_, fun seq => ?_, fun ack vc n => ?_⟩⟩
    · obtain ⟨hsilence, hflit, hretry, hack⟩ := link_of_down hdown
      exact ⟨congrArg Host.Outcome.next hsilence, congrArg Host.Outcome.next hflit, fun seq => congrArg Host.Outcome.next (hretry seq),
        fun ack vc n => congrArg Host.Outcome.next (hack ack vc.val n)⟩
    · exact congrArg Host.Outcome.next ((linkSilence_of_up hup).trans (if_pos hsilent))
    · exact congrArg Host.Outcome.next ((linkSilence_of_up hup).trans (if_neg (Nat.not_le.mpr hheard)))
    · exact congrArg Host.Outcome.next (if_neg (up_guard hup))
    · exact congrArg Host.Outcome.next (if_neg (up_guard hup))
    · cases ack <;> exact congrArg Host.Outcome.next (ackAndCredit_of_up vc.isLt hup)

end Sys2Proof.Machine

/-! PROOF. Span messages and routes: a message arrives, and then a request is served, a response taken, or a control message acted on. -/

namespace Sys2Proof.Machine

/-! ### Requests and responses -/

section Messages

variable {s t : State} {k vc : Nat} {m : SpanMsg}

/-- A message that is no control message arrives where its link is up, the islands run and it is no longer than a message may be. -/
theorem arrives_iff (htype : m.mtype ≠ 0x10) :
    arrives s k m = true ↔ linkUp s k = true ∧ s.gct.stopped = false ∧ m.data.length ≤ 8192 := by
  unfold arrives
  simp [htype, and_assoc]

theorem not_arrives (htype : m.mtype ≠ 0x10) (h : linkUp s k = false ∨ s.gct.stopped = true ∨ 8192 < m.data.length) :
    (!arrives s k m) = true := by
  rw [Bool.not_eq_true', Bool.eq_false_iff]
  intro harrives
  obtain ⟨hup, hrun, hlength⟩ := (arrives_iff htype).mp harrives
  rcases h with h | h | h
  · exact absurd (hup.symm.trans h) (by decide)
  · exact absurd (hrun.symm.trans h) (by decide)
  · omega

theorem arrives_guard (htype : m.mtype ≠ 0x10) (hup : linkUp s k = true) (hrun : s.gct.stopped = false) (hlength : m.data.length ≤ 8192) :
    ¬ (!arrives s k m) = true := by
  rw [(arrives_iff htype).mpr ⟨hup, hrun, hlength⟩]
  decide

theorem requestArrives_cases (htype : m.mtype ≠ 0x10) :
    (linkUp s k = false ∨ s.gct.stopped = true ∨ 8192 < m.data.length → requestArrives s k vc m = s) ∧
      (linkUp s k = true → s.gct.stopped = false → m.data.length ≤ 8192 →
        (m.dst ≠ ownId s → requestArrives s k vc m = forward (linkReceive s k vc m.flits) vc m) ∧
        (m.dst = ownId s → requestArrives s k vc m =
          if m.mtype = 1 then serveWrite (spanEvent (linkReceive s k vc m.flits) true k m) m
          else serveRead (spanEvent (linkReceive s k vc m.flits) true k m) m)) := by
  refine ⟨fun h => if_pos (not_arrives htype h), fun hup hrun hlength => ?_⟩
  unfold requestArrives
  rw [if_neg (arrives_guard htype hup hrun hlength)]
  exact ⟨fun h => if_pos h, fun h => if_neg (not_not.mpr h)⟩

theorem responseArrives_cases (htype : m.mtype ≠ 0x10) :
    (linkUp s k = false ∨ s.gct.stopped = true ∨ 8192 < m.data.length → responseArrives s k vc m = s) ∧
      (linkUp s k = true → s.gct.stopped = false → m.data.length ≤ 8192 →
        (m.dst ≠ ownId s → responseArrives s k vc m = forward (linkReceive s k vc m.flits) vc m) ∧
        (m.dst = ownId s → responseArrives s k vc m = takeResponse (spanEvent (linkReceive s k vc m.flits) true k m) m)) := by
  refine ⟨fun h => if_pos (not_arrives htype h), fun hup hrun hlength => ?_⟩
  unfold responseArrives
  rw [if_neg (arrives_guard htype hup hrun hlength)]
  exact ⟨fun h => if_pos h, fun h => if_neg (not_not.mpr h)⟩

theorem serve_of_outside (h : inWindow s m.ctx = false) :
    serveWrite s m = respond s m 3 0x31 [] ∧ serveRead s m = respond s m 4 0x31 [] :=
  ⟨if_pos (by rw [h]; rfl), if_pos (by rw [h]; rfl)⟩

section Inside

variable {l : List (SpanRange × List (Nat × Nat))} {e : Nat}

theorem serveWrite_of_translated (h : inWindow s m.ctx = true)
    (htrans : translateRanges s m.ctx .w (parseRanges true m.data 128) = (.ok l, t)) :
    serveWrite s m = respond (l.foldl (fun t e => writeRange t e.1 e.2) t) m 3 0 [] := by
  unfold serveWrite
  rw [if_neg (by rw [h]; decide), htrans]

theorem serveRead_of_translated (h : inWindow s m.ctx = true)
    (htrans : translateRanges s m.ctx .r (parseRanges false m.data 128) = (.ok l, t)) :
    serveRead s m = respond (readPieces t (l.flatMap (fun e => e.2))).2.2 m 4
      (if (readPieces t (l.flatMap (fun e => e.2))).2.1 then 0x60 else 0) (readPieces t (l.flatMap (fun e => e.2))).1 := by
  unfold serveRead
  rw [if_neg (by rw [h]; decide), htrans]

theorem serveWrite_of_error (h : inWindow s m.ctx = true)
    (htrans : translateRanges s m.ctx .w (parseRanges true m.data 128) = (.error e, t)) : serveWrite s m = respond t m 3 e [] := by
  unfold serveWrite
  rw [if_neg (by rw [h]; decide), htrans]

theorem serveRead_of_error (h : inWindow s m.ctx = true)
    (htrans : translateRanges s m.ctx .r (parseRanges false m.data 128) = (.error e, t)) : serveRead s m = respond t m 4 e [] := by
  unfold serveRead
  rw [if_neg (by rw [h]; decide), htrans]

end Inside

/-! ### A response and the transfer that waits for it -/

theorem takeResponse_of_none (h : requestOf s m = none) : takeResponse s m = s := by
  unfold takeResponse
  rw [h]

/-- The requests but those with the transaction of one that ends. -/
def withoutRequest (s : State) (r : SpanReq) : State :=
  { s with span := { s.span with reqs := s.span.reqs.filter (fun q => q.msg.xid != r.msg.xid) } }

variable {r : SpanReq} {f : Xfer}

section Waiting

variable (hreq : requestOf s m = some r) (hxfer : xferOf (withoutRequest s r) r.core r.hc r.tag = some f)
include hreq hxfer

theorem takeResponse_of_write (htype : m.mtype = 3) :
    takeResponse s m = if m.status ≠ 0 then endRequest s r m.status
      else xferKick (unitDone (withoutRequest s r) r.core r.hc r.tag r.ctx f
        ((parseRanges true r.msg.data 128).foldl (fun a e => a + e.len) 0) 0 0 false) r.core r.hc r.tag := by
  unfold withoutRequest at hxfer ⊢
  unfold takeResponse
  rw [hreq]
  dsimp only
  rw [hxfer]
  exact if_pos htype

theorem takeResponse_of_read_failed (htype : m.mtype = 4) (hstatus : m.status ≠ 0) (hpoison : m.status ≠ 0x60) :
    takeResponse s m = endRequest s r m.status := by
  unfold withoutRequest at hxfer
  unfold takeResponse
  rw [hreq]
  dsimp only
  rw [hxfer]
  dsimp only
  rw [if_neg (by rw [htype]; decide), if_pos ⟨hstatus, hpoison⟩]

variable (htype : m.mtype = 4) (hstatus : m.status = 0 ∨ m.status = 0x60)
include htype hstatus

theorem takeResponse_of_read_done {bytes fill drop : Nat} {bad : Bool}
    (harrived : getArrive (withoutRequest s r) r.core r.ctx f m.data (decide (m.status = 0x60)) = (.ok bytes fill drop bad, t)) :
    takeResponse s m = xferKick (unitDone t r.core r.hc r.tag r.ctx f bytes fill drop bad) r.core r.hc r.tag := by
  unfold withoutRequest at hxfer harrived
  unfold takeResponse
  rw [hreq]
  dsimp only
  rw [hxfer]
  dsimp only
  rw [if_neg (by rw [htype]; decide), if_neg (by omega), harrived]

theorem takeResponse_of_read_refused
    (harrived : getArrive (withoutRequest s r) r.core r.ctx f m.data (decide (m.status = 0x60)) = (.refused, t)) :
    takeResponse s m = xferEnd t r.core r.hc r.tag 0x31 := by
  unfold withoutRequest at hxfer harrived
  unfold takeResponse
  rw [hreq]
  dsimp only
  rw [hxfer]
  dsimp only
  rw [if_neg (by rw [htype]; decide), if_neg (by omega), harrived]

end Waiting

/-! ### Timeouts and routes -/

theorem requestTimeout_of_none {xid : Nat} (h : s.span.reqs.find? (fun r => r.msg.xid == xid) = none) : requestTimeout s xid = s := by
  unfold requestTimeout
  rw [h]

theorem requestTimeout_of_some {xid : Nat} (h : s.span.reqs.find? (fun r => r.msg.xid == xid) = some r) :
    requestTimeout s xid =
      if fget? s.span.halted r.msg.dst ≠ none ∨ ¬ r.since + 1250 * regF s .spnCtl 0 0 16 16 ≤ s.clock then s
      else bump (endRequest s r 0x50) .spnTimeout 0 0 := by
  unfold requestTimeout
  rw [h]
  exact if_congr (by rw [Bool.or_eq_true, decide_eq_true_eq, Option.isSome_iff_ne_none, Nat.not_le]; rfl) rfl rfl

theorem moveWaits_iff {d par : Nat} : moveWaits s d par = true ↔
    fget? s.span.moves (moveKey d par) = some false ∨
      (fget? s.span.moves (moveKey d par) = none ∧ ∃ k, primaryOf (routeHalf s d par) = some k ∧ linkUsable s k = false) := by
  unfold moveWaits
  cases hmove : fget? s.span.moves (moveKey d par) with
  | some used => simp
  | none => simp [Option.any_eq_true]

/-- A request that was sent over a link to a destination, under a parity, and has had no answer. -/
theorem openRequest_iff {d par : Nat} {old : Option Nat} :
    s.span.reqs.any (fun r => r.msg.dst == d && r.msg.epar % 2 == par && r.link.isSome && r.link == old) = true ↔
      ∃ r ∈ s.span.reqs, r.msg.dst = d ∧ r.msg.epar % 2 = par ∧ r.link ≠ none ∧ r.link = old := by
  simp [and_assoc, Option.isSome_iff_ne_none]

theorem routeMove_eq {d par : Nat} (hd : d < 64) (hpar : par < 2) :
    routeMove s d par =
      if !moveWaits s d par then s
      else if s.span.reqs.any (fun r => r.msg.dst == d && r.msg.epar % 2 == par && r.link.isSome && r.link == primaryOf (routeHalf s d par))
      then s
      else sendHeld { s with span := { s.span with moves := finsert s.span.moves (2 * d + par) true } } := by
  unfold routeMove
  rw [Nat.mod_eq_of_lt hd, Nat.mod_eq_of_lt hpar, moveKey, Nat.mod_eq_of_lt hpar]

end Messages

/-! ### Control messages -/

section Control

variable {s : State} {k : Nat} {h : CtlHead} {data : Bytes} {act : State → State}

/-- A control message as it arrives (R471). -/
def controlMsg (h : CtlHead) (data : Bytes) : SpanMsg :=
  { mtype := 0x10, src := h.src % 64, epar := h.epoch % 2, dst := h.dst % 64, status := 0, msgid := h.msgid, ctx := 0, xid := 0, data := data }

theorem controlArrives_of_down (hdown : linkUp s k = false) : controlArrives s k h data act = s :=
  if_pos (by rw [hdown]; rfl)

theorem controlArrives_elsewhere (hup : linkUp s k = true) (hdst : h.dst % 64 ≠ ownId s) :
    controlArrives s k h data act = forward (linkReceive s k 4 1) 4 (controlMsg h data) :=
  (if_neg (up_guard hup)).trans (if_pos hdst)

theorem controlArrives_here (hup : linkUp s k = true) (hdst : h.dst % 64 = ownId s) :
    controlArrives s k h data act = act (spanEvent (linkReceive s k 4 1) true k (controlMsg h data)) :=
  (if_neg (up_guard hup)).trans (if_neg (not_not.mpr hdst))

end Control

/-- Settles O59: each message by how it arrives and by what this module then does with it. -/
theorem spanMessages : Obligations.SpanMessages := by
  unfold Obligations.SpanMessages
  refine ⟨fun link vc m s => ?_, fun s t m => ⟨serve_of_outside, fun hin l => ⟨serveWrite_of_translated hin, serveRead_of_translated hin⟩,
      fun hin e => ⟨serveWrite_of_error hin, serveRead_of_error hin⟩, fun mtype status data => rfl⟩,
    fun s m => ⟨takeResponse_of_none, fun r f hreq => ?_⟩, fun xid s hrun => ?_, fun dst par s => ?_, fun link h s => ?_, fun link h s => ?_⟩
  · intro k rows
    have hnext {i : Instr} {c away here : Prop} {t u v : State} (hexec : exec i s = .next t)
        (h : (c → t = s) ∧ (linkUp s k = true → s.gct.stopped = false → m.data.length ≤ 8192 → (away → t = u) ∧ (here → t = v))) :
        (c → exec i s = .next s) ∧ (linkUp s k = true → s.gct.stopped = false → m.data.length ≤ 8192 →
          (away → exec i s = .next u) ∧ (here → exec i s = .next v)) := by
      obtain ⟨hskip, hgo⟩ := h
      rw [hexec]
      refine ⟨fun hc => congrArg Host.Outcome.next (hskip hc), fun hup hrun hlength => ?_⟩
      obtain ⟨haway, hhere⟩ := hgo hup hrun hlength
      exact ⟨fun hdst => congrArg Host.Outcome.next (haway hdst), fun hdst => congrArg Host.Outcome.next (hhere hdst)⟩
    exact ⟨hnext rfl (requestArrives_cases (m := { m with mtype := 1 }) (by simp)),
      hnext rfl (requestArrives_cases (m := { m with mtype := 2 }) (by simp)),
      hnext rfl (responseArrives_cases (m := { m with mtype := 3 }) (by simp)),
      hnext rfl (responseArrives_cases (m := { m with mtype := 4 }) (by simp))⟩
  · intro s1 fin hxfer
    exact ⟨takeResponse_of_write hreq hxfer, takeResponse_of_read_failed hreq hxfer, fun htype hstatus t =>
      ⟨fun _ _ _ _ harrived => takeResponse_of_read_done hreq hxfer htype hstatus harrived,
        fun harrived => takeResponse_of_read_refused hreq hxfer htype hstatus harrived⟩⟩
  · have hrow {t : State} (h : requestTimeout s xid = t) : exec (.requestTimeout xid) s = .next t :=
      congrArg Host.Outcome.next ((whileRunning_running hrun _).trans h)
    refine ⟨fun hnone => hrow (requestTimeout_of_none hnone), fun r hsome => ?_⟩
    intro due
    have heq := requestTimeout_of_some hsome
    refine ⟨fun hgoing hdue => hrow (heq.trans (if_neg ?_)), fun hskip => hrow (heq.trans (if_pos hskip))⟩
    rintro (hhalted | hearly)
    · exact hhalted hgoing
    · exact hearly hdue
  · intro key old waits open_
    have hwaits : moveWaits s dst.val par.val = true ↔ waits := by
      have hiff := moveWaits_iff (s := s) (d := dst.val) (par := par.val)
      rwa [moveKey, Nat.mod_eq_of_lt par.isLt] at hiff
    have heq := routeMove_eq (s := s) dst.isLt par.isLt
    refine ⟨fun hwait hclosed => congrArg Host.Outcome.next (heq.trans ?_), fun h => congrArg Host.Outcome.next (heq.trans ?_)⟩
    · rw [if_neg (by rw [hwaits.mpr hwait]; decide), if_neg fun hany => hclosed (openRequest_iff.mp hany)]
    · by_cases hwait : moveWaits s dst.val par.val = true
      · have hopen : open_ := h.resolve_left (not_not.mpr (hwaits.mp hwait))
        rw [if_neg (by rw [hwait]; decide), if_pos (openRequest_iff.mpr hopen)]
      · rw [if_pos (by rw [Bool.eq_false_iff.mpr hwait]; rfl)]
  · intro k msg row
    have hrow {i : Instr} {data : Bytes} {act : State → State} (hexec : exec i s = .next (controlArrives s k h data act)) : row i data :=
      ⟨fun hdown => hexec.trans (congrArg Host.Outcome.next (controlArrives_of_down hdown)),
        fun hup hdst => hexec.trans (congrArg Host.Outcome.next (controlArrives_elsewhere hup hdst))⟩
    exact ⟨fun n => hrow rfl, hrow rfl, hrow rfl, fun p lost => hrow rfl, hrow rfl, hrow rfl, hrow rfl, hrow rfl⟩
  · intro k hup hdst src msg s2 s3 paused
    exact ⟨congrArg Host.Outcome.next (controlArrives_here hup hdst), congrArg Host.Outcome.next (controlArrives_here hup hdst)⟩

end Sys2Proof.Machine

/-! PROOF. Membership epochs: the control messages of an epoch at the module that they name, the coordinator's run, and the switch. -/

namespace Sys2Proof.Machine

section Epochs

variable {s t : State} {p : EpochPlan} {r : EpochRun}

/-! ### What the messages of an epoch do -/

/-- A PREPARE is refused: another coordinator's plan has this epoch, the old epoch is open, or the epoch does not follow (R475, R476). -/
theorem takePrepare_eq {lost : Nat} :
    takePrepare s p lost =
      if (∃ q, s.span.prep = some q ∧ q.epoch = p.epoch ∧ q.coord ≠ p.coord) ∨ s.span.old ≠ none ∨
        (s.span.member = true ∧ p.epoch ≠ (epochNow s + 1) % 2 ^ 32) then sendPlan s p.coord p (controlData 6 0 p.epoch [])
      else
        let s2 := loseEvicted s p lost
        let s3 := writeRoutes { s2 with span := { s2.span with prep := some p } } p
        sendPlan (regPutF s3 .spnStatus 0 0 2 1 1) p.coord p (controlData 5 0 p.epoch []) := by
  unfold takePrepare
  exact if_congr (by simp only [Bool.or_eq_true, Bool.and_eq_true, Option.any_eq_true, beq_iff_eq, bne_iff_ne, decide_eq_true_eq,
    Option.isSome_iff_ne_none, or_assoc]) rfl rfl

theorem refuse_eq {epoch : Nat} :
    (if s.span.run.any (fun r => r.plan.epoch == epoch) then abortRun s 0x0C else s) =
      match s.span.run with
      | some r => if r.plan.epoch = epoch then abortRun s 0x0C else s
      | none => s := by
  cases s.span.run with
  | none => exact if_neg (by simp)
  | some r => exact if_congr (by simp) rfl rfl

theorem takeAbort_eq {epoch : Nat} :
    takeAbort s epoch =
      match s.span.prep with
      | some p => if p.epoch = epoch then regPutF { s with span := { s.span with prep := none } } .spnStatus 0 0 2 1 0 else s
      | none => s := by
  unfold takeAbort
  cases s.span.prep with
  | none => exact if_neg (by simp)
  | some p => exact if_congr (by simp) rfl rfl

/-! ### The coordinator's run and the close of the old epoch -/

theorem epochReadyTimeout_of_none (h : s.span.run = none) : epochReadyTimeout s = s := by
  unfold epochReadyTimeout
  rw [h]

theorem epochReadyTimeout_of_run (h : s.span.run = some r) :
    epochReadyTimeout s = if r.since + 12500000 ≤ s.clock then abortRun s 0x50 else s := by
  unfold epochReadyTimeout
  rw [h]

theorem abortRun_of_run (h : s.span.run = some r) (status : Nat) :
    abortRun s status =
      let sent := sendPeers s r.plan (controlData 8 0 r.plan.epoch [])
      let ended := { sent with span := { sent.span with run := none } }
      judgeLoss (if r.command then answerEpoch ended status else ended) := by
  unfold abortRun
  rw [h]

theorem epochClose_of_none (h : s.span.old = none) : epochClose s = s := by
  unfold epochClose
  rw [h]

theorem epochClose_of_old {o : OldEpoch} (h : s.span.old = some o) :
    epochClose s = if s.clock < o.since + 1250 * regF s .spnCtl 0 0 40 16 then s
      else
        let t := regPutF { s with span := { s.span with old := none } } .spnEpoch 0 0 32 1 0
        judgeLoss (t.facet.cores.foldl (fun t e => e.2.hcs.foldl (fun t h => endEpochXfers t e.1 h.1 o.epoch) t) t) := by
  unfold epochClose
  rw [h]

/-- Every new member is READY. -/
theorem allReady_iff : (membersOf r.plan.map).all (fun m => decide (m ∈ r.ready)) = true ↔ ∀ m ∈ r.plan.map, m ≠ 0xFF → m ∈ r.ready := by
  simp [membersOf, or_iff_not_imp_left]

theorem commitIfReady_of_run (h : s.span.run = some r) :
    commitIfReady s =
      if ∀ m ∈ r.plan.map, m ≠ 0xFF → m ∈ r.ready then
        let s1 := sendPeers s r.plan (controlData 7 0 r.plan.epoch [])
        let t := switchEpoch { s1 with span := { s1.span with run := none } } r.plan
        if r.command then answerEpoch t 0 else t
      else s := by
  unfold commitIfReady
  rw [h]
  exact if_congr allReady_iff rfl rfl

/-! ### The switch -/

theorem foldl_span {α : Type} {f : State → α → State} (hf : ∀ t a, (f t a).span = t.span ∧ (f t a).mem = t.mem) (l : List α) (s : State) :
    (l.foldl f s).span = s.span ∧ (l.foldl f s).mem = s.mem := by
  induction l generalizing s with
  | nil => exact ⟨rfl, rfl⟩
  | cons a l ih =>
    obtain ⟨hspan, hmem⟩ := ih (f s a)
    obtain ⟨hspan', hmem'⟩ := hf s a
    exact ⟨hspan.trans hspan', hmem.trans hmem'⟩

theorem putMap_span (s : State) (map : List Nat) : (putMap s map).span = s.span ∧ (putMap s map).mem = s.mem :=
  foldl_span (fun _ _ => ⟨regPut_span _ _ _ _ _, regPut_mem _ _ _ _ _⟩) _ s

/-- SPN_MESH and SPN_MAP as a switch writes them: those of the plan in a member, and else those of a module alone. -/
def meshRegisters (s : State) (isMember : Bool) (mesh : Nat) (map : List Nat) : State :=
  if isMember then putMap (regPut s .spnMesh 0 0 mesh) map else putMap (regPut s .spnMesh 0 0 0x4081) []

theorem meshRegisters_span (s : State) (isMember : Bool) (mesh : Nat) (map : List Nat) :
    (meshRegisters s isMember mesh map).span = s.span ∧ (meshRegisters s isMember mesh map).mem = s.mem := by
  have hput (mesh : Nat) (map : List Nat) :
      (putMap (regPut s .spnMesh 0 0 mesh) map).span = s.span ∧ (putMap (regPut s .spnMesh 0 0 mesh) map).mem = s.mem := by
    obtain ⟨hspan, hmem⟩ := putMap_span (regPut s .spnMesh 0 0 mesh) map
    exact ⟨hspan.trans (regPut_span _ _ _ _ _), hmem.trans (regPut_mem _ _ _ _ _)⟩
  cases isMember with
  | false => exact hput 0x4081 []
  | true => exact hput mesh map

theorem measure_span (s : State) (m : Nat) (x : Bytes) : (measure s m x).span = s.span ∧ (measure s m x).mem = s.mem :=
  foldl_span (fun _ _ => ⟨regPut_span _ _ _ _ _, regPut_mem _ _ _ _ _⟩) _ s

theorem measureSpan_span (s : State) : (measureSpan s).span = s.span ∧ (measureSpan s).mem = s.mem := measure_span s _ _

/-- The state of Span once the module has switched to a plan: the old epoch is open where the module was a member. -/
def switchedSpan (s : State) (p : EpochPlan) : Span :=
  { s.span with
    old := if s.span.member then some { epoch := epochNow s, map := epochMap s, since := s.clock } else none
    prep := none
    member := decide (ownId s ∈ p.map)
    downs := s.span.downs.filter (fun d => decide (d.1 ∈ p.map) && decide (d.2 ∈ p.map)) }

/-- The registers that a switch writes: SPN_EPOCH, the mesh and its map, SPN_STATUS, and the measurement. -/
def switchRegisters (s : State) (epoch : Nat) (isMember : Bool) (mesh : Nat) (map : List Nat) : State :=
  measureSpan (regPutF (meshRegisters (regPutF (regPut s .spnEpoch 0 0 epoch) .spnStatus 0 0 0 1 0) isMember mesh map) .spnStatus 0 0 2 1 0)

theorem switchRegisters_span (s : State) (epoch : Nat) (isMember : Bool) (mesh : Nat) (map : List Nat) :
    (switchRegisters s epoch isMember mesh map).span = s.span ∧ (switchRegisters s epoch isMember mesh map).mem = s.mem := by
  obtain ⟨hmeasured, hmeasured'⟩ := measureSpan_span
    (regPutF (meshRegisters (regPutF (regPut s .spnEpoch 0 0 epoch) .spnStatus 0 0 0 1 0) isMember mesh map) .spnStatus 0 0 2 1 0)
  obtain ⟨hmesh, hmesh'⟩ := meshRegisters_span (regPutF (regPut s .spnEpoch 0 0 epoch) .spnStatus 0 0 0 1 0) isMember mesh map
  exact ⟨hmeasured.trans ((regPutF_span _ _ _ _ _ _ _).trans hmesh), hmeasured'.trans ((regPutF_mem _ _ _ _ _ _ _).trans hmesh')⟩

/-- The switch writes registers, and then sends what is held: it leaves memory as it was. -/
theorem switchEpoch_sends (s : State) (p : EpochPlan) :
    ∃ t : State, switchEpoch s p = sendHeld t ∧ t.span = switchedSpan s p ∧ t.mem = s.mem := by
  obtain ⟨hspan, hmem⟩ := switchRegisters_span { s with span := switchedSpan s p }
    (p.epoch % 2 ^ 32 + b2n (switchedSpan s p).old.isSome * 2 ^ 32) (decide (ownId s ∈ p.map)) (meshWord s p) p.map
  exact ⟨_, rfl, hspan, hmem⟩

end Epochs

/-- Settles O60: each message by what it does at the module that it names, then the run of the coordinator and the switch. -/
theorem spanEpochs : Obligations.SpanEpochs := by
  unfold Obligations.SpanEpochs
  refine ⟨fun link h s => ?_, fun s => ⟨fun hnone => congrArg Host.Outcome.next (epochReadyTimeout_of_none hnone), fun r hsome => ?_⟩,
    fun s hrun => ⟨fun hnone => ?_, fun o hsome => ?_⟩, fun s p r hsome hplan => ?_, fun s p => ?_⟩
  · intro k hup hdst src arrived
    have hrow {i : Instr} {data : Bytes} {act : State → State} {t : State} (hexec : exec i s = .next (controlArrives s k h data act))
        (hact : act (arrived data) = t) : exec i s = .next t :=
      hexec.trans (congrArg Host.Outcome.next ((controlArrives_here hup hdst).trans hact))
    refine ⟨fun neighbour => hrow rfl rfl, fun p lost => ⟨fun hrefused => ?_, fun htaken => ?_⟩, hrow rfl rfl, hrow rfl refuse_eq,
      hrow rfl rfl, hrow rfl takeAbort_eq⟩
    · exact hrow rfl (takePrepare_eq.trans (if_pos hrefused))
    · exact hrow rfl (takePrepare_eq.trans (if_neg htaken))
  · have heq := epochReadyTimeout_of_run hsome
    exact ⟨abortRun_of_run hsome, fun hdue => congrArg Host.Outcome.next (heq.trans (if_pos hdue)),
      fun hearly => congrArg Host.Outcome.next (heq.trans (if_neg (Nat.not_le.mpr hearly)))⟩
  · exact congrArg Host.Outcome.next ((whileRunning_running hrun _).trans (epochClose_of_none hnone))
  · have hrow : exec .epochClose s = .next _ :=
      congrArg Host.Outcome.next ((whileRunning_running hrun _).trans (epochClose_of_old hsome))
    exact ⟨fun hearly => hrow.trans (congrArg Host.Outcome.next (if_pos hearly)),
      fun hdue => hrow.trans (congrArg Host.Outcome.next (if_neg (Nat.not_lt.mpr hdue)))⟩
  · subst hplan
    have heq := commitIfReady_of_run hsome
    refine ⟨fun hall => heq.trans (if_pos hall), fun ⟨m, hmap, hmember, hwaits⟩ => heq.trans (if_neg fun hall => ?_)⟩
    exact hwaits (hall m hmap hmember)
  · obtain ⟨t, hsends, hspan, hmem⟩ := switchEpoch_sends s p
    exact ⟨t, hsends, congrArg Span.prep hspan, congrArg Span.member hspan, congrArg Span.old hspan, hmem⟩

end Sys2Proof.Machine
